-- ==== Sys2Proof/Word.lean ====
section
/-! DEFINITION. The word types of the SF480 and their plainest arithmetic (spec/00 R9, R14). -/

namespace Sys2Proof

/-- A scalar register, an address or a doubleword. -/
abbrev Word := BitVec 64

/-- A byte of memory. -/
abbrev Byte := BitVec 8

/-- One vector register: 64 lanes of 32 bits (spec/02 R40). -/
abbrev VReg := BitVec 2048

/-- An instruction word (spec/01 R15). -/
abbrev IWord := BitVec 32

/-- A register field of an instruction word. -/
abbrev Reg := BitVec 5

end Sys2Proof
end

