-- ==== Sys2Proof/Config.lean ====
section
/-! DEFINITION. What one implementation fixes and the values the spec leaves free: opaque constants without a body, so that
nothing about them can be proved. Each is named in a log entry. -/

namespace Sys2Proof.Config

/-- A free 64-bit value for the `n`-th draw (spec/00 R8, R418); the draw number is `State.tick`. -/
opaque freeWord : Nat → Word

/-- A free byte for the `n`-th draw: the unpredictable values of spec/00 R8. -/
opaque freeByte : Nat → Byte

/-- Nanoseconds that pass in the step with this number (spec/00 R418: any finite time). -/
opaque elapsed : Nat → Nat

/-- Whether an estimate of VRCP, VRSQ, VEXP2 or VLOG2 takes the upper of its two candidates
(spec/03 R77: within 1 ulp), by function, format code, FTZ and operand. -/
opaque estimateUp : Nat → Nat → Bool → Nat → Bool

/-- Whether an access that finds a cached translation uses it rather than a new walk (spec/16 R319), by draw number. -/
opaque tlbUse : Nat → Bool

/-- Whether an access that finds a translation in its core's TLB and another in its cluster's uses the core's (spec/16 R319), by draw number. -/
opaque coreTlbFirst : Nat → Bool

/-- Whether a cluster has dropped the instruction-cache line that a fetch looks for (spec/08 R204: at any time), by draw number. -/
opaque lineDropped : Nat → Bool

/-- The host page that holds a 4 KiB page of a partition's PASID, given as PASID plus 2^21 times the partition (spec/16 R314, R323: as the host has mapped
them); the PASID 2^20 stands for none. -/
opaque hostPage : Nat → Nat → Nat

/-- The column cap HCOL of a core by the array self-test (spec/10 R214): whether a column group of an M-core is mapped
out, by core number. -/
opaque columnFault : Nat → Bool

/-- Whether an E-core is mapped out as a whole by the array self-test (spec/10 R214), by core number. -/
opaque mappedOut : Nat → Bool

/-- The certificate chain in a slot of the SPDM responder (spec/18 R373). -/
opaque certificate : Nat → List Byte

/-- The datum firmware of a version, measured in block 1 (spec/18 R374). -/
opaque datumFirmware : Nat → List Byte

/-- The field firmware, measured in block 3 (spec/18 R374). -/
opaque fieldFirmware : List Byte

/-- The bytes that list a partition layout, measured in block 2 (spec/18 R374). -/
opaque layoutBytes : List Nat → List Byte

end Sys2Proof.Config
end

