-- ==== Sys2Proof/Syntax.lean ====
section
/-! DEFINITION. The instructions and the other steps of the SF480: one constructor for each row of spec/opcode_table.json.
The first 220 are wave instruction words (spec/01 R15 to R24), the plumb words are those of spec/18 R367, the rest are the
events of spec/95, which have no word; an event's arguments name its place and carry what the outside world supplies.
The words stand first because Lean's compiler builds only constructors with an index up to 244. -/

namespace Sys2Proof

/-- A place of soft-error damage in core state (spec/14 R291). -/
inductive SoftSite where
  | scalar (wave : Nat) (n : Reg)
  | vector (wave : Nat) (n : Reg)
  | slot (core slot : Nat)
  | accumulator (block set : Nat)
  | scratch (block offset : Nat)
  /-- One that the error correction of a core corrected. -/
  | corrected (core : Nat)
  deriving DecidableEq, Repr

/-- A granule of memory with a storage error (spec/16 R332): HBM or vault of a partition, or a core's scratchpad. -/
inductive MemPlace where
  | hbm (part addr : Nat)
  | vault (part addr : Nat)
  | scratch (core addr : Nat)
  deriving DecidableEq, Repr

/-- What PARTITION_FORM sets (spec/16 R321, spec/10 R214, spec/19 R380, R383, spec/18 R374). -/
structure PartSpec where
  id : Nat
  clusters : List Nat
  cap : Nat
  regulator : Nat
  allotMj : Nat
  keySlots : List Nat
  deriving DecidableEq, Repr

/-- A request to load a code object (spec/01 R33 to R39): where, and its bytes. -/
structure ObjectLoad where
  ctx : Nat
  textBase : Nat
  dataBase : Nat
  bytes : List Byte
  deriving DecidableEq, Repr

/-- What a remote requester asks (spec/22 R405 to R413). -/
inductive RemoteOp where
  | read (addr n : Nat)
  | write (addr : Nat) (bytes : List Byte) (poisoned : Bool)
  | amo (fn : Nat) (w32 : Bool) (addr : Nat) (v : Word)
  | cas (w32 : Bool) (addr : Nat) (expected v : Word)
  | rred (op fmt addr : Nat) (v : BitVec 32) (scale : Byte)
  | rsig (addr : Nat) (v : Word)
  deriving DecidableEq, Repr

/-- A request arriving from a device (spec/22 R405, R407, R411): source device and partition, sequence number, operation, and the number of the packet it
came in. -/
structure RemoteIn where
  dev : Nat
  part : Nat
  seq : Nat
  op : RemoteOp
  packet : Nat
  deriving DecidableEq, Repr

/-- The answer to a remote request (spec/22 R405, R409): the bytes read, in the order of its elements, with their poison
flags, up to the lowest element whose target refused it or could not be reached, if any. -/
structure RemoteAnswer where
  bytes : List Byte
  poisoned : List Bool
  failed : Option Nat
  deriving DecidableEq, Repr

/-- A host requester's access to device memory (spec/16 R332, row HOST_ACCESS), or to its own memory. -/
inductive HostIn where
  | readHbm (part addr n : Nat)
  | writeHbm (part addr : Nat) (bytes : List Byte) (poisoned : Bool)
  | writeHost (addr : Nat) (bytes : List Byte)
  deriving DecidableEq, Repr

/-- A register written through the debug port (spec/21 R398, spec/07 R191). -/
inductive DebugReg where
  | s (n : Reg) (v : Word)
  | v (n : Reg) (v : VReg)
  | k (n : BitVec 3) (v : Word)
  | pc (v : Word)
  deriving DecidableEq, Repr

/-- The pinned values of a queue (spec/21 R401); class 0 M, 1 E, none any; the HCOL of the first grant record. -/
structure Pin where
  vlcap : Nat
  power : Nat
  cls : Option Nat
  hcol : Nat
  deriving DecidableEq, Repr

/-- The steps of the SF480. -/
inductive Instr where
  /-- ADD, R97. -/
  | add (d : BitVec 5) (a : BitVec 5) (b : BitVec 5) (w : BitVec 1)
  /-- SUB, R97. -/
  | sub (d : BitVec 5) (a : BitVec 5) (b : BitVec 5) (w : BitVec 1)
  /-- MUL, R97. -/
  | mul (d : BitVec 5) (a : BitVec 5) (b : BitVec 5) (w : BitVec 1)
  /-- MULH, R97. -/
  | mulh (d : BitVec 5) (a : BitVec 5) (b : BitVec 5) (w : BitVec 1)
  /-- MULHN, R97. -/
  | mulhn (d : BitVec 5) (a : BitVec 5) (b : BitVec 5) (w : BitVec 1)
  /-- DIV, R97. -/
  | div (d : BitVec 5) (a : BitVec 5) (b : BitVec 5) (w : BitVec 1)
  /-- DIVN, R97. -/
  | divn (d : BitVec 5) (a : BitVec 5) (b : BitVec 5) (w : BitVec 1)
  /-- REM, R97. -/
  | rem (d : BitVec 5) (a : BitVec 5) (b : BitVec 5) (w : BitVec 1)
  /-- REMN, R97. -/
  | remn (d : BitVec 5) (a : BitVec 5) (b : BitVec 5) (w : BitVec 1)
  /-- AND, R97. -/
  | and (d : BitVec 5) (a : BitVec 5) (b : BitVec 5) (w : BitVec 1)
  /-- OR, R97. -/
  | or (d : BitVec 5) (a : BitVec 5) (b : BitVec 5) (w : BitVec 1)
  /-- XOR, R97. -/
  | xor (d : BitVec 5) (a : BitVec 5) (b : BitVec 5) (w : BitVec 1)
  /-- SHL, R97. -/
  | shl (d : BitVec 5) (a : BitVec 5) (b : BitVec 5) (w : BitVec 1)
  /-- SHR, R97. -/
  | shr (d : BitVec 5) (a : BitVec 5) (b : BitVec 5) (w : BitVec 1)
  /-- SHA, R97. -/
  | sha (d : BitVec 5) (a : BitVec 5) (b : BitVec 5) (w : BitVec 1)
  /-- SLT, R97. -/
  | slt (d : BitVec 5) (a : BitVec 5) (b : BitVec 5) (w : BitVec 1)
  /-- SLTN, R97. -/
  | sltn (d : BitVec 5) (a : BitVec 5) (b : BitVec 5) (w : BitVec 1)
  /-- MIN, R97. -/
  | min (d : BitVec 5) (a : BitVec 5) (b : BitVec 5) (w : BitVec 1)
  /-- MAX, R97. -/
  | max (d : BitVec 5) (a : BitVec 5) (b : BitVec 5) (w : BitVec 1)
  /-- MINN, R97. -/
  | minn (d : BitVec 5) (a : BitVec 5) (b : BitVec 5) (w : BitVec 1)
  /-- MAXN, R97. -/
  | maxn (d : BitVec 5) (a : BitVec 5) (b : BitVec 5) (w : BitVec 1)
  /-- CLZ, R97. -/
  | clz (d : BitVec 5) (a : BitVec 5) (w : BitVec 1)
  /-- CTZ, R97. -/
  | ctz (d : BitVec 5) (a : BitVec 5) (w : BitVec 1)
  /-- POPC, R97. -/
  | popc (d : BitVec 5) (a : BitVec 5) (w : BitVec 1)
  /-- SEXT, R97. -/
  | sext (d : BitVec 5) (a : BitVec 5) (b : BitVec 5)
  /-- ZEXT, R97. -/
  | zext (d : BitVec 5) (a : BitVec 5) (b : BitVec 5)
  /-- ADDI, R98. -/
  | addi (d : BitVec 5) (a : BitVec 5) (imm : BitVec 16)
  /-- ANDI, R98. -/
  | andi (d : BitVec 5) (a : BitVec 5) (imm : BitVec 16)
  /-- ORI, R98. -/
  | ori (d : BitVec 5) (a : BitVec 5) (imm : BitVec 16)
  /-- XORI, R98. -/
  | xori (d : BitVec 5) (a : BitVec 5) (imm : BitVec 16)
  /-- SHLI, R98. -/
  | shli (d : BitVec 5) (a : BitVec 5) (m : BitVec 6)
  /-- SHRI, R98. -/
  | shri (d : BitVec 5) (a : BitVec 5) (m : BitVec 6)
  /-- SHAI, R98. -/
  | shai (d : BitVec 5) (a : BitVec 5) (m : BitVec 6)
  /-- SLTI, R98. -/
  | slti (d : BitVec 5) (a : BitVec 5) (imm : BitVec 16)
  /-- SLTNI, R98. -/
  | sltni (d : BitVec 5) (a : BitVec 5) (imm : BitVec 16)
  /-- LI, R99. -/
  | li (d : BitVec 5) (imm : BitVec 21)
  /-- LIH, R99. -/
  | lih (d : BitVec 5) (imm : BitVec 21)
  /-- LDS_S8, R100. -/
  | ldsS8 (d : BitVec 5) (a : BitVec 5) (off : BitVec 13)
  /-- LDS_S16, R100. -/
  | ldsS16 (d : BitVec 5) (a : BitVec 5) (off : BitVec 13)
  /-- LDS_S32, R100. -/
  | ldsS32 (d : BitVec 5) (a : BitVec 5) (off : BitVec 13)
  /-- LDS_S64, R100. -/
  | ldsS64 (d : BitVec 5) (a : BitVec 5) (off : BitVec 13)
  /-- LDS_N8, R100. -/
  | ldsN8 (d : BitVec 5) (a : BitVec 5) (off : BitVec 13)
  /-- LDS_N16, R100. -/
  | ldsN16 (d : BitVec 5) (a : BitVec 5) (off : BitVec 13)
  /-- LDS_N32, R100. -/
  | ldsN32 (d : BitVec 5) (a : BitVec 5) (off : BitVec 13)
  /-- STS_8, R101. -/
  | sts8 (d : BitVec 5) (a : BitVec 5) (off : BitVec 13)
  /-- STS_16, R101. -/
  | sts16 (d : BitVec 5) (a : BitVec 5) (off : BitVec 13)
  /-- STS_32, R101. -/
  | sts32 (d : BitVec 5) (a : BitVec 5) (off : BitVec 13)
  /-- STS_64, R101. -/
  | sts64 (d : BitVec 5) (a : BitVec 5) (off : BitVec 13)
  /-- AMO_ADD, R157. -/
  | amoAdd (d : BitVec 5) (a : BitVec 5) (b : BitVec 5) (w : BitVec 1) (c : BitVec 5)
  /-- AMO_AND, R157. -/
  | amoAnd (d : BitVec 5) (a : BitVec 5) (b : BitVec 5) (w : BitVec 1) (c : BitVec 5)
  /-- AMO_OR, R157. -/
  | amoOr (d : BitVec 5) (a : BitVec 5) (b : BitVec 5) (w : BitVec 1) (c : BitVec 5)
  /-- AMO_XOR, R157. -/
  | amoXor (d : BitVec 5) (a : BitVec 5) (b : BitVec 5) (w : BitVec 1) (c : BitVec 5)
  /-- AMO_MIN, R157. -/
  | amoMin (d : BitVec 5) (a : BitVec 5) (b : BitVec 5) (w : BitVec 1) (c : BitVec 5)
  /-- AMO_MAX, R157. -/
  | amoMax (d : BitVec 5) (a : BitVec 5) (b : BitVec 5) (w : BitVec 1) (c : BitVec 5)
  /-- AMO_MINN, R157. -/
  | amoMinn (d : BitVec 5) (a : BitVec 5) (b : BitVec 5) (w : BitVec 1) (c : BitVec 5)
  /-- AMO_MAXN, R157. -/
  | amoMaxn (d : BitVec 5) (a : BitVec 5) (b : BitVec 5) (w : BitVec 1) (c : BitVec 5)
  /-- AMO_SWAP, R157. -/
  | amoSwap (d : BitVec 5) (a : BitVec 5) (b : BitVec 5) (w : BitVec 1) (c : BitVec 5)
  /-- AMO_FADD, R157. -/
  | amoFadd (d : BitVec 5) (a : BitVec 5) (b : BitVec 5) (w : BitVec 1) (c : BitVec 5)
  /-- CAS, R159. -/
  | cas (d : BitVec 5) (a : BitVec 5) (b : BitVec 5) (w : BitVec 1) (c : BitVec 5)
  /-- FENCE, R162. -/
  | fence (sq : BitVec 1) (od : BitVec 2) (scp : BitVec 3)
  /-- FENCE_X, R164. -/
  | fenceX (frm : BitVec 6) (dst : BitVec 6)
  /-- BEQ, R103. -/
  | beq (a : BitVec 5) (b : BitVec 5) (off : BitVec 16)
  /-- BNE, R103. -/
  | bne (a : BitVec 5) (b : BitVec 5) (off : BitVec 16)
  /-- BLT, R103. -/
  | blt (a : BitVec 5) (b : BitVec 5) (off : BitVec 16)
  /-- BGE, R103. -/
  | bge (a : BitVec 5) (b : BitVec 5) (off : BitVec 16)
  /-- BLTN, R103. -/
  | bltn (a : BitVec 5) (b : BitVec 5) (off : BitVec 16)
  /-- BGEN, R103. -/
  | bgen (a : BitVec 5) (b : BitVec 5) (off : BitVec 16)
  /-- JAL, R103. -/
  | jal (off : BitVec 26)
  /-- JALR, R103. -/
  | jalr (d : BitVec 5) (a : BitVec 5) (imm : BitVec 16)
  /-- LOOP, R105. -/
  | loop (a : BitVec 5) (imm : BitVec 16)
  /-- BRD, R109. -/
  | brd (a : BitVec 3) (off : BitVec 16)
  /-- JOIN, R110. -/
  | join
  /-- YIELD, R111. -/
  | yield
  /-- NOP, R112. -/
  | nop
  /-- TRAP, R113. -/
  | trap (n : BitVec 12)
  /-- SYSC, R114. -/
  | sysc (n : BitVec 12)
  /-- BRK, R113. -/
  | brk (n : BitVec 12)
  /-- RTE, R186. -/
  | rte
  /-- HALT, R115. -/
  | halt
  /-- WFE, R116. -/
  | wfe
  /-- CLAIMV, R117. -/
  | claimv
  /-- RSTV, R117. -/
  | rstv
  /-- SRR, R118. -/
  | srr (d : BitVec 5) (n : BitVec 12)
  /-- SRW, R118. -/
  | srw (a : BitVec 5) (n : BitVec 12)
  /-- SPAWN, R248. -/
  | spawn (d : BitVec 5) (a : BitVec 5) (b : BitVec 5)
  /-- SPAWNF, R248. -/
  | spawnf (d : BitVec 5) (a : BitVec 5) (b : BitVec 5)
  /-- EXIT, R274. -/
  | exit
  /-- CONT, R275. -/
  | cont (d : BitVec 5) (a : BitVec 5)
  /-- LEASE, R385. -/
  | lease (d : BitVec 5) (a : BitVec 5) (mn : BitVec 10) (lv : BitVec 2)
  /-- LREL, R386. -/
  | lrel
  /-- LQRY, R386. -/
  | lqry (d : BitVec 5)
  /-- SETVL, R129. -/
  | setvl (d : BitVec 5) (a : BitVec 5)
  /-- SETVLI, R129. -/
  | setvli (d : BitVec 5) (n : BitVec 12)
  /-- MODE, R130. -/
  | mode (d : BitVec 5) (a : BitVec 5)
  /-- SPACE, R130. -/
  | space (d : BitVec 5) (a : BitVec 5)
  /-- VADD, R132. -/
  | vadd (d : BitVec 5) (a : BitVec 5) (b : BitVec 5) (x : BitVec 1)
  /-- VSUB, R132. -/
  | vsub (d : BitVec 5) (a : BitVec 5) (b : BitVec 5) (x : BitVec 1)
  /-- VMUL, R132. -/
  | vmul (d : BitVec 5) (a : BitVec 5) (b : BitVec 5) (x : BitVec 1)
  /-- VDIV, R132. -/
  | vdiv (d : BitVec 5) (a : BitVec 5) (b : BitVec 5) (x : BitVec 1)
  /-- VMIN, R132. -/
  | vmin (d : BitVec 5) (a : BitVec 5) (b : BitVec 5) (x : BitVec 1)
  /-- VMAX, R132. -/
  | vmax (d : BitVec 5) (a : BitVec 5) (b : BitVec 5) (x : BitVec 1)
  /-- VAND, R132. -/
  | vand (d : BitVec 5) (a : BitVec 5) (b : BitVec 5) (x : BitVec 1)
  /-- VOR, R132. -/
  | vor (d : BitVec 5) (a : BitVec 5) (b : BitVec 5) (x : BitVec 1)
  /-- VXOR, R132. -/
  | vxor (d : BitVec 5) (a : BitVec 5) (b : BitVec 5) (x : BitVec 1)
  /-- VSHL, R132. -/
  | vshl (d : BitVec 5) (a : BitVec 5) (b : BitVec 5) (x : BitVec 1)
  /-- VSHR, R132. -/
  | vshr (d : BitVec 5) (a : BitVec 5) (b : BitVec 5) (x : BitVec 1)
  /-- VSHA, R132. -/
  | vsha (d : BitVec 5) (a : BitVec 5) (b : BitVec 5) (x : BitVec 1)
  /-- VMULH, R132. -/
  | vmulh (d : BitVec 5) (a : BitVec 5) (b : BitVec 5) (x : BitVec 1)
  /-- VABSD, R132. -/
  | vabsd (d : BitVec 5) (a : BitVec 5) (b : BitVec 5) (x : BitVec 1)
  /-- VFMA, R133. -/
  | vfma (d : BitVec 5) (a : BitVec 5) (b : BitVec 5) (x : BitVec 1) (c : BitVec 5)
  /-- VFMS, R133. -/
  | vfms (d : BitVec 5) (a : BitVec 5) (b : BitVec 5) (x : BitVec 1) (c : BitVec 5)
  /-- VFNMA, R133. -/
  | vfnma (d : BitVec 5) (a : BitVec 5) (b : BitVec 5) (x : BitVec 1) (c : BitVec 5)
  /-- VFNMS, R133. -/
  | vfnms (d : BitVec 5) (a : BitVec 5) (b : BitVec 5) (x : BitVec 1) (c : BitVec 5)
  /-- VSQRT, R134. -/
  | vsqrt (d : BitVec 5) (a : BitVec 5)
  /-- VRCP, R134. -/
  | vrcp (d : BitVec 5) (a : BitVec 5)
  /-- VRSQ, R134. -/
  | vrsq (d : BitVec 5) (a : BitVec 5)
  /-- VEXP2, R134. -/
  | vexp2 (d : BitVec 5) (a : BitVec 5)
  /-- VLOG2, R134. -/
  | vlog2 (d : BitVec 5) (a : BitVec 5)
  /-- VABS, R134. -/
  | vabs (d : BitVec 5) (a : BitVec 5)
  /-- VNEG, R134. -/
  | vneg (d : BitVec 5) (a : BitVec 5)
  /-- VNOT, R134. -/
  | vnot (d : BitVec 5) (a : BitVec 5)
  /-- VCLASS, R134. -/
  | vclass (d : BitVec 5) (a : BitVec 5)
  /-- VMOV, R134. -/
  | vmov (d : BitVec 5) (a : BitVec 5)
  /-- VBCAST, R134. -/
  | vbcast (d : BitVec 5) (a : BitVec 5)
  /-- VIOTA, R134. -/
  | viota (d : BitVec 5) (a : BitVec 3)
  /-- VCMP_EQ, R136. -/
  | vcmpEq (d : BitVec 3) (a : BitVec 5) (b : BitVec 5) (x : BitVec 1)
  /-- VCMP_NE, R136. -/
  | vcmpNe (d : BitVec 3) (a : BitVec 5) (b : BitVec 5) (x : BitVec 1)
  /-- VCMP_LT, R136. -/
  | vcmpLt (d : BitVec 3) (a : BitVec 5) (b : BitVec 5) (x : BitVec 1)
  /-- VCMP_LE, R136. -/
  | vcmpLe (d : BitVec 3) (a : BitVec 5) (b : BitVec 5) (x : BitVec 1)
  /-- VCMP_GT, R136. -/
  | vcmpGt (d : BitVec 3) (a : BitVec 5) (b : BitVec 5) (x : BitVec 1)
  /-- VCMP_GE, R136. -/
  | vcmpGe (d : BitVec 3) (a : BitVec 5) (b : BitVec 5) (x : BitVec 1)
  /-- VCMP_LTN, R136. -/
  | vcmpLtn (d : BitVec 3) (a : BitVec 5) (b : BitVec 5) (x : BitVec 1)
  /-- VCMP_GEN, R136. -/
  | vcmpGen (d : BitVec 3) (a : BitVec 5) (b : BitVec 5) (x : BitVec 1)
  /-- VCMP_UNORD, R136. -/
  | vcmpUnord (d : BitVec 3) (a : BitVec 5) (b : BitVec 5) (x : BitVec 1)
  /-- VCVT, R138. -/
  | vcvt (d : BitVec 5) (a : BitVec 5) (b : BitVec 5) (c : BitVec 5)
  /-- VCVTQ, R139. -/
  | vcvtq (d : BitVec 5) (a : BitVec 5) (b : BitVec 5) (fm : BitVec 2) (sat : BitVec 1) (bsel : BitVec 2)
  /-- VCVTD, R139. -/
  | vcvtd (d : BitVec 5) (a : BitVec 5) (b : BitVec 5) (fm : BitVec 2) (bsel : BitVec 2)
  /-- VSHFL, R140. -/
  | vshfl (d : BitVec 5) (a : BitVec 5) (b : BitVec 5)
  /-- VSLUP, R140. -/
  | vslup (d : BitVec 5) (a : BitVec 5) (b : BitVec 5)
  /-- VSLDN, R140. -/
  | vsldn (d : BitVec 5) (a : BitVec 5) (b : BitVec 5)
  /-- VCOMPR, R140. -/
  | vcompr (d : BitVec 5) (a : BitVec 5) (c : BitVec 3)
  /-- VEXPND, R140. -/
  | vexpnd (d : BitVec 5) (a : BitVec 5) (c : BitVec 3)
  /-- VEXTR, R140. -/
  | vextr (d : BitVec 5) (a : BitVec 5) (b : BitVec 5)
  /-- VINS, R140. -/
  | vins (d : BitVec 5) (a : BitVec 5) (b : BitVec 5)
  /-- VSEL, R140. -/
  | vsel (d : BitVec 5) (a : BitVec 5) (b : BitVec 5) (c : BitVec 3)
  /-- VRED_SUM, R142. -/
  | vredSum (d : BitVec 5) (a : BitVec 5) (b : BitVec 5)
  /-- VRED_MAX, R142. -/
  | vredMax (d : BitVec 5) (a : BitVec 5) (b : BitVec 5)
  /-- VRED_MIN, R142. -/
  | vredMin (d : BitVec 5) (a : BitVec 5) (b : BitVec 5)
  /-- VRED_AND, R142. -/
  | vredAnd (d : BitVec 5) (a : BitVec 5) (b : BitVec 5)
  /-- VRED_OR, R142. -/
  | vredOr (d : BitVec 5) (a : BitVec 5) (b : BitVec 5)
  /-- VRED_XOR, R142. -/
  | vredXor (d : BitVec 5) (a : BitVec 5) (b : BitVec 5)
  /-- VRED_SUMO, R142. -/
  | vredSumo (d : BitVec 5) (a : BitVec 5) (b : BitVec 5)
  /-- MAND, R143. -/
  | mand (d : BitVec 3) (a : BitVec 3) (b : BitVec 3)
  /-- MOR, R143. -/
  | mor (d : BitVec 3) (a : BitVec 3) (b : BitVec 3)
  /-- MXOR, R143. -/
  | mxor (d : BitVec 3) (a : BitVec 3) (b : BitVec 3)
  /-- MANDN, R143. -/
  | mandn (d : BitVec 3) (a : BitVec 3) (b : BitVec 3)
  /-- MNOT, R143. -/
  | mnot (d : BitVec 3) (a : BitVec 3)
  /-- MCNT, R143. -/
  | mcnt (d : BitVec 5) (a : BitVec 3)
  /-- MFIRST, R143. -/
  | mfirst (d : BitVec 5) (a : BitVec 3)
  /-- MTIL, R143. -/
  | mtil (d : BitVec 3) (a : BitVec 3)
  /-- MTILI, R143. -/
  | mtili (d : BitVec 3) (a : BitVec 3)
  /-- MSET, R143. -/
  | mset (d : BitVec 3)
  /-- MCLR, R143. -/
  | mclr (d : BitVec 3)
  /-- MMOVS, R143. -/
  | mmovs (d : BitVec 5) (a : BitVec 3)
  /-- MMOVK, R143. -/
  | mmovk (d : BitVec 3) (a : BitVec 5)
  /-- VLD, R153. -/
  | vld (d : BitVec 5) (a : BitVec 5)
  /-- VLDS, R153. -/
  | vlds (d : BitVec 5) (a : BitVec 5) (b : BitVec 5)
  /-- VLDX, R153. -/
  | vldx (d : BitVec 5) (a : BitVec 5) (b : BitVec 5)
  /-- VLDF, R154. -/
  | vldf (d : BitVec 5) (a : BitVec 5)
  /-- VST, R155. -/
  | vst (d : BitVec 5) (a : BitVec 5)
  /-- VSTS, R155. -/
  | vsts (d : BitVec 5) (a : BitVec 5) (b : BitVec 5)
  /-- VSTX, R155. -/
  | vstx (d : BitVec 5) (a : BitVec 5) (b : BitVec 5)
  /-- VAMO_ADD, R160. -/
  | vamoAdd (d : BitVec 5) (a : BitVec 5) (b : BitVec 5) (w : BitVec 1) (c : BitVec 5)
  /-- VAMO_AND, R160. -/
  | vamoAnd (d : BitVec 5) (a : BitVec 5) (b : BitVec 5) (w : BitVec 1) (c : BitVec 5)
  /-- VAMO_OR, R160. -/
  | vamoOr (d : BitVec 5) (a : BitVec 5) (b : BitVec 5) (w : BitVec 1) (c : BitVec 5)
  /-- VAMO_XOR, R160. -/
  | vamoXor (d : BitVec 5) (a : BitVec 5) (b : BitVec 5) (w : BitVec 1) (c : BitVec 5)
  /-- VAMO_MIN, R160. -/
  | vamoMin (d : BitVec 5) (a : BitVec 5) (b : BitVec 5) (w : BitVec 1) (c : BitVec 5)
  /-- VAMO_MAX, R160. -/
  | vamoMax (d : BitVec 5) (a : BitVec 5) (b : BitVec 5) (w : BitVec 1) (c : BitVec 5)
  /-- VAMO_MINN, R160. -/
  | vamoMinn (d : BitVec 5) (a : BitVec 5) (b : BitVec 5) (w : BitVec 1) (c : BitVec 5)
  /-- VAMO_MAXN, R160. -/
  | vamoMaxn (d : BitVec 5) (a : BitVec 5) (b : BitVec 5) (w : BitVec 1) (c : BitVec 5)
  /-- VAMO_SWAP, R160. -/
  | vamoSwap (d : BitVec 5) (a : BitVec 5) (b : BitVec 5) (w : BitVec 1) (c : BitVec 5)
  /-- VAMO_FADD, R160. -/
  | vamoFadd (d : BitVec 5) (a : BitVec 5) (b : BitVec 5) (w : BitVec 1) (c : BitVec 5)
  /-- SBIND, R167. -/
  | sbind (d : BitVec 5) (a : BitVec 5)
  /-- SUNB, R172. -/
  | sunb (d : BitVec 5)
  /-- SQRY, R173. -/
  | sqry (d : BitVec 5) (a : BitVec 5)
  /-- SETTILE, R232. -/
  | settile (d : BitVec 5) (a : BitVec 5)
  /-- TILEQ, R232. -/
  | tileq (d : BitVec 5) (a : BitVec 5)
  /-- OCLAIM, R235. -/
  | oclaim (d : BitVec 5) (nw : BitVec 1) (role : BitVec 1)
  /-- ORLS, R236. -/
  | orls (a : BitVec 5)
  /-- OFILL, R238. -/
  | ofill (d : BitVec 5) (a : BitVec 5)
  /-- OQRY, R239. -/
  | oqry (d : BitVec 5) (a : BitVec 5)
  /-- MMA, R240. -/
  | mma (d : BitVec 2) (a : BitVec 5) (b : BitVec 5) (hi : BitVec 1)
  /-- MMAS, R240. -/
  | mmas (d : BitVec 2) (a : BitVec 5) (b : BitVec 5) (hi : BitVec 1)
  /-- MMAZ, R240. -/
  | mmaz (d : BitVec 2) (a : BitVec 5) (b : BitVec 5) (hi : BitVec 1)
  /-- AZERO, R243. -/
  | azero (a : BitVec 2)
  /-- AXT, R245. -/
  | axt (d : BitVec 5) (a : BitVec 2) (b : BitVec 5)
  /-- AXTS, R245. -/
  | axts (d : BitVec 5) (a : BitVec 2) (b : BitVec 5) (fm : BitVec 2) (sat : BitVec 1) (bsel : BitVec 2)
  /-- AINS, R246. -/
  | ains (d : BitVec 5) (a : BitVec 2) (b : BitVec 5)
  /-- ASAVE, R247. -/
  | asave (d : BitVec 5) (a : BitVec 2) (b : BitVec 5)
  /-- ALOAD, R247. -/
  | aload (d : BitVec 5) (a : BitVec 2) (b : BitVec 5)
  /-- CPY_A, R253. -/
  | cpyA (d : BitVec 5) (a : BitVec 5) (b : BitVec 5) (x : BitVec 1) (c : BitVec 5)
  /-- CPY_B, R253. -/
  | cpyB (d : BitVec 5) (a : BitVec 5) (b : BitVec 5) (x : BitVec 1) (c : BitVec 5)
  /-- CPY_ST, R253. -/
  | cpySt (d : BitVec 5) (a : BitVec 5) (b : BitVec 5) (x : BitVec 1) (c : BitVec 5)
  /-- CPY_BOX, R261. -/
  | cpyBox (d : BitVec 5) (a : BitVec 5) (b : BitVec 5) (x : BitVec 1) (c : BitVec 5)
  /-- CPY_O, R260. -/
  | cpyO (d : BitVec 5) (a : BitVec 5) (b : BitVec 5) (x : BitVec 1) (c : BitVec 5)
  /-- CPY_SEAL, R262. -/
  | cpySeal (d : BitVec 5) (a : BitVec 5) (b : BitVec 5) (x : BitVec 1) (c : BitVec 5)
  /-- BAR_INIT, R266. -/
  | barInit (a : BitVec 5) (b : BitVec 5)
  /-- BAR_ARV, R266. -/
  | barArv (a : BitVec 5)
  /-- BAR_EXP, R266. -/
  | barExp (a : BitVec 5) (b : BitVec 5)
  /-- BAR_WAIT, R269. -/
  | barWait (a : BitVec 5) (b : BitVec 5)
  /-- BAR_TRY, R269. -/
  | barTry (d : BitVec 5) (a : BitVec 5)
  /-- BAR_TRIG, R270. -/
  | barTrig (d : BitVec 5) (a : BitVec 5) (b : BitVec 5)
  /-- WAITA, R271. -/
  | waita (a : BitVec 5) (b : BitVec 5)
  /-- WAITGE, R271. -/
  | waitge (a : BitVec 5) (b : BitVec 5)
  /-- NOTIFY, R272. -/
  | notify (a : BitVec 5)
  /-- RRED_ADD, R411. -/
  | rredAdd (d : BitVec 5) (a : BitVec 5) (b : BitVec 5) (fm : BitVec 2)
  /-- RRED_MAX, R411. -/
  | rredMax (d : BitVec 5) (a : BitVec 5) (b : BitVec 5) (fm : BitVec 2)
  /-- RRED_MIN, R411. -/
  | rredMin (d : BitVec 5) (a : BitVec 5) (b : BitVec 5) (fm : BitVec 2)
  /-- RSIG, R413. -/
  | rsig (a : BitVec 5) (b : BitVec 5)
  /-- COVQ, R348. -/
  | covq (d : BitVec 5)
  /-- PLUMB_LDI, R367. -/
  | plumbLdi (d : BitVec 3) (imm : BitVec 8)
  /-- PLUMB_MOV, R367. -/
  | plumbMov (d : BitVec 3) (a : BitVec 3)
  /-- PLUMB_ADD, R367. -/
  | plumbAdd (d : BitVec 3) (a : BitVec 3) (b : BitVec 3)
  /-- PLUMB_SUB, R367. -/
  | plumbSub (d : BitVec 3) (a : BitVec 3) (b : BitVec 3)
  /-- PLUMB_AND, R367. -/
  | plumbAnd (d : BitVec 3) (a : BitVec 3) (b : BitVec 3)
  /-- PLUMB_OR, R367. -/
  | plumbOr (d : BitVec 3) (a : BitVec 3) (b : BitVec 3)
  /-- PLUMB_XOR, R367. -/
  | plumbXor (d : BitVec 3) (a : BitVec 3) (b : BitVec 3)
  /-- PLUMB_SHL, R367. -/
  | plumbShl (d : BitVec 3) (a : BitVec 3) (b : BitVec 3)
  /-- PLUMB_SHR, R367. -/
  | plumbShr (d : BitVec 3) (a : BitVec 3) (b : BitVec 3)
  /-- PLUMB_CMP_EQ, R367. -/
  | plumbCmpEq (d : BitVec 3) (a : BitVec 3) (b : BitVec 3)
  /-- PLUMB_CMP_NE, R367. -/
  | plumbCmpNe (d : BitVec 3) (a : BitVec 3) (b : BitVec 3)
  /-- PLUMB_CMP_LTN, R367. -/
  | plumbCmpLtn (d : BitVec 3) (a : BitVec 3) (b : BitVec 3)
  /-- PLUMB_CMP_LT, R367. -/
  | plumbCmpLt (d : BitVec 3) (a : BitVec 3) (b : BitVec 3)
  /-- PLUMB_SEL, R367. -/
  | plumbSel (d : BitVec 3) (a : BitVec 3) (b : BitVec 3)
  /-- PLUMB_BRF, R367. -/
  | plumbBrf (a : BitVec 3) (off : BitVec 8)
  /-- PLUMB_LOOPN, R367. -/
  | plumbLoopn (n : BitVec 8) (l : BitVec 16)
  /-- PLUMB_RDTL, R367. -/
  | plumbRdtl (d : BitVec 3) (a : BitVec 3)
  /-- PLUMB_WRTL, R367. -/
  | plumbWrtl (a : BitVec 3)
  /-- PLUMB_WAITTL, R367. -/
  | plumbWaittl (a : BitVec 3) (b : BitVec 3)
  /-- PLUMB_RDM, R367. -/
  | plumbRdm (d : BitVec 3) (a : BitVec 3) (off : BitVec 5)
  /-- PLUMB_WRM, R367. -/
  | plumbWrm (d : BitVec 3) (a : BitVec 3) (off : BitVec 5)
  /-- PLUMB_EMIT, R368. -/
  | plumbEmit (a : BitVec 3)
  /-- PLUMB_END, R367. -/
  | plumbEnd
  /-- ILLEGAL_INSTRUCTION_WORD, R22: a fetched word that is not an instruction. -/
  | illegalInstructionWord (w : IWord)
  /-- LONG_LATENCY_WRITE, R56: the `n`-th pending write of a wave is made. -/
  | longLatencyWrite (wave n : Nat)
  /-- VECTOR_FAULT_POINT, R63. -/
  | vectorFaultPoint (wave : Nat)
  /-- ASYNC_TRAP_TAKE, R182. -/
  | asyncTrapTake (wave : Nat)
  /-- PARKED_FAULT_RESOLVE, R183: the host resolved the wave's parked fault. -/
  | parkedFaultResolve (wave : Nat)
  /-- PARKED_FAULT_DECLINE, R183: the host declined it. -/
  | parkedFaultDecline (wave : Nat)
  /-- STREAM_FILL, R168: a read stream of a wave, bound at vector register `v`. -/
  | streamFill (wave : Nat) (v : Reg)
  /-- STREAM_TAKE, R169: a write stream of a wave. -/
  | streamTake (wave : Nat) (v : Reg)
  /-- TILE_GRANT_APPLY, R233: a waiting SETTILE of a wave is applied. -/
  | tileGrantApply (wave : Nat)
  /-- MMA_DISPATCH, R220, on a core. -/
  | mmaDispatch (core : Nat)
  /-- MMA_COMPLETE, R221, on a core. -/
  | mmaComplete (core : Nat)
  /-- COPY_COMPLETION, R257, of the copy with this number. -/
  | copyCompletion (copy : Nat)
  /-- COPY_FAULT_ANSWER, R258: the host resolves or declines a copy's translation fault. -/
  | copyFaultAnswer (copy : Nat) (resolved : Bool)
  /-- TRIGGER_RETRY, R270, on a core. -/
  | triggerRetry (core : Nat)
  /-- BIN_TIMER_EXPIRY, R225: bin `bin` of a core. -/
  | binTimerExpiry (core bin : Nat)
  /-- BIN_BLOCK_LAUNCH, R226: a launched bin block starts on its core. -/
  | binBlockLaunch (core : Nat)
  /-- CHUNK_DEAL, R282: a chunk of a job is dealt, to an asking core when the gang size is 1. -/
  | chunkDeal (job core : Nat)
  /-- POINT_LAUNCH, R283, on a core. -/
  | pointLaunch (core : Nat)
  /-- GANG_PLACE, R285: the head gang of a queue. -/
  | gangPlace (queue : Nat)
  /-- GANG_AGEING_EXPIRY, R287: the head gang of a queue. -/
  | gangAgeingExpiry (queue : Nat)
  /-- BLOCK_END, R274, of the block with this number. -/
  | blockEnd (block : Nat)
  /-- CONTINUATION_START, R288, of the ended block with this number. -/
  | continuationStart (block : Nat)
  /-- GANG_SCRATCH_RELEASE, R252, of the gang with this number. -/
  | gangScratchRelease (gang : Nat)
  /-- CLUSTER_GATE, R300. -/
  | clusterGate (cluster : Nat)
  /-- SOFT_ERROR, R291: an uncorrectable error at a place in core state. -/
  | softError (site : SoftSite)
  /-- PREEMPT_REQUEST, R292: a context, and whether the request names the hard tier. -/
  | preemptRequest (ctx : Nat) (hard : Bool)
  /-- RESUME_REQUEST, R292: a context, and where its saved blocks resume (block, core). -/
  | resumeRequest (ctx : Nat) (place : List (Nat × Nat))
  /-- SOFT_DEADLINE_EXPIRY, R293. -/
  | softDeadlineExpiry (ctx : Nat)
  /-- COPY_GRACE_EXPIRY, R295. -/
  | copyGraceExpiry (ctx : Nat)
  /-- IMAGE_COMPLETE, R294. -/
  | imageComplete (ctx : Nat)
  /-- HARD_LIMIT_EXPIRY, R297. -/
  | hardLimitExpiry (ctx : Nat)
  /-- CAP_LOWER, R224, on a cluster. -/
  | capLower (cluster : Nat)
  /-- CAP_RAISE, R224, on a cluster. -/
  | capRaise (cluster : Nat)
  /-- LEASE_DECISION, R385: the oldest pending request of a context is evaluated. -/
  | leaseDecision (ctx : Nat)
  /-- LEASE_EXPIRY, R387: the lease of a context runs out. -/
  | leaseExpiry (ctx : Nat)
  /-- MELTF_UPDATE, R382: the new estimate. -/
  | meltfUpdate (melt : BitVec 16)
  /-- ENERGY_INTERVAL_END, R389: the measured energies, as cluster and microjoules. -/
  | energyIntervalEnd (energies : List (Nat × Nat))
  /-- EQUOTA_SET, R389. -/
  | equotaSet (ctx : Nat) (quota : Word)
  /-- SHOOTDOWN_REQUEST, R320: a PASID and the virtual range from `lo` up to, not including, `hi`. -/
  | shootdownRequest (pasid lo hi : Nat)
  /-- SHOOTDOWN_ARRIVAL, R320: shootdown `n` reaches a cluster. -/
  | shootdownArrival (n cluster : Nat)
  /-- SHOOTDOWN_ACK, R205: a cluster acknowledges shootdown `n`. -/
  | shootdownAck (n cluster : Nat)
  /-- NEAR_COPY_INVALIDATE, R308: the near copy of a line on a die goes. -/
  | nearCopyInvalidate (die part line : Nat)
  /-- MEMORY_ERROR, R332: an uncorrectable error in the storage of a granule, or a lost dirty line. -/
  | memoryError (place : MemPlace) (dirtyLine : Bool)
  /-- PARTITION_FORM, R321, R380. -/
  | partitionForm (p : PartSpec)
  /-- CLUSTER_MOVE, R324: a cluster joins a partition, or none. -/
  | clusterMove (cluster : Nat) (part : Option Nat)
  /-- CODE_OBJECT_LOAD, R38, R39. -/
  | codeObjectLoad (o : ObjectLoad)
  /-- CONTEXT_CREATE, R351: number, requesting function, the 32 bytes of the descriptor. -/
  | contextCreate (ctx fn : Nat) (desc : List Byte)
  /-- QUEUE_CREATE, R352: number, requesting function, the 64 bytes of the descriptor. -/
  | queueCreate (queue fn : Nat) (desc : List Byte)
  /-- QUEUE_DELETE, R353. -/
  | queueDelete (queue : Nat)
  /-- QUEUE_CLEAR, R365: with the next sequence number. -/
  | queueClear (queue : Nat) (next : Word)
  /-- PLUMB_PROGRAM_LOAD, R369: program number and words. -/
  | plumbProgramLoad (prog : Nat) (words : List (BitVec 16))
  /-- DOORBELL, R354. -/
  | doorbell (queue : Nat) (w : Word)
  /-- PACKET_FETCH, R356: one read of the next ring slot. -/
  | packetFetch (queue : Nat)
  /-- QUEUE_MEMORY_FAULT_ANSWER, R354. -/
  | queueMemoryFaultAnswer (queue : Nat) (resolved : Bool)
  /-- PACKET_JOB, R360: the accepted packet of a queue starts. -/
  | packetJob (queue : Nat)
  /-- PACKET_COPY, R355. -/
  | packetCopy (queue : Nat)
  /-- PACKET_TLWAIT, R357. -/
  | packetTlwait (queue : Nat)
  /-- PACKET_TLSET, R359. -/
  | packetTlset (queue : Nat)
  /-- PACKET_PLUMB, R366. -/
  | packetPlumb (queue : Nat)
  /-- PACKET_FENCE, R357. -/
  | packetFence (queue : Nat)
  /-- PACKET_NOP, R357. -/
  | packetNop (queue : Nat)
  /-- JOB_COMPLETE, R358. -/
  | jobComplete (job : Nat)
  /-- COPY_PACKET_COMPLETE, R358: the COPY packet with this copy number. -/
  | copyPacketComplete (copy : Nat)
  /-- TIMELINE_SIGNAL, R359: the oldest unapplied signal of a queue. -/
  | timelineSignal (queue : Nat)
  /-- SERVICE_POST, R364: the outstanding SYSC of a wave is posted. -/
  | servicePost (wave : Nat)
  /-- SERVICE_DOORBELL, R364: the runtime writes service number `k`. -/
  | serviceDoorbell (queue : Nat) (k : Word)
  /-- GET_VERSION, R373. It and every SPDM message and key request below come through the mailbox of the function `State.cur.fn`. -/
  | getVersion
  /-- GET_CAPABILITIES, R373. -/
  | getCapabilities
  /-- NEGOTIATE_ALGORITHMS, R373: whether the requester offers the algorithms of R373. -/
  | negotiateAlgorithms (offered : Bool)
  /-- GET_DIGESTS, R373. -/
  | getDigests
  /-- GET_CERTIFICATE, R373. -/
  | getCertificate (slot : Nat)
  /-- CHALLENGE, R373. -/
  | challenge (slot : Nat)
  /-- GET_MEASUREMENTS, R374: a partition and a block number. -/
  | getMeasurements (part block : Nat)
  /-- KEY_EXCHANGE, R373. -/
  | keyExchange
  /-- FINISH, R373: whether the requester's proof verifies. -/
  | finish (verified : Bool)
  /-- KEY_UPDATE, R373. -/
  | keyUpdate
  /-- HEARTBEAT, R373. -/
  | heartbeat
  /-- END_SESSION, R373. -/
  | endSession
  /-- KEYINST, R375: whether it came inside a secure session, and its 112 bytes. -/
  | keyinst (secure : Bool) (payload : List Byte)
  /-- KEYDEL, R375: whether it came inside a secure session, slot and partition. -/
  | keydel (secure : Bool) (slot part : Nat)
  /-- PASID_TEARDOWN, R377. -/
  | pasidTeardown (pasid : Nat)
  /-- TEARDOWN_COMPLETE, R377. -/
  | teardownComplete (ctx : Nat)
  /-- TDI_STOP, R378. -/
  | tdiStop (part : Nat)
  /-- DEVICE_NUMBER_ASSIGN, R404. -/
  | deviceNumberAssign (n : BitVec 9)
  /-- BINDING_INSTALL, R405: a partition, a device and the partition bound there. -/
  | bindingInstall (part dev rpart : Nat)
  /-- ROUTE_TABLE_WRITE, R403: the ports of a partition toward a device. -/
  | routeTableWrite (part dev : Nat) (ports : List Nat)
  /-- FLIT_CRC_ERROR, R406. -/
  | flitCrcError (port : Nat)
  /-- PORT_RETRAIN, R406. -/
  | portRetrain (port : Nat)
  /-- PORT_DOWN, R406. -/
  | portDown (port : Nat)
  /-- REMOTE_REQUEST_TIMEOUT, R406: a request with this number. -/
  | remoteRequestTimeout (req : Nat)
  /-- REMOTE_REQUEST, R405, R407: a request from another device arrives here. -/
  | remoteRequest (r : RemoteIn)
  /-- RRED_APPLY, R412: element `n` of an RRED packet is applied at this device. -/
  | rredApply (req n : Nat)
  /-- RSIG_APPLY, R413. -/
  | rsigApply (req : Nat)
  /-- REMOTE_RESPONSE, R409: a response with its data, or a refusal at an element. -/
  | remoteResponse (req : Nat) (answer : RemoteAnswer)
  /-- INFILL, R340: a skipped point of a job. -/
  | infill (job point : Nat)
  /-- INFILL_FAULT_ANSWER, R342. -/
  | infillFaultAnswer (job point : Nat) (resolved : Bool)
  /-- COMPARATOR_HIT, R396: the wave about to issue meets a comparator of its core. -/
  | comparatorHit (wave : Nat)
  /-- DEBUG_HALT_REQUEST, R398. -/
  | debugHaltRequest (wave : Nat)
  /-- DEBUG_RESUME, R398. -/
  | debugResume (wave : Nat)
  /-- DEBUG_PORT_WRITE, R191: a register of a halted wave. -/
  | debugPortWrite (wave : Nat) (r : DebugReg)
  /-- DEBUG_ARM, R397: the D handler of a queue, or none. -/
  | debugArm (queue : Nat) (entry : Option Word)
  /-- DEBUG_PIN, R401: the pinned values of a queue, or none. -/
  | debugPin (queue : Nat) (pin : Option Pin)
  /-- LCUSE_SAMPLE, R402: an SRR of LCUSE into s[d]. -/
  | lcuseSample (d : Reg)
  /-- LCMASK_CLEAR, R402: an SRW of LCMASK from s[a]. -/
  | lcmaskClear (a : Reg)
  /-- WSTAT_CLEAR, R47: an SRW of WSTAT from s[a]. -/
  | wstatClear (a : Reg)
  /-- CLASSCHG_CLEAR, R284: an SRW of CLASSCHG from s[a]. -/
  | classchgClear (a : Reg)
  /-- WMODE_WRITE, R46: an SRW of WMODE from s[a]. -/
  | wmodeWrite (a : Reg)
  /-- LOOP_REGISTER_WRITE, R121: an SRW of LPCNT, LPBEG or LPEND. -/
  | loopRegisterWrite (a : Reg) (n : BitVec 12)
  /-- COMPARATOR_REGISTER_WRITE, R395: an SRW of DCnADDR or DCnCTL. -/
  | comparatorRegisterWrite (a : Reg) (n : BitVec 12)
  /-- TRACE_REGISTER_WRITE, R399: an SRW of a trace register. -/
  | traceRegisterWrite (a : Reg) (n : BitVec 12)
  /-- SPECIAL_REGISTER_WRITE, R120: an SRW of any other register. -/
  | specialRegisterWrite (a : Reg) (n : BitVec 12)
  /-- RESET, row RESET, R214, R376, R395. -/
  | reset
  /-- HOST_ACCESS, R332: a host requester's read or write of device memory. -/
  | hostAccess (h : HostIn)
  /-- CLOCK_CHANGE, R381: a cluster's arithmetic clock in MHz. -/
  | clockChange (cluster mhz : Nat)
  /-- HOST_LINK_TRAIN, R350: speed in GT/s and width in lanes. -/
  | hostLinkTrain (speed width : Nat)
  /-- PORT_TRAIN, R403. -/
  | portTrain (port : Nat)
  /-- PORT_ASSIGN, R403. -/
  | portAssign (port : Nat) (part : Option Nat)
  /-- BINDING_REMOVE, R404. -/
  | bindingRemove (part dev : Nat)
  /-- DATUM_FIRMWARE_UPDATE, R376. -/
  | datumFirmwareUpdate
  /-- TDI_ENTER_RUN, R378. -/
  | tdiEnterRun (part : Nat)
  /-- IDE_KM_REQUEST, R350: a stream, 0 the link, 1 to 32 selective; program or switch its keys. -/
  | ideKmRequest (stream : Nat) (switch : Bool)
  /-- FAULT_RING_SETUP, R362: a partition's ring in host memory and its record count. -/
  | faultRingSetup (part addr slots : Nat)
  deriving DecidableEq, Repr

end Sys2Proof
end

