-- ==== Sys2Proof/WellFormed.lean ====
section
/-! DEFINITION. The field values that are illegal where their field is otherwise in use (spec/01 R21): `wf` refuses them, and with them a scale
register named by an RRED whose format reads none (R17, spec/22 R410).
SHI kind 3 and an RRED function above 2 have no constructor, so the decoder refuses those. -/

namespace Sys2Proof

/-- The scope code held in c[4:2] of AMO, CAS and VAMO (R157); code 7 is illegal (R2). -/
def scopeOk (c : Reg) : Bool := c.extractLsb' 2 3 != 7#3

/-- The illegal values of R21. -/
def wf : Instr → Bool
  | .amoAdd _ _ _ _ c | .amoAnd _ _ _ _ c | .amoOr _ _ _ _ c | .amoXor _ _ _ _ c | .amoMin _ _ _ _ c
  | .amoMax _ _ _ _ c | .amoMinn _ _ _ _ c | .amoMaxn _ _ _ _ c | .amoSwap _ _ _ _ c | .amoFadd _ _ _ _ c
  | .cas _ _ _ _ c | .vamoAdd _ _ _ _ c | .vamoAnd _ _ _ _ c | .vamoOr _ _ _ _ c | .vamoXor _ _ _ _ c
  | .vamoMin _ _ _ _ c | .vamoMax _ _ _ _ c | .vamoMinn _ _ _ _ c | .vamoMaxn _ _ _ _ c | .vamoSwap _ _ _ _ c
  | .vamoFadd _ _ _ _ c => scopeOk c
  | .vcvt _ _ b c => b.toNat < 16 && c.toNat < 16
  | .loop _ imm => 1 ≤ imm.toNat && imm.toNat ≤ 4095
  | .fence sq od scp => scp != 7#3 && od != 0#2 && (sq == 0#1 || od == 3#2)
  | .fenceX frm tt => frm != 0#6 && tt != 0#6
  | .lease _ _ _ lv => lv != 0#2
  | .cpyA _ _ _ x c | .cpyB _ _ _ x c | .cpySt _ _ _ x c | .cpyBox _ _ _ x c | .cpyO _ _ _ x c
  | .cpySeal _ _ _ x c => !(x == 1#1 && c == 31#5)
  | .sext _ _ b | .zext _ _ b => b.toNat ≤ 2
  | .rredAdd _ _ b fm | .rredMax _ _ b fm | .rredMin _ _ b fm => fm == 3#2 || b == 0#5
  | _ => true

end Sys2Proof
end

