-- ==== Sys2Proof/Decode.lean ====
section
/-! DEFINITION. Decoding and encoding: the words of spec/01 R15 to R23 (wave instructions, 32 bits) and spec/18 R367 (plumb
words, 16 bits), the encoders after the decoders, and the numbering of spec/opcode_table.json. -/

namespace Sys2Proof

/-- Why a word is not an instruction, with the subcodes of Table 1.5 (R22). -/
inductive Reject where
  | illegalWord | unassignedMajor | laterGeneration | reservedFunction | reservedField
  deriving DecidableEq, Repr

/-- The subcode of Table 1.5. -/
def Reject.sub : Reject → Nat
  | .illegalWord => 1
  | .unassignedMajor => 2
  | .laterGeneration => 3
  | .reservedFunction => 4
  | .reservedField => 5

/-- The privilege levels of R3, K < H < D. -/
inductive Priv where
  | k | h | d
  deriving DecidableEq, Repr

/-- What a word is: an instruction, or a reason why not together with the level its function needs, since
R23 puts privilege ahead of must-be-zero fields. -/
inductive Decoded where
  | instr (i : Instr)
  | illegal (why : Reject) (need : Priv)
  deriving DecidableEq, Repr

/-- Field d, [25:21]. -/
def fd (w : IWord) : Reg := w.extractLsb' 21 5
/-- Field a (base in format M), [20:16]. -/
def fa (w : IWord) : Reg := w.extractLsb' 16 5
/-- Field b, [15:11]. -/
def fb (w : IWord) : Reg := w.extractLsb' 11 5
/-- Field x, [10]. -/
def fx (w : IWord) : BitVec 1 := w.extractLsb' 10 1
/-- Field c, [4:0]. -/
def fc (w : IWord) : Reg := w.extractLsb' 0 5
/-- Field imm16 or off16, [15:0]. -/
def imm16 (w : IWord) : BitVec 16 := w.extractLsb' 0 16
/-- Field n12, [11:0]. -/
def n12 (w : IWord) : BitVec 12 := w.extractLsb' 0 12
/-- Field off13, [12:0]. -/
def off13 (w : IWord) : BitVec 13 := w.extractLsb' 0 13
/-- A must-be-zero field of `n` bits from bit `lo` holds zero. -/
def mbz (w : IWord) (lo n : Nat) : Bool := w.extractLsb' lo n == 0#n
/-- The same of a plumb word. -/
def mbzP (w : BitVec 16) (lo n : Nat) : Bool := w.extractLsb' lo n == 0#n

/-- The last check of R23: must-be-zero fields (`zeros`) and the illegal values of R21. -/
def legal (zeros : Bool) (i : Instr) : Decoded :=
  if zeros && wf i then .instr i else .illegal .reservedField .k

/-- The same for an H-level function of SYS (R112). -/
def legalH (zeros : Bool) (i : Instr) : Decoded :=
  if zeros && wf i then .instr i else .illegal .reservedField .h

/-- A special-register number of the debug comparators (R49, R395). -/
def debugNumber (n : BitVec 12) : Bool := 0x080 ≤ n.toNat && n.toNat ≤ 0x0BF

/-- The trap registers, which K may not reach (Table 2.6). -/
def trapNumber (n : BitVec 12) : Bool := 0x040 ≤ n.toNat && n.toNat ≤ 0x045

/-- The numbers that K may not write: VL, ESR, ESV and the loop registers (Table 2.6). -/
def handlerWrite (n : BitVec 12) : Bool := n == 0#12 || n == 5#12 || n == 6#12 || (8 ≤ n.toNat && n.toNat ≤ 0xA)

/-- The level an SRR of a number needs (Table 2.6): D for 0x080 to 0x0BF, assigned or not (R11, R23). -/
def srrNeed (n : BitVec 12) : Priv := if debugNumber n then .d else if trapNumber n then .h else .k

/-- The level an SRW of a number needs: LCMASK is cleared at D. -/
def srwNeed (n : BitVec 12) : Priv :=
  if debugNumber n || n == 0x061#12 then .d else if trapNumber n || handlerWrite n then .h else .k

/-- The level of a wave is below the one needed. -/
def Priv.above (need : Priv) (lvl : Nat) : Bool :=
  match need with
  | .k => false
  | .h => lvl == 0
  | .d => lvl != 3

/-- The same for SRR and SRW, whose number settles the level. -/
def legalS (need : Priv) (zeros : Bool) (i : Instr) : Decoded :=
  if zeros && wf i then .instr i else .illegal .reservedField need

/-- Major opcode 0x01, by its function value [9:5]. -/
def decodeMajor01 (w : IWord) : Nat → Decoded
  | 0 => legal (mbz w 0 5) (.add (fd w) (fa w) (fb w) (fx w))
  | 1 => legal (mbz w 0 5) (.sub (fd w) (fa w) (fb w) (fx w))
  | 2 => legal (mbz w 0 5) (.mul (fd w) (fa w) (fb w) (fx w))
  | 3 => legal (mbz w 0 5) (.mulh (fd w) (fa w) (fb w) (fx w))
  | 4 => legal (mbz w 0 5) (.mulhn (fd w) (fa w) (fb w) (fx w))
  | 5 => legal (mbz w 0 5) (.div (fd w) (fa w) (fb w) (fx w))
  | 6 => legal (mbz w 0 5) (.divn (fd w) (fa w) (fb w) (fx w))
  | 7 => legal (mbz w 0 5) (.rem (fd w) (fa w) (fb w) (fx w))
  | 8 => legal (mbz w 0 5) (.remn (fd w) (fa w) (fb w) (fx w))
  | 9 => legal (mbz w 0 5) (.and (fd w) (fa w) (fb w) (fx w))
  | 10 => legal (mbz w 0 5) (.or (fd w) (fa w) (fb w) (fx w))
  | 11 => legal (mbz w 0 5) (.xor (fd w) (fa w) (fb w) (fx w))
  | 12 => legal (mbz w 0 5) (.shl (fd w) (fa w) (fb w) (fx w))
  | 13 => legal (mbz w 0 5) (.shr (fd w) (fa w) (fb w) (fx w))
  | 14 => legal (mbz w 0 5) (.sha (fd w) (fa w) (fb w) (fx w))
  | 15 => legal (mbz w 0 5) (.slt (fd w) (fa w) (fb w) (fx w))
  | 16 => legal (mbz w 0 5) (.sltn (fd w) (fa w) (fb w) (fx w))
  | 17 => legal (mbz w 0 5) (.min (fd w) (fa w) (fb w) (fx w))
  | 18 => legal (mbz w 0 5) (.max (fd w) (fa w) (fb w) (fx w))
  | 19 => legal (mbz w 0 5) (.minn (fd w) (fa w) (fb w) (fx w))
  | 20 => legal (mbz w 0 5) (.maxn (fd w) (fa w) (fb w) (fx w))
  | 21 => legal (mbz w 0 5 && mbz w 11 5) (.clz (fd w) (fa w) (fx w))
  | 22 => legal (mbz w 0 5 && mbz w 11 5) (.ctz (fd w) (fa w) (fx w))
  | 23 => legal (mbz w 0 5 && mbz w 11 5) (.popc (fd w) (fa w) (fx w))
  | 24 => legal (mbz w 0 5 && mbz w 10 1) (.sext (fd w) (fa w) (fb w))
  | 25 => legal (mbz w 0 5 && mbz w 10 1) (.zext (fd w) (fa w) (fb w))
  | _ => .illegal .reservedFunction .k

/-- Major opcode 0x06, by its function value [15:14]. -/
def decodeMajor06 (w : IWord) : Nat → Decoded
  | 0 => legal (mbz w 6 8) (.shli (fd w) (fa w) (w.extractLsb' 0 6))
  | 1 => legal (mbz w 6 8) (.shri (fd w) (fa w) (w.extractLsb' 0 6))
  | 2 => legal (mbz w 6 8) (.shai (fd w) (fa w) (w.extractLsb' 0 6))
  | _ => .illegal (.reservedField) .k

/-- Major opcode 0x0B, by its function value [15:13]. -/
def decodeMajor0B (w : IWord) : Nat → Decoded
  | 0 => legal true (.ldsS8 (fd w) (fa w) (off13 w))
  | 1 => legal true (.ldsS16 (fd w) (fa w) (off13 w))
  | 2 => legal true (.ldsS32 (fd w) (fa w) (off13 w))
  | 3 => legal true (.ldsS64 (fd w) (fa w) (off13 w))
  | 4 => legal true (.ldsN8 (fd w) (fa w) (off13 w))
  | 5 => legal true (.ldsN16 (fd w) (fa w) (off13 w))
  | 6 => legal true (.ldsN32 (fd w) (fa w) (off13 w))
  | _ => .illegal .reservedFunction .k

/-- Major opcode 0x0C, by its function value [15:13]. -/
def decodeMajor0C (w : IWord) : Nat → Decoded
  | 0 => legal true (.sts8 (fd w) (fa w) (off13 w))
  | 1 => legal true (.sts16 (fd w) (fa w) (off13 w))
  | 2 => legal true (.sts32 (fd w) (fa w) (off13 w))
  | 3 => legal true (.sts64 (fd w) (fa w) (off13 w))
  | _ => .illegal .reservedFunction .k

/-- Major opcode 0x0D, by its function value [9:5]. -/
def decodeMajor0D (w : IWord) : Nat → Decoded
  | 0 => legal true (.amoAdd (fd w) (fa w) (fb w) (fx w) (fc w))
  | 1 => legal true (.amoAnd (fd w) (fa w) (fb w) (fx w) (fc w))
  | 2 => legal true (.amoOr (fd w) (fa w) (fb w) (fx w) (fc w))
  | 3 => legal true (.amoXor (fd w) (fa w) (fb w) (fx w) (fc w))
  | 4 => legal true (.amoMin (fd w) (fa w) (fb w) (fx w) (fc w))
  | 5 => legal true (.amoMax (fd w) (fa w) (fb w) (fx w) (fc w))
  | 6 => legal true (.amoMinn (fd w) (fa w) (fb w) (fx w) (fc w))
  | 7 => legal true (.amoMaxn (fd w) (fa w) (fb w) (fx w) (fc w))
  | 8 => legal true (.amoSwap (fd w) (fa w) (fb w) (fx w) (fc w))
  | 9 => legal true (.amoFadd (fd w) (fa w) (fb w) (fx w) (fc w))
  | _ => .illegal .reservedFunction .k

/-- Major opcode 0x0E, by its function value [9:5]. -/
def decodeMajor0E (w : IWord) : Nat → Decoded
  | 0 => legal true (.cas (fd w) (fa w) (fb w) (fx w) (fc w))
  | _ => .illegal .reservedFunction .k

/-- Major opcode 0x0F, by its function value [15:12]. -/
def decodeMajor0F (w : IWord) : Nat → Decoded
  | 0 => legal (mbz w 6 6 && mbz w 16 10) (.fence (w.extractLsb' 5 1) (w.extractLsb' 3 2) (w.extractLsb' 0 3))
  | 1 => legal (mbz w 16 10) (.fenceX (w.extractLsb' 6 6) (w.extractLsb' 0 6))
  | _ => .illegal .reservedFunction .k

/-- Major opcode 0x1A, by its function value [15:12]. -/
def decodeMajor1A (w : IWord) : Nat → Decoded
  | 0 => legal (mbz w 0 12 && mbz w 16 10) (.join)
  | 1 => legal (mbz w 0 12 && mbz w 16 10) (.yield)
  | _ => .illegal .reservedFunction .k

/-- Major opcode 0x1B, by its function value [15:12]. -/
def decodeMajor1B (w : IWord) : Nat → Decoded
  | 0 => legal (mbz w 0 12 && mbz w 16 10) (.nop)
  | 1 => legal (mbz w 16 10) (.trap (n12 w))
  | 2 => legal (mbz w 16 10) (.sysc (n12 w))
  | 3 => legal (mbz w 16 10) (.brk (n12 w))
  | 4 => legalH (mbz w 0 12 && mbz w 16 10) (.rte)
  | 5 => legalH (mbz w 0 12 && mbz w 16 10) (.halt)
  | 6 => legal (mbz w 0 12 && mbz w 16 10) (.wfe)
  | 7 => legalH (mbz w 0 12 && mbz w 16 10) (.claimv)
  | 8 => legalH (mbz w 0 12 && mbz w 16 10) (.rstv)
  | _ => .illegal .reservedFunction .k

/-- Major opcode 0x1C, by its function value [15:12]. -/
def decodeMajor1C (w : IWord) : Nat → Decoded
  | 0 => legalS (srrNeed (n12 w)) (mbz w 16 5) (.srr (fd w) (n12 w))
  | _ => .illegal .reservedFunction .k

/-- Major opcode 0x1D, by its function value [15:12]. -/
def decodeMajor1D (w : IWord) : Nat → Decoded
  | 0 => legalS (srwNeed (n12 w)) (mbz w 21 5) (.srw (fa w) (n12 w))
  | _ => .illegal .reservedFunction .k

/-- Major opcode 0x1E, by its function value [9:5]. -/
def decodeMajor1E (w : IWord) : Nat → Decoded
  | 0 => legal (mbz w 0 5 && mbz w 10 1) (.spawn (fd w) (fa w) (fb w))
  | 1 => legal (mbz w 0 5 && mbz w 10 1) (.spawnf (fd w) (fa w) (fb w))
  | _ => .illegal .reservedFunction .k

/-- Major opcode 0x1F, by its function value [15:12]. -/
def decodeMajor1F (w : IWord) : Nat → Decoded
  | 0 => legal (mbz w 0 12 && mbz w 16 10) (.exit)
  | 1 => legal (mbz w 0 12) (.cont (fd w) (fa w))
  | _ => .illegal .reservedFunction .k

/-- Major opcode 0x20, by its function value [15:12]. -/
def decodeMajor20 (w : IWord) : Nat → Decoded
  | 0 => legal true (.lease (fd w) (fa w) (w.extractLsb' 2 10) (w.extractLsb' 0 2))
  | 1 => legal (mbz w 0 12 && mbz w 16 10) (.lrel)
  | 2 => legal (mbz w 0 12 && mbz w 16 5) (.lqry (fd w))
  | _ => .illegal .reservedFunction .k

/-- Major opcode 0x21, by its function value [15:12]. -/
def decodeMajor21 (w : IWord) : Nat → Decoded
  | 0 => legal (mbz w 0 12) (.setvl (fd w) (fa w))
  | 1 => legal (mbz w 16 5) (.setvli (fd w) (n12 w))
  | 2 => legal (mbz w 0 12) (.mode (fd w) (fa w))
  | 3 => legal (mbz w 0 12) (.space (fd w) (fa w))
  | _ => .illegal .reservedFunction .k

/-- Major opcode 0x22, by its function value [9:5]. -/
def decodeMajor22 (w : IWord) : Nat → Decoded
  | 0 => legal (mbz w 0 5) (.vadd (fd w) (fa w) (fb w) (fx w))
  | 1 => legal (mbz w 0 5) (.vsub (fd w) (fa w) (fb w) (fx w))
  | 2 => legal (mbz w 0 5) (.vmul (fd w) (fa w) (fb w) (fx w))
  | 3 => legal (mbz w 0 5) (.vdiv (fd w) (fa w) (fb w) (fx w))
  | 4 => legal (mbz w 0 5) (.vmin (fd w) (fa w) (fb w) (fx w))
  | 5 => legal (mbz w 0 5) (.vmax (fd w) (fa w) (fb w) (fx w))
  | 6 => legal (mbz w 0 5) (.vand (fd w) (fa w) (fb w) (fx w))
  | 7 => legal (mbz w 0 5) (.vor (fd w) (fa w) (fb w) (fx w))
  | 8 => legal (mbz w 0 5) (.vxor (fd w) (fa w) (fb w) (fx w))
  | 9 => legal (mbz w 0 5) (.vshl (fd w) (fa w) (fb w) (fx w))
  | 10 => legal (mbz w 0 5) (.vshr (fd w) (fa w) (fb w) (fx w))
  | 11 => legal (mbz w 0 5) (.vsha (fd w) (fa w) (fb w) (fx w))
  | 12 => legal (mbz w 0 5) (.vmulh (fd w) (fa w) (fb w) (fx w))
  | 13 => legal (mbz w 0 5) (.vabsd (fd w) (fa w) (fb w) (fx w))
  | _ => .illegal .reservedFunction .k

/-- Major opcode 0x23, by its function value [9:5]. -/
def decodeMajor23 (w : IWord) : Nat → Decoded
  | 0 => legal true (.vfma (fd w) (fa w) (fb w) (fx w) (fc w))
  | 1 => legal true (.vfms (fd w) (fa w) (fb w) (fx w) (fc w))
  | 2 => legal true (.vfnma (fd w) (fa w) (fb w) (fx w) (fc w))
  | 3 => legal true (.vfnms (fd w) (fa w) (fb w) (fx w) (fc w))
  | _ => .illegal .reservedFunction .k

/-- Major opcode 0x24, by its function value [9:5]. -/
def decodeMajor24 (w : IWord) : Nat → Decoded
  | 0 => legal (mbz w 0 5 && mbz w 10 6) (.vsqrt (fd w) (fa w))
  | 1 => legal (mbz w 0 5 && mbz w 10 6) (.vrcp (fd w) (fa w))
  | 2 => legal (mbz w 0 5 && mbz w 10 6) (.vrsq (fd w) (fa w))
  | 3 => legal (mbz w 0 5 && mbz w 10 6) (.vexp2 (fd w) (fa w))
  | 4 => legal (mbz w 0 5 && mbz w 10 6) (.vlog2 (fd w) (fa w))
  | 5 => legal (mbz w 0 5 && mbz w 10 6) (.vabs (fd w) (fa w))
  | 6 => legal (mbz w 0 5 && mbz w 10 6) (.vneg (fd w) (fa w))
  | 7 => legal (mbz w 0 5 && mbz w 10 6) (.vnot (fd w) (fa w))
  | 8 => legal (mbz w 0 5 && mbz w 10 6) (.vclass (fd w) (fa w))
  | 9 => legal (mbz w 0 5 && mbz w 10 6) (.vmov (fd w) (fa w))
  | 10 => legal (mbz w 0 5 && mbz w 10 6) (.vbcast (fd w) (fa w))
  | 11 => legal (mbz w 0 5 && mbz w 10 6 && mbz w 19 2) (.viota (fd w) (w.extractLsb' 16 3))
  | _ => .illegal .reservedFunction .k

/-- Major opcode 0x25, by its function value [9:5]. -/
def decodeMajor25 (w : IWord) : Nat → Decoded
  | 0 => legal (mbz w 0 5 && mbz w 24 2) (.vcmpEq (w.extractLsb' 21 3) (fa w) (fb w) (fx w))
  | 1 => legal (mbz w 0 5 && mbz w 24 2) (.vcmpNe (w.extractLsb' 21 3) (fa w) (fb w) (fx w))
  | 2 => legal (mbz w 0 5 && mbz w 24 2) (.vcmpLt (w.extractLsb' 21 3) (fa w) (fb w) (fx w))
  | 3 => legal (mbz w 0 5 && mbz w 24 2) (.vcmpLe (w.extractLsb' 21 3) (fa w) (fb w) (fx w))
  | 4 => legal (mbz w 0 5 && mbz w 24 2) (.vcmpGt (w.extractLsb' 21 3) (fa w) (fb w) (fx w))
  | 5 => legal (mbz w 0 5 && mbz w 24 2) (.vcmpGe (w.extractLsb' 21 3) (fa w) (fb w) (fx w))
  | 6 => legal (mbz w 0 5 && mbz w 24 2) (.vcmpLtn (w.extractLsb' 21 3) (fa w) (fb w) (fx w))
  | 7 => legal (mbz w 0 5 && mbz w 24 2) (.vcmpGen (w.extractLsb' 21 3) (fa w) (fb w) (fx w))
  | 8 => legal (mbz w 0 5 && mbz w 24 2) (.vcmpUnord (w.extractLsb' 21 3) (fa w) (fb w) (fx w))
  | _ => .illegal .reservedFunction .k

/-- Major opcode 0x26, by its function value [9:5]. -/
def decodeMajor26 (w : IWord) : Nat → Decoded
  | 0 => legal (mbz w 10 1) (.vcvt (fd w) (fa w) (fb w) (fc w))
  | 1 => legal (mbz w 10 1) (.vcvtq (fd w) (fa w) (fb w) (w.extractLsb' 3 2) (w.extractLsb' 2 1) (w.extractLsb' 0 2))
  | 2 => legal (mbz w 2 1 && mbz w 10 1) (.vcvtd (fd w) (fa w) (fb w) (w.extractLsb' 3 2) (w.extractLsb' 0 2))
  | _ => .illegal .reservedFunction .k

/-- Major opcode 0x27, by its function value [9:5]. -/
def decodeMajor27 (w : IWord) : Nat → Decoded
  | 0 => legal (mbz w 0 5 && mbz w 10 1) (.vshfl (fd w) (fa w) (fb w))
  | 1 => legal (mbz w 0 5 && mbz w 10 1) (.vslup (fd w) (fa w) (fb w))
  | 2 => legal (mbz w 0 5 && mbz w 10 1) (.vsldn (fd w) (fa w) (fb w))
  | 3 => legal (mbz w 3 2 && mbz w 10 6) (.vcompr (fd w) (fa w) (w.extractLsb' 0 3))
  | 4 => legal (mbz w 3 2 && mbz w 10 6) (.vexpnd (fd w) (fa w) (w.extractLsb' 0 3))
  | 5 => legal (mbz w 0 5 && mbz w 10 1) (.vextr (fd w) (fa w) (fb w))
  | 6 => legal (mbz w 0 5 && mbz w 10 1) (.vins (fd w) (fa w) (fb w))
  | 7 => legal (mbz w 3 2 && mbz w 10 1) (.vsel (fd w) (fa w) (fb w) (w.extractLsb' 0 3))
  | _ => .illegal .reservedFunction .k

/-- Major opcode 0x28, by its function value [9:5]. -/
def decodeMajor28 (w : IWord) : Nat → Decoded
  | 0 => legal (mbz w 0 5 && mbz w 10 1) (.vredSum (fd w) (fa w) (fb w))
  | 1 => legal (mbz w 0 5 && mbz w 10 1) (.vredMax (fd w) (fa w) (fb w))
  | 2 => legal (mbz w 0 5 && mbz w 10 1) (.vredMin (fd w) (fa w) (fb w))
  | 3 => legal (mbz w 0 5 && mbz w 10 1) (.vredAnd (fd w) (fa w) (fb w))
  | 4 => legal (mbz w 0 5 && mbz w 10 1) (.vredOr (fd w) (fa w) (fb w))
  | 5 => legal (mbz w 0 5 && mbz w 10 1) (.vredXor (fd w) (fa w) (fb w))
  | 6 => legal (mbz w 0 5 && mbz w 10 1) (.vredSumo (fd w) (fa w) (fb w))
  | _ => .illegal .reservedFunction .k

/-- Major opcode 0x29, by its function value [9:5]. -/
def decodeMajor29 (w : IWord) : Nat → Decoded
  | 0 => legal (mbz w 0 5 && mbz w 10 1 && mbz w 14 2 && mbz w 19 2 && mbz w 24 2) (.mand (w.extractLsb' 21 3) (w.extractLsb' 16 3) (w.extractLsb' 11 3))
  | 1 => legal (mbz w 0 5 && mbz w 10 1 && mbz w 14 2 && mbz w 19 2 && mbz w 24 2) (.mor (w.extractLsb' 21 3) (w.extractLsb' 16 3) (w.extractLsb' 11 3))
  | 2 => legal (mbz w 0 5 && mbz w 10 1 && mbz w 14 2 && mbz w 19 2 && mbz w 24 2) (.mxor (w.extractLsb' 21 3) (w.extractLsb' 16 3) (w.extractLsb' 11 3))
  | 3 => legal (mbz w 0 5 && mbz w 10 1 && mbz w 14 2 && mbz w 19 2 && mbz w 24 2) (.mandn (w.extractLsb' 21 3) (w.extractLsb' 16 3) (w.extractLsb' 11 3))
  | 4 => legal (mbz w 0 5 && mbz w 10 6 && mbz w 19 2 && mbz w 24 2) (.mnot (w.extractLsb' 21 3) (w.extractLsb' 16 3))
  | 5 => legal (mbz w 0 5 && mbz w 10 6 && mbz w 19 2) (.mcnt (fd w) (w.extractLsb' 16 3))
  | 6 => legal (mbz w 0 5 && mbz w 10 6 && mbz w 19 2) (.mfirst (fd w) (w.extractLsb' 16 3))
  | 7 => legal (mbz w 0 5 && mbz w 10 6 && mbz w 19 2 && mbz w 24 2) (.mtil (w.extractLsb' 21 3) (w.extractLsb' 16 3))
  | 8 => legal (mbz w 0 5 && mbz w 10 6 && mbz w 19 2 && mbz w 24 2) (.mtili (w.extractLsb' 21 3) (w.extractLsb' 16 3))
  | 9 => legal (mbz w 0 5 && mbz w 10 11 && mbz w 24 2) (.mset (w.extractLsb' 21 3))
  | 10 => legal (mbz w 0 5 && mbz w 10 11 && mbz w 24 2) (.mclr (w.extractLsb' 21 3))
  | 11 => legal (mbz w 0 5 && mbz w 10 6 && mbz w 19 2) (.mmovs (fd w) (w.extractLsb' 16 3))
  | 12 => legal (mbz w 0 5 && mbz w 10 6 && mbz w 24 2) (.mmovk (w.extractLsb' 21 3) (fa w))
  | _ => .illegal .reservedFunction .k

/-- Major opcode 0x2A, by its function value [9:5]. -/
def decodeMajor2A (w : IWord) : Nat → Decoded
  | 0 => legal (mbz w 0 5 && mbz w 10 6) (.vld (fd w) (fa w))
  | 1 => legal (mbz w 0 5 && mbz w 10 1) (.vlds (fd w) (fa w) (fb w))
  | 2 => legal (mbz w 0 5 && mbz w 10 1) (.vldx (fd w) (fa w) (fb w))
  | 3 => legal (mbz w 0 5 && mbz w 10 6) (.vldf (fd w) (fa w))
  | _ => .illegal .reservedFunction .k

/-- Major opcode 0x2B, by its function value [9:5]. -/
def decodeMajor2B (w : IWord) : Nat → Decoded
  | 0 => legal (mbz w 0 5 && mbz w 10 6) (.vst (fd w) (fa w))
  | 1 => legal (mbz w 0 5 && mbz w 10 1) (.vsts (fd w) (fa w) (fb w))
  | 2 => legal (mbz w 0 5 && mbz w 10 1) (.vstx (fd w) (fa w) (fb w))
  | _ => .illegal .reservedFunction .k

/-- Major opcode 0x2C, by its function value [9:5]. -/
def decodeMajor2C (w : IWord) : Nat → Decoded
  | 0 => legal true (.vamoAdd (fd w) (fa w) (fb w) (fx w) (fc w))
  | 1 => legal true (.vamoAnd (fd w) (fa w) (fb w) (fx w) (fc w))
  | 2 => legal true (.vamoOr (fd w) (fa w) (fb w) (fx w) (fc w))
  | 3 => legal true (.vamoXor (fd w) (fa w) (fb w) (fx w) (fc w))
  | 4 => legal true (.vamoMin (fd w) (fa w) (fb w) (fx w) (fc w))
  | 5 => legal true (.vamoMax (fd w) (fa w) (fb w) (fx w) (fc w))
  | 6 => legal true (.vamoMinn (fd w) (fa w) (fb w) (fx w) (fc w))
  | 7 => legal true (.vamoMaxn (fd w) (fa w) (fb w) (fx w) (fc w))
  | 8 => legal true (.vamoSwap (fd w) (fa w) (fb w) (fx w) (fc w))
  | 9 => legal true (.vamoFadd (fd w) (fa w) (fb w) (fx w) (fc w))
  | _ => .illegal .reservedFunction .k

/-- Major opcode 0x2D, by its function value [15:12]. -/
def decodeMajor2D (w : IWord) : Nat → Decoded
  | 0 => legal (mbz w 0 12) (.sbind (fd w) (fa w))
  | 1 => legal (mbz w 0 12 && mbz w 16 5) (.sunb (fd w))
  | 2 => legal (mbz w 0 12) (.sqry (fd w) (fa w))
  | _ => .illegal .reservedFunction .k

/-- Major opcode 0x30, by its function value [15:12]. -/
def decodeMajor30 (w : IWord) : Nat → Decoded
  | 0 => legal (mbz w 0 12) (.settile (fd w) (fa w))
  | 1 => legal (mbz w 0 12) (.tileq (fd w) (fa w))
  | _ => .illegal .reservedFunction .k

/-- Major opcode 0x31, by its function value [15:12]. -/
def decodeMajor31 (w : IWord) : Nat → Decoded
  | 0 => legal (mbz w 2 10 && mbz w 16 5) (.oclaim (fd w) (w.extractLsb' 1 1) (w.extractLsb' 0 1))
  | 1 => legal (mbz w 0 12 && mbz w 21 5) (.orls (fa w))
  | 2 => legal (mbz w 0 12) (.ofill (fd w) (fa w))
  | 3 => legal (mbz w 0 12) (.oqry (fd w) (fa w))
  | _ => .illegal .reservedFunction .k

/-- Major opcode 0x32, by its function value [9:5]. -/
def decodeMajor32 (w : IWord) : Nat → Decoded
  | 0 => legal (mbz w 0 5 && mbz w 23 3) (.mma (w.extractLsb' 21 2) (fa w) (fb w) (fx w))
  | 1 => legal (mbz w 0 5 && mbz w 23 3) (.mmas (w.extractLsb' 21 2) (fa w) (fb w) (fx w))
  | 2 => legal (mbz w 0 5 && mbz w 23 3) (.mmaz (w.extractLsb' 21 2) (fa w) (fb w) (fx w))
  | _ => .illegal .reservedFunction .k

/-- Major opcode 0x33, by its function value [9:5]. -/
def decodeMajor33 (w : IWord) : Nat → Decoded
  | 0 => legal (mbz w 0 5 && mbz w 10 6 && mbz w 18 8) (.azero (w.extractLsb' 16 2))
  | 1 => legal (mbz w 0 5 && mbz w 10 1 && mbz w 18 3) (.axt (fd w) (w.extractLsb' 16 2) (fb w))
  | 2 => legal (mbz w 10 1 && mbz w 18 3) (.axts (fd w) (w.extractLsb' 16 2) (fb w) (w.extractLsb' 3 2) (w.extractLsb' 2 1) (w.extractLsb' 0 2))
  | 3 => legal (mbz w 0 5 && mbz w 10 1 && mbz w 18 3) (.ains (fd w) (w.extractLsb' 16 2) (fb w))
  | 4 => legal (mbz w 0 5 && mbz w 10 1 && mbz w 18 3) (.asave (fd w) (w.extractLsb' 16 2) (fb w))
  | 5 => legal (mbz w 0 5 && mbz w 10 1 && mbz w 18 3) (.aload (fd w) (w.extractLsb' 16 2) (fb w))
  | _ => .illegal .reservedFunction .k

/-- Major opcode 0x34, by its function value [9:5]. -/
def decodeMajor34 (w : IWord) : Nat → Decoded
  | 0 => legal true (.cpyA (fd w) (fa w) (fb w) (fx w) (fc w))
  | 1 => legal true (.cpyB (fd w) (fa w) (fb w) (fx w) (fc w))
  | 2 => legal true (.cpySt (fd w) (fa w) (fb w) (fx w) (fc w))
  | 3 => legal true (.cpyBox (fd w) (fa w) (fb w) (fx w) (fc w))
  | 4 => legal true (.cpyO (fd w) (fa w) (fb w) (fx w) (fc w))
  | 5 => legal true (.cpySeal (fd w) (fa w) (fb w) (fx w) (fc w))
  | _ => .illegal .reservedFunction .k

/-- Major opcode 0x35, by its function value [9:5]. -/
def decodeMajor35 (w : IWord) : Nat → Decoded
  | 0 => legal (mbz w 0 5 && mbz w 10 1 && mbz w 21 5) (.barInit (fa w) (fb w))
  | 1 => legal (mbz w 0 5 && mbz w 10 6 && mbz w 21 5) (.barArv (fa w))
  | 2 => legal (mbz w 0 5 && mbz w 10 1 && mbz w 21 5) (.barExp (fa w) (fb w))
  | 3 => legal (mbz w 0 5 && mbz w 10 1 && mbz w 21 5) (.barWait (fa w) (fb w))
  | 4 => legal (mbz w 0 5 && mbz w 10 6) (.barTry (fd w) (fa w))
  | 5 => legal (mbz w 0 5 && mbz w 10 1) (.barTrig (fd w) (fa w) (fb w))
  | _ => .illegal .reservedFunction .k

/-- Major opcode 0x36, by its function value [9:5]. -/
def decodeMajor36 (w : IWord) : Nat → Decoded
  | 0 => legal (mbz w 0 5 && mbz w 10 1 && mbz w 21 5) (.waita (fa w) (fb w))
  | 1 => legal (mbz w 0 5 && mbz w 10 1 && mbz w 21 5) (.waitge (fa w) (fb w))
  | 2 => legal (mbz w 0 5 && mbz w 10 6 && mbz w 21 5) (.notify (fa w))
  | _ => .illegal .reservedFunction .k

/-- Major opcode 0x37, by its function value [9:5]. -/
def decodeMajor37 (w : IWord) : Nat → Decoded
  | 0 => (match (w.extractLsb' 0 3).toNat with
    | 0 => legal (mbz w 10 1) (.rredAdd (fd w) (fa w) (fb w) (w.extractLsb' 3 2))
    | 1 => legal (mbz w 10 1) (.rredMax (fd w) (fa w) (fb w) (w.extractLsb' 3 2))
    | 2 => legal (mbz w 10 1) (.rredMin (fd w) (fa w) (fb w) (w.extractLsb' 3 2))
    | _ => .illegal (.reservedField) .k)
  | 1 => legal (mbz w 0 5 && mbz w 10 1 && mbz w 21 5) (.rsig (fa w) (fb w))
  | _ => .illegal .reservedFunction .k

/-- Major opcode 0x38, by its function value [15:12]. -/
def decodeMajor38 (w : IWord) : Nat → Decoded
  | 0 => legal (mbz w 0 12 && mbz w 16 5) (.covq (fd w))
  | _ => .illegal .reservedFunction .k


/-- The instruction of a word of a major opcode (R15 to R23, Tables 1.3 and 1.4). -/
def decodeMajor (w : IWord) : Nat → Decoded
  | 1 => decodeMajor01 w (w.extractLsb' 5 5).toNat
  | 2 => legal true (.addi (fd w) (fa w) (imm16 w))
  | 3 => legal true (.andi (fd w) (fa w) (imm16 w))
  | 4 => legal true (.ori (fd w) (fa w) (imm16 w))
  | 5 => legal true (.xori (fd w) (fa w) (imm16 w))
  | 6 => decodeMajor06 w (w.extractLsb' 14 2).toNat
  | 7 => legal true (.slti (fd w) (fa w) (imm16 w))
  | 8 => legal true (.sltni (fd w) (fa w) (imm16 w))
  | 9 => legal true (.li (fd w) (w.extractLsb' 0 21))
  | 10 => legal true (.lih (fd w) (w.extractLsb' 0 21))
  | 11 => decodeMajor0B w (w.extractLsb' 13 3).toNat
  | 12 => decodeMajor0C w (w.extractLsb' 13 3).toNat
  | 13 => decodeMajor0D w (w.extractLsb' 5 5).toNat
  | 14 => decodeMajor0E w (w.extractLsb' 5 5).toNat
  | 15 => decodeMajor0F w (w.extractLsb' 12 4).toNat
  | 16 => legal true (.beq (fd w) (fa w) (imm16 w))
  | 17 => legal true (.bne (fd w) (fa w) (imm16 w))
  | 18 => legal true (.blt (fd w) (fa w) (imm16 w))
  | 19 => legal true (.bge (fd w) (fa w) (imm16 w))
  | 20 => legal true (.bltn (fd w) (fa w) (imm16 w))
  | 21 => legal true (.bgen (fd w) (fa w) (imm16 w))
  | 22 => legal true (.jal (w.extractLsb' 0 26))
  | 23 => legal true (.jalr (fd w) (fa w) (imm16 w))
  | 24 => legal (mbz w 21 5) (.loop (fa w) (imm16 w))
  | 25 => legal (mbz w 16 5 && mbz w 24 2) (.brd (w.extractLsb' 21 3) (imm16 w))
  | 26 => decodeMajor1A w (w.extractLsb' 12 4).toNat
  | 27 => decodeMajor1B w (w.extractLsb' 12 4).toNat
  | 28 => decodeMajor1C w (w.extractLsb' 12 4).toNat
  | 29 => decodeMajor1D w (w.extractLsb' 12 4).toNat
  | 30 => decodeMajor1E w (w.extractLsb' 5 5).toNat
  | 31 => decodeMajor1F w (w.extractLsb' 12 4).toNat
  | 32 => decodeMajor20 w (w.extractLsb' 12 4).toNat
  | 33 => decodeMajor21 w (w.extractLsb' 12 4).toNat
  | 34 => decodeMajor22 w (w.extractLsb' 5 5).toNat
  | 35 => decodeMajor23 w (w.extractLsb' 5 5).toNat
  | 36 => decodeMajor24 w (w.extractLsb' 5 5).toNat
  | 37 => decodeMajor25 w (w.extractLsb' 5 5).toNat
  | 38 => decodeMajor26 w (w.extractLsb' 5 5).toNat
  | 39 => decodeMajor27 w (w.extractLsb' 5 5).toNat
  | 40 => decodeMajor28 w (w.extractLsb' 5 5).toNat
  | 41 => decodeMajor29 w (w.extractLsb' 5 5).toNat
  | 42 => decodeMajor2A w (w.extractLsb' 5 5).toNat
  | 43 => decodeMajor2B w (w.extractLsb' 5 5).toNat
  | 44 => decodeMajor2C w (w.extractLsb' 5 5).toNat
  | 45 => decodeMajor2D w (w.extractLsb' 12 4).toNat
  | 48 => decodeMajor30 w (w.extractLsb' 12 4).toNat
  | 49 => decodeMajor31 w (w.extractLsb' 12 4).toNat
  | 50 => decodeMajor32 w (w.extractLsb' 5 5).toNat
  | 51 => decodeMajor33 w (w.extractLsb' 5 5).toNat
  | 52 => decodeMajor34 w (w.extractLsb' 5 5).toNat
  | 53 => decodeMajor35 w (w.extractLsb' 5 5).toNat
  | 54 => decodeMajor36 w (w.extractLsb' 5 5).toNat
  | 55 => decodeMajor37 w (w.extractLsb' 5 5).toNat
  | 56 => decodeMajor38 w (w.extractLsb' 12 4).toNat
  | n => if n = 0 then .illegal .illegalWord .k
      else if 0x3C ≤ n then .illegal .laterGeneration .k else .illegal .unassignedMajor .k

/-- The instruction of a word, by the major opcode, then the function value, then the remaining fields (R23). -/
def decodeWord (w : IWord) : Decoded := decodeMajor w (w.extractLsb' 26 6).toNat

/-- A plumb word's reserved bits are zero (R367, R369). -/
def legalP (zeros : Bool) (i : Instr) : Option Instr := if zeros then some i else none

/-- The plumb instruction at the head of a list of words (spec/18 R367): LOOPN takes two words, every other one. -/
def decodePlumb : List (BitVec 16) → Option Instr
  | [] => none
  | w :: rest =>
    if (w.extractLsb' 11 5).toNat = 13 then
      match rest with
      | [] => none
      | l :: _ => legalP (mbzP w 0 3) (.plumbLoopn (w.extractLsb' 3 8) l)
    else plumbOne w
where
  /-- The plumb instructions of one word. -/
  plumbOne (w : BitVec 16) : Option Instr :=
  match (w.extractLsb' 11 5).toNat with
  | 1 => legalP true (.plumbLdi (w.extractLsb' 8 3) (w.extractLsb' 0 8))
  | 2 => legalP (mbzP w 0 5) (.plumbMov (w.extractLsb' 8 3) (w.extractLsb' 5 3))
  | 3 => legalP (mbzP w 0 2) (.plumbAdd (w.extractLsb' 8 3) (w.extractLsb' 5 3) (w.extractLsb' 2 3))
  | 4 => legalP (mbzP w 0 2) (.plumbSub (w.extractLsb' 8 3) (w.extractLsb' 5 3) (w.extractLsb' 2 3))
  | 5 => legalP (mbzP w 0 2) (.plumbAnd (w.extractLsb' 8 3) (w.extractLsb' 5 3) (w.extractLsb' 2 3))
  | 6 => legalP (mbzP w 0 2) (.plumbOr (w.extractLsb' 8 3) (w.extractLsb' 5 3) (w.extractLsb' 2 3))
  | 7 => legalP (mbzP w 0 2) (.plumbXor (w.extractLsb' 8 3) (w.extractLsb' 5 3) (w.extractLsb' 2 3))
  | 8 => legalP (mbzP w 0 2) (.plumbShl (w.extractLsb' 8 3) (w.extractLsb' 5 3) (w.extractLsb' 2 3))
  | 9 => legalP (mbzP w 0 2) (.plumbShr (w.extractLsb' 8 3) (w.extractLsb' 5 3) (w.extractLsb' 2 3))
  | 10 => match (w.extractLsb' 0 2).toNat with
    | 0 => legalP true (.plumbCmpEq (w.extractLsb' 8 3) (w.extractLsb' 5 3) (w.extractLsb' 2 3))
    | 1 => legalP true (.plumbCmpNe (w.extractLsb' 8 3) (w.extractLsb' 5 3) (w.extractLsb' 2 3))
    | 2 => legalP true (.plumbCmpLtn (w.extractLsb' 8 3) (w.extractLsb' 5 3) (w.extractLsb' 2 3))
    | _ => legalP true (.plumbCmpLt (w.extractLsb' 8 3) (w.extractLsb' 5 3) (w.extractLsb' 2 3))
  | 11 => legalP (mbzP w 0 2) (.plumbSel (w.extractLsb' 8 3) (w.extractLsb' 5 3) (w.extractLsb' 2 3))
  | 12 => legalP true (.plumbBrf (w.extractLsb' 8 3) (w.extractLsb' 0 8))
  | 14 => legalP (mbzP w 0 5) (.plumbRdtl (w.extractLsb' 8 3) (w.extractLsb' 5 3))
  | 15 => legalP (mbzP w 0 5 && mbzP w 8 3) (.plumbWrtl (w.extractLsb' 5 3))
  | 16 => legalP (mbzP w 0 2 && mbzP w 8 3) (.plumbWaittl (w.extractLsb' 5 3) (w.extractLsb' 2 3))
  | 17 => legalP true (.plumbRdm (w.extractLsb' 8 3) (w.extractLsb' 5 3) (w.extractLsb' 0 5))
  | 18 => legalP true (.plumbWrm (w.extractLsb' 8 3) (w.extractLsb' 5 3) (w.extractLsb' 0 5))
  | 19 => legalP (mbzP w 0 5 && mbzP w 8 3) (.plumbEmit (w.extractLsb' 5 3))
  | 20 => legalP (mbzP w 0 11) (.plumbEnd)
  | _ => none

/-- The word of a wave instruction (R15 to R20); none for a plumb instruction or an event. -/
def encodeWord : Instr → Option IWord
  | .add d a b w => some (1#6 ++ d ++ a ++ b ++ w ++ 0#10)
  | .sub d a b w => some (1#6 ++ d ++ a ++ b ++ w ++ 32#10)
  | .mul d a b w => some (1#6 ++ d ++ a ++ b ++ w ++ 64#10)
  | .mulh d a b w => some (1#6 ++ d ++ a ++ b ++ w ++ 96#10)
  | .mulhn d a b w => some (1#6 ++ d ++ a ++ b ++ w ++ 128#10)
  | .div d a b w => some (1#6 ++ d ++ a ++ b ++ w ++ 160#10)
  | .divn d a b w => some (1#6 ++ d ++ a ++ b ++ w ++ 192#10)
  | .rem d a b w => some (1#6 ++ d ++ a ++ b ++ w ++ 224#10)
  | .remn d a b w => some (1#6 ++ d ++ a ++ b ++ w ++ 256#10)
  | .and d a b w => some (1#6 ++ d ++ a ++ b ++ w ++ 288#10)
  | .or d a b w => some (1#6 ++ d ++ a ++ b ++ w ++ 320#10)
  | .xor d a b w => some (1#6 ++ d ++ a ++ b ++ w ++ 352#10)
  | .shl d a b w => some (1#6 ++ d ++ a ++ b ++ w ++ 384#10)
  | .shr d a b w => some (1#6 ++ d ++ a ++ b ++ w ++ 416#10)
  | .sha d a b w => some (1#6 ++ d ++ a ++ b ++ w ++ 448#10)
  | .slt d a b w => some (1#6 ++ d ++ a ++ b ++ w ++ 480#10)
  | .sltn d a b w => some (1#6 ++ d ++ a ++ b ++ w ++ 512#10)
  | .min d a b w => some (1#6 ++ d ++ a ++ b ++ w ++ 544#10)
  | .max d a b w => some (1#6 ++ d ++ a ++ b ++ w ++ 576#10)
  | .minn d a b w => some (1#6 ++ d ++ a ++ b ++ w ++ 608#10)
  | .maxn d a b w => some (1#6 ++ d ++ a ++ b ++ w ++ 640#10)
  | .clz d a w => some (1#6 ++ d ++ a ++ 0#5 ++ w ++ 672#10)
  | .ctz d a w => some (1#6 ++ d ++ a ++ 0#5 ++ w ++ 704#10)
  | .popc d a w => some (1#6 ++ d ++ a ++ 0#5 ++ w ++ 736#10)
  | .sext d a b => some (1#6 ++ d ++ a ++ b ++ 768#11)
  | .zext d a b => some (1#6 ++ d ++ a ++ b ++ 800#11)
  | .addi d a imm => some (2#6 ++ d ++ a ++ imm)
  | .andi d a imm => some (3#6 ++ d ++ a ++ imm)
  | .ori d a imm => some (4#6 ++ d ++ a ++ imm)
  | .xori d a imm => some (5#6 ++ d ++ a ++ imm)
  | .shli d a m => some (6#6 ++ d ++ a ++ 0#10 ++ m)
  | .shri d a m => some (6#6 ++ d ++ a ++ 256#10 ++ m)
  | .shai d a m => some (6#6 ++ d ++ a ++ 512#10 ++ m)
  | .slti d a imm => some (7#6 ++ d ++ a ++ imm)
  | .sltni d a imm => some (8#6 ++ d ++ a ++ imm)
  | .li d imm => some (9#6 ++ d ++ imm)
  | .lih d imm => some (10#6 ++ d ++ imm)
  | .ldsS8 d a off => some (11#6 ++ d ++ a ++ 0#3 ++ off)
  | .ldsS16 d a off => some (11#6 ++ d ++ a ++ 1#3 ++ off)
  | .ldsS32 d a off => some (11#6 ++ d ++ a ++ 2#3 ++ off)
  | .ldsS64 d a off => some (11#6 ++ d ++ a ++ 3#3 ++ off)
  | .ldsN8 d a off => some (11#6 ++ d ++ a ++ 4#3 ++ off)
  | .ldsN16 d a off => some (11#6 ++ d ++ a ++ 5#3 ++ off)
  | .ldsN32 d a off => some (11#6 ++ d ++ a ++ 6#3 ++ off)
  | .sts8 d a off => some (12#6 ++ d ++ a ++ 0#3 ++ off)
  | .sts16 d a off => some (12#6 ++ d ++ a ++ 1#3 ++ off)
  | .sts32 d a off => some (12#6 ++ d ++ a ++ 2#3 ++ off)
  | .sts64 d a off => some (12#6 ++ d ++ a ++ 3#3 ++ off)
  | .amoAdd d a b w c => some (13#6 ++ d ++ a ++ b ++ w ++ 0#5 ++ c)
  | .amoAnd d a b w c => some (13#6 ++ d ++ a ++ b ++ w ++ 1#5 ++ c)
  | .amoOr d a b w c => some (13#6 ++ d ++ a ++ b ++ w ++ 2#5 ++ c)
  | .amoXor d a b w c => some (13#6 ++ d ++ a ++ b ++ w ++ 3#5 ++ c)
  | .amoMin d a b w c => some (13#6 ++ d ++ a ++ b ++ w ++ 4#5 ++ c)
  | .amoMax d a b w c => some (13#6 ++ d ++ a ++ b ++ w ++ 5#5 ++ c)
  | .amoMinn d a b w c => some (13#6 ++ d ++ a ++ b ++ w ++ 6#5 ++ c)
  | .amoMaxn d a b w c => some (13#6 ++ d ++ a ++ b ++ w ++ 7#5 ++ c)
  | .amoSwap d a b w c => some (13#6 ++ d ++ a ++ b ++ w ++ 8#5 ++ c)
  | .amoFadd d a b w c => some (13#6 ++ d ++ a ++ b ++ w ++ 9#5 ++ c)
  | .cas d a b w c => some (14#6 ++ d ++ a ++ b ++ w ++ 0#5 ++ c)
  | .fence sq od scp => some (15728640#26 ++ sq ++ od ++ scp)
  | .fenceX frm dst => some (245761#20 ++ frm ++ dst)
  | .beq a b off => some (16#6 ++ a ++ b ++ off)
  | .bne a b off => some (17#6 ++ a ++ b ++ off)
  | .blt a b off => some (18#6 ++ a ++ b ++ off)
  | .bge a b off => some (19#6 ++ a ++ b ++ off)
  | .bltn a b off => some (20#6 ++ a ++ b ++ off)
  | .bgen a b off => some (21#6 ++ a ++ b ++ off)
  | .jal off => some (22#6 ++ off)
  | .jalr d a imm => some (23#6 ++ d ++ a ++ imm)
  | .loop a imm => some (768#11 ++ a ++ imm)
  | .brd a off => some (100#8 ++ a ++ 0#5 ++ off)
  | .join => some (1744830464#32)
  | .yield => some (1744834560#32)
  | .nop => some (1811939328#32)
  | .trap n => some (442369#20 ++ n)
  | .sysc n => some (442370#20 ++ n)
  | .brk n => some (442371#20 ++ n)
  | .rte => some (1811955712#32)
  | .halt => some (1811959808#32)
  | .wfe => some (1811963904#32)
  | .claimv => some (1811968000#32)
  | .rstv => some (1811972096#32)
  | .srr d n => some (28#6 ++ d ++ 0#9 ++ n)
  | .srw a n => some (928#11 ++ a ++ 0#4 ++ n)
  | .spawn d a b => some (30#6 ++ d ++ a ++ b ++ 0#11)
  | .spawnf d a b => some (30#6 ++ d ++ a ++ b ++ 32#11)
  | .exit => some (2080374784#32)
  | .cont d a => some (31#6 ++ d ++ a ++ 4096#16)
  | .lease d a mn lv => some (32#6 ++ d ++ a ++ 0#4 ++ mn ++ lv)
  | .lrel => some (2147487744#32)
  | .lqry d => some (32#6 ++ d ++ 8192#21)
  | .setvl d a => some (33#6 ++ d ++ a ++ 0#16)
  | .setvli d n => some (33#6 ++ d ++ 1#9 ++ n)
  | .mode d a => some (33#6 ++ d ++ a ++ 8192#16)
  | .space d a => some (33#6 ++ d ++ a ++ 12288#16)
  | .vadd d a b x => some (34#6 ++ d ++ a ++ b ++ x ++ 0#10)
  | .vsub d a b x => some (34#6 ++ d ++ a ++ b ++ x ++ 32#10)
  | .vmul d a b x => some (34#6 ++ d ++ a ++ b ++ x ++ 64#10)
  | .vdiv d a b x => some (34#6 ++ d ++ a ++ b ++ x ++ 96#10)
  | .vmin d a b x => some (34#6 ++ d ++ a ++ b ++ x ++ 128#10)
  | .vmax d a b x => some (34#6 ++ d ++ a ++ b ++ x ++ 160#10)
  | .vand d a b x => some (34#6 ++ d ++ a ++ b ++ x ++ 192#10)
  | .vor d a b x => some (34#6 ++ d ++ a ++ b ++ x ++ 224#10)
  | .vxor d a b x => some (34#6 ++ d ++ a ++ b ++ x ++ 256#10)
  | .vshl d a b x => some (34#6 ++ d ++ a ++ b ++ x ++ 288#10)
  | .vshr d a b x => some (34#6 ++ d ++ a ++ b ++ x ++ 320#10)
  | .vsha d a b x => some (34#6 ++ d ++ a ++ b ++ x ++ 352#10)
  | .vmulh d a b x => some (34#6 ++ d ++ a ++ b ++ x ++ 384#10)
  | .vabsd d a b x => some (34#6 ++ d ++ a ++ b ++ x ++ 416#10)
  | .vfma d a b x c => some (35#6 ++ d ++ a ++ b ++ x ++ 0#5 ++ c)
  | .vfms d a b x c => some (35#6 ++ d ++ a ++ b ++ x ++ 1#5 ++ c)
  | .vfnma d a b x c => some (35#6 ++ d ++ a ++ b ++ x ++ 2#5 ++ c)
  | .vfnms d a b x c => some (35#6 ++ d ++ a ++ b ++ x ++ 3#5 ++ c)
  | .vsqrt d a => some (36#6 ++ d ++ a ++ 0#16)
  | .vrcp d a => some (36#6 ++ d ++ a ++ 32#16)
  | .vrsq d a => some (36#6 ++ d ++ a ++ 64#16)
  | .vexp2 d a => some (36#6 ++ d ++ a ++ 96#16)
  | .vlog2 d a => some (36#6 ++ d ++ a ++ 128#16)
  | .vabs d a => some (36#6 ++ d ++ a ++ 160#16)
  | .vneg d a => some (36#6 ++ d ++ a ++ 192#16)
  | .vnot d a => some (36#6 ++ d ++ a ++ 224#16)
  | .vclass d a => some (36#6 ++ d ++ a ++ 256#16)
  | .vmov d a => some (36#6 ++ d ++ a ++ 288#16)
  | .vbcast d a => some (36#6 ++ d ++ a ++ 320#16)
  | .viota d a => some (36#6 ++ d ++ 0#2 ++ a ++ 352#16)
  | .vcmpEq d a b x => some (148#8 ++ d ++ a ++ b ++ x ++ 0#10)
  | .vcmpNe d a b x => some (148#8 ++ d ++ a ++ b ++ x ++ 32#10)
  | .vcmpLt d a b x => some (148#8 ++ d ++ a ++ b ++ x ++ 64#10)
  | .vcmpLe d a b x => some (148#8 ++ d ++ a ++ b ++ x ++ 96#10)
  | .vcmpGt d a b x => some (148#8 ++ d ++ a ++ b ++ x ++ 128#10)
  | .vcmpGe d a b x => some (148#8 ++ d ++ a ++ b ++ x ++ 160#10)
  | .vcmpLtn d a b x => some (148#8 ++ d ++ a ++ b ++ x ++ 192#10)
  | .vcmpGen d a b x => some (148#8 ++ d ++ a ++ b ++ x ++ 224#10)
  | .vcmpUnord d a b x => some (148#8 ++ d ++ a ++ b ++ x ++ 256#10)
  | .vcvt d a b c => some (38#6 ++ d ++ a ++ b ++ 0#6 ++ c)
  | .vcvtq d a b fm sat bsel => some (38#6 ++ d ++ a ++ b ++ 1#6 ++ fm ++ sat ++ bsel)
  | .vcvtd d a b fm bsel => some (38#6 ++ d ++ a ++ b ++ 2#6 ++ fm ++ 0#1 ++ bsel)
  | .vshfl d a b => some (39#6 ++ d ++ a ++ b ++ 0#11)
  | .vslup d a b => some (39#6 ++ d ++ a ++ b ++ 32#11)
  | .vsldn d a b => some (39#6 ++ d ++ a ++ b ++ 64#11)
  | .vcompr d a c => some (39#6 ++ d ++ a ++ 12#13 ++ c)
  | .vexpnd d a c => some (39#6 ++ d ++ a ++ 16#13 ++ c)
  | .vextr d a b => some (39#6 ++ d ++ a ++ b ++ 160#11)
  | .vins d a b => some (39#6 ++ d ++ a ++ b ++ 192#11)
  | .vsel d a b c => some (39#6 ++ d ++ a ++ b ++ 28#8 ++ c)
  | .vredSum d a b => some (40#6 ++ d ++ a ++ b ++ 0#11)
  | .vredMax d a b => some (40#6 ++ d ++ a ++ b ++ 32#11)
  | .vredMin d a b => some (40#6 ++ d ++ a ++ b ++ 64#11)
  | .vredAnd d a b => some (40#6 ++ d ++ a ++ b ++ 96#11)
  | .vredOr d a b => some (40#6 ++ d ++ a ++ b ++ 128#11)
  | .vredXor d a b => some (40#6 ++ d ++ a ++ b ++ 160#11)
  | .vredSumo d a b => some (40#6 ++ d ++ a ++ b ++ 192#11)
  | .mand d a b => some (164#8 ++ d ++ 0#2 ++ a ++ 0#2 ++ b ++ 0#11)
  | .mor d a b => some (164#8 ++ d ++ 0#2 ++ a ++ 0#2 ++ b ++ 32#11)
  | .mxor d a b => some (164#8 ++ d ++ 0#2 ++ a ++ 0#2 ++ b ++ 64#11)
  | .mandn d a b => some (164#8 ++ d ++ 0#2 ++ a ++ 0#2 ++ b ++ 96#11)
  | .mnot d a => some (164#8 ++ d ++ 0#2 ++ a ++ 128#16)
  | .mcnt d a => some (41#6 ++ d ++ 0#2 ++ a ++ 160#16)
  | .mfirst d a => some (41#6 ++ d ++ 0#2 ++ a ++ 192#16)
  | .mtil d a => some (164#8 ++ d ++ 0#2 ++ a ++ 224#16)
  | .mtili d a => some (164#8 ++ d ++ 0#2 ++ a ++ 256#16)
  | .mset d => some (164#8 ++ d ++ 288#21)
  | .mclr d => some (164#8 ++ d ++ 320#21)
  | .mmovs d a => some (41#6 ++ d ++ 0#2 ++ a ++ 352#16)
  | .mmovk d a => some (164#8 ++ d ++ a ++ 384#16)
  | .vld d a => some (42#6 ++ d ++ a ++ 0#16)
  | .vlds d a b => some (42#6 ++ d ++ a ++ b ++ 32#11)
  | .vldx d a b => some (42#6 ++ d ++ a ++ b ++ 64#11)
  | .vldf d a => some (42#6 ++ d ++ a ++ 96#16)
  | .vst d a => some (43#6 ++ d ++ a ++ 0#16)
  | .vsts d a b => some (43#6 ++ d ++ a ++ b ++ 32#11)
  | .vstx d a b => some (43#6 ++ d ++ a ++ b ++ 64#11)
  | .vamoAdd d a b w c => some (44#6 ++ d ++ a ++ b ++ w ++ 0#5 ++ c)
  | .vamoAnd d a b w c => some (44#6 ++ d ++ a ++ b ++ w ++ 1#5 ++ c)
  | .vamoOr d a b w c => some (44#6 ++ d ++ a ++ b ++ w ++ 2#5 ++ c)
  | .vamoXor d a b w c => some (44#6 ++ d ++ a ++ b ++ w ++ 3#5 ++ c)
  | .vamoMin d a b w c => some (44#6 ++ d ++ a ++ b ++ w ++ 4#5 ++ c)
  | .vamoMax d a b w c => some (44#6 ++ d ++ a ++ b ++ w ++ 5#5 ++ c)
  | .vamoMinn d a b w c => some (44#6 ++ d ++ a ++ b ++ w ++ 6#5 ++ c)
  | .vamoMaxn d a b w c => some (44#6 ++ d ++ a ++ b ++ w ++ 7#5 ++ c)
  | .vamoSwap d a b w c => some (44#6 ++ d ++ a ++ b ++ w ++ 8#5 ++ c)
  | .vamoFadd d a b w c => some (44#6 ++ d ++ a ++ b ++ w ++ 9#5 ++ c)
  | .sbind d a => some (45#6 ++ d ++ a ++ 0#16)
  | .sunb d => some (45#6 ++ d ++ 4096#21)
  | .sqry d a => some (45#6 ++ d ++ a ++ 8192#16)
  | .settile d a => some (48#6 ++ d ++ a ++ 0#16)
  | .tileq d a => some (48#6 ++ d ++ a ++ 4096#16)
  | .oclaim d nw role => some (49#6 ++ d ++ 0#19 ++ nw ++ role)
  | .orls a => some (1568#11 ++ a ++ 4096#16)
  | .ofill d a => some (49#6 ++ d ++ a ++ 8192#16)
  | .oqry d a => some (49#6 ++ d ++ a ++ 12288#16)
  | .mma d a b hi => some (400#9 ++ d ++ a ++ b ++ hi ++ 0#10)
  | .mmas d a b hi => some (400#9 ++ d ++ a ++ b ++ hi ++ 32#10)
  | .mmaz d a b hi => some (400#9 ++ d ++ a ++ b ++ hi ++ 64#10)
  | .azero a => some (13056#14 ++ a ++ 0#16)
  | .axt d a b => some (51#6 ++ d ++ 0#3 ++ a ++ b ++ 32#11)
  | .axts d a b fm sat bsel => some (51#6 ++ d ++ 0#3 ++ a ++ b ++ 2#6 ++ fm ++ sat ++ bsel)
  | .ains d a b => some (51#6 ++ d ++ 0#3 ++ a ++ b ++ 96#11)
  | .asave d a b => some (51#6 ++ d ++ 0#3 ++ a ++ b ++ 128#11)
  | .aload d a b => some (51#6 ++ d ++ 0#3 ++ a ++ b ++ 160#11)
  | .cpyA d a b x c => some (52#6 ++ d ++ a ++ b ++ x ++ 0#5 ++ c)
  | .cpyB d a b x c => some (52#6 ++ d ++ a ++ b ++ x ++ 1#5 ++ c)
  | .cpySt d a b x c => some (52#6 ++ d ++ a ++ b ++ x ++ 2#5 ++ c)
  | .cpyBox d a b x c => some (52#6 ++ d ++ a ++ b ++ x ++ 3#5 ++ c)
  | .cpyO d a b x c => some (52#6 ++ d ++ a ++ b ++ x ++ 4#5 ++ c)
  | .cpySeal d a b x c => some (52#6 ++ d ++ a ++ b ++ x ++ 5#5 ++ c)
  | .barInit a b => some (1696#11 ++ a ++ b ++ 0#11)
  | .barArv a => some (1696#11 ++ a ++ 32#16)
  | .barExp a b => some (1696#11 ++ a ++ b ++ 64#11)
  | .barWait a b => some (1696#11 ++ a ++ b ++ 96#11)
  | .barTry d a => some (53#6 ++ d ++ a ++ 128#16)
  | .barTrig d a b => some (53#6 ++ d ++ a ++ b ++ 160#11)
  | .waita a b => some (1728#11 ++ a ++ b ++ 0#11)
  | .waitge a b => some (1728#11 ++ a ++ b ++ 32#11)
  | .notify a => some (1728#11 ++ a ++ 64#16)
  | .rredAdd d a b fm => some (55#6 ++ d ++ a ++ b ++ 0#6 ++ fm ++ 0#3)
  | .rredMax d a b fm => some (55#6 ++ d ++ a ++ b ++ 0#6 ++ fm ++ 1#3)
  | .rredMin d a b fm => some (55#6 ++ d ++ a ++ b ++ 0#6 ++ fm ++ 2#3)
  | .rsig a b => some (1760#11 ++ a ++ b ++ 32#11)
  | .covq d => some (56#6 ++ d ++ 0#21)
  | _ => none

/-- The words of a plumb instruction (spec/18 R367); none for any other. -/
def encodePlumb : Instr → Option (List (BitVec 16))
  | .plumbLdi d imm => some [1#5 ++ d ++ imm]
  | .plumbMov d a => some [2#5 ++ d ++ a ++ 0#5]
  | .plumbAdd d a b => some [3#5 ++ d ++ a ++ b ++ 0#2]
  | .plumbSub d a b => some [4#5 ++ d ++ a ++ b ++ 0#2]
  | .plumbAnd d a b => some [5#5 ++ d ++ a ++ b ++ 0#2]
  | .plumbOr d a b => some [6#5 ++ d ++ a ++ b ++ 0#2]
  | .plumbXor d a b => some [7#5 ++ d ++ a ++ b ++ 0#2]
  | .plumbShl d a b => some [8#5 ++ d ++ a ++ b ++ 0#2]
  | .plumbShr d a b => some [9#5 ++ d ++ a ++ b ++ 0#2]
  | .plumbCmpEq d a b => some [10#5 ++ d ++ a ++ b ++ 0#2]
  | .plumbCmpNe d a b => some [10#5 ++ d ++ a ++ b ++ 1#2]
  | .plumbCmpLtn d a b => some [10#5 ++ d ++ a ++ b ++ 2#2]
  | .plumbCmpLt d a b => some [10#5 ++ d ++ a ++ b ++ 3#2]
  | .plumbSel d a b => some [11#5 ++ d ++ a ++ b ++ 0#2]
  | .plumbBrf a off => some [12#5 ++ a ++ off]
  | .plumbLoopn n l => some [13#5 ++ n ++ 0#3, l]
  | .plumbRdtl d a => some [14#5 ++ d ++ a ++ 0#5]
  | .plumbWrtl a => some [120#8 ++ a ++ 0#5]
  | .plumbWaittl a b => some [128#8 ++ a ++ b ++ 0#2]
  | .plumbRdm d a off => some [17#5 ++ d ++ a ++ off]
  | .plumbWrm d a off => some [18#5 ++ d ++ a ++ off]
  | .plumbEmit a => some [152#8 ++ a ++ 0#5]
  | .plumbEnd => some [40960#16]
  | _ => none

/-- The little-endian bytes of a value of `n` bytes (R9). -/
def leBytes : Nat → Nat → List Byte
  | 0, _ => []
  | n + 1, v => BitVec.ofNat 8 v :: leBytes n (v / 256)

/-- The value of little-endian bytes (R9). -/
def leValue : List Byte → Nat
  | [] => 0
  | b :: bs => b.toNat + 256 * leValue bs

/-- The wave instruction at the head of a list of bytes, with the rest of the list (R9, R15). -/
def decodeBytes : List Byte → Option (Decoded × List Byte)
  | b0 :: b1 :: b2 :: b3 :: rest => some (decodeWord (BitVec.ofNat 32 (leValue [b0, b1, b2, b3])), rest)
  | _ => none

/-- The plumb words in a list of bytes (R9). -/
def plumbWords : List Byte → List (BitVec 16)
  | b0 :: b1 :: rest => BitVec.ofNat 16 (leValue [b0, b1]) :: plumbWords rest
  | _ => []

/-- The two words of a LOOPN as spec/opcode_table.json numbers them: its row gives 32 bits with the FIRST word in the
high half (match 0x6800_0000), so the halves are laid out high half first. -/
def plumbPair (w : Nat) : List Byte := leBytes 2 (w / 65536) ++ leBytes 2 w

/-- The instruction the decoders read from bits numbered as spec/opcode_table.json numbers them. Sixteen bits are a plumb
word; thirty-two bits are a wave word, or, where that is no instruction, the pair of a LOOPN (log entry 7). -/
def decodeTableWord (nbits w : Nat) : Option Instr :=
  if nbits = 16 then decodePlumb (plumbWords (leBytes 2 w ++ [0, 0]))
  else if nbits = 32 then
    match decodeBytes (leBytes 4 w) with
    | some (.instr i, _) => some i
    | _ => match decodePlumb (plumbWords (plumbPair w)) with
      | some (.plumbLoopn n l) => some (.plumbLoopn n l)
      | _ => none
  else none

end Sys2Proof
end

