-- ==== Sys2Proof/Machine/State.lean ====
section
/-! DEFINITION. The state of the SF480: everything the spec gives the machine, as plain data, and the state right after reset.
Waves, blocks, gangs, jobs, copies and the rest are records in append-only lists, named by their position. -/

namespace Sys2Proof.Machine

/-- Why a step stops with a fault. The model has one such reason. -/
inductive Fault where
  /-- Never raised: every failure the spec describes is a trap, a stopped wave, a queue fault or a refusal that is state. Safe. -/
  | none
  deriving DecidableEq, Repr

/-- Why a step refuses. -/
inductive Refusal where
  /-- An instruction without a meaning yet; raised by an arm of exec. Safe. -/
  | notModelled (mnemonic : String)
  deriving DecidableEq, Repr

/-- The outcome of a step of this machine. -/
abbrev Out (σ : Type) := Host.Outcome σ Fault Refusal

/-- The loop state of a split (spec/02 R65, Table 2.9): LPCNT, LPBEG, LPEND.END, the depth and the stacked loop. -/
structure Loops where
  cnt : Word
  beg : Word
  fin : Word
  depth : Nat
  scnt : Word
  sbeg : Word
  sfin : Word
  deriving DecidableEq, Repr

/-- No active loop and every loop register 0. -/
def Loops.none : Loops := ⟨0, 0, 0, 0, 0, 0, 0⟩

/-- A trap: cause, subcode and TRAPVAL (spec/07 Table 7.1). -/
structure Trap where
  cause : Nat
  sub : Nat
  val : Word
  deriving DecidableEq, Repr

/-- A split (spec/02 R51 to R55): lane mask, program counter, loop state, resident index (none when spilled), the state
number at which it last had to wait at its instruction, the resident indices it yields to (spec/04 R111), whether it waits
in WFE (R116), its fetch buffer of up to 16 words (spec/08 R205), whether its next instruction raises no comparator hit
(spec/21 R396), whether the wait is one that leaves it the issuing split (R52 lists the others), and the "empty read" trap
that its instruction has raised while an older one is still to complete (R57, spec/07 R179). -/
structure Split where
  mask : Word
  pc : Word
  loops : Loops
  idx : Option Nat
  held : Option Nat
  yields : List Nat
  wfe : Bool
  fbase : Word
  fbuf : List IWord
  skipHit : Bool
  stalls : Bool
  due : Option Trap
  deriving DecidableEq, Repr

/-- A translation or fetch fault that parks a wave (spec/07 R183): cause, subcode, address, whether a store, and the level
whose frame it wrote (0 when none was written), and the position of the split. -/
structure Park where
  cause : Nat
  sub : Nat
  addr : Word
  write : Bool
  frame : Nat
  split : Nat
  deriving DecidableEq, Repr

/-- Why a wave was stopped for good (spec/07 R181, R187, R189): unhandled, double fault, divergence, HALT. -/
inductive StopWhy where
  | unhandled | doubleFault | divergence | handlerHalt
  deriving DecidableEq, Repr

/-- A pending long-latency write (spec/02 R56): a scalar register, or the registers of a vector group from `v`. -/
inductive LongWrite where
  | scalar (d : Reg) (v : Word) (poison : Bool)
  | vector (d : Reg) (regs : List VReg) (whole : List Bool) (poison : List Bool)
  deriving DecidableEq, Repr

/-- The write is of a scalar register. -/
def LongWrite.isScalar : LongWrite → Bool
  | .scalar _ _ _ => true
  | .vector _ _ _ _ => false

/-- An entry of the history buffer (spec/02 R63, spec/05 R131): a scalar register with its old value and poison, the old VL with its
lane cap, the old WMODE with VL, or the old SPACE. -/
inductive Hist where
  | reg (n : Reg) (v : Word) (poison : Bool)
  | vl (v cap : Nat)
  | mode (m : BitVec 32) (vl : Nat)
  | space (v : BitVec 2)
  deriving DecidableEq, Repr

/-- Where an address leads: a byte here, in an idempotent or a device-class page, or a byte of another device. -/
inductive Place where
  | here (key : Nat) (devClass : Bool)
  | away (dev addr : Nat) (devClass : Bool)
  deriving DecidableEq, Repr

/-- The result of resolving an address: a place, or a trap cause with its subcode. -/
inductive Acc where
  | ok (p : Place)
  | trap (cause sub : Nat)
  deriving DecidableEq, Repr

/-- An element's access: its index, its address (the sum where it forms none), where that leads, and the value it carries. -/
structure VAcc where
  i : Nat
  a : Word
  acc : Acc
  v : Nat := 0
  deriving DecidableEq, Repr

/-- Data read at a place: the value and whether a byte was poisoned; poisoned bytes read as zero (spec/07 R192). -/
structure Read where
  val : Nat
  bad : Bool
  deriving DecidableEq, Repr

/-- Where a byte of a copy lies: here, at another device, nowhere it may touch (declined, of device class), or behind a fault. -/
inductive CPlace where
  | at (key : Nat)
  | away (dev addr : Nat)
  | err
  | fault (sub : Nat)
  deriving DecidableEq, Repr

/-- What a vector instruction does at each element: a load, a store, or an atomic of a function. -/
inductive ElemOp where
  | load | store | amo (fn : Nat)
  deriving DecidableEq, Repr

/-- A vector access under way (spec/06 R148 to R160): the operation, its group, bytes per element, whether its elements are accessed one at a
time (spec/02 R61), the accesses to come, what has been read, the keys written, the first element that faults with its trap, for VLDF the
lowest active element and the first element left out, and WMODE as it issued. -/
structure VecAccess where
  op : ElemOp
  d : Reg
  n : Nat
  single : Bool
  todo : List VAcc
  got : List (Nat × Read)
  keys : List Nat
  bad : Option (VAcc × Trap)
  ldf : Option (Nat × Option Nat)
  mode : BitVec 32
  deriving DecidableEq, Repr

/-- What a remote access of a wave does with its answer (spec/22 R409): a scalar load of bytes into a register by sign or zero, a scalar store, an
atomic of bytes with its old value's register, a vector access; and the address. -/
inductive AskKind where
  | load (d : Reg) (n : Nat) (signed : Bool) (a : Word)
  | store (a : Word)
  | atomic (d : Reg) (n : Nat) (a : Word)
  | vector (x : VecAccess)
  deriving DecidableEq, Repr

/-- A remote access of a wave before its fault point (spec/22 R409, spec/02 R63): its request, the first operation without a route, the place of
its split, the splits as they stood at its issue, the writes in flight that are older, the bound streams it uses, what it does, and the first request
it sent. -/
structure RemoteAsk where
  req : Nat
  fail : Option Nat
  split : Nat
  splits : List Split
  older : Nat
  used : List Nat
  kind : AskKind
  first : Nat
  deriving DecidableEq, Repr

/-- A tile grant (spec/10 R213). -/
structure Grant where
  rows : Nat
  cols : Nat
  depth : Nat
  fmt : Nat
  sparse : Nat
  deriving DecidableEq, Repr

/-- No grant. -/
def Grant.none : Grant := ⟨0, 0, 0, 0, 0⟩

/-- A SETTILE that waits (spec/11 R232, R233): its address and the lanes of its split, its destination and request, the grant and the caps word as it
issued, and the state number of its issue. -/
structure TileWait where
  pc : Word
  lanes : Word
  d : Reg
  request : Word
  grant : Grant
  caps : Nat
  since : Nat
  deriving DecidableEq, Repr

/-- A bound stream of a wave (spec/06 R165 to R173): the descriptor, SPACE and G as captured, the count of elements consumed
(read) or taken (write), the count of elements filled or sent, the elements read for the present fill with their poison,
whether the group holds a fill not yet consumed, whether a take is due, the remote request under way, and the fault that
stopped or parked it: cause, subcode, address, replayable, with whether a trap has reported it. -/
structure Stream where
  reg : Nat
  kind : Nat
  fmt : Nat
  port : Nat
  chunk : Nat
  base : Word
  stride : Word
  count : Nat
  rows : Nat
  rowStride : Word
  space : Nat
  g : Nat
  done : Nat
  filled : Nat
  part : List (Nat × Bool)
  full : Bool
  due : Bool
  drained : Bool
  ask : Option Nat
  err : Option (Nat × Nat × Word × Bool)
  told : Bool
  /-- State number at which the take became due, or the fill was called for. -/
  since : Nat
  /-- The accesses of the request under way. -/
  todo : List VAcc
  deriving DecidableEq, Repr

/-- A wave, or one half of a legacy wave (spec/02 R40 to R66, spec/07 R177 to R192). -/
structure Wave where
  block : Nat
  /-- Native wave index in the block (spec/14 R284). -/
  index : Nat
  /-- 0, or the half in legacy mode (spec/02 R66). -/
  half : Nat
  /-- The other half's wave, in legacy mode. -/
  mate : Option Nat
  /-- Its vector file in `State.vfiles`. -/
  vfile : Nat
  s : Vector Word 32
  k : Vector Word 8
  sFull : BitVec 32
  vFull : BitVec 32
  sPois : BitVec 32
  vPois : BitVec 32
  wmode : BitVec 32
  wstat : BitVec 8
  vl : Nat
  /-- VLCAP when VL was granted: a changed cap acts at the next SETVL (spec/10 R224). -/
  cap : Nat
  space : BitVec 2
  esr : Nat
  esv : Word
  splits : List Split
  /-- Splits frozen while a handler runs (spec/07 R180). -/
  frozen : List Split
  latch : Bool
  lvl : Nat
  trapbase : Word
  /-- Claim state of the levels 1, 2 and 3 (spec/04 R117). -/
  claims : BitVec 4
  /-- The level the D handler interrupted (spec/21 R397). -/
  heldLevel : Nat
  /-- Pending lease expiry: microseconds held (spec/19 R387). -/
  lease : Option Word
  /-- Pending energy quota: overdraft in mJ (spec/19 R390). -/
  quota : Option Word
  park : Option Park
  /-- Halted for the debug port (spec/21 R398). -/
  halted : Bool
  /-- Stopped at a hard stop or saved (spec/14 R294). -/
  suspended : Bool
  /-- Frozen because the other half traps (spec/02 R66, spec/07 R180). -/
  mateTrap : Bool
  stopped : Option StopWhy
  /-- Outstanding SYSC: service number n12, and the service's k once posted (spec/04 R114, spec/18 R364). -/
  sysc : Option (Nat × Option Nat)
  /-- Recorded CONT: entry and argument (spec/12 R275). -/
  cont : Option (Word × Word)
  pend : List LongWrite
  /-- The scalar register a LEASE leaves empty (spec/19 R385). -/
  leaseDst : Option Reg
  ask : Option RemoteAsk
  /-- A memory access of the wave has not passed its fault point (spec/02 R63). -/
  ahead : Bool
  /-- A request of a fetch or a descriptor read on another device, with the address of its instruction and whether its page is of device class. -/
  look : Option (Nat × Word × Bool)
  /-- A SETTILE that waits to be applied (spec/11 R233). -/
  tile : Option TileWait
  /-- Fabric operations found unreachable: request and target address (spec/22 R414). -/
  fabFail : List (Nat × Word)
  streams : List Stream
  /-- History buffer, newest first (spec/02 R63). -/
  hist : List Hist
  ended : Bool
  deriving DecidableEq, Repr

/-- A vector file: v0 to v31, shared by the halves of a legacy wave, and the lane-cycle counters with their last
sample (spec/02 R40, R66, spec/21 R402): LCUSE, LCMASK, LCBEYOND, LCSTART, LCSTALL; and the half that issued last (R66). -/
structure VFile where
  v : Vector VReg 32
  lc : Vector Word 5
  sample : Vector Word 5
  served : Nat
  deriving DecidableEq, Repr

/-- An operand slot (spec/10 R215, R216): state 0 free, 1 claimed, 2 filled, 3 stale; owner block; role 0 A, 1 B; grant and
role recorded at the fill; a fill in flight. -/
structure Slot where
  st : Nat
  owner : Nat
  role : Nat
  grant : Grant
  filling : Nat
  deriving DecidableEq, Repr

/-- A trigger registered by BAR.TRIG (spec/12 R270): the barrier's core and scratchpad offset, the block, entry and argument,
and whether it has fired and waits for a bin. -/
structure Trigger where
  core : Nat
  offset : Nat
  block : Nat
  entry : Word
  arg : BitVec 32
  fired : Bool
  deriving DecidableEq, Repr

/-- What a barrier in use holds beside its 16 bytes (spec/12 R267, spec/04 R116): the errors and poison counted into the phase in progress, the
blocks that arrived at it, and, once a store, an atomic or a copy has written into it, the first draw of its fields (R265). -/
structure BarSide where
  key : Nat
  err : Bool
  pois : Bool
  blocks : List Nat
  drawn : Option Nat
  deriving DecidableEq, Repr

/-- A spawn bin (spec/10 R225): key (object, entry), the block that spawned its first thread, the arguments of its threads in
order, TIME when the first entered, and whether its launch is held. -/
structure Bin where
  obj : Nat
  entry : Word
  block : Nat
  args : List (BitVec 32)
  start : Nat
  held : Bool
  deriving DecidableEq, Repr

/-- Where a block stands in its life (spec/12 R274, R275, spec/14 R288, R294). -/
inductive BlockPhase where
  | running | ending | waiting | done | discarded
  deriving DecidableEq, Repr

/-- What a saved block keeps of its core (spec/14 R296): its slots, the triggers on its barriers and their phases, by offset. -/
structure Image where
  slots : List (Nat × Slot)
  triggers : List Trigger
  bars : List BarSide
  deriving DecidableEq, Repr

/-- A block (spec/10 R213, R217, R219, spec/14 R283, R284, R289). -/
structure Block where
  job : Option Nat
  queue : Nat
  ctx : Nat
  obj : Nat
  kernel : Nat
  core : Nat
  /-- Launched from a spawn bin. -/
  bin : Bool
  ident : Nat
  pidx : Vector Nat 4
  /-- Linear index of its point among the job's points. -/
  point : Nat
  argp : Word
  gang : Nat
  member : Nat
  waves : List Nat
  scratchBase : Nat
  scratch : Nat
  sets : List Nat
  grant : Grant
  live : BitVec 4
  dmg : BitVec 4
  latch : Bool
  /-- CLASSCHG: CHG and FROM. -/
  classchg : BitVec 2
  cov : Word
  /-- It is a check point of a coverage launch (spec/17 R338). -/
  check : Bool
  /-- Back-filled (spec/14 R286). -/
  backfill : Bool
  phase : BlockPhase
  /-- The accepted continuation: object, kernel, entry, argument. -/
  next : Option (Nat × Nat × Word × Word)
  /-- Pinned to M-cores (spec/14 R299). -/
  pinM : Bool
  /-- The chunk of its point in a coverage launch. -/
  chunk : Nat
  /-- What it has stored outside its own allocation, in a coverage launch: address, bytes (spec/17 R342). -/
  wrote : List (Word × Nat)
  /-- Its image, while its context is saved. -/
  saved : Option Image
  deriving DecidableEq, Repr

/-- A port of a gang (spec/06 R174): format, bytes in transit, whether a writer is bound, and whether it drained. -/
structure Port where
  fmt : Option Nat
  bytes : List Byte
  writer : Bool
  reader : Bool
  drained : Bool
  deriving DecidableEq, Repr

/-- A gang (spec/14 R281, R285, spec/06 R174). -/
structure Gang where
  blocks : List Nat
  size : Nat
  cluster : Nat
  ports : List Port
  released : Bool
  deriving DecidableEq, Repr

/-- A multiply in a tile queue or running (spec/10 R220, spec/11): function 0 MMA, 1 MMAS, 2 MMAZ; the block, set number within
the block and physical set, slots, grant, and the mode bits captured at issue; its place in the order of issue; for each operand, whether a fill of the slot was
in flight as it issued (R241); the state number of its issue; and for each operand, what the slot held as each such fill ended. -/
structure MmaOp where
  fn : Nat
  block : Nat
  acc : Nat
  set : Nat
  slotA : Nat
  slotB : Nat
  grant : Grant
  rnd : Nat
  sat : Bool
  order : Nat
  mixA : Bool
  mixB : Bool
  since : Nat
  oldA : List (List Byte)
  oldB : List (List Byte)
  deriving DecidableEq, Repr

/-- A cached translation (spec/16 R319): PASID, page base, page size, entry. -/
structure TlbEntry where
  pasid : Nat
  base : Nat
  size : Nat
  entry : Word
  deriving DecidableEq, Repr

/-- A core (spec/10 R211 to R227, spec/21 R395, R399). -/
structure CoreSt where
  hcol : Nat
  inService : Bool
  part : Nat
  power : Nat
  vlcap : Nat
  slots : List Slot
  /-- Splits that wait in an OCLAIM, by wave and address, in the order in which they asked (spec/10 R216). -/
  claimers : List (Nat × Word)
  qlo : List MmaOp
  qhi : List MmaOp
  run : Option MmaOp
  triggers : List Trigger
  bins : List (Option Bin)
  /-- Launched bins that wait for a wave slot and their resources (spec/10 R226), oldest first. -/
  launches : List Bin
  binCount : Nat
  cycle : Word
  dcAddr : Vector Word 8
  dcCtl : Vector Word 8
  trcBase : Word
  trcCtl : Word
  trcPos : Word
  /-- Unlaunched points of the chunks it holds: job, point, chunk number. -/
  chunk : List (Nat × Nat × Nat)
  /-- Its TLB of 64 entries (spec/16 R319). -/
  tlb : List TlbEntry
  deriving DecidableEq, Repr

/-- A cluster (spec/10 R223, R224, spec/14 R300, spec/16 R319, spec/19 R381): its partition, whether it is gated, its clock, the
allowance counter, the intervals of 1 µs in a row with withholding, whether the present one has it, and TIME since when
there was none or caps were last raised. -/
structure ClusterSt where
  part : Option Nat
  gated : Bool
  mhz : Nat
  allowance : Int
  withheld : Nat
  held : Bool
  quiet : Nat
  /-- TIME since when it holds no block, and the idle time in nanoseconds after which it is gated (spec/14 R300). -/
  idle : Nat
  idleLimit : Nat
  /-- Thousandths of a cycle of its clock that have passed beyond the last whole one (spec/02 R50). -/
  frac : Nat
  /-- Wave-slot cycles of the present energy interval, by context (spec/19 R389). -/
  slots : List (Nat × Nat)
  tlb : List TlbEntry
  /-- Instruction-cache words by memory key (spec/08 R204). -/
  icache : List (Nat × BitVec 32)
  deriving DecidableEq, Repr

/-- A key slot (spec/12 R263, R264, spec/18 R375): key, nonce base, partition, code measurement, model. -/
structure KeySlot where
  key : BitVec 256
  nonce : BitVec 96
  part : Nat
  measure : BitVec 384
  model : Word
  deriving DecidableEq, Repr

/-- A partition (spec/16 R321, spec/18 R350, R362, R378, spec/19 R380, R383). -/
structure Part where
  id : Nat
  clusters : List Nat
  cap : Nat
  regulator : Nat
  allot : Nat
  /-- Allotment left, in nanojoules. -/
  allotLeft : Nat
  keySlots : List Nat
  run : Bool
  /-- Fault ring: host address, records, next record. -/
  ring : Option (Nat × Nat × Nat)
  /-- Telemetry: uncorrectable soft errors, and corrected ones (spec/18 R372). -/
  softErrors : Nat
  corrected : Nat
  /-- Bindings: device and its partition (spec/22 R405). -/
  bindings : List (Nat × Nat)
  /-- Route table: device and ports (spec/22 R403). -/
  routes : List (Nat × List Nat)
  msix : List Nat
  deriving DecidableEq, Repr

/-- Pre-emption states (spec/14 Table 14.3). -/
inductive Preempt where
  | running | soft | hard | saved | reset
  deriving DecidableEq, Repr

/-- A held lease (spec/19 R384): level, granted microseconds, start TIME, holder wave, share in units of W/128. -/
structure LeaseSt where
  level : Nat
  granted : Nat
  start : Nat
  holder : Nat
  share : Nat
  deriving DecidableEq, Repr

/-- A LEASE that the controller has not evaluated (spec/19 R385): wave, destination, duration, level, minimum. -/
structure LeaseAsk where
  wave : Nat
  d : Reg
  us : Nat
  level : Nat
  minMs : Nat
  deriving DecidableEq, Repr

/-- A context (spec/18 R351, spec/14 R292, spec/19 R384 to R390). -/
structure Ctx where
  opened : Bool
  fn : Nat
  root : Nat
  pasid : Nat
  part : Nat
  soft : Nat
  st : Preempt
  /-- TIME at entry to soft or hard. -/
  since : Nat
  /-- A resume request held while in hard. -/
  resume : Option (List (Nat × Nat))
  /-- Copies cancelled at a hard stop, in list order (spec/14 R295). -/
  replay : List Nat
  lease : Option LeaseSt
  asks : List LeaseAsk
  reason : Nat
  /-- Energy charged, in microjoules. -/
  energy : Nat
  equota : Nat
  /-- Telemetry: its shares of the last interval, by cluster, in microjoules (spec/19 R389). -/
  shares : List (Nat × Nat)
  /-- A teardown in progress: the cause code of its queues. -/
  tearing : Bool
  /-- Bins of the context while it is saved, with their cores. -/
  bins : List (Nat × Bin)
  /-- Its points that were dealt and not launched when it was saved: core, job, point, chunk number (spec/14 R282). -/
  points : List (Nat × Nat × Nat × Nat)
  deriving DecidableEq, Repr

/-- Queue states (spec/18 Table 18.4). -/
inductive QueueMode where
  | opened | faulted | closed
  deriving DecidableEq, Repr

/-- A packet held by a queue after its start, or an emitted one (spec/18 R355, R357): sequence number, its 64 bytes,
its type, its signal, its record address, completed, signal applied. -/
structure Packet where
  seq : Nat
  bytes : List Byte
  type : Nat
  sig : Option Word
  compl : Word
  /-- The job or copy that carries it out, once started. -/
  carrier : Nat
  done : Bool
  applied : Bool
  deriving DecidableEq, Repr

/-- A hardware queue (spec/18 R352 to R365, spec/17 R345, spec/21 R397, R401, spec/14 R285 to R287). -/
structure Queue where
  num : Nat
  ctx : Nat
  ring : Word
  slots : Nat
  prio : Nat
  bint : Nat
  prog : Nat
  tladdr : Word
  handler : Word
  pwin : Word
  pwinsz : Nat
  age : Nat
  svc : Word
  mode : QueueMode
  /-- The last queue fault: code, cause, subcode, value (spec/18 Table 18.10). -/
  fault : Option (Nat × Nat × Nat × Word)
  bell : Word
  nextSeq : Nat
  /-- Reads of the slot that did not match so far, and TIME at the first (spec/18 R356). -/
  retries : Nat
  retrySince : Nat
  /-- What word 1 of the mirror area reads: the oldest packet not yet retired (spec/18 R354). -/
  retired : Nat
  tl : Word
  /-- A packet accepted but not started. -/
  head : Option Packet
  /-- Packets emitted by a plumb run that has not started them yet. -/
  emitted : List Packet
  flight : List Packet
  /-- A device access of the queue that waits for the host (spec/18 R354): its address, whether a write, whether of a card or
  coverage record. -/
  memFault : Option (Word × Bool × Bool)
  /-- Requests to other devices for the queue's own accesses: address, whether a write, the request, where the bytes lie. -/
  asks : List (Word × Bool × Nat × List CPlace)
  /-- Writes of the mirror area that are due: word 0 or 1, value (spec/18 R354, R359). -/
  mirror : List (Nat × Word)
  /-- Services posted so far, and those outstanding (wave). -/
  services : Nat
  outstanding : List (Nat × Nat)
  /-- Coverage key, rung, full mode and run count (spec/17 R344, R345). -/
  covKey : Option Word
  covRung : Nat
  covFull : Bool
  covRun : Nat
  /-- Unplaced gangs: job and first point, oldest first. -/
  line : List (Nat × Nat)
  /-- TIME when the head gang became head (spec/14 R287). -/
  headSince : Nat
  reserved : Option Nat
  aged : Bool
  debugEntry : Option Word
  pin : Option Pin
  deleted : Bool
  deriving DecidableEq, Repr

/-- A skipped point of a coverage job (spec/17 R338, R340, R342): the point, the rung captured, whether a check point, the remote request
that reads or writes for it, the fault it waits for (address, write), the step it is at (0 the tile, 1 the skip map, 2 done) and the STAT
and PASS2 it has got. A kept point whose skip-map byte is due is one at step 1. -/
structure Skipped where
  point : Nat
  rung : Nat
  check : Bool
  rd : Option Nat
  wr : Option Nat
  /-- Where its bytes lie, sources and tile, once it has sent a request. -/
  placed : Option (List CPlace × List CPlace)
  fault : Option (Word × Bool)
  step : Nat
  stat : Nat
  pass2 : Bool
  deriving DecidableEq, Repr

/-- A chunk of a coverage job (spec/17 R338, R344): the rung captured (15 for full mode), and its blocks that have not ended. -/
structure Chunk where
  rung : Nat
  left : Nat
  deriving DecidableEq, Repr

/-- A job (spec/18 R360, spec/14 R281, R282, R290, spec/17 R336 to R347). -/
structure Job where
  queue : Nat
  seq : Nat
  obj : Nat
  kernel : Nat
  entry : Word
  args : Word
  n : Vector Nat 4
  cmin : Nat
  gang : Nat
  idem : Bool
  regions : Word
  /-- Units dealt. -/
  dealt : Nat
  /-- Points returned by flush-and-restart, with their chunks. -/
  returned : List (Nat × Nat)
  launched : Nat
  /-- A queue fault stopped its dealing. -/
  stopped : Bool
  /-- The bytes of the coverage record, empty outside a coverage launch. -/
  cov : List Byte
  /-- Its address. -/
  covRec : Word
  skipCount : Nat
  skipped : List Skipped
  chunks : List Chunk
  /-- Points dealt as ordinary blocks, in a coverage launch. -/
  kept : List Nat
  /-- The cores that ask for a chunk, in the order in which they began to (spec/14 R282). -/
  asked : List Nat
  covError : Bool
  fabError : Bool
  /-- Largest misclosure (f64) since the previous update and whether a comparison finished. -/
  miss : Word
  compared : Bool
  covEnded : Bool
  /-- The kept points with their skip-map bytes. -/
  mapDue : List Skipped
  /-- The completion record's address, or 0. -/
  compl : Word
  /-- The completion record was written. -/
  recorded : Bool
  finished : Bool
  deriving DecidableEq, Repr

/-- A kernel of a loaded object (spec/01 R35). -/
structure Kernel where
  waves : Nat
  accsets : Nat
  legacy : Bool
  scratch : Nat
  entries : List Word
  deriving DecidableEq, Repr

/-- A loaded code object (spec/01 R33 to R39): partition, text and data base, kernels, measurement. -/
structure Obj where
  part : Nat
  ctx : Nat
  text : Word
  data : Word
  kernels : List Kernel
  measure : BitVec 384
  deriving DecidableEq, Repr

/-- What a copy fills or writes (spec/12 R253, R260, R262). -/
inductive CopyEnd where
  | mem (base : Word) (stride : Word)
  | slot (n : Nat)
  | sealed (base : Word) (off : Nat) (stride : Word) (key : Nat) (model : Word)
  deriving DecidableEq, Repr

/-- How a copy completes (spec/12 R257): a barrier, a signal word with its value, or a COPY packet. -/
inductive CopyTarget where
  | barrier (addr : Word)
  | signal (addr : Word) (v : Word)
  | packet (queue seq : Nat)
  deriving DecidableEq, Repr

/-- A copy (spec/12 R253 to R264, spec/18 R355): who issued it (no wave for a COPY packet), its ends, rows and row bytes, its
completion, the side each end is on, the grant and key captured, the waiting translation fault (address, write), the declined
pages, the remote requests that read and write for it, whether a check failed at its reissue (for a COPY packet,
whether its queue faulted), and whether its bytes have
moved, with its errors, whether it was cancelled and whether it ended. -/
structure Copy where
  wave : Option Nat
  block : Option Nat
  core : Nat
  ctx : Nat
  queue : Nat
  src : CopyEnd
  dst : CopyEnd
  rows : Nat
  rowBytes : Nat
  srcLocal : Bool
  dstLocal : Bool
  target : CopyTarget
  grant : Grant
  key : Option KeySlot
  fault : Option (Word × Bool)
  declined : List (Nat × Bool)
  /-- Bytes that another copy wrote while both were in flight (spec/12 R256): unit, address, count. -/
  shared : List (Nat × Nat × Nat)
  /-- Where its bytes lie, source and destination, once it has sent a request. -/
  placed : Option (List CPlace × List CPlace)
  rd : Option Nat
  wr : Option Nat
  /-- A COPY packet's completion record, or 0. -/
  compl : Word
  reissueError : Bool
  moved : Option (Bool × Bool)
  cancelled : Bool
  finished : Bool
  deriving DecidableEq, Repr

/-- A plumb run (spec/18 R366 to R370): queue, the words, word index, p0 to p7, steps, emitted packets, the active loop
(first body word, words, passes left) and the die whose engine runs it. -/
structure PlumbRun where
  queue : Nat
  die : Nat
  seq : Nat
  words : List (BitVec 16)
  pc : Nat
  p : Vector Word 8
  steps : Nat
  emits : List (List Byte)
  loop : Option (Nat × Nat × Nat)
  finished : Bool
  deriving DecidableEq, Repr

/-- A shootdown in progress (spec/16 R320): PASID, range, the clusters yet to be reached and to acknowledge, and how many remote requests had been
sent at its request and at its arrival at each cluster. -/
structure Shootdown where
  pasid : Nat
  lo : Nat
  hi : Nat
  toReach : List Nat
  toAck : List Nat
  done : Bool
  sent : Nat
  marks : List (Nat × Nat)
  deriving DecidableEq, Repr

/-- Who waits for a remote answer: a wave's access, a wave's fetch or descriptor read, a stream of a wave, a copy, a device access of a queue, the
infill of a point, a fabric operation of a wave and block with its address, or the trace of a core. -/
inductive RemoteUse where
  | access (wave : Nat)
  | look (wave : Nat)
  | trace (core : Nat)
  | stream (wave : Nat) (reg : Nat)
  | copy (n : Nat)
  | queue (q : Nat)
  | infill (job : Nat) (point : Nat)
  | fabric (wave : Nat) (block : Nat) (addr : Word)
  deriving DecidableEq, Repr

/-- Requests this device sent together (spec/22 R405 to R414): the partition, each element's device, sequence number and operation,
who waits, TIME when they were sent, the answer, and the core that sent them, 1024 for the hub. -/
structure RemoteOut where
  part : Nat
  ops : List (Nat × Nat × RemoteOp)
  use : RemoteUse
  sent : Nat
  answer : Option RemoteAnswer
  core : Nat
  deriving DecidableEq, Repr

/-- A baseline port (spec/22 R403, R406): trained lanes 8, 4, 2 or 0 when down or untrained, CRC errors in a row, partition. -/
structure FabPort where
  lanes : Nat
  retries : Nat
  part : Option Nat
  deriving DecidableEq, Repr

/-- The fabric (spec/22). -/
structure Fabric where
  devid : Nat
  assigned : Bool
  ports : List FabPort
  /-- The last sequence number used toward each device. -/
  seqs : List (Nat × Nat)
  out : List RemoteOut
  /-- Requests performed here, by source device and sequence number, with the operation. -/
  performed : List (Nat × Nat)
  /-- Requests that arrived before a lower-numbered one of their source, with TIME at their arrival (R408). -/
  early : List (RemoteIn × Nat)
  /-- RRED elements and RSIG additions that arrived and are not applied yet. -/
  arrived : List RemoteIn
  /-- The responses this device has sent, by source device and sequence number. -/
  replies : List (Nat × Nat × RemoteAnswer)
  deriving DecidableEq, Repr

/-- The SPDM responder toward one DOE mailbox (spec/18 R350, R373). -/
structure Spdm where
  version : Bool
  caps : Bool
  algs : Bool
  /-- 0 no session, 1 after KEY_EXCHANGE, 2 established. -/
  session : Nat
  keyUpdates : Nat
  /-- The kind of the last reply: 0 none, else the request's own number, 255 an ERROR reply. -/
  reply : Nat
  /-- The measurement block last reported. -/
  measured : Option (BitVec 384)
  /-- The keys of the session, while there is one. -/
  key : Option (BitVec 256)
  /-- The digests, certificate or signature that the last reply carries. -/
  payload : List Byte
  deriving DecidableEq, Repr

/-- The responder toward a mailbox that has received nothing. -/
def Spdm.blank : Spdm := ⟨false, false, false, 0, 0, 0, none, none, []⟩

/-- The trust state of the datum firmware (spec/18 R371 to R378). -/
structure Trust where
  keys : List (Option KeySlot)
  /-- The responder by function, one mailbox each; a function not listed has sent nothing. -/
  spdm : List (Nat × Spdm)
  /-- Status byte of the last key request (spec/18 R375). -/
  keyStatus : Option Nat
  /-- Verified plumb programs by number. -/
  progs : List (Nat × List (BitVec 16))
  firmware : Nat
  deriving DecidableEq, Repr

/-- A PCIe PRI page request (spec/16 R316): its function, PASID and page, and whether a write. -/
structure PriReq where
  fn : Nat
  pasid : Nat
  page : Nat
  write : Bool
  deriving DecidableEq, Repr

/-- The host link (spec/18 R350): speed in GT/s, width, key sets programmed and in use per IDE stream, and the page requests to answer, the first 512 of
a function being outstanding and the others waiting. -/
structure HostLink where
  speed : Nat
  width : Nat
  ideReady : List Nat
  ideOn : List Nat
  pri : List PriReq
  deriving DecidableEq, Repr

/-- What the machine does next: an issue slot of a core, one of a given wave (the core's other slot, or those above it within an issue cost:
Table 10.1, R96), a slot of the plumb engine of a run, an event, a message through the DOE mailbox of a function (spec/18 R350,
R373), or the field firmware's setting of a cluster's idle limit (spec/14 R300). -/
inductive Turn where
  | core (n : Nat)
  | wave (n : Nat)
  | plumb (run : Nat)
  | event (i : Instr)
  | message (fn : Nat) (i : Instr)
  | idle (cluster ns : Nat)
  deriving DecidableEq, Repr

/-- Who acts in the present step: a split of a wave, a plumb run, or the requester at a function's mailbox. -/
structure Cur where
  wave : Nat
  split : Nat
  run : Nat
  fn : Nat
  deriving DecidableEq, Repr

/-- The state of the machine. -/
structure State where
  waves : List Wave
  vfiles : List VFile
  blocks : List Block
  gangs : List Gang
  cores : List CoreSt
  clusters : List ClusterSt
  parts : List Part
  ctxs : List Ctx
  queues : List Queue
  jobs : List Job
  objs : List Obj
  copies : List Copy
  /-- The barriers in use. -/
  bars : List BarSide
  runs : List PlumbRun
  shoots : List Shootdown
  /-- Elements of accumulator sets that are not +0, by core, set, row and column (spec/10 R217). -/
  accs : List (Nat × BitVec 32)
  mem : List Host.Cell
  /-- Poisoned granules, by memory key divided by 8 (spec/16 R332). -/
  pois : List Nat
  fabric : Fabric
  trust : Trust
  host : HostLink
  melt : BitVec 16
  rfz : Bool
  /-- The debug port refused its last write: status "bound" (spec/07 R191). -/
  portBound : Bool
  /-- Fault records written, newest last, as kind, code, cause, sub, queue, info, value, who (spec/18 R362). -/
  records : List (List Nat)
  /-- The model's own: what happens next, who acts, the default turn, the number of the state and of the next free value. -/
  agenda : List Turn
  cur : Cur
  turn : Nat
  now : Nat
  tick : Nat
  time : Word
  deriving DecidableEq, Repr

/-- Column of a cluster in the mesh (spec/16 R305); cores are numbered die, cluster, core: 128 per die. -/
def eCluster (cluster : Nat) : Bool := cluster % 8 == 0 || cluster % 8 == 7

/-- The class of a core: true for an E-core (spec/16 R305). -/
def isE (core : Nat) : Bool := eCluster (core / 4 % 32)

/-- A free operand slot. -/
def Slot.free : Slot := ⟨0, 0, 0, .none, 0⟩

/-- A core at reset (spec/10 R214, spec/21 Tables 21.1 and 21.2). -/
def CoreSt.reset (n : Nat) : CoreSt where
  hcol := if isE n then 16 else if Config.columnFault n then 32 else 64
  inService := !(isE n && Config.mappedOut n)
  part := 64
  power := 64
  vlcap := 64
  slots := List.replicate (if isE n then 8 else 16) Slot.free
  claimers := []
  qlo := []
  qhi := []
  run := none
  triggers := []
  bins := List.replicate 8 none
  launches := []
  binCount := 0
  cycle := 0
  dcAddr := Vector.replicate 8 0
  dcCtl := Vector.replicate 8 0
  trcBase := 0
  trcCtl := 12
  trcPos := 0
  chunk := []
  tlb := []

/-- A cluster at reset: in no partition, so gated (spec/19 R380), at the sustained clock (R381); its allowance is 0, the model's choice (log entry 4). -/
def ClusterSt.reset : ClusterSt := ⟨none, true, 1050, 0, 0, false, 0, 0, 20000, 0, [], [], []⟩

/-- The state right after reset: no partition, context, queue, object, block or wave; memory zero and unpoisoned (spec/16 R324,
spec/18 R376, spec/22 R404). -/
def State.reset : State where
  waves := []
  vfiles := []
  blocks := []
  gangs := []
  cores := (List.range 512).map CoreSt.reset
  clusters := List.replicate 128 ClusterSt.reset
  parts := []
  ctxs := []
  queues := []
  jobs := []
  objs := []
  copies := []
  bars := []
  runs := []
  shoots := []
  accs := []
  mem := []
  pois := []
  fabric := ⟨0, false, List.replicate 18 ⟨0, 0, none⟩, [], [], [], [], [], []⟩
  trust := ⟨List.replicate 256 none, [], none, [], 0⟩
  host := ⟨0, 0, [], [], []⟩
  melt := 0
  rfz := false
  portBound := false
  records := []
  agenda := []
  cur := ⟨0, 0, 0, 0⟩
  turn := 0
  now := 0
  tick := 0
  time := 0

end Sys2Proof.Machine
end

