-- ==== Sys2Proof/Machine/Bits.lean ====
section
/-! DEFINITION. Bit fields, list updates and small helpers that the meanings share. -/

namespace Sys2Proof.Machine

/-- `l` with `f` applied to the element at `i`, where there is one. -/
def updAt {α : Type} : List α → Nat → (α → α) → List α
  | [], _, _ => []
  | x :: xs, 0, f => f x :: xs
  | x :: xs, i + 1, f => x :: updAt xs i f

/-- The bits [hi:lo] of a natural number (spec/00 R14). -/
def bits (v hi lo : Nat) : Nat := v / 2 ^ lo % 2 ^ (hi + 1 - lo)

/-- Bit `i` of a natural number. -/
def bit (v i : Nat) : Bool := v / 2 ^ i % 2 == 1

/-- 1 or 0. -/
def b2n (b : Bool) : Nat := if b then 1 else 0

/-- A natural number as a word. -/
def word (n : Nat) : Word := BitVec.ofNat 64 n

/-- An integer as a word, mod 2^64. -/
def wordI (i : Int) : Word := BitVec.ofInt 64 i

/-- The low `n` bits of `v` taken signed (spec/00 R14: sext). -/
def sextN (n v : Nat) : Int :=
  let u := v % 2 ^ n
  if n ≠ 0 && u ≥ 2 ^ (n - 1) then (u : Int) - (2 ^ n : Nat) else (u : Int)

/-- A word taken signed. -/
def sgn (w : Word) : Int := w.toInt

/-- Bits [63:57] of an address hold something (spec/04 R104, spec/06 R150). -/
def highBits (w : Word) : Bool := w.extractLsb' 57 7 != 0#7

/-- Number of one bits among the low `n` bits of `v`. -/
def popcount : Nat → Nat → Nat
  | 0, _ => 0
  | n + 1, v => v % 2 + popcount n (v / 2)

/-- Number of trailing zero bits of `v` in `n` bits. -/
def ctzN : Nat → Nat → Nat
  | 0, _ => 0
  | n + 1, v => if v % 2 = 1 then 0 else 1 + ctzN n (v / 2)

/-- Number of leading zero bits of `v` in `n` bits. -/
def clzN : Nat → Nat → Nat
  | 0, _ => 0
  | n + 1, v => if v / 2 ^ n % 2 = 1 then 0 else 1 + clzN n v

/-- A list in ascending order of a number, equal ones as they stood. -/
def sortBy {α : Type} (f : α → Nat) (l : List α) : List α :=
  l.foldl (fun m x => m.takeWhile (fun y => decide (f y ≤ f x)) ++ x :: m.dropWhile (fun y => decide (f y ≤ f x))) []

/-- Insert in a rising list of naturals, once. -/
def insertNat : Nat → List Nat → List Nat
  | a, [] => [a]
  | a, b :: bs => if a < b then a :: b :: bs else if a = b then b :: bs else b :: insertNat a bs

/-- The entry of a rising association list, or `z`. -/
def assocGet {α : Type} (z : α) : List (Nat × α) → Nat → α
  | [], _ => z
  | (k, v) :: r, a => if k = a then v else if a < k then z else assocGet z r a

/-- Set an entry of a rising association list that keeps no entry equal to `z`. -/
def assocSet {α : Type} [DecidableEq α] (z : α) : List (Nat × α) → Nat → α → List (Nat × α)
  | [], a, v => if v = z then [] else [(a, v)]
  | (k, x) :: r, a, v =>
    if k = a then (if v = z then r else (a, v) :: r)
    else if a < k then (if v = z then (k, x) :: r else (a, v) :: (k, x) :: r)
    else (k, x) :: assocSet z r a v

/-- The keys rise strictly from above `lo` and no entry equals `z`. -/
def assocWf {α : Type} [DecidableEq α] (z : α) : Option Nat → List (Nat × α) → Bool
  | _, [] => true
  | lo, (k, v) :: r => (match lo with | none => true | some l => decide (l < k)) && decide (v ≠ z) && assocWf z (some k) r

/-- The first index from `i` on whose element satisfies `p`. -/
def findIdx {α : Type} (p : α → Bool) : List α → Nat → Option Nat
  | [], _ => none
  | x :: xs, i => if p x then some i else findIdx p xs (i + 1)

/-- The index of the element that `lt` puts first, among those with `p`. -/
def bestIdx {α : Type} (p : α → Bool) (lt : α → α → Bool) : List α → Nat → Option (Nat × α) → Option Nat
  | [], _, best => best.map (·.1)
  | x :: xs, i, best =>
    bestIdx p lt xs (i + 1)
      (if p x then match best with
        | none => some (i, x)
        | some (j, y) => if lt x y then some (i, x) else some (j, y)
      else best)

end Sys2Proof.Machine
end

