-- ==== Sys2Proof/Machine/Flags.lean ====
section
/-! DEFINITION. The formats of spec/03 (R67 to R74), exact values, rounding with its flags (R75 to R84), conversions (R82), block scales
(R87 to R89) and the arithmetic the vector, matrix, atomic and fabric instructions share. Every flag of WSTAT is computed here. -/

namespace Sys2Proof.Machine

/-! ### Flags of WSTAT (spec/02 Table 2.4) -/

/-- Invalid operation. -/
def NV : BitVec 8 := 0x01
/-- Overflow. -/
def OF : BitVec 8 := 0x02
/-- Underflow. -/
def UF : BitVec 8 := 0x04
/-- Inexact. -/
def NX : BitVec 8 := 0x08
/-- Division by zero. -/
def DZ : BitVec 8 := 0x10
/-- A non-finite result. -/
def NF : BitVec 8 := 0x20
/-- A legacy cross-lane index fell outside its half. -/
def LOVR : BitVec 8 := 0x40
/-- A result was saturated. -/
def SATF : BitVec 8 := 0x80

/-- A flag when `c` holds. -/
def flagIf (c : Bool) (f : BitVec 8) : BitVec 8 := if c then f else 0

/-- An element result: its bits and its flags. -/
structure FRes where
  val : Nat
  flags : BitVec 8
  deriving DecidableEq, Repr

/-! ### Exact values -/

/-- An exact value: a NaN (signalling or quiet), an infinity, or ± m × 2^e. -/
inductive FVal where
  | nan (signalling : Bool)
  | inf (neg : Bool)
  | fin (neg : Bool) (m : Nat) (e : Int)
  deriving DecidableEq, Repr

/-- The shape of a floating format: exponent bits, fraction bits, bias. -/
structure Shape where
  eb : Nat
  fb : Nat
  bias : Nat

/-- The shape of a format code, f64 to e5m2 (R68 to R70). -/
def shapeOf (fmt : Nat) : Shape :=
  match fmt with
  | 0 => ⟨11, 52, 1023⟩
  | 1 => ⟨8, 23, 127⟩
  | 2 => ⟨5, 10, 15⟩
  | 3 => ⟨8, 7, 127⟩
  | 4 => ⟨4, 3, 7⟩
  | _ => ⟨5, 2, 15⟩

/-- A floating format: f64 to l6. -/
def isFloat (fmt : Nat) : Bool := fmt ≤ 7
/-- The four formats of vector arithmetic (R79). -/
def isArith (fmt : Nat) : Bool := fmt ≤ 3
/-- A signed integer format. -/
def isSigned (fmt : Nat) : Bool := 8 ≤ fmt && fmt ≤ 11

/-- The largest finite magnitude of a format f64 to e5m2, as mantissa and exponent. -/
def maxFinite (fmt : Nat) : Nat × Int :=
  let f := shapeOf fmt
  if fmt = 4 then (14, 5)
  else (2 ^ (f.fb + 1) - 1, (2 ^ f.eb - 2 : Int) - f.bias - f.fb)

/-- The canonical NaN of a format; NaR for l8 and l6 (R75, Table 3.2). -/
def canonNan (fmt : Nat) : Nat :=
  match fmt with
  | 0 => 0x7FF8000000000000 | 1 => 0x7FC00000 | 2 => 0x7E00 | 3 => 0x7FC0 | 4 => 0x7F | 5 => 0x7E | 6 => 0x80 | 7 => 0x20
  | _ => 0

/-- The sign bit of a format. -/
def signBit (fmt : Nat) (neg : Bool) : Nat :=
  if neg then (match fmt with | 0 => 2 ^ 63 | 1 => 2 ^ 31 | 2 => 2 ^ 15 | 3 => 2 ^ 15 | 7 => 2 ^ 5 | _ => 2 ^ 7) else 0

/-- Infinity in a format that has one. -/
def infBits (fmt : Nat) (neg : Bool) : Nat :=
  let f := shapeOf fmt
  signBit fmt neg + (2 ^ f.eb - 1) * 2 ^ f.fb

/-- The largest finite magnitude as bits (l8 and l6: all ones). -/
def maxBits (fmt : Nat) (neg : Bool) : Nat :=
  signBit fmt neg + (match fmt with
    | 4 => 0x7E
    | 6 => 0x7F
    | 7 => 0x1F
    | _ => (2 ^ (shapeOf fmt).eb - 1) * 2 ^ (shapeOf fmt).fb - 1)

/-- Leading bits of the `n`-bit value `m` equal to `b` (R71). -/
def runLen : Nat → Nat → Nat → Nat
  | 0, _, _ => 0
  | n + 1, m, b => if m / 2 ^ n % 2 = b then 1 + runLen n m b else 0

/-- The value of an l8 (w = 7) or l6 (w = 5) pattern (R71). -/
def taperVal (w p : Nat) : FVal :=
  let m := p % 2 ^ w
  let s := bit p w
  if m = 0 then (if s then .nan false else .fin false 0 0)
  else
    let b0 := m / 2 ^ (w - 1) % 2
    let r := runLen w m b0
    let k : Int := if b0 = 1 then (r : Int) - 1 else -(r : Int)
    let rest := w - r - 1
    let e : Nat := if rest ≥ 1 then m / 2 ^ (rest - 1) % 2 else 0
    let nf := rest - 1
    .fin s (2 ^ nf + m % 2 ^ nf) (2 * k + e - nf)

/-- The exact value of a pattern of a floating format (R68 to R72). -/
def decodeF (fmt p : Nat) : FVal :=
  match fmt with
  | 6 => taperVal 7 p
  | 7 => taperVal 5 p
  | _ =>
    let f := shapeOf fmt
    let neg := bit p (f.eb + f.fb)
    let e := p / 2 ^ f.fb % 2 ^ f.eb
    let m := p % 2 ^ f.fb
    if fmt = 4 then
      if e = 15 && m = 7 then .nan false
      else if e = 0 then .fin neg m (-9) else .fin neg (8 + m) ((e : Int) - 10)
    else if e = 2 ^ f.eb - 1 then
      if m = 0 then .inf neg else .nan (fmt ≠ 5 && m / 2 ^ (f.fb - 1) % 2 = 0)
    else if e = 0 then .fin neg m (1 - f.bias - f.fb)
    else .fin neg (2 ^ f.fb + m) ((e : Int) - f.bias - f.fb)

/-- A subnormal pattern of f64, f32, f16 or bf16. -/
def isSubnormal (fmt p : Nat) : Bool :=
  isArith fmt && p / 2 ^ (shapeOf fmt).fb % 2 ^ (shapeOf fmt).eb == 0 && p % 2 ^ (shapeOf fmt).fb != 0

/-- An operand as FTZ leaves it: a subnormal reads as a zero of its sign (R78). -/
def fetchF (ftz : Bool) (fmt p : Nat) : FVal :=
  if ftz && isSubnormal fmt p then .fin (bit p ((shapeOf fmt).eb + (shapeOf fmt).fb)) 0 0 else decodeF fmt p

/-! ### Rounding (R76, R80, R81, R84) -/

/-- Whether rounding adds one to the magnitude: mode, sign, kept bits, the remainder compared with one half (−1, 0, 1) and inexactness. -/
def roundUp (mode : Nat) (neg : Bool) (k : Nat) (half : Ordering) (inexact : Bool) : Bool :=
  match mode with
  | 0 => half == .gt || (half == .eq && k % 2 == 1)
  | 1 => false
  | 2 => neg && inexact
  | 3 => !neg && inexact
  | _ => half != .lt

/-- m × 2^e, plus a positive excess below one unit of m when `sticky`, rounded to a multiple of 2^q: the multiple and whether it is inexact. -/
def roundAt (mode : Nat) (neg : Bool) (m : Nat) (e : Int) (sticky : Bool) (q : Int) : Nat × Bool :=
  if q ≤ e then (m * 2 ^ (e - q).toNat, sticky)
  else
    let sh := (q - e).toNat
    let k := m / 2 ^ sh
    let r := m % 2 ^ sh
    let inexact := r != 0 || sticky
    let half := if r > 2 ^ (sh - 1) then Ordering.gt else if r = 2 ^ (sh - 1) then (if sticky then .gt else .eq) else .lt
    (if roundUp mode neg k half inexact then k + 1 else k, inexact)

/-- a × 2^p < b × 2^q. -/
def ltScaled (a : Nat) (p : Int) (b : Nat) (q : Int) : Bool :=
  if p ≤ q then decide (a < b * 2 ^ (q - p).toNat) else decide (a * 2 ^ (p - q).toNat < b)

/-- The pattern of the multiple k of 2^q, where k is at most 2^(fb + 1). -/
def packF (fmt : Nat) (neg : Bool) (k : Nat) (q : Int) : Nat :=
  let f := shapeOf fmt
  signBit fmt neg +
    (if k < 2 ^ f.fb then k
     else if k < 2 ^ (f.fb + 1) then (q + f.fb + f.bias).toNat * 2 ^ f.fb + (k - 2 ^ f.fb)
     else (q + f.fb + 1 + f.bias).toNat * 2 ^ f.fb)

/-- What an overflow delivers (Table 3.3). -/
def overflowF (fmt mode : Nat) (sat neg : Bool) : FRes :=
  if sat then ⟨maxBits fmt neg, OF ||| NX ||| SATF⟩
  else if fmt = 4 then ⟨canonNan 4, OF ||| NX ||| NF⟩
  else
    let toInf := match mode with
      | 0 => true | 1 => false | 2 => neg | 3 => !neg | _ => true
    if toInf then ⟨infBits fmt neg, OF ||| NX ||| NF⟩ else ⟨maxBits fmt neg, OF ||| NX⟩

/-- An exact nonzero value rounded into a format f64 to e5m2: mode, saturation, flush (R76, R78, R80, R84). -/
def roundF (fmt mode : Nat) (sat ftz neg : Bool) (m : Nat) (e : Int) (sticky : Bool) : FRes :=
  let f := shapeOf fmt
  let emin : Int := 1 - f.bias
  let lg : Int := Nat.log2 m
  let free : Int := lg + e - f.fb
  let q : Int := max free (emin - f.fb)
  let (k, inexact) := roundAt mode neg m e sticky q
  let (mx, ex) := maxFinite fmt
  if ltScaled mx ex k q then overflowF fmt mode sat neg
  else
    let (ku, _) := roundAt mode neg m e sticky free
    let tiny := ltScaled ku free 1 emin
    if ftz && isArith fmt && k != 0 && ltScaled k q 1 emin then ⟨signBit fmt neg, UF ||| NX⟩
    else ⟨packF fmt neg k q, flagIf inexact NX ||| flagIf (inexact && tiny) UF⟩

/-- The magnitude string of a tapered format (R81): the bits of the run, its terminator, e and the fraction, as a number with its length, for
m × 2^e with m of `lg + 1` bits. -/
def taperString (m : Nat) (e : Int) : Nat × Nat :=
  let lg := Nat.log2 m
  let x : Int := lg + e
  let k : Int := x.fdiv 2
  let eb : Nat := (x - 2 * k).toNat
  let run : Nat × Nat := if 0 ≤ k then ((2 ^ (k.toNat + 1) - 1) * 2, k.toNat + 2) else (1, (-k).toNat + 1)
  ((run.1 * 2 + eb) * 2 ^ lg + (m - 2 ^ lg), run.2 + 1 + lg)

/-- An exact nonzero finite value converted into l8 (fmt 6) or l6 (fmt 7) by pattern rounding (R81). -/
def roundTaper (fmt : Nat) (neg : Bool) (m : Nat) (e : Int) (sticky : Bool) : FRes :=
  let w := if fmt = 6 then 7 else 5
  let big : Int := if fmt = 6 then 12 else 8
  let ovr := ltScaled 1 big m e || (sticky && !ltScaled m e 1 big)
  let und := ltScaled m e 1 (-big)
  let (str, len) := taperString m e
  let c : Nat :=
    if w ≤ len then
      let sh := len - w
      let cand := str / 2 ^ sh
      let r := str % 2 ^ sh
      if sh = 0 then cand
      else if r > 2 ^ (sh - 1) || (r = 2 ^ (sh - 1) && sticky) then cand + 1
      else if r = 2 ^ (sh - 1) then (if cand % 2 = 1 then cand + 1 else cand)
      else cand
    else str * 2 ^ (w - len)
  let c := if ovr || c ≥ 2 ^ w then 2 ^ w - 1 else if c = 0 then 1 else c
  let p := signBit fmt neg + c
  let same := match taperVal w c with
    | .fin _ m' e' => !ltScaled m' e' m e && !ltScaled m e m' e' && !sticky
    | _ => false
  ⟨p, flagIf (!same) NX ||| flagIf ovr (OF ||| SATF) ||| flagIf und (UF ||| SATF)⟩

/-- The range of an integer format. -/
def intRange (fmt : Nat) : Int × Int :=
  let n := sewOf fmt
  if isSigned fmt then (-(2 ^ (n - 1) : Nat), (2 ^ (n - 1) : Nat) - 1) else (0, (2 ^ n : Nat) - 1)
where
  /-- Width of an integer format. -/
  sewOf (fmt : Nat) : Nat := 8 * 2 ^ (fmt % 4)

/-- The width of a format's container (spec/02 R42). -/
def widthOf (fmt : Nat) : Nat :=
  match fmt with
  | 0 => 64 | 1 => 32 | 2 => 16 | 3 => 16 | 4 => 8 | 5 => 8 | 6 => 8 | 7 => 8
  | _ => 8 * 2 ^ (fmt % 4)

/-- An integer as the low bits of a format. -/
def wrapInt (fmt : Nat) (i : Int) : Nat := (i % (2 ^ widthOf fmt : Nat)).toNat

/-- An exact integer into an integer format, wrapped or clamped with SATF (R83). -/
def deliverInt (fmt : Nat) (sat : Bool) (i : Int) : FRes :=
  let (lo, hi) := intRange fmt
  if sat && i < lo then ⟨wrapInt fmt lo, SATF⟩
  else if sat && hi < i then ⟨wrapInt fmt hi, SATF⟩
  else ⟨wrapInt fmt i, 0⟩

/-- The integer an element of an integer format holds (R74). -/
def intVal (fmt p : Nat) : Int := if isSigned fmt then sextN (widthOf fmt) p else ((p % 2 ^ widthOf fmt : Nat) : Int)

/-- A value delivered into a floating format: NaNs canonical, infinities by Table 3.3 where the format has none (R75, R80), zeros with their sign. That an infinite
operand sets SATF alone in e4m3 with SAT, and NF alone without, is the model's choice (log entry 157). -/
def deliverF (fmt mode : Nat) (sat ftz : Bool) (v : FVal) (sticky : Bool) : FRes :=
  match v with
  | .nan sg => ⟨canonNan fmt, flagIf sg NV ||| NF⟩
  | .inf neg =>
    match fmt with
    | 4 => if sat then ⟨maxBits 4 neg, SATF⟩ else ⟨canonNan 4, NF⟩
    | 6 => ⟨maxBits 6 neg, SATF⟩
    | 7 => ⟨maxBits 7 neg, SATF⟩
    | _ => ⟨infBits fmt neg, NF⟩
  | .fin neg m e =>
    if m = 0 && !sticky then (if fmt = 6 || fmt = 7 then ⟨0, 0⟩ else ⟨signBit fmt neg, 0⟩)
    else if fmt = 6 || fmt = 7 then roundTaper fmt neg m e sticky
    else roundF fmt mode sat ftz neg m e sticky

/-! ### Exact arithmetic -/

/-- Signed numerator of a finite value over a smaller exponent. -/
def finInt (neg : Bool) (m : Nat) (e q : Int) : Int :=
  let k : Int := m * 2 ^ (e - q).toNat
  if neg then -k else k

/-- The value of an integer times 2^q; a zero takes the given sign. -/
def ofScaled (i : Int) (q : Int) (zeroNeg : Bool) : FVal :=
  if i = 0 then .fin zeroNeg 0 0 else .fin (decide (i < 0)) i.natAbs q

/-- Exact sum; the sign of an exact zero from the mode, or of two equal zeros theirs. -/
def addV (mode : Nat) (x y : FVal) : FVal × BitVec 8 :=
  match x, y with
  | .nan a, .nan b => (.nan false, flagIf (a || b) NV)
  | .nan a, _ => (.nan false, flagIf a NV)
  | _, .nan b => (.nan false, flagIf b NV)
  | .inf a, .inf b => if a = b then (.inf a, 0) else (.nan false, NV)
  | .inf a, _ => (.inf a, 0)
  | _, .inf b => (.inf b, 0)
  | .fin a m e, .fin b n f =>
    let q := min e f
    let zneg := if m = 0 && n = 0 && a == b then a else mode == 2
    (ofScaled (finInt a m e q + finInt b n f q) q zneg, 0)

/-- The negative of a value. -/
def negV : FVal → FVal
  | .nan a => .nan a
  | .inf a => .inf (!a)
  | .fin a m e => .fin (!a) m e

/-- Exact product. -/
def mulV (x y : FVal) : FVal × BitVec 8 :=
  match x, y with
  | .nan a, .nan b => (.nan false, flagIf (a || b) NV)
  | .nan a, _ => (.nan false, flagIf a NV)
  | _, .nan b => (.nan false, flagIf b NV)
  | .inf a, .inf b => (.inf (a != b), 0)
  | .inf a, .fin b n _ => if n = 0 then (.nan false, NV) else (.inf (a != b), 0)
  | .fin a m _, .inf b => if m = 0 then (.nan false, NV) else (.inf (a != b), 0)
  | .fin a m e, .fin b n f => (.fin (a != b) (m * n) (e + f), 0)

/-- Quotient with enough bits for any format: value, sticky, flags. -/
def divV (x y : FVal) : FVal × Bool × BitVec 8 :=
  match x, y with
  | .nan a, .nan b => (.nan false, false, flagIf (a || b) NV)
  | .nan a, _ => (.nan false, false, flagIf a NV)
  | _, .nan b => (.nan false, false, flagIf b NV)
  | .inf _, .inf _ => (.nan false, false, NV)
  | .inf a, .fin b _ _ => (.inf (a != b), false, 0)
  | .fin a _ _, .inf b => (.fin (a != b) 0 0, false, 0)
  | .fin a m e, .fin b n f =>
    if n = 0 then (if m = 0 then (.nan false, false, NV) else (.inf (a != b), false, DZ))
    else if m = 0 then (.fin (a != b) 0 0, false, 0)
    else
      let k := 70 + Nat.log2 n
      (.fin (a != b) (m * 2 ^ k / n) (e - f - k), m * 2 ^ k % n != 0, 0)

/-- Integer square root of `n` by bits, from bit `b` of the root down. -/
def isqrt (n : Nat) : Nat → Nat → Nat
  | 0, r => r
  | b + 1, r => let t := r + 2 ^ b; if t * t ≤ n then isqrt n b t else isqrt n b r

/-- The square root of m × 2^e (m > 0) with `extra` bits: value and sticky. -/
def sqrtV (m : Nat) (e : Int) : FVal × Bool :=
  let k := 140 + (e % 2).toNat
  let n := m * 2 ^ k
  let r := isqrt n (Nat.log2 n / 2 + 1) 0
  (.fin false r ((e - k).fdiv 2), r * r != n)

/-! ### Conversions (R82) -/

/-- A floating value into an integer format (Table 3.5). -/
def floatToInt (fmt mode : Nat) (sat : Bool) (v : FVal) : FRes :=
  let (lo, hi) := intRange fmt
  match v with
  | .nan _ => ⟨0, NV⟩
  | .inf neg => if sat then ⟨wrapInt fmt (if neg then lo else hi), NV ||| SATF⟩ else ⟨0, NV⟩
  | .fin neg m e =>
    let (k, inexact) := roundAt mode neg m e false 0
    let i : Int := if neg then -(k : Int) else k
    if lo ≤ i ∧ i ≤ hi then ⟨wrapInt fmt i, flagIf inexact NX⟩
    else if sat then ⟨wrapInt fmt (if i < lo then lo else hi), NV ||| SATF⟩
    else ⟨wrapInt fmt i, NV⟩

/-- A conversion between any two formats, on patterns (R82): rounding mode, SAT and FTZ. -/
def convert (src dst mode : Nat) (sat ftz : Bool) (p : Nat) : FRes :=
  if isFloat src then
    let v := fetchF ftz src p
    if isFloat dst then deliverF dst mode sat ftz v false else floatToInt dst mode sat v
  else
    let i := intVal src p
    if isFloat dst then deliverF dst mode sat ftz (.fin (decide (i < 0)) i.natAbs 0) false
    else deliverInt dst sat i

/-! ### Block scales (R87 to R89) -/

/-- The value of a q8 scale byte: none for NaN, zero for a zero scale (R87). -/
def scaleVal (b : Nat) : Option (Nat × Int) :=
  let e := b / 8 % 32
  if e = 0 then some (0, 0) else if e = 31 then none else some (8 + b % 8, (e : Int) - 18)

/-- Quantize: the exact quotient x ÷ s rounded once into a narrow format (R89); `sat` is the instruction's bit. -/
def quantize (dst mode : Nat) (sat ftz : Bool) (src p : Nat) (scale : Nat) : FRes :=
  match scaleVal scale with
  | none => ⟨canonNan dst, NV ||| NF⟩
  | some (0, _) => ⟨0, 0⟩
  | some (sm, se) =>
    let v := if isFloat src then fetchF ftz src p else .fin (decide (intVal src p < 0)) (intVal src p).natAbs 0
    match v with
    | .fin _ _ _ =>
      let (q, sticky, _) := divV v (.fin false sm se)
      deliverF dst mode sat ftz q sticky
    | _ => deliverF dst mode sat ftz v false

/-- Dequantize: decode(q) × s as f32, exact (R89). -/
def dequantize (src p : Nat) (scale : Nat) (ftz : Bool) : FRes :=
  match scaleVal scale with
  | none => ⟨canonNan 1, NV ||| NF⟩
  | some (0, _) => ⟨0, 0⟩
  | some (sm, se) =>
    let (v, _) := mulV (decodeF src p) (.fin false sm se)
    deliverF 1 0 false ftz v false

/-! ### Arithmetic of vector elements -/

/-- Addition of two patterns of a floating format, rounded once. -/
def faddP (fmt mode : Nat) (ftz : Bool) (a b : FVal) : FRes :=
  let (v, fl) := addV mode a b
  let r := deliverF fmt mode false ftz v false
  ⟨r.val, r.flags ||| fl⟩

/-- The sum of two patterns to nearest even, subnormals kept and no flag (R76): AMO FADD, RRED add, matrix accumulation. -/
def addRne (fmt a b : Nat) : Nat := (faddP fmt 0 false (decodeF fmt a) (decodeF fmt b)).val

/-- Multiplication, rounded once. -/
def fmulP (fmt mode : Nat) (ftz : Bool) (a b : FVal) : FRes :=
  let (v, fl) := mulV a b
  let r := deliverF fmt mode false ftz v false
  ⟨r.val, r.flags ||| fl⟩

/-- Division, rounded once. -/
def fdivP (fmt mode : Nat) (ftz : Bool) (a b : FVal) : FRes :=
  let (v, st, fl) := divV a b
  let r := deliverF fmt mode false ftz v st
  ⟨r.val, r.flags ||| fl⟩

/-- Fused multiply-add, rounded once (R77). -/
def ffmaP (fmt mode : Nat) (ftz : Bool) (a b c : FVal) : FRes :=
  let (p, f1) := mulV a b
  let (v, f2) := addV mode p c
  let sg := match c with | .nan s => s | _ => false
  let r := deliverF fmt mode false ftz v false
  ⟨r.val, r.flags ||| f1 ||| f2 ||| flagIf sg NV⟩

/-- Square root, rounded once; below zero it is invalid (R84). -/
def fsqrtP (fmt mode : Nat) (ftz : Bool) (a : FVal) : FRes :=
  match a with
  | .nan sg => ⟨canonNan fmt, flagIf sg NV ||| NF⟩
  | .inf neg => if neg then ⟨canonNan fmt, NV ||| NF⟩ else ⟨infBits fmt false, NF⟩
  | .fin neg m e =>
    if m = 0 then ⟨signBit fmt neg, 0⟩
    else if neg then ⟨canonNan fmt, NV ||| NF⟩
    else
      let (v, st) := sqrtV m e
      deliverF fmt mode false ftz v st

/-- A comparison of two finite or infinite values: −1, 0 or 1 as an ordering. -/
def cmpV (a b : FVal) : Ordering :=
  match a, b with
  | .inf x, .inf y => if x = y then .eq else if x then .lt else .gt
  | .inf x, _ => if x then .lt else .gt
  | _, .inf y => if y then .gt else .lt
  | .fin x m e, .fin y n f =>
    let q := min e f
    let i := finInt x m e q
    let j := finInt y n f q
    if i < j then .lt else if i = j then .eq else .gt
  | _, _ => .eq

/-- A NaN. -/
def FVal.isNan : FVal → Bool
  | .nan _ => true
  | _ => false

/-- A signalling NaN. -/
def FVal.isSnan : FVal → Bool
  | .nan s => s
  | _ => false

/-- The sign of a value. -/
def FVal.neg : FVal → Bool
  | .nan _ => false
  | .inf a => a
  | .fin a _ _ => a

/-- Less in the order in which +0 exceeds −0 (R91). -/
def lessZ (a b : FVal) : Bool :=
  match cmpV a b with
  | .lt => true
  | .gt => false
  | .eq => a.neg && !b.neg

/-! ### Estimates (R77): the two neighbours of the exact value, one of which the machine returns -/

/-- The exact value between its two neighbours in a format: exact when representable, else the lower or the upper candidate by magnitude.
Where the estimate overflows the result is an infinity, whatever RND holds (log entry 131, DEDUCED). -/
def nearV (fmt : Nat) (ftz up : Bool) (v : FVal) (sticky : Bool) : FRes :=
  match v with
  | .fin neg _ _ =>
    -- rounding the magnitude down or up
    let mode := if up then (if neg then 2 else 3) else 1
    let r := deliverF fmt mode false ftz v sticky
    if r.flags &&& OF != 0 then ⟨infBits fmt neg, OF ||| NX ||| NF⟩ else r
  | _ => deliverF fmt 0 false ftz v sticky

/-- ln 2 × 2^320. -/
def ln2Scaled : Nat :=
  1480553391661173448385607439722553250922680800745876974795605978609098082859138712941075737848984

/-- The series of e^x for x = y ÷ 2^320, x in [0, 1): sum of `n` further terms after `t` with index `i`. -/
def expSeries (y : Nat) : Nat → Nat → Nat → Nat → Nat
  | 0, _, _, acc => acc
  | n + 1, i, t, acc => let t' := t * y / 2 ^ 320 / i; expSeries y n (i + 1) t' (acc + t')

/-- 2^x for x = ± m × 2^e, nonzero: value and sticky. -/
def exp2V (neg : Bool) (m : Nat) (e : Int) : FVal × Bool :=
  -- far below one in magnitude the result lies next to 1; far above it lies beyond every format
  if ltScaled m e 1 (-200) then (if neg then .fin false (2 ^ 200 - 1) (-200) else .fin false (2 ^ 200) (-200), true)
  else if ltScaled 1 13 m e then (.fin false 1 (if neg then -(2 ^ 13) else 2 ^ 13), true)
  else
    let scaled : Int := if 0 ≤ e + 320 then (m * 2 ^ (e + 320).toNat : Nat) else (m / 2 ^ (-(e + 320)).toNat : Nat)
    let x : Int := if neg then -scaled else scaled
    let i := x.fdiv (2 ^ 320 : Nat)
    let f := (x - i * (2 ^ 320 : Nat)).toNat
    if f = 0 then (.fin false 1 i, false)
    else
      let y := f * ln2Scaled / 2 ^ 320
      (.fin false (expSeries y 90 1 (2 ^ 320) (2 ^ 320)) (i - 320), true)

/-- Bits of log2 of y ÷ 2^400 for y in [1, 2): `n` further bits of the fraction. -/
def logBits : Nat → Nat → Nat → Nat
  | 0, _, acc => acc
  | n + 1, y, acc =>
    let z := y * y / 2 ^ 400
    if z ≥ 2 ^ 401 then logBits n (z / 2) (2 * acc + 1) else logBits n z (2 * acc)

/-- log2 of m × 2^e, m > 0: value and sticky. -/
def log2V (m : Nat) (e : Int) : FVal × Bool :=
  let lg := Nat.log2 m
  let n : Int := lg + e
  if m = 2 ^ lg then (.fin (decide (n < 0)) n.natAbs 0, false)
  else
    let y := m * 2 ^ 400 / 2 ^ lg
    let frac := logBits 180 y 0
    let v : Int := n * (2 ^ 180 : Nat) + frac
    -- below zero the magnitude lies just under the next unit
    if v < 0 then (.fin true (v.natAbs - 1) (-180), true) else (.fin false v.natAbs (-180), true)

/-- The number an estimate's choice depends on (R77): function 0 VRCP, 1 VRSQ, 2 VEXP2, 3 VLOG2. -/
def estimate (fn fmt : Nat) (ftz : Bool) (p : Nat) (v : FVal) (sticky : Bool) : FRes :=
  nearV fmt ftz (Config.estimateUp fn fmt ftz p) v sticky

end Sys2Proof.Machine
end

