-- ==== Sys2Proof/Machine/Mem.lean ====
section
/-! DEFINITION. Memory: bytes and poison by key, the physical spaces (spec/16 R305 to R309), the page walk (R311 to R316) and
the windows (spec/06 R149, R150). One list holds every byte of the machine that is not zero. -/

namespace Sys2Proof.Machine

/-- A byte of memory; an unlisted byte reads 0 (log entry 1). -/
def memRead (m : List Host.Cell) (a : Nat) : Byte := assocGet 0#8 m a

/-- Memory with one byte written; a zero byte leaves the list, so equal memories are equal lists. -/
def memWrite (m : List Host.Cell) (a : Nat) (b : Byte) : List Host.Cell := assocSet 0#8 m a b

/-- The canonical form: addresses strictly rising, no zero byte listed. -/
def Memory.wf (m : List Host.Cell) : Bool := assocWf 0#8 none m

/-- Bytes written from `a` up. -/
def memWriteBytes : List Host.Cell → Nat → List Byte → List Host.Cell
  | m, _, [] => m
  | m, a, b :: bs => memWriteBytes (memWrite m a b) (a + 1) bs

/-- `n` bytes read from `a` up. -/
def memReadBytes (m : List Host.Cell) : Nat → Nat → List Byte
  | _, 0 => []
  | a, n + 1 => memRead m a :: memReadBytes m (a + 1) n

/-- The spaces of memory keys. -/
inductive Space where
  /-- A cluster's three HBM channels (R306). -/
  | hbm
  /-- A cluster's vault (R309). -/
  | vault
  /-- Host memory. -/
  | host
  /-- A core's scratchpad (R228). -/
  | scratch
  /-- A wave's trap frames (spec/07 R184). -/
  | frame
  /-- The image of an operand slot (spec/10 R215). -/
  | slot
  /-- The saved scratchpad and slots of a block (spec/14 R296). -/
  | image
  deriving DecidableEq, Repr

/-- The number of a space. -/
def Space.num : Space → Nat
  | .hbm => 0 | .vault => 1 | .host => 2 | .scratch => 3 | .frame => 4 | .slot => 5 | .image => 6

/-- The key of byte `off` of unit `id` of a space. -/
def memKey (sp : Space) (id off : Nat) : Nat := (sp.num * 2 ^ 64 + id) * 2 ^ 64 + off

/-- Whether any granule of `n` bytes from key `a` is poisoned (R332). -/
def State.poisoned (s : State) (a n : Nat) : Bool :=
  (List.range ((a + n - 1) / 8 + 1 - a / 8)).any (fun i => s.pois.contains (a / 8 + i))

/-- The value of `n` little-endian bytes from key `a` (spec/00 R9). -/
def State.readN (s : State) (a n : Nat) : Nat := leValue (memReadBytes s.mem a n)

/-- Bytes written from key `a`: a granule written whole loses its poison, one written in part keeps it (R333). -/
def State.writeBytes (s : State) (a : Nat) (bs : List Byte) : State :=
  { s with
    mem := memWriteBytes s.mem a bs
    pois := s.pois.filter (fun g => !(decide (a ≤ 8 * g) && decide (8 * g + 8 ≤ a + bs.length))) }

/-- A value of `n` bytes written little-endian from key `a`. -/
def State.writeN (s : State) (a n v : Nat) : State := s.writeBytes a (leBytes n v)

/-- Granules all of whose bytes one instruction wrote, in accesses given by key and size, lose their poison (R333). -/
def State.heal (s : State) (l : List (Nat × Nat)) : State :=
  { s with pois := s.pois.filter (fun g =>
      !((List.range 8).all (fun o => l.any (fun x => decide (x.1 ≤ 8 * g + o) && decide (8 * g + o < x.1 + x.2))))) }

/-- Every byte of `n` from key `a` becomes zero and unpoisoned (spec/11 R235, spec/16 R324). -/
def State.clearBytes (s : State) (a n : Nat) : State :=
  { s with
    mem := s.mem.filter (fun c => !(decide (a ≤ c.1) && decide (c.1 < a + n)))
    pois := s.pois.filter (fun g => !(decide (a ≤ 8 * g) && decide (8 * g < a + n))) }

/-- The `n` bytes from key `a` moved to key `b`, with their poison; what stood there goes, and zeros stay behind. -/
def State.moveBytes (s : State) (a b n : Nat) : State :=
  let cells := s.mem.filter (fun c => decide (a ≤ c.1) && decide (c.1 < a + n))
  let bad := s.pois.filter (fun g => decide (a ≤ 8 * g) && decide (8 * g < a + n))
  let s := (s.clearBytes a n).clearBytes b n
  { s with
    mem := cells.foldl (fun m c => memWrite m (b + (c.1 - a)) c.2) s.mem
    pois := bad.foldl (fun l g => insertNat ((b + (8 * g - a)) / 8) l) s.pois }

/-- The granule of key `a` becomes poisoned (R332). -/
def State.poison (s : State) (a : Nat) : State := { s with pois := insertNat (a / 8) s.pois }

/-! ### Partitions and physical space -/

/-- The partition with a number, if formed. -/
def State.part? (s : State) (p : Nat) : Option Part := s.parts.find? (fun q => q.id == p)

/-- The partition of a number, or none formed: an empty one. -/
def State.partD (s : State) (p : Nat) : Part :=
  (s.part? p).getD ⟨p, [], 64, 0, 0, 0, [], false, none, 0, 0, [], [], []⟩

/-- 6 GiB, the HBM of a cluster (R306). -/
def hbmPer : Nat := 6 * 2 ^ 30

/-- The size of a partition's physical space (R307). -/
def State.hbmSize (s : State) (p : Nat) : Nat := hbmPer * (s.partD p).clusters.length

/-- Where byte `pa` lies among the clusters of one die, given in ascending order: 256-byte units over 3m channels. -/
def inPortion (cs : List Nat) (pa : Nat) : Nat :=
  let u := pa / 256
  let ch := u % (3 * cs.length)
  memKey .hbm (cs.getD (ch / 3) 0) (ch % 3 * 2 ^ 31 + u / (3 * cs.length) * 256 + pa % 256)

/-- The key of byte `pa` of a partition's space: the portions of the dies in ascending order (R307). -/
def hbmKey (clusters : List Nat) (pa : Nat) : Nat :=
  let d (n : Nat) := clusters.filter (fun c => c / 32 == n)
  let z (n : Nat) := hbmPer * (d n).length
  if pa < z 0 then inPortion (d 0) pa
  else if pa < z 0 + z 1 then inPortion (d 1) (pa - z 0)
  else if pa < z 0 + z 1 + z 2 then inPortion (d 2) (pa - z 0 - z 1)
  else inPortion (d 3) (pa - z 0 - z 1 - z 2)

/-- The key of a byte of a partition's physical space. -/
def State.hbmKey (s : State) (p pa : Nat) : Nat := Machine.hbmKey (s.partD p).clusters pa

/-- The key of byte `off` of a partition's vault space (R309). -/
def State.vaultKey (s : State) (p off : Nat) : Nat :=
  memKey .vault ((s.partD p).clusters.getD (off / 2 ^ 23) 0) (off % 2 ^ 23)

/-- The key of a byte of host memory in the space of a partition's PASID, whose pages the host has mapped (R314, R323; log entry 8). -/
def hostKey (part pasid pa : Nat) : Nat :=
  memKey .host 0 (Config.hostPage (part * 2 ^ 21 + pasid) (pa / 4096) % 2 ^ 52 * 4096 + pa % 4096)

/-! ### Translation -/

/-- What an access does, for the translation rules of R316. -/
inductive AccKind where
  | read | write | fetch
  deriving DecidableEq, Repr

/-- The page size of a leaf (R313). -/
def leafSize (e : Nat) : Nat :=
  match bits e 6 5 with
  | 0 => 2 ^ 12 | 1 => 2 ^ 16 | 2 => 2 ^ 21 | _ => 2 ^ 30

/-- A valid entry that R314 calls malformed, read at level `lvl` by a walk of a partition with `size` bytes of HBM on the
device numbered `devid`. -/
def malformed (e lvl size devid : Nat) : Bool :=
  let leaf := bit e 4
  let tgt := bits e 8 7
  let rdev := bits e 60 52
  let pa := bits e 51 12 * 4096
  bits e 63 61 != 0 || bits e 11 9 != 0 || tgt == 3
  || (bit e 1 && bit e 2) || (bit e 3 && bit e 2)
  || (lvl == 3 && leaf) || (lvl == 0 && !leaf)
  || (!leaf && (decide (pa + 4096 > size) || bits e 3 1 != 0 || bits e 6 5 != 0 || tgt != 0 || rdev != 0))
  || (leaf && !(match lvl with
      | 0 => bits e 6 5 ≤ 1
      | 1 => bits e 6 5 == 2
      | 2 => bits e 6 5 == 3
      | _ => false))
  || (leaf && pa % leafSize e != 0)
  || (leaf && tgt == 0 && decide (pa + leafSize e > size))
  || (leaf && tgt == 1 && rdev == devid && decide (pa + leafSize e > size))
  || (rdev != 0 && tgt != 1)

/-- The index of an address in the table of a level (R312). -/
def tableIndex (va lvl : Nat) : Nat := if lvl = 3 then bits va 55 39 else bits va (12 + 9 * lvl + 8) (12 + 9 * lvl)

/-- The walk of R312 from table `t` at level `lvl`: the leaf entry, or none for a fault of subcode 1. -/
def State.walkFrom (s : State) (part va : Nat) : Nat → Nat → Option Nat
  | lvl, t =>
    let k := s.hbmKey part (t + 8 * tableIndex va lvl)
    let e := s.readN k 8
    if s.poisoned k 8 || !bit e 0 || malformed e lvl (s.hbmSize part) s.fabric.devid then none
    else if bit e 4 then some e
    else match lvl with
      | 0 => none
      | l + 1 => s.walkFrom part va l (bits e 51 12 * 4096)

/-- The walk of an address in a context (R311, R312): a root whose 1 MiB top table leaves the partition's space faults. -/
def State.walk (s : State) (c : Ctx) (va : Nat) : Option Nat :=
  if c.root + 2 ^ 20 > s.hbmSize c.part then none else s.walkFrom c.part va 3 c.root

/-- The place a leaf gives an address (R313, R314). -/
def State.leafPlace (s : State) (c : Ctx) (va e : Nat) : Place :=
  let pa := bits e 51 12 * 4096 + va % leafSize e
  match bits e 8 7 with
  | 0 => .here (s.hbmKey c.part pa) (bit e 3)
  | 1 => if bits e 60 52 = s.fabric.devid then .here (s.hbmKey c.part pa) (bit e 3) else .away (bits e 60 52) pa (bit e 3)
  | _ => .here (hostKey c.part c.pasid pa) (bit e 3)

/-- A leaf stays within the partition's HBM, where it names it (R314, R323): a cached one may be older than the partition's present size. -/
def State.leafFits (s : State) (c : Ctx) (e : Nat) : Bool :=
  if bits e 8 7 = 0 ∨ (bits e 8 7 = 1 ∧ bits e 60 52 = s.fabric.devid) then decide (bits e 51 12 * 4096 + leafSize e ≤ s.hbmSize c.part) else true

/-- The entry of a TLB for an address of a PASID. -/
def tlbFind (l : List TlbEntry) (pasid va : Nat) : Option TlbEntry :=
  l.find? (fun t => t.pasid == pasid && decide (t.base ≤ va) && decide (va < t.base + t.size))

/-- The entry for an address in the TLB of a core. -/
def State.coreCached (s : State) (core pasid va : Nat) : Option TlbEntry :=
  match s.cores[core]? with
  | none => none
  | some c => tlbFind c.tlb pasid va

/-- The entry for an address in the TLB of a core's cluster. -/
def State.clusterCached (s : State) (core pasid va : Nat) : Option TlbEntry :=
  match s.clusters[core / 4]? with
  | none => none
  | some cl => tlbFind cl.tlb pasid va

/-- The cached entry a core uses for an address, if one is there: its own TLB's or its cluster's (R319). -/
def State.cached (s : State) (core pasid va : Nat) : Option TlbEntry :=
  match s.coreCached core pasid va, s.clusterCached core pasid va with
  | some t, some u => if Config.coreTlbFirst s.tick then some t else some u
  | some t, none => some t
  | none, o => o

/-- The leaf an access of a core uses: the cached one, while it stays within the partition, or a new walk, as the machine likes (R319, R323). -/
def State.leaf (s : State) (c : Ctx) (core va : Nat) : Option Nat :=
  match s.cached core c.pasid va with
  | none => s.walk c va
  | some t =>
    if Config.tlbUse s.tick then (if s.leafFits c t.entry.toNat then some t.entry.toNat else none) else s.walk c va

/-- Translation in a context for a core, with the subcodes of R316. -/
def State.translate (s : State) (c : Ctx) (core : Nat) (va : Nat) (kind : AccKind) : Acc :=
  match s.leaf c core va with
  | none => .trap 8 1
  | some e =>
    match kind with
    | .read => .ok (s.leafPlace c va e)
    | .write => if bit e 1 then .ok (s.leafPlace c va e) else .trap 8 2
    | .fetch => if bit e 2 then .ok (s.leafPlace c va e) else .trap 8 3

/-- The cluster remembers a valid leaf it walked, up to 2,048 entries, and the core up to 64 (R319). -/
def State.fillTlb (s : State) (c : Ctx) (core va : Nat) : State :=
  let fresh (e : Nat) : TlbEntry := ⟨c.pasid, va / leafSize e * leafSize e, leafSize e, word e⟩
  match s.walk c va with
  | none => s
  | some e =>
    { s with
      clusters := if (s.clusterCached core c.pasid va).isSome then s.clusters
        else updAt s.clusters (core / 4) (fun cl => { cl with tlb := (fresh e :: cl.tlb).take 2048 })
      cores := if (s.coreCached core c.pasid va).isSome then s.cores
        else updAt s.cores core (fun k => { k with tlb := (fresh e :: k.tlb).take 64 }) }

end Sys2Proof.Machine
end

