-- ==== Sys2Proof/Machine/Waves.lean ====
section
/-! DEFINITION. Reading and writing the state of waves, blocks, cores and queues; the loop step (spec/04 R107), the division and
merging of splits (spec/02 R51 to R54). -/

namespace Sys2Proof.Machine

/-! ### Records by number -/

/-- A block that no list holds: every field empty. -/
def Block.blank : Block where
  job := none
  queue := 0
  ctx := 0
  obj := 0
  kernel := 0
  core := 0
  bin := false
  ident := 0
  pidx := Vector.replicate 4 0
  point := 0
  argp := 0
  gang := 0
  member := 0
  waves := []
  scratchBase := 0
  scratch := 0
  sets := []
  grant := .none
  live := 0
  dmg := 0
  latch := false
  classchg := 0
  cov := 0
  check := false
  backfill := false
  phase := .discarded
  next := none
  pinM := false
  chunk := 0
  wrote := []
  saved := none

/-- A context that no list holds. -/
def Ctx.blank : Ctx where
  opened := false
  fn := 0
  root := 0
  pasid := 0
  part := 0
  soft := 200
  st := .reset
  since := 0
  resume := none
  replay := []
  lease := none
  asks := []
  reason := 0
  energy := 0
  equota := 0
  shares := []
  tearing := false
  bins := []
  points := []

/-- A queue that no list holds. -/
def Queue.blank : Queue where
  num := 0
  ctx := 0
  ring := 0
  slots := 6
  prio := 0
  bint := 2000
  prog := 0xFFFF
  tladdr := 0
  handler := 0
  pwin := 0
  pwinsz := 4096
  age := 100
  svc := 0
  mode := .closed
  fault := none
  bell := 0
  nextSeq := 0
  retries := 0
  retrySince := 0
  retired := 0
  tl := 0
  head := none
  emitted := []
  flight := []
  memFault := none
  asks := []
  mirror := []
  services := 0
  outstanding := []
  covKey := none
  covRung := 0
  covFull := false
  covRun := 0
  line := []
  headSince := 0
  reserved := none
  aged := false
  debugEntry := none
  pin := none
  deleted := true

/-- The vector file that no list holds. -/
def VFile.blank : VFile := ⟨Vector.replicate 32 0, Vector.replicate 5 0, Vector.replicate 5 0, 0⟩

/-- A block by number. -/
def State.block (s : State) (i : Nat) : Block := s.blocks.getD i .blank
/-- A context by number. -/
def State.ctx (s : State) (i : Nat) : Ctx := s.ctxs.getD i .blank
/-- A queue record by its place in the list. -/
def State.queue (s : State) (i : Nat) : Queue := s.queues.getD i .blank
/-- A core by number: 128 per die, 4 per cluster. -/
def State.core (s : State) (i : Nat) : CoreSt := s.cores.getD i (CoreSt.reset i)
/-- A gang by number. -/
def State.gang (s : State) (i : Nat) : Gang := s.gangs.getD i ⟨[], 1, 0, [], true⟩
/-- A cluster by number. -/
def State.cluster (s : State) (i : Nat) : ClusterSt := s.clusters.getD i .reset
/-- A vector file by number. -/
def State.vfile (s : State) (i : Nat) : VFile := s.vfiles.getD i .blank

/-- The state with one wave changed. -/
def State.updWave (s : State) (i : Nat) (f : Wave → Wave) : State := { s with waves := updAt s.waves i f }
/-- The state with one block changed. -/
def State.updBlock (s : State) (i : Nat) (f : Block → Block) : State := { s with blocks := updAt s.blocks i f }
/-- The state with one core changed. -/
def State.updCore (s : State) (i : Nat) (f : CoreSt → CoreSt) : State := { s with cores := updAt s.cores i f }
/-- The state with one cluster changed. -/
def State.updCluster (s : State) (i : Nat) (f : ClusterSt → ClusterSt) : State :=
  { s with clusters := updAt s.clusters i f }
/-- The state with one context changed. -/
def State.updCtx (s : State) (i : Nat) (f : Ctx → Ctx) : State := { s with ctxs := updAt s.ctxs i f }
/-- The state with one queue changed. -/
def State.updQueue (s : State) (i : Nat) (f : Queue → Queue) : State := { s with queues := updAt s.queues i f }
/-- The state with one job changed. -/
def State.updJob (s : State) (i : Nat) (f : Job → Job) : State := { s with jobs := updAt s.jobs i f }
/-- The state with one copy changed. -/
def State.updCopy (s : State) (i : Nat) (f : Copy → Copy) : State := { s with copies := updAt s.copies i f }
/-- The state with one gang changed. -/
def State.updGang (s : State) (i : Nat) (f : Gang → Gang) : State := { s with gangs := updAt s.gangs i f }
/-- The state with one vector file changed. -/
def State.updVFile (s : State) (i : Nat) (f : VFile → VFile) : State := { s with vfiles := updAt s.vfiles i f }
/-- The state with one partition changed. -/
def State.updPart (s : State) (p : Nat) (f : Part → Part) : State :=
  { s with parts := s.parts.map (fun q => if q.id = p then f q else q) }

/-- Something changed: what waited looks again. -/
def State.bump (s : State) : State := { s with now := s.now + 1 }

/-- The state after an event's effect. -/
def ok (s : State) : Out State := .next s.bump

/-- An event that is not enabled in this state changes nothing (log entry 2). -/
def idle (s : State) : Out State := .next s

/-! ### Registers (spec/02 R40, R56) -/

/-- Legacy: the wave is one half of a native wave (R66). -/
def Wave.legacy (w : Wave) : Bool := w.wmode.getLsbD 19

/-- The lanes of the wave or half: 64, or 32 in legacy mode. -/
def Wave.lanes (w : Wave) : Nat := if w.legacy then 32 else 64

/-- The first lane of the wave or half in its vector file. -/
def Wave.laneBase (w : Wave) : Nat := if w.legacy then 32 * w.half else 0

/-- The lane mask of the whole wave or half. -/
def Wave.allLanes (w : Wave) : Word :=
  if w.legacy then (if w.half = 0 then 0x00000000FFFFFFFF#64 else 0xFFFFFFFF00000000#64) else BitVec.allOnes 64

/-- Scalar register `n`: s0 reads zero (R40). -/
def Wave.rd (w : Wave) (n : Reg) : Word := if n = 0 then 0 else w.s[n.toNat]'(n.isLt)

/-- While an access has not passed its fault point an old value goes to the history buffer (R63). -/
def Wave.note (w : Wave) (h : Hist) : Wave := if w.ahead then { w with hist := h :: w.hist } else w

/-- Scalar register `n` written: s0 discards, the poison bit clears (R40, spec/07 R192); while an access has not passed its fault point the
old value goes to the history buffer (R63). -/
def Wave.wr (w : Wave) (n : Reg) (v : Word) : Wave :=
  if n = 0 then w
  else { w with
    s := w.s.set n.toNat v n.isLt
    sPois := w.sPois &&& ~~~(BitVec.ofNat 32 (2 ^ n.toNat))
    hist := if w.ahead then .reg n (w.s[n.toNat]'(n.isLt)) (w.sPois.getLsbD n.toNat) :: w.hist else w.hist }

/-- Mask register `n`: k0 reads all ones; a half has bits 0 to 31 (R40, R66). -/
def Wave.rdK (w : Wave) (n : BitVec 3) : Word :=
  let v := if n = 0 then BitVec.allOnes 64 else w.k[n.toNat]'(n.isLt)
  if w.legacy then v &&& 0xFFFFFFFF#64 else v

/-- Mask register `n` written: k0 discards (R40). -/
def Wave.wrK (w : Wave) (n : BitVec 3) (v : Word) : Wave :=
  if n = 0 then w
  else { w with k := w.k.set n.toNat (if w.legacy then v &&& 0xFFFFFFFF#64 else v) n.isLt }

/-- A register's full bit; s0 is always full (R40, R56). -/
def Wave.sIsFull (w : Wave) (n : Reg) : Bool := n == 0 || w.sFull.getLsbD n.toNat
/-- A vector register's full bit. -/
def Wave.vIsFull (w : Wave) (n : Nat) : Bool := w.vFull.getLsbD n
/-- A scalar register's poison bit; s0 has none (spec/07 R192). -/
def Wave.sIsPois (w : Wave) (n : Reg) : Bool := n != 0 && w.sPois.getLsbD n.toNat
/-- A vector register's poison bit. -/
def Wave.vIsPois (w : Wave) (n : Nat) : Bool := w.vPois.getLsbD n

/-- One bit of a 32-bit set put in or taken out. -/
def setBit32 (x : BitVec 32) (n : Nat) (b : Bool) : BitVec 32 :=
  if b then x ||| BitVec.ofNat 32 (2 ^ n) else x &&& ~~~(BitVec.ofNat 32 (2 ^ n))

/-- A long-latency result for scalar register `d`: the register is empty until the write is made (R56); s0 discards. -/
def Wave.later (w : Wave) (d : Reg) (v : Word) (poison : Bool) : Wave :=
  if d = 0 then w
  else { w with sFull := setBit32 w.sFull d.toNat false, pend := w.pend ++ [.scalar d v poison] }

/-- Sticky flags raised (R47). -/
def Wave.flag (w : Wave) (f : BitVec 8) : Wave := { w with wstat := w.wstat ||| f }

/-- The three fields of WMODE most rules read: GUARD, ETYPE, RND, and GRP as a group factor (Table 2.3). -/
def Wave.guardReg (w : Wave) : BitVec 3 := w.wmode.extractLsb' 0 3
/-- ETYPE. -/
def Wave.etype (w : Wave) : Nat := (w.wmode.extractLsb' 3 5).toNat
/-- RND. -/
def Wave.rnd (w : Wave) : Nat := (w.wmode.extractLsb' 8 3).toNat
/-- SAT. -/
def Wave.sat (w : Wave) : Bool := w.wmode.getLsbD 11
/-- The group factor. -/
def Wave.grp (w : Wave) : Nat := 2 ^ (w.wmode.extractLsb' 12 2).toNat
/-- DT. -/
def Wave.dt (w : Wave) : Bool := w.wmode.getLsbD 14
/-- The FE bit of a source position, 0 a, 1 b, 2 c. -/
def Wave.fe (w : Wave) (pos : Nat) : Bool := w.wmode.getLsbD (15 + pos)
/-- FTZ. -/
def Wave.ftz (w : Wave) : Bool := w.wmode.getLsbD 18
/-- ATRAP. -/
def Wave.atrap (w : Wave) : Bool := w.wmode.getLsbD 20

/-- The element width of a format code, 0 for the unassigned ones (R42; codes of spec/03 R67: f64 f32 f16 bf16 e4m3 e5m2 l8 l6
s8 s16 s32 s64 n8 n16 n32 n64). -/
def sewOf (fmt : Nat) : Nat :=
  match fmt with
  | 0 => 64 | 1 => 32 | 2 => 16 | 3 => 16 | 4 => 8 | 5 => 8 | 6 => 8 | 7 => 8
  | 8 => 8 | 9 => 16 | 10 => 32 | 11 => 64 | 12 => 8 | 13 => 16 | 14 => 32 | 15 => 64
  | _ => 32

/-- SEW of the wave's element type. -/
def Wave.sew (w : Wave) : Nat := sewOf w.etype

/-- VLMAX of a wave under a WMODE value (R42, R66). -/
def vlmaxOf (wmode : BitVec 32) : Nat :=
  (if wmode.getLsbD 19 then 1024 else 2048) * 2 ^ (wmode.extractLsb' 12 2).toNat / sewOf (wmode.extractLsb' 3 5).toNat

/-- VLMAX. -/
def Wave.vlmax (w : Wave) : Nat := vlmaxOf w.wmode

/-! ### Hardware loops (spec/04 R107) -/

/-- The innermost loop ends: the stacked one, if any, takes its place. -/
def Loops.pop (l : Loops) : Loops :=
  if l.depth = 2 then { l with cnt := l.scnt, beg := l.sbeg, fin := l.sfin, depth := 1 } else { l with depth := 0 }

/-- A loop pushed inside the active one, if any (R105). -/
def Loops.push (l : Loops) (cnt beg fin : Word) : Loops :=
  if l.depth = 1 then ⟨cnt, beg, fin, 2, l.cnt, l.beg, l.fin⟩ else { l with cnt := cnt, beg := beg, fin := fin, depth := 1 }

/-- The loop step of R107, at most `fuel` rounds; a round either ends it or lowers the depth, so three are enough. An address is that of a word
(spec/01 R15). -/
def loopStep : Nat → Loops → Word → Word → Bool → Word × Loops
  | 0, l, next, _, _ => (next, l)
  | fuel + 1, l, next, stepPc, taken =>
    if l.depth = 0 then (next, l)
    else if taken && (decide (next < l.beg) || decide (l.fin < next)) then loopStep fuel l.pop next stepPc taken
    else if !taken && stepPc == l.fin then
      let l' := { l with cnt := l.cnt - 1 }
      if l'.cnt = 0 then loopStep fuel l'.pop next stepPc taken else (l.beg &&& ~~~3#64, l')
    else (next, l)

/-- Equal loop states, as far as the depth goes (spec/02 R51). -/
def Loops.same (a b : Loops) : Bool :=
  a.depth == b.depth
  && (a.depth == 0 || (a.cnt == b.cnt && a.beg == b.beg && a.fin == b.fin))
  && (decide (a.depth < 2) || (a.scnt == b.scnt && a.sbeg == b.sbeg && a.sfin == b.sfin))

/-! ### Splits (spec/02 R51 to R54) -/

/-- The lower of two indices, where a spilled split has none. -/
def minIdx : Option Nat → Option Nat → Option Nat
  | none, b => b
  | a, none => a
  | some a, some b => some (min a b)

/-- The loop state a merged split keeps: that of the split whose index it keeps. Only values of inactive loops can differ
(R51, R54; DEDUCED, safe only where no program reads them: log entry 23). -/
def keptLoops (y x : Split) : Loops := if minIdx y.idx x.idx == y.idx then y.loops else x.loops

/-- One split joins a list of splits: it merges with the one at its place, or stands as it is (R51, R54). -/
def mergeIn : List Split → Split → List Split
  | [], x => [x]
  | y :: ys, x =>
    if y.pc == x.pc && y.loops.same x.loops then
      { y with mask := y.mask ||| x.mask, loops := keptLoops y x, idx := minIdx y.idx x.idx, held := none, yields := [], wfe := false,
               skipHit := y.skipHit || x.skipHit, stalls := false, due := none } :: ys
    else y :: mergeIn ys x

/-- Every merge that R51 makes. -/
def mergeAll (l : List Split) : List Split := l.foldl mergeIn []

/-- The resident splits of a wave: four, or two for a half (R53, R66). -/
def Wave.residents (w : Wave) : Nat := if w.legacy then 2 else 4

/-- The lowest index that no split of the list holds. -/
def freeIdx (l : List Split) : Nat → Nat → Nat
  | 0, i => i
  | fuel + 1, i => if l.any (fun x => x.idx == some i) then freeIdx l fuel (i + 1) else i

/-- Spilled splits are filled, lowest program counter first, while a resident place is free (R53, R54). -/
def fillSplits (limit : Nat) : Nat → List Split → List Split
  | 0, l => l
  | fuel + 1, l =>
    if (l.filter (fun x => x.idx.isSome)).length < limit then
      match bestIdx (fun x => x.idx.isNone) (fun a b => decide (a.pc < b.pc)) l 0 none with
      | none => l
      | some i => fillSplits limit fuel (updAt l i (fun x => { x with idx := some (freeIdx l limit 0) }))
    else l

/-- The splits of a wave settled: merged and filled. -/
def Wave.settle (w : Wave) (l : List Split) : Wave :=
  { w with splits := fillSplits w.residents w.residents (mergeAll l) }

/-- A split divides into the part `f` at the next instruction and the part `t` at the target (R51, R53, R54): with a fifth
resident split the one with the highest program counter is spilled. -/
def divideSplit (limit : Nat) (others : List Split) (idx : Option Nat) (f t : Split) : List Split :=
  let f := { f with idx := idx }
  if (others.filter (fun x => x.idx.isSome)).length + 2 ≤ limit then
    others ++ [f, { t with idx := some (freeIdx (f :: others) limit 0) }]
  else
    let top := others.foldl (fun m x => if x.idx.isSome && decide (m < x.pc) then x.pc else m)
      (if f.pc < t.pc then t.pc else f.pc)
    if t.pc = top then others ++ [f, { t with idx := none }]
    else
      -- the highest index among those at the highest program counter
      let high := (f :: others).foldl (fun m x => if x.pc == top then (match m, x.idx with
        | none, i => i
        | some a, some b => some (max a b)
        | some a, none => some a) else m) none
      if f.pc = top && idx == high then others ++ [{ f with idx := none }, { t with idx := idx }]
      else
        (others.map (fun x => if x.pc == top && x.idx == high && x.idx.isSome then { x with idx := none } else x))
          ++ [f, { t with idx := high }]

/-- The lanes that no split of a wave holds have ended. -/
def lanesOf (l : List Split) : Word := l.foldl (fun m x => m ||| x.mask) 0

/-- A split at an address with a lane mask, as it starts. -/
def Split.start (mask pc : Word) (idx : Option Nat) : Split := ⟨mask, pc, .none, idx, none, [], false, 0, [], false, false, none⟩

end Sys2Proof.Machine
end

