-- ==== Sys2Proof/Machine/Ops.lean ====
section
/-! DEFINITION. The operations every meaning is written over: addresses and windows, memory by place, reports to the host, taking an
exception and returning from one (spec/07 R176 to R189), and the issue and completion of a wave's instruction. -/

namespace Sys2Proof.Machine

/-! ### Where a wave runs -/

/-- The cluster of a core. -/
def clusterOf (core : Nat) : Nat := core / 4

/-- The core a wave runs on. -/
def State.coreOf (s : State) (w : Wave) : Nat := (s.block w.block).core

/-- The context of a wave. -/
def State.ctxOf (s : State) (w : Wave) : Ctx := s.ctx (s.block w.block).ctx

/-- WAVEID (spec/14 R284, spec/02 R66). -/
def Wave.id (w : Wave) : Nat := if w.legacy then 2 * w.index + w.half else w.index

/-- The WHO word of Table 18.9. -/
def State.who (s : State) (w : Wave) : Nat :=
  let c := s.coreOf w
  w.id + c % 128 * 16 + c / 128 * 2048

/-- The block has not ended: it runs, ends, or waits for its continuation. -/
def Block.alive (b : Block) : Bool :=
  match b.phase with
  | .running | .ending | .waiting => true
  | .done | .discarded => false

/-- The block is on its core. -/
def Block.resident (b : Block) : Bool := b.alive && b.saved.isNone

/-- The other half of a legacy wave stops this one: it has a service outstanding (spec/04 R114). -/
def State.mateStops (s : State) (w : Wave) : Bool :=
  match w.mate with
  | none => false
  | some m => match s.waves[m]? with
    | some x => x.sysc.isSome
    | none => false

/-- Nothing stops the wave as a whole. -/
def State.running (s : State) (w : Wave) : Bool :=
  !w.ended && !w.suspended && !w.halted && !w.mateTrap && w.stopped.isNone && w.park.isNone && w.sysc.isNone
    && (s.block w.block).resident && !s.mateStops w

/-! ### Windows (spec/06 R149, R150, spec/07 R184) -/

/-- The base of window `n` (Table 6.2). -/
def windowBase (n : Nat) : Nat := 2 ^ 56 + n * 2 ^ 40

/-- The offset limit of the frame area at a trap level: none at K, the two H frames at H, all three at D. -/
def frameLimit (lvl : Nat) : Nat := if lvl = 0 then 0 else if lvl = 3 then 27648 else 18432

/-- The block of a wave's gang on core index `c` of its cluster, if it is there (spec/12 R250). -/
def State.gangBlock (s : State) (b : Block) (c : Nat) : Option Block :=
  ((s.gang b.gang).blocks.map s.block).find? (fun x => x.core % 4 == c && x.core / 4 == b.core / 4)

/-- The key of a window address, or none where the window trap applies: `n` bytes at offset `off` of window `win`, for a
wave number, its block and level. -/
def State.windowKey (s : State) (wi lvl : Nat) (b : Block) (win off n : Nat) : Option Nat :=
  match win with
  | 0 => if off + n ≤ b.scratch then some (memKey .scratch b.core (b.scratchBase + off)) else none
  | 1 =>
    match s.gangBlock b (off / 2 ^ 20) with
    | none => none
    | some m =>
      if off / 2 ^ 20 < 4 && off % 2 ^ 20 + n ≤ m.scratch then
        some (memKey .scratch m.core (m.scratchBase + off % 2 ^ 20))
      else none
  | 2 =>
    let p := (s.ctx b.ctx).part
    if off + n ≤ 2 ^ 23 * (s.partD p).clusters.length then some (s.vaultKey p off) else none
  | 3 => if off + n ≤ frameLimit lvl then some (memKey .frame wi off) else none
  | _ => none

/-- An address a wave accesses, `n` bytes, aligned to `al`: the window checks, then alignment, then translation (R178). -/
def State.resolve (s : State) (wi : Nat) (w : Wave) (a : Word) (n al : Nat) (kind : AccKind) : Acc :=
  let b := s.block w.block
  let v := a.toNat
  if bit v 56 then
    if bits v 63 57 ≠ 0 || bits v 55 48 ≠ 0 then .trap 6 0
    else if (s.windowKey wi w.lvl b (bits v 47 40) (bits v 39 0) 1).isNone then .trap 6 0
    else if v % al ≠ 0 then .trap 5 0
    else match s.windowKey wi w.lvl b (bits v 47 40) (bits v 39 0) n with
      | none => .trap 6 0
      | some k => .ok (.here k false)
  else if highBits a then .trap 6 0
  else if v % al ≠ 0 then .trap 5 0
  else s.translate (s.ctx b.ctx) b.core v kind

/-- An address that must lie in window 0 or 1, aligned (spec/12 R257, R266, R271): its key, or the trap cause. -/
def State.localKey (s : State) (wi : Nat) (w : Wave) (a : Word) (n al : Nat) : Except Nat Nat :=
  let v := a.toNat
  let at' (n : Nat) : Option Nat := s.windowKey wi w.lvl (s.block w.block) (bits v 47 40) (bits v 39 0) n
  if bit v 56 && bits v 63 57 == 0 && bits v 55 48 == 0 && decide (bits v 47 40 ≤ 1) && (at' 1).isSome then
    if v % al ≠ 0 then .error 5
    else match at' n with
      | none => .error 6
      | some k => .ok k
  else .error 6

/-- An access outside the own block's scratchpad allocation and the own frames sets the side-effect latch (spec/14 R289). -/
def State.outside (s : State) (w : Wave) (a : Word) : Bool :=
  let b := s.block w.block
  let v := a.toNat
  !(bit v 56 && (bits v 47 40 == 0 || bits v 47 40 == 3 || (bits v 47 40 == 1 && bits v 39 20 == b.core % 4)))

/-- The side-effect latch of a wave's block set. -/
def State.sideEffect (s : State) (w : Wave) : State := s.updBlock w.block (fun b => { b with latch := true })

/-- The block's stores kept in mind in a coverage launch, whose tiles they may race with (spec/17 R342). -/
def State.noteStores (s : State) (w : Wave) (l : List (Word × Nat)) : State :=
  match (s.block w.block).job.bind (fun ji => s.jobs[ji]?) with
  | some j => if j.cov.isEmpty then s else s.updBlock w.block (fun b => { b with wrote := b.wrote ++ l })
  | none => s

/-- The latch set when an access that may write at this address calls for it. -/
def State.latched (s : State) (w : Wave) (a : Word) : State := if s.outside w a then s.sideEffect w else s

/-- The same of a store of `n` bytes. -/
def State.stored (s : State) (w : Wave) (a : Word) (n : Nat) : State :=
  if s.outside w a then (s.sideEffect w).noteStores w [(a, n)] else s

/-! ### Stores into a barrier (spec/12 R265) -/

/-- The first draw number a step uses for the `n`-th barrier in use. -/
def State.barDraw (s : State) (n : Nat) : Nat := s.tick + 2 ^ 25 + 32 * n

/-- `n` bytes from key `a` reach into a barrier that holds the fields its own instructions have left. -/
def BarSide.spoiledBy (b : BarSide) (a n : Nat) : Bool := b.drawn.isNone && decide (a < b.key + 16) && decide (b.key < a + n)

/-- No barrier in use reaches into `n` bytes from key `a`. -/
def State.barsClear (s : State) (a n : Nat) : Bool := s.bars.all (fun b => !b.spoiledBy a n)

/-- Memory with the sixteen bytes of a barrier free values. -/
def spoilBytes (m : List Host.Cell) (draw key : Nat) : List Host.Cell :=
  memWriteBytes m key ((List.range 16).map (fun i => Config.freeByte (draw + i)))

/-- A store, an atomic or a copy writes `n` bytes from key `a`: a barrier in use there has fields nothing is known of, and bytes nothing is known of but those
written (R265; log entry 22). -/
def State.spoil (s : State) (a n : Nat) : State :=
  if s.barsClear a n then s
  else
    let l := s.bars.zipIdx.filter (fun x => x.1.spoiledBy a n)
    { s with
      mem := l.foldl (fun m x => spoilBytes m (s.barDraw x.2) x.1.key) s.mem
      bars := s.bars.zipIdx.map (fun x => if x.1.spoiledBy a n then { x.1 with drawn := some (s.barDraw x.2 + 16) } else x.1) }

/-- A value of `n` bytes stored little-endian from key `a`. -/
def State.storeN (s : State) (a n v : Nat) : State := (s.spoil a n).writeN a n v

/-! ### Reports to the host (spec/18 R362, spec/21 R399) -/

/-- The key of a byte of host memory that carries a partition and no PASID, as the fault rings do (log entry 8). -/
def plainHostKey (p a : Nat) : Nat := hostKey p (2 ^ 20) a

/-- A fault record: kept in order, written to the partition's ring where one is set up, its MSI-X vector raised. -/
def State.faultRecord (s : State) (p kind code cause sub queue info : Nat) (value : Word) (who : Nat) : State :=
  let bytes := leBytes 1 kind ++ leBytes 1 code ++ leBytes 1 cause ++ leBytes 1 sub ++ leBytes 2 queue ++ leBytes 2 info
    ++ leBytes 8 value.toNat ++ leBytes 8 who ++ leBytes 8 s.time.toNat
  let s := { s with records := s.records ++ [[kind, code, cause, sub, queue, info, value.toNat, who]] }
  match s.part? p with
  | none => s
  | some q => match q.ring with
    | none => s
    | some (addr, n, next) =>
      let s := s.writeBytes (plainHostKey p (addr + 32 * (next % n))) bytes
      s.updPart p (fun q => { q with ring := some (addr, n, next + 1), msix := insertNat 0 q.msix })

/-- The host learns of a translation fault at an address of a context (spec/16 R316): by a PRI page request where its leaf is of host memory, else by a
record of kind 1. -/
def State.reportFault (s : State) (c : Ctx) (core : Nat) (a : Word) (write : Bool) (cause sub queue info who : Nat) : State :=
  match (if bit a.toNat 56 || highBits a then none else s.leaf c core a.toNat) with
  | some e =>
    if bits e 8 7 = 2 then
      { s with host := { s.host with pri := s.host.pri ++ [⟨c.fn, c.pasid, a.toNat / 4096, write⟩] } }
    else s.faultRecord c.part 1 0 cause sub queue info a who
  | none => s.faultRecord c.part 1 0 cause sub queue info a who

/-- The first page request for a page is answered, if one was made (spec/16 R316). -/
def State.priAnswered (s : State) (c : Ctx) (a : Word) : State :=
  match findIdx (fun (r : PriReq) => r.fn == c.fn && r.pasid == c.pasid && r.page == a.toNat / 4096) s.host.pri 0 with
  | none => s
  | some i => { s with host := { s.host with pri := s.host.pri.eraseIdx i } }

/-- A page request for the page waits behind 512 others of its function (spec/18 R350): the host cannot answer it yet. -/
def State.priWaits (s : State) (c : Ctx) (a : Word) : Bool :=
  let own := s.host.pri.filter (fun r => r.fn == c.fn)
  own.any (fun r => r.pasid == c.pasid && r.page == a.toNat / 4096)
    && !(own.take 512).any (fun r => r.pasid == c.pasid && r.page == a.toNat / 4096)

/-- A queue fault (spec/18 R353, R363): the queue stops fetching, its timeline freezes, its coverage state clears
(spec/17 R345) and its jobs deal no more, their unlaunched points being discarded (R365); a kind-2 record is written. -/
def State.queueFault (s : State) (q code cause sub info : Nat) (value : Word) (who : Nat) (closed : Bool) : State :=
  let s := s.updQueue q (fun x => { x with
    mode := if closed then .closed else .faulted
    fault := some (code, cause, sub, value)
    covKey := none
    covRung := 0
    covFull := false
    covRun := 0
    line := []
    reserved := none
    aged := false })
  let ofQueue (ji : Nat) : Bool := match s.jobs[ji]? with | some j => j.queue == q | none => false
  let s := { s with
    jobs := s.jobs.map (fun (j : Job) => if j.queue == q && !j.finished then { j with stopped := true } else j)
    cores := s.cores.map (fun (c : CoreSt) => { c with chunk := c.chunk.filter (fun x => !ofQueue x.1) })
    ctxs := s.ctxs.map (fun (c : Ctx) => { c with points := c.points.filter (fun x => !ofQueue x.2.1) })
    copies := s.copies.map (fun (c : Copy) => match c.target with
      | .packet k _ => if k == q && !c.finished then { c with reissueError := true } else c
      | _ => c) }
  s.faultRecord (s.ctx (s.queue q).ctx).part 2 code cause sub (s.queue q).num info value who

/-! ### Requests to other devices (spec/22 R403 to R409) -/

/-- A partition reaches a device: through a binding, and a port in service (spec/22 R403 to R406). -/
def State.reaches (s : State) (part dev : Nat) : Bool :=
  s.fabric.assigned && (s.partD part).bindings.any (fun b => b.1 == dev)
    && (s.partD part).routes.any (fun r => r.1 == dev && r.2.any (fun p =>
      match s.fabric.ports[p]? with
      | some q => q.part == some part && decide (0 < q.lanes)
      | none => false))

/-- Sequence numbers given to a list of operations, one after the last used toward each device (R407). -/
def numberOps : List (Nat × Nat) → List (Nat × RemoteOp) → List (Nat × Nat) × List (Nat × Nat × RemoteOp)
  | seqs, [] => (seqs, [])
  | seqs, (d, op) :: r =>
    let n := assocGet 0 seqs d + 1
    let (seqs', l) := numberOps (assocSet 0 seqs d n) r
    (seqs', (d, n, op) :: l)

/-- The core of a wave by number, the hub's number where there is none. -/
def State.useHome (s : State) (wi : Nat) : Nat :=
  match s.waves[wi]? with
  | some w => s.coreOf w
  | none => 1024

/-- The core that sends a request: 1024 stands for the hub, whose requests serve queues and infills. -/
def State.useCore (s : State) (u : RemoteUse) : Nat :=
  match u with
  | .access wi | .look wi | .stream wi _ | .fabric wi _ _ => s.useHome wi
  | .trace c => c
  | .copy n => match s.copies[n]? with
    | some c => c.core
    | none => 1024
  | .queue _ | .infill _ _ => 1024

/-- Requests sent to other devices, with their end-to-end sequence numbers (R407). -/
def State.sendRemote (s : State) (part : Nat) (ops : List (Nat × RemoteOp)) (use : RemoteUse) : State :=
  let (seqs, l) := numberOps s.fabric.seqs ops
  { s with fabric := { s.fabric with seqs := seqs, out := s.fabric.out ++ [⟨part, l, use, s.time.toNat, none, s.useCore use⟩] } }

/-- The index of the first operation whose device the partition does not reach. -/
def State.firstUnreached (s : State) (part : Nat) (ops : List (Nat × RemoteOp)) : Option Nat :=
  findIdx (fun o => !s.reaches part o.1) ops 0

/-- A trace record of a wave's core (R399, R400): written while EN is set, here or at another device, or LOST where it cannot be. -/
def State.traceRecord (s : State) (w : Wave) (type num : Nat) (pc : Word) (f24 f32 f40 f48 : Nat) : State :=
  let c := s.coreOf w
  let core := s.core c
  let size := 2 ^ bits core.trcCtl.toNat 4 0
  if !core.trcCtl.getLsbD 8 then s
  else
    let a := core.trcBase.toNat + core.trcPos.toNat
    let bytes := leBytes 1 type ++ leBytes 1 w.id ++ leBytes 2 (s.queue (s.block w.block).queue).num ++ leBytes 4 num
      ++ leBytes 8 pc.toNat ++ leBytes 8 s.time.toNat ++ leBytes 8 f24 ++ leBytes 8 f32 ++ leBytes 8 f40 ++ leBytes 8 f48
      ++ leBytes 8 0
    let next := core.trcPos.toNat + 64
    let moved (s : State) : State :=
      s.updCore c (fun k =>
        if next < size then { k with trcPos := word next }
        else if k.trcCtl.getLsbD 10 then { k with trcPos := 0 }
        else { k with trcCtl := k.trcCtl &&& ~~~0x100#64, trcPos := word next })
    let lost := s.updCore c (fun k => { k with trcCtl := k.trcCtl ||| 0x800#64 })
    if decide (2 ^ 56 ≤ a) then lost
    else match s.translate (s.ctxOf w) c a .write with
      | .ok (.here key false) => moved (s.writeBytes key bytes)
      | .ok (.away dev addr false) =>
        let part := (s.ctxOf w).part
        if s.reaches part dev then moved (s.sendRemote part [(dev, .write addr bytes false)] (.trace c)) else lost
      | _ => lost

/-! ### Results in flight (spec/02 R56, R58) -/

/-- Registers `n`, `n + 1` … of a vector file written on the given lanes; a register written whole loses its poison, one that
received a poisoned byte gains it (spec/07 R192). -/
def writeRegs : Vector VReg 32 → Nat → List VReg → Vector VReg 32
  | v, _, [] => v
  | v, n, x :: xs => writeRegs (if h : n < 32 then v.set n x h else v) (n + 1) xs

/-- The poison bits after such a write. -/
def poisonRegs : BitVec 32 → Nat → List Bool → List Bool → BitVec 32
  | p, n, whole :: ws, bad :: bs =>
    poisonRegs (if bad then setBit32 p n true else if whole then setBit32 p n false else p) (n + 1) ws bs
  | p, _, _, _ => p

/-- The full bits of registers `n` up set or cleared, `count` of them. -/
def fullRegs : BitVec 32 → Nat → Nat → Bool → BitVec 32
  | f, _, 0, _ => f
  | f, n, count + 1, b => fullRegs (setBit32 f n b) (n + 1) count b

/-- Register `n` of a vector file, 0 where there is none. -/
def VFile.reg (f : VFile) (n : Nat) : VReg := if h : n < 32 then f.v[n] else 0

/-- The part of a vector register that belongs to the wave or half, with the rest of another. -/
def Wave.ownLanes (w : Wave) (new old : VReg) : VReg :=
  if w.legacy then
    let m : VReg := BitVec.ofNat 2048 ((2 ^ 1024 - 1) * 2 ^ (1024 * w.half))
    (new &&& m) ||| (old &&& ~~~m)
  else new

/-- Registers from `n` up of the own lanes written: each one whole where `whole` says so loses its poison, one that received a poisoned byte
gains it. -/
def State.putRegs (s : State) (wi : Nat) (w : Wave) (n : Nat) (regs : List VReg) (whole bad : List Bool) : State :=
  let s := s.updVFile w.vfile (fun f =>
    { f with v := writeRegs f.v n (regs.zipIdx.map (fun (x, i) => w.ownLanes x (f.reg (n + i)))) })
  s.updWave wi (fun w => { w with vPois := poisonRegs w.vPois n whole bad })

/-- A write stream's take of the group from `n` is due: the group is empty until it has been made (spec/06 R169). -/
def Wave.takeDue (w : Wave) (n : Nat) : Bool := w.streams.any (fun t => t.reg == n && t.due)

/-- A long-latency write made (R56): the registers hold their values and are full, but a group whose take is due; the write of an instruction younger
than an access before its fault point goes to the history buffer (R63). -/
def State.makeWrite (s : State) (wi : Nat) (w : Wave) (p : LongWrite) (young : Bool) : State :=
  match p with
  | .scalar d v bad =>
    s.updWave wi (fun w =>
      let x := w.wr d v
      { x with
        sFull := setBit32 x.sFull d.toNat true
        sPois := if bad then setBit32 x.sPois d.toNat true else x.sPois
        hist := if young then x.hist else w.hist })
  | .vector d regs whole bad =>
    (s.putRegs wi w d.toNat regs whole bad).updWave wi (fun w =>
      if w.takeDue d.toNat then w else { w with vFull := fullRegs w.vFull d.toNat regs.length true })

/-- Every pending write of a wave made, in order: the cut of spec/07 R179. -/
def State.drain (s : State) (wi : Nat) : State :=
  match s.waves[wi]? with
  | none => s
  | some w => (w.pend.foldl (fun s p => s.makeWrite wi w p false) s).updWave wi (fun w => { w with pend := [] })

/-- What an entry of the history buffer names gets its old value back (R64, spec/05 R131). -/
def Wave.undo (w : Wave) (h : Hist) : Wave :=
  match h with
  | .reg n v p => { w with s := w.s.set n.toNat v n.isLt, sPois := setBit32 w.sPois n.toNat p }
  | .vl v cap => { w with vl := v, cap := cap }
  | .mode m v => { w with wmode := m, vl := v }
  | .space v => { w with space := v }

/-- The entries of a history buffer undone, newest first (R64); VL stays within VLMAX (R42), as what the buffer holds of it always is. -/
def Wave.rewind (w : Wave) (l : List Hist) : Wave :=
  let w := l.foldl Wave.undo w
  { w with vl := min w.vl w.vlmax }

/-- The scalar destinations of writes in flight are full again, with the values they had (R58). -/
def Wave.refill (w : Wave) (l : List LongWrite) : Wave :=
  { w with sFull := l.foldl (fun f p => match p with
      | .scalar d _ _ => setBit32 f d.toNat true
      | .vector .. => f) w.sFull }

/-- An access that has not passed its fault point is undone (R64, R58): the younger scalar writes, the younger results in flight and the movement of the
splits; its own destination is full with the value it had. -/
def Wave.unwind (w : Wave) (q : RemoteAsk) : Wave :=
  let w := (w.rewind w.hist).refill (w.pend.drop q.older)
  { w with
    splits := q.splits
    pend := w.pend.take q.older
    hist := []
    ask := none
    ahead := false
    sFull := match q.kind with
      | .load d _ _ _ | .atomic d _ _ => setBit32 w.sFull d.toNat true
      | .store _ | .vector _ => w.sFull
    vFull := match q.kind with
      | .vector x => if x.op = .store then w.vFull else fullRegs w.vFull x.d.toNat w.grp true
      | _ => w.vFull }

/-! ### Taking an exception (spec/07 R176 to R189) -/

/-- The frame area's key of a wave and level (R184): levels 1, 2 and 3. -/
def frameKey (wi lvl : Nat) : Nat := memKey .frame wi ((lvl - 1) * 9216)

/-- LPEND as it reads, with the depth in [63:62] (Table 2.9). -/
def Loops.lpend (l : Loops) : Word := (l.fin &&& 0x01FFFFFFFFFFFFFF#64) ||| BitVec.ofNat 64 (l.depth * 2 ^ 62)

/-- Every scalar register of a wave as eight bytes each, s0 first (Table 7.3). -/
def Wave.scalarBytes (w : Wave) : List Byte :=
  (List.range 32).flatMap (fun n => leBytes 8 (w.rd (BitVec.ofNat 5 n)).toNat)

/-- Every mask register as eight bytes each. -/
def Wave.maskBytes (w : Wave) : List Byte :=
  (List.range 8).flatMap (fun n => leBytes 8 (w.rdK (BitVec.ofNat 3 n)).toNat)

/-- The frame words a trap writes, offsets 0 to 1,023 (Table 7.3). -/
def Wave.frameBytes (w : Wave) (sp : Split) (pc : Word) (t : Trap) : List Byte :=
  w.scalarBytes
    ++ leBytes 8 pc.toNat ++ leBytes 8 (t.sub * 256 + t.cause) ++ leBytes 8 t.val.toNat
    ++ leBytes 8 w.wmode.toNat ++ leBytes 8 w.vl ++ leBytes 8 w.space.toNat ++ leBytes 8 w.esr ++ leBytes 8 w.esv.toNat
    ++ leBytes 8 sp.mask.toNat
    ++ leBytes 8 sp.loops.cnt.toNat ++ leBytes 8 sp.loops.beg.toNat ++ leBytes 8 sp.loops.lpend.toNat
    ++ leBytes 8 sp.loops.scnt.toNat ++ leBytes 8 sp.loops.sbeg.toNat ++ leBytes 8 sp.loops.sfin.toNat
    ++ leBytes 8 w.sPois.toNat ++ leBytes 8 w.vPois.toNat ++ leBytes 8 0
    ++ List.replicate 112 0 ++ w.maskBytes ++ List.replicate 448 0

/-- A key is in the vector area of a frame whose CLAIM is 0: it holds no defined value (R184). -/
def State.noClaim (s : State) (key : Nat) : Bool :=
  key / 2 ^ 128 == Space.frame.num && decide (1024 ≤ key % 2 ^ 64 % 9216) && (match s.waves[key / 2 ^ 64 % 2 ^ 64]? with
    | some w => !w.claims.getLsbD (key % 2 ^ 64 / 9216 + 1)
    | none => true)

/-- What a wave finds in `n` bytes at a key: in a vector area without a claim a free value (R184, spec/00 R8), else memory's. -/
def State.valueAt (s : State) (key n : Nat) : Nat :=
  if s.noClaim key then (Config.freeWord (s.tick + 2 ^ 24 + key % 2 ^ 64)).toNat % 256 ^ n else s.readN key n

/-- The frame of a level written (R181); its vector area holds no value of any claim (R184). -/
def State.writeFrame (s : State) (wi : Nat) (w : Wave) (sp : Split) (lvl : Nat) (pc : Word) (t : Trap) : State :=
  s.writeBytes (frameKey wi lvl) (w.frameBytes sp pc t)

/-- A handler is entered at `entry` on level `new`: every other split is frozen, the handler runs as one split of all lanes with an
empty loop state, and the poison bits of s1 to s31 are clear (R180, R181); a SETTILE that waits is cut before. What LPCNT, LPBEG and LPEND read there is the
model's choice: 0 (log entry 152). In legacy mode the other half stops too (spec/02 R66). -/
def Wave.enter (w : Wave) (si new : Nat) (entry : Word) : Wave :=
  match w.splits[si]? with
  | none => w
  | some sp =>
    { w with
      splits := [{ Split.start w.allLanes entry sp.idx with skipHit := false }]
      frozen := if w.lvl = 0 then { sp with due := none } :: w.splits.eraseIdx si else w.frozen
      sPois := 0
      heldLevel := if new = 3 then w.lvl else w.heldLevel
      lvl := new
      claims := w.claims &&& ~~~(BitVec.ofNat 4 (2 ^ new))
      tile := none
      park := none }

/-- The other half of a legacy wave stops or goes on with this one (spec/02 R66). -/
def State.stopMate (s : State) (w : Wave) (b : Bool) : State :=
  match w.mate with
  | none => s
  | some m => s.updWave m (fun x => { x with mateTrap := b })

/-- stop_wave (R181, R189): every split ends, the queue gets the "wave stopped" fault, and the frames stay. -/
def State.stopWave (s : State) (wi : Nat) (w : Wave) (why : StopWhy) (t : Trap) : State :=
  let reason := match why with
    | .divergence => 0
    | .doubleFault => 1
    | _ => 2
  let s := (s.updWave wi (fun w => { w with stopped := some why, splits := [], frozen := [], park := none })).stopMate w true
  s.queueFault (s.block w.block).queue 4 t.cause t.sub reason t.val (s.who w) false

/-- Whether the wave's queue has a D handler armed (spec/21 R397), and its entry. -/
def State.debugEntry (s : State) (w : Wave) : Option Word := (s.queue (s.block w.block).queue).debugEntry

/-- The handler of a trap whose frame may stand already (R181, R188; spec/21 R397): the D handler for a breakpoint where one is armed, a
stopped wave at level 2 or 3 or with TRAPBASE 0, else the next H level. -/
def State.takeHandler (s : State) (wi si : Nat) (w : Wave) (sp : Split) (pc : Word) (t : Trap) (framed : Bool) : State :=
  let enter (new : Nat) (entry : Word) : State :=
    let s := if framed then s else s.writeFrame wi w sp new pc t
    let s := (s.updWave wi (fun w => w.enter si new entry)).stopMate w true
    s.traceRecord w 2 0xFF pc w.esr w.esv.toNat sp.mask.toNat (t.sub * 256 + t.cause)
  match (if t.cause = 13 && w.lvl < 3 then s.debugEntry w else none) with
  | some entry => enter 3 entry
  | none =>
    if w.lvl ≥ 2 then s.stopWave wi w .doubleFault t
    else if w.trapbase = 0 then s.stopWave wi w .unhandled t
    else enter (w.lvl + 1) w.trapbase

/-- The faults that first park the wave: translation, and a fetch that is not fetchable (R183). -/
def Trap.parks (t : Trap) : Bool := t.cause == 8 || (t.cause == 7 && t.sub == 2)

/-- The trap is the fault of a stream that its consumer or writer has just met (spec/06 R171). -/
def Wave.ofStream (w : Wave) (t : Trap) : Bool :=
  w.streams.any (fun x => x.told && x.err == some (t.cause, t.sub, t.val, true))

/-- Taking a trap at split `si` of wave `wi` with TRAPPC `pc` (R179 to R183, R189): the pending writes are made; a translation fault parks the
wave with the frame it would use, and is reported; a divergence stops it; every other trap enters its handler. -/
def State.takeTrap (s : State) (wi si : Nat) (pc : Word) (t : Trap) (write fetch : Bool) : State :=
  let s := (s.drain wi).updWave wi (fun w => { w with
    look := none
    splits := updAt w.splits si (fun x => { x with due := none, skipHit := x.skipHit && (t.cause == 18 || t.cause == 19) }) })
  match s.waves[wi]? with
  | none => s
  | some w =>
    match w.splits[si]? with
    | none => s
    | some sp =>
      if t.cause = 20 then s.stopWave wi w .divergence t
      else if t.parks then
        let level := if w.lvl ≤ 1 then w.lvl + 1 else 0
        let s := if level = 0 then s else s.writeFrame wi w sp level pc t
        let s := s.updWave wi (fun w => { w with park := some ⟨t.cause, t.sub, t.val, write, level, si⟩ })
        let s := s.stopMate w true
        s.reportFault (s.ctxOf w) (s.coreOf w) t.val write t.cause t.sub (s.queue (s.block w.block).queue).num
          (b2n write + 2 * b2n fetch + 8 * b2n (w.ofStream t)) (s.who w)
      else s.takeHandler wi si w sp pc t false

/-! ### Returning from one (R186) -/

/-- Word at an offset of a frame. -/
def State.frameWord (s : State) (wi lvl off : Nat) : Nat := s.readN (frameKey wi lvl + off) 8

/-- The check of a value written to WMODE (spec/02 R46): rounding 0 to 4, a type below 16, nothing in [63:21]. -/
def wmodeOk (v : Nat) : Bool := decide (v < 2 ^ 21) && decide (bits v 10 8 ≤ 4) && decide (bits v 7 3 < 16)

/-- Every byte of ESV is 0 to 8 (spec/02 R62). -/
def esvOk (v : Nat) : Bool := (List.range 8).all (fun c => decide (v / 2 ^ (8 * c) % 256 ≤ 8))

/-- A WMODE value with the wave's own LEGACY bit, which software cannot write (spec/02 R46). -/
def keepLegacy (old : BitVec 32) (v : Nat) : BitVec 32 :=
  (BitVec.ofNat 32 v &&& ~~~0x80000#32) ||| (old &&& 0x80000#32)

/-- The vector control words of a frame are legal (R186). -/
def State.vectorWordsOk (s : State) (wi : Nat) (w : Wave) (lvl : Nat) : Bool :=
  let f := s.frameWord wi lvl
  wmodeOk (f 280) && decide (f 288 ≤ vlmaxOf (keepLegacy w.wmode (f 280))) && decide (f 296 ≤ 3)
    && decide (f 304 ≤ vlmaxOf (keepLegacy w.wmode (f 280))) && esvOk (f 312) && decide (f 384 < 2 ^ 32)

/-- The checks of RTE on a frame (R186). -/
def State.rteOk (s : State) (wi : Nat) (w : Wave) (lvl : Nat) : Bool :=
  let f := s.frameWord wi lvl
  decide (f 256 < 2 ^ 57) && f 256 % 4 == 0 && s.vectorWordsOk wi w lvl && decide (bits (f 344) 63 62 ≤ 2)
    && decide (f 376 < 2 ^ 32)

/-- The registers of a bound stream group, which RSTV and the debugger leave alone (R186, R191). -/
def Wave.boundReg (w : Wave) (n : Nat) : Bool := w.streams.any (fun t => decide (t.reg ≤ n) && decide (n < t.reg + t.g))

/-- RSTV's reload from a frame (spec/04 R117): the vector and mask registers, the poison of the vector registers, WMODE, VL, SPACE, ESR
and ESV, and the claim ends. Bound groups are not reloaded when RTE performs it (R186). -/
def State.rstv (s : State) (wi : Nat) (w : Wave) (lvl : Nat) (keepBound : Bool) : State :=
  let f := s.frameWord wi lvl
  let regs := (List.range 32).map (fun n => BitVec.ofNat 2048 (s.readN (frameKey wi lvl + 1024 + 256 * n) 256))
  let s := s.updVFile w.vfile (fun vf => { vf with
    v := Vector.ofFn (fun i : Fin 32 =>
      if keepBound && w.boundReg i.val then vf.reg i.val
      else w.ownLanes (regs.getD i.val 0) (vf.reg i.val)) })
  let k (n : Nat) : Word := word (s.frameWord wi lvl (512 + 8 * n))
  s.updWave wi (fun w =>
    let w := (List.range 8).foldl (fun w n => w.wrK (BitVec.ofNat 3 n) (k n)) w
    { w with
      vPois := BitVec.ofNat 32 (f 384)
      wmode := keepLegacy w.wmode (f 280)
      vl := f 288
      space := BitVec.ofNat 2 (f 296)
      esr := f 304
      esv := word (f 312)
      claims := w.claims &&& ~~~(BitVec.ofNat 4 (2 ^ lvl)) })

/-- The wave leaves a handler for `back` (R186, spec/21 R397): the split of the frame goes on at PC with its loop state and, at level 0, its own
lanes, and the frozen splits run again. -/
def Wave.leave (w : Wave) (back : Nat) (pc : Word) (loops : Loops) (skip : Bool) : Wave :=
  match w.splits with
  | [] => w
  | h :: _ =>
    if back = 0 then
      match w.frozen with
      | [] => { w with lvl := 0, splits := [{ h with pc := pc, loops := loops, fbuf := [], held := none, skipHit := skip }] }
      | t :: rest =>
        { w with lvl := 0, frozen := [] }.settle
          ({ t with pc := pc, loops := loops, held := none, yields := [], wfe := false, skipHit := skip || t.skipHit } :: rest)
    else { w with lvl := back, splits := [{ h with pc := pc, loops := loops, fbuf := [], held := none, skipHit := skip }] }

/-- The return from the handler of the wave's level, the checks having passed (R186). -/
def State.returnFrom (s : State) (wi : Nat) (w : Wave) : State :=
  let lvl := w.lvl
  let back := if lvl = 3 then w.heldLevel else lvl - 1
  let s := if w.claims.getLsbD lvl then s.rstv wi w lvl true else s
  let f := s.frameWord wi lvl
  let loops : Loops := ⟨word (f 328), word (f 336 % 2 ^ 57), word (f 344 % 2 ^ 57), bits (f 344) 63 62, word (f 352), word (f 360 % 2 ^ 57), word (f 368 % 2 ^ 57)⟩
  let s := s.updWave wi (fun w =>
    let w := (List.range 31).foldl (fun w i => w.wr (BitVec.ofNat 5 (i + 1)) (word (f (8 * (i + 1))))) w
    { w with
      sPois := BitVec.ofNat 32 (f 376) &&& ~~~1#32
      vPois := BitVec.ofNat 32 (f 384)
      wmode := keepLegacy w.wmode (f 280)
      vl := f 288
      space := BitVec.ofNat 2 (f 296)
      esr := f 304
      esv := word (f 312) }.leave back (word (f 256)) loops (lvl == 3))
  if back = 0 then s.stopMate w false else s

/-! ### An instruction of a wave: issue and completion -/

/-- What the body of an instruction did. -/
inductive Res where
  /-- It completed; the next instruction follows. -/
  | done (s : State)
  /-- It completed and goes on at `next`, the loop step using `stepPc` and `taken` (spec/04 R103, R105). -/
  | goto (s : State) (next stepPc : Word) (taken : Bool)
  /-- A trap of kind before, without effect. -/
  | trap (t : Trap)
  /-- A trap of kind before whose state keeps completed elements (spec/02 R62). -/
  | trapIn (s : State) (t : Trap) (write : Bool)
  /-- It completed and then traps: kind after (spec/04 R108). -/
  | after (s : State) (t : Trap)
  /-- It waits before it issues, its split not ready in the sense of spec/02 R52, and executes again. -/
  | wait
  /-- The same, with a state of its own. -/
  | waitIn (s : State)
  /-- It waits, its split staying the one that issues, and executes again. -/
  | stall
  /-- The same, having sent a request. -/
  | stallIn (s : State)
  /-- It has dealt with the split and the wave itself. -/
  | left (s : State)

/-- The split waited in vain in this state. -/
def State.heldNow (s : State) (x : Split) : Bool := match x.held with | none => false | some n => decide (s.now ≤ n)

/-- The split is resident, has not waited in vain in this state at what R52 lists, and waits in no WFE without an event (spec/02 R52). -/
def State.canIssue (s : State) (w : Wave) (x : Split) : Bool :=
  x.idx.isSome && (x.stalls || !s.heldNow x) && (!x.wfe || w.latch)

/-- The split yields to a resident split that has not issued since (spec/04 R111). -/
def Wave.yielding (w : Wave) (x : Split) : Bool :=
  w.splits.any (fun y => match y.idx with | some i => x.yields.contains i | none => false)

/-- Some other resident split of the wave is ready, no split counted as ready that yields (R111). -/
def State.othersReady (s : State) (w : Wave) (x : Split) : Bool :=
  w.splits.any (fun y => y.idx != x.idx && s.canIssue w y && !w.yielding y)

/-- Whether a split is ready (R52, R111): a split that yields is ready again once no other is. -/
def State.splitReady (s : State) (w : Wave) (x : Split) : Bool :=
  s.canIssue w x && (!w.yielding x || !s.othersReady w x)

/-- The splits that yielded before, whose wait ends because every other split is not ready (R111), stop yielding; the one of index `i`
has just begun to. -/
def State.release (s : State) (w : Wave) (i : Option Nat) : List Split :=
  w.splits.map (fun y => if y.idx != i && w.yielding y && !s.othersReady w y then { y with yields := [] } else y)

/-- The split that issued moves on to `next` with its loop state, and the others see that it issued (spec/04 R111). -/
def Wave.advance (w : Wave) (si : Nat) (sp : Split) (next : Word) (loops : Loops) : Wave :=
  let l := updAt w.splits si (fun x =>
    { x with pc := next, loops := loops, held := none, yields := [], wfe := false, skipHit := false, stalls := false, due := none })
  let l := match sp.idx with
    | none => l
    | some i => l.map (fun x => { x with yields := x.yields.erase i })
  w.settle l

/-- A split waits at its instruction: it is not ready until the state changes (spec/02 R52; log entry 137, DEDUCED). -/
def State.hold (s : State) (wi si : Nat) : State :=
  s.updWave wi (fun w => { w with splits := updAt w.splits si (fun x => { x with held := some s.now, stalls := false }) })

/-- A split waits at its instruction and stays the one that issues: no cause of R52 makes it not ready. -/
def State.stall (s : State) (wi si : Nat) : State :=
  s.updWave wi (fun w => { w with splits := updAt w.splits si (fun x => { x with held := some s.now, stalls := true }) })

/-- The cut of a trap is held open: a LEASE whose grant is still to come (spec/19 R385), or an older access that has not passed its fault point
(spec/07 R179, spec/22 R409). -/
def Wave.cutOpen (w : Wave) : Bool := w.leaseDst.isSome || w.ahead

/-- A read of a device-class page for the instruction a split stands at has been sent: it is performed once, so no async trap comes between (spec/16 R317). -/
def Wave.lookHeld (w : Wave) : Bool :=
  match w.look with
  | some (_, pc, true) => w.splits.any (fun x => x.pc == pc)
  | _ => false

/-- The cut of a wave by number is held open. -/
def State.cutOpen (s : State) (wi : Nat) : Bool :=
  match s.waves[wi]? with
  | none => false
  | some w => w.cutOpen

/-- The same, with the "empty read" trap that the split's instruction has raised: what it read may be full by the time the cut is formed. -/
def State.owe (s : State) (wi si : Nat) (t : Trap) : State :=
  (s.stall wi si).updWave wi (fun w => { w with splits := updAt w.splits si (fun x => { x with due := if t.cause = 4 then some t else x.due }) })

/-- A trap with the state it keeps, or, while an older instruction is still to complete, a wait: the trap recurs (spec/07 R179), that of an empty read
being kept (R57). -/
def State.trapOr (s s' : State) (wi si : Nat) (pc : Word) (t : Trap) (write fetch : Bool) : State :=
  if s.cutOpen wi then s.owe wi si t else (s'.takeTrap wi si pc t write fetch).bump

/-- Completion (spec/04 R104, R107): the loop step, the next program counter and the merges; a transfer out of range traps before the
instruction, which then has no effect. -/
def State.complete (s s' : State) (wi si : Nat) (sp : Split) (next stepPc : Word) (taken : Bool) : State :=
  let (to', loops') := loopStep 3 sp.loops next stepPc taken
  if highBits to' && (taken || to' != next) then s.trapOr s wi si sp.pc ⟨7, 1, to'⟩ false false
  else (s'.updWave wi (fun w => w.advance si sp to' loops')).bump

/-- A trap after completion: the loop step first, then the trap at the resulting next address (spec/04 R108). -/
def State.completeTrap (s s' : State) (wi si : Nat) (sp : Split) (t : Trap) : State :=
  let (to', loops') := loopStep 3 sp.loops (sp.pc + 4) sp.pc false
  if highBits to' && to' != sp.pc + 4 then s.trapOr s wi si sp.pc ⟨7, 1, to'⟩ false false
  else
    let moved := s'.updWave wi (fun w => { w with splits := updAt w.splits si (fun x => { x with pc := to', loops := loops' }) })
    s.trapOr moved wi si to' t false false

/-- The state after an instruction whose body answered `r`. -/
def State.retire (s : State) (wi si : Nat) (sp : Split) (r : Res) : State :=
  match r with
  | .done s' => s.complete s' wi si sp (sp.pc + 4) sp.pc false
  | .goto s' next stepPc taken => s.complete s' wi si sp next stepPc taken
  | .trap t => s.trapOr s wi si sp.pc t false false
  | .trapIn s' t write => s.trapOr s' wi si sp.pc t write false
  | .after s' t => s.completeTrap s' wi si sp t
  | .wait => s.hold wi si
  | .waitIn s' => s'.hold wi si
  | .stall => s.stall wi si
  | .stallIn s' => s'.stall wi si
  | .left s' => s'.bump

/-- The instruction of the split that issues: nothing happens where there is none. -/
def State.runWave (s : State) (k : Nat → Nat → Wave → Split → Res) : Out State :=
  match s.waves[s.cur.wave]? with
  | none => .next s
  | some w => match w.splits[s.cur.split]? with
    | none => .next s
    | some sp => .next (s.retire s.cur.wave s.cur.split sp (k s.cur.wave s.cur.split w sp))

/-- What an instruction reads and writes, for the checks of R57, R56 and R193: scalar sources with positions; vector registers read with positions;
of these, the ones read in the sense of R193; scalar and vector destinations. -/
structure Uses where
  ss : List (Reg × Nat) := []
  vs : List (Nat × Nat) := []
  vread : List (Nat × Nat) := []
  sd : List Reg := []
  vd : List Nat := []

/-- Source positions in order: a, b, c. -/
def byPos (p : Nat) (l : List (Nat × Bool × Nat × Bool)) : List (Nat × Bool × Nat × Bool) := l.filter (fun x => x.2.2.1 == p)

/-- Every source as number, file (true for vector), position and whether it is empty or poisoned, in the order a, b, c. -/
def Uses.sources (u : Uses) (bad : Bool → Nat → Bool) : List (Nat × Bool × Nat × Bool) :=
  let all := u.ss.map (fun (r, p) => (r.toNat, false, p, bad false r.toNat)) ++ u.vs.map (fun (r, p) => (r, true, p, bad true r))
  byPos 0 all ++ byPos 1 all ++ byPos 2 all

/-- The traps that come before poison in the order of spec/07 R178: loop depth, window, misaligned, translation. -/
def Trap.early (t : Trap) : Bool := t.cause == 10 || t.cause == 6 || t.cause == 5 || t.cause == 8

/-- Among the traps of a body, one that comes before the poison of a register. -/
def Res.unlessEarly (r : Res) (early : Trap → Bool) (poison : Trap) : Res :=
  match r with
  | .trap t => if early t then r else .trap poison
  | .trapIn _ t _ => if early t then r else .trap poison
  | _ => .trap poison

/-- The sources of an instruction that are empty. -/
def Wave.emptySources (w : Wave) (u : Uses) : List (Nat × Bool × Nat × Bool) :=
  (u.sources (fun v n => if v then !w.vIsFull n else !w.sIsFull (BitVec.ofNat 5 n))).filter (fun x => x.2.2.2)

/-- An empty source whose FE bit is set traps, any other waits (R57); else what follows. -/
def Wave.emptyGate (w : Wave) (u : Uses) (k : Unit → Res) : Res :=
  match (w.emptySources u).find? (fun x => w.fe x.2.2.1) with
  | some x => .trap ⟨4, 0, word (x.1 + 256 * x.2.2.1)⟩
  | none => if !(w.emptySources u).isEmpty then .wait else k ()

/-- The sources of an instruction that are read poisoned (R193). -/
def Wave.poisonedSources (w : Wave) (u : Uses) : List (Nat × Bool × Nat × Bool) :=
  (({ u with vs := u.vread } : Uses).sources (fun v n => if v then w.vIsPois n else w.sIsPois (BitVec.ofNat 5 n))).filter (fun x => x.2.2.2)

/-- The checks between the vector-state checks and the instruction's own: the empty sources; a poisoned source traps (R193) unless `meets` finds, for each
poisoned one, that a trap of the body which `early` names comes first (R178); an empty destination waits (R56); then the body runs. -/
def Wave.gateWith (w : Wave) (u : Uses) (early : Trap → Bool) (meets : Nat × Bool → Bool) (k : Unit → Res) : Res :=
  w.emptyGate u (fun _ => match (w.poisonedSources u).head? with
    | some x =>
      let t : Trap := ⟨9, 1, word (x.1 + 256 * x.2.2.1 + 4096 * b2n x.2.1)⟩
      if (w.poisonedSources u).all (fun x => meets (x.1, x.2.1)) then (k ()).unlessEarly early t else .trap t
    | none =>
      if u.sd.all w.sIsFull && u.vd.all w.vIsFull then k () else .wait)

/-- The same for an instruction that makes all its own checks at once. -/
def Wave.gate (w : Wave) (u : Uses) (k : Unit → Res) : Res := w.gateWith u Trap.early (fun _ => true) k

/-- A scalar instruction: the sources and destinations checked, then its body. -/
def State.scalar (s : State) (ss : List (Reg × Nat)) (sd : List Reg) (k : Nat → Nat → Wave → Split → Res) : Out State :=
  s.runWave (fun wi si w sp => w.gate { ss := ss, sd := sd } (fun _ => k wi si w sp))

/-- The state with scalar register `d` of the issuing wave written. -/
def State.setReg (s : State) (wi : Nat) (d : Reg) (v : Word) : State := s.updWave wi (fun w => w.wr d v)

/-- A scalar result computed from the wave: one write, then the next instruction. -/
def State.compute (s : State) (ss : List (Reg × Nat)) (d : Reg) (f : Wave → Word) : Out State :=
  s.scalar ss [d] (fun wi _ w _ => .done (s.setReg wi d (f w)))

end Sys2Proof.Machine
end

