-- ==== Sys2Proof/Machine/Operands.lean ====
section
/-! DEFINITION. The operand forms of the scalar instructions: the two widths of IOP (spec/04 R97), the immediates (R98, R99), the base and
offset of a load or store (R100), branch targets (R103) and the words a privilege trap reports (spec/07 Table 7.1). -/

namespace Sys2Proof.Machine

/-- The width of an IOP: 64, or 32 for the .w form (R97). -/
def iopWidth (x : BitVec 1) : Nat := if x = 1 then 32 else 64

/-- What an IOP function sees: n, the operands unsigned and signed (R97). -/
structure IopIn where
  n : Nat
  ua : Nat
  ub : Nat
  ia : Int
  ib : Int

/-- The operands of an IOP (R97). -/
def iopIn (x : BitVec 1) (va vb : Word) : IopIn :=
  let n := iopWidth x
  ⟨n, va.toNat % 2 ^ n, vb.toNat % 2 ^ n, sextN n va.toNat, sextN n vb.toNat⟩

/-- The shift amount of an IOP (R97). -/
def IopIn.sh (o : IopIn) : Nat := o.ub % o.n

/-- The value an IOP writes: sext(r mod 2^n, n) (R97). -/
def iopOut (n : Nat) (r : Int) : Word := wordI (sextN n (r % (2 ^ n : Nat)).toNat)

/-- An IOP of two registers. -/
def State.iop (s : State) (d a b : Reg) (x : BitVec 1) (f : IopIn → Int) : Out State :=
  s.compute [(a, 0), (b, 1)] d (fun w => iopOut (iopWidth x) (f (iopIn x (w.rd a) (w.rd b))))

/-- An IOP of one register (CLZ, CTZ, POPC). -/
def State.iop1 (s : State) (d a : Reg) (x : BitVec 1) (f : IopIn → Int) : Out State :=
  s.compute [(a, 0)] d (fun w => iopOut (iopWidth x) (f (iopIn x (w.rd a) 0)))

/-- The width of SEXT and ZEXT, 8 × 2^b (Table 4.2). -/
def extWidth (b : Reg) : Nat := 8 * 2 ^ b.toNat

/-- imm16 sign-extended to 64 bits. -/
def simm (imm : BitVec 16) : Word := imm.signExtend 64

/-- The address of a load or store: s[base] + sext(off13) (R100). -/
def ea (w : Wave) (a : Reg) (off : BitVec 13) : Word := w.rd a + off.signExtend 64

/-- A branch target: pc + 4 × offset (R103). -/
def target16 (pc : Word) (off : BitVec 16) : Word := pc + off.signExtend 64 * 4

/-- The same with 26 bits. -/
def target26 (pc : Word) (off : BitVec 26) : Word := pc + off.signExtend 64 * 4

/-- The word of an instruction, zero-extended, as TRAPVAL of causes 1 to 3 (Table 7.1). -/
def wordOf (i : Instr) : Word := ((encodeWord i).getD 0).setWidth 64

/-- The privilege trap of an instruction (spec/00 R3). -/
def privilege (i : Instr) : Res := .trap ⟨2, 0, wordOf i⟩

/-- Illegal-instruction with subcode "reserved field" (spec/00 R11). -/
def reservedField (i : Instr) : Res := .trap ⟨1, 5, wordOf i⟩

end Sys2Proof.Machine
end

