-- ==== Sys2Proof/Machine/Atomic.lean ====
section
/-! DEFINITION. Accesses of the scalar path and the fences: spec/04 R100 to R102, spec/06 R157 to R164; and the requests a wave sends to
another device (spec/22 R405 to R409). -/

namespace Sys2Proof.Machine

/-! ### Remote accesses -/

/-- Where a fetch or descriptor read on another device stands. -/
inductive Remote where
  /-- Nothing was asked, or the answer is here. -/
  | ready (a : RemoteAnswer)
  | pending
  | sent (s : State)

/-- The request is one that sent this operation alone. -/
def RemoteOut.only (r : RemoteOut) (op : Nat × RemoteOp) : Bool :=
  match r.ops with
  | [x] => x.1 == op.1 && x.2.2 == op.2
  | _ => false

/-- A read of another device that an instruction of a wave needs before it issues: sent once, its answer found when the instruction is tried again; `dev` says
that its page is of device class (spec/16 R317). -/
def State.lookRemote (s : State) (wi : Nat) (w : Wave) (pc : Word) (op : Nat × RemoteOp) (dev : Bool) : Remote :=
  let part := (s.ctxOf w).part
  let send : Remote :=
    if s.reaches part op.1 then .sent ((s.sendRemote part [op] (.look wi)).updWave wi (fun w => { w with look := some (s.fabric.out.length, pc, dev) }))
    else .ready ⟨[], [], some 0⟩
  match w.look with
  | none => send
  | some (q, at', _) =>
    match s.fabric.out[q]? with
    | some r =>
      if at' = pc && r.only op then
        match r.answer with
        | some x => .ready x
        | none => .pending
      else send
    | none => send

/-- The read of a wave is over. -/
def State.looked (s : State) (wi : Nat) : State := s.updWave wi (fun w => { w with look := none })

/-- A remote access issues (R409): its operations are sent, up to the first whose device no port reaches, its destination is empty (spec/02 R56), and until
the answer it has not passed its fault point (R63). A second one of the wave waits. -/
def State.startAsk (s : State) (wi si : Nat) (w : Wave) (kind : AskKind) (ops : List (Nat × RemoteOp)) : Res :=
  let part := (s.ctxOf w).part
  let bad := s.firstUnreached part ops
  let live := match bad with | none => ops | some k => ops.take k
  let s' := s.sendRemote part live (.access wi)
  if w.ahead then .stall
  else .done (s'.updWave wi (fun w => { w with
    ask := some ⟨s.fabric.out.length, bad, si, w.splits, w.pend.length, [], kind, s.fabric.out.length⟩
    ahead := true
    sFull := match kind with
      | .load d _ _ _ | .atomic d _ _ => if d = 0 then w.sFull else setBit32 w.sFull d.toNat false
      | .store _ | .vector _ => w.sFull
    vFull := match kind with
      | .vector x => if x.op = .store then w.vFull else fullRegs w.vFull x.d.toNat w.grp false
      | _ => w.vFull }))

/-- The access of a wave has its answer and cannot trap any more: the history buffer holds until the fault point is passed (R63). -/
def Wave.answered (w : Wave) : Wave := { w with ask := none }

/-- The scalar result of an answered access is in flight. -/
def Wave.arrives (w : Wave) (d : Reg) (v : Word) (bad : Bool) : Wave :=
  if d = 0 then w.answered else { w.answered with pend := w.pend ++ [.scalar d v bad] }

/-- The access of a wave failed: it and everything younger is undone (R64), and its trap is taken; where an older instruction is still to complete, or the wave
is stopped, the access recurs when it executes again (spec/07 R179); the cut of a hard stop that waited for it is then formed (spec/14 R294). -/
def State.askFailed (s : State) (wi : Nat) (w : Wave) (q : RemoteAsk) (t : Trap) (write : Bool) (stops : Bool) : State :=
  let s := s.updWave wi (fun w => w.unwind q)
  match q.splits[q.split]? with
  | none => s
  | some sp =>
    if w.leaseDst.isSome || stops then s.updWave wi (fun w => { w with ahead := w.suspended }) else s.takeTrap wi q.split sp.pc t write false

/-- A translated access leaves its translation in the TLBs of its core and cluster (spec/16 R319). -/
def State.touched (s : State) (w : Wave) (a : Word) : State :=
  if bit a.toNat 56 then s else s.fillTlb (s.ctxOf w) (s.coreOf w) a.toNat

/-- `n` bytes at a key, within one granule. -/
def State.readAt (s : State) (key n : Nat) : Read :=
  if s.poisoned key n then ⟨0, true⟩ else ⟨s.valueAt key n, false⟩

/-- `n` bytes from a remote answer, from byte `i`. -/
def answerAt (a : RemoteAnswer) (i n : Nat) : Read :=
  if ((a.poisoned.drop i).take n).any id then ⟨0, true⟩ else ⟨leValue ((a.bytes.drop i).take n), false⟩

/-- The trap of an access that resolves to none, its address as TRAPVAL. -/
def accTrap (cause sub : Nat) (a : Word) : Trap := ⟨cause, sub, a⟩

/-! ### Accesses of other paths that are still to be performed (R147) -/

/-- Bytes of one unit: 0 for the memory here, one more than its number for another device; address and count. -/
abbrev Span := Nat × Nat × Nat

/-- Two spans share a byte. -/
def Span.meets (x y : Span) : Bool := x.1 == y.1 && decide (x.2.1 < y.2.1 + y.2.2) && decide (y.2.1 < x.2.1 + x.2.2)

/-- The span of `n` bytes at a place. -/
def Place.span (p : Place) (n : Nat) : Span :=
  match p with
  | .here key _ => (0, key, n)
  | .away d a _ => (d + 1, a, n)

/-- The place and bytes an operation acts on. -/
def opSpan : RemoteOp → Nat × Nat
  | .read a n => (a, n)
  | .write a l _ => (a, l.length)
  | .amo _ w a _ => (a, if w then 4 else 8)
  | .cas w a _ _ => (a, if w then 4 else 8)
  | .rred _ f a _ _ => (a, if f = 1 ∨ f = 2 then 2 else 4)
  | .rsig a _ => (a, 8)

/-- SPACE turns a sum into an address (R149): none where bits [63:40] of the sum are set under a nonzero SPACE. -/
def spaceAddr (space : Nat) (sum : Word) : Option Word :=
  if space = 0 then some sum
  else if sum.toNat < 2 ^ 40 then some (word (windowBase (space - 1) + sum.toNat)) else none

/-- Elements of a stream in all. -/
def Stream.total (t : Stream) : Nat := t.count * t.rows

/-- The sum of element `e` of a memory stream (R165). -/
def Stream.sum (t : Stream) (e : Nat) : Word :=
  t.base + word (e / t.count) * t.rowStride + word (e % t.count) * t.stride

/-- The spans of elements `from` up to, not including, `to` of a memory stream. -/
def State.elemSpans (s : State) (wi : Nat) (w : Wave) (t : Stream) (kind : AccKind) (from' to' : Nat) : List Span :=
  let n := sewOf t.fmt / 8
  (List.range (to' - from')).filterMap (fun k =>
    (spaceAddr t.space (t.sum (from' + k))).bind (fun a => match s.resolve wi w a n n kind with
      | .ok p => some (p.span n)
      | .trap _ _ => none))

/-- A memory stream's take is due and not stopped; a fence goes past one that a fault has stopped (R164; the model's choice: log entry 153). -/
def Stream.takes (t : Stream) : Bool := t.kind == 2 && t.due && t.err.isNone

/-- A memory stream's fill is to come and not stopped. -/
def Stream.fills (t : Stream) : Bool := t.kind == 1 && !t.full && !t.drained && t.err.isNone && decide (t.done < t.total)

/-- The bytes a take of a stream is still to write. -/
def State.takeSpan (s : State) (wi : Nat) (w : Wave) (t : Stream) : List Span :=
  s.elemSpans wi w t .write (max t.filled t.done) (min (t.done + t.chunk) t.total)

/-- The bytes a fill of a stream is still to read. -/
def State.fillSpan (s : State) (wi : Nat) (w : Wave) (t : Stream) : List Span :=
  s.elemSpans wi w t .read (t.done + t.part.length) (min (t.done + t.chunk) t.total)

/-- The bytes the due takes of the wave are still to write. -/
def State.takeSpans (s : State) (wi : Nat) (w : Wave) : List Span := (w.streams.filter Stream.takes).flatMap (s.takeSpan wi w)

/-- The bytes the fills of the wave that are to come read. -/
def State.fillSpans (s : State) (wi : Nat) (w : Wave) : List Span := (w.streams.filter Stream.fills).flatMap (s.fillSpan wi w)

/-- The bytes that the wave's fabric operations without an acknowledgement update. -/
def State.fabricSpans (s : State) (wi : Nat) : List Span :=
  (s.fabric.out.filter (fun r => r.answer.isNone && (match r.use with | .fabric i _ _ => i == wi | _ => false))).flatMap (fun r =>
    r.ops.map (fun x => (if x.1 = s.fabric.devid then 0 else x.1 + 1, opSpan x.2.2)))

/-! ### Where a copy reads and writes (spec/12 R255, R263) -/

/-- A byte on the scratchpad side lies in window 0 or 1 within its limit. -/
def State.localByte (s : State) (b : Block) (a : Word) : Option Nat :=
  let v := a.toNat
  if bit v 56 && bits v 63 57 == 0 && bits v 55 48 == 0 && decide (bits v 47 40 ≤ 1) then
    s.windowKey 0 0 b (bits v 47 40) (bits v 39 0) 1
  else none

/-- A byte on the global side that lies in window 2. -/
def State.vaultByte (s : State) (b : Block) (a : Word) : Option Nat :=
  let v := a.toNat
  if bits v 63 57 == 0 && bits v 55 48 == 0 && bits v 47 40 == 2 then s.windowKey 0 0 b 2 (bits v 39 0) 1 else none

/-- The block whose windows a copy uses; a COPY packet has none and reaches the vaults only. -/
def State.copyBlock (s : State) (c : Copy) : Block :=
  match c.block with
  | some i => s.block i
  | none => { Block.blank with ctx := c.ctx }

/-- The place of a byte of a copy. -/
def State.cplace (s : State) (c : Copy) (loc : Bool) (kind : AccKind) (a : Word) : CPlace :=
  if loc then match s.localByte (s.copyBlock c) a with
    | some k => .at k
    | none => .err
  else if bit a.toNat 56 then match s.vaultByte (s.copyBlock c) a with
    | some k => .at k
    | none => .err
  else if c.declined.contains (a.toNat / 4096, kind == .write) then .err
  else if highBits a then .fault 1
  else match s.translate (s.ctx c.ctx) c.core a.toNat kind with
    | .ok (.here k false) => .at k
    | .ok (.away dev x false) => .away dev x
    | .ok _ => .err
    | .trap _ sub => .fault sub

/-- The bytes a sealed chunk takes in memory (R263). -/
def chunkBytes : Nat := 4112

/-- The chunks that `n` plaintext bytes from `p` touch, at most `n` of them. -/
def chunksOf (p n : Nat) : List Nat := (List.range ((p + n - 1) / 4096 + 1 - p / 4096)).map (fun i => p / 4096 + i)

/-- The plaintext offset of row `r` of a sealed copy. -/
def sealedRow (off : Nat) (stride : Word) (r : Nat) : Nat := off + r * stride.toNat

/-- The chunks of a sealed copy, each once, in the order of its rows. -/
def Copy.chunks (c : Copy) : List Nat :=
  match c.src with
  | .sealed _ off stride _ _ =>
    ((List.range c.rows).flatMap (fun r => chunksOf (sealedRow off stride r) c.rowBytes)).foldl (fun l x => if l.contains x then l else l ++ [x]) []
  | _ => []

/-- `n` bytes from an address in pieces that lie in one unit of 256 bytes. -/
def addrPieces (a : Word) (n : Nat) : List (Word × Nat) :=
  let first := min n (256 - a.toNat % 256)
  (a, first) :: (List.range ((n - first + 255) / 256)).map (fun k => (a + word (first + 256 * k), min 256 (n - first - 256 * k)))

/-- The pieces of memory an end of a copy takes. -/
def Copy.pieces (c : Copy) (e : CopyEnd) : List (Word × Nat) :=
  match e with
  | .mem base stride => (List.range c.rows).flatMap (fun r => addrPieces (base + word r * stride) c.rowBytes)
  | .slot _ => []
  | .sealed base _ _ _ _ => c.chunks.flatMap (fun n => addrPieces (base + word (chunkBytes * n)) chunkBytes)

/-- The span of `n` bytes at a place of a copy. -/
def CPlace.span (p : CPlace) (n : Nat) : Option Span :=
  match p with
  | .at k => some (0, k, n)
  | .away d a => some (d + 1, a, n)
  | _ => none

/-- The bytes of an end of a copy. -/
def State.endSpans (s : State) (c : Copy) (e : CopyEnd) (loc : Bool) (kind : AccKind) : List Span :=
  match e with
  | .slot n => [(0, memKey .slot (c.core * 16 + n) 0, c.rows * c.rowBytes)]
  | _ => (c.pieces e).filterMap (fun x => (s.cplace c loc kind x.1).span x.2)

/-- The bytes a copy writes, and with `both` those it reads. -/
def State.copySpan (s : State) (c : Copy) (both : Bool) : List Span :=
  s.endSpans c c.dst c.dstLocal .write ++ (if both then s.endSpans c c.src c.srcLocal .read else [])

/-- The same of every copy of the wave that has not completed. -/
def State.copySpans (s : State) (wi : Nat) (both : Bool) : List Span :=
  (s.copies.filter (fun c => c.wave == some wi && !c.finished)).flatMap (fun c => s.copySpan c both)

/-- The bytes here that a list of accesses of `n` bytes touches. -/
def hereSpans (n : Nat) (l : List VAcc) : List Span :=
  l.filterMap (fun x => match x.acc with
    | .ok (.here key _) => some (0, key, n)
    | _ => none)

/-- The bytes here that a vector access of the wave, whose answer is to come, is still to write (spec/02 R61, spec/22 R409). -/
def Wave.askSpans (w : Wave) : List Span :=
  match w.ask with
  | some q => match q.kind with
    | .vector x => match x.op with
      | .load => []
      | _ => hereSpans x.n x.todo
    | _ => []
  | none => []

/-- A load or atomic of the scalar path awaits its answer: a younger load of that path is performed after it (R146), and after one of acquire order
every younger access of the path is (R161). -/
def Wave.scalarOut (w : Wave) : Bool :=
  match w.ask with
  | some q => match q.kind with
    | .load .. | .atomic .. => true
    | .store .. | .vector .. => false
  | none => false

/-- An older fabric operation of the wave is still to update one of these bytes. -/
def State.fabricPathWait (s : State) (wi : Nat) (l : List Span) : Bool :=
  !s.fabric.out.isEmpty && (s.fabricSpans wi).any (fun x => l.any x.meets)

/-- An older copy of the wave is still to touch one of these bytes; for a read, only its writes count. -/
def State.copyPathWait (s : State) (wi : Nat) (l : List Span) (writes : Bool) : Bool :=
  !s.copies.isEmpty && (s.copySpans wi writes).any (fun x => l.any x.meets)

/-- Either of the two. -/
def State.farPathWait (s : State) (wi : Nat) (l : List Span) (writes : Bool) : Bool :=
  s.fabricPathWait wi l || s.copyPathWait wi l writes

/-- An older stream access of the wave is still to touch one of these bytes. -/
def State.streamPathWait (s : State) (wi : Nat) (w : Wave) (l : List Span) (writes : Bool) : Bool :=
  (w.streams.any Stream.takes && (s.takeSpans wi w).any (fun x => l.any x.meets))
    || (writes && w.streams.any Stream.fills && (s.fillSpans wi w).any (fun x => l.any x.meets))

/-- An access to these bytes must wait for an older one of the wave on the vector, stream, fabric or copy path that touches one of them (R147). -/
def State.pathWait (s : State) (wi : Nat) (w : Wave) (l : List Span) (writes : Bool) : Bool :=
  s.streamPathWait wi w l writes || s.farPathWait wi l writes || w.askSpans.any (fun x => l.any x.meets)

/-- The next accesses of these streams must wait for an older one of the wave on the fabric or copy path: an instruction that calls for them waits (R147). -/
def State.streamsHeld (s : State) (wi : Nat) (w : Wave) (used : List Nat) : Bool :=
  (!s.fabric.out.isEmpty || !s.copies.isEmpty) && (w.streams.filter (fun t => used.contains t.reg)).any (fun t =>
    match t.kind with
    | 1 => s.farPathWait wi (s.elemSpans wi w t .read t.filled (min (t.filled + t.chunk) t.total)) false
    | 2 => s.farPathWait wi (s.takeSpan wi w t) true
    | _ => false)

/-! ### Scalar loads and stores -/

/-- The word an LDS of `n` bytes delivers, extended by sign or by zero (Table 4.5). -/
def ldsWord (n : Nat) (signed : Bool) (v : Nat) : Word := if signed then wordI (sextN (8 * n) v) else word v

/-- An LDS of `n` bytes, extended by sign or by zero (R100, Table 4.5): the result arrives later. It waits behind a load or atomic of its path (R146, R161).
During run-ahead one to a device-class page waits (spec/02 R63), and so does one to another device, the wave having one request out. -/
def State.lds (s : State) (d a : Reg) (off : BitVec 13) (n : Nat) (signed : Bool) : Out State :=
  s.scalar [(a, 0)] [d] (fun wi si w _ =>
    let e := ea w a off
    match s.resolve wi w e n n .read with
    | .trap c sub => .trap (accTrap c sub e)
    | .ok p =>
      if w.scalarOut || s.pathWait wi w [p.span n] false then .stall
      else match p with
        | .here key dev =>
          if dev && w.ahead then .stall
          else
            let r := s.readAt key n
            .done ((s.touched w e).updWave wi (fun w => w.later d (ldsWord n signed r.val) r.bad))
        | .away dev addr _ =>
          if !s.reaches (s.ctxOf w).part dev then .trap ⟨17, 0, e⟩
          else (s.touched w e).startAsk wi si w (.load d n signed e) [(dev, .read addr n)])

/-- An STS of `n` bytes (R101). -/
def State.sts (s : State) (d a : Reg) (off : BitVec 13) (n : Nat) : Out State :=
  s.scalar [(a, 0), (d, 2)] [] (fun wi si w _ =>
    let e := ea w a off
    let v := (w.rd d).toNat % 2 ^ (8 * n)
    match s.resolve wi w e n n .write with
    | .trap c sub => .trapIn s (accTrap c sub e) true
    | .ok p =>
      if s.pathWait wi w [p.span n] true then .stall
      else match p with
        | .here key _ => .done (((s.touched w e).stored w e n).storeN key n v)
        | .away dev addr _ =>
          if !s.reaches (s.ctxOf w).part dev then .trapIn s ⟨17, 0, e⟩ true
          else ((s.touched w e).stored w e n).startAsk wi si w (.store e) [(dev, .write addr (leBytes n v) false)])

/-- LDS.S8. -/
def execLdsS8 (d a : Reg) (off : BitVec 13) (s : State) : Out State := s.lds d a off 1 true
/-- LDS.S16. -/
def execLdsS16 (d a : Reg) (off : BitVec 13) (s : State) : Out State := s.lds d a off 2 true
/-- LDS.S32. -/
def execLdsS32 (d a : Reg) (off : BitVec 13) (s : State) : Out State := s.lds d a off 4 true
/-- LDS.S64. -/
def execLdsS64 (d a : Reg) (off : BitVec 13) (s : State) : Out State := s.lds d a off 8 true
/-- LDS.N8. -/
def execLdsN8 (d a : Reg) (off : BitVec 13) (s : State) : Out State := s.lds d a off 1 false
/-- LDS.N16. -/
def execLdsN16 (d a : Reg) (off : BitVec 13) (s : State) : Out State := s.lds d a off 2 false
/-- LDS.N32. -/
def execLdsN32 (d a : Reg) (off : BitVec 13) (s : State) : Out State := s.lds d a off 4 false
/-- STS.8. -/
def execSts8 (d a : Reg) (off : BitVec 13) (s : State) : Out State := s.sts d a off 1
/-- STS.16. -/
def execSts16 (d a : Reg) (off : BitVec 13) (s : State) : Out State := s.sts d a off 2
/-- STS.32. -/
def execSts32 (d a : Reg) (off : BitVec 13) (s : State) : Out State := s.sts d a off 4
/-- STS.64. -/
def execSts64 (d a : Reg) (off : BitVec 13) (s : State) : Out State := s.sts d a off 8

/-! ### Atomics -/

/-- The new value of an atomic of width n on patterns (Table 6.4). -/
def amoNew (fn n old v : Nat) : Nat :=
  match fn with
  | 0 => (old + v) % 2 ^ n
  | 1 => old &&& v
  | 2 => old ||| v
  | 3 => old ^^^ v
  | 4 => if sextN n old ≤ sextN n v then old else v
  | 5 => if sextN n old ≤ sextN n v then v else old
  | 6 => min old v
  | 7 => max old v
  | 8 => v
  | _ => addRne (if n = 32 then 1 else 0) old v

/-- An atomic at s[a] on `n` bits whose new value is `f` of the old one, none where nothing is written (R157, R159): the old value arrives later; a
poisoned location traps before any update (spec/07 R193). -/
def State.atomic (s : State) (d a : Reg) (n : Nat) (ss : List (Reg × Nat)) (f : Wave → Nat → Option Nat) (op : Wave → Nat → RemoteOp) : Out State :=
  s.scalar ((a, 0) :: ss) [d] (fun wi si w _ =>
    let e := w.rd a
    match s.resolve wi w e (n / 8) (n / 8) .write with
    | .trap c sub => .trapIn s (accTrap c sub e) true
    | .ok p =>
      if s.pathWait wi w [p.span (n / 8)] true then .stall
      else match p with
        | .here key _ =>
          if s.poisoned key (n / 8) then .trap ⟨9, 2, e⟩
          else
            let old := s.valueAt key (n / 8)
            let s := s.touched w e
            .done ((match f w old with
              | some v => (s.stored w e (n / 8)).storeN key (n / 8) v
              | none => s.latched w e).updWave wi (fun w => w.later d (wordI (sextN n old)) false))
        | .away dev addr _ =>
          if !s.reaches (s.ctxOf w).part dev then .trapIn s ⟨17, 0, e⟩ true
          else ((s.touched w e).latched w e).startAsk wi si w (.atomic d (n / 8) e) [(dev, op w addr)])

/-- An AMO of function `fn` (R157). -/
def State.amo (s : State) (fn : Nat) (d a b : Reg) (x : BitVec 1) : Out State :=
  let n := iopWidth x
  let v (w : Wave) : Nat := (w.rd b).toNat % 2 ^ n
  s.atomic d a n [(b, 1)] (fun w old => some (amoNew fn n old (v w))) (fun w addr => .amo fn (n == 32) addr (word (v w)))

/-- AMO.ADD. -/
def execAmoAdd (d a b : Reg) (w : BitVec 1) (_c : Reg) (s : State) : Out State := s.amo 0 d a b w
/-- AMO.AND. -/
def execAmoAnd (d a b : Reg) (w : BitVec 1) (_c : Reg) (s : State) : Out State := s.amo 1 d a b w
/-- AMO.OR. -/
def execAmoOr (d a b : Reg) (w : BitVec 1) (_c : Reg) (s : State) : Out State := s.amo 2 d a b w
/-- AMO.XOR. -/
def execAmoXor (d a b : Reg) (w : BitVec 1) (_c : Reg) (s : State) : Out State := s.amo 3 d a b w
/-- AMO.MIN. -/
def execAmoMin (d a b : Reg) (w : BitVec 1) (_c : Reg) (s : State) : Out State := s.amo 4 d a b w
/-- AMO.MAX. -/
def execAmoMax (d a b : Reg) (w : BitVec 1) (_c : Reg) (s : State) : Out State := s.amo 5 d a b w
/-- AMO.MINN. -/
def execAmoMinn (d a b : Reg) (w : BitVec 1) (_c : Reg) (s : State) : Out State := s.amo 6 d a b w
/-- AMO.MAXN. -/
def execAmoMaxn (d a b : Reg) (w : BitVec 1) (_c : Reg) (s : State) : Out State := s.amo 7 d a b w
/-- AMO.SWAP. -/
def execAmoSwap (d a b : Reg) (w : BitVec 1) (_c : Reg) (s : State) : Out State := s.amo 8 d a b w
/-- AMO.FADD: nearest even, subnormals kept, no flag. -/
def execAmoFadd (d a b : Reg) (w : BitVec 1) (_c : Reg) (s : State) : Out State := s.amo 9 d a b w

/-- CAS (R159): a failed one writes nothing; the expected value is s[d], read before d is marked empty. -/
def execCas (d a b : Reg) (x : BitVec 1) (_c : Reg) (s : State) : Out State :=
  let n := iopWidth x
  let v (w : Wave) : Nat := (w.rd b).toNat % 2 ^ n
  let exp (w : Wave) : Nat := (w.rd d).toNat % 2 ^ n
  s.atomic d a n [(b, 1), (d, 2)] (fun w old => if old = exp w then some (v w) else none)
    (fun w addr => .cas (n == 32) addr (word (exp w)) (word (v w)))

/-! ### Fences -/

/-- A copy issued by a wave has not completed. -/
def State.copiesOut (s : State) (wi : Nat) : Bool := s.copies.any (fun c => c.wave == some wi && !c.finished)

/-- An RRED or RSIG of a wave has not completed (spec/22 R414). -/
def State.fabricOut (s : State) (wi : Nat) : Bool :=
  s.fabric.out.any (fun r => match r.use with
    | .fabric i _ _ => i == wi && r.answer.isNone
    | _ => false)

/-- An access of the wave's memory streams is still to be performed: a take that is due, or the fill that follows a binding or a consumption (R168, R169). Port
streams touch no memory (R174). -/
def Wave.streamsOut (w : Wave) : Bool := w.streams.any (fun t => t.takes || t.fills)

/-- A fence from these paths must wait: for the copies (bit 2), the fabric operations (bit 4) and the stream accesses (bit 5) of the wave, the other paths'
accesses being performed when they issue (log entry 6). -/
def State.fenceWaits (s : State) (wi : Nat) (w : Wave) (frm : BitVec 6) : Bool :=
  (frm.getLsbD 2 && s.copiesOut wi) || (frm.getLsbD 4 && s.fabricOut wi) || (frm.getLsbD 5 && w.streamsOut)

/-- The oldest fabric operation found unreachable, where the fence covers the fabric path (spec/22 R414). -/
def Wave.fenceFault (w : Wave) (frm : BitVec 6) : Option Word :=
  if frm.getLsbD 4 then (bestIdx (fun _ => true) (fun (x y : Nat × Word) => decide (x.1 < y.1)) w.fabFail 0 none).bind (fun i => (w.fabFail[i]?).map (·.2))
  else none

/-- What a fence does before an instruction goes on (R163, R164; spec/22 R414): it waits, or raises the wave's oldest fabric failure and clears them all. -/
def State.fenced (s : State) (wi : Nat) (w : Wave) (frm : BitVec 6) (k : Unit → Res) : Res :=
  if s.fenceWaits wi w frm then .stall
  else match w.fenceFault frm with
    | some a => .trapIn (s.updWave wi (fun w => { w with fabFail := [] })) ⟨17, 0, a⟩ false
    | none => k ()

/-- A fence over the paths of a from set. -/
def State.fencePaths (s : State) (frm : BitVec 6) : Out State :=
  s.scalar [] [] (fun wi _ w _ => s.fenced wi w frm (fun _ => .done s))

/-- FENCE (R162, R163): without seq_cst it orders the scalar path, whose accesses are performed in order; with it, all six paths. -/
def execFence (sq : BitVec 1) (_od : BitVec 2) (_scp : BitVec 3) (s : State) : Out State :=
  s.fencePaths (if sq = 1 then 0x3F else 0)

/-- FENCE.X (R164). -/
def execFenceX (frm _dst : BitVec 6) (s : State) : Out State := s.fencePaths frm

end Sys2Proof.Machine
end

