-- ==== Sys2Proof/Machine/Vec.lean ====
section
/-! DEFINITION. What the vector instructions share: elements and groups (spec/02 R43 to R45, R55, spec/05 R123), the checks of R126 in their
order, streams bound to a group (spec/06 R168 to R171), the write of elements with its poison, the flags with the arithmetic
trap (spec/03 R86) and the lane-cycle counters (spec/21 R402). -/

namespace Sys2Proof.Machine

/-- Bits of a register that belong to the wave or half. -/
def Wave.regBits (w : Wave) : Nat := if w.legacy then 1024 else 2048

/-- The register offset and the bit position of element `i` of width `sew` (spec/02 R43, R66). -/
def Wave.elemAt (w : Wave) (sew i : Nat) : Nat × Nat :=
  (i * sew / w.regBits, i * sew % w.regBits + (if w.legacy then 1024 * w.half else 0))

/-- Element `i` of the group from register `base`. -/
def Wave.getElem (w : Wave) (vf : VFile) (base sew i : Nat) : Nat :=
  let (r, p) := w.elemAt sew i
  ((vf.reg (base + r)).extractLsb' p sew).toNat

/-- A register with one field written. -/
def putBits (x : VReg) (p n v : Nat) : VReg :=
  (x &&& ~~~(BitVec.ofNat 2048 ((2 ^ n - 1) * 2 ^ p))) ||| BitVec.ofNat 2048 (v % 2 ^ n * 2 ^ p)

/-- Register `n` of a vector file replaced. -/
def VFile.setReg (f : VFile) (n : Nat) (x : VReg) : VFile := if h : n < 32 then { f with v := f.v.set n x h } else f

/-- Elements of a group written, as index and value. -/
def Wave.putElems (w : Wave) (base sew : Nat) (vf : VFile) (l : List (Nat × Nat)) : VFile :=
  l.foldl (fun vf (i, v) =>
    let (r, p) := w.elemAt sew i
    vf.setReg (base + r) (putBits (vf.reg (base + r)) p sew v)) vf

/-- The lane that governs element `i` (spec/02 R55): that of the type and group factor in force. -/
def Wave.lane (w : Wave) (i : Nat) : Nat := i * w.sew / 32 % w.lanes + w.laneBase

/-- Element `i` is active (spec/05 R123): below VL, its guard bit set, its lane in the issuing split. -/
def Wave.active (w : Wave) (sp : Split) (i : Nat) : Bool :=
  decide (i < w.vl) && (w.rdK w.guardReg).getLsbD (i % w.lanes) && sp.mask.getLsbD (w.lane i)

/-- The active elements in ascending order. -/
def Wave.actives (w : Wave) (sp : Split) : List Nat := (List.range w.vl).filter (w.active sp)

/-- Registers of a group of format `fmt` (spec/05 R137): max(1, q), with q = G × SEW(fmt) ÷ SEW(ETYPE); a q above 8 names no group. -/
def Wave.groupOf (w : Wave) (fmt : Nat) : Nat :=
  let q := w.grp * sewOf fmt / w.sew
  if q > 8 then 1 else max 1 q

/-- q exceeds 8: the subcode "group size". -/
def Wave.tooBig (w : Wave) (fmt : Nat) : Bool := decide (w.grp * sewOf fmt > 8 * w.sew)

/-- Registers of the group from `base` that hold one of the elements (spec/07 R193). -/
def Wave.regsOf (w : Wave) (base sew : Nat) (l : List Nat) : List Nat :=
  l.foldl (fun m i => insertNat (base + (w.elemAt sew i).1) m) []

/-- A vector operand that is read: first register, registers, source position, registers read in the sense of R193. -/
structure VRead where
  base : Nat
  count : Nat
  pos : Nat
  regs : List Nat

/-- What a vector instruction uses, for the checks of R126 and R170: its operands, whether the element type is accepted, whether a group is too
big, whether VL fits a mask, which traps of an element may come before the poison of a register, and whether one does, the register being given by
number and file (spec/07 R178). -/
structure VPlan where
  reads : List VRead := []
  writes : List (Nat × Nat) := []
  ss : List (Reg × Nat) := []
  sd : List Reg := []
  typeOk : Bool := true
  big : Bool := false
  maskOk : Bool := true
  early : Trap → Bool := Trap.early
  meets : Nat × Bool → Bool := fun _ => true

/-- Registers `base` … `base + count - 1`. -/
def regRange (base count : Nat) : List Nat := (List.range count).map (base + ·)

/-- A handler that has not claimed the vector state (spec/04 R117). -/
def Wave.unclaimed (w : Wave) : Bool := w.lvl != 0 && !w.claims.getLsbD w.lvl

/-- Every operand field is a multiple of its group's register count (spec/02 R43). -/
def VPlan.aligned (p : VPlan) : Bool :=
  p.reads.all (fun r => r.base % r.count == 0) && p.writes.all (fun g => g.1 % g.2 == 0)

/-- Two register ranges share a register. -/
def overlap (a m b n : Nat) : Bool := decide (a < b + n) && decide (b < a + m)

/-- R170: an operand that meets a bound group must name its first register; a read stream's group is not written, a write stream's not read. -/
def Stream.clash (t : Stream) (p : VPlan) : Bool :=
  let isRead := t.kind % 2 == 1
  p.reads.any (fun r => overlap r.base r.count t.reg t.g && (r.base != t.reg || !isRead))
    || p.writes.any (fun g => overlap g.1 g.2 t.reg t.g && (g.1 != t.reg || isRead))

/-- The stream operates on this instruction's operands. -/
def Stream.used (t : Stream) (p : VPlan) : Bool :=
  if t.kind % 2 == 1 then p.reads.any (fun r => r.base == t.reg) else p.writes.any (fun g => g.1 == t.reg)

/-- One stream of a wave changed. -/
def Wave.updStream (w : Wave) (reg : Nat) (f : Stream → Stream) : Wave :=
  { w with streams := w.streams.map (fun x => if x.reg = reg then f x else x) }

/-- The streams an instruction operates on, by first register. -/
def Wave.streamsUsed (w : Wave) (p : VPlan) : List Nat := (w.streams.filter (fun t => t.used p && !t.drained)).map (·.reg)

/-- After an instruction completes that operates on these streams: a read stream has its fill consumed, a write stream has a take due; the group is empty
until then, unless the stream is drained (R168, R169). -/
def Wave.streamsMoved (w : Wave) (used : List Nat) (now : Nat) : Wave :=
  w.streams.foldl (fun w t =>
    if !used.contains t.reg then w
    else
      let empty (w : Wave) : Wave := { w with vFull := fullRegs w.vFull t.reg t.g false }
      if t.kind % 2 == 1 then
        if t.total ≤ t.filled then w.updStream t.reg (fun x => { x with done := x.filled, drained := true })
        else empty (w.updStream t.reg (fun x => { x with done := x.filled, full := false, since := now }))
      else empty (w.updStream t.reg (fun x => { x with due := true, since := now }))) w

/-- The streams an instruction used move on once it has completed: at once, or, for an access of another device, with its answer (spec/22 R409). -/
def State.streamsAfter (s : State) (wi : Nat) (used : List Nat) : State :=
  if used.isEmpty then s
  else s.updWave wi (fun w => match w.ask with
    | some q => { w with ask := some { q with used := used } }
    | none => w.streamsMoved used s.now)

/-- Lane-cycles of a beat sequence over `regs` registers (R402): lanes in use, masked, beyond VL or gated, and lanes idle in those beats. The cap that
gates lanes is that of the last SETVL (spec/10 R224). -/
def Wave.laneCycles (w : Wave) (sp : Split) (isECore f64 : Bool) (regs : Nat) : Nat × Nat × Nat × Nat :=
  let per := max 1 (32 / w.sew)
  let lanes := w.lanes
  let inLane (r j : Nat) : List Nat :=
    if w.sew = 64 then [r * (lanes / 2) + j / 2] else (List.range per).map (fun e => r * lanes * per + j * per + e)
  let cls (r j : Nat) : Nat :=
    if j + w.laneBase ≥ w.cap then 2
    else if (inLane r j).any (w.active sp) then 0 else if (inLane r j).any (fun i => decide (i < w.vl)) then 1 else 2
  let groups := (List.range regs).flatMap (fun r => (List.range (lanes / 8)).map (fun c => (r, c)))
  let groups := if w.dt then
      groups.filter (fun (r, c) => (List.range 8).any (fun j => (inLane r (8 * c + j)).any (w.active sp)))
    else groups
  let count (k : Nat) : Nat :=
    groups.foldl (fun n (r, c) => n + ((List.range 8).filter (fun j => cls r (8 * c + j) == k)).length) 0
  let gpb := (if isECore then 2 else 8) / (if f64 then 2 else 1)
  let beats := (groups.length + gpb - 1) / gpb
  (count 0, count 1, count 2, 64 * beats - 8 * groups.length)

/-- The counters of a wave advanced: LCUSE, LCMASK, LCBEYOND, LCSTART, LCSTALL. -/
def State.addLanes (s : State) (w : Wave) (u m b st sl : Nat) : State :=
  s.updVFile w.vfile (fun f => { f with
    lc := Vector.ofFn (fun i : Fin 5 => f.lc[i] + word (match i.val with | 0 => u | 1 => m | 2 => b | 3 => st | _ => sl)) })

/-- What a vector instruction uses, in the terms of the gates. -/
def VPlan.uses (p : VPlan) : Uses where
  ss := p.ss
  vs := p.reads.flatMap (fun r => (regRange r.base r.count).map (·, r.pos))
  vread := p.reads.flatMap (fun r => r.regs.map (·, r.pos))
  sd := p.sd
  vd := p.writes.flatMap (fun g => regRange g.1 g.2)

/-- The same without the groups of the streams that a fault has stopped: those stay empty (R171). -/
def Wave.usesBeside (w : Wave) (p : VPlan) : Uses :=
  { p.uses with vs := p.uses.vs.filter (fun x => !w.streams.any (fun t => t.err.isSome && decide (t.reg ≤ x.1) && decide (x.1 < t.reg + t.g))) }

/-- A vector instruction: the checks of R126 and R170, the empty reads (R57), the faults of the streams it uses (R171, spec/07 R178), the other gates,
then its body; on completion the streams move on. -/
def State.vec (s : State) (i : Instr) (plan : Wave → Split → VPlan) (k : Nat → Nat → Wave → Split → Res) : Out State :=
  s.runWave (fun wi si w sp =>
    let p := plan w sp
    let bad (sub : Nat) : Res := .trap ⟨3, sub, wordOf i⟩
    if w.unclaimed then bad 5
    else if !p.aligned then bad 1
    else if p.big then bad 4
    else if !p.typeOk then bad 3
    else if !p.maskOk then bad 2
    else if w.streams.any (fun t => t.clash p) then bad 6
    else match w.streams.find? (fun t => t.used p && t.err.isSome) with
      | some t => w.emptyGate (w.usesBeside p) (fun _ => match t.err with
        | some (c, sub, a, _) => .trapIn (s.updWave wi (fun w => w.updStream t.reg (fun x => { x with told := true }))) ⟨c, sub, a⟩ (t.kind % 2 == 0)
        | none => .wait)
      | none =>
        w.gateWith p.uses p.early p.meets (fun _ =>
          let used := w.streamsUsed p
          if s.streamsHeld wi w used then .stall
          else match k wi si w sp with
          | .done s' => .done (s'.streamsAfter wi used)
          | .after s' t => .after (s'.streamsAfter wi used) t
          | r => r))

/-- Elements written to the group from `base` in the issuing wave; a register all of whose elements are written loses its poison (spec/07 R192). -/
def State.writeElems (s : State) (wi : Nat) (w : Wave) (base sew : Nat) (l : List (Nat × Nat)) : State :=
  let s := s.updVFile w.vfile (fun vf => w.putElems base sew vf l)
  let per := w.regBits / sew
  let idx := l.map (·.1)
  let whole := (w.regsOf base sew idx).filter (fun r =>
    ((idx.filter (fun i => base + (w.elemAt sew i).1 == r)).eraseDups).length == per)
  if whole.isEmpty then s
  else s.updWave wi (fun w => { w with vPois := whole.foldl (fun m r => setBit32 m r false) w.vPois })

/-- Flags raised by a completed instruction, and the arithmetic trap when ATRAP is set and NV, DZ or OF is among them (spec/03 R86). -/
def State.raiseFlags (s : State) (wi : Nat) (w : Wave) (sp : Split) (f : BitVec 8) : Res :=
  let s := s.updWave wi (fun w => w.flag f)
  if w.atrap && (f &&& (NV ||| DZ ||| OF)) != 0 then .after s ⟨11, 0, sp.pc⟩ else .done s

/-- A pattern as an element of a format holds it: an l6 container's top bits are zero (spec/02 R42). -/
def inFmt (fmt v : Nat) : Nat := if fmt = 7 then v % 64 else v % 2 ^ sewOf fmt

/-- Results of the active elements written to a group in format `fmt`, with the union of their flags. -/
def State.deliver (s : State) (wi : Nat) (w : Wave) (sp : Split) (base fmt : Nat) (l : List (Nat × FRes)) : Res :=
  let fl := l.foldl (fun f (x : Nat × FRes) => f ||| x.2.flags) 0
  (s.writeElems wi w base (sewOf fmt) (l.map (fun x => (x.1, inFmt fmt x.2.val)))).raiseFlags wi w sp fl

/-- A group operand of the element type in a field, read over the active elements. -/
def Wave.src (w : Wave) (sp : Split) (r : Reg) (pos : Nat) : VRead :=
  ⟨r.toNat, w.grp, pos, w.regsOf r.toNat w.sew (w.actives sp)⟩

/-- A group operand of format `fmt` read over the active elements (R137). -/
def Wave.srcFmt (w : Wave) (sp : Split) (fmt : Nat) (r : Reg) (pos : Nat) : VRead :=
  ⟨r.toNat, w.groupOf fmt, pos, w.regsOf r.toNat (sewOf fmt) (w.actives sp)⟩

/-- The lane counters of an instruction that moves the vector unit over `regs` registers. -/
def State.beats (s : State) (w : Wave) (sp : Split) (regs : Nat) (arith : Bool) : State :=
  let c := s.coreOf w
  let (u, m, b, st) := w.laneCycles sp (isE c) (arith && w.etype == 0) regs
  s.addLanes w u m b st 0

/-- The b operand of VOP, VFMA and VCMP: element `i` of group b, or the low bits of s[b] when x = 1 (R124). -/
def Wave.bElem (w : Wave) (vf : VFile) (b : Reg) (x : BitVec 1) (i : Nat) : Nat :=
  if x = 1 then inFmt w.etype (w.rd b).toNat else w.getElem vf b.toNat w.sew i

/-- Types of Table 5.1: the four arithmetic floats and the integers. -/
def numeric (fmt : Nat) : Bool := isArith fmt || decide (8 ≤ fmt)
/-- The integers only. -/
def integer (fmt : Nat) : Bool := decide (8 ≤ fmt)

/-- The plan of "op vd, va, vb" and "op vd, va, sb". -/
def planAB (d a b : Reg) (x : BitVec 1) (accept : Nat → Bool) (w : Wave) (sp : Split) : VPlan :=
  { reads := w.src sp a 0 :: (if x = 1 then [] else [w.src sp b 1])
    writes := [(d.toNat, w.grp)]
    ss := if x = 1 then [(b, 1)] else []
    typeOk := accept w.etype }

end Sys2Proof.Machine
end

