-- ==== Sys2Proof/Machine/Convert.lean ====
section
/-! DEFINITION. Conversions and block scales: spec/05 R137 to R139, spec/03 R82, R87 to R89. -/

namespace Sys2Proof.Machine

/-- The scale byte of element `i` (spec/03 R88): byte `bsel` of the lane of its block. -/
def Wave.scaleByte (w : Wave) (vf : VFile) (b : Reg) (bsel : Nat) (i : Nat) : Nat :=
  let lane := i / 32 % w.lanes + w.laneBase
  ((vf.reg b.toNat).extractLsb' (32 * lane + 8 * bsel) 8).toNat

/-- A scale register: one register, read in full (R137, spec/03 R88). -/
def scaleRead (b : Reg) : VRead := ⟨b.toNat, 1, 1, [b.toNat]⟩

/-- The narrow format named by c[4:3] (R139): e4m3, e5m2, l8, l6. -/
def narrowFmt (fm : BitVec 2) : Nat := 4 + fm.toNat

/-- VCVT (R138): from the format b to the format c. -/
def execVcvt (d a b c : Reg) (s : State) : Out State :=
  s.vec (.vcvt d a b c) (fun w sp =>
      { reads := [w.srcFmt sp b.toNat a 0]
        writes := [(d.toNat, w.groupOf c.toNat)]
        big := w.tooBig b.toNat || w.tooBig c.toNat })
    (fun wi _ w sp =>
      let vf := s.vfile w.vfile
      let l := (w.actives sp).map (fun j =>
        (j, convert b.toNat c.toNat w.rnd w.sat w.ftz (w.getElem vf a.toNat (sewOf b.toNat) j)))
      (s.beats w sp w.grp true).deliver wi w sp d.toNat c.toNat l)

/-- VCVTQ (R139): quantize the element type into a narrow format; the instruction's saturate bit takes the place of WMODE.SAT. -/
def execVcvtq (d a b : Reg) (fm : BitVec 2) (sat : BitVec 1) (bsel : BitVec 2) (s : State) : Out State :=
  s.vec (.vcvtq d a b fm sat bsel) (fun w sp =>
      { reads := [w.src sp a 0, scaleRead b]
        writes := [(d.toNat, w.groupOf (narrowFmt fm))]
        typeOk := isArith w.etype
        big := w.tooBig (narrowFmt fm) })
    (fun wi _ w sp =>
      let vf := s.vfile w.vfile
      let l := (w.actives sp).map (fun j =>
        (j, quantize (narrowFmt fm) w.rnd (sat == 1) w.ftz w.etype (w.getElem vf a.toNat w.sew j)
          (w.scaleByte vf b bsel.toNat j)))
      (s.beats w sp w.grp true).deliver wi w sp d.toNat (narrowFmt fm) l)

/-- VCVTD (R139): dequantize a narrow format into f32. -/
def execVcvtd (d a b : Reg) (fm bsel : BitVec 2) (s : State) : Out State :=
  s.vec (.vcvtd d a b fm bsel) (fun w sp =>
      { reads := [w.srcFmt sp (narrowFmt fm) a 0, scaleRead b]
        writes := [(d.toNat, w.groupOf 1)]
        big := w.tooBig (narrowFmt fm) || w.tooBig 1 })
    (fun wi _ w sp =>
      let vf := s.vfile w.vfile
      let l := (w.actives sp).map (fun j =>
        (j, dequantize (narrowFmt fm) (w.getElem vf a.toNat (sewOf (narrowFmt fm)) j) (w.scaleByte vf b bsel.toNat j) w.ftz))
      (s.beats w sp w.grp true).deliver wi w sp d.toNat 1 l)

end Sys2Proof.Machine
end

