-- ==== Sys2Proof/Machine/VMem.lean ====
section
/-! DEFINITION. Vector loads, stores and atomics: spec/06 R148 to R160, with the restart state of spec/02 R62. -/

namespace Sys2Proof.Machine

/-! ### Addresses -/

/-- An element access of `n` bytes, aligned to `n`, that carries the value `v` (R149 to R151). -/
def State.elemAcc (s : State) (wi : Nat) (w : Wave) (space n : Nat) (kind : AccKind) (i : Nat) (sum : Word) (v : Nat) : VAcc :=
  match spaceAddr space sum with
  | none => ⟨i, sum, .trap 6 0, v⟩
  | some a => ⟨i, a, s.resolve wi w a n n kind, v⟩

/-! ### Restart state (spec/02 R62) -/

/-- Byte `c` of ESV. -/
def Wave.esvByte (w : Wave) (c : Nat) : Nat := w.esv.toNat / 2 ^ (8 * c) % 256

/-- Element `i` is complete. -/
def Wave.isComplete (w : Wave) (i : Nat) : Bool :=
  decide (i < w.esr) || decide ((w.elemAt w.sew i).1 < w.esvByte (w.lane i / 8))

/-- The wave cut at element `i`: everything below it is complete; no lane cluster is behind it. -/
def Wave.cutAt (w : Wave) (i : Nat) : Wave :=
  let r := (w.elemAt w.sew i).1
  { w with esr := i, esv := word ((List.range 8).foldl (fun m c => m + max r (w.esvByte c) * 2 ^ (8 * c)) 0) }

/-- Outside a partly completed instruction both are zero. -/
def Wave.uncut (w : Wave) : Wave := { w with esr := 0, esv := 0 }

/-- The active elements still to be done. The cut is the wave's, so it holds for the next vector memory instruction that issues, whichever split
issues it (spec/02 R62; log entry 130, DEDUCED). -/
def Wave.todo (w : Wave) (sp : Split) : List Nat := (w.actives sp).filter (fun i => !w.isComplete i)

/-! ### Access lists -/

/-- The trap of a faulting access; one of another device is out of reach (spec/22 R409). -/
def VAcc.trap (x : VAcc) : Trap :=
  match x.acc with
  | .trap c sub => ⟨c, sub, x.a⟩
  | .ok _ => ⟨17, 0, x.a⟩

/-- The access leads somewhere. -/
def VAcc.fine (x : VAcc) : Bool := match x.acc with | .ok _ => true | .trap _ _ => false

/-- The accesses up to the first that faults, that one included. -/
def uptoFault : List VAcc → List VAcc
  | [] => []
  | x :: xs => if x.fine then x :: uptoFault xs else [x]

/-- The remote operations of a list of accesses, in order. -/
def awayOps (f : VAcc → Nat → RemoteOp) : List VAcc → List (Nat × RemoteOp)
  | [] => []
  | x :: xs => match x.acc with
    | .ok (.away dev addr _) => (dev, f x addr) :: awayOps f xs
    | _ => awayOps f xs

/-- The bytes a list of accesses of `n` bytes touches. -/
def accSpans (n : Nat) (l : List VAcc) : List Span :=
  l.filterMap (fun x => match x.acc with
    | .ok p => some (p.span n)
    | .trap _ _ => none)

/-- An access reaches a device-class page. -/
def VAcc.device (x : VAcc) : Bool :=
  match x.acc with
  | .ok (.here _ dev) => dev
  | .ok (.away _ _ dev) => dev
  | .trap _ _ => false

/-- An access reaches another device. -/
def VAcc.away (x : VAcc) : Bool :=
  match x.acc with
  | .ok (.away _ _ _) => true
  | _ => false

/-- Every place an instruction touched leaves its translation (spec/16 R319). -/
def State.touchAll (s : State) (w : Wave) (l : List VAcc) : State := l.foldl (fun s x => if x.fine then s.touched w x.a else s) s

/-! ### Performing the elements -/

/-- The operation another device performs for an element. -/
def VecAccess.remote (x : VecAccess) (y : VAcc) (addr : Nat) : RemoteOp :=
  match x.op with
  | .load => .read addr x.n
  | .store => .write addr (leBytes x.n y.v) false
  | .amo fn => .amo fn (x.n == 4) addr (word y.v)

/-- An element of this device performed (R153, R155, R160). -/
def State.elemHere (s : State) (w : Wave) (x : VecAccess) (y : VAcc) (key : Nat) : State × VecAccess :=
  match x.op with
  | .load => (s, { x with got := x.got ++ [(y.i, s.readAt key x.n)] })
  | .store => ((s.stored w y.a x.n).storeN key x.n y.v, { x with keys := x.keys ++ [key] })
  | .amo fn =>
    if s.poisoned key x.n then (s, { x with bad := some (y, ⟨9, 2, y.a⟩) })
    else
      let old := s.valueAt key x.n
      ((s.stored w y.a x.n).storeN key x.n (amoNew fn (8 * x.n) old y.v), { x with got := x.got ++ [(y.i, ⟨old, false⟩)] })

/-- An element performed by another device, whose answer this is (spec/22 R409). -/
def State.elemAway (s : State) (w : Wave) (x : VecAccess) (y : VAcc) (r : Read) : State × VecAccess :=
  match x.op with
  | .load => (s, { x with got := x.got ++ [(y.i, r)] })
  | .store => (s.stored w y.a x.n, x)
  | .amo _ =>
    if r.bad then (s, { x with bad := some (y, ⟨9, 2, y.a⟩) })
    else (s.stored w y.a x.n, { x with got := x.got ++ [(y.i, r)] })

/-- The accesses of a list performed in ascending order, from answer `k` on, up to one that faults; where they go one at a time, up to one of
another device that has no answer. -/
def State.perform (s : State) (w : Wave) (x : VecAccess) (ans : RemoteAnswer) : List VAcc → Nat → State × VecAccess
  | [], _ => (s, { x with todo := [] })
  | y :: ys, k =>
    match y.acc with
    | .trap _ _ => (s, { x with todo := [], bad := some (y, y.trap) })
    | .ok (.here key _) =>
      let (s', x') := s.elemHere w x y key
      if x'.bad.isSome then (s', { x' with todo := [] }) else s'.perform w x' ans ys k
    | .ok (.away _ _ _) =>
      if x.single && k ≠ 0 then (s, { x with todo := y :: ys })
      else if ans.failed = some k then (s, { x with todo := [], bad := some (y, y.trap) })
      else
        let (s', x') := s.elemAway w x y (answerAt ans (k * x.n) x.n)
        if x'.bad.isSome then (s', { x' with todo := [] }) else s'.perform w x' ans ys (k + 1)

/-- The operations still to send: all of them, or the first of those that go one at a time. -/
def VecAccess.ops (x : VecAccess) : List (Nat × RemoteOp) :=
  let l := awayOps x.remote (uptoFault x.todo)
  if x.single then l.take 1 else l

/-- The first of the operations goes to a device out of reach. -/
def State.cutOff (s : State) (w : Wave) (l : List (Nat × RemoteOp)) : Bool :=
  match l with
  | [] => false
  | o :: _ => !s.reaches (s.ctxOf w).part o.1

/-- A VLDF that faults at an element after its lowest active one ends there (R154). -/
def VecAccess.settled (x : VecAccess) : VecAccess :=
  match x.ldf, x.bad with
  | some (first, _), some (y, _) => if y.i = first then x else { x with bad := none, todo := [], ldf := some (first, some y.i) }
  | _, _ => x

/-- The accesses performed as far as `ans` takes them, and through a first one out of reach. -/
def State.performOn (s : State) (w : Wave) (x : VecAccess) (ans : RemoteAnswer) (k : Nat) : State × VecAccess :=
  let (s', x') := s.perform w x ans x.todo k
  let (t, z) := if s'.cutOff w x'.ops then s'.perform w x' ⟨[], [], some 0⟩ x'.todo 0 else (s', x')
  (t, z.settled)

/-! ### The end of an access -/

/-- The registers of group `base` with elements put in, which of them the list writes whole, and which received a poisoned byte. -/
def Wave.loaded (w : Wave) (vf : VFile) (base : Nat) (l : List (Nat × Read)) : List VReg × List Bool × List Bool :=
  let vf' := w.putElems base w.sew vf (l.map (fun x => (x.1, inFmt w.etype x.2.val)))
  let at' (r : Nat) := l.filter (fun x => (w.elemAt w.sew x.1).1 == r)
  ((List.range w.grp).map (fun r => vf'.reg (base + r)),
   (List.range w.grp).map (fun r => (at' r).length == w.regBits / w.sew),
   (List.range w.grp).map (fun r => (at' r).any (fun x => x.2.bad)))

/-- The elements a VLDF keeps, up to a poisoned one after the lowest active element, and the element it ends at (R154). -/
def VecAccess.kept (x : VecAccess) : List (Nat × Read) × Option Nat :=
  match x.ldf with
  | none => (x.got, none)
  | some (first, cut) =>
    let keep := x.got.takeWhile (fun y => y.1 == first || !y.2.bad)
    (keep, match (x.got.drop keep.length).head? with | some y => some y.1 | none => cut)

/-- An access of every element ends: the loaded group arrives later, a VLDF that ended early lowers VL, and the wave is cut nowhere (R152 to R155). -/
def State.vecDone (s : State) (wi : Nat) (w : Wave) (x : VecAccess) : State :=
  let (l, cut) := x.kept
  let s := s.heal (x.keys.map (fun k => (k, x.n)))
  let (regs, whole, pois) := ({ w with wmode := x.mode } : Wave).loaded (s.vfile w.vfile) x.d.toNat l
  s.updWave wi (fun w =>
    let w := { w.uncut with vl := min w.vl (cut.getD w.vl) }
    if x.op = .store then w
    else { w with
      vFull := fullRegs w.vFull x.d.toNat regs.length false
      pend := w.pend ++ [.vector x.d regs whole pois] })

/-- An access faults at an element: those before it are complete, in the registers or in memory, and the wave is cut there (R152, spec/02 R62). -/
def State.vecCut (s : State) (wi : Nat) (w : Wave) (x : VecAccess) (i : Nat) : State :=
  let s := s.heal (x.keys.map (fun k => (k, x.n)))
  let (regs, whole, pois) := w.loaded (s.vfile w.vfile) x.d.toNat x.got
  (if x.op = .store then s else s.putRegs wi w x.d.toNat regs whole pois).updWave wi (fun w => w.cutAt i)

/-- The operation writes memory. -/
def ElemOp.writes : ElemOp → Bool
  | .load => false
  | .store => true
  | .amo _ => true

/-- A vector access (R152): what this device's memory serves is performed, and the rest is sent. One that shares a byte with an older access of another path
waits (R147); where an element reaches a device-class page, and for atomics of another device, the elements go one at a time. -/
def State.vecAccess (s : State) (wi si : Nat) (w : Wave) (sp : Split) (op : ElemOp) (d : Reg) (todo : List VAcc) (ldf : Option (Nat × Option Nat)) : Res :=
  let n := w.sew / 8
  let l := uptoFault todo
  let far := l.any VAcc.away
  let x : VecAccess := ⟨op, d, n, l.any VAcc.device || (far && op != .load && op != .store), l, [], [], none, ldf, w.wmode⟩
  if s.pathWait wi w (accSpans n l) op.writes then .stall
  else
    let s := (s.beats w sp w.grp false).touchAll w l
    let (s, x) := if far && !x.single && !s.cutOff w x.ops then (s, x) else s.performOn w x ⟨[], [], some 0⟩ (if x.single then 1 else 0)
    if x.todo.isEmpty then
      match x.bad with
      | none => .done (s.vecDone wi w x)
      | some (y, t) => .trapIn (s.vecCut wi w x y.i) t op.writes
    else
      let s := if op.writes then (x.todo.filter VAcc.away).foldl (fun s y => s.stored w y.a x.n) s else s
      s.startAsk wi si w (.vector x) x.ops

/-- The answer to a vector access (spec/22 R409): it goes on with its next element, or it ends, or the lowest element that faults traps. -/
def State.vecAnswer (s : State) (wi : Nat) (w : Wave) (q : RemoteAsk) (x : VecAccess) (ans : RemoteAnswer) (stops : Bool) : State :=
  let (s, x) := s.performOn w x ans 0
  match x.bad with
  | some (y, t) =>
    let s := s.updWave wi (fun w => w.unwind q)
    match s.waves[wi]? with
    | none => s
    | some w =>
      let s := s.vecCut wi w x y.i
      match q.splits[q.split]? with
      | none => s
      | some sp => if w.leaseDst.isSome || stops then s else s.takeTrap wi q.split sp.pc t x.op.writes false
  | none =>
    if x.todo.isEmpty then
      (s.vecDone wi w x).updWave wi (fun w => w.answered.streamsMoved q.used s.now)
    else
      let ops := x.ops
      (s.sendRemote (s.ctxOf w).part ops (.access wi)).updWave wi (fun w => { w with
        ask := some { q with req := s.fabric.out.length, fail := none, kind := .vector x } })

/-- The atomic that a request sent has written, its old value being known: only a CAS that failed has not (R159). -/
def State.swapped (s : State) (req old : Nat) : Bool :=
  match s.fabric.out[req]? with
  | some r => r.ops.all (fun o => match o.2.2 with
    | .cas w _ e _ => e.toNat % 2 ^ (if w then 32 else 64) == old
    | _ => true)
  | none => true

/-- The answer to the access of a wave (spec/22 R409). -/
def State.accessAnswer (s : State) (wi : Nat) (ans : RemoteAnswer) (stops : Bool) : State :=
  match s.waves[wi]? with
  | none => s
  | some w => match w.ask with
    | none => s
    | some q =>
      let fail := match ans.failed with | some k => some k | none => q.fail
      let ans := { ans with failed := fail }
      match q.kind with
      | .vector x => s.vecAnswer wi w q x ans stops
      | .store a => if fail.isSome then s.askFailed wi w q ⟨17, 0, a⟩ true stops else s.updWave wi Wave.answered
      | .load d n signed a =>
        if fail.isSome then s.askFailed wi w q ⟨17, 0, a⟩ false stops
        else
          let r := answerAt ans 0 n
          s.updWave wi (fun w => w.arrives d (ldsWord n signed r.val) r.bad)
      | .atomic d n a =>
        if fail.isSome then s.askFailed wi w q ⟨17, 0, a⟩ true stops
        else
          let r := answerAt ans 0 n
          if r.bad then s.askFailed wi w q ⟨9, 2, a⟩ true stops
          else (if s.swapped q.req r.val then s.noteStores w [(a, n)] else s).updWave wi (fun w => w.arrives d (wordI (sextN (8 * n) r.val)) false)

/-! ### Loads -/

/-- The lowest element that reads a register, given by number and file: a scalar one is read at the first. -/
def Wave.lowest (w : Wave) (todo : List VAcc) (reads : List (Nat × Nat)) (x : Nat × Bool) : Option Nat :=
  if x.2 then (todo.find? (fun y => reads.any (fun r => r.1 + (w.elemAt r.2 y.i).1 == x.1))).map (·.i) else todo.head?.map (·.i)

/-- A fault of an element comes before the poison of a register that no lower element reads (spec/07 R178). -/
def Wave.meets (w : Wave) (todo : List VAcc) (reads : List (Nat × Nat)) (x : Nat × Bool) : Bool :=
  let low := w.lowest todo reads x
  match (todo.find? (fun y => !y.fine)).map (·.i), low with
  | some f, some l => decide (f ≤ l)
  | _, _ => false

/-- The sum of element `j` of VLD, VLDF and VST (R148). -/
def unitSum (a : Reg) (w : Wave) (j : Nat) : Word := w.rd a + word (j * w.sew / 8)
/-- The sum of VLDS and VSTS. -/
def strideSum (a b : Reg) (w : Wave) (j : Nat) : Word := w.rd a + word j * w.rd b
/-- The sum of VLDX, VSTX: the index group is of s32. -/
def indexSum (vf : VFile) (a b : Reg) (w : Wave) (j : Nat) : Word :=
  w.rd a + wordI (sextN 32 (w.getElem vf b.toNat 32 j))

/-- The vector file of the issuing wave. -/
def State.curFile (s : State) : VFile := match s.waves[s.cur.wave]? with | some w => s.vfile w.vfile | none => .blank

/-- The accesses of the active elements still to be done, with the values they carry. -/
def State.vecTodo (s : State) (wi : Nat) (w : Wave) (sp : Split) (kind : AccKind) (sum : Wave → Nat → Word) (val : Nat → Nat) : List VAcc :=
  (w.todo sp).map (fun j => s.elemAcc wi w w.space.toNat (w.sew / 8) kind j (sum w j) (val j))

/-- A vector load over the sums of its elements (R153). -/
def State.vload (s : State) (i : Instr) (d : Reg) (ss : List (Reg × Nat)) (idx : Option Reg) (sum : Wave → Nat → Word) : Out State :=
  s.vec i (fun w sp =>
      { reads := (match idx with | some b => [w.srcFmt sp 10 b 1] | none => [])
        writes := [(d.toNat, w.grp)]
        ss := ss
        big := (match idx with | some _ => w.tooBig 10 | none => false)
        meets := fun x => w.meets (s.vecTodo s.cur.wave w sp .read sum (fun _ => 0)) (match idx with | some b => [(b.toNat, 32)] | none => []) x })
    (fun wi si w sp => s.vecAccess wi si w sp .load d (s.vecTodo wi w sp .read sum (fun _ => 0)) none)

/-- VLD. -/
def execVld (d a : Reg) (s : State) : Out State := s.vload (.vld d a) d [(a, 0)] none (unitSum a)
/-- VLDS. -/
def execVlds (d a b : Reg) (s : State) : Out State := s.vload (.vlds d a b) d [(a, 0), (b, 1)] none (strideSum a b)
/-- VLDX. -/
def execVldx (d a b : Reg) (s : State) : Out State :=
  s.vload (.vldx d a b) d [(a, 0)] (some b) (indexSum s.curFile a b)

/-- Accesses of a VLDF that count as faulting after the lowest active element (R154): a device-class page, or a poisoned granule here. -/
def State.foreignAcc (s : State) (n : Nat) (x : VAcc) : Bool :=
  match x.acc with
  | .ok (.here key dev) => dev || s.poisoned key n
  | .ok (.away _ _ dev) => dev
  | .trap _ _ => true

/-- The leading elements of a VLDF's list that it reads, given that `first` is the lowest active one. -/
def State.vldfGood (s : State) (n first : Nat) : List VAcc → List VAcc
  | [] => []
  | x :: xs => if x.i ≠ first && s.foreignAcc n x then [] else x :: s.vldfGood n first xs

/-- VLDF (R154): a fault of the lowest active element traps; a later one ends the load there and VL shrinks to it. -/
def execVldf (d a : Reg) (s : State) : Out State :=
  s.vec (.vldf d a) (fun w sp =>
      { writes := [(d.toNat, w.grp)]
        ss := [(a, 0)]
        meets := fun x => w.meets ((s.vecTodo s.cur.wave w sp .read (unitSum a) (fun _ => 0)).take 1) [] x })
    (fun wi si w sp =>
      let first := (w.actives sp).headD 0
      let all := s.vecTodo wi w sp .read (unitSum a) (fun _ => 0)
      let good := s.vldfGood (w.sew / 8) first all
      s.vecAccess wi si w sp .load d good (some (first, (all.drop good.length).head?.map (·.i))))

/-! ### Stores -/

/-- A vector store (R155): the data group is read in position c. -/
def State.vstore (s : State) (i : Instr) (d : Reg) (ss : List (Reg × Nat)) (idx : Option Reg) (sum : Wave → Nat → Word) : Out State :=
  let todo (wi : Nat) (w : Wave) (sp : Split) : List VAcc :=
    s.vecTodo wi w sp .write sum (fun j => inFmt w.etype (w.getElem (s.vfile w.vfile) d.toNat w.sew j))
  s.vec i (fun w sp =>
      { reads := w.src sp d 2 :: (match idx with | some b => [w.srcFmt sp 10 b 1] | none => [])
        ss := ss
        big := (match idx with | some _ => w.tooBig 10 | none => false)
        meets := fun x => w.meets (todo s.cur.wave w sp) ((d.toNat, w.sew) :: (match idx with | some b => [(b.toNat, 32)] | none => [])) x })
    (fun wi si w sp => s.vecAccess wi si w sp .store d (todo wi w sp) none)

/-- VST. -/
def execVst (d a : Reg) (s : State) : Out State := s.vstore (.vst d a) d [(a, 0)] none (unitSum a)
/-- VSTS. -/
def execVsts (d a b : Reg) (s : State) : Out State := s.vstore (.vsts d a b) d [(a, 0), (b, 1)] none (strideSum a b)
/-- VSTX. -/
def execVstx (d a b : Reg) (s : State) : Out State :=
  s.vstore (.vstx d a b) d [(a, 0)] (some b) (indexSum s.curFile a b)

/-! ### Atomics (R160) -/

/-- The location of an atomic is poisoned here. -/
def State.locationBad (s : State) (n : Nat) (y : VAcc) : Bool :=
  match y.acc with
  | .ok (.here key _) => s.poisoned key n
  | _ => false

/-- A poisoned location comes before the poison of a register that neither its element nor a lower one reads (spec/07 R178). -/
def State.meetsAmo (s : State) (w : Wave) (todo : List VAcc) (reads : List (Nat × Nat)) (x : Nat × Bool) : Bool :=
  w.meets todo reads x || (match todo.find? (fun y => !y.fine || s.locationBad (w.sew / 8) y), w.lowest todo reads x with
    | some y, some l => decide (y.i < l)
    | _, _ => false)

/-- A VAMO of function `fn`: the width must be SEW; d supplies the operands in position c and receives the old values. -/
def State.vamo (s : State) (i : Instr) (fn : Nat) (d a b : Reg) (x : BitVec 1) : Out State :=
  let todo (wi : Nat) (w : Wave) (sp : Split) : List VAcc :=
    s.vecTodo wi w sp .write (indexSum s.curFile a b) (fun j => w.getElem (s.vfile w.vfile) d.toNat w.sew j)
  s.vec i (fun w sp =>
      { reads := [w.src sp d 2, w.srcFmt sp 10 b 1]
        writes := [(d.toNat, w.grp)]
        ss := [(a, 0)]
        big := w.tooBig 10
        typeOk := w.sew == iopWidth x
        early := fun t => t.early || (t.cause == 9 && t.sub == 2)
        meets := fun r => s.meetsAmo w (todo s.cur.wave w sp) [(d.toNat, w.sew), (b.toNat, 32)] r })
    (fun wi si w sp => s.vecAccess wi si w sp (.amo fn) d (todo wi w sp) none)

/-- VAMO.ADD. -/
def execVamoAdd (d a b : Reg) (x : BitVec 1) (c : Reg) (s : State) : Out State := s.vamo (.vamoAdd d a b x c) 0 d a b x
/-- VAMO.AND. -/
def execVamoAnd (d a b : Reg) (x : BitVec 1) (c : Reg) (s : State) : Out State := s.vamo (.vamoAnd d a b x c) 1 d a b x
/-- VAMO.OR. -/
def execVamoOr (d a b : Reg) (x : BitVec 1) (c : Reg) (s : State) : Out State := s.vamo (.vamoOr d a b x c) 2 d a b x
/-- VAMO.XOR. -/
def execVamoXor (d a b : Reg) (x : BitVec 1) (c : Reg) (s : State) : Out State := s.vamo (.vamoXor d a b x c) 3 d a b x
/-- VAMO.MIN. -/
def execVamoMin (d a b : Reg) (x : BitVec 1) (c : Reg) (s : State) : Out State := s.vamo (.vamoMin d a b x c) 4 d a b x
/-- VAMO.MAX. -/
def execVamoMax (d a b : Reg) (x : BitVec 1) (c : Reg) (s : State) : Out State := s.vamo (.vamoMax d a b x c) 5 d a b x
/-- VAMO.MINN. -/
def execVamoMinn (d a b : Reg) (x : BitVec 1) (c : Reg) (s : State) : Out State := s.vamo (.vamoMinn d a b x c) 6 d a b x
/-- VAMO.MAXN. -/
def execVamoMaxn (d a b : Reg) (x : BitVec 1) (c : Reg) (s : State) : Out State := s.vamo (.vamoMaxn d a b x c) 7 d a b x
/-- VAMO.SWAP. -/
def execVamoSwap (d a b : Reg) (x : BitVec 1) (c : Reg) (s : State) : Out State := s.vamo (.vamoSwap d a b x c) 8 d a b x
/-- VAMO.FADD. -/
def execVamoFadd (d a b : Reg) (x : BitVec 1) (c : Reg) (s : State) : Out State := s.vamo (.vamoFadd d a b x c) 9 d a b x

end Sys2Proof.Machine
end

