-- ==== Sys2Proof/Machine/Stream.lean ====
section
/-! DEFINITION. Streams: spec/06 R165 to R175, with the steps STREAM_FILL and STREAM_TAKE of spec/95. -/

namespace Sys2Proof.Machine

/-! ### The descriptor (R165, Table 6.6) -/

/-- The descriptor in 64 bytes, none when malformed, for a group of `g` registers of `regBits` bits, bound in state `now`; that a legacy half's CHUNK is bounded by
1,024 bits a register is the model's choice (log entry 154). -/
def parseStream (bs : List Byte) (reg g regBits space now : Nat) : Option Stream :=
  let f (off n : Nat) : Nat := leValue ((bs.drop off).take n)
  let kind := f 0 1
  let fmt := f 1 1
  let port := f 2 2
  let chunk := f 4 4
  let isPort := kind == 3 || kind == 4
  if (kind == 1 || kind == 2 || isPort) && decide (fmt < 16)
      && (if isPort then decide (port < 16) && f 8 8 == 0 && f 16 8 == 0 && f 40 8 == 0 && f 32 8 == 1
          else port == 0 && f 8 8 % (sewOf fmt / 8) == 0)
      && decide (1 ≤ chunk) && decide (chunk ≤ g * regBits / sewOf fmt)
      && decide (1 ≤ f 24 8) && decide (f 24 8 < 2 ^ 32) && decide (1 ≤ f 32 8) && decide (f 32 8 ≤ 65535)
      && f 48 8 == 0 && f 56 8 == 0 then
    some {
      reg := reg
      kind := kind
      fmt := fmt
      port := port
      chunk := chunk
      base := word (f 8 8)
      stride := word (f 16 8)
      count := f 24 8
      rows := f 32 8
      rowStride := word (f 40 8)
      space := space
      g := g
      done := 0
      filled := 0
      part := []
      full := false
      due := false
      drained := false
      ask := none
      err := none
      told := false
      since := now
      todo := [] }
  else none

/-- A read stream. -/
def Stream.isRead (t : Stream) : Bool := t.kind % 2 == 1
/-- A port stream. -/
def Stream.isPort (t : Stream) : Bool := t.kind == 3 || t.kind == 4

/-! ### Ports (R174) -/

/-- A port with nothing bound. -/
def Port.idle : Port := ⟨none, [], false, false, false⟩

/-- A gang's port. -/
def Gang.port (g : Gang) (n : Nat) : Port := g.ports.getD n .idle

/-- The state with a port of a gang changed. -/
def State.updPort (s : State) (g n : Nat) (f : Port → Port) : State :=
  s.updGang g (fun g => { g with ports := updAt (if g.ports.isEmpty then List.replicate 16 Port.idle else g.ports) n f })

/-- The port already holds a stream of this kind. -/
def Port.taken (p : Port) (t : Stream) : Bool := if t.isRead then p.reader else p.writer

/-- The other side of the port names another format. -/
def Port.differs (p : Port) (t : Stream) : Bool := match p.fmt with | none => false | some f => f != t.fmt

/-- The port with a stream bound. -/
def Port.bind (p : Port) (t : Stream) : Port :=
  if t.isRead then { p with reader := true, fmt := some t.fmt }
  else { p with writer := true, drained := false, fmt := some t.fmt }

/-- The port with a stream unbound: the format stays while the other side or an element is there. -/
def Port.unbind (p : Port) (t : Stream) : Port :=
  let p := if t.isRead then { p with reader := false } else { p with writer := false }
  if p.reader || p.writer || !p.bytes.isEmpty then p else { p with fmt := none, drained := false }

/-! ### SBIND, SUNB, SQRY -/

/-- SBIND once its descriptor is read (R167, R168). -/
def State.bind (s : State) (wi : Nat) (w : Wave) (t : Stream) (a : Word) : Res :=
  let gi := (s.block w.block).gang
  let p := (s.gang gi).port t.port
  let bound (s : State) : Res :=
    .done (s.updWave wi (fun w => { w with
      streams := w.streams ++ [t]
      vFull := if t.isRead then fullRegs w.vFull t.reg t.g false else w.vFull }))
  if t.isPort then
    if p.taken t then .trap ⟨3, 6, wordOf (.sbind (BitVec.ofNat 5 t.reg) 0)⟩
    else if p.differs t then .trap ⟨14, 0, a⟩
    else bound (s.updPort gi t.port (fun p => p.bind t))
  else bound s

/-- The bytes of `n` granules at a key, a poisoned one reading as zero (spec/07 R192). -/
def State.granules (s : State) (key n : Nat) : List Byte := (List.range n).flatMap (fun k => leBytes 8 (s.readAt (key + 8 * k) 8).val)

/-- The same of an answer. -/
def answerGranules (x : RemoteAnswer) (n : Nat) : List Byte := (List.range n).flatMap (fun k => leBytes 8 (answerAt x (8 * k) 8).val)

/-- A read of `n` bytes at an address aligned to `n`, before the instruction issues: its bytes, here or from another device. -/
def State.readAhead (s : State) (wi : Nat) (w : Wave) (sp : Split) (a : Word) (n : Nat) (k : State → List Byte → Res) : Res :=
  match s.resolve wi w a n n .read with
  | .trap c sub => .trap ⟨c, sub, a⟩
  | .ok (.here key _) => k ((s.looked wi).touched w a) (s.granules key (n / 8))
  | .ok (.away dev addr once) =>
    match s.lookRemote wi w sp.pc (dev, .read addr n) once with
    | .pending => .stall
    | .sent s' => .stallIn s'
    | .ready x =>
      if x.failed.isSome then .trapIn (s.looked wi) ⟨17, 0, a⟩ false
      else k ((s.looked wi).touched w a) (answerGranules x (n / 8))

/-- SBIND: first a fence from every path to the stream path, then the descriptor is read and the group bound. -/
def execSbind (d a : Reg) (s : State) : Out State :=
  s.runWave (fun wi _ w sp =>
    let word' := wordOf (.sbind d a)
    let e := w.rd a
    if w.unclaimed then .trap ⟨3, 5, word'⟩
    else if d.toNat % w.grp ≠ 0 then .trap ⟨3, 1, word'⟩
    else if w.streams.length ≥ 4 || w.streams.any (fun t => overlap d.toNat w.grp t.reg t.g) then .trap ⟨3, 6, word'⟩
    else w.gate { ss := [(a, 0)], vd := regRange d.toNat w.grp } (fun _ =>
      s.fenced wi w 0x3F (fun _ =>
        s.readAhead wi w sp e 64 (fun s bs =>
          match parseStream bs d.toNat w.grp w.regBits w.space.toNat s.now with
          | none => .trap ⟨14, 0, e⟩
          | some t => match s.bind wi w t e with
            | .trap ⟨3, 6, _⟩ => .trap ⟨3, 6, word'⟩
            | r => r))))

/-- A stream leaves its group, which is full (R172). -/
def State.unbindStream (s : State) (wi : Nat) (w : Wave) (t : Stream) : State :=
  let s := s.updWave wi (fun w => { w with
    streams := w.streams.filter (fun x => x.reg != t.reg)
    vFull := fullRegs w.vFull t.reg t.g true })
  if t.isPort then s.updPort (s.block w.block).gang t.port (fun p => p.unbind t) else s

/-- The register is one of a bound group, but not its first (R170). -/
def Wave.insideStream (w : Wave) (d : Reg) : Bool := w.streams.any (fun t => t.reg != d.toNat && decide (t.reg ≤ d.toNat) && decide (d.toNat < t.reg + t.g))

/-- SUNB (R172): a write stream's takes are written first, or their fault is raised (R171); a fill in flight is awaited. -/
def execSunb (d : Reg) (s : State) : Out State :=
  s.runWave (fun wi _ w _ =>
    let word' := wordOf (.sunb d)
    if w.unclaimed then .trap ⟨3, 5, word'⟩
    else if d.toNat % w.grp ≠ 0 then .trap ⟨3, 1, word'⟩
    else if w.insideStream d then .trap ⟨3, 6, word'⟩
    else match w.streams.find? (fun t => t.reg == d.toNat) with
      | none => .done s
      | some t =>
        match t.err with
        | some (c, sub, a, _) =>
          if t.isRead || t.told then .done (s.unbindStream wi w t)
          else .trapIn (s.updWave wi (fun w => w.updStream t.reg (fun x => { x with told := true }))) ⟨c, sub, a⟩ true
        | none => if t.due || t.ask.isSome then .stall else .done (s.unbindStream wi w t))

/-- The status word of a stream (Table 6.8). -/
def Stream.status (t : Stream) : Nat :=
  2 ^ 63 + b2n (decide (t.total ≤ t.filled)) * 2 ^ 62 + b2n (match t.err with | some (_, _, _, r) => !r | none => false) * 2 ^ 61
    + t.kind * 2 ^ 48 + (t.total - t.done) % 2 ^ 48

/-- SQRY (R173): the stream whose group begins at the register a names; another register of a bound group traps (R170). -/
def execSqry (d a : Reg) (s : State) : Out State :=
  s.runWave (fun wi _ w _ =>
    if w.insideStream a then .trap ⟨3, 6, wordOf (.sqry d a)⟩
    else w.gate { sd := [d] } (fun _ =>
      .done (s.setReg wi d (match w.streams.find? (fun t => t.reg == a.toNat) with
        | some t => word t.status
        | none => 0))))

/-! ### The stream engine -/

/-- A stream of a wave by its first register. -/
def Wave.stream? (w : Wave) (v : Reg) : Option Stream := w.streams.find? (fun t => t.reg == v.toNat)

/-- The wave's stream engine runs: it has not stopped; at a hard stop or a halt only what was begun goes on (R175). The takes of a wave that has ended are
made before its block ends (spec/12 R274). -/
def Wave.streaming (w : Wave) (t : Stream) : Bool := w.stopped.isNone && (!(w.halted || w.suspended) || t.ask.isSome)

/-- A fill is finished: the group holds its elements, the rest of it zero, and is full (R168). -/
def State.fillDone (s : State) (wi : Nat) (w : Wave) (t : Stream) (l : List (Nat × Bool)) : State :=
  let vf' := l.zipIdx.foldl (fun vf (x, i) =>
      let (r, p) := w.elemAt (sewOf t.fmt) i
      vf.setReg (t.reg + r) (putBits (vf.reg (t.reg + r)) p (sewOf t.fmt) (inFmt t.fmt x.1))) VFile.blank
  let bad (r : Nat) : Bool := l.zipIdx.any (fun (x, i) => (w.elemAt (sewOf t.fmt) i).1 == r && x.2)
  let s := s.putRegs wi w t.reg ((List.range t.g).map (fun r => vf'.reg (t.reg + r)))
    (List.replicate t.g true) ((List.range t.g).map bad)
  s.updWave wi (fun w => { w.updStream t.reg (fun x => { x with full := true, part := [], ask := none, filled := x.done + l.length })
    with vFull := fullRegs w.vFull t.reg t.g true })

/-- A stream stopped by a fault, with what it has read so far (R171). -/
def State.streamFault (s : State) (wi : Nat) (t : Stream) (part : List (Nat × Bool)) (c sub : Nat) (a : Word) : State :=
  s.updWave wi (fun w => w.updStream t.reg (fun x => { x with part := part, ask := none, err := some (c, sub, a, c == 8) }))

/-- An element in a device-class page stops the stream (spec/16 R318). -/
def VAcc.plain (x : VAcc) : VAcc :=
  match x.acc with
  | .ok (.here _ true) => { x with acc := .trap 14 0 }
  | .ok (.away _ _ true) => { x with acc := .trap 14 0 }
  | _ => x

/-- The accesses of the elements `from` up to, not including, `to`, with the values they carry. -/
def State.streamAccs (s : State) (wi : Nat) (w : Wave) (t : Stream) (kind : AccKind) (from' to' : Nat) (vals : Nat → Nat) : List VAcc :=
  (List.range (to' - from')).map (fun k =>
    (s.elemAcc wi w t.space (sewOf t.fmt / 8) kind (from' + k) (t.sum (from' + k)) (vals (from' + k))).plain)

/-- The answer to request `r`, which was sent for `ops` as far as their devices could be reached. -/
def State.answerTo (s : State) (r : Nat) (ops : List (Nat × RemoteOp)) : Remote :=
  match s.fabric.out[r]? with
  | none => .pending
  | some o => match o.answer with
    | some x => .ready { x with failed := match x.failed with
        | some k => some k
        | none => if o.ops.length < ops.length then some o.ops.length else none }
    | none => .pending

/-- The state of a stream's remote request for the accesses `l`. -/
def State.streamAsk (s : State) (wi : Nat) (w : Wave) (t : Stream) (l : List VAcc) (ops : List (Nat × RemoteOp)) : Remote :=
  match t.ask with
  | some r => s.answerTo r ops
  | none =>
    let part := (s.ctxOf w).part
    let bad := s.firstUnreached part ops
    let live := match bad with | none => ops | some k => ops.take k
    if live.isEmpty then .ready ⟨[], [], bad⟩
    else .sent ((s.sendRemote part live (.stream wi t.reg)).updWave wi
      (fun w => w.updStream t.reg (fun x => { x with ask := some s.fabric.out.length, todo := l })))

/-- An older take of the wave is still to write a byte that the fill reads (R146). -/
def State.olderTake (s : State) (wi : Nat) (w : Wave) (t : Stream) : Bool :=
  (w.streams.filter (fun x => x.takes && decide (x.since < t.since))).any (fun x =>
    (s.takeSpan wi w x).any (fun y => (s.fillSpan wi w t).any y.meets))

/-- An older fill of another memory stream of the wave is still to be made: loads of a path are performed in order (R146). -/
def Wave.olderFill (w : Wave) (t : Stream) : Bool := w.streams.any (fun x => decide (x.since < t.since) && x.fills)

/-- An older store or load of the wave's stream path is still to be performed (R146); a wave that has ended or is suspended fills nothing. -/
def Wave.olderStream (w : Wave) (t : Stream) : Bool :=
  w.streams.any (fun x => decide (x.since < t.since) && (x.takes || (x.fills && !w.ended && !w.suspended)))

/-- A result for the group is still to be written: the take waits for it. -/
def Wave.groupPending (w : Wave) (t : Stream) : Bool :=
  w.pend.any (fun p => match p with
    | .vector d regs _ _ => overlap d.toNat regs.length t.reg t.g
    | .scalar .. => false)

/-- A memory read stream's fill (R168). -/
def State.fillMem (s : State) (wi : Nat) (w : Wave) (t : Stream) : Out State :=
  let want := min t.chunk (t.total - t.done)
  let l := if t.ask.isSome then t.todo else uptoFault (s.streamAccs wi w t .read (t.done + t.part.length) (t.done + want) (fun _ => 0))
  let x : VecAccess := ⟨.load, BitVec.ofNat 5 t.reg, sewOf t.fmt / 8, false, l, [], [], none, none, w.wmode⟩
  if t.ask.isNone && (w.olderFill t || s.olderTake wi w t) then idle s
  else match s.streamAsk wi w t l x.ops with
  | .pending => idle s
  | .sent s' => ok s'
  | .ready ans =>
    let (s, x) := (s.touchAll w l).perform w x ans l 0
    let part := t.part ++ x.got.map (fun x => (x.2.val, x.2.bad))
    match x.bad with
    | none => ok (s.fillDone wi w t part)
    | some (_, e) => ok (s.streamFault wi t part e.cause e.sub e.val)

/-- A port read stream's fill (R174): CHUNK elements, or what is left once the writer has drained. With nothing left a fill waits for ever, which is the model's choice
(log entry 156). -/
def State.fillPort (s : State) (wi : Nat) (w : Wave) (t : Stream) : Out State :=
  let gi := (s.block w.block).gang
  let p := (s.gang gi).port t.port
  let n := sewOf t.fmt / 8
  let want := min t.chunk (t.total - t.done)
  let have' := p.bytes.length / n
  let take' := if want ≤ have' then want else if p.drained then have' else 0
  if take' = 0 then idle s
  else
    let l := (List.range take').map (fun k => (leValue ((p.bytes.drop (k * n)).take n), false))
    ok ((s.updPort gi t.port (fun p => { p with bytes := p.bytes.drop (take' * n) })).fillDone wi w t l)

/-- STREAM_FILL of the stream at register `v` of a wave (R168): due when its group holds no fill and elements are left. -/
def execStreamFill (wi : Nat) (v : Reg) (s : State) : Out State :=
  match s.waves[wi]? with
  | none => idle s
  | some w => match w.stream? v with
    | none => idle s
    | some t =>
      if t.isRead && w.streaming t && !w.ended && !w.suspended && !t.full && !t.drained && t.err.isNone && decide (t.done < t.total) then
        if t.isPort then s.fillPort wi w t else s.fillMem wi w t
      else idle s

/-- A take is finished: the group is full again, and the stream drains with its last element (R169). -/
def State.takeDone (s : State) (wi : Nat) (w : Wave) (t : Stream) (sent : Nat) : State :=
  let last := decide (t.total ≤ t.done + sent)
  let s := s.updWave wi (fun w => { w.updStream t.reg (fun x =>
      { x with done := x.done + sent, filled := x.done + sent, due := false, ask := none, part := [], drained := last })
    with vFull := fullRegs w.vFull t.reg t.g true })
  if t.isPort && last then s.updPort (s.block w.block).gang t.port (fun p => { p with drained := true }) else s

/-- The elements of a take, as the group stands. -/
def Stream.taken (t : Stream) (w : Wave) (vf : VFile) (n : Nat) : List Nat :=
  (List.range n).map (fun i => inFmt t.fmt (w.getElem vf t.reg (sewOf t.fmt) i))

/-- A memory write stream's take (R169): `filled` counts what it has sent. -/
def State.takeMem (s : State) (wi : Nat) (w : Wave) (t : Stream) : Out State :=
  let want := min t.chunk (t.total - t.done)
  let vals := t.taken w (s.vfile w.vfile) want
  let n := sewOf t.fmt / 8
  let start := max t.filled t.done
  let val (e : Nat) : Nat := vals.getD (e - t.done) 0
  let l := if t.ask.isSome then t.todo else uptoFault (s.streamAccs wi w t .write start (t.done + want) val)
  let x : VecAccess := ⟨.store, BitVec.ofNat 5 t.reg, n, false, l, [], [], none, none, w.wmode⟩
  if t.ask.isNone && w.olderStream t then idle s
  else match (if t.ask.isNone then (l.filter VAcc.away).foldl (fun s y => s.stored w y.a n) s else s).streamAsk wi w t l x.ops with
  | .pending => idle s
  | .sent s' => ok s'
  | .ready ans =>
    let (s, x) := (s.touchAll w l).perform w x ans l 0
    let s := s.heal (x.keys.map (fun k => (k, n)))
    match x.bad with
    | none => ok (s.takeDone wi w t want)
    | some (y, e) => ok ((s.streamFault wi t [] e.cause e.sub e.val).updWave wi
        (fun w => w.updStream t.reg (fun z => { z with filled := y.i })))

/-- A port write stream's take (R174): it waits for room for CHUNK elements. -/
def State.takePort (s : State) (wi : Nat) (w : Wave) (t : Stream) : Out State :=
  let gi := (s.block w.block).gang
  let p := (s.gang gi).port t.port
  let n := sewOf t.fmt / 8
  if p.bytes.length + t.chunk * n > 4096 then idle s
  else
    let want := min t.chunk (t.total - t.done)
    let bs := (t.taken w (s.vfile w.vfile) want).flatMap (leBytes n)
    ok ((s.updPort gi t.port (fun p => { p with bytes := p.bytes ++ bs })).takeDone wi w t want)

/-- STREAM_TAKE of the stream at register `v` of a wave (R169), once the instruction's results are written. A poisoned register of the group stops the stream (spec/07 R193). -/
def execStreamTake (wi : Nat) (v : Reg) (s : State) : Out State :=
  match s.waves[wi]? with
  | none => idle s
  | some w => match w.stream? v with
    | none => idle s
    | some t =>
      if !t.isRead && t.due && w.streaming t && t.err.isNone && !w.groupPending t then
        match (regRange t.reg t.g).find? w.vIsPois with
        | some r => ok (s.streamFault wi t [] 9 1 (word (r + 2 * 256 + 4096)))
        | none => if t.isPort then s.takePort wi w t else s.takeMem wi w t
      else idle s

end Sys2Proof.Machine
end

