-- ==== Sys2Proof/Machine/Control.lean ====
section
/-! DEFINITION. Branches, jumps, hardware loops and splits: spec/04 R103 to R111. -/

namespace Sys2Proof.Machine

/-- A conditional branch (R103). -/
def State.branch (s : State) (a b : Reg) (off : BitVec 16) (cond : Word → Word → Bool) : Out State :=
  s.scalar [(a, 0), (b, 1)] [] (fun _ _ w sp =>
    if cond (w.rd a) (w.rd b) then .goto s (target16 sp.pc off) sp.pc true else .done s)

/-- BEQ. -/
def execBeq (a b : Reg) (off : BitVec 16) (s : State) : Out State := s.branch a b off (fun x y => x == y)
/-- BNE. -/
def execBne (a b : Reg) (off : BitVec 16) (s : State) : Out State := s.branch a b off (fun x y => x != y)
/-- BLT. -/
def execBlt (a b : Reg) (off : BitVec 16) (s : State) : Out State := s.branch a b off (fun x y => decide (sgn x < sgn y))
/-- BGE. -/
def execBge (a b : Reg) (off : BitVec 16) (s : State) : Out State := s.branch a b off (fun x y => decide (sgn y ≤ sgn x))
/-- BLTN. -/
def execBltn (a b : Reg) (off : BitVec 16) (s : State) : Out State := s.branch a b off (fun x y => decide (x < y))
/-- BGEN. -/
def execBgen (a b : Reg) (off : BitVec 16) (s : State) : Out State := s.branch a b off (fun x y => decide (y ≤ x))

/-- JAL links into s31 (R103). -/
def execJal (off : BitVec 26) (s : State) : Out State :=
  s.scalar [] [31] (fun wi _ _ sp => .goto (s.setReg wi 31 (sp.pc + 4)) (target26 sp.pc off) sp.pc true)
/-- JALR: the source is read before the link is written. -/
def execJalr (d a : Reg) (imm : BitVec 16) (s : State) : Out State :=
  s.scalar [(a, 0)] [d] (fun wi _ w sp =>
    .goto (s.setReg wi d (sp.pc + 4)) ((w.rd a + simm imm) &&& ~~~3#64) sp.pc true)

/-- LOOP (R105). -/
def execLoop (a : Reg) (imm : BitVec 16) (s : State) : Out State :=
  s.scalar [(a, 0)] [] (fun wi si w sp =>
    let body := imm.setWidth 64 * 4#64
    if sp.loops.depth = 2 then .trap ⟨10, 0, 0⟩
    else if sp.loops.depth = 1 && decide (sp.loops.fin < sp.pc + body) then .trap ⟨10, 0, 1⟩
    else if w.rd a = 0 then .goto s (sp.pc + body + 4) (sp.pc + body) false
    else
      let loops := sp.loops.push (w.rd a) (sp.pc + 4) (sp.pc + body)
      -- the new loop cannot end at the LOOP itself, so the loop step leaves it as it stands
      .left (s.updWave wi (fun w => w.advance si sp (sp.pc + 4) loops)))

/-- BRD (R109): the lanes of the split in the mask go to the target, the others on; a BRD in a handler stops the wave. -/
def execBrd (a : BitVec 3) (off : BitVec 16) (s : State) : Out State :=
  s.scalar [] [] (fun wi si w sp =>
    if w.lvl ≠ 0 then .trap ⟨20, 0, 0⟩
    else
      let t := sp.mask &&& (w.rdK a <<< w.laneBase)
      let f := sp.mask &&& ~~~t
      let target := target16 sp.pc off
      if t = 0 then .done s
      else if f = 0 then .goto s target sp.pc true
      else if highBits target then .trap ⟨7, 1, target⟩
      else
        let (fpc, fl) := loopStep 3 sp.loops (sp.pc + 4) sp.pc false
        let (tpc, tl) := loopStep 3 sp.loops target sp.pc true
        if highBits fpc && fpc != sp.pc + 4 then .trap ⟨7, 1, fpc⟩
        else
          let part (m pc : Word) (l : Loops) : Split := { sp with mask := m, pc := pc, loops := l, held := none, yields := [] }
          .left (s.updWave wi (fun w =>
            let others := (w.splits.eraseIdx si).map (fun x => match sp.idx with
              | some i => { x with yields := x.yields.erase i }
              | none => x)
            w.settle (divideSplit w.residents others sp.idx (part f fpc fl) (part t tpc tl)))))

/-- JOIN (R110): held while another split of the wave has a lower program counter. -/
def execJoin (s : State) : Out State :=
  s.scalar [] [] (fun _ si w sp =>
    if (w.splits.eraseIdx si).any (fun x => decide (x.pc < sp.pc)) then .wait else .done s)

/-- YIELD (R111): the split lets every other resident split issue once; with spilled splits it changes places with the lowest of them. -/
def execYield (s : State) : Out State :=
  s.scalar [] [] (fun wi si w sp =>
    if w.splits.length ≤ 1 then .done s
    else
      let (to', loops') := loopStep 3 sp.loops (sp.pc + 4) sp.pc false
      if highBits to' && to' != sp.pc + 4 then .trap ⟨7, 1, to'⟩
      else
        let others := (w.splits.eraseIdx si).filterMap (fun x => x.idx)
        let low := bestIdx (fun (x : Split) => x.idx.isNone) (fun x y => decide (x.pc < y.pc)) w.splits 0 none
        .left (s.updWave wi (fun w =>
          let l := updAt w.splits si (fun x => { x with pc := to', loops := loops', yields := others, held := none })
          let l := match low, sp.idx with
            | some j, some i => (updAt (updAt l si (fun x => { x with idx := none, yields := [] })) j (fun x => { x with idx := some i })).map
                (fun x => { x with yields := x.yields.erase i })
            | _, some i => l.map (fun x => { x with yields := x.yields.erase i })
            | _, none => l
          w.settle (s.release { w with splits := l } sp.idx))))

end Sys2Proof.Machine
end

