-- ==== Sys2Proof/Machine/System.lean ====
section
/-! DEFINITION. The SYS group (spec/04 R112 to R117), the special registers (spec/02 R46 to R50, spec/04 R118 to R121, spec/21 R395,
R399) and the steps of spec/95 that write one of them. -/

namespace Sys2Proof.Machine

/-- NOP (Table 4.7). -/
def execNop (s : State) : Out State := s.scalar [] [] (fun _ _ _ _ => .done s)

/-- TRAP: kind after, TRAPVAL the number (R113). -/
def execTrap (n : BitVec 12) (s : State) : Out State :=
  s.scalar [] [] (fun _ _ _ _ => .after s ⟨12, 0, n.setWidth 64⟩)

/-- BRK: kind before (R113). -/
def execBrk (n : BitVec 12) (s : State) : Out State :=
  s.scalar [] [] (fun _ _ _ _ => .trap ⟨13, 0, n.setWidth 64⟩)

/-- SYSC (R114): it completes, then every split of the wave stops until the service is answered; it sets the side-effect latch. It is legal
at K and H, so at D it raises the privilege trap (log entry 9). -/
def execSysc (n : BitVec 12) (s : State) : Out State :=
  s.scalar [] [] (fun wi _ w _ =>
    if w.lvl = 3 then privilege (.sysc n)
    else .done (((s.sideEffect w).drain wi).updWave wi (fun w => { w with sysc := some (n.toNat, none) })))

/-- An H-level function (R112): at K the privilege trap. -/
def State.handlerOnly (s : State) (i : Instr) (k : Nat → Nat → Wave → Split → Res) : Out State :=
  s.scalar [] [] (fun wi si w sp => if w.lvl = 0 then privilege i else k wi si w sp)

/-- A store of a wave to its frames is still to be performed: a take that is due. -/
def State.takeToFrame (s : State) (wi : Nat) (w : Wave) : Bool :=
  w.streams.any (fun t => t.due) && (s.takeSpans wi w).any (fun x => x.1 == 0 && x.2.1 / 2 ^ 64 == memKey .frame wi 0 / 2 ^ 64)

/-- RTE (R115, spec/07 R186): once the wave's own stores to the frame are performed and no result is in flight, the checks of the frame, then the
interrupted code goes on. -/
def execRte (s : State) : Out State :=
  s.handlerOnly .rte (fun wi _ w _ =>
    if !w.pend.isEmpty || w.leaseDst.isSome || w.ahead || s.takeToFrame wi w then .stall
    else if s.rteOk wi w w.lvl then .left (s.returnFrom wi w) else reservedField .rte)

/-- HALT (R115, spec/07 R187): the wave stops for good and its queue gets "handler halt" with the cause and value of the level. -/
def execHalt (s : State) : Out State :=
  s.handlerOnly .halt (fun wi _ w _ =>
    let cause := s.frameWord wi w.lvl 264
    let val := word (s.frameWord wi w.lvl 272)
    let q := (s.block w.block).queue
    let s := (s.drain wi).updWave wi (fun w => { w with stopped := some .handlerHalt, splits := [], frozen := [] })
    .left (s.queueFault q 5 (cause % 256) (cause / 256 % 256) 0 val (s.who w) false))

/-- WFE (R116): with the latch set it clears it and completes, with every other split waiting in WFE; otherwise the split waits. -/
def execWfe (s : State) : Out State :=
  s.scalar [] [] (fun wi si w sp =>
    if w.latch then
      let step (x : Split) : Split :=
        let (to', loops') := loopStep 3 x.loops (x.pc + 4) x.pc false
        { x with pc := to', loops := loops', held := none, wfe := false }
      let (to', loops') := loopStep 3 sp.loops (sp.pc + 4) sp.pc false
      .left (s.updWave wi (fun w =>
        let l := w.splits.map (fun x => if x.wfe then step x else x)
        { w with latch := false, splits := updAt l si (fun x => { x with pc := sp.pc }) }.advance si sp to' loops'))
    else .waitIn (s.updWave wi (fun w => { w with splits := updAt w.splits si (fun x => { x with wfe := true }) })))

/-- A vector result of the wave is still to be written. -/
def Wave.vectorOut (w : Wave) : Bool := w.ahead || w.pend.any (fun p => !p.isScalar)

/-- CLAIMV (R117, spec/07 R185): once no vector result is in flight, the vector and mask registers go to the frame and the handler gets the
launch vector state; a second one at the same level has no effect. -/
def execClaimv (s : State) : Out State :=
  s.handlerOnly .claimv (fun wi _ w _ =>
    if w.vectorOut then .stall
    else if w.claims.getLsbD w.lvl then .done s
    else
      let vf := s.vfile w.vfile
      let vbytes := (List.range 32).flatMap (fun n => leBytes 256 (w.ownLanes (vf.reg n) 0).toNat)
      let s := s.writeBytes (frameKey wi w.lvl + 1024) vbytes
      let s := s.writeBytes (frameKey wi w.lvl + 512) w.maskBytes
      let s := s.writeN (frameKey wi w.lvl + 392) 8 1
      .done (s.updWave wi (fun w =>
        let mode := keepLegacy w.wmode 8
        { w with
          vPois := 0
          wmode := mode
          vl := vlmaxOf mode
          space := 0
          esr := 0
          esv := 0
          claims := w.claims ||| BitVec.ofNat 4 (2 ^ w.lvl) })))

/-- RSTV (R117): once no vector result is in flight (spec/02 R56), without a claim nothing; else the frame's vector words are checked and everything is
reloaded at once. -/
def execRstv (s : State) : Out State :=
  s.handlerOnly .rstv (fun wi _ w _ =>
    if w.vectorOut then .stall
    else if !w.claims.getLsbD w.lvl then .done s
    else if s.vectorWordsOk wi w w.lvl then .done (s.rstv wi w w.lvl false) else reservedField .rstv)

/-! ### Special registers -/

/-- Microseconds that remain of a context's lease (spec/19 R388). -/
def State.leaseRem (s : State) (c : Ctx) : Nat :=
  match c.lease with
  | none => 0
  | some l => l.granted - (s.time.toNat - l.start) / 1000

/-- The lease a context holds: one whose time has run out has ended (spec/19 R387). -/
def State.leaseHeld (s : State) (c : Ctx) : Option LeaseSt := c.lease.filter (fun l => decide (s.time.toNat < l.start + 1000 * l.granted))

/-- GANGID (spec/14 Table 14.1). -/
def State.gangId (s : State) (b : Block) : Nat :=
  let g := s.gang b.gang
  let map := g.blocks.foldl (fun m i => m + (s.block i).core % 4 * 4 ^ (s.block i).member) 0
  map * 256 + (g.size - 1) * 4 + b.member

/-- BINSTAT (spec/10 Table 10.7). -/
def binstat : List (Option Bin) → Nat → Nat
  | [], _ => 0
  | o :: r, n => (match o with
    | none => 0
    | some x => if x.args.isEmpty then 0 else 2 ^ (56 + n) + x.args.length * 2 ^ (7 * n)) + binstat r (n + 1)

/-- TILECAP (spec/10 Table 10.3). -/
def CoreSt.tilecap (c : CoreSt) : Nat := c.hcol * 2 ^ 24 + c.part * 2 ^ 16 + c.power * 2 ^ 8 + min c.part c.power

/-- The value an SRR reads, none for an unassigned number (spec/02 Table 2.6); reserved bits read zero (spec/00 R11). -/
def State.special (s : State) (wi : Nat) (w : Wave) (sp : Split) (n : Nat) : Option Word :=
  let b := s.block w.block
  let c := s.ctxOf w
  let core := s.core b.core
  let frame (off : Nat) : Word := if w.lvl = 0 then 0 else word (s.frameWord wi w.lvl off)
  match n with
  | 0x000 => some (word w.vl)
  | 0x001 => some (word w.vlmax)
  | 0x002 => some (w.wmode.setWidth 64)
  | 0x003 => some (w.wstat.setWidth 64)
  | 0x004 => some (w.space.setWidth 64)
  | 0x005 => some (word w.esr)
  | 0x006 => some w.esv
  | 0x007 => some sp.mask
  | 0x008 => some sp.loops.cnt
  | 0x009 => some sp.loops.beg
  | 0x00A => some sp.loops.lpend
  | 0x010 => some (word b.grant.rows)
  | 0x011 => some (word b.grant.cols)
  | 0x012 => some (word b.grant.depth)
  | 0x013 => some (word b.grant.fmt)
  | 0x014 => some (word b.grant.sparse)
  | 0x015 => some (if isE b.core then 1 else 0)
  | 0x016 => some (word core.tilecap)
  | 0x017 => some (word core.vlcap)
  | 0x018 => some (b.classchg.setWidth 64)
  | 0x019 => some (word (b.dmg.toNat * 16 + b.live.toNat))
  | 0x020 => some (word w.id)
  | 0x021 => some (word (b2n b.bin * 2 ^ 63 + b.ident))
  | 0x022 => some (word (b.core % 128))
  | 0x023 => some (word (s.gangId b))
  | 0x024 => some (word (b.core / 128))
  | 0x025 => some (word s.fabric.devid)
  | 0x026 => some (word c.part)
  | 0x027 => some (word b.pidx[0])
  | 0x028 => some (word b.pidx[1])
  | 0x029 => some (word b.pidx[2])
  | 0x02A => some (word b.pidx[3])
  | 0x02B => some (b.argp &&& 0x01FFFFFFFFFFFFFF#64)
  | 0x02C => some (word (s.queue b.queue).num)
  | 0x030 => some core.cycle
  | 0x031 => some s.time
  | 0x040 => some (frame 264 &&& 0xFFFF#64)
  | 0x041 => some (frame 256 &&& 0x01FFFFFFFFFFFFFC#64)
  | 0x042 => some (frame 272)
  | 0x043 => some (if w.lvl = 0 then 0 else word (windowBase 3 + (w.lvl - 1) * 9216))
  | 0x044 => some w.trapbase
  | 0x045 => some (word w.lvl)
  | 0x050 => some (word (b2n s.rfz * 2 ^ 16 + s.melt.toNat))
  | 0x051 => some (word (s.leaseRem c))
  | 0x052 => some (word (c.energy / 1000))
  | 0x053 => some (word c.equota)
  | 0x054 => some (word ((s.cluster (clusterOf b.core)).mhz * 2 ^ 16
      + (match s.leaseHeld c with | none => 0 | some l => 4 + l.level)))
  | 0x060 => some (s.vfile w.vfile).lc[0]
  | 0x061 => some (s.vfile w.vfile).sample[1]
  | 0x062 => some (s.vfile w.vfile).sample[2]
  | 0x063 => some (s.vfile w.vfile).sample[3]
  | 0x064 => some (s.vfile w.vfile).sample[4]
  | 0x070 => some (word (binstat core.bins 0))
  | _ =>
    if 0x080 ≤ n && n < 0x090 then
      some ((if n % 2 = 0 then core.dcAddr else core.dcCtl).toList.getD ((n - 0x080) / 2) 0)
    else match n with
      | 0x090 => some core.trcBase
      | 0x091 => some core.trcCtl
      | 0x092 => some core.trcPos
      | _ => none

/-- The long-latency special registers (spec/02 R50). -/
def counterNumber (n : Nat) : Bool :=
  n == 0x030 || n == 0x031 || (0x050 ≤ n && n ≤ 0x054) || (0x060 ≤ n && n ≤ 0x064)

/-- An older instruction that writes the register of a number has issued and has not written it (R119): a SETTILE of the wave that waits to be applied. -/
def Wave.writerWaits (w : Wave) (k : Nat) : Bool := w.tile.isSome && decide (0x010 ≤ k) && decide (k ≤ 0x014)

/-- SRR of number `n` (R118, R119): privilege and then an unassigned number, before any register is looked at (spec/01 R22), then the value; LCUSE
samples all five counters (spec/21 R402). A counter is sampled when its SRR issues (spec/02 R50; log entry 129). -/
def State.readSpecial (s : State) (d : Reg) (n : BitVec 12) (i : Instr) : Out State :=
  s.runWave (fun wi _ w sp =>
    let k := n.toNat
    if (srrNeed n).above w.lvl then privilege i
    else match s.special wi w sp k with
      | none => reservedField i
      | some v => if w.writerWaits k then .stall else w.gate { sd := [d] } (fun _ =>
        let s := if k = 0x060 then s.updVFile w.vfile (fun f => { f with sample := f.lc }) else s
        if counterNumber k then .done (s.updWave wi (fun w => w.later d v false)) else .done (s.setReg wi d v)))

/-- SRR. -/
def execSrr (d : Reg) (n : BitVec 12) (s : State) : Out State := s.readSpecial d n (.srr d n)

/-- WMODE written by MODE or SRW (spec/02 R46): VL falls to a lower VLMAX. -/
def Wave.setMode (w : Wave) (v : Nat) : Wave :=
  let m := keepLegacy w.wmode v
  { w with wmode := m, vl := min w.vl (vlmaxOf m) }

/-- What an SRW did: nothing legal, or the state. -/
abbrev Wrote := Option State

/-- The state when `c` holds. -/
def writeIf (c : Bool) (s : State) : Wrote := if c then some s else none

/-- Bits `hi` to `lo` of a written value are zero. -/
def zeroBits (v hi lo : Nat) : Bool := bits v hi lo == 0

/-- SRW of a loop register (R121): the innermost loop of the issuing split; LPEND.DEPTH cannot be written. -/
def State.writeLoop (s : State) (wi si k : Nat) (v : Word) : Wrote :=
  let upd (f : Loops → Loops) : State :=
    s.updWave wi (fun w => { w with splits := updAt w.splits si (fun x => { x with loops := f x.loops }) })
  if k = 8 then some (upd (fun l => { l with cnt := v }))
  else if k = 9 then writeIf (!highBits v) (upd (fun l => { l with beg := v }))
  else writeIf (zeroBits v.toNat 61 57) (upd (fun l => { l with fin := v &&& 0x01FFFFFFFFFFFFFF#64 }))

/-- SRW of a comparator register (spec/21 R395): reserved fields and ACTION 3 are refused. -/
def State.writeComparator (s : State) (core k : Nat) (v : Word) : Wrote :=
  let i := (k - 0x080) / 2
  let u := v.toNat
  if k % 2 = 0 then
    writeIf (!highBits v && u % 4 == 0) (s.updCore core (fun c => { c with dcAddr := c.dcAddr.setIfInBounds i v }))
  else
    writeIf (zeroBits u 63 32 && zeroBits u 18 16 && zeroBits u 7 4 && zeroBits u 1 1 && bits u 3 2 != 3)
      (s.updCore core (fun c => { c with dcCtl := c.dcCtl.setIfInBounds i v }))

/-- SRW of a trace register (spec/21 R399, Table 21.2): LOST clears by a 1. -/
def State.writeTrace (s : State) (core k : Nat) (v : Word) : Wrote :=
  let u := v.toNat
  let c := s.core core
  if k = 0x090 then writeIf (!highBits v && zeroBits u 11 0) (s.updCore core (fun c => { c with trcBase := v }))
  else if k = 0x091 then
    writeIf (zeroBits u 63 12 && zeroBits u 7 5 && decide (12 ≤ bits u 4 0) && decide (bits u 4 0 ≤ 24))
      (s.updCore core (fun c => { c with trcCtl := (v &&& ~~~0x800#64) ||| (c.trcCtl &&& 0x800#64 &&& ~~~v) }))
  else
    writeIf (zeroBits u 63 25 && u % 64 == 0 && decide (u < 2 ^ bits c.trcCtl.toNat 4 0))
      (s.updCore core (fun c => { c with trcPos := v }))

/-- The effect of an SRW on every other register (R120, Table 2.6): read-only ones complete with no effect. -/
def State.writeOther (s : State) (wi : Nat) (w : Wave) (k : Nat) (v : Word) : Wrote :=
  let u := v.toNat
  let frame (off : Nat) : State := if w.lvl = 0 then s else s.writeN (frameKey wi w.lvl + off) 8 u
  match k with
  | 0x000 => writeIf (decide (u ≤ w.vlmax)) (s.updWave wi (fun w => { w with vl := u }))
  | 0x004 => writeIf (decide (u ≤ 3)) (s.updWave wi (fun w => { w with space := BitVec.ofNat 2 u }))
  | 0x005 => writeIf (decide (u ≤ w.vlmax)) (s.updWave wi (fun w => { w with esr := u }))
  | 0x006 => writeIf (esvOk u) (s.updWave wi (fun w => { w with esv := v }))
  | 0x040 => writeIf (decide (u < 2 ^ 16)) (frame 264)
  | 0x041 => writeIf (!highBits v && u % 4 == 0) (frame 256)
  | 0x042 => some (frame 272)
  | 0x044 => writeIf (!highBits v && u % 4 == 0) (s.updWave wi (fun w => { w with trapbase := v }))
  | _ => some s

/-- SRW of WMODE (spec/02 R46). -/
def State.writeMode (s : State) (wi : Nat) (v : Word) : Wrote :=
  writeIf (wmodeOk v.toNat) (s.updWave wi (fun w => w.setMode v.toNat))

/-- SRW of WSTAT clears each flag whose bit is 1 (spec/02 R47). -/
def State.clearFlags (s : State) (wi : Nat) (v : Word) : Wrote :=
  some (s.updWave wi (fun w => { w with wstat := w.wstat &&& ~~~(v.setWidth 8) }))

/-- SRW of CLASSCHG clears CHG by a 1 (spec/14 Table 14.1). -/
def State.clearClassChg (s : State) (w : Wave) (v : Word) : Wrote :=
  some (s.updBlock w.block (fun b => { b with classchg := b.classchg &&& ~~~(v.setWidth 2 &&& 1#2) }))

/-- SRW of LCMASK at D clears all five counters (spec/21 R402). -/
def State.clearCounters (s : State) (w : Wave) : Wrote :=
  some (s.updVFile w.vfile (fun f => { f with lc := Vector.replicate 5 0 }))

/-- The effect of an SRW of an assigned number. -/
def State.writeSpecial (s : State) (wi si : Nat) (w : Wave) (k : Nat) (v : Word) : Wrote :=
  if k = 2 then s.writeMode wi v
  else if k = 3 then s.clearFlags wi v
  else if k = 0x018 then s.clearClassChg w v
  else if k = 0x061 then s.clearCounters w
  else if 8 ≤ k && k ≤ 0xA then s.writeLoop wi si k v
  else if 0x080 ≤ k && k < 0x090 then s.writeComparator (s.coreOf w) k v
  else if 0x090 ≤ k && k ≤ 0x092 then s.writeTrace (s.coreOf w) k v
  else s.writeOther wi w k v

/-- SRW of number `n` from s[a] (R118, R120): privilege and then an unassigned number, before any register is looked at (spec/01 R22), then a refused
value, then the effect. -/
def State.srw (s : State) (a : Reg) (n : BitVec 12) (i : Instr) : Out State :=
  s.runWave (fun wi si w sp =>
    let k := n.toNat
    if (srwNeed n).above w.lvl then privilege i
    else if (s.special wi w sp k).isNone then reservedField i
    else w.gate { ss := [(a, 0)] } (fun _ => match s.writeSpecial wi si w k (w.rd a) with
      | none => reservedField i
      | some s' =>
        if 8 ≤ k && k ≤ 0xA then
          -- the loop step of R107 uses the values just written
          match s'.waves[wi]? with
          | none => .done s'
          | some w' => match w'.splits[si]? with
            | none => .done s'
            | some sp' => .left (s'.complete s' wi si sp' (sp.pc + 4) sp.pc false)
        else .done s'))

/-- SRW. -/
def execSrw (a : Reg) (n : BitVec 12) (s : State) : Out State := s.srw a n (.srw a n)
/-- LCUSE_SAMPLE: an SRR of LCUSE (spec/21 R402). -/
def execLcuseSample (d : Reg) (s : State) : Out State := s.readSpecial d 0x060 (.srr d 0x060)
/-- LCMASK_CLEAR: an SRW of LCMASK (spec/21 R402). -/
def execLcmaskClear (a : Reg) (s : State) : Out State := s.srw a 0x061 (.srw a 0x061)
/-- WSTAT_CLEAR: an SRW of WSTAT (spec/02 R47). -/
def execWstatClear (a : Reg) (s : State) : Out State := s.srw a 0x003 (.srw a 0x003)
/-- CLASSCHG_CLEAR: an SRW of CLASSCHG (spec/14 R284). -/
def execClasschgClear (a : Reg) (s : State) : Out State := s.srw a 0x018 (.srw a 0x018)
/-- WMODE_WRITE: an SRW of WMODE (spec/02 R46). -/
def execWmodeWrite (a : Reg) (s : State) : Out State := s.srw a 0x002 (.srw a 0x002)
/-- LOOP_REGISTER_WRITE: an SRW of LPCNT, LPBEG or LPEND (R121); any other number is not this step. -/
def execLoopRegisterWrite (a : Reg) (n : BitVec 12) (s : State) : Out State :=
  if 8 ≤ n.toNat && n.toNat ≤ 0xA then s.srw a n (.srw a n) else idle s
/-- COMPARATOR_REGISTER_WRITE: an SRW of DCnADDR or DCnCTL (spec/21 R395). -/
def execComparatorRegisterWrite (a : Reg) (n : BitVec 12) (s : State) : Out State :=
  if 0x080 ≤ n.toNat && n.toNat < 0x090 then s.srw a n (.srw a n) else idle s
/-- TRACE_REGISTER_WRITE: an SRW of a trace register (spec/21 R399). -/
def execTraceRegisterWrite (a : Reg) (n : BitVec 12) (s : State) : Out State :=
  if 0x090 ≤ n.toNat && n.toNat ≤ 0x092 then s.srw a n (.srw a n) else idle s
/-- SPECIAL_REGISTER_WRITE: an SRW of any other register (R120). -/
def execSpecialRegisterWrite (a : Reg) (n : BitVec 12) (s : State) : Out State := s.srw a n (.srw a n)

end Sys2Proof.Machine
end

