-- ==== Sys2Proof/Machine/VectorCtl.lean ====
section
/-! DEFINITION. Vector length, mode and space: spec/05 R128 to R131. -/

namespace Sys2Proof.Machine

/-- A VLDF of the wave awaits its answer, which may lower VL for younger instructions (spec/06 R154). -/
def Wave.lengthOut (w : Wave) : Bool :=
  match w.ask with
  | some q => match q.kind with
    | .vector x => x.ldf.isSome
    | _ => false
  | none => false

/-- A VCTL instruction: the claim check of spec/04 R117, the gates, then its body, in program order after what may lower VL (R131). -/
def State.vctl (s : State) (i : Instr) (ss : List (Reg × Nat)) (sd : List Reg)
    (k : Nat → Wave → Split → Res) : Out State :=
  s.runWave (fun wi _ w sp =>
    if w.unclaimed then .trap ⟨3, 5, wordOf i⟩ else w.gate { ss := ss, sd := sd } (fun _ => if w.lengthOut then .stall else k wi w sp))

/-- The caps of a grant record: VLCAP, EFF, HCOL (spec/21 Table 21.3). -/
def CoreSt.capsWord (c : CoreSt) : Nat := c.vlcap + min c.part c.power * 2 ^ 8 + c.hcol * 2 ^ 16

/-- The grant record of type 5, written when GRANT is set (spec/21 R400): the kind of request, the request, the result and the caps at the request. -/
def State.grantRecordOf (s : State) (w : Wave) (sp : Split) (num req result caps : Nat) : State :=
  if (s.core (s.coreOf w)).trcCtl.getLsbD 9 then s.traceRecord w 5 num sp.pc req result sp.mask.toNat caps else s

/-- The record of a request granted as it issues. -/
def State.grantRecord (s : State) (w : Wave) (sp : Split) (num req result : Nat) : State :=
  s.grantRecordOf w sp num req result (s.core (s.coreOf w)).capsWord

/-- SETVL and SETVLI grant a vector length (R129). During run-ahead one that would write a grant record waits: its record could not be unwound (R131). -/
def State.grantVl (s : State) (wi : Nat) (w : Wave) (sp : Split) (d : Reg) (req : Nat) : Res :=
  let cap := w.vlmax * (s.core (s.coreOf w)).vlcap / 64
  let vl := min req cap
  if w.ahead && (s.core (s.coreOf w)).trcCtl.getLsbD 9 then .stall
  else .done ((s.grantRecord w sp 0 req vl).updWave wi (fun w => { w.note (.vl w.vl w.cap) with vl := vl, cap := (s.core (s.coreOf w)).vlcap }.wr d (word vl)))

/-- SETVL. -/
def execSetvl (d a : Reg) (s : State) : Out State :=
  s.vctl (.setvl d a) [(a, 0)] [d] (fun wi w sp => s.grantVl wi w sp d (w.rd a).toNat)
/-- SETVLI. -/
def execSetvli (d : Reg) (n : BitVec 12) (s : State) : Out State :=
  s.vctl (.setvli d n) [] [d] (fun wi w sp => s.grantVl wi w sp d n.toNat)
/-- MODE (R130): the source is read before s[d] is written. -/
def execMode (d a : Reg) (s : State) : Out State :=
  s.vctl (.mode d a) [(a, 0)] [d] (fun wi w _ =>
    if wmodeOk (w.rd a).toNat then
      .done (s.updWave wi (fun w => ((w.note (.mode w.wmode w.vl)).setMode (w.rd a).toNat).wr d (w.wmode.setWidth 64)))
    else reservedField (.mode d a))
/-- SPACE (R130). -/
def execSpace (d a : Reg) (s : State) : Out State :=
  s.vctl (.space d a) [(a, 0)] [d] (fun wi w _ =>
    if (w.rd a).toNat ≤ 3 then
      .done (s.updWave wi (fun w => { w.note (.space w.space) with space := (w.rd a).setWidth 2 }.wr d (w.space.setWidth 64)))
    else reservedField (.space d a))

end Sys2Proof.Machine
end

