-- ==== Sys2Proof/Machine/Matrix.lean ====
section
/-! DEFINITION. The grant, operand slots, multiplies and accumulator sets: spec/10 R212 to R221, spec/11 R229 to R247, spec/03 R92 to
R94, with the steps TILE_GRANT_APPLY and MMA_DISPATCH of spec/95. -/

namespace Sys2Proof.Machine

/-! ### What they share (R229, R230) -/

/-- In legacy mode every matrix word raises "illegal convergence" (R229). -/
def State.matLegacy (s : State) (i : Instr) (k : Out State) : Out State :=
  match s.waves[s.cur.wave]? with
  | some w => if w.legacy then s.runWave (fun _ _ _ _ => .trap ⟨15, 1, wordOf i⟩) else k
  | none => k

/-- A matrix instruction of scalar operands. -/
def State.matScalar (s : State) (i : Instr) (ss : List (Reg × Nat)) (sd : List Reg)
    (k : Nat → Nat → Wave → Split → Res) : Out State :=
  s.matLegacy i (s.scalar ss sd k)

/-- The "slot" trap: a slot or set number and a reason (Table 11.1). -/
def slotTrap (n reason : Nat) : Trap := ⟨15, 3, word (n % 256 + reason * 256)⟩

/-- No grant exists (Table 11.1). -/
def noGrant : Trap := ⟨15, 2, word (2 ^ 63)⟩

/-- Equal grants. -/
def Grant.same (a b : Grant) : Bool :=
  a.rows == b.rows && a.cols == b.cols && a.depth == b.depth && a.fmt == b.fmt && a.sparse == b.sparse

/-- A grant exists. -/
def Grant.exists? (g : Grant) : Bool := g.rows != 0

/-! ### The grant (spec/10 R212) -/

/-- fit(r, m): the smaller, rounded down to a power of two from 8 up. -/
def fit (r m : Nat) : Nat := let v := min r m; if v ≥ 8 then 2 ^ Nat.log2 v else v

/-- The group size G of a matrix format (spec/03 R92). -/
def groupSize (fmt : Nat) : Nat := if fmt = 2 || fmt = 3 then 4 else 8

/-- Class maxima: rows and columns, depth, sparse depth (spec/10 Table 10.1). -/
def tileMax (e : Bool) (fmt : Nat) : Nat × Nat × Nat :=
  let wide := fmt == 2 || fmt == 3
  if e then (16, if wide then 16 else 32, 48) else (64, if wide then 32 else 64, if wide then 48 else 96)

/-- The status and grant of a packed request (R212). -/
def CoreSt.request (c : CoreSt) (e : Bool) (a : Nat) : Nat × Grant :=
  let rows := bits a 15 0
  let cols := bits a 31 16
  let dep := bits a 47 32
  let fmt := bits a 52 48
  let sp := bits a 55 53
  let (rmax, dmax, smax) := tileMax e fmt
  if bits a 63 57 ≠ 0 || sp > 4 then (4, .none)
  else if fmt < 2 || fmt > 8 then (1, .none)
  else if rows = 0 || cols = 0 || dep = 0 then (3, .none)
  else
    let eff := min c.part c.power
    let gr := fit rows (min rmax eff)
    let gc := fit cols (min (min rmax eff) c.hcol)
    let step := if sp = 0 then groupSize fmt else 48
    let gd := min dep (if sp = 0 then dmax else smax) / step * step
    if gd = 0 then (3, .none)
    else if bit a 56 && (gr ≠ rows || gc ≠ cols || gd ≠ dep) then (2, .none)
    else (0, ⟨gr, gc, gd, fmt, sp⟩)

/-- A grant in the request layout (spec/11 R232). -/
def Grant.packed (g : Grant) : Nat :=
  g.rows + g.cols * 2 ^ 16 + g.depth * 2 ^ 32 + g.fmt * 2 ^ 48 + g.sparse * 2 ^ 53

/-- The result of a TILEQ. -/
def tileResult (st : Nat) (g : Grant) : Word := word (if st = 0 then g.packed else st * 2 ^ 57)

/-- A multiply of a core that is not finished. -/
def CoreSt.ops (c : CoreSt) : List MmaOp := c.run.toList ++ c.qhi ++ c.qlo

/-- A block's multiplies that issued before state number `since`, and its slot fills, are all done (R233). -/
def State.tileQuiet (s : State) (bi since : Nat) : Bool :=
  let c := s.core (s.block bi).core
  c.ops.all (fun o => o.block != bi || decide (since ≤ o.since)) && c.slots.all (fun x => x.st == 0 || x.owner != bi || x.filling == 0)

/-- A grant applied to a block: its filled slots whose recorded grant differs become stale (spec/10 R216). -/
def State.applyGrant (s : State) (bi : Nat) (g : Grant) : State :=
  (s.updBlock bi (fun b => { b with grant := g })).updCore (s.block bi).core (fun c => { c with
    slots := c.slots.map (fun x => if x.st == 2 && x.owner == bi && !x.grant.same g then { x with st := 3 } else x) })

/-- The wait of a SETTILE belongs to a split: it stands at its address with its lanes. -/
def TileWait.ofSplit (t : TileWait) (x : Split) : Bool := x.pc == t.pc && x.mask &&& t.lanes != 0

/-- A SETTILE ends: its record, with the caps at the request (spec/21 R400), and its status. -/
def State.settileEnd (s : State) (wi : Nat) (w : Wave) (sp : Split) (d : Reg) (req : Word) (st : Nat) (g : Grant) (caps : Nat) : Res :=
  .done (((s.grantRecordOf w sp 1 req.toNat (tileResult st g).toNat caps).updWave wi (fun w => { w with tile := none })).setReg wi d (word st))

/-- A SETTILE that has issued (R233): its grant is applied once the block is quiet. -/
def State.settileWait (s : State) (wi : Nat) (w : Wave) (sp : Split) (t : TileWait) : Res :=
  if s.tileQuiet w.block t.since then (s.applyGrant w.block t.grant).settileEnd wi w sp t.d t.request 0 t.grant t.caps else .stall

/-- SETTILE as it issues (R232): the request is evaluated, and a grant that differs from the current one waits with what it was granted. -/
def State.settile (s : State) (wi : Nat) (w : Wave) (sp : Split) (d a : Reg) : Res :=
  let c := s.core (s.coreOf w)
  let req := w.rd a
  let (st, g) := c.request (isE (s.coreOf w)) req.toNat
  if st ≠ 0 || g.same (s.block w.block).grant then s.settileEnd wi w sp d req st g c.capsWord
  else if s.tileQuiet w.block s.now then (s.applyGrant w.block g).settileEnd wi w sp d req 0 g c.capsWord
  else .stallIn (s.updWave wi (fun w => { w with tile := some ⟨sp.pc, sp.mask, d, req, g, c.capsWord, s.now⟩ }))

/-- SETTILE (R232, R233; log entry 135): one that has issued goes on with its wait. -/
def execSettile (d a : Reg) (s : State) : Out State :=
  s.matLegacy (.settile d a) (s.runWave (fun wi _ w sp =>
    match w.tile.filter (fun t => w.splits.any t.ofSplit) with
    | some t => if t.ofSplit sp then s.settileWait wi w sp t else .stall
    | none => w.gate { ss := [(a, 0)], sd := [d] } (fun _ => s.settile wi w sp d a)))

/-- TILEQ (R232). -/
def execTileq (d a : Reg) (s : State) : Out State :=
  s.matScalar (.tileq d a) [(a, 0)] [d] (fun wi _ w sp =>
    let r := let (st, g) := (s.core (s.coreOf w)).request (isE (s.coreOf w)) (w.rd a).toNat; tileResult st g
    .done ((s.grantRecord w sp 1 (w.rd a).toNat r.toNat).setReg wi d r))

/-- TILE_GRANT_APPLY: the SETTILE a wave waits in is applied once its block is quiet (R233), unless the wave stands still. -/
def execTileGrantApply (wi : Nat) (s : State) : Out State :=
  match s.waves[wi]? with
  | none => idle s
  | some w => match w.tile with
    | none => idle s
    | some t =>
      match findIdx t.ofSplit w.splits 0 with
      | none => idle s
      | some si => match w.splits[si]? with
        | none => idle s
        | some sp =>
          if s.running w && s.tileQuiet w.block t.since then .next (s.retire wi si sp (s.settileWait wi w sp t)) else idle s

/-! ### Operand slots (R234 to R239) -/

/-- Slot `n` of a core, none beyond the class's range. -/
def CoreSt.slot? (c : CoreSt) (n : Nat) : Option Slot := c.slots[n]?

/-- One slot of a core changed. -/
def State.updSlot (s : State) (core n : Nat) (f : Slot → Slot) : State :=
  s.updCore core (fun c => { c with slots := updAt c.slots n f })

/-- The image key of a slot. -/
def slotKey (core n : Nat) : Nat := memKey .slot (core * 16 + n) 0

/-- The bytes of a slot and its side area (R237): 11,264 hold both on either class. -/
def slotBytes : Nat := 11264

/-- An unfinished multiply names the slot. -/
def CoreSt.slotInUse (c : CoreSt) (n : Nat) : Bool := c.ops.any (fun o => o.slotA == n || o.slotB == n)

/-- A slot owned by a block. -/
def Slot.ownedBy (x : Slot) (bi : Nat) : Bool := x.st != 0 && x.owner == bi

/-- A waiting claimer of a core is still waiting there: one of the wave's splits is held at that address. -/
def State.claims (s : State) (core : Nat) (e : Nat × Word) : Bool :=
  match s.waves[e.1]? with
  | none => false
  | some w => s.coreOf w == core && !w.ended && w.stopped.isNone && !w.suspended && !w.halted && w.splits.any (fun x => x.pc == e.2 && x.held.isSome)

/-- OCLAIM (R235): the lowest free slot, zeroed, in the order of the claims; with none free it waits, or answers all ones with no-wait. -/
def execOclaim (d : Reg) (nw role : BitVec 1) (s : State) : Out State :=
  s.matScalar (.oclaim d nw role) [] [d] (fun wi _ w sp =>
    let ci := s.coreOf w
    let c := s.core ci
    let ahead := (c.claimers.filter (s.claims ci)).takeWhile (fun e => !(e.1 == wi && e.2 == sp.pc))
    let free := findIdx (fun (x : Slot) => x.st == 0) c.slots 0
    match (if ahead.isEmpty then free else none) with
    | some n =>
      let s := s.updCore ci (fun c => { c with claimers := c.claimers.filter (fun e => !(e.1 == wi && e.2 == sp.pc)) })
      let s := (s.updSlot ci n (fun _ => ⟨1, w.block, role.toNat, .none, 0⟩)).clearBytes (slotKey ci n) slotBytes
      .done (s.setReg wi d (word n))
    | none =>
      if nw = 1 then .done (s.setReg wi d (BitVec.allOnes 64))
      else .waitIn (s.updCore ci (fun c => { c with
        claimers := let l := c.claimers.filter (s.claims ci)
          if l.any (fun e => e.1 == wi && e.2 == sp.pc) then l else l ++ [(wi, sp.pc)] })))

/-- ORLS (R236). -/
def execOrls (a : Reg) (s : State) : Out State :=
  s.matScalar (.orls a) [(a, 0)] [] (fun _ _ w _ =>
    let ci := s.coreOf w
    let n := (w.rd a).toNat
    match (s.core ci).slot? n with
    | none => .trap (slotTrap n 2)
    | some x =>
      if !x.ownedBy w.block then .trap (slotTrap n 1)
      else if (s.core ci).slotInUse n || x.filling ≠ 0 then .stall
      else .done (s.updSlot ci n (fun _ => .free)))

/-- Bytes of an element of a matrix format (R237). -/
def matBytes (fmt : Nat) : Nat := if fmt = 2 || fmt = 3 then 2 else 1

/-- N of a sparse code: values kept of each span of 48. -/
def sparseN (code : Nat) : Nat := match code with | 1 => 12 | 2 => 16 | 3 => 24 | _ => 32

/-- The value bytes of a tile of a role under a grant (R237). -/
def Grant.valueBytes (g : Grant) (role : Nat) : Nat :=
  if role = 1 then g.depth * g.cols * matBytes g.fmt
  else if g.sparse = 0 then g.rows * g.depth * matBytes g.fmt
  else g.rows * (g.depth / 48) * sparseN g.sparse * matBytes g.fmt

/-- The metadata bytes of a tile (R237). -/
def Grant.metaBytes (g : Grant) (role : Nat) : Nat :=
  if role = 1 || g.sparse = 0 then 0 else (g.rows * (g.depth / 48) * sparseN g.sparse * 6 + 7) / 8

/-- The first draw number a step uses for a slot's bytes. -/
def State.slotDraw (s : State) : Nat := s.tick + 2 ^ 28

/-- `n` bytes of a slot's image free values. -/
def State.freeSlot (s : State) (core n count : Nat) : State :=
  s.writeBytes (slotKey core n) ((List.range count).map (fun i => Config.freeByte (s.slotDraw + 16384 * n + i)))

/-- A fill of a slot begins: what a stale one holds is unpredictable (spec/10 R216, spec/00 R8). -/
def State.freshSlot (s : State) (core n : Nat) : State :=
  match (s.core core).slot? n with
  | some x => if x.st = 3 then s.freeSlot core n slotBytes else s
  | none => s

/-- The end of the area of a slot's image in which offset `o` lies, if it lies in one (R238). -/
def areaEnd (g : Grant) (role o : Nat) : Option Nat :=
  if o < g.valueBytes role then some (g.valueBytes role)
  else if 8192 ≤ o && o < 8192 + g.metaBytes role then some (8192 + g.metaBytes role)
  else none

/-- The slot of an OFILL filled from the bytes of a group (R238). -/
def State.ofill (s : State) (w : Wave) (d : Reg) (v : Word) : Res :=
  let ci := s.coreOf w
  let c := s.core ci
  let n := bits v.toNat 3 0
  let o := bits v.toNat 29 16
  let g := (s.block w.block).grant
  match c.slot? n with
  | none => .trap (slotTrap n 2)
  | some x =>
    if !x.ownedBy w.block then .trap (slotTrap n 1)
    else if !g.exists? then .trap noGrant
    else match areaEnd g x.role o with
      | none => .trap (slotTrap n 8)
      | some stop =>
        if bits v.toNat 15 4 ≠ 0 || bits v.toNat 63 30 ≠ 0 || o % 4 ≠ 0 then .trap (slotTrap n 8)
        else if c.slotInUse n then .stall
        else
          let s := s.freshSlot ci n
          let vf := s.vfile w.vfile
          let bytes := (regRange d.toNat w.grp).flatMap (fun r => leBytes 256 (vf.reg r).toNat)
          .done ((s.writeBytes (slotKey ci n + o) (bytes.take (stop - o))).updSlot ci n (fun x => { x with st := 2, grant := g }))

/-- OFILL: the group is read in full in position c. -/
def execOfill (d a : Reg) (s : State) : Out State :=
  s.matLegacy (.ofill d a) (s.vec (.ofill d a)
    (fun w _ => { reads := [⟨d.toNat, w.grp, 2, regRange d.toNat w.grp⟩], ss := [(a, 0)] })
    (fun _ _ w _ => s.ofill w d (w.rd a)))

/-- OQRY (R239, Table 11.3). -/
def execOqry (d a : Reg) (s : State) : Out State :=
  s.matScalar (.oqry d a) [(a, 0)] [d] (fun wi _ w _ =>
    let c := s.core (s.coreOf w)
    let n := (w.rd a).toNat
    .done (s.setReg wi d (match c.slot? n with
      | none => 0
      | some x =>
        if x.ownedBy w.block then
          word (2 ^ 63 + b2n (c.slotInUse n || x.filling != 0) * 2 ^ 59 + x.st * 2 ^ 57 + x.role * 2 ^ 56
            + (if x.st = 1 then 0 else x.grant.packed))
        else 0)))

/-! ### Multiplies (R231, R240 to R242) -/

/-- Converged (R231): one split of all 64 lanes, the guard's low bits all set. -/
def Wave.converged (w : Wave) : Bool :=
  match w.splits with
  | [x] => x.mask == BitVec.allOnes 64 && (List.range (min w.vlmax 64)).all (fun i => (w.rdK w.guardReg).getLsbD i)
  | _ => false

/-- The physical set of a block's set `n`, none when not held (spec/10 R217). -/
def Block.set? (b : Block) (n : Nat) : Option Nat := b.sets[n]?

/-- The trap of one operand of a multiply: range, ownership, role (R240). -/
def CoreSt.operandTrap (c : CoreSt) (bi n role : Nat) : Option Trap :=
  match c.slot? n with
  | none => some (slotTrap n 2)
  | some x => if !x.ownedBy bi then some (slotTrap n 1) else if x.role ≠ role then some (slotTrap n 3) else none

/-- The stale-grant trap of one operand: `op` 0 for a, 1 for b (Table 11.1). -/
def CoreSt.staleTrap (c : CoreSt) (n op : Nat) : Option Trap :=
  match c.slot? n with
  | some x => if x.st = 1 || x.st = 3 then some ⟨15, 2, word (n + op * 256 + x.st * 512)⟩ else none
  | none => none

/-- The first failing check of a multiply of function `fn` (R230, R240), after convergence; for reason 5, which is of both operands, TRAPVAL names a's slot (the model's
choice: log entry 158). -/
def State.mmaTrap (s : State) (w : Wave) (fn set na nb : Nat) : Option Trap :=
  let b := s.block w.block
  let c := s.core b.core
  if (b.set? set).isNone then some (slotTrap set 6)
  else match c.operandTrap w.block na 0 with
    | some t => some t
    | none => match c.operandTrap w.block nb 1 with
      | some t => some t
      | none =>
        if !b.grant.exists? then some noGrant
        else match c.staleTrap na 0 with
          | some t => some t
          | none => match c.staleTrap nb 1 with
            | some t => some t
            | none => if (fn == 1) != (b.grant.sparse != 0) then some (slotTrap na 5) else none

/-- The value bytes of a slot's image. -/
def State.slotImage (s : State) (core n count : Nat) : List Byte := (List.range count).map (fun i => memRead s.mem (slotKey core n + i))

/-- What a multiply that issued beside a fill of slot `n` keeps of the slot as that fill ends (R241). -/
def MmaOp.keep (o : MmaOp) (n : Nat) (image : Nat → List Byte) : MmaOp :=
  { o with
    oldA := if o.mixA && o.slotA == n then o.oldA ++ [image (o.grant.valueBytes 0)] else o.oldA
    oldB := if o.mixB && o.slotB == n then o.oldB ++ [image (o.grant.valueBytes 1)] else o.oldB }

/-- A fill of slot `n` is about to end: every multiply that issued beside it keeps the old bytes (R241). -/
def State.keepOld (s : State) (core n : Nat) : State :=
  let f (o : MmaOp) : MmaOp := o.keep n (s.slotImage core n)
  s.updCore core (fun c => { c with run := c.run.map f, qhi := c.qhi.map f, qlo := c.qlo.map f })

/-- A fill of the slot is in flight. -/
def CoreSt.fillsNow (c : CoreSt) (n : Nat) : Bool := match c.slot? n with | some x => x.filling != 0 | none => false

/-- A multiply of function `fn`: 0 MMA, 1 MMAS, 2 MMAZ (R240). -/
def State.multiply (s : State) (i : Instr) (fn : Nat) (d : BitVec 2) (a b : Reg) (hi : BitVec 1) : Out State :=
  s.matLegacy i (s.runWave (fun _ _ w _ =>
    if w.unclaimed then .trap ⟨3, 5, wordOf i⟩
    else w.gate { ss := [(a, 0), (b, 1)] } (fun _ =>
      let blk := s.block w.block
      let c := s.core blk.core
      let na := (w.rd a).toNat
      let nb := (w.rd b).toNat
      if !w.converged then .trap ⟨15, 1, wordOf i⟩
      else match s.mmaTrap w fn d.toNat na nb with
        | some t => .trap t
        | none =>
          if (if hi = 1 then c.qhi else c.qlo).length ≥ 4 then .stall
          else
            let op : MmaOp := ⟨fn, w.block, d.toNat, (blk.set? d.toNat).getD 0, na, nb, blk.grant, w.rnd, w.sat,
              1 + (c.ops.map (·.order)).foldl max 0, c.fillsNow na, c.fillsNow nb, s.now, [], []⟩
            let s := s.updCore blk.core (fun c => if hi = 1 then { c with qhi := c.qhi ++ [op] } else { c with qlo := c.qlo ++ [op] })
            .done (s.updBlock w.block (fun b => { b with
              live := b.live ||| BitVec.ofNat 4 (2 ^ d.toNat)
              dmg := if fn = 2 then b.dmg &&& ~~~(BitVec.ofNat 4 (2 ^ d.toNat)) else b.dmg })))))

/-- MMA. -/
def execMma (d : BitVec 2) (a b : Reg) (hi : BitVec 1) (s : State) : Out State := s.multiply (.mma d a b hi) 0 d a b hi
/-- MMAS. -/
def execMmas (d : BitVec 2) (a b : Reg) (hi : BitVec 1) (s : State) : Out State := s.multiply (.mmas d a b hi) 1 d a b hi
/-- MMAZ. -/
def execMmaz (d : BitVec 2) (a b : Reg) (hi : BitVec 1) (s : State) : Out State := s.multiply (.mmaz d a b hi) 2 d a b hi

/-- The slot of a queued multiply is filled: it was as the multiply issued (R240), and later a SETTILE of another wave may have made it stale, or a fill that was
in flight may have failed, which stop no multiply (R241, R242; log entry 135). -/
def CoreSt.slotReady (c : CoreSt) (n : Nat) (mix : Bool) : Bool := match c.slot? n with | some x => decide (2 ≤ x.st) || mix | none => false

/-- A head is ready: its slots are filled and no older multiply of its set is unfinished (spec/10 R220). -/
def CoreSt.headReady (c : CoreSt) (o : MmaOp) : Bool :=
  c.slotReady o.slotA o.mixA && c.slotReady o.slotB o.mixB
    && c.ops.all (fun p => p.set != o.set || o.order ≤ p.order)

/-- MMA_DISPATCH on a core (R220): the high head when ready, else the low one. -/
def execMmaDispatch (core : Nat) (s : State) : Out State :=
  let c := s.core core
  if c.run.isSome then idle s
  else match c.qhi, c.qlo with
    | h :: r, lo =>
      if c.headReady h then ok (s.updCore core (fun c => { c with run := some h, qhi := r }))
      else match lo with
        | l :: r' => if c.headReady l then ok (s.updCore core (fun c => { c with run := some l, qlo := r' })) else idle s
        | [] => idle s
    | [], l :: r => if c.headReady l then ok (s.updCore core (fun c => { c with run := some l, qlo := r })) else idle s
    | [], [] => idle s

/-! ### Accumulator sets -/

/-- The key of an element of a physical set. -/
def accKey (core set i j : Nat) : Nat := ((core * 4 + set) * 64 + i) * 64 + j

/-- An element of a set; what is not listed is +0. -/
def State.acc (s : State) (core set i j : Nat) : Nat := (assocGet 0#32 s.accs (accKey core set i j)).toNat

/-- An element of a set written. -/
def State.setAcc (s : State) (core set i j v : Nat) : State :=
  { s with accs := assocSet 0#32 s.accs (accKey core set i j) (BitVec.ofNat 32 v) }

/-- Every element of a set +0. -/
def State.zeroSet (s : State) (core set : Nat) : State :=
  { s with accs := s.accs.filter (fun e => e.1 / 4096 != core * 4 + set) }

/-- An operand element as an exact value, of a matrix format. -/
def matVal (fmt p : Nat) : FVal :=
  if fmt = 8 then let i := intVal 8 p; .fin (decide (i < 0)) i.natAbs 0 else decodeF fmt p

/-- Element (i, k) of the dense A tile, or (k, j) of B: `row` × `width` + `col` in elements (R237). -/
def State.slotElem (s : State) (core n fmt idx : Nat) : FVal :=
  matVal fmt (s.readN (slotKey core n + idx * matBytes fmt) (matBytes fmt))

/-- Metadata entry number `m` of a sparse A tile: 6 bits of a little-endian string at image offset 8,192. -/
def State.metaEntry (s : State) (core n m : Nat) : Nat :=
  s.readN (slotKey core n + 8192 + m * 6 / 8) 2 / 2 ^ (m * 6 % 8) % 64

/-- The logical row `i` of a sparse A tile (R240): the values whose index is below 48 and rises within its span; all others are zero. -/
def State.sparseRow (s : State) (o : MmaOp) (core i : Nat) : List FVal :=
  let g := o.grant
  let nv := sparseN g.sparse
  let spans := g.depth / 48
  (List.range spans).flatMap (fun t =>
    let base := (i * spans + t) * nv
    let idx (m : Nat) : Nat := s.metaEntry core o.slotA (base + m)
    let vals := (List.range nv).filterMap (fun m =>
      if idx m < 48 && (m == 0 || decide (idx (m - 1) < idx m)) then some (idx m, s.slotElem core o.slotA g.fmt (base + m)) else none)
    (List.range 48).map (fun k => match vals.reverse.find? (fun x => x.1 == k) with
      | some x => x.2
      | none => .fin false 0 0))

/-- The logical row `i` of A. -/
def State.rowA (s : State) (o : MmaOp) (core i : Nat) : List FVal :=
  if o.fn = 1 then s.sparseRow o core i
  else (List.range o.grant.depth).map (fun k => s.slotElem core o.slotA o.grant.fmt (i * o.grant.depth + k))

/-- The column `j` of B. -/
def State.colB (s : State) (o : MmaOp) (core j : Nat) : List FVal :=
  (List.range o.grant.depth).map (fun k => s.slotElem core o.slotB o.grant.fmt (k * o.grant.cols + j))

/-- The exact sum of a group of products (spec/03 R92, R93). -/
def groupSum (l : List (FVal × FVal)) : FVal :=
  l.foldl (fun t x => (addV 0 t (mulV x.1 x.2).1).1) (.fin false 0 0)

/-- One update of an element from a group (spec/03 R92 to R94). -/
def accUpdate (fmt : Nat) (sat : Bool) (acc : Nat) (sum : FVal) : Nat :=
  match sum with
  | .fin neg m e =>
    if fmt = 8 then
      let i : Int := if neg then -(m * 2 ^ e.toNat : Nat) else (m * 2 ^ e.toNat : Nat)
      (deliverInt 10 sat (sextN 32 acc + i)).val
    else if m = 0 then acc
    else (deliverF 1 0 false false (addV 0 (decodeF 1 acc) sum).1 false).val
  | _ => (deliverF 1 0 false false (addV 0 (decodeF 1 acc) sum).1 false).val

/-- The groups of an element applied in ascending depth: at most `fuel` of them, G products each. -/
def accRun (fmt g : Nat) (sat : Bool) : Nat → List (FVal × FVal) → Nat → Nat
  | 0, _, acc => acc
  | fuel + 1, l, acc =>
    if l.isEmpty then acc else accRun fmt g sat fuel (l.drop g) (accUpdate fmt sat acc (groupSum (l.take g)))

/-- A multiply of the physical set is unfinished (R244). -/
def CoreSt.setBusy (c : CoreSt) (set : Nat) : Bool := c.ops.any (fun o => o.set == set)

/-- The physical set of an accumulator instruction once it is held and quiet: the checks and the wait of R243, R244. -/
def State.withSet (s : State) (w : Wave) (a : BitVec 2) (k : Nat → Res) : Res :=
  let b := s.block w.block
  match b.set? a.toNat with
  | none => .trap (slotTrap a.toNat 6)
  | some set => if (s.core b.core).setBusy set then .stall else k set

/-- A damaged set stops AXT, AXTS and ASAVE (spec/14 R291). -/
def State.damaged (s : State) (w : Wave) (a : BitVec 2) : Bool := (s.block w.block).dmg.getLsbD a.toNat

/-- The poison trap of a damaged set. -/
def damageTrap (a : BitVec 2) : Trap := ⟨9, 3, word a.toNat⟩

/-- ACCLIVE's live bit of a set, set or cleared; `mend` clears its damage bit (spec/10 R219). -/
def State.setLive (s : State) (bi : Nat) (a : BitVec 2) (live mend : Bool) : State :=
  let m := BitVec.ofNat 4 (2 ^ a.toNat)
  s.updBlock bi (fun b => { b with
    live := if live then b.live ||| m else b.live &&& ~~~m
    dmg := if mend then b.dmg &&& ~~~m else b.dmg })

/-- AZERO (R243). -/
def execAzero (a : BitVec 2) (s : State) : Out State :=
  s.matScalar (.azero a) [] [] (fun _ _ w _ =>
    s.withSet w a (fun set => .done ((s.zeroSet (s.coreOf w) set).setLive w.block a false true)))

/-- Element (r, j) of a set as AXT and AXTS read it: +0 outside the grant. -/
def State.axtElem (s : State) (w : Wave) (set : Nat) (r : Word) (j : Nat) : Nat :=
  let g := (s.block w.block).grant
  if r.toNat < g.rows && j < g.cols then s.acc (s.coreOf w) set r.toNat j else 0

/-- The format of an accumulator element (R244). -/
def Grant.accFmt (g : Grant) : Nat := if g.fmt = 8 then 10 else 1

/-- Results that reach a group of format `fmt` later, with their flags (R56). -/
def State.deliverLater (s : State) (wi : Nat) (w : Wave) (sp : Split) (d : Reg) (fmt : Nat) (l : List (Nat × FRes)) : Res :=
  let sew := sewOf fmt
  let n := w.groupOf fmt
  let vf := w.putElems d.toNat sew (s.vfile w.vfile) (l.map (fun x => (x.1, inFmt fmt x.2.val)))
  let whole (r : Nat) : Bool := (l.filter (fun x => (w.elemAt sew x.1).1 == r)).length == w.regBits / sew
  let s := s.updWave wi (fun w => { w with
    vFull := fullRegs w.vFull d.toNat n false
    pend := w.pend ++ [.vector d ((List.range n).map (fun r => vf.reg (d.toNat + r))) ((List.range n).map whole) (List.replicate n false)] })
  s.raiseFlags wi w sp (l.foldl (fun f (x : Nat × FRes) => f ||| x.2.flags) 0)

/-- AXT (R245). -/
def execAxt (d : Reg) (a : BitVec 2) (b : Reg) (s : State) : Out State :=
  s.matLegacy (.axt d a b) (s.vec (.axt d a b) (fun w _ => { writes := [(d.toNat, w.grp)], ss := [(b, 1)] }) (fun wi _ w sp =>
    if s.damaged w a && ((s.block w.block).set? a.toNat).isSome then .trap (damageTrap a)
    else s.withSet w a (fun set =>
      let src := (s.block w.block).grant.accFmt
      (s.beats w sp w.grp false).deliverLater wi w sp d w.etype ((w.actives sp).map (fun j =>
        (j, convert src w.etype w.rnd w.sat w.ftz (s.axtElem w set (w.rd b) j)))))))

/-- AXTS (R245): the scales come from the old contents of vd, read in position c. -/
def execAxts (d : Reg) (a : BitVec 2) (b : Reg) (fm : BitVec 2) (sat : BitVec 1) (bsel : BitVec 2) (s : State) : Out State :=
  s.matLegacy (.axts d a b fm sat bsel) (s.vec (.axts d a b fm sat bsel)
    (fun w _ =>
      { reads := [⟨d.toNat, 1, 2, [d.toNat]⟩]
        writes := [(d.toNat, w.groupOf (narrowFmt fm))]
        ss := [(b, 1)]
        big := w.tooBig (narrowFmt fm) })
    (fun wi _ w sp =>
      if s.damaged w a && ((s.block w.block).set? a.toNat).isSome then .trap (damageTrap a)
      else s.withSet w a (fun set =>
        let vf := s.vfile w.vfile
        let src := (s.block w.block).grant.accFmt
        (s.beats w sp w.grp false).deliverLater wi w sp d (narrowFmt fm) ((w.actives sp).map (fun j =>
          (j, quantize (narrowFmt fm) w.rnd (sat == 1) w.ftz src (s.axtElem w set (w.rd b) j) (w.scaleByte vf d bsel.toNat j)))))))

/-- AINS (R246). -/
def execAins (d : Reg) (a : BitVec 2) (b : Reg) (s : State) : Out State :=
  s.matLegacy (.ains d a b) (s.vec (.ains d a b) (fun w sp => { reads := [w.src sp d 2], ss := [(b, 1)] }) (fun wi _ w sp =>
    s.withSet w a (fun set =>
      let g := (s.block w.block).grant
      let r := (w.rd b).toNat
      let vf := s.vfile w.vfile
      let l := if r < g.rows then ((w.actives sp).filter (fun j => decide (j < g.cols))).map (fun j =>
          (j, convert w.etype g.accFmt w.rnd w.sat w.ftz (w.getElem vf d.toNat w.sew j))) else []
      let s := s.beats w sp w.grp false
      let s := l.foldl (fun s (x : Nat × FRes) => s.setAcc (s.coreOf w) set r x.1 x.2.val) s
      (s.setLive w.block a true false).raiseFlags wi w sp (l.foldl (fun f (x : Nat × FRes) => f ||| x.2.flags) 0))))

/-- The address of element (i, j) of a set's image (spec/10 R218). -/
def imageAddr (base ld : Word) (i j : Nat) : Word := base + word i * ld + word (4 * j)

/-- The checks of ASAVE, which `writes` memory, and of ALOAD (R247), the wait for older accesses of other paths to the same bytes (spec/06 R147), then the
accesses over the keys of the elements. -/
def State.imageOp (s : State) (i : Instr) (d : Reg) (a : BitVec 2) (b : Reg)
    (writes : Bool) (k : Wave → Nat → List (Nat × Nat × Nat) → State) : Out State :=
  s.matScalar i [(b, 1), (d, 2)] [] (fun wi _ w _ =>
    if writes && s.damaged w a && ((s.block w.block).set? a.toNat).isSome then .trap (damageTrap a)
    else s.withSet w a (fun set =>
      let g := (s.block w.block).grant
      let base := w.rd b
      let ld := w.rd d
      if g.exists? && decide (ld.toNat < 4 * g.cols) then .trap (slotTrap a.toNat 7)
      else if base.toNat % 4 ≠ 0 || ld.toNat % 4 ≠ 0 then .trap ⟨5, 0, base⟩
      else
        let places := (List.range g.rows).flatMap (fun i => (List.range g.cols).map (fun j =>
          (i, j, imageAddr base ld i j, s.localKey wi w (imageAddr base ld i j) 4 4)))
        match places.find? (fun x => match x.2.2.2 with | .error _ => true | .ok _ => false) with
        | some x => .trap ⟨6, 0, x.2.2.1⟩
        | none =>
          let l := places.filterMap (fun x => match x.2.2.2 with
            | .ok key => some (x.1, x.2.1, key)
            | .error _ => none)
          if s.pathWait wi w (l.map (fun x => (0, x.2.2, 4))) writes then .stall else .done (k w set l)))

/-- ASAVE (R247): the side-effect latch is set when the image leaves the own allocation (spec/14 R289). -/
def execAsave (d : Reg) (a : BitVec 2) (b : Reg) (s : State) : Out State :=
  s.imageOp (.asave d a b) d a b true (fun w set l =>
    let core := s.coreOf w
    let s1 := l.foldl (fun s1 (i, j, key) => s1.storeN key 4 (s.acc core set i j)) s
    let s1 := if l.any (fun x => s.outside w (imageAddr (w.rd b) (w.rd d) x.1 x.2.1)) then s1.sideEffect w else s1
    (s1.heal (l.map (fun x => (x.2.2, 4)))).setLive w.block a false false)

/-- ALOAD (R247): an element of a poisoned granule becomes a NaN, or the least integer (spec/16 R334). -/
def execAload (d : Reg) (a : BitVec 2) (b : Reg) (s : State) : Out State :=
  s.imageOp (.aload d a b) d a b false (fun w set l =>
    let core := s.coreOf w
    let bad := if (s.block w.block).grant.fmt = 8 then 0x80000000 else 0x7FC00000
    (l.foldl (fun s1 (i, j, key) =>
      s1.setAcc core set i j (if s.poisoned key 4 then bad else s.readN key 4)) s).setLive w.block a true true)

end Sys2Proof.Machine
end

