-- ==== Sys2Proof/Machine/Launch.lean ====
section
/-! DEFINITION. Blocks and their waves from launch to end: kernels and entries (spec/01 R35, R36), the launch state (spec/02 R40, spec/14
R283), resources of a core, event latches (spec/04 R116), spawn bins (spec/10 R225, R226), and block ends (spec/12 R274). -/

namespace Sys2Proof.Machine

/-! ### Kernels -/

/-- An object by number, an empty one where there is none. -/
def State.obj (s : State) (i : Nat) : Obj := s.objs.getD i ⟨16, 0, 0, 0, [], 0⟩

/-- A kernel that no object holds. -/
def Kernel.blank : Kernel := ⟨1, 0, false, 0, []⟩

/-- The kernel of an object that has this loaded entry address (R35). -/
def Obj.kernelAt (o : Obj) (e : Word) : Option Nat := findIdx (fun (k : Kernel) => k.entries.contains e) o.kernels 0

/-- A kernel of an object. -/
def Obj.kernel (o : Obj) (n : Nat) : Kernel := o.kernels.getD n .blank

/-- The wave slots, scratchpad bytes and class of a core (spec/10 Table 10.1). -/
def coreSlots (core : Nat) : Nat := if isE core then 4 else 8
/-- The scratchpad bytes of a core. -/
def coreScratch (core : Nat) : Nat := if isE core then 196608 else 786432

/-- The kernel may run on a core's class (R36). -/
def Kernel.eligible (k : Kernel) (core : Nat) : Bool := !isE core || (decide (k.waves ≤ 4) && decide (k.scratch ≤ 196608))

/-! ### Resources of a core -/

/-- The blocks of a core, with their numbers. -/
def State.blocksOn (s : State) (core : Nat) : List (Block × Nat) :=
  s.blocks.zipIdx.filter (fun x => x.1.core == core && x.1.resident)

/-- The native waves of a block. -/
def State.nativeWaves (s : State) (b : Block) : Nat :=
  (b.waves.filter (fun i => match s.waves[i]? with | some w => w.half == 0 | none => false)).length

/-- Wave slots of a core in use. -/
def State.slotsUsed (s : State) (core : Nat) : Nat := (s.blocksOn core).foldl (fun n x => n + s.nativeWaves x.1) 0

/-- Allocations of a core that are not released: base and bytes (spec/12 R252). -/
def State.allocs (s : State) (core : Nat) : List (Nat × Nat) :=
  (s.blocks.filter (fun b => b.core == core && b.scratch != 0 && !(s.gang b.gang).released && b.phase != .discarded && b.saved.isNone)).map
    (fun b => (b.scratchBase, b.scratch))

/-- The lowest multiple of 768 from which `n` bytes are free, at most `fuel` tries (R283; log entry 21). -/
def freeBase (used : List (Nat × Nat)) (size n : Nat) : Nat → Nat → Option Nat
  | 0, _ => none
  | fuel + 1, a =>
    if a + n > size then none
    else match used.find? (fun u => decide (u.1 < a + n) && decide (a < u.1 + u.2)) with
      | none => some a
      | some u => freeBase used size n fuel ((u.1 + u.2 + 767) / 768 * 768)

/-- The base of a new allocation on a core. -/
def State.scratchFor (s : State) (core n : Nat) : Option Nat :=
  let used := s.allocs core
  if n = 0 then some 0 else freeBase used (coreScratch core) n (used.length + 1) 0

/-- The physical sets of a core that no block holds and no multiply of a discarded block still writes. -/
def State.freeSets (s : State) (core : Nat) : List Nat :=
  (List.range 4).filter (fun n => (s.blocksOn core).all (fun x => !x.1.sets.contains n) && !(s.core core).setBusy n)

/-- A core has the resources of a block of `waves` waves of the kernel (R283). -/
def State.fits (s : State) (core : Nat) (k : Kernel) (waves : Nat) : Bool :=
  decide (s.slotsUsed core + waves ≤ coreSlots core) && (s.scratchFor core k.scratch).isSome
    && decide (k.accsets ≤ (s.freeSets core).length)

/-! ### Pinned queues (spec/21 R401) -/

/-- The blocks of a queue may stand on a core: it has the pinned class and columns. -/
def State.pinAllows (s : State) (q core : Nat) : Bool :=
  match (s.queue q).pin with
  | none => true
  | some p => (match p.cls with | none => true | some c => (c == 1) == isE core) && (s.core core).hcol == p.hcol

/-- The pinned values a core holds: those of the first pinned queue with a block there. -/
def State.pinOn (s : State) (core : Nat) : Option Pin :=
  match (s.blocksOn core).find? (fun x => (s.queue x.1.queue).pin.isSome) with
  | none => none
  | some x => (s.queue x.1.queue).pin

/-- A core's caps hold the pinned values while a block of a pinned queue is on it. -/
def State.holdPin (s : State) (core : Nat) : State :=
  match s.pinOn core with
  | none => s
  | some p => s.updCore core (fun c => { c with vlcap := p.vlcap, power := p.power })

/-! ### The launch state -/

/-- A wave at its launch (spec/02 Table 2.1, R46, R48, R66; spec/07 R177). -/
def Wave.launch (block index half : Nat) (mate : Option Nat) (vfile : Nat) (legacy : Bool) (entry handler s1 : Word) : Wave :=
  let mode : BitVec 32 := if legacy then 0x80008 else 8
  let w : Wave := {
    block := block
    index := index
    half := half
    mate := mate
    vfile := vfile
    s := Vector.replicate 32 0
    k := Vector.replicate 8 0
    sFull := BitVec.allOnes 32
    vFull := BitVec.allOnes 32
    sPois := 0
    vPois := 0
    wmode := mode
    wstat := 0
    vl := vlmaxOf mode
    space := 0
    esr := 0
    esv := 0
    splits := []
    frozen := []
    latch := false
    lvl := 0
    trapbase := handler
    claims := 0
    heldLevel := 0
    lease := none
    quota := none
    park := none
    halted := false
    suspended := false
    mateTrap := false
    stopped := none
    sysc := none
    cont := none
    pend := []
    leaseDst := none
    ask := none
    ahead := false
    look := none
    cap := 64
    tile := none
    fabFail := []
    streams := []
    hist := []
    ended := false }
  { w.wr 1 s1 with splits := [Split.start w.allLanes entry (some 0)] }

/-- The waves of a block made: `n` native waves at `entry`, two halves each in legacy mode. -/
def State.launchWaves (s : State) (bi : Nat) (legacy : Bool) (entry handler s1 : Word) : Nat → State
  | 0 => s
  | n + 1 =>
    let s := s.launchWaves bi legacy entry handler s1 n
    let wi := s.waves.length
    let vi := s.vfiles.length
    let new : List Wave :=
      if legacy then [Wave.launch bi n 0 (some (wi + 1)) vi true entry handler s1, Wave.launch bi n 1 (some wi) vi true entry handler s1]
      else [Wave.launch bi n 0 none vi false entry handler s1]
    { s with waves := s.waves ++ new, vfiles := s.vfiles ++ [VFile.blank] }.updBlock bi
      (fun b => { b with waves := b.waves ++ (List.range new.length).map (fun i => wi + i) })

/-- A block launched on its core with its resources: zeroed scratchpad and sets, an empty grant, its waves at the entry (R283, spec/12 R252,
spec/10 R213, R217). Its cluster is awake (spec/14 R300). -/
def State.launchBlock (s : State) (b : Block) (entry : Word) (waves : Nat) (s1 : Word) : State :=
  let k := (s.obj b.obj).kernel b.kernel
  let base := (s.scratchFor b.core k.scratch).getD 0
  let sets := (s.freeSets b.core).take k.accsets
  let bi := s.blocks.length
  let s := { s with blocks := s.blocks ++ [{ b with scratchBase := base, scratch := k.scratch, sets := sets }] }
  let s := s.clearBytes (memKey .scratch b.core base) k.scratch
  let s := sets.foldl (fun s n => s.zeroSet b.core n) s
  let s := s.updCluster (clusterOf b.core) (fun c => { c with gated := false })
  let s := match b.job with
    | none => s
    | some j => s.updJob j (fun j => { j with launched := j.launched + 1 })
  (s.launchWaves bi k.legacy entry (s.queue b.queue).handler s1 waves).holdPin b.core

/-! ### Event latches (spec/04 R116) -/

/-- The event latch of every wave of a block set. -/
def State.latchBlock (s : State) (bi : Nat) : State :=
  (s.block bi).waves.foldl (fun s wi => s.updWave wi (fun w => { w with latch := true })) s

/-- The same for every block of a gang. -/
def State.latchGang (s : State) (gi : Nat) : State := (s.gang gi).blocks.foldl (fun s b => s.latchBlock b) s

/-! ### Spawn bins (spec/10 R225, spec/11 R248) -/

/-- A context runs: its front end launches (spec/14 R292). -/
def State.runs? (s : State) (ci : Nat) : Bool := (s.ctx ci).st == .running

/-- The bin a thread takes: the one with its key that is not held, else an empty one, the lowest-numbered (log entry 151). -/
def CoreSt.binFor (c : CoreSt) (obj : Nat) (entry : Word) : Option Nat :=
  match findIdx (fun (x : Option Bin) => match x with | some b => b.obj == obj && b.entry == entry && !b.held | none => false) c.bins 0 with
  | some n => some n
  | none => findIdx (fun (x : Option Bin) => x.isNone) c.bins 0

/-- A continuation that is to start on a core goes ahead of every other block there (spec/12 R275). -/
def State.contFirst (s : State) (core : Nat) : Bool :=
  (s.blocksOn core).any (fun x => x.1.phase == .waiting && (match (s.ctx x.1.ctx).st with | .running | .soft => true | _ => false))

/-- A bin launched: it empties, and its block waits for its resources; with the context not running the launch is held. -/
def State.launchBin (s : State) (core n : Nat) (b : Bin) : State :=
  if s.runs? (s.block b.block).ctx then
    s.updCore core (fun c => { c with bins := updAt c.bins n (fun _ => none), launches := c.launches ++ [b] })
  else s.updCore core (fun c => { c with bins := updAt c.bins n (fun _ => some { b with held := true }) })

/-- The timer of a bin has run out (R225): BINT after its first thread entered. -/
def State.binRipe (s : State) (b : Bin) : Bool :=
  !b.held && decide (b.start + (s.queue (s.block b.block).queue).bint ≤ s.time.toNat)

/-- The bins of a core whose timers have run out are launched, or held (R225). -/
def State.ripen (s : State) (core : Nat) : State :=
  (List.range 8).foldl (fun (s : State) n => match ((s.core core).bins[n]?).getD none with
    | some b => if s.binRipe b then s.launchBin core n b else s
    | none => s) s

/-- A thread placed in a bin of a core for the block that spawns it, after the bins whose timers have run out; the status word of SPAWN. -/
def State.placeThread (s : State) (core bi : Nat) (entry : Word) (arg : BitVec 32) (flush : Bool) : State × Nat :=
  let s := s.ripen core
  let obj := (s.block bi).obj
  let c := s.core core
  match c.binFor obj entry with
  | none => (s, 2)
  | some n =>
    let old := ((c.bins[n]?).getD none).getD ⟨obj, entry, bi, [], s.time.toNat, false⟩
    let b := { old with args := old.args ++ [arg] }
    let s := s.updCore core (fun c => { c with bins := updAt c.bins n (fun _ => some b) })
    if flush || b.args.length = 64 then
      let s := s.launchBin core n b
      if s.runs? (s.block b.block).ctx then (s, 1 + n * 256) else (s, n * 256 + b.args.length * 65536)
    else (s, n * 256 + b.args.length * 65536)

/-- SPAWN and SPAWNF (spec/11 R248): the entry check, then the thread is placed; they set the side-effect latch (spec/14 R289). -/
def State.spawn (s : State) (i : Instr) (d a b : Reg) (flush : Bool) : Out State :=
  s.matScalar i [(a, 0), (b, 1)] [d] (fun wi _ w _ =>
    let s := s.sideEffect w
    if ((s.obj (s.block w.block).obj).kernelAt (w.rd a)).isNone then .done (s.setReg wi d 3)
    else
      let (s', st) := s.placeThread (s.coreOf w) w.block (w.rd a) ((w.rd b).setWidth 32) flush
      .done (s'.setReg wi d (word st)))

/-- SPAWN. -/
def execSpawn (d a b : Reg) (s : State) : Out State := s.spawn (.spawn d a b) d a b false
/-- SPAWNF. -/
def execSpawnf (d a b : Reg) (s : State) : Out State := s.spawn (.spawnf d a b) d a b true

/-- BIN_TIMER_EXPIRY of a bin of a core (R225): BINT after the first thread entered it. -/
def execBinTimerExpiry (core bin : Nat) (s : State) : Out State :=
  match ((s.core core).bins[bin]?).getD none with
  | none => idle s
  | some b =>
    if s.binRipe b then ok (s.launchBin core bin b) else idle s

/-- The arguments of a bin's threads as v0: lane k holds the argument of the k-th (R226). -/
def binLanes (args : List (BitVec 32)) : VReg := BitVec.ofNat 2048 (args.zipIdx.foldl (fun v x => v + x.1.toNat * 2 ^ (32 * x.2)) 0)

/-- The kernel whose entry a bin's threads run. -/
def State.binKernel (s : State) (x : Bin) : Nat := ((s.obj x.obj).kernelAt x.entry).getD 0

/-- A launched bin may start its block on a core now: its context runs, its resources are free, and a launch that was held goes before others of its context
(R225). It runs on the bin's own core, whatever classes its kernel is eligible for (R226; log entry 140). -/
def State.binStarts (s : State) (core : Nat) (x : Bin) : Bool :=
  let p := s.block x.block
  s.runs? p.ctx && s.fits core ((s.obj x.obj).kernel (s.binKernel x)) 1 && s.pinAllows p.queue core
    && (x.held || !(s.core core).launches.any (fun b => b.held && (s.block b.block).ctx == p.ctx))

/-- BIN_BLOCK_LAUNCH on a core (R226): the oldest launched bin that may start its block of one wave does, no continuation being ahead of it; the wave or, in
legacy mode, each half gets its lanes. -/
def execBinBlockLaunch (core : Nat) (s : State) : Out State :=
  match findIdx (s.binStarts core) (s.core core).launches 0 with
  | none => idle s
  | some n => match (s.core core).launches[n]? with
    | none => idle s
    | some x =>
      let p := s.block x.block
      let ki := s.binKernel x
      if s.contFirst core then idle s
      else
        let bi := s.blocks.length
        let gi := s.gangs.length
        let b : Block := { Block.blank with
          job := p.job
          queue := p.queue
          ctx := p.ctx
          obj := x.obj
          kernel := ki
          core := core
          bin := true
          ident := (s.core core).binCount
          argp := p.argp
          gang := gi
          phase := .running }
        let s := s.updCore core (fun c => { c with
          launches := c.launches.eraseIdx n
          binCount := c.binCount + 1 })
        let s := { s with gangs := s.gangs ++ [(⟨[bi], 1, clusterOf core, [], false⟩ : Gang)] }
        let s := s.launchBlock b x.entry 1 0
        let count := x.args.length
        ok ((s.block bi).waves.foldl (fun (s : State) (wi : Nat) => match s.waves[wi]? with
          | none => s
          | some w =>
            let s := s.updVFile w.vfile (fun f => { f with v := f.v.set 0 (w.ownLanes (binLanes x.args) (f.reg 0)) })
            s.updWave wi (fun w => { w with vl := min (count - w.laneBase) w.vlmax })) s)

/-! ### Ends -/

/-- The wave's splits have all ended (R274): its late results are dropped with it, and its block ends with its last wave. -/
def State.endWave (s : State) (wi : Nat) (w : Wave) : State :=
  let s := (s.drain wi).updWave wi (fun w => { w with
    splits := [], frozen := [], ended := true, lvl := 0, lease := none, quota := none, park := none })
  let s := s.stopMate w false
  let b := s.block w.block
  if b.waves.all (fun i => match s.waves[i]? with | some x => x.ended | none => true) then
    s.updBlock w.block (fun b => { b with phase := .ending })
  else s

/-- The issuing split ends (spec/02 R51, spec/07 R180): in a handler, with it every frozen split. -/
def State.endSplit (s : State) (wi si : Nat) (w : Wave) (sp : Split) : State :=
  let rest := (w.splits.eraseIdx si).map (fun x => match sp.idx with
    | some i => { x with yields := x.yields.erase i }
    | none => x)
  if w.lvl ≠ 0 || rest.isEmpty then s.endWave wi w
  else s.updWave wi (fun w => w.settle rest)

/-- EXIT (spec/12 R274). -/
def execExit (s : State) : Out State :=
  s.scalar [] [] (fun wi si w sp => .left (s.endSplit wi si w sp))

/-- The copy trap. -/
def copyTrap (sub : Nat) (v : Word) : Trap := ⟨16, sub, v⟩

/-- CONT (R275): the entry's kernel fits what the block holds; the first one of a wave is recorded. -/
def execCont (d a : Reg) (s : State) : Out State :=
  s.scalar [(a, 0), (d, 2)] [] (fun wi si w sp =>
    let b := s.block w.block
    let o := s.obj b.obj
    match o.kernelAt (w.rd a) with
    | none => .trap (copyTrap 2 (w.rd a))
    | some n =>
      let k := o.kernel n
      if (!b.bin && decide (s.nativeWaves b < k.waves)) || decide (b.scratch < k.scratch) || decide (b.sets.length < k.accsets) then
        .trap (copyTrap 2 (w.rd a))
      else
        let s := s.updWave wi (fun w => { w with cont := some (w.cont.getD (w.rd a, w.rd d)) })
        .left (s.endSplit wi si w sp))

end Sys2Proof.Machine
end

