-- ==== Sys2Proof/Machine/Barrier.lean ====
section
/-! DEFINITION. Barriers, triggers, signal words and waiting: spec/12 R265 to R273. -/

namespace Sys2Proof.Machine

/-! ### The barrier object (R265, Table 12.4) -/

/-- The four fields of a barrier. -/
structure Bar where
  pend : Nat
  arrived : Nat
  expect : Nat
  st : Nat
  deriving DecidableEq, Repr

/-- Fields of which nothing is known, drawn from a number on (log entry 22). -/
def Bar.drawn (n : Nat) : Bar :=
  let f (i : Nat) : Nat := (Config.freeWord (n + i)).toNat % 2 ^ 32
  ⟨f 0, f 1, f 2, f 3⟩

/-- The draw of the barrier at a key, once something else has written into it. -/
def State.barDrawn (s : State) (key : Nat) : Option Nat := (s.bars.find? (fun x => x.key == key)).bind (·.drawn)

/-- A barrier as it stands at a key: nothing is known of the fields of one that something else has written into, or of a poisoned one. -/
def State.bar (s : State) (key : Nat) : Bar :=
  match s.barDrawn key with
  | some n => .drawn n
  | none =>
    if s.poisoned key 16 then .drawn s.tick
    else ⟨s.readN key 4, s.readN (key + 4) 4, s.readN (key + 8) 4, s.readN (key + 12) 4⟩

/-- A barrier written, as one write of 16 bytes: its fields are again what its own instructions have left. -/
def State.putBar (s : State) (key : Nat) (b : Bar) : State :=
  let s := s.writeBytes key (leBytes 4 b.pend ++ leBytes 4 b.arrived ++ leBytes 4 b.expect ++ leBytes 4 b.st)
  { s with bars := s.bars.map (fun x => if x.key == key then { x with drawn := none } else x) }

/-- A barrier is made (R267). -/
def Bar.made (b : Bar) : Bool := b.expect != 0 && b.st / 8 == 0

/-- What the phase in progress has gathered. -/
def State.barSide (s : State) (key : Nat) : BarSide := (s.bars.find? (fun x => x.key == key)).getD ⟨key, false, false, [], none⟩

/-- The gathered part of a barrier's phase changed. -/
def State.updSide (s : State) (key : Nat) (f : BarSide → BarSide) : State :=
  { s with bars := f (s.barSide key) :: s.bars.filter (fun x => x.key != key) }

/-- A new phase of the barrier at a key has gathered nothing. -/
def State.freshSide (s : State) (key : Nat) : State := s.updSide key (fun x => { x with err := false, pois := false, blocks := [] })

/-- The core and the scratchpad offset of a key. -/
def keyCore (key : Nat) : Nat := key / 2 ^ 64 % 2 ^ 64
/-- The offset. -/
def keyOffset (key : Nat) : Nat := key % 2 ^ 64

/-! ### Triggers (R270) -/

/-- The fired triggers of a core, oldest first, placed in its bins as far as bins take them; `fuel` bounds their number. -/
def State.placeFired (s : State) (core : Nat) : Nat → Nat → State
  | 0, _ => s
  | fuel + 1, i =>
    match (s.core core).triggers[i]? with
    | none => s
    | some t =>
      if t.fired then
        let (s', st) := s.placeThread core t.block t.entry t.arg false
        if st % 256 = 2 then s.placeFired core fuel (i + 1)
        else (s'.updCore core (fun c => { c with triggers := c.triggers.eraseIdx i })).placeFired core fuel i
      else s.placeFired core fuel (i + 1)

/-- The triggers on a barrier fire. -/
def State.fireTriggers (s : State) (key : Nat) : State :=
  let core := keyCore key
  (s.updCore core (fun c => { c with
    triggers := c.triggers.map (fun t => if t.offset == keyOffset key then { t with fired := true } else t) })).placeFired core 16 0

/-- TRIGGER_RETRY on a core (R270): a fired trigger that no bin took tries again. -/
def execTriggerRetry (core : Nat) (s : State) : Out State :=
  let s' := s.placeFired core 16 0
  if (s'.core core).triggers.length < (s.core core).triggers.length then ok s' else idle s

/-! ### Updates (R267) -/

/-- A barrier updated to `b`: the phase completes when ARRIVED = EXPECT and PEND = 0. -/
def State.settleBar (s : State) (key : Nat) (b : Bar) : State :=
  if b.made && b.arrived == b.expect && b.pend == 0 then
    let side := s.barSide key
    let s := (s.freshSide key).putBar key { b with
      arrived := 0
      st := (1 - b.st % 2) + 2 * b2n side.err + 4 * b2n side.pois }
    let s := side.blocks.foldl (fun s bi => s.latchBlock bi) s
    s.fireTriggers key
  else s.putBar key b

/-- The completion of a copy of `n` bytes onto a barrier: PEND falls; a barrier that is not made reports nothing. -/
def State.copyOntoBar (s : State) (key n : Nat) (err pois : Bool) : State :=
  let b := s.bar key
  let s := if b.made then s.updSide key (fun x => { x with err := x.err || err, pois := x.pois || pois }) else s
  s.settleBar key { b with pend := (b.pend + 2 ^ 32 - n % 2 ^ 32) % 2 ^ 32 }

/-! ### BAR (R266 to R270) -/

/-- A BAR instruction on the barrier at s[a]. -/
def State.onBar (s : State) (a : Reg) (ss : List (Reg × Nat)) (sd : List Reg) (k : Nat → Wave → Nat → Bar → Res) : Out State :=
  s.scalar ((a, 0) :: ss) sd (fun wi _ w _ =>
    match s.localKey wi w (w.rd a) 16 16 with
    | .error c => .trap ⟨c, 0, w.rd a⟩
    | .ok key => k wi w key (s.bar key))

/-- A BAR instruction other than BAR.INIT: the barrier must be made (R266). -/
def State.onMadeBar (s : State) (a : Reg) (ss : List (Reg × Nat)) (sd : List Reg) (k : Nat → Wave → Nat → Bar → Res) : Out State :=
  s.onBar a ss sd (fun wi w key b => if b.made then k wi w key b else .trap (copyTrap 2 (w.rd a)))

/-- BAR.INIT. -/
def execBarInit (a b : Reg) (s : State) : Out State :=
  s.onBar a [(b, 1)] [] (fun _ w key _ =>
    let n := (w.rd b).toNat
    if n = 0 || n > 2 ^ 31 - 1 then .trap (copyTrap 2 (w.rd a))
    else .done ((s.freshSide key).putBar key ⟨0, 0, n, 0⟩))

/-- An arrival that brings `add` bytes (R267): it waits while the phase has all its arrivals and bytes are pending. -/
def State.arrive (s : State) (w : Wave) (key : Nat) (b : Bar) (add : Nat) : Res :=
  if b.arrived == b.expect && b.pend != 0 then .wait
  else
    let s := s.updSide key (fun x => { x with blocks := insertNat w.block x.blocks })
    .done (s.settleBar key { b with pend := (b.pend + add) % 2 ^ 32, arrived := (b.arrived + 1) % 2 ^ 32 })

/-- BAR.ARV. -/
def execBarArv (a : Reg) (s : State) : Out State := s.onMadeBar a [] [] (fun _ w key b => s.arrive w key b 0)
/-- BAR.EXP. -/
def execBarExp (a b : Reg) (s : State) : Out State :=
  s.onMadeBar a [(b, 1)] [] (fun _ w key x => s.arrive w key x ((w.rd b).toNat % 2 ^ 32))
/-- BAR.WAIT (R269). -/
def execBarWait (a b : Reg) (s : State) : Out State :=
  s.onMadeBar a [(b, 1)] [] (fun _ w _ x =>
    if x.st % 2 = (w.rd b).toNat % 2 then .wait
    else if bits x.st 2 1 ≠ 0 then .trap ⟨9, 2, w.rd a⟩
    else .done s)
/-- BAR.TRY (R269): the result arrives later. -/
def execBarTry (d a : Reg) (s : State) : Out State :=
  s.onMadeBar a [] [d] (fun wi _ _ x => .done (s.updWave wi (fun w => w.later d (word (x.st % 8 + x.pend * 2 ^ 32)) false)))
/-- BAR.TRIG (R270): sixteen triggers at the core that holds the barrier. -/
def execBarTrig (d a b : Reg) (s : State) : Out State :=
  s.onMadeBar a [(b, 1), (d, 2)] [] (fun _ w key _ =>
    let core := keyCore key
    if ((s.obj (s.block w.block).obj).kernelAt (w.rd b)).isNone then .trap (copyTrap 2 (w.rd b))
    else if (s.core core).triggers.length ≥ 16 then .wait
    else .done ((s.sideEffect w).updCore core (fun c => { c with
      triggers := c.triggers ++ [⟨core, keyOffset key, w.block, w.rd b, (w.rd d).setWidth 32, false⟩] })))

/-! ### WAIT (R271, R272) -/

/-- WAITA and WAITGE: they wait until the word at s[a], as a load reads it, and s[b] satisfy `c`. -/
def State.waitWord (s : State) (a b : Reg) (c : Nat → Nat → Bool) : Out State :=
  s.scalar [(a, 0), (b, 1)] [] (fun wi _ w _ =>
    match s.localKey wi w (w.rd a) 8 8 with
    | .error t => .trap ⟨t, 0, w.rd a⟩
    | .ok key => if c (s.readAt key 8).val (w.rd b).toNat then .done s else .wait)

/-- WAITA. -/
def execWaita (a b : Reg) (s : State) : Out State := s.waitWord a b (fun x y => x != y)
/-- WAITGE. -/
def execWaitge (a b : Reg) (s : State) : Out State := s.waitWord a b (fun x y => decide (y ≤ x))
/-- NOTIFY (R272): every waiting wave of the gang looks again, and has its event latch set. -/
def execNotify (a : Reg) (s : State) : Out State :=
  s.scalar [(a, 0)] [] (fun wi _ w _ =>
    match s.localKey wi w (w.rd a) 8 8 with
    | .error t => .trap ⟨t, 0, w.rd a⟩
    | .ok _ => .done (s.latchGang (s.block w.block).gang))

end Sys2Proof.Machine
end

