-- ==== Sys2Proof/Machine/Crypto.lean ====
section
/-! DEFINITION. The two algorithms the spec names: AES-256-GCM for sealed copies (spec/12 R263) and SHA-384 for code measurements
(spec/01 R38). The spec names them and gives no text of its own; they are the published ones (log entry 20). -/

namespace Sys2Proof.Machine

/-! ### SHA-384 -/

/-- The bits of the `pow`-th root of `x` from number `k` down, added to the part `r` found so far. -/
def rootFrom (pow x : Nat) : Nat → Nat → Nat
  | 0, r => r
  | k + 1, r => rootFrom pow x k (if (r + 2 ^ k) ^ pow ≤ x then r + 2 ^ k else r)

/-- The first 64 bits of the fraction of the `pow`-th root of a number below 512. -/
def rootFraction (pow n : Nat) : Word := word (rootFrom pow (n * 2 ^ (64 * pow)) 69 0)

/-- The first 80 primes, 2 to 409. -/
def shaPrimes : List Nat :=
  (List.range 410).filter (fun n => decide (2 ≤ n) && (List.range 21).all (fun d => decide (d < 2) || decide (n ≤ d) || n % d != 0))

/-- Where the hash starts: square roots of the 9th to 16th primes. -/
def shaStart : List Word := ((shaPrimes.drop 8).take 8).map (rootFraction 2)

/-- What each of the 80 rounds adds: cube roots of the primes. -/
def shaAdded : List Word := shaPrimes.map (rootFraction 3)

/-- A word rotated right by each amount of a list, the results added bit by bit. -/
def shaTurns (x : Word) (l : List Nat) : Word := l.foldl (fun v n => v ^^^ x.rotateRight n) 0

/-- The message words of the rounds, `n` more of them; the newest stands first. -/
def shaWords : Nat → List Word → List Word
  | 0, l => l
  | n + 1, l =>
    let back (i : Nat) : Word := l.getD (i - 1) 0
    shaWords n ((back 16 + back 7 + (shaTurns (back 15) [1, 8] ^^^ back 15 >>> 7) + (shaTurns (back 2) [19, 61] ^^^ back 2 >>> 6)) :: l)

/-- A round, with the sum `v` of its message word and its constant: the working words are the last four of two sequences, the newest first. -/
def shaStep : List Word × List Word → Word → List Word × List Word
  | (p0 :: p1 :: p2 :: p3 :: _, q0 :: q1 :: q2 :: q3 :: _), v =>
    let u := v + q3 + shaTurns q0 [14, 18, 41] + (q2 ^^^ (q0 &&& (q1 ^^^ q2)))
    ([u + shaTurns p0 [28, 34, 39] + ((p0 &&& (p1 ||| p2)) ||| (p1 &&& p2)), p0, p1, p2], [p3 + u, q0, q1, q2])
  | st, _ => st

/-- A piece of 16 message words taken into the hash. -/
def shaTake (h m : List Word) : List Word :=
  let vs := ((shaWords 64 m.reverse).reverse.zip shaAdded).map (fun x => x.1 + x.2)
  let st := vs.foldl shaStep (h.take 4, h.drop 4)
  (h.zip (st.1 ++ st.2)).map (fun x => x.1 + x.2)

/-- Big-endian value of bytes. -/
def beValue (l : List Byte) : Nat := l.foldl (fun v b => v * 256 + b.toNat) 0

/-- Bytes cut into pieces of `n`, at most `fuel` of them. -/
def pieces (n : Nat) : Nat → List Byte → List (List Byte)
  | 0, _ => []
  | fuel + 1, l => if l.isEmpty then [] else l.take n :: pieces n fuel (l.drop n)

/-- The SHA-384 digest of a string of bytes, as one number with its first byte on top. -/
def sha384 (m : List Byte) : BitVec 384 :=
  let pad := List.replicate ((239 - m.length % 128) % 128) 0#8
  let msg := m ++ [0x80#8] ++ pad ++ (leBytes 16 (8 * m.length)).reverse
  let h := (pieces 128 (msg.length / 128) msg).foldl
    (fun h b => shaTake h ((pieces 8 16 b).map (fun x => word (beValue x)))) shaStart
  BitVec.ofNat 384 ((h.take 6).foldl (fun v x => v * 2 ^ 64 + x.toNat) 0)

/-! ### AES-256 -/

/-- Doubling in the field of AES. -/
def aesDouble (a : Nat) : Nat := if a < 128 then 2 * a else (2 * a) % 256 ^^^ 0x1B

/-- Multiplication in the field of AES, over the low `n` bits of `b`. -/
def aesMul : Nat → Nat → Nat → Nat
  | 0, _, _ => 0
  | n + 1, a, b => (if b % 2 = 1 then a else 0) ^^^ aesMul n (aesDouble a) (b / 2)

/-- The inverse in the field, 0 for 0: the 254th power. -/
def aesInv (a : Nat) : Nat :=
  let sq (x : Nat) : Nat := aesMul 8 x x
  let a2 := sq a
  let a4 := sq a2
  let a8 := sq a4
  let a16 := sq a8
  let a32 := sq a16
  let a64 := sq a32
  let a128 := sq a64
  aesMul 8 a2 (aesMul 8 a4 (aesMul 8 a8 (aesMul 8 a16 (aesMul 8 a32 (aesMul 8 a64 a128)))))

/-- The substitution of a byte. -/
def aesSub (a : Nat) : Nat :=
  let i := aesInv a
  let r (n : Nat) : Nat := (i * 2 ^ n % 256) ^^^ (i / 2 ^ (8 - n))
  i ^^^ r 1 ^^^ r 2 ^^^ r 3 ^^^ r 4 ^^^ 0x63

/-- The substitution as a table. -/
def aesBox : Array Nat := (Array.range 256).map aesSub

/-- The substitution by the table. -/
def sub1 (box : Array Nat) (a : Nat) : Nat := box.getD a 0

/-- The key schedule: `n` more words of four bytes, the newest first, `i` their number so far. -/
def aesExpand (box : Array Nat) : Nat → Nat → Nat → List (List Nat) → List (List Nat)
  | 0, _, _, w => w
  | n + 1, i, rc, w =>
    let t := w.headD []
    let t := if i % 8 = 0 then
        match (t.drop 1 ++ t.take 1).map (sub1 box) with
        | x :: r => (x ^^^ rc) :: r
        | [] => []
      else if i % 8 = 4 then t.map (sub1 box) else t
    aesExpand box n (i + 1) (if i % 8 = 0 then aesDouble rc else rc) ((((w.getD 7 []).zip t).map (fun x => x.1 ^^^ x.2)) :: w)

/-- The 15 round keys of 16 bytes for a key of 32 bytes. -/
def aesKeys (box : Array Nat) (key : List Nat) : List (List Nat) :=
  let w0 := (List.range 8).map (fun i => (key.drop (4 * i)).take 4)
  let w := (aesExpand box 52 8 1 w0.reverse).reverse
  (List.range 15).map (fun r => ((w.drop (4 * r)).take 4).flatten)

/-- Byte `i` of a state of 16 bytes after the rows are shifted comes from this place. -/
def shiftRow (i : Nat) : Nat := (i + 4 * (i % 4)) % 16

/-- The columns mixed. -/
def mixCols (l : List Nat) : List Nat :=
  (List.range 16).map (fun i =>
    let at' (r : Nat) : Nat := l.getD (i / 4 * 4 + (i + r) % 4) 0
    aesDouble (at' 0) ^^^ (aesDouble (at' 1) ^^^ at' 1) ^^^ at' 2 ^^^ at' 3)

/-- The bytes of two states added. -/
def xorBytes (a b : List Nat) : List Nat := (a.zip b).map (fun x => x.1 ^^^ x.2)

/-- The rounds after the first key addition. -/
def aesRounds (box : Array Nat) : List (List Nat) → List Nat → List Nat
  | [], st => st
  | [k], st =>
    let st := st.map (sub1 box)
    xorBytes ((List.range 16).map (fun i => st.getD (shiftRow i) 0)) k
  | k :: ks, st =>
    let st := st.map (sub1 box)
    aesRounds box ks (xorBytes (mixCols ((List.range 16).map (fun i => st.getD (shiftRow i) 0))) k)

/-- A block of 16 bytes enciphered under the round keys. -/
def aesBlock (box : Array Nat) (keys : List (List Nat)) (b : List Nat) : List Nat :=
  aesRounds box (keys.drop 1) (xorBytes b (keys.headD []))

/-! ### GCM -/

/-- The product in the field of GHASH, over the top `n` bits of `x` still to come; the first bit is the highest. -/
def ghashMul : Nat → Nat → Nat → Nat → Nat
  | 0, _, _, z => z
  | n + 1, x, v, z =>
    ghashMul n x (if v % 2 = 1 then v / 2 ^^^ (0xE1 * 2 ^ 120) else v / 2) (if x / 2 ^ n % 2 = 1 then z ^^^ v else z)

/-- GHASH of blocks under the hash key. -/
def ghash (h : Nat) (l : List Nat) : Nat := l.foldl (fun y x => ghashMul 128 (y ^^^ x) h 0) 0

/-- The blocks of a string, the last filled with zeros. -/
def ghashBlocks (l : List Byte) : List Nat :=
  (pieces 16 (l.length / 16 + 1) l).map (fun b => beValue (b ++ List.replicate (16 - b.length) 0#8))

/-- The plaintext of a ciphertext whose tag holds, under a key, a 96-bit nonce and additional data. -/
def gcmOpen (key : BitVec 256) (nonce : BitVec 96) (aad ct tag : List Byte) : Option (List Byte) :=
  let box := aesBox
  let big (n v : Nat) : List Nat := ((leBytes n v).reverse).map (·.toNat)
  let keys := aesKeys box (big 32 key.toNat)
  let e (ctr : Nat) : List Nat := aesBlock box keys (big 12 nonce.toNat ++ big 4 ctr)
  let num (l : List Nat) : Nat := l.foldl (fun v b => v * 256 + b) 0
  let h := num (aesBlock box keys (List.replicate 16 0))
  let s := ghash h (ghashBlocks aad ++ ghashBlocks ct ++ [8 * aad.length * 2 ^ 64 + 8 * ct.length])
  if num (e 1) ^^^ s = beValue tag then
    some ((pieces 16 (ct.length / 16 + 1) ct).zipIdx.flatMap (fun (b, i) =>
      (b.zip (e (i + 2))).map (fun x => x.1 ^^^ BitVec.ofNat 8 x.2)))
  else none

end Sys2Proof.Machine
end

