-- ==== Sys2Proof/Machine/Copy.lean ====
section
/-! DEFINITION. Copies: spec/12 R253 to R264, with the steps COPY_COMPLETION, COPY_FAULT_ANSWER and MMA_COMPLETE of spec/95 (a multiply reads
what fills in flight would deliver: spec/11 R241). The bytes of a copy move when it completes (log entry 6). -/

namespace Sys2Proof.Machine

/-! ### Addresses of a copy (R255) -/

/-- A byte may stand on a side of a copy. -/
def State.sideOk (s : State) (b : Block) (loc : Bool) (a : Word) : Bool :=
  if loc then (s.localByte b a).isSome
  else if bit a.toNat 56 then (s.vaultByte b a).isSome else !highBits a

/-- The trap of a row of `n` bytes at `a` whose start must be a multiple of `al` (R254, R255). -/
def State.rowTrap (s : State) (b : Block) (loc : Bool) (a : Word) (n al : Nat) : Option Trap :=
  match (List.range n).find? (fun i => !s.sideOk b loc (a + word i)) with
  | some i => some (if loc then ⟨6, 0, a + word i⟩ else copyTrap 3 (a + word i))
  | none => if a.toNat % al ≠ 0 then some ⟨5, 0, a⟩ else none

/-- The traps of row `r` of one end. -/
def State.endTrap (s : State) (b : Block) (e : CopyEnd) (loc : Bool) (r n al : Nat) : Option Trap :=
  match e with
  | .mem base stride => s.rowTrap b loc (base + word r * stride) n al
  | .slot _ => none
  | .sealed base off stride _ _ =>
    (chunksOf (sealedRow off stride r) n).findSome? (fun c => s.rowTrap b false (base + word (chunkBytes * c)) chunkBytes 1)

/-- The first trap among the rows of a copy, source before destination in each. -/
def State.copyTraps (s : State) (b : Block) (c : Copy) (al : Nat) : Option Trap :=
  (List.range c.rows).findSome? (fun r =>
    match s.endTrap b c.src c.srcLocal r c.rowBytes al with
    | some t => some t
    | none => s.endTrap b c.dst c.dstLocal r c.rowBytes al)

/-- A byte of the destination lies outside the block's own allocation (spec/14 R289). -/
def State.copyOutside (s : State) (w : Wave) (c : Copy) : Bool :=
  match c.dst with
  | .mem base stride => (List.range c.rows).any (fun r => s.outside w (base + word r * stride))
  | _ => false

/-! ### Issue (R253 to R264) -/

/-- A copy of a wave, not yet given its ends. -/
def State.newCopy (s : State) (wi : Nat) (w : Wave) : Copy :=
  let b := s.block w.block
  { wave := some wi
    block := some w.block
    core := b.core
    ctx := b.ctx
    queue := b.queue
    src := .mem 0 0
    dst := .mem 0 0
    rows := 0
    rowBytes := 0
    srcLocal := false
    dstLocal := false
    target := .barrier 0
    grant := b.grant
    key := none
    fault := none
    declined := []
    shared := []
    placed := none
    rd := none
    wr := none
    compl := 0
    reissueError := false
    moved := none
    cancelled := false
    finished := false }

/-- The completion a copy names (R257), or its trap. -/
def State.copyTarget (s : State) (wi : Nat) (w : Wave) (x : BitVec 1) (c : Reg) : Except Trap CopyTarget :=
  let a := w.rd c
  match s.localKey wi w a (if x = 1 then 8 else 16) (if x = 1 then 8 else 16) with
  | .error t => .error ⟨t, 0, a⟩
  | .ok _ => .ok (if x = 1 then .signal a (w.rd (c + 1)) else .barrier a)

/-- The rows a copy writes outside the scratchpad. -/
def Copy.globalRows (c : Copy) : List (Word × Nat) :=
  match c.dst with
  | .mem base stride => if c.dstLocal then [] else (List.range c.rows).map (fun i => (base + word i * stride, c.rowBytes))
  | _ => []

/-- The last two checks of R255, and the copy in flight: the slot it fills counts a fill, and the side-effect latch is set where it writes or
completes outside the block's own allocation. -/
def State.startCopy (s : State) (wi : Nat) (w : Wave) (x : BitVec 1) (c : Reg) (cp : Copy) (al : Nat) : Res :=
  match s.copyTarget wi w x c with
  | .error t => .trap t
  | .ok target =>
    match s.copyTraps (s.block w.block) cp al with
    | some t => .trap t
    | none =>
      let spans := s.copySpan cp true
      if s.streamPathWait wi w spans true || s.fabricPathWait wi spans then .stall
      else
      let out := s.outside w (w.rd c) || s.copyOutside w cp || (match cp.dst with | .mem _ _ => !cp.dstLocal | _ => false)
      let s := { s with copies := s.copies ++ [{ cp with target := target }] }
      let s := match cp.dst with
        | .slot n => s.updSlot cp.core n (fun y => { y with filling := y.filling + 1 })
        | _ => s
      .done (if out then (s.sideEffect w).noteStores w cp.globalRows else s)

/-- A CPY: its sources; with 64 copies of the core in flight it waits. A copy that a hard stop has cancelled is in flight no more (R256). -/
def State.cpy (s : State) (d a b : Reg) (x : BitVec 1) (c : Reg) (k : Nat → Wave → Split → Res) : Out State :=
  s.scalar ([(a, 0), (b, 1), (c, 2), (d, 2)] ++ (if x = 1 then [(c + 1, 2)] else [])) [] (fun wi _ w sp =>
    if (s.copies.filter (fun y => y.core == s.coreOf w && !y.finished && !y.cancelled)).length ≥ 64 then .wait else k wi w sp)

/-- The stride word: the global stride and the scratchpad stride (R254). -/
def globalStride (v : Word) : Word := wordI (sextN 32 v.toNat)
/-- The scratchpad stride; 0 means the row bytes. -/
def localStride (v : Word) (rowBytes : Nat) : Word := word (if v.toNat / 2 ^ 32 = 0 then rowBytes else v.toNat / 2 ^ 32)

/-- A grant-sized copy between global memory and scratchpad: functions 0, 1 and 2. -/
def State.cpyTile (s : State) (d a b : Reg) (x : BitVec 1) (c : Reg) (store : Bool) (shape : Wave → Grant → Nat × Nat × Nat) : Out State :=
  s.cpy d a b x c (fun wi w _ =>
    let g := (s.block w.block).grant
    if !g.exists? then .trap noGrant
    else
      let (rows, rb, e) := shape w g
      let v := w.rd b
      let (sb, db) := if store then (localStride v rb, globalStride v) else (globalStride v, localStride v rb)
      s.startCopy wi w x c { s.newCopy wi w with
        src := .mem (w.rd a) sb
        dst := .mem (w.rd d) db
        rows := rows
        rowBytes := rb
        srcLocal := store
        dstLocal := !store } e)

/-- CPY.A. -/
def execCpyA (d a b : Reg) (x : BitVec 1) (c : Reg) (s : State) : Out State :=
  s.cpyTile d a b x c false (fun _ g => (g.rows, g.valueBytes 0 / g.rows, matBytes g.fmt))
/-- CPY.B. -/
def execCpyB (d a b : Reg) (x : BitVec 1) (c : Reg) (s : State) : Out State :=
  s.cpyTile d a b x c false (fun _ g => (g.depth, g.cols * matBytes g.fmt, matBytes g.fmt))
/-- CPY.ST. -/
def execCpySt (d a b : Reg) (x : BitVec 1) (c : Reg) (s : State) : Out State :=
  s.cpyTile d a b x c true (fun w g => (g.rows, g.cols * (w.sew / 8), w.sew / 8))

/-- The trap of a slot a copy fills: range and ownership (R260). -/
def CoreSt.fillTrap (c : CoreSt) (bi n : Nat) : Option Trap :=
  match c.slot? n with
  | none => some (slotTrap n 2)
  | some y => if y.ownedBy bi then none else some (slotTrap n 1)

/-- CPY.O (R254, R260): like every fill it waits while an unfinished multiply names the slot (spec/11 R241). -/
def execCpyO (d a b : Reg) (x : BitVec 1) (c : Reg) (s : State) : Out State :=
  s.cpy d a b x c (fun wi w _ =>
    let core := s.core (s.coreOf w)
    let g := (s.block w.block).grant
    let n := (w.rd d).toNat
    if !g.exists? then .trap noGrant
    else if (w.rd b).toNat / 2 ^ 32 ≠ 0 then .trap (copyTrap 2 (w.rd b))
    else match core.fillTrap w.block n with
      | some t => .trap t
      | none =>
        if core.slotInUse n then .stall
        else
          let role := ((core.slot? n).map (·.role)).getD 0
          let rows := if role = 1 then g.depth else g.rows
          s.startCopy wi w x c { s.newCopy wi w with
            src := .mem (w.rd a) (globalStride (w.rd b))
            dst := .slot n
            rows := rows
            rowBytes := g.valueBytes role / rows } (matBytes g.fmt))

/-- A field of a descriptor. -/
def field (l : List Byte) (off n : Nat) : Nat := leValue ((l.drop off).take n)

/-- A descriptor of `n` bytes read on the copy path before the copy issues (R261, R262); poisoned granules read as zero. -/
def State.withDesc (s : State) (wi : Nat) (w : Wave) (sp : Split) (a : Word) (n : Nat) (k : State → List Byte → Res) : Res :=
  if a.toNat % n ≠ 0 then .trap ⟨5, 0, a⟩
  else s.readAhead wi w sp a n k

/-- The form of the first 32 bytes (Table 12.2). -/
def boxOk (l : List Byte) (dirs : List Nat) : Bool :=
  decide (1 ≤ field l 0 4) && decide (field l 0 4 ≤ 65535) && decide (1 ≤ field l 4 4) && decide (field l 4 4 ≤ 1048576)
    && dirs.contains (field l 24 1) && field l 25 7 == 0

/-- CPY.BOX (R261). -/
def execCpyBox (d a b : Reg) (x : BitVec 1) (c : Reg) (s : State) : Out State :=
  s.cpy d a b x c (fun wi w sp =>
    s.withDesc wi w sp (w.rd b) 32 (fun s l =>
      if !boxOk l [0, 1, 2, 3] then .trap (copyTrap 2 (w.rd b))
      else
        let dir := field l 24 1
        s.startCopy wi w x c { s.newCopy wi w with
          src := .mem (w.rd a) (word (field l 8 8))
          dst := .mem (w.rd d) (word (field l 16 8))
          rows := field l 0 4
          rowBytes := field l 4 4
          srcLocal := dir == 1 || dir == 2
          dstLocal := dir == 0 || dir == 2 } 1))

/-- The key of a slot bound to a partition, a measurement and a model (R264). -/
def State.boundKey (s : State) (n part : Nat) (measure : BitVec 384) (model : Word) : Option KeySlot :=
  match (s.trust.keys[n]?).getD none with
  | some k => if k.part = part && k.measure = measure && k.model = model then some k else none
  | none => none

/-- The slot part of the form of a CPY.SEAL with DIR 4 (R262). -/
def State.sealSlotTrap (s : State) (w : Wave) (l : List Byte) (n : Nat) (a : Word) : Option Trap :=
  if field l 24 1 ≠ 4 then none
  else
    let core := s.core (s.coreOf w)
    match core.fillTrap w.block n with
    | some t => some t
    | none =>
      let role := ((core.slot? n).map (·.role)).getD 0
      if field l 16 8 ≠ 0 || field l 0 4 * field l 4 4 ≠ (s.block w.block).grant.valueBytes role then some (copyTrap 2 a) else none

/-- CPY.SEAL (R262 to R264). -/
def execCpySeal (d a b : Reg) (x : BitVec 1) (c : Reg) (s : State) : Out State :=
  s.cpy d a b x c (fun wi w sp =>
    s.withDesc wi w sp (w.rd b) 64 (fun s l =>
      let blk := s.block w.block
      let n := (w.rd d).toNat
      let slot := field l 24 1 == 4
      if slot && !blk.grant.exists? then .trap noGrant
      else if !boxOk l [0, 4] || field l 33 7 ≠ 0 || field l 56 8 ≠ 0 then .trap (copyTrap 2 (w.rd b))
      else match s.sealSlotTrap w l n (w.rd b) with
        | some t => .trap t
        | none =>
          match s.boundKey (field l 32 1) (s.ctx blk.ctx).part (s.obj blk.obj).measure (word (field l 40 8)) with
          | none => .trap (copyTrap 1 (word (field l 32 1)))
          | some key =>
            if slot && (s.core blk.core).slotInUse n then .stall
            else match s.copyTarget wi w x c with
              | .error t => .trap t
              | .ok _ =>
                if (w.rd a).toNat % 16 ≠ 0 then .trap ⟨5, 0, w.rd a⟩
                else s.startCopy wi w x c { s.newCopy wi w with
                  src := .sealed (w.rd a) (field l 48 8) (word (field l 8 8)) (field l 32 1) (word (field l 40 8))
                  dst := if slot then .slot n else .mem (w.rd d) (word (field l 16 8))
                  rows := field l 0 4
                  rowBytes := field l 4 4
                  dstLocal := !slot
                  key := some key } 1))

/-! ### Moving the bytes (R256 to R258) -/

/-- A byte on its way: 0 good, 1 poisoned, 2 not delivered. -/
structure CByte where
  val : Byte
  st : Nat
  deriving DecidableEq, Repr

/-- The addresses of the rows of a memory end, byte by byte. -/
def rowAddrs (base stride : Word) (rows n : Nat) : List Word :=
  (List.range rows).flatMap (fun r => (List.range n).map (fun i => base + word r * stride + word i))

/-- The addresses a copy reads. -/
def Copy.srcAddrs (c : Copy) : List Word :=
  match c.src with
  | .mem base stride => rowAddrs base stride c.rows c.rowBytes
  | .slot _ => []
  | .sealed base _ _ _ _ => c.chunks.flatMap (fun n => (List.range chunkBytes).map (fun i => base + word (chunkBytes * n + i)))

/-- The addresses it writes; a slot has none. -/
def Copy.dstAddrs (c : Copy) : List Word :=
  match c.dst with
  | .mem base stride => rowAddrs base stride c.rows c.rowBytes
  | _ => []

/-- Where it reads: as when it sent its first request, if it has sent one. -/
def State.srcPlaces (s : State) (c : Copy) : List CPlace :=
  match c.placed with
  | some p => p.1
  | none => c.srcAddrs.map (s.cplace c c.srcLocal .read)
/-- Where it writes. -/
def State.dstPlaces (s : State) (c : Copy) : List CPlace :=
  match c.placed with
  | some p => p.2
  | none => match c.dst with
    | .slot n => (List.range (c.rows * c.rowBytes)).map (fun i => .at (slotKey c.core n + i))
    | _ => c.dstAddrs.map (s.cplace c c.dstLocal .write)

/-- The first translation fault: its address and subcode. -/
def firstFault : List Word → List CPlace → Option (Word × Nat)
  | a :: _, .fault sub :: _ => some (a, sub)
  | _ :: as, _ :: ps => firstFault as ps
  | _, _ => none

/-- Bytes at other devices joined into pieces within one granule: device, address, length. -/
def awayPieces : List CPlace → List (Nat × Nat × Nat)
  | [] => []
  | .away dev addr :: r =>
    match awayPieces r with
    | (d, a, n) :: t => if d = dev && a = addr + 1 && a % 8 ≠ 0 then (dev, addr, n + 1) :: t else (dev, addr, 1) :: (d, a, n) :: t
    | [] => [(dev, addr, 1)]
  | _ :: r => awayPieces r

/-- The bytes at places, `k` remote ones before them, of which `have'` arrived. -/
def State.takeBytes (s : State) (ans : RemoteAnswer) (have' : Nat) : List CPlace → Nat → List CByte
  | [], _ => []
  | .at key :: r, k => (if s.poisoned key 1 then ⟨0, 1⟩ else ⟨memRead s.mem key, 0⟩) :: s.takeBytes ans have' r k
  | .away _ _ :: r, k =>
    (if have' ≤ k then ⟨0, 2⟩ else if ans.poisoned.getD k false then ⟨0, 1⟩ else ⟨ans.bytes.getD k 0, 0⟩)
      :: s.takeBytes ans have' r (k + 1)
  | _ :: r, k => ⟨0, 2⟩ :: s.takeBytes ans have' r k

/-- The nonce of chunk `n` (R263). -/
def chunkNonce (nb : BitVec 96) (n : Nat) : BitVec 96 :=
  BitVec.ofNat 96 (nb.toNat / 2 ^ 32 * 2 ^ 32 + (nb.toNat + n) % 2 ^ 32)

/-- A chunk opened: none where a byte is missing or poisoned or its tag fails. -/
def openChunk (key : KeySlot) (model : Word) (n : Nat) (l : List CByte) : Option (List Byte) :=
  if l.all (fun x => x.st == 0) then
    gcmOpen key.key (chunkNonce key.nonce n) (leBytes 8 model.toNat ++ leBytes 8 n)
      ((l.take 4096).map (·.val)) ((l.drop 4096).map (·.val))
  else none

/-- The bytes that reach the destination, from the bytes read. -/
def Copy.payload (c : Copy) (l : List CByte) : List CByte :=
  match c.src, c.key with
  | .sealed _ off stride _ model, some key =>
    let opened := c.chunks.zipIdx.map (fun (n, i) => (n, openChunk key model n ((l.drop (chunkBytes * i)).take chunkBytes)))
    (List.range c.rows).flatMap (fun r => (List.range c.rowBytes).map (fun i =>
      let p := sealedRow off stride r + i
      match (opened.find? (fun x => x.1 == p / 4096)).bind (·.2) with
      | some t => ⟨t.getD (p % 4096) 0, 0⟩
      | none => ⟨0, 2⟩))
  | _, _ => l

/-- A byte is written: a byte not delivered is, as zero, on the scratchpad side only (R258). -/
def CByte.lands (x : CByte) (loc : Bool) : Bool := x.st != 2 || loc

/-- The keys here that bytes land on. -/
def landing (loc : Bool) : List (CPlace × CByte) → List (Nat × CByte)
  | [] => []
  | (.at key, x) :: r => if x.lands loc then (key, x) :: landing loc r else landing loc r
  | _ :: r => landing loc r

/-- Bytes written here: a granule written whole with good bytes is healed, one that got a bad byte is poisoned (R258, R332, R333); a barrier in use among
them is spoiled (R265). -/
def State.land (s : State) (l : List (Nat × CByte)) : State :=
  let s := l.foldl (fun s x => s.spoil x.1 1) s
  let s := l.foldl (fun s x => s.writeBytes x.1 [x.2.val]) s
  let s := s.heal (l.map (fun x => (x.1, 1)))
  l.foldl (fun s x => if x.2.st = 0 then s else s.poison x.1) s

/-- The writes to other devices, in pieces within one granule. -/
def awayWrites : List (CPlace × CByte) → List (Nat × Nat × List Byte × Bool)
  | [] => []
  | (.away dev addr, x) :: r =>
    if x.st = 2 then awayWrites r
    else match awayWrites r with
      | (d, a, bs, p) :: t =>
        if d = dev && a = addr + 1 && a % 8 ≠ 0 then (dev, addr, x.val :: bs, p || x.st == 1) :: t
        else (dev, addr, [x.val], x.st == 1) :: (d, a, bs, p) :: t
      | [] => [(dev, addr, [x.val], x.st == 1)]
  | _ :: r => awayWrites r

/-- Requests sent for copy `n`, once, and their answer. -/
def State.copyAsk (s : State) (n part : Nat) (ops : List (Nat × RemoteOp)) (sent : Option Nat) (set : Nat → Copy → Copy) : Remote :=
  match sent with
  | some r => s.answerTo r ops
  | none =>
    let bad := s.firstUnreached part ops
    let live := match bad with | none => ops | some k => ops.take k
    if live.isEmpty then .ready ⟨[], [], bad⟩
    else .sent ((s.sendRemote part live (.copy n)).updCopy n (set s.fabric.out.length))

/-- What a movement step of a copy did. -/
inductive Moved where
  | waits
  | later (s : State)
  /-- The bytes have moved: with an error, with poison. -/
  | done (s : State) (err pois : Bool)

/-- The bytes written at their destination, the answers of the writes being there. -/
def State.deliverCopy (s : State) (c : Copy) (data : List CByte) (places : List CPlace) (failed bad : Bool) : Moved :=
  match c.dst with
  | .slot n =>
    let s := s.keepOld c.core n
    if bad || data.any (fun x => x.st != 0) then .done s true (data.any (fun x => x.st == 1))
    else .done ((s.freshSlot c.core n).writeBytes (slotKey c.core n) (data.map (·.val))) false false
  | _ =>
    .done (s.land (landing c.dstLocal (places.zip data)))
      (failed || bad || data.any (fun x => x.st == 2) || places.contains .err)
      (data.any (fun x => x.st == 1 || (x.st == 2 && c.dstLocal)))

/-- A byte lies in one of these spans. -/
def CPlace.among (p : CPlace) (l : List Span) : Bool := match p.span 1 with | some x => l.any x.meets | none => false

/-- Bytes at these places, the ones among the spans replaced by free values, drawn from a number on (R256, spec/00 R8). -/
def freed (draw : Nat) (l : List Span) (places : List CPlace) (data : List CByte) : List CByte :=
  if l.isEmpty then data
  else (places.zip data).zipIdx.map (fun x => if x.1.1.among l then { x.1.2 with val := Config.freeByte (draw + x.2) } else x.1.2)

/-- The other copies in flight. -/
def State.otherCopies (s : State) (n : Nat) : List Copy :=
  (s.copies.zipIdx.filter (fun x => x.2 != n && !x.1.finished && !x.1.cancelled)).map (·.1)

/-- The bytes whose value a copy leaves unpredictable: those another copy wrote while both were in flight, and those one still in flight writes. -/
def State.sharedSpans (s : State) (n : Nat) (c : Copy) : List Span :=
  c.shared ++ (s.otherCopies n).flatMap (fun x => s.copySpan x false)

/-- The copies in flight that touch a byte this one has written remember it (R256). -/
def State.shareCopy (s : State) (n : Nat) (c : Copy) : State :=
  let mine := s.copySpan c false
  { s with copies := s.copies.zipIdx.map (fun x =>
      if x.2 = n || x.1.finished || x.1.cancelled then x.1
      else
        let its := s.copySpan x.1 true
        { x.1 with shared := x.1.shared ++ mine.filter (fun y => its.any y.meets) }) }

/-- A copy's movement (R256, R258): a translation fault is reported and awaited, the remote bytes are asked for, then everything is written. Where the copy
overlaps itself or another in flight, the bytes are free values (R256; spec/18 R355 of a COPY packet). -/
def State.moveCopy (s : State) (n : Nat) (c : Copy) : Moved :=
  let ctx := s.ctx c.ctx
  let part := ctx.part
  let shared := s.sharedSpans n c
  let sp := s.srcPlaces c
  let dp := s.dstPlaces c
  let report (a : Word) (sub : Nat) (write : Bool) : Moved :=
    let who := match c.wave.bind (fun i => s.waves[i]?) with | some w => s.who w | none => 0
    .later ((s.updCopy n (fun c => { c with fault := some (a, write) })).reportFault ctx c.core a write 8 sub (s.queue c.queue).num
      (b2n write + 4) who)
  match firstFault c.srcAddrs sp with
  | some (a, sub) => report a sub false
  | none => match firstFault c.dstAddrs dp with
    | some (a, sub) => report a sub true
    | none =>
      let reads := awayPieces sp
      match s.copyAsk n part (reads.map (fun x => (x.1, .read x.2.1 x.2.2))) c.rd (fun r c => { c with rd := some r, placed := some (sp, dp) }) with
      | .pending => .waits
      | .sent s' => .later s'
      | .ready ans =>
        let have' := match ans.failed with
          | none => (reads.map (·.2.2)).sum
          | some k => ((reads.take k).map (·.2.2)).sum
        let raw := freed (s.tick + 2 ^ 64) (shared ++ s.endSpans c c.dst c.dstLocal .write) sp (s.takeBytes ans have' sp 0)
        let data := freed (s.tick + 2 ^ 65) (shared ++ s.endSpans c c.src c.srcLocal .read) dp (c.payload raw)
        let writes := awayWrites (dp.zip data)
        match s.copyAsk n part (writes.map (fun x => (x.1, .write x.2.1 x.2.2.1 x.2.2.2))) c.wr (fun r c => { c with wr := some r, placed := some (sp, dp) }) with
        | .pending => .waits
        | .sent s' => .later s'
        | .ready x => match s.deliverCopy c data dp x.failed.isSome (raw.any (fun y => y.st == 2)) with
          | .done s' e p => .done (s'.shareCopy n c) e (p || raw.any (fun y => y.st == 1))
          | r => r

/-! ### Completion (R257, R260) -/

/-- A slot's fill ends: filled with the grant captured, or claimed and zero after an error. -/
def State.fillEnd (s : State) (core n : Nat) (g : Grant) (err : Bool) : State :=
  let s := if err then s.clearBytes (slotKey core n) slotBytes else s
  s.updSlot core n (fun x => if err then { x with st := 1, grant := .none, filling := x.filling - 1 }
    else { x with st := 2, grant := g, filling := x.filling - 1 })

/-- A copy completes: the slot, the barrier or signal word, and the event latches of the block's waves (spec/04 R116). -/
def State.endCopy (s : State) (n : Nat) (c : Copy) (err pois : Bool) : State :=
  let b := s.copyBlock c
  let s := s.updCopy n (fun c => { c with moved := some (err, pois), finished := true })
  let s := match c.dst with
    | .slot k => s.fillEnd b.core k c.grant err
    | _ => s
  let s := match c.target with
    | .barrier a => match s.localByte b a with
      | some key => s.copyOntoBar key (c.rows * c.rowBytes) err pois
      | none => s
    | .signal a v => match s.localByte b a with
      | some key => s.storeN key 8 (if err then v ||| 0x8000000000000000#64 else v).toNat
      | none => s
    | .packet _ _ => s
  match c.block with
  | some bi => s.latchBlock bi
  | none => s

/-- A copy is in flight and may move. -/
def Copy.moving (c : Copy) : Bool := !c.finished && !c.cancelled && c.fault.isNone

/-- COPY_COMPLETION of a copy that a CPY issued (R257); one whose checks failed at its reissue delivers nothing and ends in error (spec/14 R295). -/
def execCopyCompletion (n : Nat) (s : State) : Out State :=
  match s.copies[n]? with
  | none => idle s
  | some c =>
    if !c.moving || c.block.isNone then idle s
    else if c.reissueError then
      match s.deliverCopy c (List.replicate (c.rows * c.rowBytes) ⟨0, 2⟩) (s.dstPlaces c) true true with
      | .done s' _ pois => ok (s'.endCopy n c true pois)
      | _ => idle s
    else match s.moveCopy n c with
      | .waits => idle s
      | .later s' => ok s'
      | .done s' err pois => ok (s'.endCopy n c err pois)

/-- COPY_FAULT_ANSWER (R258): the copy tries again, without the page where the host declined. -/
def execCopyFaultAnswer (n : Nat) (resolved : Bool) (s : State) : Out State :=
  match s.copies[n]? with
  | none => idle s
  | some c => match c.fault with
    | none => idle s
    | some (a, write) =>
      if s.priWaits (s.ctx c.ctx) a then idle s
      else ok ((s.priAnswered (s.ctx c.ctx) a).updCopy n (fun c => { c with
        fault := none
        declined := if resolved then c.declined else (a.toNat / 4096, write) :: c.declined }))

/-! ### A multiply's operands and its completion (spec/11 R241, R242; spec/10 R221) -/

/-- The bytes a copy would deliver now; one it cannot know yet is a free value, drawn from a number on. -/
def State.payloadNow (s : State) (n : Nat) (c : Copy) (draw : Nat) : List Byte :=
  let sp := s.srcPlaces c
  let raw := freed (s.tick + 2 ^ 64) (s.sharedSpans n c) sp (s.takeBytes ⟨[], [], some 0⟩ 0 sp 0)
  (c.payload raw).zipIdx.map (fun x => if x.1.st = 0 then x.1.val else Config.freeByte (draw + x.2))

/-- The bytes that the fills still in flight of a slot would deliver. -/
def State.fillsOf (s : State) (core n : Nat) : List (List Byte) :=
  (s.copies.zipIdx.filter (fun x => x.1.core == core && x.1.dst == .slot n && !x.1.finished && !x.1.cancelled)).map
    (fun x => s.payloadNow x.2 x.1 (s.slotDraw + 16384 * (32 + x.2)))

/-- One of several bytes, chosen by a free value. -/
def pickByte (draw : Nat) (now : Byte) (l : List Byte) : Byte := (now :: l).getD ((Config.freeByte draw).toNat % (l.length + 1)) now

/-- A slot's image as a multiply reads it that issued beside a fill: each byte is the old or the new one (R241), an old one being what the slot held before a
fill ended, a new one what it holds now or what a fill in flight would deliver now (log entry 70). -/
def State.mixSlot (s : State) (core n count : Nat) (olds : List (List Byte)) : State :=
  let others := olds ++ s.fillsOf core n
  s.writeBytes (slotKey core n) ((s.slotImage core n count).zipIdx.map (fun x =>
    pickByte (s.slotDraw + 16384 * n + x.2) x.1 (others.filterMap (·[x.2]?))))

/-- The operands a multiply reads (R241). -/
def State.operands (s : State) (core : Nat) (o : MmaOp) : State :=
  let s := if o.mixA then s.mixSlot core o.slotA (o.grant.valueBytes 0) o.oldA else s
  if o.mixB then s.mixSlot core o.slotB (o.grant.valueBytes 1) o.oldB else s

/-- The multiply's update of its set. -/
def State.applyMma (s : State) (core : Nat) (o : MmaOp) : State :=
  let s0 := if o.fn = 2 then s.zeroSet core o.set else s
  let sr := s.operands core o
  let g := o.grant
  let cols := (List.range g.cols).map (fun j => (j, sr.colB o core j))
  (List.range g.rows).foldl (fun s1 i =>
    let row := sr.rowA o core i
    cols.foldl (fun s1 (j, col) =>
      s1.setAcc core o.set i j (accRun g.fmt (groupSize g.fmt) o.sat g.depth (row.zip col) (s0.acc core o.set i j))) s1) s0

/-- MMA_COMPLETE on a core (R221): the running multiply updates its set. -/
def execMmaComplete (core : Nat) (s : State) : Out State :=
  match (s.core core).run with
  | none => idle s
  | some o => ok ((s.applyMma core o).updCore core (fun c => { c with run := none }))


end Sys2Proof.Machine
end

