-- ==== Sys2Proof/Machine/Sched.lean ====
section
/-! DEFINITION. Dealing, launching, gangs, block ends and continuations: spec/14 R281 to R288, R300, spec/12 R252, R274, R275, spec/17 R337 to
R339, R344, R345, with their steps of spec/95. -/

namespace Sys2Proof.Machine

/-! ### Jobs and their placement (spec/14 R281, R282) -/

/-- The job with a number, none where the list holds none. -/
def State.job? (s : State) (j : Nat) : Option Job := s.jobs[j]?

/-- The context of a queue. -/
def State.ctxOfQueue (s : State) (q : Nat) : Ctx := s.ctx (s.queue q).ctx

/-- The clusters of the regions a placement word names, of a partition's clusters in order (spec/18 R360). -/
def regionClusters (cs : List Nat) (regions : Word) : List Nat :=
  (cs.zipIdx.filter (fun x => bit regions.toNat (x.2 / 2))).map (·.1)

/-- The placement set of a job. -/
def State.jobClusters (s : State) (j : Job) : List Nat :=
  regionClusters (s.partD (s.ctxOfQueue j.queue).part).clusters j.regions

/-- The kernel of a job. -/
def State.jobKernel (s : State) (j : Job) : Kernel := (s.obj j.obj).kernel j.kernel

/-- The cores of a cluster in service on which a kernel is eligible. -/
def State.coresFor (s : State) (k : Kernel) (cluster : Nat) : List Nat :=
  ((List.range 4).map (fun i => 4 * cluster + i)).filter (fun c => k.eligible c && (s.core c).inService)

/-- The number of placement targets P. -/
def State.targets (s : State) (j : Job) : Nat :=
  ((s.jobClusters j).filter (fun c => (s.jobKernel j).eligible (4 * c))).length * (4 / j.gang)

/-- Points of a unit: n1 × n2 × n3. -/
def Job.unitPoints (j : Job) : Nat := j.n[1] * j.n[2] * j.n[3]

/-- The indices of a linear index (R281). -/
def Job.indices (j : Job) (p : Nat) : Vector Nat 4 :=
  #v[p / (j.n[1] * j.n[2] * j.n[3]), p / (j.n[2] * j.n[3]) % j.n[1], p / j.n[3] % j.n[2], p % j.n[3]]

/-- The units of the next deal (R282). -/
def State.dealSize (s : State) (j : Job) : Nat :=
  let rem := j.n[0] - j.dealt
  min (max j.cmin (rem / (2 * s.targets j))) rem

/-- The front end serves a job: its context runs, no fault stopped it and it has not ended. -/
def State.serves (s : State) (j : Job) : Bool :=
  s.runs? (s.queue j.queue).ctx && !j.stopped && !j.finished

/-! ### Coverage (spec/17 R337 to R339, R344, R345) -/

/-- Lattice code and parameter of rung `n` of a coverage record. -/
def covRung (rec : List Byte) (n : Nat) : Nat × Nat := (field rec (8 + 2 * n) 1, field rec (9 + 2 * n) 1)

/-- The lattice coordinates (q, r, c) of a point (R337). -/
def Job.coords (j : Job) (p : Nat) : Nat × Nat × Nat :=
  let i := j.indices p
  match field j.cov 7 1 with
  | 1 => (0, 0, i[0])
  | 2 => (0, i[0], i[1])
  | 3 => (i[0], i[1], i[2])
  | _ => (i[0] * j.n[1] + i[1], i[2], i[3])

/-- A lattice keeps a point (Table 17.2). -/
def latticeKeeps (code k r c : Nat) : Bool :=
  match code with
  | 1 => r % 2 == 0
  | 2 => c % 2 == 0
  | 3 => (r + c) % 2 == 0
  | 4 => r % 2 == 0 || c % 2 == 0
  | 5 => r % 2 == 0 && c % 2 == 0
  | 6 => c % k == 0
  | 7 => r % 3 != 1 || c % 3 != 1
  | _ => true

/-- The coverage word of a block (Table 17.4): rung 15 is full mode. -/
def covWord (rec : List Byte) (rung : Nat) (check : Bool) : Word :=
  if rung = 15 then word (2 ^ 12 + 15 * 16 + b2n check)
  else
    let (code, k) := covRung rec rung
    word (k * 2 ^ 16 + 2 ^ 12 + code * 256 + rung * 16 + b2n check)

/-- The points of a chunk of a coverage job walked in ascending order (R338): those launched, and the job with its skipped and kept points. -/
def traverse (rung : Nat) : List Nat → Job → List Nat × Job
  | [], j => ([], j)
  | p :: ps, j =>
    let (_, r, c) := j.coords p
    let (code, k) := covRung j.cov rung
    if rung = 15 || latticeKeeps code k r c then
      let (l, j) := traverse rung ps { j with kept := j.kept ++ [p], mapDue := j.mapDue ++ [⟨p, rung, false, none, none, none, none, 1, 0, false⟩] }
      (p :: l, j)
    else
      let rate := field j.cov 3 1
      let check := rate != 0 && j.skipCount % rate == rate - 1
      let (l, j) := traverse rung ps { j with
        skipCount := j.skipCount + 1
        skipped := j.skipped ++ [⟨p, rung, check, none, none, none, none, 0, 0, false⟩] }
      (if check then p :: l else l, j)

/-- a < b of two f64 values that are no NaN. -/
def f64Less (a b : Nat) : Bool := match cmpV (decodeF 0 a) (decodeF 0 b) with | .lt => true | _ => false

/-- An f32 field of a coverage record as f64. -/
def covTol (rec : List Byte) (off : Nat) : Nat := (deliverF 0 0 false false (decodeF 1 (field rec off 4)) false).val

/-- An update instant of the closure controller for a job of a queue (R344). -/
def State.closure (s : State) (ji : Nat) : State :=
  match s.job? ji with
  | none => s
  | some j =>
    if j.cov.isEmpty || !j.compared then s
    else
      let s := s.updJob ji (fun j => { j with compared := false, miss := 0 })
      s.updQueue j.queue (fun q =>
        if f64Less (covTol j.cov 24) j.miss.toNat then
          if q.covFull then { q with covRun := 0 }
          else if q.covRung = 0 then { q with covRun := 0, covFull := true }
          else { q with covRun := 0, covRung := q.covRung - 1 }
        else if f64Less j.miss.toNat (covTol j.cov 28) then
          if q.covRun + 1 ≥ field j.cov 4 1 then
            if q.covFull then { q with covRun := 0, covFull := false }
            else if q.covRung < field j.cov 2 1 then { q with covRun := 0, covRung := q.covRung + 1 }
            else { q with covRun := 0 }
          else { q with covRun := q.covRun + 1 }
        else { q with covRun := 0 })

/-- An earlier coverage job of the same queue has not made its end-of-job update (R339). -/
def State.covBlocked (s : State) (ji : Nat) (j : Job) : Bool :=
  !j.cov.isEmpty && (s.jobs.take ji).any (fun x => x.queue == j.queue && !x.cov.isEmpty && !x.covEnded && !x.finished)

/-- A block of a chunk ended: with its last block the chunk ends, an update instant. -/
def State.chunkDone (s : State) (ji ch : Nat) : State :=
  match s.job? ji with
  | none => s
  | some j =>
    if j.cov.isEmpty then s
    else
      let s := s.updJob ji (fun j => { j with chunks := updAt j.chunks ch (fun c => { c with left := c.left - 1 }) })
      match (s.job? ji).bind (fun j => j.chunks[ch]?) with
      | some c => if c.left = 0 then s.closure ji else s
      | none => s

/-! ### Gangs in line (R285 to R287) -/

/-- A gang joins the end of its queue's line. -/
def State.joinLine (s : State) (q ji p : Nat) : State :=
  s.updQueue q (fun x =>
    if x.line.isEmpty then { x with line := [(ji, p)], headSince := s.time.toNat, reserved := none, aged := false }
    else { x with line := x.line ++ [(ji, p)] })

/-- The next deal of a gang job, when its queue's line holds no gang of it (R282). -/
def State.dealGang (s : State) (ji : Nat) : State :=
  match s.job? ji with
  | none => s
  | some j =>
    if j.gang < 2 || !s.serves j || j.n[0] ≤ j.dealt || (s.queue j.queue).line.any (fun x => x.1 == ji) then s
    else
      let c := s.dealSize j
      let first := j.dealt * j.unitPoints
      let s := s.updJob ji (fun j => { j with dealt := j.dealt + c })
      (List.range (c * j.unitPoints / j.gang)).foldl (fun s i => s.joinLine j.queue ji (first + i * j.gang)) s

/-- The size of the gang at the head of a queue's line, 0 with none. -/
def State.headGang (s : State) (q : Queue) : Nat :=
  match q.line with
  | [] => 0
  | (ji, _) :: _ => match s.job? ji with | some j => j.gang | none => 0

/-- A job of gang size `g` on queue `q` back-fills: another queue of the partition has a larger gang waiting (R286). -/
def State.backfills (s : State) (q g : Nat) : Bool :=
  s.queues.zipIdx.any (fun x => x.2 != q && (s.ctx x.1.ctx).part == (s.ctxOfQueue q).part && decide (g < s.headGang x.1))

/-- A cluster is reserved against back-fill of gang size `g` from queue `q` (R287). -/
def State.reservedFrom (s : State) (q g cluster : Nat) : Bool :=
  s.queues.zipIdx.any (fun x => x.2 != q && (s.ctx x.1.ctx).part == (s.ctxOfQueue q).part && x.1.reserved == some cluster
    && decide (g < s.headGang x.1))

/-- A core has no resident block and no unlaunched point (R285). -/
def State.coreFree (s : State) (core : Nat) : Bool := (s.blocksOn core).isEmpty && (s.core core).chunk.isEmpty

/-- The free cores of a cluster that can hold a block of the kernel. -/
def State.freeFor (s : State) (q : Nat) (k : Kernel) (cluster : Nat) : List Nat :=
  (s.coresFor k cluster).filter (fun c => s.coreFree c && s.fits c k k.waves && s.pinAllows q c)

/-- The cluster with the most reclaimable cores, the lowest among equals, none when all have none (R287). -/
def State.reclaim (s : State) (j : Job) : Option Nat :=
  let k := s.jobKernel j
  let count (c : Nat) : Nat :=
    ((s.coresFor k c).filter (fun n => s.coreFree n || (!(s.blocksOn n).isEmpty && (s.blocksOn n).all (fun x => x.1.backfill)))).length
  let l := (s.jobClusters j).filter (fun c => decide (j.gang ≤ (s.coresFor k c).length))
  let best := l.foldl (fun (m : Option Nat) c => match m with
    | none => if count c = 0 then none else some c
    | some x => if count x < count c then some c else some x) none
  best

/-- The choice made for a queue whose head has aged and has no cluster reserved. -/
def State.reserve (s : State) (qi : Nat) : State :=
  let q := s.queue qi
  if q.aged && q.reserved.isNone then
    match q.line with
    | [] => s
    | (ji, _) :: _ => match s.job? ji with
      | some j => s.updQueue qi (fun q => { q with reserved := s.reclaim j })
      | none => s
  else s

/-- GANG_AGEING_EXPIRY of a queue (R287): the head has waited longer than the limit. -/
def execGangAgeingExpiry (qi : Nat) (s : State) : Out State :=
  let q := s.queue qi
  if q.line.isEmpty || q.aged || s.time.toNat ≤ q.headSince + 1000 * q.age then idle s
  else ok ((s.updQueue qi (fun q => { q with aged := true })).reserve qi)

/-- A block of a job at a point, before its launch. -/
def State.pointBlock (s : State) (ji : Nat) (j : Job) (core p gang member : Nat) : Block :=
  { Block.blank with
    job := some ji
    queue := j.queue
    ctx := (s.queue j.queue).ctx
    obj := j.obj
    kernel := j.kernel
    core := core
    ident := p
    pidx := j.indices p
    point := p
    argp := j.args
    gang := gang
    member := member
    backfill := s.backfills j.queue j.gang
    phase := .running }

/-- The blocks of a gang launched on cores, member by member. -/
def State.launchGang (s : State) (ji : Nat) (j : Job) (p gi : Nat) : List Nat → Nat → State
  | [], _ => s
  | c :: cs, m =>
    let bi := s.blocks.length
    let s := s.launchBlock (s.pointBlock ji j c (p + m) gi m) j.entry (s.jobKernel j).waves 0
    (s.updGang gi (fun g => { g with blocks := g.blocks ++ [bi] })).launchGang ji j p gi cs (m + 1)

/-- The cluster a gang goes to (R285): the reserved one, else the lowest with enough free cores. -/
def State.gangCluster (s : State) (q : Queue) (qi : Nat) (j : Job) : Option Nat :=
  let k := s.jobKernel j
  let good (c : Nat) : Bool := decide (j.gang ≤ (s.freeFor j.queue k c).length) && !s.reservedFrom qi j.gang c
  match q.reserved with
  | some r => if good r then some r else (s.jobClusters j).find? good
  | none => (s.jobClusters j).find? good

/-- A context's held bins must launch on a core before its other blocks do (spec/10 R225). -/
def State.binsFirst (s : State) (core ci : Nat) : Bool :=
  (s.core core).launches.any (fun b => b.held && (s.block b.block).ctx == ci)

/-- GANG_PLACE of a queue's head (R285): all its blocks in one step, then the job's next deal where it is due. -/
def execGangPlace (qi : Nat) (s : State) : Out State :=
  let q := s.queue qi
  match q.line with
  | [] => idle s
  | (ji, p) :: rest => match s.job? ji with
    | none => idle s
    | some j =>
      if !s.serves j then idle s
      else match s.gangCluster q qi j with
        | none => idle s
        | some cl =>
          let cores := (s.freeFor j.queue (s.jobKernel j) cl).take j.gang
          if cores.any (fun c => s.binsFirst c q.ctx) then idle s
          else
            let gi := s.gangs.length
            let s := { s with gangs := s.gangs ++ [(⟨[], j.gang, cl, [], false⟩ : Gang)] }
            let s := s.launchGang ji j p gi cores 0
            let s := s.updQueue qi (fun q => { q with line := rest, headSince := s.time.toNat, reserved := none, aged := false })
            ok (s.dealGang ji)

/-! ### Dealing and launching single blocks (R282, R283) -/

/-- The coverage state of a queue at the start of a launch (spec/17 R345). -/
def Queue.startCov (q : Queue) (rec' : Word) (cov : List Byte) : Queue :=
  if cov.isEmpty then q
  else if q.covKey = some rec' then { q with covRun := 0 }
  else { q with covKey := some rec', covRung := field cov 1 1, covFull := false, covRun := 0 }

/-- A core asks for a chunk of a job (R282): it holds no undealt point of it and can launch a block of its kernel. -/
def State.asks (s : State) (ji : Nat) (j : Job) (core : Nat) : Bool :=
  let k := s.jobKernel j
  (s.jobClusters j).contains (clusterOf core) && (s.coresFor k (clusterOf core)).contains core
    && !(s.core core).chunk.any (fun x => x.1 == ji) && s.fits core k k.waves && s.pinAllows j.queue core && !s.reservedFrom j.queue 1 (clusterOf core)

/-- The cores of a job's placement set, in ascending order. -/
def State.jobCores (s : State) (j : Job) : List Nat :=
  (List.range s.cores.length).filter (fun c => (s.jobClusters j).contains (clusterOf c))

/-- A job whose points go to cores that ask for them: gangs of one, with points left. -/
def State.deals (s : State) (j : Job) : Bool := s.serves j && decide (j.gang < 2) && (!j.returned.isEmpty || decide (j.dealt < j.n[0]))

/-- Every job hears which cores ask, those that ask for the first time after the others, the lower number first (R282). -/
def State.listen (s : State) : State :=
  { s with jobs := s.jobs.zipIdx.map (fun x =>
      if s.deals x.1 then
        let still := x.1.asked.filter (s.asks x.2 x.1)
        { x.1 with asked := still ++ (s.jobCores x.1).filter (fun c => !still.contains c && s.asks x.2 x.1 c) }
      else { x.1 with asked := [] }) }

/-- CHUNK_DEAL of a job: for gangs of one to the core that has asked longest, else into the queue's line. Returned points go first, as a chunk alone (R290). -/
def execChunkDeal (ji core : Nat) (s : State) : Out State :=
  match s.job? ji with
  | none => idle s
  | some j =>
    if !s.serves j then idle s
    else if j.gang ≥ 2 then
      if j.n[0] ≤ j.dealt || (s.queue j.queue).line.any (fun x => x.1 == ji) then idle s else ok (s.dealGang ji)
    else
      if j.asked.head? ≠ some core || !s.asks ji j core then idle s
      else if !j.returned.isEmpty then
        let pts := j.returned
        ok ((s.updJob ji (fun j => { j with returned := [] })).updCore core (fun c => { c with
          chunk := c.chunk ++ pts.map (fun x => (ji, x.1, x.2)) }))
      else if j.n[0] ≤ j.dealt || s.covBlocked ji j then idle s
      else
        let n := s.dealSize j
        let pts := (List.range (n * j.unitPoints)).map (fun i => j.dealt * j.unitPoints + i)
        let s := if j.dealt = 0 then s.updQueue j.queue (fun q => q.startCov j.covRec j.cov) else s
        let q := s.queue j.queue
        let rung := if q.covFull then 15 else q.covRung
        let (go, j') := if j.cov.isEmpty then (pts, j) else traverse rung pts j
        let ch := j.chunks.length
        let j' := { j' with
          dealt := j.dealt + n
          chunks := if j.cov.isEmpty then j.chunks else j.chunks ++ [⟨rung, go.length⟩] }
        let s := s.updJob ji (fun _ => j')
        let s := s.updCore core (fun c => { c with chunk := c.chunk ++ go.map (fun p => (ji, p, ch)) })
        ok (if go.isEmpty && !j.cov.isEmpty then s.closure ji else s)

/-- The first entry of each job among a core's unlaunched points that may launch now. -/
def State.launchable (s : State) (core : Nat) : List (Nat × Nat × Nat) → List Nat → Option (Nat × Nat × Nat)
  | [], _ => none
  | (ji, p, ch) :: r, seen =>
    if seen.contains ji then s.launchable core r seen
    else match s.job? ji with
      | none => s.launchable core r (ji :: seen)
      | some j =>
        let k := s.jobKernel j
        if s.serves j && s.fits core k k.waves && s.pinAllows j.queue core && !s.reservedFrom j.queue 1 (clusterOf core) && !s.binsFirst core (s.queue j.queue).ctx
        then some (ji, p, ch) else s.launchable core r (ji :: seen)

/-- A point's block in a coverage launch: its rung's word, and whether it is a check point (R338, R348). -/
def Job.covOf (j : Job) (p ch : Nat) : Word × Bool :=
  if j.cov.isEmpty then (0, false)
  else
    let check := j.skipped.any (fun x => x.point == p)
    (covWord j.cov ((j.chunks[ch]?).map (·.rung) |>.getD 0) check, check)

/-- POINT_LAUNCH on a core (R283): the lowest point of a chunk it holds, once its resources are free and no continuation is ahead of it. -/
def execPointLaunch (core : Nat) (s : State) : Out State :=
  match (if s.contFirst core then none else s.launchable core (s.core core).chunk []) with
  | none => idle s
  | some (ji, p, ch) => match s.job? ji with
    | none => idle s
    | some j =>
      let s := s.updCore core (fun c => { c with chunk := c.chunk.erase (ji, p, ch) })
      let bi := s.blocks.length
      let gi := s.gangs.length
      let s := { s with gangs := s.gangs ++ [(⟨[bi], 1, clusterOf core, [], false⟩ : Gang)] }
      let (cov, check) := j.covOf p ch
      ok (s.launchBlock { s.pointBlock ji j core p gi 0 with cov := cov, check := check, chunk := ch } j.entry (s.jobKernel j).waves 0)

/-! ### Ends (spec/12 R252, R274, R275) -/

/-- The slots and sets of a block freed. -/
def State.freeCore (s : State) (bi : Nat) : State :=
  let b := s.block bi
  (s.updCore b.core (fun c => { c with slots := c.slots.map (fun x => if x.ownedBy bi then .free else x) })).updBlock bi
    (fun b => { b with sets := [], live := 0, dmg := 0 })

/-- The part of a lease not used returns to the partition's allotment: `share` is 128 W units (spec/19 R384). -/
def LeaseSt.unused (l : LeaseSt) (now : Nat) : Nat :=
  l.share * (l.granted - min l.granted ((now - l.start) / 1000)) * 1000 / 128

/-- A lease ends early, without a trap (spec/19 R386): sustained budget and clocks, the unexpired part returned. -/
def State.endLease (s : State) (ci : Nat) : State :=
  let c := s.ctx ci
  match c.lease with
  | none => s
  | some l =>
    let s := s.updCtx ci (fun c => { c with lease := none })
    let s := s.updPart c.part (fun p => { p with allotLeft := p.allotLeft + l.unused s.time.toNat })
    { s with clusters := s.clusters.map (fun k => if k.part == some c.part then { k with mhz := 1050 } else k) }

/-- The lease of a block's context ends when the block that holds it ends (spec/19 R387). -/
def State.endBlockLease (s : State) (bi : Nat) : State :=
  let b := s.block bi
  match (s.ctx b.ctx).lease with
  | some l => if b.waves.contains l.holder then s.endLease b.ctx else s
  | none => s

/-- The lowest-indexed wave of a block with a recorded CONT (R275). -/
def State.contOf (s : State) (b : Block) : Option (Word × Word) :=
  let ws := b.waves.filterMap (fun i => s.waves[i]?)
  match bestIdx (fun (w : Wave) => w.cont.isSome) (fun x y => decide (x.id < y.id)) ws 0 none with
  | none => none
  | some i => (ws[i]?).bind (·.cont)

/-- Every access of a block's waves is over: copies, multiplies, fabric operations, remote accesses, takes (R274). A take that a fault has stopped goes with its wave, its
fault unraised (the model's choice: log entry 155). -/
def State.blockQuiet (s : State) (bi : Nat) : Bool :=
  let b := s.block bi
  s.copies.all (fun c => c.block != some bi || c.finished)
    && (s.core b.core).ops.all (fun o => o.block != bi)
    && b.waves.all (fun i => !s.fabricOut i && (match s.waves[i]? with
      | some w => w.ask.isNone && w.streams.all (fun t => !t.due || t.err.isSome)
      | none => true))

/-- Every stream of a wave unbound (spec/06 R172). -/
def State.unbindAll (s : State) (wi : Nat) : State :=
  match s.waves[wi]? with
  | none => s
  | some w => w.streams.foldl (fun s t => s.unbindStream wi w t) s

/-- Points with their chunks, in ascending order. -/
def sortPts (l : List (Nat × Nat)) : List (Nat × Nat) := sortBy (·.1) l

/-- What a saved context has at the front end leaves the cores (spec/14 R293, R296): its bins, and its unlaunched points, which stay dealt to their cores (R282;
log entry 141). -/
def State.saveFront (s : State) (ci : Nat) : State :=
  let mine (b : Bin) : Bool := (s.block b.block).ctx == ci
  let bins : List (Nat × Bin) := s.cores.zipIdx.flatMap (fun x =>
    ((x.1.bins.filterMap id ++ x.1.launches.map (fun (b : Bin) => { b with held := true })).filter mine).map (fun b => (x.2, b)))
  let ofJob (ji : Nat) : Bool := match s.job? ji with | some j => (s.queue j.queue).ctx == ci | none => false
  let points := s.cores.zipIdx.flatMap (fun x => (x.1.chunk.filter (fun y => ofJob y.1)).map (fun y => (x.2, y)))
  { s with
    cores := s.cores.map (fun (c : CoreSt) => { c with
      bins := c.bins.map (fun o => match o with | some b => if mine b then none else some b | none => none)
      launches := c.launches.filter (fun b => !mine b)
      chunk := c.chunk.filter (fun x => !ofJob x.1) }) }.updCtx ci (fun c => { c with st := .saved, bins := bins, points := points })

/-- A context in soft without a resident block is saved at once (spec/14 Table 14.3). -/
def State.softDone (s : State) (ci : Nat) : State :=
  if (s.ctx ci).st == .soft && s.blocks.all (fun b => b.ctx != ci || !b.resident) then s.saveFront ci else s

/-- A core lies in the placement set of the head of a queue's line. -/
def State.headSet (s : State) (qi core : Nat) : Bool :=
  match (s.queue qi).line with
  | [] => false
  | (ji, _) :: _ => match s.job? ji with
    | some j => (s.jobClusters j).contains (clusterOf core)
    | none => false

/-- A block is over: what its end brings to its job, to the gangs in whose placement set it stood (R287) and to its context. -/
def State.blockGone (s : State) (bi : Nat) : State :=
  let b := s.block bi
  let s := match b.job with
    | some ji => if b.bin then s else s.chunkDone ji b.chunk
    | none => s
  let s := (List.range s.queues.length).foldl (fun s q => if s.headSet q b.core then s.reserve q else s) s
  s.softDone b.ctx

/-- BLOCK_END of a block whose waves have all ended (R274). -/
def execBlockEnd (bi : Nat) (s : State) : Out State :=
  let b := s.block bi
  if b.phase != .ending || b.saved.isSome || !s.blockQuiet bi then idle s
  else
    let fab := b.waves.any (fun i => match s.waves[i]? with | some w => !w.fabFail.isEmpty | none => false)
    let s := b.waves.foldl (fun s i => s.unbindAll i) s
    let s := if fab then match b.job with
        | some ji => s.updJob ji (fun j => { j with fabError := true })
        | none => s
      else s
    let s := s.endBlockLease bi
    match s.contOf b with
    | some (e, arg) =>
      let ki := ((s.obj b.obj).kernelAt e).getD 0
      ok (s.updBlock bi (fun b => { b with phase := .waiting, next := some (b.obj, ki, e, arg) }))
    | none => ok ((((s.freeCore bi).updBlock bi (fun b => { b with phase := .done })).holdPin b.core).blockGone bi)

/-- CONTINUATION_START of a block that waits for one (R275, spec/14 R288): new waves on the same core, everything else kept. -/
def execContinuationStart (bi : Nat) (s : State) : Out State :=
  let b := s.block bi
  let going := match (s.ctx b.ctx).st with | .running | .soft => true | _ => false
  match b.next with
  | none => idle s
  | some (obj, ki, e, arg) =>
    if b.phase != .waiting || b.saved.isSome || !going then idle s
    else
      let k := (s.obj obj).kernel ki
      let s := s.updBlock bi (fun b => { b with phase := .running, kernel := ki, next := none, waves := [] })
      let s := match b.job with
        | none => s
        | some j => s.updJob j (fun j => { j with launched := j.launched + 1 })
      ok (s.launchWaves bi k.legacy e (s.queue b.queue).handler arg (if b.bin then 1 else k.waves))

/-- The triggers on barriers in an allocation, and what those barriers gathered, dropped. -/
def State.dropAlloc (s : State) (core base n : Nat) : State :=
  let key := memKey .scratch core base
  { s with bars := s.bars.filter (fun x => !(decide (key ≤ x.key) && decide (x.key < key + n))) }.updCore core (fun c => { c with
    triggers := c.triggers.filter (fun t => !(decide (base ≤ t.offset) && decide (t.offset < base + n))) })

/-- GANG_SCRATCH_RELEASE of a gang (R252, R270): its last block has ended and every copy of its blocks has completed. -/
def execGangScratchRelease (gi : Nat) (s : State) : Out State :=
  let g := s.gang gi
  let gone (bi : Nat) : Bool := !(s.block bi).alive && s.copies.all (fun c => c.block != some bi || c.finished)
  if g.released || g.blocks.isEmpty || !g.blocks.all gone then idle s
  else
    let s := g.blocks.foldl (fun (s : State) bi =>
      let b := s.block bi
      if b.phase == .done then s.dropAlloc b.core b.scratchBase b.scratch else s) s
    ok (s.updGang gi (fun g => { g with released := true }))

/-- A core has an unlaunched point or a copy in flight. -/
def State.coreBusy (s : State) (core : Nat) : Bool := !(s.core core).chunk.isEmpty || s.copies.any (fun x => x.core == core && !x.finished)

/-- The field firmware sets the idle limit of a cluster, from 1 µs to 10 ms (R300); another value sets nothing. -/
def State.setIdle (s : State) (cl ns : Nat) : State :=
  if 1000 ≤ ns ∧ ns ≤ 10000000 then s.updCluster cl (fun c => { c with idleLimit := ns }) else s

/-- CLUSTER_GATE (R300): no resident block, no unlaunched point and no copy in flight, for as long as the idle timer runs; the instruction cache is invalid
(spec/08 R204). -/
def execClusterGate (cl : Nat) (s : State) : Out State :=
  let c := s.cluster cl
  if c.gated || ((List.range 4).map (fun i => 4 * cl + i)).any (fun n => !(s.blocksOn n).isEmpty || s.coreBusy n)
      || decide (s.time.toNat < c.idle + c.idleLimit) then idle s
  else ok (s.updCluster cl (fun c => { c with gated := true, icache := [] }))

end Sys2Proof.Machine
end

