-- ==== Sys2Proof/Machine/Preempt.lean ====
section
/-! DEFINITION. Flush-and-restart, soft errors, pre-emption, saving and resuming: spec/14 R289 to R299, with their steps of spec/95. -/

namespace Sys2Proof.Machine

/-! ### Discarding (R290, R297) -/

/-- A block is gone: its waves end without effect, its copies and queued multiplies are dropped, its core's resources are free. -/
def State.discardBlock (s : State) (bi : Nat) : State :=
  let b := s.block bi
  if !b.alive then s
  else
    let s := b.waves.foldl (fun s i => s.unbindAll i) s
    let s := s.endBlockLease bi
    let s := if b.saved.isNone then s.dropAlloc b.core b.scratchBase b.scratch else s
    let s := { s with
      copies := s.copies.map (fun (c : Copy) => if c.block == some bi && !c.finished then { c with cancelled := true, finished := true } else c)
      waves := s.waves.map (fun (w : Wave) => if w.block == bi then
        { w with ended := true, splits := [], frozen := [], pend := [], ask := none, ahead := false, look := none, hist := [], tile := none, park := none, lease := none, quota := none, sysc := none }
        else w) }
    let s := s.updCore b.core (fun c => { c with
      qlo := c.qlo.filter (fun o => o.block != bi)
      qhi := c.qhi.filter (fun o => o.block != bi) })
    let s := if b.saved.isNone then s.freeCore bi else s
    (s.updBlock bi (fun b => { b with phase := .discarded, saved := none, next := none })).holdPin b.core

/-- A block that has ended is flushed with its gang (R290): its allocation and its copies go. -/
def State.discardEnded (s : State) (bi : Nat) : State :=
  let b := s.block bi
  let s := if b.saved.isNone then s.dropAlloc b.core b.scratchBase b.scratch else s
  { s with copies := s.copies.map (fun (c : Copy) =>
      if c.block == some bi && !c.finished then { c with cancelled := true, finished := true } else c) }.updBlock bi
    (fun b => { b with phase := .discarded, saved := none })

/-- A block may be flushed and started again (R289, R290): it runs a point of an idempotent job and no member of its gang is latched. -/
def State.restartable (s : State) (bi : Nat) : Bool :=
  let b := s.block bi
  !b.bin && (match b.job.bind s.job? with | some j => j.idem | none => false)
    && (s.gang b.gang).blocks.all (fun m => !(s.block m).latch)

/-- The gang of a block flushed and its points returned to the front of the job (R290); a context in soft that has no resident block left is saved (R292). -/
def State.flush (s : State) (bi : Nat) : State :=
  let b := s.block bi
  let g := s.gang b.gang
  let first := g.blocks.foldl (fun m x => min m (s.block x).point) b.point
  let s := g.blocks.foldl (fun (s : State) x => if (s.block x).phase == .done then s.discardEnded x else s.discardBlock x) s
  let s := s.updGang b.gang (fun g => { g with released := true })
  let s := match b.job with
    | none => s
    | some ji =>
      if g.size ≤ 1 then s.updJob ji (fun j => { j with returned := sortPts ((b.point, b.chunk) :: j.returned) })
      else s.updQueue b.queue (fun q => { q with line := (ji, first) :: q.line, headSince := s.time.toNat, reserved := none, aged := false })
  s.softDone b.ctx

/-! ### The cut of a hard stop (R294) -/

/-- The order of R52: the lower program counter, then the smaller index. -/
def Split.before (x y : Split) : Bool :=
  decide (x.pc < y.pc) || (x.pc == y.pc && (match x.idx, y.idx with | some i, some j => decide (i < j) | _, _ => false))

/-- The split R52 would issue if every resident split were ready (spec/07 R182). -/
def Wave.cutSplit (w : Wave) : Option Nat := bestIdx (fun x => x.idx.isSome) Split.before w.splits 0 none

/-- The cut of a stopped wave is formed: what is in flight is written, and a trace record of type 4 is (spec/21 R400). -/
def State.formCut (s : State) (wi : Nat) : State :=
  let s := (s.drain wi).updWave wi (fun w => { w with ahead := false, hist := [] })
  match s.waves[wi]? with
  | none => s
  | some w => match w.cutSplit.bind (fun i => w.splits[i]?) with
    | none => s
    | some sp => s.traceRecord w 4 0xFF sp.pc w.esr w.esv.toNat sp.mask.toNat 0

/-- A wave stops (R294): a waiting instruction is cut before it, the fills of its streams are discarded (spec/06 R175), and no image holds a fetched word
(spec/08 R206); the read of a descriptor in a device-class page stands, to be performed once (spec/16 R317). While an access of it awaits its answer the
cut is not formed yet (spec/02 R62). -/
def State.cutWave (s : State) (wi : Nat) : State :=
  let still (x : Split) : Split := { x with fbuf := [], held := none, due := none }
  let s := s.updWave wi (fun w => { w with
    suspended := true
    tile := none
    look := w.look.filter (fun l => l.2.2)
    splits := w.splits.map still
    frozen := w.frozen.map still
    ask := w.ask.map (fun q => { q with splits := q.splits.map still })
    streams := w.streams.map (fun t => if t.isRead && !t.full then { t with part := [], ask := none } else t) })
  match s.waves[wi]? with
  | none => s
  | some w =>
    -- a waiting OCLAIM issues anew, on whatever core, when the block runs again
    let s := s.updCore (s.coreOf w) (fun c => { c with claimers := c.claimers.filter (fun e => e.1 != wi) })
    if w.ask.isSome then s else s.formCut wi

/-- Every multiply of a block carried out, in the order of their issue (spec/11 R242). -/
def State.finishOps (s : State) (bi : Nat) : State :=
  let core := (s.block bi).core
  let other (o : MmaOp) : Bool := o.block != bi
  let mine := sortBy MmaOp.order ((s.core core).ops.filter (fun o => !other o))
  (mine.foldl (fun s o => s.applyMma core o) s).updCore core (fun c => { c with
    run := c.run.filter other
    qhi := c.qhi.filter other
    qlo := c.qlo.filter other })

/-! ### Soft errors (R291) -/

/-- A block holds something on its core: it has not ended, or its gang goes on and its allocation with it (spec/12 R252). -/
def State.holding (s : State) (bi : Nat) : Bool :=
  let b := s.block bi
  let g := s.gang b.gang
  b.saved.isNone && (b.alive || (b.phase == .done && !g.released && g.blocks.any (fun m => (s.block m).alive)))

/-- A wave by number stands still in hard. -/
def State.suspends (s : State) (wi : Nat) : Bool := match s.waves[wi]? with | some w => w.suspended | none => false

/-- A soft error recovered from in block `bi`: flushed where it may be, else the block is hard-stopped, its multiplies done, `mark` marks the damage and the
block is resumed, its event latches set; a block that a pre-emption has stopped already keeps the mark for its image. -/
def State.recover (s : State) (bi : Nat) (mark : State → State) : State :=
  let b := s.block bi
  let s := s.updPart (s.ctx b.ctx).part (fun p => { p with softErrors := p.softErrors + 1 })
  if !s.holding bi then s
  else if s.restartable bi then s.flush bi
  else if b.waves.any s.suspends then mark (s.finishOps bi)
  else
    let s := (b.waves.foldl (fun s i => s.cutWave i) s).finishOps bi
    let s := b.waves.foldl (fun s i => s.updWave i (fun w => { w with suspended := false })) s
    (mark s).latchBlock bi

/-- The recovery of a block on its core can go on now: it needs no stop, being flushed or stopped already, or no access of the block's waves awaits its answer,
so that the stop of R294 can be formed (log entry 142). -/
def State.stoppable (s : State) (bi : Nat) : Bool :=
  let b := s.block bi
  b.saved.isNone && (s.restartable bi || b.waves.any s.suspends
    || b.waves.all (fun i => match s.waves[i]? with | some w => w.ask.isNone | none => true))

/-- The value of every element of a damaged set. -/
def damagedElem (g : Grant) : Nat := if g.fmt = 8 then 0x80000000 else 0x7FC00000

/-- Every element of a set damaged. -/
def State.damageSet (s : State) (core set : Nat) (g : Grant) : State :=
  let n := if isE core then 16 else 64
  (List.range (n * n)).foldl (fun s i => s.setAcc core set (i / n) (i % n) (damagedElem g)) s

/-- The block whose storage a place is, and how the damage is marked, none where nothing is there (R291). -/
def State.softSite (s : State) : SoftSite → Option (Nat × (State → State))
  | .scalar wi n => match s.waves[wi]? with
    | some w => some (w.block, fun s => s.updWave wi (fun w => if n = 0 then w else { w with sPois := setBit32 w.sPois n.toNat true }))
    | none => none
  | .vector wi n => match s.waves[wi]? with
    | some w => some (w.block, fun s => s.updWave wi (fun w => { w with vPois := setBit32 w.vPois n.toNat true }))
    | none => none
  | .slot core n => match (s.core core).slot? n with
    | some x => if x.st = 0 then none else some (x.owner, fun s => s.updSlot core n (fun y => { y with st := 3 }))
    | none => none
  | .accumulator bi n => match (s.block bi).set? n with
    | some set =>
      let b := s.block bi
      some (bi, fun s => (s.damageSet b.core set b.grant).updBlock bi (fun b => { b with dmg := b.dmg ||| BitVec.ofNat 4 (2 ^ n) }))
    | none => none
  | .scratch bi off =>
    let b := s.block bi
    if off < b.scratch then some (bi, fun s => s.poison (memKey .scratch b.core (b.scratchBase + off))) else none
  | .corrected _ => none

/-- The partition in whose core an error was corrected. -/
def State.correctedPart (s : State) : SoftSite → Option Nat
  | .corrected core => (s.cluster (core / 4)).part
  | _ => none

/-- SOFT_ERROR: an uncorrectable one in a place of core state, or one that was corrected, which only the telemetry of the core's partition shows
(R291, spec/18 R372). -/
def execSoftError (site : SoftSite) (s : State) : Out State :=
  match s.correctedPart site with
  | some p => ok (s.updPart p (fun p => { p with corrected := p.corrected + 1 }))
  | none => match s.softSite site with
  | none => idle s
  | some (bi, mark) => if s.stoppable bi then ok (s.recover bi mark) else idle s

/-! ### Saving (R294 to R297) -/

/-- The blocks of a context that have not ended. -/
def State.aliveOf (s : State) (ci : Nat) : List Nat :=
  (s.blocks.zipIdx.filter (fun x => x.1.ctx == ci && x.1.alive)).map (·.2)

/-- The infills of a context's jobs that are in flight are discarded; they are made again from their start (spec/17 R347). -/
def State.dropInfills (s : State) (ci : Nat) : State :=
  let still (x : Skipped) : Skipped := { x with rd := none, wr := none, placed := none }
  { s with jobs := s.jobs.map (fun (j : Job) => if (s.queue j.queue).ctx == ci then
      { j with skipped := j.skipped.map still, mapDue := j.mapDue.map still } else j) }

/-- HARD_ENTRY (R294): restartable blocks are flushed, every other is stopped, and infills in flight are discarded. -/
def State.hardEntry (s : State) (ci : Nat) : State :=
  let s := (s.updCtx ci (fun c => { c with st := .hard, since := s.time.toNat })).dropInfills ci
  (s.aliveOf ci).foldl (fun (s : State) bi =>
    if !(s.block bi).alive then s
    else if s.restartable bi then s.flush bi
    else (s.block bi).waves.foldl (fun s i => s.cutWave i) s) s

/-- PREEMPT_REQUEST (R292): soft, or hard where the request names it; the tier and deadlines of an earlier request stand. -/
def execPreemptRequest (ci : Nat) (hard : Bool) (s : State) : Out State :=
  match s.ctxs[ci]? with
  | none => idle s
  | some c =>
    if !c.opened || c.st != .running then idle s
    else if hard then ok (s.hardEntry ci)
    else ok ((s.updCtx ci (fun c => { c with st := .soft, since := s.time.toNat })).softDone ci)

/-- SOFT_DEADLINE_EXPIRY (R293). -/
def execSoftDeadlineExpiry (ci : Nat) (s : State) : Out State :=
  let c := s.ctx ci
  if c.st == .soft && decide (c.since + 1000 * c.soft ≤ s.time.toNat) then ok (s.hardEntry ci) else idle s

/-- The bytes copy `n`, cancelled, leaves at its destination here, a slot or memory, are unpredictable until it is reissued (R295): free bytes. -/
def State.scramble (s : State) (n : Nat) (c : Copy) : State :=
  ((s.dstPlaces c).zipIdx.foldl (fun (s : State) x => match x.1 with
    | .at key => (s.spoil key 1).writeBytes key [Config.freeByte (s.tick + 2 ^ 66 * (n + 1) + x.2)]
    | _ => s) s)

/-- COPY_GRACE_EXPIRY (R295): 10 µs after hard entry what has not completed is cancelled and listed for replay, without key material (R296). -/
def execCopyGraceExpiry (ci : Nat) (s : State) : Out State :=
  let c := s.ctx ci
  if c.st == .hard && decide (c.since + 10000 ≤ s.time.toNat) then
    let l := (s.copies.zipIdx.filter (fun x => x.1.ctx == ci && x.1.block.isSome && !x.1.finished && !x.1.cancelled)).map (·.2)
    if l.isEmpty then idle s
    else
      let s := l.foldl (fun (s : State) n => match s.copies[n]? with
        | some x => (s.scramble n x).updCopy n (fun x => { x with cancelled := true, fault := none, rd := none, wr := none, placed := none, key := none })
        | none => s) s
      ok (s.updCtx ci (fun c => { c with replay := c.replay ++ l }))
  else idle s

/-- The elements of a physical set moved to another place. -/
def State.moveSet (s : State) (core set core' set' : Nat) : State :=
  let mine := s.accs.filter (fun e => e.1 / 4096 == core * 4 + set)
  let s := (s.zeroSet core set).zeroSet core' set'
  { s with accs := mine.foldl (fun l e => assocSet 0#32 l ((core' * 4 + set') * 4096 + e.1 % 4096) e.2) s.accs }

/-- The sets of block `bi` as they stand in its image. -/
def imageCore (bi : Nat) : Nat := 1024 + bi
/-- The key of slot `n` in the image of a block. -/
def imageSlot (bi n : Nat) : Nat := memKey .image bi (2 ^ 24 * (n + 1))

/-- The grant lies within the E-core maxima for its format, or there is none (R299). -/
def Grant.fitsE (g : Grant) : Bool :=
  let (r, d, sd) := tileMax true g.fmt
  !g.exists? || (decide (g.rows ≤ r) && decide (g.cols ≤ r) && decide (g.depth ≤ (if g.sparse = 0 then d else sd)))

/-- The conditions under which a block may move onto an E-core (R299). -/
def State.movesToE (s : State) (bi : Nat) (slots : List (Nat × Slot)) : Bool :=
  let b := s.block bi
  b.live == 0 && b.dmg == 0 && decide (((s.obj b.obj).kernel b.kernel).waves ≤ 4) && decide (b.scratch ≤ 196608)
    && b.grant.fitsE && slots.all (fun x => decide (x.1 < 8))

/-- The blocks of a context that its image holds. -/
def State.heldOf (s : State) (ci : Nat) : List Nat :=
  (s.blocks.zipIdx.filter (fun x => x.1.ctx == ci && s.holding x.2)).map (·.2)

/-- A block saved (R296): the cuts that awaited an answer are formed, its scratchpad, slots and sets go to its image, and its core is free. -/
def State.saveBlock (s : State) (bi : Nat) : State :=
  let b := s.block bi
  if !s.holding bi then s
  else
    let s := b.waves.foldl (fun (s : State) i => if (match s.waves[i]? with | some w => w.ahead | none => false) then s.formCut i else s) s
    let c := s.core b.core
    let slots := (c.slots.zipIdx.filter (fun x => x.1.ownedBy bi)).map (fun x => (x.2, x.1))
    let base := memKey .scratch b.core b.scratchBase
    let inside (o : Nat) : Bool := decide (b.scratchBase ≤ o) && decide (o < b.scratchBase + b.scratch)
    let trigs := (c.triggers.filter (fun t => inside t.offset)).map (fun t => { t with offset := t.offset - b.scratchBase })
    let bars := (s.bars.filter (fun x => decide (base ≤ x.key) && decide (x.key < base + b.scratch))).map
      (fun x => { x with key := x.key - base })
    let onE := s.movesToE bi slots
    let s := s.dropAlloc b.core b.scratchBase b.scratch
    let s := s.moveBytes base (memKey .image bi 0) b.scratch
    let s := slots.foldl (fun s x => s.moveBytes (slotKey b.core x.1) (imageSlot bi x.1) slotBytes) s
    let s := b.sets.zipIdx.foldl (fun s x => s.moveSet b.core x.1 (imageCore bi) x.2) s
    let s := s.updCore b.core (fun c => { c with slots := c.slots.map (fun x => if x.ownedBy bi then .free else x) })
    (s.updBlock bi (fun b => { b with saved := some ⟨slots, trigs, bars⟩, pinM := !onE })).holdPin b.core

/-- A read that a wave sent for its instruction has no answer. -/
def State.lookOut (s : State) (w : Wave) : Bool :=
  match w.look with
  | some (q, _) => match s.fabric.out[q]? with
    | some r => r.answer.isNone
    | none => false
  | none => false

/-- The image of a context in hard is complete: no multiply, copy, begun take or remote access of it is under way (R294, spec/06 R175). -/
def State.imageReady (s : State) (ci : Nat) : Bool :=
  (s.heldOf ci).all (fun bi =>
    let b := s.block bi
    s.copies.all (fun c => c.block != some bi || c.finished || c.cancelled)
      && (s.core b.core).ops.all (fun o => o.block != bi)
      && b.waves.all (fun i => match s.waves[i]? with
        | some w => w.ask.isNone && w.streams.all (fun t => t.ask.isNone) && !s.lookOut w
        | none => true))

/-! ### Resuming (R292, R298, R299) -/

/-- A place for a block in an image: its class, its resources and slot numbers, and no block of another context there. -/
def State.mayResume (s : State) (bi core : Nat) : Bool :=
  let b := s.block bi
  let k := (s.obj b.obj).kernel b.kernel
  let waves := if b.alive then s.nativeWaves b else 0
  match b.saved with
  | none => false
  | some im =>
    (s.core core).inService && s.pinAllows b.queue core && (!isE core || !b.pinM || isE b.core)
      && (s.blocksOn core).all (fun x => x.1.ctx == b.ctx)
      && (match b.job.bind s.job? with | some j => (s.jobClusters j).contains (clusterOf core) | none => true)
      && decide (s.slotsUsed core + waves ≤ coreSlots core) && (s.scratchFor core b.scratch).isSome
      && decide (b.sets.length ≤ (s.freeSets core).length) && (k.eligible core || isE b.core)
      && im.slots.all (fun x => match (s.core core).slot? x.1 with | some y => y.st == 0 | none => false)

/-- The elements of a set at or beyond (16, 16) lost (R299). -/
def State.shrinkSet (s : State) (core set : Nat) : State :=
  { s with accs := s.accs.filter (fun e => !(e.1 / 4096 == core * 4 + set) || (decide (e.1 / 64 % 64 < 16) && decide (e.1 % 64 < 16))) }

/-- A saved block back on a core (R298, R299): CLASS_CHANGE where the class differs. -/
def State.restoreBlock (s : State) (bi core : Nat) : State :=
  let b := s.block bi
  match b.saved with
  | none => s
  | some im =>
    let base := (s.scratchFor core b.scratch).getD 0
    let sets := (s.freeSets core).take b.sets.length
    let change := isE core != isE b.core
    let s := s.moveBytes (memKey .image bi 0) (memKey .scratch core base) b.scratch
    let s := im.slots.foldl (fun s x => (s.moveBytes (imageSlot bi x.1) (slotKey core x.1) slotBytes).updSlot core x.1 (fun _ => x.2)) s
    let s := sets.zipIdx.foldl (fun s x =>
      let s := s.moveSet (imageCore bi) x.2 core x.1
      if isE core then s.shrinkSet core x.1 else s) s
    let s := s.updCore core (fun c => { c with
      triggers := c.triggers ++ im.triggers.map (fun t => { t with core := core, offset := base + t.offset }) })
    let s := { s with
      bars := s.bars ++ im.bars.map (fun (x : BarSide) => { x with key := memKey .scratch core base + x.key })
      copies := s.copies.map (fun (c : Copy) => if c.block == some bi && !c.finished then { c with core := core } else c) }
    let s := s.updCluster (clusterOf core) (fun c => { c with gated := false })
    let s := s.updGang b.gang (fun g => { g with cluster := clusterOf core })
    let s := s.updBlock bi (fun x => { x with
      core := core
      scratchBase := base
      sets := sets
      classchg := if change then (if isE b.core then 3 else 1) else x.classchg
      saved := none })
    (b.waves.foldl (fun s i => s.updWave i (fun w => { w with suspended := false, latch := true })) s).holdPin core

/-- A core is free for blocks of a context (R298): no resident block, no unlaunched point of another. -/
def State.freeTo (s : State) (ci core : Nat) : Bool :=
  (s.blocksOn core).isEmpty && (s.core core).chunk.all (fun x => match s.job? x.1 with | some j => (s.queue j.queue).ctx == ci | none => true)

/-- The requested places form a legal resumption (R298): free cores; every member of a gang is placed, on distinct cores of one cluster. -/
def State.placesOk (s : State) (ci : Nat) (place : List (Nat × Nat)) : Bool :=
  place.all (fun x => s.freeTo ci x.2) && place.all (fun x =>
    let b := s.block x.1
    let mates := (s.gang b.gang).blocks.filter (fun m => (s.block m).saved.isSome)
    b.ctx == ci && b.saved.isSome
      && mates.all (fun m => match place.find? (fun y => y.1 == m) with
        | some y => clusterOf y.2 == clusterOf x.2 && (m == x.1 || y.2 != x.2) && (!isE y.2 || !(s.block m).pinM || isE (s.block m).core)
        | none => false))
    && (place.map (·.1)).Nodup

/-- Blocks restored one after another, none where a place does not hold its block. -/
def State.restoreAll (s : State) : List (Nat × Nat) → Option State
  | [] => some s
  | (bi, core) :: r => if s.mayResume bi core then (s.restoreBlock bi core).restoreAll r else none

/-- The completion a copy names lies in its block's windows (spec/12 R257). -/
def State.targetOk (s : State) (b : Block) : CopyTarget → Bool
  | .barrier a => (List.range 16).all (fun i => (s.localByte b (a + word i)).isSome)
  | .signal a _ => (List.range 8).all (fun i => (s.localByte b (a + word i)).isSome)
  | .packet _ _ => true

/-- The checks of a reissued copy that do not depend on the wave's registers (R295). -/
def State.reissueOk (s : State) (c : Copy) : Bool :=
  let b := s.copyBlock c
  (s.copyTraps b c 1).isNone && s.targetOk b c.target
    && (match c.dst, c.block with
      | .slot n, some bi => ((s.core b.core).fillTrap bi n).isNone
      | _, _ => true)
    && (match c.src with
      | .sealed _ _ _ n model => (s.boundKey n (s.ctx c.ctx).part (s.obj b.obj).measure model).isSome
      | _ => true)

/-- COPY_REPLAY (R295): the cancelled copies of resumed blocks are reissued in list order, from their start. -/
def State.reissue (s : State) (ci : Nat) : State :=
  let due := (s.ctx ci).replay.filter (fun n => match s.copies[n]? with
    | some c => (match c.block with | some bi => (s.block bi).saved.isNone | none => true)
    | none => true)
  let s := due.foldl (fun (s : State) n => match s.copies[n]? with
    | none => s
    | some c =>
      let good := s.reissueOk c
      let key := match c.src with
        | .sealed _ _ _ k model => s.boundKey k (s.ctx c.ctx).part (s.obj (s.copyBlock c).obj).measure model
        | _ => none
      s.updCopy n (fun c => { c with cancelled := false, reissueError := !good, key := key, declined := [] })) s
  s.updCtx ci (fun c => { c with replay := c.replay.filter (fun n => !due.contains n) })

/-- The first empty bin place for a saved bin: on the core it goes to, else on a core of the partition. -/
def State.binPlace (s : State) (ci core : Nat) : Option (Nat × Nat) :=
  let cands := core :: ((s.partD (s.ctx ci).part).clusters.flatMap (fun c => (List.range 4).map (fun i => 4 * c + i)))
  cands.findSome? (fun n => (findIdx (fun (x : Option Bin) => x.isNone) (s.core n).bins 0).map (fun i => (n, i)))

/-- A saved bin comes back to a core: launched, where its launch was held or its timer has expired meanwhile (spec/10 R225), else in a bin of the core; without an
empty bin it waits for one. -/
def State.binBack (s : State) (ci : Nat) (x : Nat × Bin) : State :=
  if x.2.held || s.binRipe x.2 then
    s.updCore x.1 (fun c => { c with launches := c.launches ++ [{ x.2 with held := true }] })
  else match s.binPlace ci x.1 with
    | some (n, i) => s.updCore n (fun c => { c with bins := updAt c.bins i (fun _ => some x.2) })
    | none => s.updCtx ci (fun c => { c with bins := c.bins ++ [x] })

/-- The bins that a context waits to put back. -/
def State.binsBack (s : State) (ci : Nat) : State :=
  let bins := (s.ctx ci).bins
  if bins.isEmpty || (s.ctx ci).st != .running then s
  else bins.foldl (fun s x => s.binBack ci x) (s.updCtx ci (fun c => { c with bins := [] }))

/-- The same for every context. -/
def State.rebin (s : State) : State :=
  if s.ctxs.any (fun c => !c.bins.isEmpty) then (List.range s.ctxs.length).foldl (fun s ci => s.binsBack ci) s else s

/-- Unlaunched points come back to a core of the partition, else to their job. -/
def State.pointsBack (s : State) (part core : Nat) (x : Nat × Nat × Nat) : State :=
  if (s.cluster (clusterOf core)).part = some part then s.updCore core (fun c => { c with chunk := c.chunk ++ [x] })
  else s.updJob x.1 (fun j => { j with returned := sortPts (x.2 :: j.returned) })

/-- Where what a core held goes when blocks move: with the first block that stood there, else nowhere else. -/
def movedCore (moves : List (Nat × Nat)) (core : Nat) : Nat :=
  match moves.find? (fun m => m.1 == core) with
  | some m => m.2
  | none => core

/-- The bins of every core whose timers have run out, launched or held (spec/10 R225). -/
def State.ripenAll (s : State) : State := (List.range s.cores.length).foldl (fun s core => s.ripen core) s

/-- The front end of a context runs again: its bins and unlaunched points come back, with the blocks that moved from one core to another (log entry 141), and
held launches are made (spec/10 R225). -/
def State.resumeFront (s : State) (ci : Nat) (moves : List (Nat × Nat)) : State :=
  let s := s.ripenAll
  let c := s.ctx ci
  let s := s.updCtx ci (fun c => { c with
    st := .running
    bins := c.bins.map (fun x => (movedCore moves x.1, x.2))
    points := []
    resume := none })
  let s := (c.points.foldl (fun (s : State) x => s.pointsBack c.part (movedCore moves x.1) x.2) s).binsBack ci
  { s with cores := s.cores.map (fun (c : CoreSt) =>
      let held := (c.bins.filterMap id).filter (fun (b : Bin) => b.held && (s.block b.block).ctx == ci)
      { c with
        bins := c.bins.map (fun (o : Option Bin) => match o with
          | some b => if b.held && (s.block b.block).ctx == ci then none else some b
          | none => none)
        launches := c.launches ++ held }) }

/-- A resumption of a context that is saved or runs again, its blocks at the given places: none where a place is not legal. -/
def State.resumeAt (s : State) (ci : Nat) (place : List (Nat × Nat)) : Option State :=
  if s.placesOk ci place then
    match s.restoreAll place with
    | none => none
    | some s' => some ((if (s'.ctx ci).st == .running then s' else s'.resumeFront ci (place.map (fun x => ((s.block x.1).core, x.2)))).reissue ci)
  else none

/-- RESUME_REQUEST (R292): by the context's state. -/
def execResumeRequest (ci : Nat) (place : List (Nat × Nat)) (s : State) : Out State :=
  match s.ctxs[ci]? with
  | none => idle s
  | some c => match c.st with
    | .soft => ok (s.resumeFront ci [])
    | .hard => ok (s.updCtx ci (fun c => { c with resume := some place }))
    | .saved => match s.resumeAt ci place with
      | some s' => ok s'
      | none => idle s
    | .running => if place.isEmpty then idle s else match s.resumeAt ci place with
      | some s' => ok s'
      | none => idle s
    | .reset => idle s

/-- IMAGE_COMPLETE (R294, R296): the context is saved, and a held resume request takes effect at once. -/
def execImageComplete (ci : Nat) (s : State) : Out State :=
  let c := s.ctx ci
  if c.st == .hard && s.imageReady ci then
    let s := (s.heldOf ci).foldl (fun s bi => s.saveBlock bi) s
    let s := s.saveFront ci
    match c.resume with
    | none => ok s
    | some place => match s.resumeAt ci place with
      | some s' => ok s'
      | none => ok (s.resumeFront ci [])
  else idle s

/-- Every block, bin, trigger and unlaunched point of a context gone, its leases ended, its multiplies dropped and its core state zeroed, that of an ended member of
a gang whose scratchpad is not released with it (R297). -/
def State.discardCtx (s : State) (ci : Nat) : State :=
  let s := s.endLease ci
  let mineOp (o : MmaOp) : Bool := (s.block o.block).ctx == ci
  let s := { s with cores := s.cores.map (fun (c : CoreSt) => { c with run := c.run.filter (fun o => !mineOp o) }) }
  let s := (s.blocks.zipIdx.filter (fun x => x.1.ctx == ci && (x.1.alive || (x.1.phase == .done && !(s.gang x.1.gang).released)))).foldl (fun (s : State) (x : Block × Nat) =>
    let bi := x.2
    let b := s.block bi
    let s := if b.saved.isNone then
        let s := (s.core b.core).slots.zipIdx.foldl (fun (s : State) x =>
          if x.1.ownedBy bi then s.clearBytes (slotKey b.core x.2) slotBytes else s) s
        let s := b.sets.foldl (fun s n => s.zeroSet b.core n) s
        s.clearBytes (memKey .scratch b.core b.scratchBase) b.scratch
      else s
    if b.alive then s.discardBlock bi else s.discardEnded bi) s
  let mine (bi : Nat) : Bool := (s.block bi).ctx == ci
  let ofJob (ji : Nat) : Bool := match s.job? ji with | some j => (s.queue j.queue).ctx == ci | none => false
  let s := { s with
    gangs := s.gangs.map (fun (g : Gang) => if g.blocks.any mine then { g with released := true } else g)
    copies := s.copies.map (fun (c : Copy) => if c.ctx == ci && !c.finished then { c with cancelled := true, finished := c.block.isSome } else c)
    cores := s.cores.map (fun (c : CoreSt) => { c with
      bins := c.bins.map (fun (o : Option Bin) => match o with | some b => if mine b.block then none else some b | none => none)
      launches := c.launches.filter (fun (b : Bin) => !mine b.block)
      triggers := c.triggers.filter (fun (t : Trigger) => !mine t.block)
      chunk := c.chunk.filter (fun x => !ofJob x.1) })
    queues := s.queues.map (fun (q : Queue) => if q.ctx == ci then { q with line := [], reserved := none, aged := false } else q) }
  s.updCtx ci (fun c => { c with replay := [], resume := none, bins := [], points := [], asks := [] })

/-- A queue fault on every queue of a context. -/
def State.faultAll (s : State) (ci code : Nat) (value : Word) (closed : Bool) : State :=
  (List.range s.queues.length).foldl (fun (s : State) q =>
    if (s.queue q).ctx = ci && (s.queue q).mode != .closed then s.queueFault q code 0 0 0 value 0 closed else s) s

/-- HARD_LIMIT_EXPIRY (R292, R297): 2 ms in hard without a complete image; the context is reset. -/
def execHardLimitExpiry (ci : Nat) (s : State) : Out State :=
  let c := s.ctx ci
  if c.st == .hard && decide (c.since + 2000000 ≤ s.time.toNat) then
    ok (((s.discardCtx ci).faultAll ci 6 0 false).updCtx ci (fun c => { c with st := .reset }))
  else idle s

end Sys2Proof.Machine
end

