-- ==== Sys2Proof/Machine/Power.lean ====
section
/-! DEFINITION. Leases, energy accounts, clocks, caps and the issue allowance: spec/19 R380 to R390, spec/10 R222 to R224, with their steps
of spec/95. -/

namespace Sys2Proof.Machine

/-! ### Leases (R384 to R388) -/

/-- The sprint share of a level for a partition of `k` clusters, in units of W ÷ 128. -/
def sprintShare (level k : Nat) : Nat := 400 * level * k

/-- What a share reserves over a duration in µs, in nanojoules; the division is exact. -/
def reservation (share us : Nat) : Nat := share * us * 1000 / 128

/-- The µs a capacity of `num` ÷ `den` nanojoules gives a share. -/
def affordable (num den share : Nat) : Nat := num * 128 / (den * 1000 * share)

/-- The reservations of the leases held by other contexts, in nanojoules. -/
def State.reserved (s : State) (ci : Nat) : Nat :=
  s.ctxs.zipIdx.foldl (fun n x => if x.2 = ci then n else match s.leaseHeld x.1 with
    | some l => n + reservation l.share l.granted
    | none => n) 0

/-- The evaluation of R385: a grant in µs, or a reason; a capacity below 0 grants nothing (log entry 166). -/
def State.evalLease (s : State) (ci : Nat) (a : LeaseAsk) : Except Nat Nat :=
  let c := s.ctx ci
  let p := s.partD c.part
  let share := sprintShare a.level p.clusters.length
  if (s.leaseHeld c).isSome then .error 5
  else if a.us = 0 then .error 1
  else if s.melt.toNat ≥ 58982 then .error 2
  else if s.rfz then .error 3
  else
    let room := (58982 - s.melt.toNat) * 50000 * 10 ^ 9 - s.reserved ci * 65535
    let g := min (min a.us 60000000) (min (affordable room 65535 share) (affordable p.allotLeft 1 share))
    if g = 0 then .error 6 else if g < 1000 * a.minMs then .error 4 else .ok g

/-- LEASE (R385): the request goes to the controller, and s[d] is empty until it answers. -/
def execLease (d a : Reg) (mn : BitVec 10) (lv : BitVec 2) (s : State) : Out State :=
  s.scalar [(a, 0)] [d] (fun wi _ w _ =>
    let ci := (s.block w.block).ctx
    .done ((s.updCtx ci (fun c => { c with asks := c.asks ++ [⟨wi, d, (w.rd a).toNat, lv.toNat, mn.toNat⟩] })).updWave wi (fun w =>
      { w with sFull := if d = 0 then w.sFull else setBit32 w.sFull d.toNat false, leaseDst := some d })))

/-- A lease ends as by expiry (R387): budget and clocks first, then the trap is pending at the leaseholder. -/
def State.expireLease (s : State) (ci : Nat) : State :=
  match (s.ctx ci).lease with
  | none => s
  | some l =>
    let used := min l.granted ((s.time.toNat - l.start) / 1000)
    (s.endLease ci).updWave l.holder (fun w => if w.ended then w else { w with lease := some (w.lease.getD (word used)) })

/-- The lease of a context has no time left (R387). -/
def State.leaseDue (s : State) (ci : Nat) : Bool :=
  match (s.ctx ci).lease with
  | none => false
  | some l => decide (l.start + 1000 * l.granted ≤ s.time.toNat)

/-- Every lease whose time has run out ends, its trap pending (R387). -/
def State.expireDue (s : State) : State :=
  (List.range s.ctxs.length).foldl (fun s ci => if s.leaseDue ci then s.expireLease ci else s) s

/-- LEASE_DECISION of a context (R385): its oldest request is answered, leases that have run out having ended (R387); a grant holds the lease for the context,
whose wave receives the answer unless it has ended meanwhile. One whose block has ended obtains nothing (R387). -/
def execLeaseDecision (ci : Nat) (s : State) : Out State :=
  match (s.ctx ci).asks with
  | [] => idle s
  | a :: rest =>
    let s := s.expireDue
    let c := s.ctx ci
    let r := s.evalLease ci a
    let s := s.updCtx ci (fun c => { c with asks := rest })
    if (match s.waves[a.wave]? with | some w => !(s.block w.block).alive | none => true) then ok s
    else
    let s := match r with
      | .error n => s.updCtx ci (fun c => { c with reason := n })
      | .ok g =>
        let share := sprintShare a.level (s.partD c.part).clusters.length
        (s.updCtx ci (fun c => { c with lease := some ⟨a.level, g, s.time.toNat, a.wave, share⟩ })).updPart c.part
          (fun p => { p with allotLeft := p.allotLeft - reservation share g })
    match s.waves[a.wave]? with
    | none => ok s
    | some w =>
      if w.ended then ok s
      else
        let left := (rest.filter (fun x => x.wave == a.wave)).map (·.d)
        ok ((s.makeWrite a.wave w (.scalar a.d (word (match r with | .ok g => g | .error _ => 0)) false) false).updWave a.wave (fun w =>
          { w with leaseDst := left.head? }))

/-- The lease word (Table 19.2). -/
def State.leaseWord (s : State) (ci : Nat) : Word :=
  let c := s.ctx ci
  word (b2n (s.leaseHeld c).isSome * 2 ^ 63 + (match s.leaseHeld c with | some l => l.level | none => 0) * 2 ^ 61 + b2n s.rfz * 2 ^ 60
    + c.reason * 2 ^ 56 + min ((s.partD c.part).allotLeft / 1000000) (2 ^ 24 - 1) * 2 ^ 32 + s.leaseRem c)

/-- LQRY (R386): it reflects every older LEASE of the context, so it waits for their answers. -/
def execLqry (d : Reg) (s : State) : Out State :=
  s.scalar [] [d] (fun wi _ w _ =>
    let ci := (s.block w.block).ctx
    if (s.ctx ci).asks.isEmpty then .done (s.setReg wi d (s.leaseWord ci)) else .stall)

/-- LEASE_EXPIRY of a context (R387): its remaining time has reached 0. -/
def execLeaseExpiry (ci : Nat) (s : State) : Out State := if s.leaseDue ci then ok (s.expireLease ci) else idle s

/-- LREL (R386): a lease that is due expires first (R387). -/
def execLrel (s : State) : Out State :=
  s.scalar [] [] (fun _ _ w _ =>
    let ci := (s.block w.block).ctx
    .done (if s.leaseDue ci then s.expireLease ci else s.endLease ci))

/-! ### The heat store and energy (R382, R383, R389, R390) -/

/-- MELTF_UPDATE: the estimate is published; REFREEZE_START ends every held lease, REFREEZE_END restores the allotments. -/
def execMeltfUpdate (melt : BitVec 16) (s : State) : Out State :=
  let s := { s with melt := melt }
  if !s.rfz && decide (58982 ≤ melt.toNat) then
    ok ((List.range s.ctxs.length).foldl (fun s c => s.expireLease c) { s with rfz := true })
  else if s.rfz && decide (melt.toNat ≤ 13107) then
    ok { s with
      rfz := false
      parts := s.parts.map (fun p => { p with allotLeft := p.allot * 1000000 }) }
  else ok s

/-- The energy-quota trap pending in every wave of a context over its quota; one that pends is not counted twice (R390, spec/07 R182). -/
def State.postQuota (s : State) (ci : Nat) : State :=
  let c := s.ctx ci
  if c.equota ≠ 0 && decide (c.equota ≤ c.energy / 1000) then
    let v := word (c.energy / 1000 - c.equota)
    { s with waves := s.waves.map (fun (w : Wave) =>
        if (s.block w.block).ctx == ci && (s.block w.block).alive && !w.ended then { w with quota := some (w.quota.getD v) } else w) }
  else s

/-- The part of a cluster's energy that falls to a context, by its wave-slot cycles among those of all, whole µJ (R389; log entry 139). -/
def energyShare (slots : List (Nat × Nat)) (energy ctx : Nat) : Nat :=
  let mine := ((slots.filter (fun x => x.1 == ctx)).map (·.2)).sum
  energy * mine / (slots.map (·.2)).sum

/-- The energy of a cluster divided among the contexts that were resident on it; with none, it is charged to none (R389). -/
def State.chargeCluster (s : State) (cl energy : Nat) : State :=
  let slots := (s.cluster cl).slots
  { s with ctxs := s.ctxs.zipIdx.map (fun x =>
      let e := energyShare slots energy x.2
      if e = 0 then x.1 else { x.1 with energy := x.1.energy + e, shares := (cl, e) :: x.1.shares }) }

/-- ENERGY_INTERVAL_END (R389, R390): the measured energies are divided and charged, a new interval begins, and the quotas are looked at. -/
def execEnergyIntervalEnd (energies : List (Nat × Nat)) (s : State) : Out State :=
  let s := { s with ctxs := s.ctxs.map (fun (c : Ctx) => { c with shares := [] }) }
  let s := energies.foldl (fun (s : State) x => s.chargeCluster x.1 x.2) s
  let s := { s with clusters := s.clusters.map (fun (c : ClusterSt) => { c with slots := [] }) }
  ok ((List.range s.ctxs.length).foldl (fun s c => s.postQuota c) s)

/-- EQUOTA_SET. -/
def execEquotaSet (ci : Nat) (quota : Word) (s : State) : Out State :=
  match s.ctxs[ci]? with
  | none => idle s
  | some _ => ok (s.updCtx ci (fun c => { c with equota := quota.toNat }))

/-- CLOCK_CHANGE of a cluster (R381): from 1,050 to 1,400 MHz while a context of its partition holds a lease, else 1,050. -/
def execClockChange (cl mhz : Nat) (s : State) : Out State :=
  let c := s.cluster cl
  let leased := match c.part with
    | some p => s.ctxs.any (fun x => x.part == p && (s.leaseHeld x).isSome)
    | none => false
  if c.gated || mhz < 1050 || 1400 < mhz || (!leased && mhz ≠ 1050) then idle s
  else ok (s.updCluster cl (fun c => { c with mhz := mhz }))

/-! ### Caps (spec/10 R224) -/

/-- CAP_LOWER of a cluster: after 64 intervals in a row with withholding, each cap falls one step, and the count starts again (the model's choice: log entry 120). -/
def execCapLower (cl : Nat) (s : State) : Out State :=
  if (s.cluster cl).withheld < 64 then idle s
  else
    let s := s.updCluster cl (fun c => { c with withheld := 0 })
    ok ((List.range 4).foldl (fun (s : State) i => if (s.pinOn (4 * cl + i)).isSome then s else s.updCore (4 * cl + i) (fun c => { c with
      vlcap := max 8 (c.vlcap - 8)
      power := max 8 (c.power / 2) })) s)

/-- CAP_RAISE of a cluster: after 1 ms without withholding, each cap rises one step. -/
def execCapRaise (cl : Nat) (s : State) : Out State :=
  if s.time.toNat < (s.cluster cl).quiet + 1000000 then idle s
  else
    let s := s.updCluster cl (fun c => { c with quiet := s.time.toNat })
    ok ((List.range 4).foldl (fun (s : State) i => if (s.pinOn (4 * cl + i)).isSome then s else s.updCore (4 * cl + i) (fun c => { c with
      vlcap := min 64 (c.vlcap + 8)
      power := min 64 (c.power * 2) })) s)

/-! ### The allowance (spec/10 R223, R381) -/

/-- The credit of a cluster per cycle, in units of 1 pJ, a whole number of them (log entry 119). -/
def State.credit (s : State) (cl : Nat) : Nat :=
  let c := s.cluster cl
  match c.part with
  | none => 0
  | some p =>
    let ks := (s.partD p).clusters
    let live := (ks.filter (fun k => !(s.cluster k).gated)).length
    let share := s.ctxs.foldl (fun n x => if x.part = p then match s.leaseHeld x with | some l => n + l.share | none => n else n) 0
    (2800 * ks.length + share) * 1000000 / (128 * live * c.mhz)

/-- The weight of an instruction that queued the multiply `m`, or started a copy of `bytes`, or whose beats raised the lane-cycle counters by `lanes` (Table
10.6); a part of 1,024 MAC or of 64 bytes counts whole (log entry 119). -/
def issueWeight (e mem : Bool) (lanes bytes : Nat) (m : Option MmaOp) : Nat :=
  let beats := lanes / 64
  match m with
  | some o =>
    let macs := o.grant.rows * o.grant.cols * o.grant.depth
    let macs := if o.grant.sparse = 0 then macs else macs * sparseN o.grant.sparse / 48
    (macs + 1023) / 1024 * (if matBytes o.grant.fmt = 2 then 160 else 100)
  | none =>
    if bytes ≠ 0 then (bytes + 63) / 64 * 40
    else if beats = 0 then 2
    else beats * (if mem then (if e then 50 else 200) else (if e then 30 else 120))

/-- The wave of a number has a SETTILE that waits. -/
def State.tiling (s : State) (wi : Nat) : Bool := match s.waves[wi]? with | some w => w.tile.isSome | none => false

/-- The debit of the instruction that core `core` issued between two states, for wave `wi`: none where it waited and did not issue. A SETTILE that waits to
be applied has issued (spec/11 R233) and is not debited again. -/
def State.debit (s s' : State) (core wi : Nat) (mem : Bool) : State :=
  let begun := !s.tiling wi && s'.tiling wi
  let ended := s.tiling wi && !s'.tiling wi
  if (s'.now == s.now && !begun) || ended then s'
  else
  let lanes (x : State) : Nat := match x.waves[wi]? with
    | some w => (x.vfile w.vfile).lc.toList.foldl (fun n v => n + v.toNat) 0
    | none => 0
  let c := s.core core
  let c' := s'.core core
  let m := if c.qhi.length < c'.qhi.length then c'.qhi.getLast? else if c.qlo.length < c'.qlo.length then c'.qlo.getLast? else none
  let bytes := ((s'.copies.drop s.copies.length).map (fun x => x.rows * x.rowBytes)).sum
  s'.updCluster (clusterOf core) (fun k => { k with
    allowance := k.allowance - (issueWeight (isE core) mem (lanes s' - lanes s) bytes m : Nat) })

/-- The waves that hold a wave slot of a cluster, by their contexts. -/
def State.slotHolders (s : State) (cl : Nat) : List Nat :=
  (s.blocks.filter (fun b => b.resident && b.core / 4 == cl)).flatMap (fun b =>
    (b.waves.filterMap (fun i => s.waves[i]?)).filterMap (fun (w : Wave) => if w.half == 0 then some b.ctx else none))

/-- Wave-slot cycles added to an account. -/
def addSlots (cycles : Nat) (l : List (Nat × Nat)) (holders : List Nat) : List (Nat × Nat) :=
  if cycles = 0 then l else holders.foldl (fun l c => assocSet 0 l c (assocGet 0 l c + cycles)) l

/-- A cluster after `ns`, `cycles` of its clock, that began at `start`, withheld or not: its allowance is credited, the sampling intervals of 1 µs that ended are
counted (R224), its idle timer runs while it is not busy (spec/14 R300), and the wave slots in use are accounted (spec/19 R389). -/
def ClusterSt.pass (c : ClusterSt) (start ns cycles credit : Nat) (withheld busy : Bool) (holders : List Nat) : ClusterSt :=
  let ended := (start + ns) / 1000 - start / 1000
  let allowance := min (2 ^ 24) (c.allowance + (if c.gated then 0 else credit * cycles : Nat))
  let still := withheld && decide (allowance < 0)
  let first := if c.held || withheld then c.withheld + 1 else 0
  { c with
    frac := (c.frac + ns * c.mhz) % 1000
    allowance := allowance
    withheld := if ended = 0 then c.withheld else if ended = 1 then first else if still then first + (ended - 1) else 0
    held := if ended = 0 then c.held || withheld else still
    quiet := if still then start + ns else if withheld then start else c.quiet
    idle := if busy then start + ns else c.idle
    slots := addSlots cycles c.slots holders }

/-- Time passes: TIME by `ns`, CYCLE of every core at its cluster's clock, and every cluster's accounts; `withheld` says which cluster withholds now. -/
def State.pass (s : State) (ns : Nat) (withheld : Nat → Bool) : State :=
  let cyc (cl : Nat) : Nat := let c := s.cluster cl; (c.frac + ns * c.mhz) / 1000
  { s with
    time := s.time + word ns
    cores := s.cores.zipIdx.map (fun x => { x.1 with cycle := x.1.cycle + word (cyc (clusterOf x.2)) })
    clusters := s.clusters.zipIdx.map (fun x =>
      let holders := s.slotHolders x.2
      x.1.pass s.time.toNat ns (cyc x.2) (s.credit x.2) (withheld x.2)
        (!holders.isEmpty || (List.range 4).any (fun i => s.coreBusy (4 * x.2 + i))) holders) }

end Sys2Proof.Machine
end

