-- ==== Sys2Proof/Machine/Debug.lean ====
section
/-! DEFINITION. Which waves and splits may issue (spec/02 R52), the debugger (spec/21 R395 to R401, spec/07 R178, R191), async traps, parked faults
and the other events of a wave (spec/07 R182, R183, spec/02 R56, R63, spec/01 R22). -/

namespace Sys2Proof.Machine

/-! ### Readiness (spec/02 R52) -/

/-- A trace record that the core of a wave has written to another device is still to be performed there (spec/21 R400). -/
def State.traceOut (s : State) (w : Wave) : Bool :=
  s.fabric.out.any (fun r => r.answer.isNone && r.use == .trace (s.coreOf w))

/-- The issuing split of a wave, none where no split is ready, or where the one that is has waited in vain in this state; the D handler waits for the
trace records to be performed (spec/21 R400). -/
def State.issuing (s : State) (w : Wave) : Option Nat :=
  if w.lvl = 3 && s.traceOut w then none
  else (bestIdx (s.splitReady w) Split.before w.splits 0 none).filter (fun i => match w.splits[i]? with
    | some x => !(x.stalls && s.heldNow x)
    | none => false)

/-! ### Comparators (R395, R396) -/

/-- Comparator `n` of a core hits a wave about to issue at `pc`. -/
def State.hits (s : State) (w : Wave) (pc : Word) (n : Fin 8) : Bool :=
  let c := s.core (s.coreOf w)
  let ctl := c.dcCtl[n]
  ctl.getLsbD 0 && c.dcAddr[n] == pc && decide (w.lvl ≤ 2)
    && (ctl.getLsbD 19 || bits ctl.toNat 31 20 == (s.queue (s.block w.block).queue).num) && ctl.getLsbD (8 + w.index)

/-- ACTION of a comparator. -/
def State.action (s : State) (w : Wave) (n : Fin 8) : Nat := bits ((s.core (s.coreOf w)).dcCtl[n]).toNat 3 2

/-- The comparators that hit a split, unless it resumed from a halt or the D handler and has issued nothing since. -/
def State.hitting (s : State) (w : Wave) (sp : Split) : List (Fin 8) :=
  if sp.skipHit then [] else (List.finRange 8).filter (s.hits w sp.pc)

/-- Entry to the D handler by comparator `n` (R397). -/
def State.enterDebug (s : State) (wi si : Nat) (w : Wave) (sp : Split) (n : Nat) (entry : Word) : State :=
  let t : Trap := ⟨13, 0, word (0x100 + n)⟩
  let s := s.writeFrame wi w sp 3 sp.pc t
  let s := (s.updWave wi (fun w => w.enter si 3 entry)).stopMate w true
  s.traceRecord w 2 n sp.pc w.esr w.esv.toNat sp.mask.toNat 13

/-- A debug halt at split `si` (R398): the cut, the fills in flight discarded, then a record of type 3. -/
def State.haltWave (s : State) (wi si n : Nat) : State :=
  let s := s.drain wi
  match s.waves[wi]? with
  | none => s
  | some w => match w.splits[si]? with
    | none => s
    | some sp =>
      let s := s.updWave wi (fun w => { w with
        halted := true
        tile := none
        splits := (updAt w.splits si (fun x => { x with skipHit := true })).map (fun x => { x with due := none })
        streams := w.streams.map (fun t => if t.isRead && !t.full then { t with part := [], ask := none } else t) })
      s.traceRecord w 3 n sp.pc w.esr w.esv.toNat sp.mask.toNat 0

/-- COMPARATOR_HIT (R396): the records of ACTION 2 in comparator order, then the lowest with ACTION 0 or 1 decides; with no D handler armed
ACTION 0 halts. -/
def execComparatorHit (wi : Nat) (s : State) : Out State :=
  match s.waves[wi]? with
  | none => idle s
  | some w =>
    match (if s.running w then s.issuing w else none) with
    | none => idle s
    | some si => match w.splits[si]? with
      | none => idle s
      | some sp =>
        let l := s.hitting w sp
        if l.isEmpty || w.cutOpen then idle s
        else
          let s := (l.filter (fun n => s.action w n == 2)).foldl
            (fun s n => s.traceRecord w 1 n.val sp.pc w.esr w.esv.toNat sp.mask.toNat 0) s
          match l.find? (fun n => decide (s.action w n ≤ 1)) with
          | none => ok (s.updWave wi (fun w => { w with splits := updAt w.splits si (fun x => { x with skipHit := true }) }))
          | some n =>
            match (if s.action w n = 0 then s.debugEntry w else none) with
            | none => ok (s.haltWave wi si n.val)
            | some entry =>
              let s := s.drain wi
              match s.waves[wi]? with
              | none => idle s
              | some w => ok (s.enterDebug wi si w sp n.val entry)

/-! ### The debug port (R397, R398, R401, spec/07 R191) -/

/-- DEBUG_HALT_REQUEST: the wave stops at an instruction boundary, its older instructions complete. -/
def execDebugHaltRequest (wi : Nat) (s : State) : Out State :=
  match s.waves[wi]? with
  | none => idle s
  | some w =>
    if w.ended || w.halted || w.stopped.isSome || w.cutOpen then idle s
    else match w.cutSplit with
      | none => idle s
      | some si => ok (s.haltWave wi si 0xFF)

/-- The halt of a wave has been reported to the port: its records are performed (R400). -/
def State.haltSeen (s : State) (w : Wave) : Bool := w.halted && !s.traceOut w

/-- DEBUG_RESUME: the wave goes on from the cut, its event latch set. -/
def execDebugResume (wi : Nat) (s : State) : Out State :=
  match s.waves[wi]? with
  | none => idle s
  | some w => if s.haltSeen w then ok (s.updWave wi (fun w => { w with halted := false, latch := true })) else idle s

/-- The port reports how its write went. -/
def State.portDone (s : State) (bound : Bool) : State := { s with portBound := bound }

/-- DEBUG_PORT_WRITE of a halted wave: the register is full and not poisoned; a register of a bound stream group is refused (status "bound"). -/
def execDebugPortWrite (wi : Nat) (r : DebugReg) (s : State) : Out State :=
  match s.waves[wi]? with
  | none => idle s
  | some w =>
    if !s.haltSeen w then idle s
    else match r with
      | .s n v => ok ((s.portDone false).updWave wi (fun w => { w.wr n v with sFull := setBit32 w.sFull n.toNat true }))
      | .v n v =>
        if w.boundReg n.toNat then ok (s.portDone true)
        else ok (((s.portDone false).putRegs wi w n.toNat [v] [true] [false]).updWave wi (fun w => { w with vFull := setBit32 w.vFull n.toNat true }))
      | .k n v => ok ((s.portDone false).updWave wi (fun w => w.wrK n v))
      | .pc v => match w.cutSplit with
        | none => idle s
        | some si => ok ((s.portDone false).updWave wi (fun w =>
            { w with splits := updAt w.splits si (fun x => { x with pc := v &&& 0x01FFFFFFFFFFFFFC#64, fbuf := [] }) }))

/-- DEBUG_ARM: the D handler of a queue, at the address of a word (spec/01 R15). -/
def execDebugArm (q : Nat) (entry : Option Word) (s : State) : Out State :=
  if q < s.queues.length then ok (s.updQueue q (fun x => { x with debugEntry := entry.map (· &&& 0x01FFFFFFFFFFFFFC#64) })) else idle s

/-- Values the caps can hold (spec/10 Table 10.3, R224): VLCAP 8 to 64 in steps of 8, POWER a power of two from 8 to 64; a class M (0) or E (1). -/
def pinOk : Option Pin → Bool
  | none => true
  | some p => p.vlcap % 8 == 0 && decide (8 ≤ p.vlcap) && decide (p.vlcap ≤ 64)
    && (p.power == 8 || p.power == 16 || p.power == 32 || p.power == 64) && (match p.cls with | none => true | some c => decide (c ≤ 1))

/-- DEBUG_PIN: the pinned values of a queue; the cores with a block of it hold them at once. -/
def execDebugPin (q : Nat) (pin : Option Pin) (s : State) : Out State :=
  if pinOk pin && decide (q < s.queues.length) then
    let s := s.updQueue q (fun x => { x with pin := pin })
    ok ((List.range s.cores.length).foldl (fun s c => if (s.blocksOn c).any (fun x => x.1.queue == q) then s.holdPin c else s) s)
  else idle s

/-! ### Events of a wave -/

/-- ILLEGAL_INSTRUCTION_WORD (spec/01 R22, R23): a word of an assigned instruction reserved to a higher level raises the privilege trap first, then the
subcode of its class; it reads and writes nothing. -/
def execIllegalInstructionWord (w : IWord) (s : State) : Out State :=
  match decodeWord w with
  | .instr _ => idle s
  | .illegal why need =>
    s.runWave (fun _ _ wv _ =>
      if need.above wv.lvl then .trap ⟨2, 0, w.setWidth 64⟩ else .trap ⟨1, why.sub, w.setWidth 64⟩)

/-- The access before its fault point, once a result in flight has been written that may be older than it. -/
def RemoteAsk.wrote (q : RemoteAsk) (n : Nat) : RemoteAsk := if n < q.older then { q with older := q.older - 1 } else q

/-- LONG_LATENCY_WRITE (spec/02 R56): the `n`-th pending write of a wave; one younger than an access before its fault point goes to the history buffer, which
has sixteen entries (R63). -/
def execLongLatencyWrite (wi n : Nat) (s : State) : Out State :=
  match s.waves[wi]? with
  | none => idle s
  | some w => match w.pend[n]? with
    | none => idle s
    | some p =>
      let young := match w.ask with | some q => decide (q.older ≤ n) | none => false
      if young && decide (16 ≤ w.hist.length) && p.isScalar then idle s
      else ok ((s.makeWrite wi w p young).updWave wi (fun w => { w with pend := w.pend.eraseIdx n, ask := w.ask.map (fun q => q.wrote n) }))

/-- VECTOR_FAULT_POINT (spec/02 R63, R64): the access of the wave has its answer and passes its fault point; the entries leave the history buffer. A wave that a hard stop has stopped
passes it with its cut (spec/14 R294). -/
def execVectorFaultPoint (wi : Nat) (s : State) : Out State :=
  match s.waves[wi]? with
  | none => idle s
  | some w => if w.ahead && w.ask.isNone && !w.suspended then ok (s.updWave wi (fun w => { w with ahead := false, hist := [] })) else idle s

/-- An async trap is pending at level 0: nothing issues before it (spec/19 R390). -/
def Wave.asyncPends (w : Wave) : Bool := (w.lease.isSome || w.quota.isSome) && w.lvl == 0

/-- A wave may take an async trap now: it is at level 0, at an instruction boundary and running (R182, spec/21 R398). -/
def State.asyncDue (s : State) (w : Wave) : Bool :=
  w.asyncPends && s.running w && !w.cutOpen && !w.lookHeld

/-- ASYNC_TRAP_TAKE (R182, R178): lease expiry before energy quota. -/
def execAsyncTrapTake (wi : Nat) (s : State) : Out State :=
  match s.waves[wi]? with
  | none => idle s
  | some w =>
    if !s.asyncDue w then idle s
    else match w.cutSplit with
      | none => idle s
      | some si => match w.splits[si]? with
        | none => idle s
        | some sp => match w.lease, w.quota with
          | some v, _ => ok ((s.updWave wi (fun w => { w with lease := none })).takeTrap wi si sp.pc ⟨18, 0, v⟩ false false)
          | none, some v => ok ((s.updWave wi (fun w => { w with quota := none })).takeTrap wi si sp.pc ⟨19, 0, v⟩ false false)
          | none, none => idle s

/-- PARKED_FAULT_RESOLVE (R183): the wave goes on from the cut at its level and repeats the access. -/
def execParkedFaultResolve (wi : Nat) (s : State) : Out State :=
  match s.waves[wi]? with
  | none => idle s
  | some w => match w.park with
    | none => idle s
    | some p =>
      if s.priWaits (s.ctxOf w) p.addr then idle s
      else ok (((s.priAnswered (s.ctxOf w) p.addr).updWave wi (fun w => { w with
        park := none
        splits := w.splits.map (fun x => { x with fbuf := [] })
        streams := w.streams.map (fun t => match t.err with
          | some (_, _, _, true) => { t with err := none, told := false }
          | _ => t) })).stopMate w (w.lvl != 0))

/-- PARKED_FAULT_DECLINE (R183, R188): the handler is entered with the frame the park wrote; at level 2 and D the wave stops. -/
def execParkedFaultDecline (wi : Nat) (s : State) : Out State :=
  match s.waves[wi]? with
  | none => idle s
  | some w => match w.park with
    | none => idle s
    | some p => match w.splits[p.split]? with
      | none => idle s
      | some sp =>
        if s.priWaits (s.ctxOf w) p.addr then idle s
        else
        let s := (s.priAnswered (s.ctxOf w) p.addr).updWave wi (fun w => { w with park := none })
        ok (s.takeHandler wi p.split { w with park := none } sp sp.pc ⟨p.cause, p.sub, p.addr⟩ (p.frame != 0))

end Sys2Proof.Machine
end

