-- ==== Sys2Proof/Machine/Fabric.lean ====
section
/-! DEFINITION. The baseline fabric: RRED, RSIG and COVQ, device numbers, bindings, routes and ports, requests that arrive and what
follows an answer (spec/22 R403 to R414, spec/17 R348). -/

namespace Sys2Proof.Machine

/-! ### RRED and RSIG at issue (R410, R411, R413) -/

/-- The element type, target format and target bytes of an RRED format (Table 22.2). -/
def rredType (fm : BitVec 2) : Nat × Nat × Nat :=
  match fm.toNat with
  | 0 => (1, 1, 4)
  | 1 => (3, 3, 2)
  | 2 => (2, 2, 2)
  | _ => (4, 1, 4)

/-- The address of an element of a fabric operation resolved: translated memory only, writable, idempotent, on this device or another. -/
def State.fabricAcc (s : State) (wi : Nat) (w : Wave) (n : Nat) (i : Nat) (a : Word) : VAcc :=
  let acc : Acc :=
    if bit a.toNat 56 then .trap 6 0
    else match s.resolve wi w a n n .write with
      -- a leaf with TGT 2 or C = 1 faults as if W were 0
      | .ok (.here key dev) => if dev || key / 2 ^ 128 == Space.host.num then .trap 8 2 else .ok (.here key dev)
      | .ok (.away d addr dev) => if dev then .trap 8 2 else .ok (.away d addr dev)
      | r => r
  { i := i, a := a, acc := acc }

/-- The device and operation of an element: this device's own elements go to itself, by their key. -/
def State.fabricOp (s : State) (op : Nat → Nat → RemoteOp) (x : VAcc) : Nat × RemoteOp :=
  match x.acc with
  | .ok (.here key _) => (s.fabric.devid, op x.i key)
  | .ok (.away d addr _) => (d, op x.i addr)
  | .trap _ _ => (s.fabric.devid, op x.i 0)

/-- The operations of a fabric instruction leave: those for this device wait here to be applied. -/
def State.sendFabric (s : State) (wi : Nat) (w : Wave) (a : Word) (ops : List (Nat × RemoteOp)) : State :=
  let part := (s.ctxOf w).part
  let s := s.sideEffect w
  let near := ops.filter (fun x => x.1 == s.fabric.devid)
  let far := ops.filter (fun x => x.1 != s.fabric.devid)
  let s := if far.isEmpty then s else s.sendRemote part far (.fabric wi w.block a)
  if near.isEmpty then s
  else
    let s := s.sendRemote part near (.fabric wi w.block a)
    match s.fabric.out.getLast? with
    | none => s
    | some r =>
      let new := r.ops.map (fun x => (⟨x.1, part, x.2.1, x.2.2, s.fabric.out.length⟩ : RemoteIn))
      { s with fabric := { s.fabric with arrived := s.fabric.arrived ++ new } }

/-- An access list whose first device out of reach raises cause 17 (R409). -/
def State.unreached (s : State) (part : Nat) (l : List VAcc) : Option VAcc :=
  l.find? (fun x => match x.acc with
    | .ok (.away d _ _) => !s.reaches part d
    | _ => false)

/-- The accesses of an RRED's active elements. -/
def State.rredAccs (s : State) (wi : Nat) (w : Wave) (sp : Split) (base : Word) (tb : Nat) : List VAcc :=
  (w.actives sp).map (fun j => s.fabricAcc wi w tb j (base + word (j * tb)))

/-- RRED of operation `op` (0 add, 1 max, 2 min): every target address is translated before anything is sent. One that shares a byte with an older access of
the wave's streams or copies waits (spec/06 R147). -/
def State.rred (s : State) (i : Instr) (op : Nat) (d a b : Reg) (fm : BitVec 2) : Out State :=
  let (ety, _, tb) := rredType fm
  s.vec i (fun w sp =>
      { reads := w.src sp d 2 :: (if fm = 3 then [scaleRead b] else [])
        ss := [(a, 0)]
        typeOk := w.etype == ety
        -- the scale register, read whole, counts as read at the first element
        meets := fun x => w.meets (s.rredAccs s.cur.wave w sp (w.rd a) tb) [(d.toNat, w.sew)]
          (if fm = 3 && x.2 && x.1 == b.toNat then (0, false) else x) })
    (fun wi _ w sp =>
      let vf := s.vfile w.vfile
      let base := w.rd a
      let good := s.rredAccs wi w sp base tb
      match good.find? (fun x => !x.fine) with
      | some x => .trapIn s x.trap true
      | none =>
        let spans := accSpans tb good
        if s.streamPathWait wi w spans true || s.copyPathWait wi spans true then .stall
        else if base.toNat % tb ≠ 0 then .trapIn s ⟨5, 0, base⟩ true
        else match s.unreached (s.ctxOf w).part good with
          | some x => .trapIn s ⟨17, 0, x.a⟩ true
          | none =>
            let f (j addr : Nat) : RemoteOp :=
              .rred op fm.toNat addr (BitVec.ofNat 32 (w.getElem vf d.toNat w.sew j))
                (if fm = 3 then BitVec.ofNat 8 (w.scaleByte vf b 0 j) else 0)
            let s := (s.beats w sp w.grp false).touchAll w good
            if w.vl = 0 then .done (s.sideEffect w)
            else if good.isEmpty then .done (s.sideEffect w)
            else .done ((s.noteStores w (good.map (fun x => (x.a, tb)))).sendFabric wi w base (good.map (s.fabricOp f))))

/-- RRED.ADD. -/
def execRredAdd (d a b : Reg) (fm : BitVec 2) (s : State) : Out State := s.rred (.rredAdd d a b fm) 0 d a b fm
/-- RRED.MAX. -/
def execRredMax (d a b : Reg) (fm : BitVec 2) (s : State) : Out State := s.rred (.rredMax d a b fm) 1 d a b fm
/-- RRED.MIN. -/
def execRredMin (d a b : Reg) (fm : BitVec 2) (s : State) : Out State := s.rred (.rredMin d a b fm) 2 d a b fm

/-- RSIG (R413). -/
def execRsig (a b : Reg) (s : State) : Out State :=
  s.scalar [(a, 0), (b, 1)] [] (fun wi _ w _ =>
    let e := w.rd a
    let x := s.fabricAcc wi w 8 0 e
    match x.acc with
    | .trap _ _ => .trapIn s x.trap true
    | .ok _ => match s.unreached (s.ctxOf w).part [x] with
      | some _ => .trapIn s ⟨17, 0, e⟩ true
      | none =>
        let spans := accSpans 8 [x]
        if s.streamPathWait wi w spans true || s.copyPathWait wi spans true then .stall
        else .done (((s.touched w e).noteStores w [(e, 8)]).sendFabric wi w e [s.fabricOp (fun _ addr => .rsig addr (w.rd b)) x]))

/-- COVQ (spec/17 R348). -/
def execCovq (d : Reg) (s : State) : Out State := s.compute [] d (fun w => (s.block w.block).cov)

/-! ### Application at the target (R412, R413) -/

/-- The larger or smaller of two values: +0 above −0, a NaN if either is one. -/
def pickV (larger : Bool) (x y : FVal) : FVal :=
  if x.isNan || y.isNan then .nan false else if lessZ x y == larger then y else x

/-- The new value of an RRED element from the old pattern, the payload and its scale byte. -/
def rredNew (op fmt old : Nat) (v : BitVec 32) (scale : Byte) : Nat :=
  let (ety, target, _) := rredType (BitVec.ofNat 2 fmt)
  let raw := decodeF ety (v.toNat % 2 ^ sewOf ety)
  let val : FVal :=
    if fmt = 3 then match scaleVal scale.toNat with
      | none => .nan false
      | some (0, _) => .fin false 0 0
      | some (m, e) => (mulV raw (.fin false m e)).1
    else raw
  let o := decodeF target old
  match op with
  | 0 => (faddP target 0 false o val).val
  | 1 => (deliverF target 0 false false (pickV true o val) false).val
  | _ => (deliverF target 0 false false (pickV false o val) false).val

/-- Where an arrived operation on `n` bytes acts: a key given by this device itself, or an address of the partition bound to its source; none where that
binding, or that part of the partition's space, is gone (R405). -/
def State.inKey (s : State) (r : RemoteIn) (addr n : Nat) : Option Nat :=
  if r.dev = s.fabric.devid then some addr
  else match s.parts.find? (fun p => p.bindings.contains (r.dev, r.part)) with
    | some p => if addr + n ≤ s.hbmSize p.id then some (s.hbmKey p.id addr) else none
    | none => none

/-- A wave's fabric operation, by its request, failed after its issue: recorded in the wave, or with its block's job once the wave has ended (R414). -/
def State.fabricFailure (s : State) (req wi bi : Nat) (a : Word) : State :=
  match s.waves[wi]? with
  | none => s
  | some w =>
    if !w.ended then s.updWave wi (fun w => { w with fabFail := w.fabFail ++ [(req, a)] })
    else match (s.block bi).job with
      | none => s
      | some ji => s.updJob ji (fun j => { j with fabError := true })

/-- Requests to this device itself are acknowledged once none of their operations waits here, and no other device is asked. -/
def State.ackLocal (s : State) : State :=
  { s with fabric := { s.fabric with out := s.fabric.out.map (fun r =>
      if r.answer.isNone && r.ops.all (fun x => x.1 == s.fabric.devid
          && !s.fabric.arrived.any (fun y => y.dev == x.1 && y.seq == x.2.1))
      then { r with answer := some ⟨[], [], none⟩ } else r) } }

/-- A response leaves for another device (R405, R407). -/
def State.reply (s : State) (r : RemoteIn) (x : RemoteAnswer) : State :=
  if r.dev = s.fabric.devid then s else { s with fabric := { s.fabric with replies := s.fabric.replies ++ [(r.dev, r.seq, x)] } }

/-- The arrived operation at place `n` leaves the queue, acknowledged, or refused where it had no place to act. -/
def State.dropArrived (s : State) (n : Nat) (r : RemoteIn) (done : Bool) : State :=
  (({ s with fabric := { s.fabric with arrived := s.fabric.arrived.eraseIdx n } } : State).ackLocal).reply r ⟨[], [], if done then none else some 0⟩

/-- The request of this device that an operation it sent to itself belongs to, with its wave. -/
def State.ownRequest (s : State) (r : RemoteIn) : Option (Nat × Nat) :=
  (findIdx (fun (o : RemoteOut) => o.ops.any (fun x => x.1 == r.dev && x.2.1 == r.seq)) s.fabric.out 0).bind (fun k =>
    (s.fabric.out[k]?).map (fun o => (k, match o.use with | .fabric wi _ _ => wi | _ => 0)))

/-- An operation that arrived earlier must be performed before `y`: one of the same wave here, or of the same source, but of another packet (R408, R413). -/
def State.goesBefore (s : State) (y x : RemoteIn) : Bool :=
  x.dev == y.dev && x.part == y.part && x.packet != y.packet &&
    (if x.dev = s.fabric.devid then
      match s.ownRequest x, s.ownRequest y with
      | some (_, wi), some (_, wi') => wi == wi'
      | _, _ => false
    else true)

/-- RRED_APPLY: element `n` of the packet that starts at place `req` of the arrived operations, once every earlier operation of its wave on the fabric path is
performed (R408); a poisoned granule stays as it is, and one whose place is gone is refused (R405). -/
def execRredApply (req n : Nat) (s : State) : Out State :=
  match s.fabric.arrived[req + n]? with
  | none => idle s
  | some r => match r.op with
    | .rred op fmt addr v scale =>
      if (s.fabric.arrived.take (req + n)).any (s.goesBefore r) then idle s
      else
      let tb := (rredType (BitVec.ofNat 2 fmt)).2.2
      match s.inKey r addr tb with
      | none => ok (s.dropArrived (req + n) r false)
      | some key =>
        let s := if s.poisoned key tb then s else s.writeN key tb (rredNew op fmt (s.readN key tb) v scale)
        ok (s.dropArrived (req + n) r true)
    | _ => idle s

/-- A fabric operation of the same wave among the first `k` requests has no answer. -/
def State.fabricBefore (s : State) (k : Nat) (u : RemoteUse) : Bool :=
  match u with
  | .fabric wi _ _ => (s.fabric.out.take k).any (fun o => o.answer.isNone && (match o.use with | .fabric x _ _ => x == wi | _ => false))
  | _ => false

/-- RSIG_APPLY: a release, so every earlier operation of the same source has been applied, and every earlier fabric operation of the wave is
acknowledged (R413). A poisoned word stays as it is, as R412 says of an RRED element (log entry 85, DEDUCED). -/
def execRsigApply (req : Nat) (s : State) : Out State :=
  match s.fabric.arrived[req]? with
  | none => idle s
  | some r => match r.op with
    | .rsig addr v =>
      let earlier := (s.fabric.arrived.take req).any (s.goesBefore r)
      let waits := r.dev == s.fabric.devid && (match findIdx (fun (o : RemoteOut) => o.ops.any (fun x => x.1 == r.dev && x.2.1 == r.seq)) s.fabric.out 0 with
        | none => false
        | some k => match s.fabric.out[k]? with
          | some o => s.fabricBefore k o.use
          | none => false)
      if earlier || waits then idle s
      else match s.inKey r addr 8 with
        | none => ok (s.dropArrived req r false)
        | some key =>
          let s := if s.poisoned key 8 then s else s.writeN key 8 ((s.readN key 8 + v.toNat) % 2 ^ 64)
          ok (s.dropArrived req r true)
    | _ => idle s

/-! ### Answers (R406, R409, R414) -/

/-- Bytes an operation returns. -/
def opReturns : RemoteOp → Nat
  | .read _ n => n
  | .amo _ w _ _ => if w then 4 else 8
  | .cas w _ _ _ => if w then 4 else 8
  | _ => 0

/-- The request has its answer: a failed fabric operation is recorded, and the access of a wave goes on. -/
def State.answered (s : State) (req : Nat) (a : RemoteAnswer) : State :=
  match s.fabric.out[req]? with
  | none => s
  | some r =>
    let s := { s with fabric := { s.fabric with out := updAt s.fabric.out req (fun r => { r with answer := some a }) } }
    match r.use with
    | .fabric wi bi addr => if a.failed.isSome then s.fabricFailure req wi bi addr else s
    | .access wi => s.accessAnswer wi a (match s.waves[wi]? with | some w => !s.running w | none => true)
    | _ => s

/-- An RSIG to another device is answered only after every earlier fabric operation of its wave (R413). -/
def State.answerHeld (s : State) (req : Nat) (r : RemoteOut) : Bool :=
  match r.use with
  | .fabric _ _ _ => r.ops.any (fun x => match x.2.2 with | .rsig _ _ => true | _ => false)
      && s.fabricBefore req r.use
  | _ => false

/-- The first of a request's operations that is still to be answered and whose device no port reaches any more (Table 22.1). -/
def State.lostAt (s : State) (r : RemoteOut) : Option Nat := s.firstUnreached r.part (r.ops.map (fun x => (x.1, x.2.2)))

/-! ### Requests that arrive (R405, R407) -/

/-- Bytes of a host or remote write, a flagged one poisoning the granules it writes (spec/16 R332, R335). -/
def State.flaggedWrite (s : State) (key : Nat) (l : List Byte) (flag : Bool) : State :=
  let s := s.writeBytes key l
  if flag then (List.range l.length).foldl (fun s i => s.poison (key + i)) s else s

/-- The response that carries `n` bytes from a key, flagged by their granules (R409, spec/16 R335). -/
def State.answerFrom (s : State) (key n : Nat) : RemoteAnswer :=
  ⟨memReadBytes s.mem key n, (List.range n).map (fun i => s.poisoned (key + i) 1), none⟩

/-- An arriving operation performed at a key, and its response. -/
def State.performRemote (s : State) (r : RemoteIn) (key : Nat) : State :=
  match r.op with
  | .read _ n => s.reply r (s.answerFrom key n)
  | .write _ l flag => (s.flaggedWrite key l flag).reply r ⟨[], [], none⟩
  | .amo fn w _ v =>
    let n := if w then 4 else 8
    (if s.poisoned key n then s else s.writeN key n (amoNew fn (8 * n) (s.readN key n) (v.toNat % 2 ^ (8 * n)))).reply r (s.answerFrom key n)
  | .cas w _ e v =>
    let n := if w then 4 else 8
    (if s.poisoned key n || s.readN key n ≠ e.toNat % 2 ^ (8 * n) then s else s.writeN key n (v.toNat % 2 ^ (8 * n))).reply r (s.answerFrom key n)
  | .rred _ _ _ _ _ => { s with fabric := { s.fabric with arrived := s.fabric.arrived ++ [r] } }
  | .rsig _ _ => { s with fabric := { s.fabric with arrived := s.fabric.arrived ++ [r] } }

/-- A request taken up: from an unbound partition, or outside the bound partition's space, the response is a refusal. -/
def State.takeUp (s : State) (r : RemoteIn) : State :=
  let (a, n) := opSpan r.op
  let s := { s with fabric := { s.fabric with performed := s.fabric.performed ++ [(r.dev, r.seq)] } }
  match s.parts.find? (fun p => p.bindings.contains (r.dev, r.part)) with
  | none => s.reply r ⟨[], [], some 0⟩
  | some p => if a + n > s.hbmSize p.id then s.reply r ⟨[], [], some 0⟩ else s.performRemote r (s.hbmKey p.id a)

/-- The highest number of a source that has been taken up. -/
def Fabric.lastIn (f : Fabric) (dev : Nat) : Nat := f.performed.foldl (fun m x => if x.1 = dev then max m x.2 else m) 0

/-- The lowest-numbered early request of a source. -/
def Fabric.nextIn (f : Fabric) (dev : Nat) : Option Nat :=
  bestIdx (fun x => x.1.dev == dev) (fun (x y : RemoteIn × Nat) => decide (x.1.seq < y.1.seq)) f.early 0 none

/-- Early requests of a source taken up while they are in turn, or while the one before them has not come in 200 µs, so that its source has given it up (R406,
R408; log entry 159). -/
def State.takeTurns (s : State) (dev : Nat) : Nat → State
  | 0 => s
  | fuel + 1 =>
    match (s.fabric.nextIn dev).bind (fun i => (s.fabric.early[i]?).map (fun x => (i, x))) with
    | none => s
    | some (i, r, t) =>
      if r.seq = s.fabric.lastIn dev + 1 ∨ t + 200000 ≤ s.time.toNat then
        (({ s with fabric := { s.fabric with early := s.fabric.early.eraseIdx i } } : State).takeUp r).takeTurns dev fuel
      else s

/-- The early requests whose turn has come by time alone are taken up. -/
def State.overdue (s : State) : State := s.fabric.early.foldl (fun s x => s.takeTurns x.1.dev s.fabric.early.length) s

/-- REMOTE_REQUEST (R407, R408): performed at most once, and in the order of its source's numbers, whatever routes they came over; one that a later one has
overtaken is given up. -/
def execRemoteRequest (r : RemoteIn) (s : State) : Out State :=
  if r.dev = s.fabric.devid || !s.fabric.assigned || s.fabric.performed.contains (r.dev, r.seq) || decide (r.seq ≤ s.fabric.lastIn r.dev)
      || s.fabric.early.any (fun x => x.1.dev == r.dev && x.1.seq == r.seq) then idle s
  else if r.seq = s.fabric.lastIn r.dev + 1 then ok ((s.takeUp r).takeTurns r.dev s.fabric.early.length)
  else ok (({ s with fabric := { s.fabric with early := s.fabric.early ++ [(r, s.time.toNat)] } } : State).takeTurns r.dev s.fabric.early.length)

/-! ### Numbers, bindings, routes and ports (R403 to R406) -/

/-- One port changed. -/
def State.updFabPort (s : State) (n : Nat) (f : FabPort → FabPort) : State :=
  { s with fabric := { s.fabric with ports := updAt s.fabric.ports n f } }

/-- DEVICE_NUMBER_ASSIGN (R404): with no binding left; every port is to be trained again. -/
def execDeviceNumberAssign (n : BitVec 9) (s : State) : Out State :=
  if s.parts.any (fun p => !p.bindings.isEmpty) then idle s
  else ok { s with fabric := { s.fabric with
    devid := n.toNat
    assigned := true
    ports := s.fabric.ports.map (fun p => { p with lanes := 0, retries := 0 }) } }

/-- BINDING_INSTALL (R405): a partition is paired with one partition of a device. -/
def execBindingInstall (part dev rpart : Nat) (s : State) : Out State :=
  match s.part? part with
  | none => idle s
  | some p =>
    if !s.fabric.assigned || dev = s.fabric.devid || 512 ≤ dev || p.bindings.any (fun b => b.1 == dev)
        || s.parts.any (fun q => q.bindings.contains (dev, rpart)) then idle s
    else ok (s.updPart part (fun p => { p with bindings := p.bindings ++ [(dev, rpart)] }))

/-- BINDING_REMOVE (R404): the source's operations that wait to be applied are refused (log entry 168). -/
def execBindingRemove (part dev : Nat) (s : State) : Out State :=
  let gone (r : RemoteIn) : Bool := (s.partD part).bindings.contains (r.dev, r.part) && r.dev == dev
  let refused := s.fabric.arrived.filter gone
  let s := s.updPart part (fun p => { p with bindings := p.bindings.filter (fun b => b.1 != dev) })
  ok (refused.foldl (fun s r => s.reply r ⟨[], [], some 0⟩)
    { s with fabric := { s.fabric with arrived := s.fabric.arrived.filter (fun r => !gone r) } })

/-- ROUTE_TABLE_WRITE (R403): one or more of the partition's own ports. -/
def execRouteTableWrite (part dev : Nat) (ports : List Nat) (s : State) : Out State :=
  if (s.part? part).isNone || ports.isEmpty
      || ports.any (fun n => match s.fabric.ports[n]? with | some q => q.part != some part | none => true) then idle s
  else ok (s.updPart part (fun p => { p with routes := p.routes.filter (fun r => r.1 != dev) ++ [(dev, ports)] }))

/-- FLIT_CRC_ERROR (R406): the flit is replayed. -/
def execFlitCrcError (port : Nat) (s : State) : Out State := ok (s.updFabPort port (fun p => { p with retries := p.retries + 1 }))

/-- PORT_RETRAIN (R406): to 4 lanes, then to 2. -/
def execPortRetrain (port : Nat) (s : State) : Out State :=
  ok (s.updFabPort port (fun p => if p.lanes ≤ 2 then p else { p with lanes := p.lanes / 2, retries := 0 }))

/-- PORT_DOWN (R406). -/
def execPortDown (port : Nat) (s : State) : Out State := ok (s.updFabPort port (fun p => { p with lanes := 0, retries := 0 }))

/-- PORT_TRAIN (R403, R404): not before the device number is assigned. -/
def execPortTrain (port : Nat) (s : State) : Out State :=
  if s.fabric.assigned then ok (s.updFabPort port (fun p => { p with lanes := 8, retries := 0 })) else idle s

/-- PORT_ASSIGN (R403). -/
def execPortAssign (port : Nat) (part : Option Nat) (s : State) : Out State :=
  if (match part with | some p => (s.part? p).isNone | none => false) then idle s
  else ok (s.updFabPort port (fun q => { q with part := part }))

end Sys2Proof.Machine
end

