-- ==== Sys2Proof/Machine/Device.lean ====
section
/-! DEFINITION. The hub's own accesses in a context, contexts, queues, doorbells and packets, job cards, completions, timelines and services:
spec/18 R351 to R365, spec/17 R336, R345; and the answers of other devices (spec/22 R406, R409). A queue is named by its place in the list of queues. -/

namespace Sys2Proof.Machine

/-! ### The device's own accesses (R354) -/

/-- A copy that stands for the context alone. -/
def Copy.device (ci q : Nat) : Copy where
  wave := none
  block := none
  core := 1024
  ctx := ci
  queue := q
  src := .mem 0 0
  dst := .mem 0 0
  rows := 1
  rowBytes := 0
  srcLocal := false
  dstLocal := false
  target := .packet q 0
  grant := .none
  key := none
  fault := none
  declined := []
  shared := []
  placed := none
  rd := none
  wr := none
  compl := 0
  reissueError := false
  moved := none
  cancelled := false
  finished := false

/-- What became of an access of the device: it waits, it has sent a request or a report, it cannot be made, or it is made. -/
inductive Dev where
  | waits
  | later (s : State)
  | bad (s : State) (a : Word)
  | got (s : State) (l : List Byte)

/-- The addresses of `n` bytes. -/
def byteAddrs (a : Word) (n : Nat) : List Word := (List.range n).map (fun i => a + word i)

/-- The first byte that no access may touch. -/
def firstErr : List Word → List CPlace → Option Word
  | a :: _, .err :: _ => some a
  | _ :: as, _ :: ps => firstErr as ps
  | _, _ => none

/-- A translation fault of a queue's access reported (R354, spec/16 R316): one at a time waits for the host. -/
def State.reportQueue (s : State) (qi : Nat) (a : Word) (sub : Nat) (write card : Bool) : Dev :=
  let q := s.queue qi
  if q.memFault.isSome then .waits
  else .later ((s.updQueue qi (fun q => { q with memFault := some (a, write, card) })).reportFault (s.ctx q.ctx) 1024 a write 8 sub q.num
    (b2n write + 32) 0)

/-- The request a queue has out for an access, if any. -/
def Queue.asked (q : Queue) (a : Word) (write : Bool) : Option (Nat × List CPlace) :=
  (q.asks.find? (fun x => x.1 == a && x.2.1 == write)).map (·.2.2)

/-- Where the `n` bytes of a queue's access lie: as when it sent its request, if it has sent one. -/
def State.queuePlaces (s : State) (qi : Nat) (a : Word) (n : Nat) (write : Bool) : List CPlace :=
  let q := s.queue qi
  match q.asked a write with
  | some x => x.2
  | none => (byteAddrs a n).map (s.cplace (Copy.device q.ctx qi) false (if write then .write else .read))

/-- The remote part of a queue's access at the places `ps`: sent once, then awaited. -/
def State.queueAsk (s : State) (qi : Nat) (a : Word) (write : Bool) (ps : List CPlace) (ops : List (Nat × RemoteOp)) : Remote :=
  let q := s.queue qi
  let part := (s.ctx q.ctx).part
  if ops.isEmpty then .ready ⟨[], [], none⟩
  else match q.asked a write with
    | some x => match (s.fabric.out[x.1]?).bind (·.answer) with
      | some r => .ready r
      | none => .pending
    | none => match s.firstUnreached part ops with
      | some k => .ready ⟨[], [], some k⟩
      | none => .sent ((s.sendRemote part ops (.queue qi)).updQueue qi (fun q => { q with asks := q.asks ++ [(a, write, s.fabric.out.length, ps)] }))

/-- The request of an access is over. -/
def State.queueAsked (s : State) (qi : Nat) (a : Word) (write : Bool) : State :=
  s.updQueue qi (fun q => { q with asks := q.asks.filter (fun x => !(x.1 == a && x.2.1 == write)) })

/-- A read of `n` bytes in the queue's context; the spec gives the device no value for a poisoned granule, so its bytes are free. -/
def State.queueRead (s : State) (qi : Nat) (a : Word) (n : Nat) (card : Bool) : Dev :=
  let as := byteAddrs a n
  let ps := s.queuePlaces qi a n false
  match firstFault as ps with
  | some (f, sub) => s.reportQueue qi f sub false card
  | none => match firstErr as ps with
    | some f => .bad s f
    | none =>
      match s.queueAsk qi a false ps ((awayPieces ps).map (fun x => (x.1, .read x.2.1 x.2.2))) with
      | .pending => .waits
      | .sent s' => .later s'
      | .ready ans =>
        let s := s.queueAsked qi a false
        if ans.failed.isSome then .bad s a
        else .got s ((s.takeBytes ans n ps 0).zipIdx.map (fun x => if x.1.st = 0 then x.1.val else Config.freeByte (s.tick + x.2)))

/-- A write in the queue's context. -/
def State.queueWrite (s : State) (qi : Nat) (a : Word) (l : List Byte) : Dev :=
  let as := byteAddrs a l.length
  let ps := s.queuePlaces qi a l.length true
  match firstFault as ps with
  | some (f, sub) => s.reportQueue qi f sub true false
  | none => match firstErr as ps with
    | some f => .bad s f
    | none =>
      let data := ps.zip (l.map (fun b => (⟨b, 0⟩ : CByte)))
      match s.queueAsk qi a true ps ((awayWrites data).map (fun x => (x.1, .write x.2.1 x.2.2.1 x.2.2.2))) with
      | .pending => .waits
      | .sent s' => .later s'
      | .ready ans =>
        let s := s.queueAsked qi a true
        if ans.failed.isSome then .bad s a else .got (s.land (landing false data)) []

/-- Fault code 10, queue memory. -/
def State.memoryFault (s : State) (qi : Nat) (a : Word) : State :=
  (s.updQueue qi (fun q => { q with mirror := [] })).queueFault qi 10 0 0 0 a 0 false

/-- The oldest due write of the mirror area is made, and those after it, while none waits. One that cannot be made faults an open queue (code 10); a queue that
has faulted keeps its fault. -/
def State.flushMirror (s : State) (qi : Nat) : Nat → State
  | 0 => s
  | fuel + 1 =>
    let q := s.queue qi
    match q.mirror with
    | [] => s
    | (i, v) :: rest => match s.queueWrite qi (q.tladdr + word (8 * i)) (leBytes 8 v.toNat) with
      | .waits => s
      | .later s' => s'
      | .bad s' a => if q.mode == .opened then s'.memoryFault qi a else s'.updQueue qi (fun q => { q with mirror := [] })
      | .got s' _ =>
        (s'.updQueue qi (fun q => { q with mirror := rest, retired := if i = 1 then v.toNat else q.retired })).flushMirror qi fuel

/-- A write of the mirror area falls due. -/
def State.mirrorWrite (s : State) (qi i : Nat) (v : Word) : State :=
  (s.updQueue qi (fun q => { q with mirror := q.mirror ++ [(i, v)] })).flushMirror qi ((s.queue qi).mirror.length + 1)

/-- The due writes of a queue go on. -/
def State.resumeMirror (s : State) (qi : Nat) : State := s.flushMirror qi (s.queue qi).mirror.length

/-- Those of the queue that a request was made for. -/
def State.mirrorGoes (s : State) (req : Nat) : State :=
  match s.fabric.out[req]? with
  | some r => match r.use with
    | .queue qi => s.resumeMirror qi
    | _ => s
  | none => s

/-- REMOTE_RESPONSE: the data of the elements before the failed one, if any, in their number; none comes from a device that no port reaches. -/
def execRemoteResponse (req : Nat) (a : RemoteAnswer) (s : State) : Out State :=
  match s.fabric.out[req]? with
  | none => idle s
  | some r =>
    let good := r.ops.take (a.failed.getD r.ops.length)
    let n := good.foldl (fun n x => n + opReturns x.2.2) 0
    if r.answer.isSome || a.bytes.length ≠ n || a.poisoned.length ≠ n || r.ops.all (fun x => x.1 == s.fabric.devid) || s.answerHeld req r
      || (match a.failed with | some k => decide (r.ops.length ≤ k) | none => false)
      || (match s.lostAt r, a.failed with
          | some l, some k => decide (l < k)
          | some _, none => true
          | none, _ => false) then idle s
    else ok ((s.answered req a).mirrorGoes req)

/-- REMOTE_REQUEST_TIMEOUT: no response within 200 µs over every route, or no port left to the device of its first operation (Table 22.1). -/
def execRemoteRequestTimeout (req : Nat) (s : State) : Out State :=
  match s.fabric.out[req]? with
  | none => idle s
  | some r =>
    if r.answer.isSome || (decide (s.time.toNat < r.sent + 200000) && s.lostAt r != some 0) || r.ops.all (fun x => x.1 == s.fabric.devid) then idle s
    else ok ((s.answered req ⟨[], [], some 0⟩).mirrorGoes req)

/-! ### Contexts and queues (R351 to R353) -/

/-- The fields of a context descriptor are legal (Table 18.2). -/
def State.ctxDescOk (s : State) (fn : Nat) (d : List Byte) : Bool :=
  d.length == 32 && field d 0 8 % 2 ^ 20 == 0 && decide (field d 8 4 < 2 ^ 20) && decide (field d 12 1 < 16) && field d 13 3 == 0
    && decide (10 ≤ field d 16 4) && decide (field d 16 4 ≤ 10000) && field d 20 12 == 0
    && (s.part? (field d 12 1)).isSome && field d 12 1 == fn && decide (field d 0 8 + 2 ^ 20 ≤ s.hbmSize (field d 12 1))

/-- The wave-slot cycles of an energy interval that a former context of a number used are no longer its namesake's (spec/19 R389): they stand under a number that
no context has. -/
def leaveSlots (l : List (Nat × Nat)) (ci : Nat) : List (Nat × Nat) :=
  let n := assocGet 0 l ci
  if n = 0 then l else assocSet 0 (assocSet 0 l ci 0) (2 ^ 64) (assocGet 0 l (2 ^ 64) + n)

/-- CONTEXT_CREATE (R351), by the datum firmware on request of the partition's function, under a number that no open context and no queue of a former
one has. -/
def execContextCreate (ci fn : Nat) (d : List Byte) (s : State) : Out State :=
  if 1024 ≤ ci || (s.ctx ci).opened || s.queues.any (fun q => q.ctx == ci && !q.deleted) || !s.ctxDescOk fn d then idle s
  else
    let s := { s with
      ctxs := s.ctxs ++ List.replicate (ci + 1 - s.ctxs.length) Ctx.blank
      clusters := s.clusters.map (fun (c : ClusterSt) => { c with slots := leaveSlots c.slots ci }) }
    ok (s.updCtx ci (fun _ => { Ctx.blank with
      opened := true
      fn := fn
      root := field d 0 8
      pasid := field d 8 4
      part := field d 12 1
      soft := field d 16 4
      st := .running }))

/-- The fields of a queue descriptor are legal (Table 18.3). -/
def queueDescOk (d : List Byte) : Bool :=
  d.length == 64 && decide (6 ≤ field d 8 1) && decide (field d 8 1 ≤ 15) && field d 0 8 % (64 * 2 ^ field d 8 1) == 0
    && decide (field d 9 1 ≤ 3) && decide (field d 10 2 < 1024) && decide (250 ≤ field d 12 2)
    && (decide (field d 14 2 < 256) || field d 14 2 == 0xFFFF) && field d 16 8 % 16 == 0
    && field d 32 8 % 4096 == 0 && decide (4096 ≤ field d 40 4) && decide (field d 40 4 ≤ 65536) && field d 40 4 % 4096 == 0
    && decide (10 ≤ field d 44 4) && decide (field d 44 4 ≤ 10000) && field d 48 8 % 4096 == 0 && field d 56 8 == 0

/-- The queue of a context with a number. -/
def State.queueOf (s : State) (ci num : Nat) : Option Nat := findIdx (fun (q : Queue) => q.ctx == ci && q.num == num && !q.deleted) s.queues 0

/-- QUEUE_CREATE (R352, R354): both mirror words are written as 0; the coverage state is clear (spec/17 R345). -/
def execQueueCreate (num fn : Nat) (d : List Byte) (s : State) : Out State :=
  let ci := field d 10 2
  let taken := s.queues.any (fun q => q.num == num && !q.deleted && (s.ctx q.ctx).fn == fn)
  if 4096 ≤ num || taken || !queueDescOk d || !(s.ctx ci).opened || (s.ctx ci).tearing || (s.ctx ci).fn ≠ fn then idle s
  else
    let q : Queue := { Queue.blank with
      num := num
      ctx := ci
      ring := word (field d 0 8)
      slots := field d 8 1
      prio := field d 9 1
      bint := field d 12 2
      prog := field d 14 2
      tladdr := word (field d 16 8)
      handler := word (field d 24 8) &&& 0x01FFFFFFFFFFFFFC#64
      pwin := word (field d 32 8)
      pwinsz := field d 40 4
      age := field d 44 4
      svc := word (field d 48 8)
      mode := .opened
      deleted := false }
    let qi := s.queues.length
    ok ((({ s with queues := s.queues ++ [q] } : State).mirrorWrite qi 0 0).mirrorWrite qi 1 0)

/-- Nothing of a queue is under way. -/
def State.queueIdle (s : State) (qi : Nat) : Bool :=
  (s.queue qi).flight.isEmpty && s.jobs.all (fun j => j.queue != qi || j.finished) && s.blocks.all (fun b => b.queue != qi || !b.alive)
    && s.copies.all (fun c => c.queue != qi || c.finished)

/-- QUEUE_DELETE (R353): the queue is idle, or closed-faulted. -/
def execQueueDelete (qi : Nat) (s : State) : Out State :=
  let q := s.queue qi
  if q.deleted || !s.queueIdle qi then idle s
  else ok (s.updQueue qi (fun q => { Queue.blank with ctx := q.ctx, num := q.num }))

/-! ### The doorbell and the fetch of packets (R354 to R356) -/

/-- DOORBELL: a value not above the previous one, or more than a ring above the oldest packet not retired, is ignored. -/
def execDoorbell (qi : Nat) (w : Word) (s : State) : Out State :=
  let q := s.queue qi
  if q.deleted || sgn (w - q.bell) ≤ 0 || sgn (w - word q.retired) > 2 ^ q.slots then idle s
  else ok (s.updQueue qi (fun q => { q with bell := w }))

/-- The body fields a packet type has, as offsets (Table 18.6). -/
def packetFields (t : Nat) : List Nat :=
  match t with
  | 1 => [8, 32, 40]
  | 2 => [8, 16, 24, 32, 40]
  | 3 => [8, 16]
  | 4 => [16]
  | 5 => [8, 16, 24, 32, 40, 48]
  | _ => []

/-- A packet is well formed for a context (R355, R356). -/
def State.packetOk (s : State) (ci : Nat) (l : List Byte) : Bool :=
  let t := field l 0 8 / 2 ^ 16 % 16
  decide (field l 0 8 < 2 ^ 21) && decide (1 ≤ t) && decide (t ≤ 7) && field l 62 2 == 0 && field l 56 4 == 0
    && [8, 16, 24, 32, 40, 48].all (fun o => (packetFields t).contains o || field l o 8 == 0)
    && (t != 3 || (decide (field l 8 8 < 4096) && (s.queueOf ci (field l 8 8)).isSome))
    && (t != 2 || (decide (1 ≤ field l 24 8) && decide (field l 24 8 ≤ 2 ^ 32)))

/-- A packet from its bytes. -/
def Packet.make (seq : Nat) (l : List Byte) : Packet :=
  let t := field l 0 8 / 2 ^ 16 % 16
  { seq := seq
    bytes := l
    type := t
    sig := if t = 4 then some (word (field l 16 8)) else if bit (field l 0 8) 20 && t ≤ 2 then some (word (field l 32 8)) else none
    compl := if t ≤ 2 then word (field l 40 8) else 0
    carrier := 0
    done := false
    applied := false }

/-- A queue fetches: it is open, and its doorbell has passed the next packet, which it has not fetched. -/
def State.fetches (s : State) (qi : Nat) : Bool :=
  let q := s.queue qi
  q.mode == .opened && q.head.isNone && decide (0 < sgn (q.bell - word q.nextSeq))

/-- The fault of a slot that did not match (R356). -/
def State.torn (s : State) (qi : Nat) : State :=
  (s.updQueue qi (fun q => { q with retries := 0 })).queueFault qi 1 0 0 0 (word (s.queue qi).nextSeq) 0 false

/-- A read of `n` bytes of the queue at an address is under way: it waits for the host or for another device. -/
def Queue.reading (q : Queue) (a : Word) (n : Nat) : Bool :=
  (q.asked a false).isSome || (match q.memFault with
    | some (f, write, card) => !write && !card && decide ((f - a).toNat < n)
    | none => false)

/-- PACKET_FETCH: one read of the slot, accepted only with mark and stamp as expected; the ninth mismatch is a torn packet, and so is one after which no further
read began within 2 µs. -/
def execPacketFetch (qi : Nat) (s : State) : Out State :=
  let q := s.queue qi
  if !s.fetches qi then idle s
  else
    let a := q.ring + word (64 * (q.nextSeq % 2 ^ q.slots))
    if q.retries > 0 && decide (q.retrySince + 2000 < s.time.toNat) && !q.reading a 64 then ok (s.torn qi)
    else match s.queueRead qi a 64 false with
    | .waits => idle s
    | .later s' => ok s'
    | .bad s' f => ok (s'.memoryFault qi f)
    | .got s l =>
      let mark := q.nextSeq % 65536
      if field l 0 2 ≠ mark || field l 60 2 ≠ mark then
        if q.retries ≥ 8 then ok (s.torn qi)
        else ok (s.updQueue qi (fun q => { q with
          retries := q.retries + 1
          retrySince := if q.retries = 0 then s.time.toNat else q.retrySince }))
      else
        let s := s.updQueue qi (fun q => { q with retries := 0 })
        if s.packetOk q.ctx l then ok (s.updQueue qi (fun x => { x with head := some (Packet.make q.nextSeq l) }))
        else ok (s.queueFault qi 2 0 0 0 (word q.nextSeq) 0 false)

/-! ### Starting packets (R357) -/

/-- A plumb program of the queue runs. -/
def State.plumbing (s : State) (qi : Nat) : Bool := s.runs.any (fun r => r.queue == qi && !r.finished)

/-- The packet that starts next: an emitted one before the ring's, none while a plumb program runs or a mirror write is due. -/
def State.nextPacket (s : State) (qi : Nat) : Option Packet :=
  let q := s.queue qi
  if q.mode != .opened || !q.mirror.isEmpty || s.plumbing qi then none
  else match q.emitted with
    | p :: _ => some p
    | [] => q.head

/-- Entries that have completed and whose signal, if any, is applied leave the list. -/
def trimFlight (l : List Packet) : List Packet := l.filter (fun p => !(p.done && (p.sig.isNone || p.applied)))

/-- The next packet has started: it joins those in flight as `p`, and word 1 of the mirror area rises past it. -/
def State.started (s : State) (qi : Nat) (p : Packet) : State :=
  let s := s.updQueue qi (fun q =>
    let q := { q with flight := trimFlight (q.flight ++ [p]) }
    match q.emitted with
    | _ :: r => { q with emitted := r }
    | [] => { q with head := none, nextSeq := (q.nextSeq + 1) % 2 ^ 64 })
  s.mirrorWrite qi 1 (word (s.queue qi).nextSeq)

/-- The next packet of a queue when it is of a type. -/
def State.nextOf (s : State) (qi t : Nat) : Option Packet :=
  match s.nextPacket qi with
  | some p => if p.type = t then some p else none
  | none => none

/-- A wait for threshold `t` on timeline `tl` is satisfied (R359). -/
def tlReached (tl t : Word) : Bool := decide (0 ≤ sgn (tl - t))

/-- PACKET_TLWAIT. -/
def execPacketTlwait (qi : Nat) (s : State) : Out State :=
  match s.nextOf qi 3 with
  | none => idle s
  | some p => match s.queueOf (s.queue qi).ctx (field p.bytes 8 8) with
    | none => idle s
    | some k =>
      if tlReached (s.queue k).tl (word (field p.bytes 16 8)) then ok (s.started qi { p with done := true }) else idle s

/-- PACKET_TLSET: it completes at its start; its value is applied in order. -/
def execPacketTlset (qi : Nat) (s : State) : Out State :=
  match s.nextOf qi 4 with
  | none => idle s
  | some p => ok (s.started qi { p with done := true })

/-- PACKET_FENCE: every earlier packet has completed. -/
def execPacketFence (qi : Nat) (s : State) : Out State :=
  match s.nextOf qi 6 with
  | none => idle s
  | some p => if (s.queue qi).flight.all (·.done) then ok (s.started qi { p with done := true }) else idle s

/-- PACKET_NOP. -/
def execPacketNop (qi : Nat) (s : State) : Out State :=
  match s.nextOf qi 7 with
  | none => idle s
  | some p => ok (s.started qi { p with done := true })

/-- PACKET_COPY (R355). -/
def execPacketCopy (qi : Nat) (s : State) : Out State :=
  match s.nextOf qi 2 with
  | none => idle s
  | some p =>
    let n := s.copies.length
    let c : Copy := { Copy.device (s.queue qi).ctx qi with
      src := .mem (word (field p.bytes 8 8)) 0
      dst := .mem (word (field p.bytes 16 8)) 0
      rowBytes := field p.bytes 24 8
      target := .packet qi p.seq
      compl := p.compl }
    ok (({ s with copies := s.copies ++ [c] } : State).started qi { p with carrier := n })

/-! ### Job cards (R360, R361, spec/17 R336, R345) -/

/-- The share of points a rung keeps, as numerator and denominator (Table 17.2). -/
def keptShare (code k : Nat) : Nat × Nat :=
  match code with
  | 0 => (1, 1)
  | 1 => (1, 2)
  | 2 => (1, 2)
  | 3 => (1, 2)
  | 4 => (3, 4)
  | 5 => (1, 4)
  | 6 => (1, k)
  | _ => (8, 9)

/-- A rung's code and parameter are legal (R337). -/
def rungOk (x : Nat × Nat) : Bool := decide (x.1 ≤ 7) && (if x.1 = 6 then decide (2 ≤ x.2) && decide (x.2 ≤ 16) else x.2 == 0)

/-- The rungs of a ladder of which none keeps more than the one before. -/
def ladderFalls : List (Nat × Nat) → Bool
  | x :: y :: r =>
    let (a, b) := keptShare x.1 x.2
    let (c, d) := keptShare y.1 y.2
    decide (c * b ≤ a * d) && ladderFalls (y :: r)
  | _ => true

/-- An f32 field that is finite and 0 or more. -/
def tolOk (l : List Byte) (off : Nat) : Bool :=
  match decodeF 1 (field l off 4) with
  | .fin neg m _ => !neg || m == 0
  | _ => false

/-- A coverage record is well formed for a card's extents and gang size (R336). -/
def covOk (l : List Byte) (n : Vector Nat 4) (gang : Nat) : Bool :=
  let nr := field l 0 1
  let e := sewOf (field l 5 1) / 8
  let lv := field l 7 1
  decide (1 ≤ nr) && decide (nr ≤ 8) && decide (field l 1 1 ≤ field l 2 1) && decide (field l 2 1 < nr) && decide (1 ≤ field l 4 1)
    && decide (field l 5 1 ≤ 15) && decide (field l 6 1 ≤ 1) && decide (1 ≤ lv) && decide (lv ≤ 4)
    && ((List.range nr).map (covRung l)).all rungOk
    && (List.range 8).all (fun i => decide (i < nr) || covRung l i == (0, 0))
    && ladderFalls ((List.range nr).map (covRung l))
    && tolOk l 24 && tolOk l 28 && tolOk l 32 && !f64Less (covTol l 24) (covTol l 28)
    && decide (field l 42 2 * e ≤ field l 36 4) && field l 36 4 % e == 0
    && decide (1 ≤ field l 40 2) && decide (field l 40 2 ≤ 4096) && decide (1 ≤ field l 42 2) && decide (field l 42 2 ≤ 4096)
    && field l 44 4 == 0 && [48, 56, 64, 72].all (fun o => field l o 8 % e == 0) && field l 88 40 == 0
    && (List.finRange 4).all (fun i => decide (i.val < lv) || n[i] == 1) && gang == 1

/-- The fields of a card (Table 18.8), without those of its coverage record. -/
def cardForm (l : List Byte) : Bool :=
  [16, 20, 24, 28].all (fun o => decide (1 ≤ field l o 4)) && decide (1 ≤ field l 32 2) && decide (1 ≤ field l 34 1)
    && decide (field l 34 1 ≤ 4) && decide (field l 35 1 ≤ 3) && field l 36 4 == 0 && field l 56 8 == 0
    && (field l 48 8 != 0) == bit (field l 35 1) 1 && field l 48 8 % 64 == 0
    && field l 20 4 * field l 24 4 * field l 28 4 % field l 34 1 == 0

/-- The extents of a card. -/
def cardExtents (l : List Byte) : Vector Nat 4 := #v[field l 16 4, field l 20 4, field l 24 4, field l 28 4]

/-- The object and kernel whose entry an address is, among those loaded in a partition. -/
def State.entryOf (s : State) (part : Nat) (e : Word) : Option (Nat × Nat) :=
  (s.objs.zipIdx.filterMap (fun x => if x.1.part == part then (x.1.kernelAt e).map (fun k => (x.2, k)) else none)).head?

/-- The placement set of a card holds eligible clusters and one of them holds a gang (R361). -/
def State.cardPlaces (s : State) (part : Nat) (k : Kernel) (gang : Nat) (regions : Word) : Bool :=
  let cs := (s.partD part).clusters
  let set := regionClusters cs regions
  decide (regions.toNat < 2 ^ ((cs.length + 1) / 2)) && set.any (fun c => k.eligible (4 * c))
    && set.any (fun c => k.eligible (4 * c) && decide (gang ≤ (s.coresFor k c).length) && decide (k.waves ≤ coreSlots (4 * c))
      && decide (k.scratch ≤ coreScratch (4 * c)) && decide (k.accsets ≤ 4))

/-- A job at its start, from its packet and card. -/
def Job.make (qi : Nat) (p : Packet) (l cov : List Byte) (obj ker : Nat) : Job where
  queue := qi
  seq := p.seq
  obj := obj
  kernel := ker
  entry := word (field l 0 8)
  args := word (field l 8 8)
  n := cardExtents l
  cmin := field l 32 2
  gang := field l 34 1
  idem := bit (field l 35 1) 0
  regions := word (field l 40 8)
  dealt := 0
  returned := []
  launched := 0
  stopped := false
  cov := cov
  covRec := word (field l 48 8)
  skipCount := 0
  skipped := []
  chunks := []
  kept := []
  covError := false
  fabError := false
  miss := 0
  compared := false
  covEnded := false
  asked := []
  mapDue := []
  compl := p.compl
  recorded := false
  finished := false

/-- The JOB packet's card is refused: the packet has started, its job launches nothing and ends with STATUS 1, and the queue faults. -/
def State.refuseCard (s : State) (qi : Nat) (p : Packet) : State :=
  let ji := s.jobs.length
  let s := ({ s with jobs := s.jobs ++ [Job.make qi p [] [] 0 0] } : State).started qi { p with carrier := ji }
  s.queueFault qi 3 0 0 0 (word (field p.bytes 8 8)) 0 false

/-- An accepted card starts its job (R360, spec/14 R281). -/
def State.startJob (s : State) (qi : Nat) (p : Packet) (l cov : List Byte) (obj ker : Nat) : State :=
  let ji := s.jobs.length
  ({ s with jobs := s.jobs ++ [Job.make qi p l cov obj ker] } : State).started qi { p with carrier := ji }

/-- The card and its coverage record read (R360): both are read again from the start when a read had to wait. -/
def State.readCard (s : State) (qi : Nat) (p : Packet) (k : State → List Byte → List Byte → State) : Out State :=
  match s.queueRead qi (word (field p.bytes 8 8)) 64 true with
  | .waits => idle s
  | .later s' => ok s'
  | .bad s' _ => ok (s'.refuseCard qi p)
  | .got s l =>
    if !bit (field l 35 1) 1 || !cardForm l then ok (k s l [])
    else match s.queueRead qi (word (field l 48 8)) 128 true with
      | .waits => idle s
      | .later s' => ok s'
      | .bad s' _ => ok (s'.refuseCard qi p)
      | .got s' cov => ok (k s' l cov)

/-- PACKET_JOB (R360, R361). -/
def execPacketJob (qi : Nat) (s : State) : Out State :=
  match s.nextOf qi 1 with
  | none => idle s
  | some p =>
    if field p.bytes 8 8 % 64 ≠ 0 then ok (s.refuseCard qi p)
    else s.readCard qi p (fun s l cov =>
      let q := s.queue qi
      let part := (s.ctx q.ctx).part
      match s.entryOf part (word (field l 0 8)) with
      | none => s.refuseCard qi p
      | some (obj, ker) =>
        let k := (s.obj obj).kernel ker
        if cardForm l && s.cardPlaces part k (field l 34 1) (word (field l 40 8))
            && (cov.isEmpty || covOk cov (cardExtents l) (field l 34 1)) then
          s.startJob qi p l cov obj ker
        else s.refuseCard qi p)

/-! ### Completion (R358, R363) -/

/-- A completion record (Table 18.7). -/
def completion (status flags blocks skipped filled time : Nat) : List Byte :=
  leBytes 4 status ++ leBytes 4 flags ++ leBytes 8 blocks ++ leBytes 4 skipped ++ leBytes 4 filled ++ leBytes 8 time

/-- The packet that a job or copy carries out has completed. -/
def State.packetDone (s : State) (qi t carrier : Nat) : State :=
  s.updQueue qi (fun q => { q with
    flight := trimFlight (q.flight.map (fun p => if p.type == t && p.carrier == carrier then { p with done := true } else p)) })

/-- The record written, where there is one and the context still makes accesses; then `k`. -/
def State.recordThen (s : State) (qi : Nat) (compl : Word) (bytes : List Byte) (k : State → State) : Out State :=
  if compl = 0 || !(s.ctxOfQueue qi).opened then ok (k s)
  else match s.queueWrite qi compl bytes with
    | .waits => idle s
    | .later s' => ok s'
    | .bad s' a => ok (k (if (s'.queue qi).mode == .opened then s'.memoryFault qi a else s'))
    | .got s' _ => ok (k s')

/-- Every block of a job has ended, and nothing of it is still to launch. -/
def State.jobBlocksOver (s : State) (ji : Nat) : Bool :=
  s.blocks.all (fun b => b.job != some ji || !b.alive)

/-- No spawn bin holds a thread of the job. -/
def State.jobBinsOver (s : State) (ji : Nat) : Bool :=
  let mine (b : Bin) : Bool := (s.block b.block).job == some ji
  s.cores.all (fun c => !c.launches.any mine && !(c.bins.filterMap id).any mine)
    && s.ctxs.all (fun c => !c.bins.any (fun x => mine x.2))

/-- A job has ended (R358, R365): its last block has; and, unless a fault stopped it, every unit was dealt, every point launched, every infill
and comparison finished. -/
def State.jobOver (s : State) (ji : Nat) (j : Job) : Bool :=
  s.jobBlocksOver ji && (j.stopped ||
    (decide (j.n[0] ≤ j.dealt) && j.returned.isEmpty && s.cores.all (fun c => c.chunk.all (fun x => x.1 != ji))
      && s.ctxs.all (fun c => c.points.all (fun x => x.2.1 != ji))
      && !(s.queue j.queue).line.any (fun x => x.1 == ji) && s.jobBinsOver ji
      && j.skipped.all (fun x => x.step == 2) && j.mapDue.all (fun x => x.step == 2)))

/-- The bytes of an element. -/
def Job.elemBytes (j : Job) : Nat := sewOf (field j.cov 5 1) / 8

/-- The addresses of a point's tile, byte by byte, rows first (spec/17 R336). -/
def Job.tile (j : Job) (p : Nat) : List Word :=
  let (q, r, c) := j.coords p
  let base := word (field j.cov 48 8) + word q * word (field j.cov 72 8) + word r * word (field j.cov 56 8) + word c * word (field j.cov 64 8)
  rowAddrs base (word (field j.cov 36 4)) (field j.cov 40 2) (field j.cov 42 2 * j.elemBytes)

/-- A byte that a block of a job has stored. -/
def State.jobWrote (s : State) (ji : Nat) (a : Word) : Bool :=
  s.blocks.any (fun b => b.job == some ji && b.wrote.any (fun x => decide ((a - x.1).toNat < x.2)))

/-- The bytes that end unpredictable in a coverage launch: those that tiles of two points share (spec/17 R336), and those of an infilled tile that a block of
the job stored (spec/17 R342). -/
def State.racedBytes (s : State) (ji : Nat) (j : Job) : List Word :=
  let tiles := (j.kept ++ j.skipped.map (·.point)).map (fun p => (p, j.tile p))
  let infilled (p : Nat) : Bool := j.skipped.any (fun x => x.point == p && x.stat == 1)
  tiles.flatMap (fun t => t.2.filter (fun a =>
    tiles.any (fun u => u.1 != t.1 && u.2.contains a) || (infilled t.1 && s.jobWrote ji a)))

/-- They take free values when the job ends, before its completion record. -/
def State.raceTiles (s : State) (ji : Nat) (j : Job) : State :=
  (s.racedBytes ji j).zipIdx.foldl (fun s x =>
    match s.cplace (Copy.device (s.queue j.queue).ctx j.queue) false .write x.1 with
    | .at key => (s.spoil key 1).writeBytes key [Config.freeByte (s.tick + 2 ^ 120 + x.2)]
    | _ => s) s

/-- JOB_COMPLETE: the end-of-job update, the record, then the packet's completion. -/
def execJobComplete (ji : Nat) (s : State) : Out State :=
  match s.job? ji with
  | none => idle s
  | some j =>
    if j.finished || !s.jobOver ji j then idle s
    else
      let s := if j.cov.isEmpty || j.covEnded then s else s.raceTiles ji j
      let s := if j.cov.isEmpty || j.stopped || j.covEnded then s else s.closure ji
      let s := s.updJob ji (fun j => { j with covEnded := true })
      let status := if j.stopped then 1 else if j.fabError then 2 else 0
      let filled := (j.skipped.filter (fun x => x.stat == 1)).length
      let finish (s : State) : State := (s.updJob ji (fun j => { j with recorded := true, finished := true })).packetDone j.queue 1 ji
      if j.recorded then ok (finish s)
      else s.recordThen j.queue j.compl (completion status (b2n j.covError) j.launched j.skipped.length filled s.time.toNat) finish

/-- COPY_PACKET_COMPLETE (R355, R358): the bytes move, then the record is written. -/
def execCopyPacketComplete (n : Nat) (s : State) : Out State :=
  match s.copies[n]? with
  | none => idle s
  | some c =>
    if c.block.isSome || c.finished || c.fault.isSome then idle s
    else
      let record (s : State) (err : Bool) : Out State :=
        s.recordThen c.queue c.compl (completion (if c.reissueError || c.cancelled then 1 else if err then 2 else 0) 0 0 0 0 s.time.toNat)
          (fun s => (s.updCopy n (fun c => { c with finished := true })).packetDone c.queue 2 n)
      if c.cancelled then record s true
      else match c.moved with
        | some (err, _) => record s err
        | none => match s.moveCopy n c with
          | .waits => idle s
          | .later s' => ok s'
          | .done s' err pois => record (s'.updCopy n (fun c => { c with moved := some (err, pois) })) err

/-! ### Timelines (R359) -/

/-- The first signalling entry that is not applied. -/
def firstSignal : List Packet → Option Packet
  | [] => none
  | p :: r => if p.sig.isSome && !p.applied then some p else firstSignal r

/-- The first such entry marked as applied. -/
def applyFirst : List Packet → List Packet
  | [] => []
  | p :: r => if p.sig.isSome && !p.applied then { p with applied := true } :: r else p :: applyFirst r

/-- TIMELINE_SIGNAL: the oldest unapplied signal, once its packet has completed and the timeline's mirror holds the signal before it (R354). -/
def execTimelineSignal (qi : Nat) (s : State) : Out State :=
  let q := s.queue qi
  if q.mode != .opened then idle s
  else match firstSignal q.flight with
    | none => idle s
    | some p =>
      if !p.done || q.mirror.any (fun x => x.1 == 0) then idle s
      else
        let v := p.sig.getD 0
        let tl := if 0 < sgn (v - q.tl) then v else q.tl
        ok ((s.updQueue qi (fun q => { q with tl := tl, flight := trimFlight (applyFirst q.flight) })).mirrorWrite qi 0 tl)

/-! ### The host's answers, clearing, services (R354, R364, R365) -/

/-- The JOB packet whose card or record was being read: the one to start next, whatever write of the mirror area waits. -/
def State.cardWaiting (s : State) (qi : Nat) : Option Packet :=
  let q := s.queue qi
  if q.mode != .opened then none
  else (q.emitted.head?.or q.head).filter (fun p => p.type == 1)

/-- QUEUE_MEMORY_FAULT_ANSWER: resolved, the access is made again; declined, the card is refused or the queue faults. A completion record whose
write was declined is not written. -/
def execQueueMemoryFaultAnswer (qi : Nat) (resolved : Bool) (s : State) : Out State :=
  match (s.queue qi).memFault with
  | none => idle s
  | some (a, write, card) =>
    if s.priWaits (s.ctx (s.queue qi).ctx) a then idle s else
    let s := (s.priAnswered (s.ctx (s.queue qi).ctx) a).updQueue qi (fun q => { q with memFault := none, retrySince := s.time.toNat })
    if resolved then ok (s.resumeMirror qi)
    else if card then
      match s.cardWaiting qi with
      | some p => ok (s.refuseCard qi p)
      | none => ok (s.resumeMirror qi)
    else
      let covers (c : Word) : Bool := write && decide (c ≤ a) && decide (a - c < 32)
      let s := { s with
        jobs := s.jobs.map (fun (j : Job) => if j.queue == qi && covers j.compl then { j with recorded := true } else j)
        copies := s.copies.map (fun (c : Copy) => if c.queue == qi && c.block.isNone && covers c.compl then { c with compl := 0 } else c) }
      if (s.queue qi).mode == .opened then ok (s.memoryFault qi a) else ok (s.resumeMirror qi)

/-- SERVICE_POST (R364): fewer than 32 services of the queue are outstanding. -/
def execServicePost (wi : Nat) (s : State) : Out State :=
  match s.waves[wi]? with
  | none => idle s
  | some w => match w.sysc with
    | some (n, none) =>
      let qi := (s.block w.block).queue
      let q := s.queue qi
      if 32 ≤ q.outstanding.length || w.ended then idle s
      else
        let k := q.services
        let l := leBytes 8 k ++ leBytes 4 n ++ leBytes 4 0 ++ leBytes 8 (s.who w)
          ++ ([1, 2, 3, 4, 5, 6].flatMap (fun (i : Reg) => leBytes 8 (w.rd i).toNat))
        match s.queueWrite qi (q.svc + word (128 * (k % 32))) l with
        | .waits => idle s
        | .later s' => ok s'
        | .bad s' a => ok (if q.mode == .opened then s'.memoryFault qi a else s')
        | .got s' _ =>
          let s := s'.updQueue qi (fun q => { q with services := k + 1, outstanding := q.outstanding ++ [(k, wi)] })
          let s := s.updPart (s.ctx q.ctx).part (fun p => { p with msix := insertNat 1 p.msix })
          ok (s.updWave wi (fun w => { w with sysc := some (n, some k) }))
    | _ => idle s

/-- SERVICE_DOORBELL (R364): the wave goes on with the s1 and s2 that the runtime wrote, both full. -/
def execServiceDoorbell (qi : Nat) (k : Word) (s : State) : Out State :=
  let q := s.queue qi
  match q.outstanding.find? (fun x => x.1 == k.toNat) with
  | none => idle s
  | some (_, wi) =>
    match s.queueRead qi (q.svc + word (128 * (k.toNat % 32) + 72)) 16 false with
    | .waits => idle s
    | .later s' => ok s'
    | .bad s' a => ok (if q.mode == .opened then s'.memoryFault qi a else s')
    | .got s' l =>
      let s := s'.updQueue qi (fun q => { q with outstanding := q.outstanding.filter (fun x => x.1 != k.toNat) })
      ok (s.updWave wi (fun w =>
        let w := (w.wr 1 (word (field l 0 8))).wr 2 (word (field l 8 8))
        { w with sysc := none, sFull := w.sFull ||| 6#32 }))

/-- What a queue's clearing discards (R365): every resident block of its jobs, with their bins and triggers. -/
def State.discardQueue (s : State) (qi : Nat) : State :=
  let l := (s.blocks.zipIdx.filter (fun x => x.1.queue == qi && x.1.alive)).map (·.2)
  let s := l.foldl (fun s bi => s.discardBlock bi) s
  let mine (bi : Nat) : Bool := (s.block bi).queue == qi
  let s := { s with
    gangs := s.gangs.map (fun (g : Gang) => if g.blocks.any mine then { g with released := true } else g)
    cores := s.cores.map (fun (c : CoreSt) => { c with
      bins := c.bins.map (fun (o : Option Bin) => match o with | some b => if mine b.block then none else some b | none => none)
      launches := c.launches.filter (fun (b : Bin) => !mine b.block)
      triggers := c.triggers.filter (fun (t : Trigger) => !mine t.block) })
    ctxs := s.ctxs.map (fun (c : Ctx) => { c with bins := c.bins.filter (fun x => !mine x.2.block) })
    runs := s.runs.map (fun (r : PlumbRun) => if r.queue == qi then { r with finished := true } else r) }
  s.softDone (s.queue qi).ctx

/-- A fault stopped the job with a number before it had completed. -/
def State.jobStopped (s : State) (ji : Nat) : Bool := match s.job? ji with | some j => j.stopped | none => false

/-- The packets in flight that a clearing keeps (R365): jobs, those that were in flight at the fault without their signals, copies and the values of TLSET and
WRTL. -/
def State.keptFlight (s : State) (l : List Packet) : List Packet :=
  trimFlight (l.filterMap (fun p => if p.type = 1 then some (if s.jobStopped p.carrier then { p with sig := none } else p)
    else if p.type = 2 || p.type = 4 then some p else none))

/-- A read of the queue that waits for the host is given up. -/
def State.dropRead (s : State) (qi : Nat) : State :=
  match (s.queue qi).memFault with
  | some (a, false, _) => (s.priAnswered (s.ctx (s.queue qi).ctx) a).updQueue qi (fun q => { q with memFault := none })
  | _ => s

/-- QUEUE_CLEAR (R365): the queue opens again at the given sequence number; its timeline stays, and so do the writes it has due. A context that was reset runs again once none of
its queues holds the forced-reset fault (spec/14 Table 14.3). -/
def execQueueClear (qi : Nat) (next : Word) (s : State) : Out State :=
  let q := s.queue qi
  if q.mode != .faulted || q.deleted then idle s
  else
    let s := (s.discardQueue qi).dropRead qi
    let s := s.updQueue qi (fun q => { q with
      mode := .opened
      fault := none
      nextSeq := next.toNat
      retries := 0
      head := none
      emitted := []
      flight := s.keptFlight q.flight
      asks := q.asks.filter (fun x => x.2.1)
      outstanding := [] })
    let left := s.queues.any (fun x => x.ctx == q.ctx && (match x.fault with | some (c, _) => c == 6 | none => false))
    let s := if (s.ctx q.ctx).st == .reset && !left then s.updCtx q.ctx (fun c => { c with st := .running }) else s
    ok (s.mirrorWrite qi 1 next)

end Sys2Proof.Machine
end

