-- ==== Sys2Proof/Machine/Plumb.lean ====
section
/-! DEFINITION. Plumb programs: the verifier, PLUMB packets, and the 23 plumb operations (spec/18 R366 to R370). The acting run is `State.cur.run`. -/

namespace Sys2Proof.Machine

/-! ### The verifier (R369) -/

/-- The operations of a program with their word indices, none where a word is no operation. -/
def plumbParse : Nat → Nat → List (BitVec 16) → Option (List (Nat × Instr))
  | 0, _, _ => none
  | _ + 1, _, [] => some []
  | fuel + 1, i, w :: r =>
    match decodePlumb (w :: r) with
    | none => none
    | some (.plumbLoopn n l) => (plumbParse fuel (i + 2) (r.drop 1)).map ((i, .plumbLoopn n l) :: ·)
    | some x => (plumbParse fuel (i + 1) r).map ((i, x) :: ·)

/-- The bodies of the LOOPNs: first word and length. -/
def plumbBodies : List (Nat × Instr) → List (Nat × Nat)
  | [] => []
  | (i, .plumbLoopn _ l) :: r => (i + 2, l.toNat) :: plumbBodies r
  | _ :: r => plumbBodies r

/-- A word lies in a body. -/
def inBody (b : Nat × Nat) (i : Nat) : Bool := decide (b.1 ≤ i) && decide (i < b.1 + b.2)

/-- An operation at index `i` passes the verifier, in a program of `n` words. -/
def plumbOpOk (l : List (Nat × Instr)) (bodies : List (Nat × Nat)) (n : Nat) : Nat × Instr → Bool
  | (i, .plumbBrf _ off) =>
    let t := i + 1 + off.toNat
    decide (t < n) && l.any (fun x => x.1 == t)
      && (match bodies.find? (fun b => inBody b i) with
        | some b => inBody b t
        | none => bodies.all (fun b => !inBody b t))
  | (i, .plumbLoopn _ len) => decide (i + 2 + len.toNat ≤ n) && bodies.all (fun b => !inBody b i && !inBody b (i + 1))
  | _ => true

/-- The last operation is END. -/
def endsInEnd : List (Nat × Instr) → Bool
  | [] => false
  | [(_, .plumbEnd)] => true
  | _ :: r => endsInEnd r

/-- The verifier accepts a program. -/
def plumbOk (ws : List (BitVec 16)) : Bool :=
  decide (1 ≤ ws.length) && decide (ws.length ≤ 1024) &&
    (match plumbParse (ws.length + 1) 0 ws with
    | none => false
    | some l => endsInEnd l && l.all (plumbOpOk l (plumbBodies l) ws.length))

/-- PLUMB_PROGRAM_LOAD (R369). -/
def execPlumbProgramLoad (prog : Nat) (ws : List (BitVec 16)) (s : State) : Out State :=
  if 256 ≤ prog || !plumbOk ws then idle s
  else ok { s with trust := { s.trust with progs := (prog, ws) :: s.trust.progs.filter (fun x => x.1 != prog) } }

/-! ### Runs (R366, R370) -/

/-- The die that holds a queue's ring: that of its first byte, die 0 for one outside the device. -/
def State.ringDie (s : State) (qi : Nat) : Nat :=
  match s.cplace (Copy.device (s.queue qi).ctx qi) false .read (s.queue qi).ring with
  | .at key => if key / 2 ^ 128 ≤ 1 then key / 2 ^ 64 % 2 ^ 64 / 32 else 0
  | _ => 0

/-- PACKET_PLUMB: the queue's program starts with ARG0 to ARG5, the sequence number and 0. A PLUMB packet on a queue without a program is
malformed. -/
def execPacketPlumb (qi : Nat) (s : State) : Out State :=
  match s.nextOf qi 5 with
  | none => idle s
  | some p =>
    match s.trust.progs.find? (fun x => x.1 == (s.queue qi).prog) with
    | none => ok (s.queueFault qi 2 0 0 0 (word p.seq) 0 false)
    | some (_, ws) =>
      let arg (i : Nat) : Word := word (field p.bytes (8 + 8 * i) 8)
      let r : PlumbRun := ⟨qi, s.ringDie qi, p.seq, ws, 0, #v[arg 0, arg 1, arg 2, arg 3, arg 4, arg 5, word p.seq, 0], 0, [], none, false⟩
      let n := s.runs.length
      let s := s.started qi { p with carrier := n }
      ok { s with runs := s.runs ++ [r] }

/-- A plumb register. -/
def PlumbRun.rd (r : PlumbRun) (n : BitVec 3) : Word := r.p[n.toNat]'(n.isLt)

/-- A plumb register written. -/
def PlumbRun.wr (r : PlumbRun) (n : BitVec 3) (v : Word) : PlumbRun := { r with p := r.p.set n.toNat v n.isLt }

/-- What an operation did. -/
inductive PRes where
  /-- It is done; the run goes on at a word index. -/
  | next (s : State) (r : PlumbRun) (pc : Nat)
  | wait
  | waitIn (s : State)
  /-- A plumb fault of a subcode. -/
  | fault (sub : Nat)
  /-- A window access that cannot be made, at an address: fault code 10. -/
  | memory (s : State) (a : Word)
  /-- The program ends. -/
  | fin

/-- The word index after an operation, at the end of a loop body the pass count. -/
def PlumbRun.goTo (r : PlumbRun) (pc : Nat) : PlumbRun :=
  match r.loop with
  | none => { r with pc := pc }
  | some (start, len, left) =>
    if pc = start + len then
      if left ≤ 1 then { r with pc := pc, loop := none } else { r with pc := start, loop := some (start, len, left - 1) }
    else { r with pc := pc }

/-- One run changed. -/
def State.updRun (s : State) (n : Nat) (f : PlumbRun → PlumbRun) : State := { s with runs := updAt s.runs n f }

/-- The plumb fault (R370): the run ends and its emitted packets do not start. -/
def State.plumbFault (s : State) (n : Nat) (r : PlumbRun) (sub : Nat) : State :=
  (s.updRun n (fun r => { r with finished := true, emits := [] })).queueFault r.queue 7 0 sub 0 (word r.pc) 0 false

/-- The program has ended: its packets are next to start, and the PLUMB packet has completed (R357). -/
def State.plumbEnd (s : State) (n : Nat) (r : PlumbRun) : State :=
  let s := s.updRun n (fun r => { r with finished := true })
  (s.updQueue r.queue (fun q => { q with emitted := r.emits.map (Packet.make r.seq) })).packetDone r.queue 5 n

/-- An operation of the acting run: the 513th step faults. -/
def State.plumb (s : State) (k : PlumbRun → PRes) : Out State :=
  match s.runs[s.cur.run]? with
  | none => idle s
  | some r =>
    if r.finished || (s.queue r.queue).mode != .opened then idle s
    else if 512 ≤ r.steps then ok (s.plumbFault s.cur.run r 1)
    else match k r with
      | .next s' r' pc => ok (s'.updRun s.cur.run (fun _ => { r'.goTo pc with steps := r.steps + 1 }))
      | .wait => idle s
      | .waitIn s' => ok s'
      | .fault sub => ok (s.plumbFault s.cur.run r sub)
      | .memory s' a => ok ((s'.updRun s.cur.run (fun r => { r with finished := true, emits := [] })).memoryFault r.queue a)
      | .fin => ok (s.plumbEnd s.cur.run r)

/-- An operation that writes one register. -/
def State.plumbSet (s : State) (d : BitVec 3) (f : PlumbRun → Word) : Out State :=
  s.plumb (fun r => .next s (r.wr d (f r)) (r.pc + 1))

/-- The address of a window access of `n` bytes aligned to `al`, none outside the window or misaligned (R370). -/
def State.windowAddr (s : State) (r : PlumbRun) (off : Word) (n al : Nat) : Option Word :=
  let q := s.queue r.queue
  if off.toNat % al = 0 && decide (off.toNat + n ≤ q.pwinsz) then some (q.pwin + off) else none

/-- The timeline's queue that a register names, in the context of the run (R370). -/
def State.plumbQueue (s : State) (r : PlumbRun) (a : BitVec 3) : Option Nat := s.queueOf (s.queue r.queue).ctx (r.rd a).toNat

/-- LDI. -/
def execPlumbLdi (d : BitVec 3) (imm : BitVec 8) (s : State) : Out State := s.plumbSet d (fun _ => imm.signExtend 64)
/-- MOV. -/
def execPlumbMov (d a : BitVec 3) (s : State) : Out State := s.plumbSet d (fun r => r.rd a)
/-- ADD. -/
def execPlumbAdd (d a b : BitVec 3) (s : State) : Out State := s.plumbSet d (fun r => r.rd a + r.rd b)
/-- SUB. -/
def execPlumbSub (d a b : BitVec 3) (s : State) : Out State := s.plumbSet d (fun r => r.rd a - r.rd b)
/-- AND. -/
def execPlumbAnd (d a b : BitVec 3) (s : State) : Out State := s.plumbSet d (fun r => r.rd a &&& r.rd b)
/-- OR. -/
def execPlumbOr (d a b : BitVec 3) (s : State) : Out State := s.plumbSet d (fun r => r.rd a ||| r.rd b)
/-- XOR. -/
def execPlumbXor (d a b : BitVec 3) (s : State) : Out State := s.plumbSet d (fun r => r.rd a ^^^ r.rd b)
/-- SHL: shift amounts are taken mod 64. -/
def execPlumbShl (d a b : BitVec 3) (s : State) : Out State := s.plumbSet d (fun r => r.rd a <<< ((r.rd b).toNat % 64))
/-- SHR: shift amounts are taken mod 64. -/
def execPlumbShr (d a b : BitVec 3) (s : State) : Out State := s.plumbSet d (fun r => r.rd a >>> ((r.rd b).toNat % 64))
/-- CMP.EQ. -/
def execPlumbCmpEq (d a b : BitVec 3) (s : State) : Out State := s.plumbSet d (fun r => if r.rd a = r.rd b then 1 else 0)
/-- CMP.NE. -/
def execPlumbCmpNe (d a b : BitVec 3) (s : State) : Out State := s.plumbSet d (fun r => if r.rd a = r.rd b then 0 else 1)
/-- CMP.LTN. -/
def execPlumbCmpLtn (d a b : BitVec 3) (s : State) : Out State := s.plumbSet d (fun r => if r.rd a < r.rd b then 1 else 0)
/-- CMP.LT. -/
def execPlumbCmpLt (d a b : BitVec 3) (s : State) : Out State := s.plumbSet d (fun r => if sgn (r.rd a) < sgn (r.rd b) then 1 else 0)
/-- SEL. -/
def execPlumbSel (d a b : BitVec 3) (s : State) : Out State := s.plumbSet d (fun r => if r.rd d ≠ 0 then r.rd a else r.rd b)

/-- BRF. -/
def execPlumbBrf (a : BitVec 3) (off : BitVec 8) (s : State) : Out State :=
  s.plumb (fun r => .next s r (if r.rd a = 0 then r.pc + 1 + off.toNat else r.pc + 1))

/-- LOOPN: the L words after the pair run n + 1 times, where the field holds n. -/
def execPlumbLoopn (n : BitVec 8) (l : BitVec 16) (s : State) : Out State :=
  s.plumb (fun r =>
    if l = 0 then .next s r (r.pc + 2)
    else .next s { r with loop := some (r.pc + 2, l.toNat, n.toNat + 1) } (r.pc + 2))

/-- RDTL. -/
def execPlumbRdtl (d a : BitVec 3) (s : State) : Out State :=
  s.plumb (fun r => match s.plumbQueue r a with
    | none => .fault 4
    | some k => .next s (r.wr d (s.queue k).tl) (r.pc + 1))

/-- WRTL: a TLSET of the run's own queue, applied in sequence order (R359). -/
def execPlumbWrtl (a : BitVec 3) (s : State) : Out State :=
  s.plumb (fun r => .next (s.updQueue r.queue (fun q => { q with
    flight := q.flight ++ [⟨r.seq, [], 4, some (r.rd a), 0, 0, true, false⟩] })) r (r.pc + 1))

/-- WAITTL: the word is executed when its condition holds. -/
def execPlumbWaittl (a b : BitVec 3) (s : State) : Out State :=
  s.plumb (fun r => match s.plumbQueue r a with
    | none => .fault 4
    | some k => if tlReached (s.queue k).tl (r.rd b) then .next s r (r.pc + 1) else .wait)

/-- RDM. -/
def execPlumbRdm (d a : BitVec 3) (off : BitVec 5) (s : State) : Out State :=
  s.plumb (fun r => match s.windowAddr r (r.rd a + word (8 * off.toNat)) 8 8 with
    | none => .fault 2
    | some x => match s.queueRead r.queue x 8 false with
      | .waits => .wait
      | .later s' => .waitIn s'
      | .bad s' f => .memory s' f
      | .got s' l => .next s' (r.wr d (word (leValue l))) (r.pc + 1))

/-- WRM. -/
def execPlumbWrm (d a : BitVec 3) (off : BitVec 5) (s : State) : Out State :=
  s.plumb (fun r => match s.windowAddr r (r.rd a + word (8 * off.toNat)) 8 8 with
    | none => .fault 2
    | some x => match s.queueWrite r.queue x (leBytes 8 (r.rd d).toNat) with
      | .waits => .wait
      | .later s' => .waitIn s'
      | .bad s' f => .memory s' f
      | .got s' _ => .next s' r (r.pc + 1))

/-- EMIT (R368): at most 8 a run; no TLWAIT, no PLUMB, and nothing malformed. -/
def execPlumbEmit (a : BitVec 3) (s : State) : Out State :=
  s.plumb (fun r => match s.windowAddr r (r.rd a) 64 64 with
    | none => .fault 2
    | some x =>
      if 8 ≤ r.emits.length then .fault 3
      else match s.queueRead r.queue x 64 false with
        | .waits => .wait
        | .later s' => .waitIn s'
        | .bad s' f => .memory s' f
        | .got s' l =>
          let t := field l 0 8 / 2 ^ 16 % 16
          if !s.packetOk (s.queue r.queue).ctx l || t = 3 || t = 5 then .fault 3
          else .next s' { r with emits := r.emits ++ [l] } (r.pc + 1))

/-- END. -/
def execPlumbEnd (s : State) : Out State := s.plumb (fun _ => .fin)

end Sys2Proof.Machine
end

