-- ==== Sys2Proof/Machine/Trust.lean ====
section
/-! DEFINITION. The datum firmware: loading and measuring code objects (spec/01 R33 to R39), the SPDM responder, measurements and key slots, teardown
and TDISP, and the host link (spec/18 R350, R362, R371 to R378). -/

namespace Sys2Proof.Machine

/-! ### Code objects (spec/01 R33 to R39) -/

/-- A section of an object: type, alignment, offset, bytes. -/
structure Section where
  type : Nat
  align : Nat
  off : Nat
  size : Nat
  deriving DecidableEq, Repr

/-- Entry `i` of the section table. -/
def sectionAt (l : List Byte) (table i : Nat) : Section :=
  let b := table + 32 * i
  ⟨field l b 4, field l (b + 4) 4, field l (b + 8) 8, field l (b + 16) 8⟩

/-- The sections of an object. -/
def sectionsOf (l : List Byte) : List Section := (List.range (field l 12 4)).map (sectionAt l (field l 16 8))

/-- The bytes of a section. -/
def Section.bytes (x : Section) (l : List Byte) : List Byte := (l.drop x.off).take x.size

/-- The only section of a type. -/
def sectionOf (l : List Byte) (t : Nat) : Option Section := (sectionsOf l).find? (fun x => x.type == t)

/-- The bytes of the section of a type, none where there is no such section. -/
def bytesOf (l : List Byte) (t : Nat) : List Byte := ((sectionOf l t).map (fun x => x.bytes l)).getD []

/-- A power of two below 2^32. -/
def pow2 (n : Nat) : Bool := (List.range 32).any (fun i => 2 ^ i == n)

/-- The header of Table 1.8 is legal. -/
def headerOk (l : List Byte) : Bool :=
  decide (64 ≤ l.length) && field l 0 4 == 0x43594C7F && field l 4 2 == 1 && decide (field l 6 2 < 4)
    && (field l 8 2 == 4 || field l 8 2 == 3) && field l 10 2 == 0 && decide (3 ≤ field l 12 4) && decide (field l 12 4 ≤ 16)
    && field l 16 8 % 8 == 0 && decide (64 ≤ field l 16 8) && decide (field l 16 8 + 32 * field l 12 4 ≤ l.length)
    && field l 24 8 == l.length && field l 32 32 == 0

/-- A section entry is legal (Table 1.9) and lies after the table and inside the object. -/
def Section.ok (x : Section) (size first : Nat) : Bool :=
  decide (1 ≤ x.type) && decide (x.type ≤ 6) && pow2 x.align
    && (x.type != 1 || (decide (4 ≤ x.align) && x.size % 4 == 0))
    && ((x.type != 4 && x.type != 5 && x.type != 6) || decide (8 ≤ x.align))
    && x.off % x.align == 0 && decide (first ≤ x.off) && decide (x.off + x.size ≤ size)

/-- Two sections share a byte. -/
def Section.meets (x y : Section) : Bool := decide (x.off < y.off + y.size) && decide (y.off < x.off + x.size) && x.size != 0 && y.size != 0

/-- No two sections overlap. -/
def apart : List Section → Bool
  | [] => true
  | x :: xs => xs.all (fun y => !x.meets y) && apart xs

/-- The section table is legal, with the sections R34 asks for. -/
def sectionsOk (l : List Byte) : Bool :=
  let t := sectionsOf l
  let count (n : Nat) : Nat := (t.filter (fun x => x.type == n)).length
  t.all (fun x => x.ok l.length (field l 16 8 + 32 * field l 12 4)) && apart t
    && (List.range (field l 12 4)).all (fun i => field l (field l 16 8 + 32 * i + 24) 8 == 0)
    && count 1 == 1 && count 4 == 1 && count 6 == 1 && decide (count 2 ≤ 1) && decide (count 3 ≤ 1) && decide (count 5 ≤ 1)
    && bit (field l 6 2) 0 == (count 3 == 1)

/-- A kernel record at the head of `m` is legal (Table 1.10), for a .text of `text` bytes and a name area of `names`. -/
def recordOk (m : List Byte) (text names : Nat) : Bool :=
  let n := field m 7 1
  decide (field m 0 4 ≤ m.length) && field m 0 4 == 24 + 8 * n + 8 * field m 12 2
    && decide (1 ≤ field m 4 1) && decide (field m 4 1 ≤ 8) && decide (field m 5 1 ≤ 4) && decide (field m 6 1 ≤ 1)
    && decide (1 ≤ n) && decide (n ≤ 16) && decide (field m 8 4 ≤ 786432) && decide (field m 12 2 ≤ 32)
    && field m 14 2 == 0 && field m 20 4 == 0 && decide (field m 16 4 < names)
    && (List.range n).all (fun i => field m (24 + 8 * i) 4 % 4 == 0 && decide (field m (24 + 8 * i) 4 < text)
        && decide (field m (28 + 8 * i) 4 < names))

/-- The kernel records at the head of `m`, and what follows them. -/
def records : Nat → List Byte → List (List Byte) × List Byte
  | 0, m => ([], m)
  | n + 1, m =>
    let r := records n (m.drop (field m 0 4))
    (m.take (field m 0 4) :: r.1, r.2)

/-- The kernel records of .meta, and the symbol list with the name area. -/
def metaParts (m : List Byte) : List (List Byte) × List Byte := records (field m 4 4) (m.drop 8)

/-- .meta is legal (R35). -/
def metaOk (m : List Byte) (text : Nat) : Bool :=
  decide (8 ≤ m.length) && field m 0 4 == 1 && decide (1 ≤ field m 4 4) && decide (field m 4 4 ≤ 64)
    && (let (rs, rest) := metaParts m
        let syms := field rest 0 4
        let names := rest.length - (4 + 16 * syms)
        decide (4 + 16 * syms ≤ rest.length)
          && (names == 0 || field rest (rest.length - 1) 1 == 0)
          && rs.all (fun r => recordOk r text names)
          && (List.range syms).all (fun i => decide (field rest (4 + 16 * i) 4 < names) && field rest (8 + 16 * i) 4 == 0))

/-- A kernel of a record, its entries loaded at `text`. -/
def kernelOf (r : List Byte) (text : Nat) : Kernel where
  waves := field r 4 1
  accsets := field r 5 1
  legacy := field r 6 1 == 1
  scratch := field r 8 4
  entries := (List.range (field r 7 1)).map (fun i => word (text + field r (24 + 8 * i) 4))

/-- Form 4 of li64 (R31): the value in four words. -/
def form4 (d : Reg) (v : Word) : List Byte :=
  let w (i : Instr) : List Byte := leBytes 4 ((encodeWord i).getD 0).toNat
  w (.li d (v.extractLsb' 63 1 |>.setWidth 21)) ++ w (.lih d (v.extractLsb' 42 21)) ++ w (.lih d (v.extractLsb' 21 21))
    ++ w (.lih d (v.extractLsb' 0 21))

/-- What a relocation of kind `k` puts at a place whose stored bytes are `old`, for a value (R37). -/
def relocated (k : Nat) (old : List Byte) (v : Word) : List Byte :=
  if k = 1 then form4 (BitVec.ofNat 5 (bits (field old 0 4) 25 21)) v else leBytes 8 v.toNat

/-- An entry of .rel is legal, and its place holds the value for load address 0. Its place and its target are in .text or .data (log entry 133,
DEDUCED). -/
def relOk (l e : List Byte) : Bool :=
  let k := field e 16 1
  let b := bytesOf l (field e 17 1)
  let n := if k = 1 then 16 else 8
  (k == 1 || k == 2) && field e 19 5 == 0
    && [field e 17 1, field e 18 1].all (fun t => (t == 1 || t == 2) && (sectionOf l t).isSome)
    && decide (field e 0 8 + n ≤ b.length)
    && (let old := (b.drop (field e 0 8)).take n
        old == relocated k old (word (field e 8 8)))

/-- The entries of .rel. -/
def rels (l : List Byte) : List (List Byte) := pieces 24 ((bytesOf l 5).length / 24) (bytesOf l 5)

/-- The relocations of a section of type `t` made, for the loaded bases. -/
def relocate (l : List Byte) (t text data : Nat) : List Byte :=
  (rels l).foldl (fun b e =>
    if field e 17 1 = t then
      let n := if field e 16 1 = 1 then 16 else 8
      let p := field e 0 8
      let v := word ((if field e 18 1 = 1 then text else data) + field e 8 8)
      b.take p ++ relocated (field e 16 1) ((b.drop p).take n) v ++ b.drop (p + n)
    else b) (bytesOf l t)

/-- The digest of an object: .text as stored, then .meta (R38). -/
def objDigest (l : List Byte) : BitVec 384 := sha384 (bytesOf l 1 ++ bytesOf l 4)

/-- The measurement record is well formed and its digest is the object's own. -/
def recordedOk (l : List Byte) : Bool :=
  let m := bytesOf l 6
  m.length == 64 && field m 0 4 == 1 && field m 4 4 == 0 && field m 56 8 == 0
    && decide (BitVec.ofNat 384 (beValue ((m.drop 8).take 48)) = objDigest l)

/-- The loader accepts the object (R39). -/
def objectOk (l : List Byte) : Bool :=
  headerOk l && sectionsOk l && metaOk (bytesOf l 4) (bytesOf l 1).length
    && (let rs := (metaParts (bytesOf l 4)).1
        bit (field l 6 2) 1 == rs.any (fun r => field r 6 1 == 1)
          && (field l 8 2 != 3 || rs.all (fun r => field r 6 1 == 1)))
    && (bytesOf l 5).length % 24 == 0 && (rels l).all (relOk l) && recordedOk l

/-- Where the bytes of a section go in a context, none where a page is not here. -/
def State.placeBytes (s : State) (c : Ctx) (base : Nat) (l : List Byte) : Option (List (Nat × CByte)) :=
  (l.zipIdx.map (fun x => (base + x.2, x.1))).foldr (fun x r => match r, s.walk c x.1 with
    | some t, some e => match s.leafPlace c x.1 e with
      | .here key _ => some ((key, ⟨x.2, 0⟩) :: t)
      | .away _ _ _ => none
    | _, _ => none) (some [])

/-- The alignment of a section, 1 where there is none. -/
def alignOf (l : List Byte) (t : Nat) : Nat := ((sectionOf l t).map (·.align)).getD 1

/-- CODE_OBJECT_LOAD: the object is checked, measured and placed, or refused with nothing placed. -/
def execCodeObjectLoad (o : ObjectLoad) (s : State) : Out State :=
  let c := s.ctx o.ctx
  let l := o.bytes
  if !c.opened || !objectOk l || o.textBase % alignOf l 1 ≠ 0 || o.dataBase % alignOf l 2 ≠ 0 then idle s
  else match s.placeBytes c o.textBase (relocate l 1 o.textBase o.dataBase), s.placeBytes c o.dataBase (relocate l 2 o.textBase o.dataBase) with
    | some t, some d =>
      let s := (s.land t).land d
      ok { s with objs := s.objs ++ [{
        part := c.part
        ctx := o.ctx
        text := word o.textBase
        data := word o.dataBase
        kernels := (metaParts (bytesOf l 4)).1.map (fun r => kernelOf r o.textBase)
        measure := objDigest l }] }
    | _, _ => idle s

/-! ### The SPDM responder (R373, R374) -/

/-- The responder toward a function's mailbox. -/
def State.spdm (s : State) (fn : Nat) : Spdm := assocGet Spdm.blank s.trust.spdm fn

/-- The responder's state toward a function's mailbox changed. -/
def State.updSpdm (s : State) (fn : Nat) (f : Spdm → Spdm) : State :=
  { s with trust := { s.trust with spdm := assocSet Spdm.blank s.trust.spdm fn (f (s.spdm fn)) } }

/-- The responder toward the mailbox through which the present message comes. -/
def State.mailbox (s : State) : Spdm := s.spdm s.cur.fn

/-- A request answered in its mailbox when `can` holds, with an ERROR reply otherwise; the request codes are those of SPDM. -/
def State.spdmReply (s : State) (can : Bool) (code : Nat) (f : Spdm → Spdm) : Out State :=
  ok (s.updSpdm s.cur.fn (fun x => if can then { f { x with payload := [] } with reply := code } else { x with reply := 255, payload := [] }))

/-- An ECDSA P-384 signature, whose value is the responder's secret: 96 free bytes. -/
def State.signature (s : State) : List Byte := (List.range 96).map (fun i => Config.freeByte (s.tick + i))

/-- The keys of a session, known to the responder and the requester alone: a free value. -/
def State.sessionKey (s : State) : BitVec 256 :=
  Config.freeWord s.tick ++ (Config.freeWord (s.tick + 1) ++ (Config.freeWord (s.tick + 2) ++ Config.freeWord (s.tick + 3)))

/-- A digest as its 48 bytes. -/
def digestBytes (d : BitVec 384) : List Byte := (leBytes 48 d.toNat).reverse

/-- GET_VERSION: the exchange starts again. -/
def execGetVersion (s : State) : Out State :=
  s.spdmReply true 0x84 (fun x => { x with version := true, caps := false, algs := false, session := 0, measured := none, key := none })

/-- GET_CAPABILITIES. -/
def execGetCapabilities (s : State) : Out State := s.spdmReply s.mailbox.version 0xE1 (fun x => { x with caps := true })

/-- NEGOTIATE_ALGORITHMS: the requester must offer ECDSA P-384, SHA-384, secp384r1 and AES-256-GCM. -/
def execNegotiateAlgorithms (offered : Bool) (s : State) : Out State :=
  s.spdmReply (s.mailbox.caps && offered) 0xE3 (fun x => { x with algs := true })

/-- GET_DIGESTS: those of the eight certificate slots. -/
def execGetDigests (s : State) : Out State :=
  s.spdmReply s.mailbox.algs 0x81 (fun x => { x with
    payload := (List.range 8).flatMap (fun i => digestBytes (sha384 (Config.certificate i))) })

/-- GET_CERTIFICATE of one of eight certificate slots. -/
def execGetCertificate (slot : Nat) (s : State) : Out State :=
  s.spdmReply (s.mailbox.algs && decide (slot < 8)) 0x82 (fun x => { x with payload := Config.certificate slot })

/-- CHALLENGE: the reply is signed. -/
def execChallenge (slot : Nat) (s : State) : Out State :=
  s.spdmReply (s.mailbox.algs && decide (slot < 8)) 0x83 (fun x => { x with
    payload := digestBytes (sha384 (Config.certificate slot)) ++ s.signature })

/-- The partition layout as block 2 lists it (R374): the device number (spec/22 R404), and the clusters, key slots and bindings (spec/22 R405) of each
partition. -/
def State.layout (s : State) : List Nat :=
  [b2n s.fabric.assigned, s.fabric.devid] ++ s.parts.flatMap (fun p => [p.id, p.clusters.length] ++ p.clusters ++ [p.keySlots.length] ++ p.keySlots
    ++ [p.bindings.length] ++ p.bindings.flatMap (fun b => [b.1, b.2]))

/-- A measurement block of a partition (R374): 1 the datum firmware, 2 the layout, 3 the field firmware, 16 to 79 its code objects in load order. -/
def State.measurement (s : State) (part block : Nat) : Option (BitVec 384) :=
  if block = 1 then some (sha384 (Config.datumFirmware s.trust.firmware))
  else if block = 2 then some (sha384 (Config.layoutBytes s.layout))
  else if block = 3 then some (sha384 Config.fieldFirmware)
  else if 16 ≤ block && block ≤ 79 then (((s.objs.filter (fun o => o.part == part))[block - 16]?).map (·.measure))
  else none

/-- GET_MEASUREMENTS: the reply is signed. -/
def execGetMeasurements (part block : Nat) (s : State) : Out State :=
  let m := s.measurement part block
  s.spdmReply (s.mailbox.algs && m.isSome) 0xE0 (fun x => { x with measured := m, payload := s.signature })

/-- KEY_EXCHANGE: the reply is signed; both sides derive the session's keys. -/
def execKeyExchange (s : State) : Out State :=
  s.spdmReply s.mailbox.algs 0xE4 (fun x => { x with session := 1, key := some s.sessionKey, payload := s.signature })

/-- FINISH: the session is established when the requester's proof verifies. -/
def execFinish (verified : Bool) (s : State) : Out State :=
  s.spdmReply (s.mailbox.session == 1 && verified) 0xE5 (fun x => { x with session := 2 })

/-- KEY_UPDATE, in a session: its keys change. -/
def execKeyUpdate (s : State) : Out State :=
  s.spdmReply (s.mailbox.session == 2) 0xE9 (fun x => { x with keyUpdates := x.keyUpdates + 1, key := some s.sessionKey })

/-- HEARTBEAT, in a session. -/
def execHeartbeat (s : State) : Out State := s.spdmReply (s.mailbox.session == 2) 0xE8 id

/-- END_SESSION: its keys go. -/
def execEndSession (s : State) : Out State :=
  s.spdmReply (s.mailbox.session == 2) 0xEC (fun x => { x with session := 0, key := none })

/-! ### Key slots (R375, R376) -/

/-- A key slot set or emptied. -/
def State.setKey (s : State) (n : Nat) (k : Option KeySlot) : State :=
  { s with trust := { s.trust with keys := updAt s.trust.keys n (fun _ => k) } }

/-- The slots of a list emptied: key and nonce base go. -/
def State.emptyKeys (s : State) (l : List Nat) : State := l.foldl (fun s n => s.setKey n none) s

/-- A key request answered with its status byte. -/
def State.keyReply (s : State) (status : Nat) : State :=
  ({ s with trust := { s.trust with keyStatus := some status } } : State).updSpdm s.cur.fn (fun x => { x with reply := 0xFE, payload := [BitVec.ofNat 8 status] })

/-- KEYINST: valid only inside a secure session; status 3 malformed, 1 slot not assigned to the partition, 2 occupied, 0 installed. The nonce base is a
number, little-endian as every field the device reads (spec/00 R9); measurement and key are strings of bytes. -/
def execKeyinst (secure : Bool) (l : List Byte) (s : State) : Out State :=
  let slot := field l 0 1
  let part := field l 1 1
  if !secure || s.mailbox.session ≠ 2 then s.spdmReply false 0 id
  else if l.length ≠ 112 || field l 2 6 ≠ 0 || field l 108 4 ≠ 0 then ok (s.keyReply 3)
  else if !(s.partD part).keySlots.contains slot then ok (s.keyReply 1)
  else if ((s.trust.keys[slot]?).getD none).isSome then ok (s.keyReply 2)
  else
    let be (off n : Nat) : Nat := beValue ((l.drop off).take n)
    ok ((s.setKey slot (some {
      model := word (field l 8 8)
      measure := BitVec.ofNat 384 (be 16 48)
      key := BitVec.ofNat 256 (be 64 32)
      nonce := BitVec.ofNat 96 (field l 96 12)
      part := part })).keyReply 0)

/-- KEYDEL: the slot is emptied; a slot of another partition is refused. -/
def execKeydel (secure : Bool) (slot part : Nat) (s : State) : Out State :=
  if !secure || s.mailbox.session ≠ 2 then s.spdmReply false 0 id
  else if !(s.partD part).keySlots.contains slot then ok (s.keyReply 1)
  else ok ((s.setKey slot none).keyReply 0)

/-- DATUM_FIRMWARE_UPDATE: every key slot empties. -/
def execDatumFirmwareUpdate (s : State) : Out State :=
  ok { s with trust := { s.trust with keys := s.trust.keys.map (fun _ => none), firmware := s.trust.firmware + 1 } }

/-! ### Teardown and TDISP (R377, R378) -/

/-- A context is torn down: its queues close with a code, its blocks are discarded, its plumb runs end and its outstanding answers are dropped. -/
def State.tear (s : State) (ci code : Nat) (value : Word) : State :=
  let s := (s.discardCtx ci).faultAll ci code value true
  let mine (q : Nat) : Bool := (s.queue q).ctx == ci
  let s := { s with
    runs := s.runs.map (fun (r : PlumbRun) => if mine r.queue then { r with finished := true } else r)
    queues := s.queues.map (fun (q : Queue) => if q.ctx == ci then { q with head := none, emitted := [], memFault := none, outstanding := [] } else q) }
  s.updCtx ci (fun c => { c with tearing := true, since := s.time.toNat, st := .reset })

/-- The open contexts with a property. -/
def State.ctxsWith (s : State) (p : Ctx → Bool) : List Nat := (List.range s.ctxs.length).filter (fun i => (s.ctx i).opened && !(s.ctx i).tearing && p (s.ctx i))

/-- PASID_TEARDOWN: code 8, with the PASID. -/
def execPasidTeardown (pasid : Nat) (s : State) : Out State :=
  match s.ctxsWith (fun c => c.pasid == pasid) with
  | [] => idle s
  | l => ok (l.foldl (fun s ci => s.tear ci 8 (word pasid)) s)

/-- The context of a wave by number. -/
def State.waveCtx (s : State) (wi : Nat) : Option Nat := (s.waves[wi]?).map (fun w => (s.block w.block).ctx)

/-- A request to another device is made for a context. -/
def State.outOf (s : State) (ci : Nat) (r : RemoteOut) : Bool :=
  match r.use with
  | .access wi | .look wi => s.waveCtx wi == some ci
  | .trace c => s.blocks.any (fun b => b.core == c && b.ctx == ci && b.resident)
  | .stream wi _ => s.waveCtx wi == some ci
  | .fabric _ b _ => (s.block b).ctx == ci
  | .copy n => match s.copies[n]? with
    | some c => c.ctx == ci
    | none => false
  | .queue q => (s.queue q).ctx == ci
  | .infill j _ => match s.job? j with
    | some j => (s.queue j.queue).ctx == ci
    | none => false

/-- The completion records that a context still owes: queue, address. -/
def State.owedRecords (s : State) (ci : Nat) : List (Nat × Word) :=
  (s.jobs.filterMap (fun j => if (s.queue j.queue).ctx == ci && !j.finished && !j.recorded && j.compl != 0 then some (j.queue, j.compl) else none))
    ++ s.copies.filterMap (fun c => if c.ctx == ci && c.block.isNone && !c.finished && c.compl != 0 then some (c.queue, c.compl) else none)

/-- One of them written with STATUS 1 (R363), where its page can be written at once. -/
def State.writeOwed (s : State) (x : Nat × Word) : State :=
  match s.queueWrite x.1 x.2 (completion 1 0 0 0 0 s.time.toNat) with
  | .got s' _ => s'
  | _ => s

/-- TEARDOWN_COMPLETE: nothing is outstanding and every record is written, or 50 µs have passed; nothing of the context goes on, a kind-3 record is
written and the context is gone. -/
def execTeardownComplete (ci : Nat) (s : State) : Out State :=
  let c := s.ctx ci
  let owed := s.owedRecords ci
  let due : Bool := (owed.isEmpty && s.fabric.out.all (fun r => r.answer.isSome || !s.outOf ci r)) || decide (c.since + 50000 ≤ s.time.toNat)
  if !c.tearing || !due then idle s
  else
    let mine (q : Nat) : Bool := (s.queue q).ctx == ci
    let s := owed.foldl State.writeOwed s
    let fab := { s.fabric with out := s.fabric.out.map (fun (r : RemoteOut) => if r.answer.isNone && s.outOf ci r then { r with answer := some ⟨[], [], some 0⟩ } else r) }
    let s := { s with
      jobs := s.jobs.map (fun (j : Job) => if mine j.queue then { j with finished := true } else j)
      copies := s.copies.map (fun (x : Copy) => if x.ctx == ci then { x with finished := true } else x)
      queues := s.queues.map (fun (q : Queue) => if q.ctx == ci then { q with mirror := [], asks := [], flight := [], memFault := none } else q)
      fabric := fab }
    let s := s.faultRecord c.part 3 0 0 0 ((Config.freeWord s.tick).toNat % 65536) 0 (Config.freeWord (s.tick + 1)) 0
    ok (s.updCtx ci (fun c => { c with opened := false, tearing := false }))

/-- TDI_STOP: every context of the partition is torn down with code 9 and its key slots empty. -/
def execTdiStop (p : Nat) (s : State) : Out State :=
  match s.part? p with
  | none => idle s
  | some q =>
    if !q.run then idle s
    else
      let s := (s.ctxsWith (fun c => c.part == p)).foldl (fun s ci => s.tear ci 9 (word p)) s
      ok ((s.emptyKeys q.keySlots).updPart p (fun q => { q with run := false }))

/-- TDI_ENTER_RUN. -/
def execTdiEnterRun (p : Nat) (s : State) : Out State :=
  if (s.part? p).isNone then idle s else ok (s.updPart p (fun q => { q with run := true }))

/-! ### The host link (R350, R362) -/

/-- FAULT_RING_SETUP by the partition's driver. -/
def execFaultRingSetup (p addr slots : Nat) (s : State) : Out State :=
  if (s.part? p).isNone || slots = 0 then idle s else ok (s.updPart p (fun q => { q with ring := some (addr, slots, 0) }))

/-- HOST_LINK_TRAIN: a speed of PCIe up to 64 GT/s (2 stands for 2.5) and a width. -/
def execHostLinkTrain (speed width : Nat) (s : State) : Out State :=
  if [64, 32, 16, 8, 5, 2].contains speed && [16, 8, 4, 1].contains width then
    ok { s with host := { s.host with speed := speed, width := width } }
  else idle s

/-- IDE_KM_REQUEST: the keys of link IDE (stream 0) or of one of 32 selective streams are programmed, or a programmed set is switched to. -/
def execIdeKmRequest (stream : Nat) (switch : Bool) (s : State) : Out State :=
  if 32 < stream then idle s
  else if switch then
    if s.host.ideReady.contains stream then
      ok { s with host := { s.host with ideReady := s.host.ideReady.filter (· != stream), ideOn := insertNat stream s.host.ideOn } }
    else idle s
  else ok { s with host := { s.host with ideReady := insertNat stream s.host.ideReady } }

end Sys2Proof.Machine
end

