-- ==== Sys2Proof/Machine/Die.lean ====
section
/-! DEFINITION. Shootdowns, near copies, memory errors, partitions and cluster moves, host accesses and reset: spec/16 R308, R319 to R324, R332 to R335,
spec/08 R204, R205, spec/10 R214, spec/18 R372, R376, spec/19 R380, R383. -/

namespace Sys2Proof.Machine

/-! ### Shootdowns (R320, spec/08 R205) -/

/-- SHOOTDOWN_REQUEST: it sets out to every cluster of the partitions that use the PASID. -/
def execShootdownRequest (pasid lo hi : Nat) (s : State) : Out State :=
  let parts := (s.ctxs.filter (fun c => c.opened && c.pasid == pasid)).map (·.part)
  match (s.parts.filter (fun p => parts.contains p.id)).flatMap (·.clusters) with
  | [] => idle s
  | cs => ok { s with shoots := s.shoots ++ [⟨pasid, lo, hi, cs, cs, false, s.fabric.out.length, []⟩] }

/-- SHOOTDOWN_ARRIVAL: the cluster drops the translations it names, in its TLB and its cores', and its instruction-cache lines; a fetch or descriptor
read under way is discarded, to be translated afresh, but not one of a device-class page, which is performed once (R317); words in fetch buffers stay. -/
def execShootdownArrival (n cl : Nat) (s : State) : Out State :=
  match s.shoots[n]? with
  | none => idle s
  | some x =>
    if !x.toReach.contains cl then idle s
    else
      let named (t : TlbEntry) : Bool := t.pasid == x.pasid && decide (t.base < x.hi) && decide (x.lo < t.base + t.size)
      let s := s.updCluster cl (fun c => { c with tlb := c.tlb.filter (fun t => !named t), icache := [] })
      ok { s with
        cores := s.cores.zipIdx.map (fun (x : CoreSt × Nat) => if x.2 / 4 == cl then { x.1 with tlb := x.1.tlb.filter (fun t => !named t) } else x.1)
        waves := s.waves.map (fun (w : Wave) => if s.coreOf w / 4 == cl then { w with look := w.look.filter (fun l => l.2.2) } else w)
        shoots := updAt s.shoots n (fun x => { x with
          toReach := x.toReach.filter (· != cl)
          marks := x.marks ++ [(cl, s.fabric.out.length)] }) }

/-- A request is one of the first `n`. -/
def sentBefore (n : Nat) (r : Option Nat) : Bool := match r with | some k => decide (k < n) | none => false

/-- A vector access or a stream access of the wave that began with one of the first `n` requests has elements still to be performed where it was translated
then. -/
def Wave.placedBefore (w : Wave) (n : Nat) : Bool :=
  (match w.ask with
    | some q => (match q.kind with | .vector _ => decide (q.first < n) | _ => false)
    | none => false)
  || (w.stopped.isNone && w.streams.any (fun t => sentBefore n t.ask))

/-- A copy that sent one of the first `n` requests has not moved its bytes between the places it found then. -/
def Copy.placedBefore (c : Copy) (n : Nat) : Bool :=
  !c.finished && !c.cancelled && c.placed.isSome && (sentBefore n c.rd || sentBefore n c.wr)

/-- Among the first `n` requests to other devices, one that the cluster's cores sent waits for its answer, or an access of theirs that it belongs to is still to
be performed. -/
def State.remoteAt (s : State) (cl n : Nat) : Bool :=
  (s.fabric.out.take n).any (fun r => r.answer.isNone && r.core / 4 == cl)
    || s.waves.any (fun w => s.coreOf w / 4 == cl && w.placedBefore n)
    || s.copies.any (fun c => c.core / 4 == cl && c.placedBefore n)

/-- The same of the hub: the copy engine of COPY packets, the queues' own accesses and the infills. -/
def State.hubRemote (s : State) (n : Nat) : Bool :=
  s.remoteAt 256 n || s.queues.any (fun q => q.asks.any (fun a => decide (a.2.2.1 < n)))
    || s.jobs.any (fun j => !j.finished && (j.skipped ++ j.mapDue).any (fun x => x.placed.isSome && (sentBefore n x.rd || sentBefore n x.wr)))

/-- How many requests to other devices were out when the shootdown reached cluster `cl`. -/
def Shootdown.mark (x : Shootdown) (cl : Nat) : Nat := ((x.marks.find? (fun m => m.1 == cl)).map (·.2)).getD 0

/-- SHOOTDOWN_ACK: the accesses translated before the arrival have been performed; with the last one the shootdown completes. -/
def execShootdownAck (n cl : Nat) (s : State) : Out State :=
  match s.shoots[n]? with
  | none => idle s
  | some x =>
    let left := x.toAck.filter (· != cl)
    if x.toReach.contains cl || !x.toAck.contains cl || s.remoteAt cl (x.mark cl) || (left.isEmpty && s.hubRemote x.sent) then idle s
    else
      ok { s with shoots := updAt s.shoots n (fun x => { x with toAck := left, done := left.isEmpty }) }

/-- NEAR_COPY_INVALIDATE (R308): in this machine a write reaches every copy of its line at once, so the copy that goes held what its home holds. -/
def execNearCopyInvalidate (_die _part _line : Nat) (s : State) : Out State := ok s

/-! ### Memory errors and host accesses (R332, R335) -/

/-- The key of a place of memory, and whether it is in a slice line. -/
def State.placeKey (s : State) : MemPlace → Option Nat
  | .hbm p a => if a < s.hbmSize p then some (s.hbmKey p a) else none
  | .vault p a => if a < 2 ^ 23 * (s.partD p).clusters.length then some (s.vaultKey p a) else none
  | .scratch c a => if c < s.cores.length && decide (a < coreScratch c) then some (memKey .scratch c a) else none

/-- MEMORY_ERROR: the granule is poisoned, or every granule of a lost dirty line. -/
def execMemoryError (place : MemPlace) (dirty : Bool) (s : State) : Out State :=
  match s.placeKey place with
  | none => idle s
  | some k => match dirty, place with
    | true, .hbm _ _ => ok ((List.range 16).foldl (fun s i => s.poison (k / 128 * 128 + 8 * i)) s)
    | true, _ => idle s
    | false, _ => ok (s.poison k)

/-- The granules of a partition's storage that are poisoned, for its telemetry (R335, spec/18 R372). -/
def State.poisonCount (s : State) (p : Nat) : Nat :=
  let cs := (s.partD p).clusters
  (s.pois.filter (fun g =>
    let sp := 8 * g / 2 ^ 128
    let id := 8 * g / 2 ^ 64 % 2 ^ 64
    ((sp == Space.hbm.num || sp == Space.vault.num) && cs.contains id) || (sp == Space.scratch.num && cs.contains (id / 4)))).length

/-- HOST_ACCESS: a read changes nothing; a write to device memory poisons the granules it writes when it is marked so. -/
def execHostAccess (h : HostIn) (s : State) : Out State :=
  match h with
  | .readHbm _ _ _ => ok s
  | .writeHbm p a l bad =>
    if a + l.length ≤ s.hbmSize p then ok (s.land (l.zipIdx.map (fun x => (s.hbmKey p (a + x.2), ⟨x.1, b2n bad⟩)))) else idle s
  | .writeHost a l => ok (s.land (l.zipIdx.map (fun x => (memKey .host 0 ((a + x.2) % 2 ^ 64), ⟨x.1, 0⟩))))

/-! ### Partitions (R321, R324) -/

/-- A number lies between two of a list. -/
def within (l : List Nat) (x : Nat) : Bool := l.any (fun y => decide (y ≤ x)) && l.any (fun y => decide (x ≤ y))

/-- The clusters of a list that lie on a die form a rectangle of its mesh, or are none. -/
def rectOn (cs : List Nat) (d : Nat) : Bool :=
  let m := cs.filter (fun c => c / 32 == d)
  (List.range 32).all (fun k =>
    !(within (m.map (fun c => c % 32 / 8)) (k / 8) && within (m.map (fun c => c % 8)) (k % 8)) || m.contains (32 * d + k))

/-- A key lies in a cluster's own storage: its HBM channels, vault, scratchpads and slots. -/
def keyIn (cl key : Nat) : Bool :=
  let sp := key / 2 ^ 128
  let id := key / 2 ^ 64 % 2 ^ 64
  ((sp == Space.hbm.num || sp == Space.vault.num) && id == cl) || (sp == Space.scratch.num && id / 4 == cl) || (sp == Space.slot.num && id / 64 == cl)

/-- The places here of a list. -/
def keysOf (l : List CPlace) : List Nat := l.filterMap (fun p => match p with | .at key => some key | _ => none)

/-- The places here of element accesses. -/
def accKeys (l : List VAcc) : List Nat := l.filterMap (fun x => match x.acc with | .ok (.here key _) => some key | _ => none)

/-- The places here at which accesses that are under way are still to act: those of copies, vector and stream accesses, queues, infills and arrived fabric
operations. -/
def State.heldKeys (s : State) : List Nat :=
  let both (p : Option (List CPlace × List CPlace)) : List Nat := match p with | some x => keysOf x.1 ++ keysOf x.2 | none => []
  (s.copies.filter (fun c => !c.finished && !c.cancelled)).flatMap (fun c => both c.placed)
    ++ s.waves.flatMap (fun w =>
      (match w.ask with | some q => (match q.kind with | .vector x => accKeys x.todo | _ => []) | none => [])
        ++ (w.streams.filter (fun t => t.ask.isSome)).flatMap (fun t => accKeys t.todo))
    ++ s.queues.flatMap (fun q => q.asks.flatMap (fun a => keysOf a.2.2.2))
    ++ (s.jobs.filter (fun j => !j.finished)).flatMap (fun j => (j.skipped ++ j.mapDue).flatMap (fun x => both x.placed))
    ++ s.fabric.arrived.filterMap (fun r => s.inKey r (opSpan r.op).1 (opSpan r.op).2)

/-- The cores of a cluster have no block, point, bin or copy, and no access under way is still to act in the cluster's storage (R324). -/
def State.clusterFree (s : State) (cl : Nat) : Bool :=
  s.heldKeys.all (fun key => !keyIn cl key) &&
  ((List.range 4).map (fun i => 4 * cl + i)).all (fun c => s.coreFree c && (s.core c).bins.all (·.isNone) && (s.core c).launches.isEmpty
    && s.copies.all (fun x => x.core != c || x.finished))

/-- Nothing a partition left in a core is there for another: comparators, trace registers, caps, triggers, bins and TLB are as after reset. -/
def CoreSt.wiped (c : CoreSt) (n : Nat) : CoreSt :=
  { CoreSt.reset n with hcol := c.hcol, inService := c.inService, cycle := c.cycle }

/-- Every byte of a cluster's storage zero and unpoisoned: scratchpads, slots, accumulator sets, vault and channels; its registers, caches and clock as
after reset. The wave-slot cycles of the energy interval stand (spec/19 R389). -/
def State.wipe (s : State) (cl : Nat) : State :=
  let s := (List.range 4).foldl (fun (s : State) i =>
    let c := 4 * cl + i
    let s := s.clearBytes (memKey .scratch c 0) (coreScratch c)
    let s := (List.range 16).foldl (fun s n => s.clearBytes (slotKey c n) slotBytes) s
    (List.range 4).foldl (fun s n => s.zeroSet c n) s) s
  let s := (s.clearBytes (memKey .vault cl 0) (2 ^ 23)).clearBytes (memKey .hbm cl 0) hbmPer
  { s with
    cores := s.cores.zipIdx.map (fun x => if x.2 / 4 = cl then x.1.wiped x.2 else x.1)
    bars := s.bars.filter (fun b => keyCore b.key / 4 != cl)
    clusters := updAt s.clusters cl (fun c => { ClusterSt.reset with part := c.part, gated := c.gated, quiet := s.time.toNat, idle := s.time.toNat, slots := c.slots }) }

/-- PARTITION_FORM: a new partition of whole free clusters, or new clusters, caps, regulator, allotment and key slots for one free of work; a cluster it
loses is wiped and gated, the key slots it loses empty, and its allotment is whole. -/
def execPartitionForm (p : PartSpec) (s : State) : Out State :=
  let cs := p.clusters.foldl (fun l c => insertNat c l) []
  let old := s.part? p.id
  let others := s.parts.filter (fun q => q.id != p.id)
  let legal : Bool := decide (p.id < 16) && decide (1 ≤ cs.length) && cs.length == p.clusters.length && cs.all (fun c => decide (c < 128))
    && (List.range 4).all (rectOn cs) && [8, 16, 32, 64].contains p.cap && decide (p.regulator < 4)
    && p.keySlots.all (fun k => decide (k < 256) && others.all (fun q => !q.keySlots.contains k))
    && cs.all s.clusterFree && (match old with | some q => q.clusters.all s.clusterFree | none => true)
    && cs.all (fun c => (s.cluster c).part == some p.id || (s.cluster c).part.isNone)
  if !legal then idle s
  else
    let new : Part := { (old.getD ⟨p.id, [], 64, 0, 0, 0, [], false, none, 0, 0, [], [], []⟩) with
      clusters := cs
      cap := p.cap
      regulator := p.regulator
      allot := p.allotMj
      allotLeft := p.allotMj * 1000000
      keySlots := p.keySlots }
    let s := match old with
      | some q => s.emptyKeys (q.keySlots.filter (fun k => !p.keySlots.contains k))
      | none => s
    let s := (match old with | some q => q.clusters.filter (fun c => !cs.contains c) | none => []).foldl
      (fun (s : State) c => (s.wipe c).updCluster c (fun x => { x with part := none, gated := true })) s
    ok { s with
      parts := others ++ [new]
      clusters := s.clusters.zipIdx.map (fun x => if cs.contains x.2 then
        { x.1 with part := some p.id, gated := if x.1.part.isNone then false else x.1.gated } else x.1)
      cores := s.cores.zipIdx.map (fun x => if cs.contains (x.2 / 4) then { x.1 with part := p.cap } else x.1) }

/-- CLUSTER_MOVE: a cluster free of work is wiped and joins another partition, or none, where it is gated (spec/19 R380); a partition left without
clusters is gone, and its key slots empty. -/
def execClusterMove (cl : Nat) (dest : Option Nat) (s : State) : Out State :=
  let c := s.cluster cl
  let known : Bool := match dest with | none => true | some p => (s.part? p).isSome
  -- what either partition is left with is a rectangle on each die (R321)
  let shape (cs : List Nat) : Bool := (List.range 4).all (rectOn cs)
  let fits : Bool := (match c.part with | none => true | some p => shape ((s.partD p).clusters.filter (· != cl)))
    && (match dest with | none => true | some p => shape (insertNat cl (s.partD p).clusters))
  if s.clusters.length ≤ cl || c.part = dest || !known || !fits || !s.clusterFree cl then idle s
  else
    let s := s.wipe cl
    let gone := (s.parts.filter (fun q => q.clusters == [cl])).flatMap (·.keySlots)
    let s := s.emptyKeys gone
    let parts := (s.parts.map (fun (q : Part) =>
      if dest = some q.id then { q with clusters := insertNat cl q.clusters } else { q with clusters := q.clusters.filter (· != cl) })).filter
        (fun q => !q.clusters.isEmpty)
    let s := { s with parts := parts }
    let s := match dest with
      | none => s
      | some p => { s with cores := s.cores.zipIdx.map (fun (x : CoreSt × Nat) => if x.2 / 4 == cl then { x.1 with part := (s.partD p).cap } else x.1) }
    ok (s.updCluster cl (fun c => { c with part := dest, gated := dest.isNone, tlb := [], icache := [] }))

/-! ### Reset (spec/10 R214, spec/18 R376, spec/08 R204) -/

/-- RESET: the machine is as after power-on; host memory, the firmware in place and the melt fraction are not the device's to clear. -/
def execReset (s : State) : Out State :=
  ok { State.reset with
    mem := s.mem.filter (fun c => c.1 / 2 ^ 128 == Space.host.num)
    trust := { State.reset.trust with firmware := s.trust.firmware }
    melt := s.melt
    agenda := s.agenda
    turn := s.turn
    now := s.now
    tick := s.tick }

end Sys2Proof.Machine
end

