-- ==== Sys2Proof/Machine/Infill.lean ====
section
/-! DEFINITION. The infill of skipped points, the comparison of check points and the skip map: spec/17 R340 to R347. -/

namespace Sys2Proof.Machine

/-! ### Lines and sources (R340) -/

/-- The extents of r and c (R337). -/
def Job.grid (j : Job) : Nat × Nat :=
  match field j.cov 7 1 with
  | 1 => (1, j.n[0])
  | 2 => (j.n[0], j.n[1])
  | 3 => (j.n[1], j.n[2])
  | _ => (j.n[2], j.n[3])

/-- The linear index of lattice coordinates. -/
def Job.linear (j : Job) (q r c : Nat) : Nat := (q * j.grid.1 + r) * j.grid.2 + c

/-- D: the larger of 3 and the largest STRIDEk parameter of the ladder. -/
def Job.reach (j : Job) : Nat :=
  (List.range (field j.cov 0 1)).foldl (fun m n => if (covRung j.cov n).1 = 6 then max m (covRung j.cov n).2 else m) 3

/-- The points of one side of a line, nearest first, with their distances: 0 lower r, 1 upper r, 2 lower c, 3 upper c. -/
def Job.side (j : Job) (p k : Nat) : List (Nat × Nat) :=
  let (q, r, c) := j.coords p
  (List.range j.reach).filterMap (fun i =>
    let d := i + 1
    match k with
    | 0 => if d ≤ r then some (d, j.linear q (r - d) c) else none
    | 1 => if r + d < j.grid.1 then some (d, j.linear q (r + d) c) else none
    | 2 => if d ≤ c then some (d, j.linear q r (c - d)) else none
    | _ => if c + d < j.grid.2 then some (d, j.linear q r (c + d)) else none)

/-- Every point within D on a point's two lines. -/
def Job.around (j : Job) (p : Nat) : List Nat := ((List.range 4).flatMap (j.side p)).map (·.2)

/-- A point of the job has been dealt. -/
def Job.isDealt (j : Job) (p : Nat) : Bool := j.kept.contains p || j.skipped.any (fun x => x.point == p)

/-- The point's block has ended. -/
def State.pointEnded (s : State) (ji p : Nat) : Bool :=
  s.blocks.any (fun b => b.job == some ji && !b.bin && b.point == p && b.phase == .done)

/-- The points that launched a block: kept ones and check points. -/
def Job.launches (j : Job) (p : Nat) : Bool := j.kept.contains p || j.skipped.any (fun x => x.point == p && x.check)

/-- A point is infilled in pass 1: a kept point lies within D on its lines. -/
def Job.pass1 (j : Job) (p : Nat) : Bool := (j.around p).any j.kept.contains

/-- The sources of pass 2: kept points, and points infilled in pass 1. -/
def Job.source2 (j : Job) (p : Nat) : Bool :=
  j.kept.contains p || j.skipped.any (fun x => x.point == p && !x.check && x.stat == 1 && !x.pass2 && x.step != 0)

/-- The infill of a point may start (R340): everything within D was dealt and its blocks have ended, and for pass 2 every point of pass 1 within D
is done. -/
def State.infillReady (s : State) (ji : Nat) (j : Job) (p : Nat) : Bool :=
  let near := j.around p
  near.all j.isDealt && (p :: near).all (fun x => !j.launches x || s.pointEnded ji x)
    && (j.pass1 p || near.all (fun x => match j.skipped.find? (fun y => y.point == x) with
      | none => true
      | some y => if j.pass1 x then y.step != 0 else (j.around x).all j.isDealt))

/-- The nearest source of each side: distance and point. -/
def Job.sources (j : Job) (p : Nat) : List (Option (Nat × Nat)) :=
  let src := if j.pass1 p then j.kept.contains else j.source2
  (List.range 4).map (fun k => (j.side p k).find? (fun x => src x.2))

/-! ### Values (R341, R343) -/

/-- The value of an element, a NaN where its granule is poisoned (R342). -/
def elemV (fmt p : Nat) (bad : Bool) : FVal :=
  if bad then .nan false
  else if isFloat fmt then decodeF fmt p
  else .fin (decide (intVal fmt p < 0)) (intVal fmt p).natAbs 0

/-- A value times a positive count. -/
def timesV (n : Nat) : FVal → FVal
  | .fin s m e => .fin s (n * m) e
  | v => v

/-- The estimate of a line as a fraction, from its lower and upper sources. -/
def lineEst (lo hi : Option (Nat × FVal)) : Option (FVal × Nat) :=
  match lo, hi with
  | some (d1, a), some (d2, b) => some ((addV 0 (timesV d2 a) (timesV d1 b)).1, d1 + d2)
  | some (_, a), none => some (a, 1)
  | none, some (_, b) => some (b, 1)
  | none, none => none

/-- The mean of the line estimates. -/
def meanEst (x y : Option (FVal × Nat)) : FVal × Nat :=
  match x, y with
  | some (a, d), some (b, e) => ((addV 0 (timesV e a) (timesV d b)).1, 2 * d * e)
  | some z, none => z
  | none, some z => z
  | none, none => (.fin false 0 0, 1)

/-- An integer fraction rounded to an integer, ties to even. -/
def evenDiv (n : Int) (d : Nat) : Int :=
  let q := n.fdiv d
  let r := n - q * d
  if 2 * r < d then q else if (d : Int) < 2 * r then q + 1 else if q % 2 = 0 then q else q + 1

/-- The infill value in a format (R341); an integer type has no NaN, so a poisoned source gives it a free value, `free`. -/
def infillVal (fmt : Nat) (free : Nat) (v : FVal × Nat) : Nat :=
  match v.1 with
  | .nan _ => inFmt fmt (if isFloat fmt then canonNan fmt else free)
  | x =>
    if isFloat fmt then
      let (q, sticky, _) := divV x (.fin false v.2 0)
      if fmt = 0 then (deliverF 0 0 false false q sticky).val
      else
        let b := (deliverF 1 0 false false q sticky).val
        if fmt = 1 then b else inFmt fmt (convert 1 fmt 0 true false b).val
    else match x with
      | .fin neg m e => inFmt fmt (wrapInt fmt (evenDiv (finInt neg m e 0) v.2))
      | _ => 0

/-- The default floor of a format (R343). -/
def defaultFloor (fmt : Nat) : FVal :=
  let e : Int := match fmt with
    | 0 => -1022
    | 1 => -126
    | 2 => -14
    | 3 => -126
    | 4 => -6
    | 5 => -14
    | 6 => -12
    | 7 => -8
    | _ => 0
  .fin false 1 e

/-- A finite value is zero. -/
def FVal.isZero : FVal → Bool
  | .fin _ m _ => m == 0
  | _ => false

/-- The floor of a record. -/
def Job.floor (j : Job) : FVal :=
  let f := decodeF 1 (field j.cov 32 4)
  if f.isZero then defaultFloor (field j.cov 5 1) else f

/-- The magnitude of a value. -/
def absV : FVal → FVal
  | .fin _ m e => .fin false m e
  | .inf _ => .inf false
  | v => v

/-- The misclosure of an element, as an f64 pattern (R343). -/
def misElem (floor a b : FVal) : Nat :=
  let inf := infBits 0 false
  match a, b with
  | .nan _, .nan _ => 0
  | .nan _, _ => inf
  | _, .nan _ => inf
  | _, _ =>
    match cmpV a b with
    | .eq => 0
    | _ =>
      match (addV 0 a (negV b)).1 with
      | .fin neg m e =>
        match a, b with
        | .fin _ _ _, .fin _ _ _ =>
          let den := match cmpV (absV a) floor with | .lt => floor | _ => absV a
          let (q, sticky, _) := divV (absV (.fin neg m e)) den
          (deliverF 0 0 false false q sticky).val
        | _, _ => inf
      | _ => inf

/-! ### Tiles -/

/-- Elements from bytes: the pattern and whether a byte was poisoned. -/
def elemsOf (n : Nat) : Nat → List CByte → List (Nat × Bool)
  | 0, _ => []
  | k + 1, l => (leValue ((l.take n).map (·.val)), (l.take n).any (fun x => x.st != 0)) :: elemsOf n k (l.drop n)

/-- One point of a job changed, skipped or kept. -/
def State.updPoint (s : State) (ji p : Nat) (f : Skipped → Skipped) : State :=
  let g (x : Skipped) : Skipped := if x.point = p then f x else x
  s.updJob ji (fun j => { j with skipped := j.skipped.map g, mapDue := j.mapDue.map g })

/-- Requests for an infill, sent once, and their answer. -/
def State.infillAsk (s : State) (ji p part : Nat) (ops : List (Nat × RemoteOp)) (sent : Option Nat) (set : Nat → Skipped → Skipped) : Remote :=
  if ops.isEmpty then .ready ⟨[], [], none⟩
  else match sent with
    | some r => match (s.fabric.out[r]?).bind (·.answer) with
      | some x => .ready x
      | none => .pending
    | none => match s.firstUnreached part ops with
      | some k => .ready ⟨[], [], some k⟩
      | none => .sent ((s.sendRemote part ops (.infill ji p)).updPoint ji p (set s.fabric.out.length))

/-- A translation fault of an infill reported (R342, spec/16 R316). -/
def State.reportInfill (s : State) (ji p : Nat) (j : Job) (a : Word) (sub : Nat) (write : Bool) : State :=
  (s.updPoint ji p (fun x => { x with fault := some (a, write) })).reportFault (s.ctxOfQueue j.queue) 1024 a write 8 sub (s.queue j.queue).num
    (b2n write + 16) 0

/-- The point is over at its present step: the tile is left with STAT `stat`, or the skip map is done. -/
def Skipped.next (x : Skipped) (stat : Nat) (pass2 : Bool) : Skipped :=
  { x with step := x.step + 1, rd := none, wr := none, placed := none, fault := none,
           stat := if x.step = 0 then stat else x.stat, pass2 := if x.step = 0 then pass2 else x.pass2 }

/-- The coverage error: a tile is left unfilled or a comparison abandoned, or a skip-map byte is not written (R342). -/
def State.coverageError (s : State) (ji : Nat) (x : Skipped) : State :=
  (s.updPoint ji x.point (fun y => y.next (if y.check then 2 else 3) false)).updJob ji (fun j => { j with covError := true })

/-- The elements of the infill of a point, from the tiles of its sources in the order of their sides. -/
def Job.infillElems (j : Job) (s : State) (src : List (Option (Nat × Nat))) (tiles : List (List (Nat × Bool))) : List (Nat × Bool) :=
  let fmt := field j.cov 5 1
  let n := field j.cov 40 2 * field j.cov 42 2
  (List.range n).map (fun i =>
    -- each side's source with its element
    let (vals, _) := src.foldl (fun (acc : List (Option (Nat × FVal × Bool)) × List (List (Nat × Bool))) o => match o, acc.2 with
      | some (d, _), t :: ts => let e := t.getD i (0, false); (acc.1 ++ [some (d, elemV fmt e.1 e.2, e.2)], ts)
      | _, ts => (acc.1 ++ [none], ts)) ([], tiles)
    let at' (k : Nat) : Option (Nat × FVal) := ((vals.getD k none).map (fun x => (x.1, x.2.1)))
    let bad := vals.any (fun o => match o with | some x => x.2.2 | none => false)
    (infillVal fmt (Config.freeWord (s.tick + i)).toNat (meanEst (lineEst (at' 0) (at' 1)) (lineEst (at' 2) (at' 3))), bad))

/-- The sources that an infill uses: all of them, or under the nearest kind the nearest, the lower index among equals. -/
def Job.used (j : Job) (p : Nat) : List (Option (Nat × Nat)) :=
  let l := j.sources p
  if field j.cov 6 1 = 0 then l
  else
    let best := l.foldl (fun (m : Option (Nat × Nat)) o => match m, o with
      | none, o => o
      | m, none => m
      | some a, some b => if b.1 < a.1 || (b.1 == a.1 && decide (b.2 < a.2)) then some b else some a) none
    [best, none, none, none]

/-- The tile of a skipped point infilled, or compared at a check point (R340 to R343). -/
def State.infillTile (s : State) (ji : Nat) (j : Job) (x : Skipped) : Out State :=
  let p := x.point
  let ctx := Copy.device (s.queue j.queue).ctx j.queue
  let part := (s.ctxOfQueue j.queue).part
  let two := !j.pass1 p
  let src := j.used p
  let pts := src.filterMap (fun o => o.map (·.2))
  if pts.isEmpty then ok (s.updPoint ji p (fun y => y.next (if y.check then 2 else 3) false))
  else
    let reads := if x.check then pts ++ [p] else pts
    let as := reads.flatMap j.tile
    let ds := if x.check then [] else j.tile p
    let (ps, dp) := x.placed.getD (as.map (s.cplace ctx false .read), ds.map (s.cplace ctx false .write))
    match firstFault as ps, firstFault ds dp with
    | some (a, sub), _ => ok (s.reportInfill ji p j a sub false)
    | none, some (a, sub) => ok (s.reportInfill ji p j a sub true)
    | none, none =>
      if ps.contains .err || dp.contains .err then ok (s.coverageError ji x)
      else match s.infillAsk ji p part ((awayPieces ps).map (fun y => (y.1, .read y.2.1 y.2.2))) x.rd
          (fun r y => { y with rd := some r, placed := some (ps, dp) }) with
        | .pending => idle s
        | .sent s' => ok s'
        | .ready ans =>
          if ans.failed.isSome then ok (s.coverageError ji x)
          else
            let data := s.takeBytes ans as.length ps 0
            let per := field j.cov 40 2 * field j.cov 42 2
            let size := per * j.elemBytes
            let tiles := (List.range reads.length).map (fun k => elemsOf j.elemBytes per (data.drop (size * k)))
            let new := j.infillElems s src tiles
            if x.check then
              let fmt := field j.cov 5 1
              let own := tiles.getD pts.length []
              let miss := (own.zip new).foldl (fun m y =>
                let e := misElem j.floor (elemV fmt y.1.1 y.1.2) (elemV fmt y.2.1 (y.2.2 && !isFloat fmt))
                if f64Less m e then e else m) 0
              let s := s.updJob ji (fun j => { j with
                miss := if !j.compared || f64Less j.miss.toNat miss then word miss else j.miss
                compared := true })
              ok (s.updPoint ji p (fun y => y.next 2 two))
            else
              let out := new.flatMap (fun y => (leBytes j.elemBytes y.1).map (fun b => (⟨b, b2n y.2⟩ : CByte)))
              match s.infillAsk ji p part ((awayWrites (dp.zip out)).map (fun y => (y.1, .write y.2.1 y.2.2.1 y.2.2.2))) x.wr
                  (fun r y => { y with wr := some r, placed := some (ps, dp) }) with
              | .pending => idle s
              | .sent s' => ok s'
              | .ready z =>
                if z.failed.isSome then ok (s.coverageError ji x)
                else ok ((s.land (landing false (dp.zip out))).updPoint ji p (fun y => y.next 1 two))

/-- The skip-map byte of a point (Table 17.3). -/
def Skipped.mapByte (x : Skipped) : Byte := BitVec.ofNat 8 (x.rung * 16 + b2n x.pass2 * 4 + x.stat)

/-- The skip-map byte of a point written (R342, R346). -/
def State.mapWrite (s : State) (ji : Nat) (j : Job) (x : Skipped) : Out State :=
  let a := word (field j.cov 80 8) + word x.point
  let (_, ps) := x.placed.getD ([], [s.cplace (Copy.device (s.queue j.queue).ctx j.queue) false .write a])
  match firstFault [a] ps with
  | some (f, sub) => ok (s.reportInfill ji x.point j f sub true)
  | none =>
    if ps.contains .err then ok (s.coverageError ji x)
    else
      let out := ps.zip [(⟨x.mapByte, 0⟩ : CByte)]
      match s.infillAsk ji x.point (s.ctxOfQueue j.queue).part ((awayWrites out).map (fun y => (y.1, .write y.2.1 y.2.2.1 y.2.2.2))) x.wr
          (fun r y => { y with wr := some r, placed := some ([], ps) }) with
      | .pending => idle s
      | .sent s' => ok s'
      | .ready z =>
        if z.failed.isSome then ok (s.coverageError ji x)
        else ok ((s.land (landing false out)).updPoint ji x.point (fun y => y.next 0 false))

/-! ### The steps -/

/-- Infills of a job go on: its context runs or is in soft, and no fault stopped it (R347). -/
def State.infilling (s : State) (j : Job) : Bool :=
  let st := (s.ctxOfQueue j.queue).st
  (st == .running || st == .soft) && !j.cov.isEmpty && !j.stopped && !j.finished

/-- INFILL of a point of a job: the tile of a skipped point, then the skip-map byte of any point whose block, if it has one, has ended. -/
def execInfill (ji p : Nat) (s : State) : Out State :=
  match s.job? ji with
  | none => idle s
  | some j =>
    if !s.infilling j then idle s
    else match j.skipped.find? (fun x => x.point == p) with
      | some x =>
        if x.fault.isSome then idle s
        else if x.step = 0 then (if s.infillReady ji j p then s.infillTile ji j x else idle s)
        else if x.step = 1 then s.mapWrite ji j x
        else idle s
      | none => match j.mapDue.find? (fun x => x.point == p) with
        | some x => if x.step = 1 && x.fault.isNone && s.pointEnded ji p then s.mapWrite ji j x else idle s
        | none => idle s

/-- INFILL_FAULT_ANSWER (R342): resolved, the step is tried again; declined, it is left undone with the coverage error. -/
def execInfillFaultAnswer (ji p : Nat) (resolved : Bool) (s : State) : Out State :=
  match s.job? ji with
  | none => idle s
  | some j => match (j.skipped ++ j.mapDue).find? (fun x => x.point == p && x.fault.isSome) with
    | none => idle s
    | some x =>
      let c := s.ctxOfQueue j.queue
      let a := match x.fault with | some f => f.1 | none => 0
      if s.priWaits c a then idle s
      else
        let s := s.priAnswered c a
        ok (if resolved then s.updPoint ji p (fun y => { y with fault := none }) else s.coverageError ji x)

end Sys2Proof.Machine
end

