-- ==== Sys2Proof/Machine/Mask.lean ====
section
/-! DEFINITION. Mask operations: spec/05 R143, R144. -/

namespace Sys2Proof.Machine

/-- A mask operation of mask registers. -/
def State.maskOp (s : State) (i : Instr) (d : BitVec 3) (f : Wave → Word) : Out State :=
  s.vctl i [] [] (fun wi w _ => .done (s.updWave wi (fun w' => w'.wrK d (f w))))

/-- MAND. -/
def execMand (d a b : BitVec 3) (s : State) : Out State := s.maskOp (.mand d a b) d (fun w => w.rdK a &&& w.rdK b)
/-- MOR. -/
def execMor (d a b : BitVec 3) (s : State) : Out State := s.maskOp (.mor d a b) d (fun w => w.rdK a ||| w.rdK b)
/-- MXOR. -/
def execMxor (d a b : BitVec 3) (s : State) : Out State := s.maskOp (.mxor d a b) d (fun w => w.rdK a ^^^ w.rdK b)
/-- MANDN. -/
def execMandn (d a b : BitVec 3) (s : State) : Out State := s.maskOp (.mandn d a b) d (fun w => w.rdK a &&& ~~~(w.rdK b))
/-- MNOT. -/
def execMnot (d a : BitVec 3) (s : State) : Out State := s.maskOp (.mnot d a) d (fun w => ~~~(w.rdK a))

/-- n = min(VL, W) of R143. -/
def Wave.maskLen (w : Wave) : Nat := min w.vl w.lanes

/-- The lowest set bit of a mask below n, if any. -/
def Wave.firstSet (w : Wave) (a : BitVec 3) : Option Nat := (List.range w.maskLen).find? (fun i => (w.rdK a).getLsbD i)

/-- MCNT. -/
def execMcnt (d : Reg) (a : BitVec 3) (s : State) : Out State :=
  s.vctl (.mcnt d a) [] [d] (fun wi w _ => .done (s.setReg wi d (word (popcount w.maskLen (w.rdK a).toNat))))
/-- MFIRST. -/
def execMfirst (d : Reg) (a : BitVec 3) (s : State) : Out State :=
  s.vctl (.mfirst d a) [] [d] (fun wi w _ =>
    .done (s.setReg wi d (match w.firstSet a with | some i => word i | none => BitVec.allOnes 64)))

/-- An element-wise mask operation: the mask-length check of spec/02 R44 first. -/
def State.maskElems (s : State) (i : Instr) (d : BitVec 3) (f : Wave → Nat) : Out State :=
  s.vctl i [] [] (fun wi w _ =>
    if w.vl > w.lanes then .trap ⟨3, 2, wordOf i⟩
    else .done (s.updWave wi (fun w' => w'.wrK d (word (2 ^ f w - 1)))))

/-- MTIL: ones below the first set bit. -/
def execMtil (d a : BitVec 3) (s : State) : Out State :=
  s.maskElems (.mtil d a) d (fun w => (w.firstSet a).getD w.maskLen)
/-- MTILI: that bit too. -/
def execMtili (d a : BitVec 3) (s : State) : Out State :=
  s.maskElems (.mtili d a) d (fun w => match w.firstSet a with | some i => i + 1 | none => w.maskLen)
/-- MSET: ones below VL. -/
def execMset (d : BitVec 3) (s : State) : Out State := s.maskElems (.mset d) d (fun w => w.vl)
/-- MCLR. -/
def execMclr (d : BitVec 3) (s : State) : Out State := s.maskOp (.mclr d) d (fun _ => 0)
/-- MMOVS. -/
def execMmovs (d : Reg) (a : BitVec 3) (s : State) : Out State :=
  s.vctl (.mmovs d a) [] [d] (fun wi w _ => .done (s.setReg wi d (w.rdK a)))
/-- MMOVK. -/
def execMmovk (d : BitVec 3) (a : Reg) (s : State) : Out State :=
  s.vctl (.mmovk d a) [(a, 0)] [] (fun wi w _ => .done (s.updWave wi (fun w' => w'.wrK d (w.rd a))))

end Sys2Proof.Machine
end

