-- ==== Sys2Proof/Machine/Permute.lean ====
section
/-! DEFINITION. Permutes: spec/05 R140, R141. -/

namespace Sys2Proof.Machine

/-- An element of group `a` as the format holds it: the top bits of an l6 container are ignored (spec/02 R42). -/
def Wave.pick (w : Wave) (vf : VFile) (a : Reg) (i : Nat) : Nat := inFmt w.etype (w.getElem vf a.toNat w.sew i)

/-- A group read whole over the elements `l`. -/
def Wave.srcAt (w : Wave) (r : Reg) (pos : Nat) (l : List Nat) : VRead := ⟨r.toNat, w.grp, pos, w.regsOf r.toNat w.sew l⟩

/-- The element an index names, modulo W, and whether a half's index fell outside it (R141). -/
def Wave.indexOf (w : Wave) (v : Nat) : Nat × Bool := (v % w.vlmax, w.legacy && decide (w.vlmax ≤ v))

/-- Selected elements of VCOMPR and VEXPND: active, with their bit of the mask set. -/
def Wave.selected (w : Wave) (sp : Split) (c : BitVec 3) : List Nat :=
  (w.actives sp).filter (fun i => (w.rdK c).getLsbD (i % w.lanes))

/-- Elements written as bit patterns, with LOVR where a half's index left it. -/
def State.move (s : State) (wi : Nat) (w : Wave) (sp : Split) (base : Nat) (l : List (Nat × Nat)) (lovr : Bool) : Res :=
  .done (((s.beats w sp w.grp false).writeElems wi w base w.sew (l.map (fun x => (x.1, inFmt w.etype x.2)))).updWave wi
    (fun w => w.flag (flagIf lovr LOVR)))

/-- The source elements VSHFL picks for its active elements, by the indices that their formats hold (spec/02 R42). -/
def Wave.shfl (w : Wave) (sp : Split) (vf : VFile) (b : Reg) : List (Nat × Nat × Bool) :=
  (w.actives sp).map (fun i => (i, w.indexOf (w.pick vf b i)))

/-- VSHFL. -/
def execVshfl (d a b : Reg) (s : State) : Out State :=
  s.vec (.vshfl d a b) (fun w sp =>
      { reads := [w.srcAt a 0 ((w.shfl sp (s.vfile w.vfile) b).map (·.2.1)), w.src sp b 1], writes := [(d.toNat, w.grp)] })
    (fun wi _ w sp =>
      let vf := s.vfile w.vfile
      let l := w.shfl sp vf b
      s.move wi w sp d.toNat (l.map (fun x => (x.1, w.pick vf a x.2.1))) (l.any (·.2.2)))

/-- VSLUP: elements below the distance keep their value. -/
def execVslup (d a b : Reg) (s : State) : Out State :=
  let moved (w : Wave) (sp : Split) : List (Nat × Nat) :=
    ((w.actives sp).filter (fun i => decide ((w.rd b).toNat ≤ i))).map (fun i => (i, i - (w.rd b).toNat))
  s.vec (.vslup d a b) (fun w sp =>
      { reads := [w.srcAt a 0 ((moved w sp).map (·.2))], writes := [(d.toNat, w.grp)], ss := [(b, 1)] })
    (fun wi _ w sp =>
      let vf := s.vfile w.vfile
      s.move wi w sp d.toNat ((moved w sp).map (fun x => (x.1, w.pick vf a x.2))) false)

/-- VSLDN: zero comes in above W. -/
def execVsldn (d a b : Reg) (s : State) : Out State :=
  let from' (w : Wave) (i : Nat) : Option Nat :=
    if i + (w.rd b).toNat < w.vlmax then some (i + (w.rd b).toNat) else none
  s.vec (.vsldn d a b) (fun w sp =>
      { reads := [w.srcAt a 0 ((w.actives sp).filterMap (from' w))], writes := [(d.toNat, w.grp)], ss := [(b, 1)] })
    (fun wi _ w sp =>
      let vf := s.vfile w.vfile
      s.move wi w sp d.toNat ((w.actives sp).map (fun i => (i, match from' w i with
        | some j => w.pick vf a j
        | none => 0))) false)

/-- VCOMPR: the selected elements move to the front, active or not. -/
def execVcompr (d a : Reg) (c : BitVec 3) (s : State) : Out State :=
  s.vec (.vcompr d a c) (fun w sp => { reads := [w.srcAt a 0 (w.selected sp c)], writes := [(d.toNat, w.grp)] })
    (fun wi _ w sp =>
      let vf := s.vfile w.vfile
      s.move wi w sp d.toNat ((w.selected sp c).zipIdx.map (fun x => (x.2, w.pick vf a x.1))) false)

/-- VEXPND: the first elements move to the selected places. -/
def execVexpnd (d a : Reg) (c : BitVec 3) (s : State) : Out State :=
  s.vec (.vexpnd d a c) (fun w sp =>
      { reads := [w.srcAt a 0 (List.range (w.selected sp c).length)], writes := [(d.toNat, w.grp)] })
    (fun wi _ w sp =>
      let vf := s.vfile w.vfile
      s.move wi w sp d.toNat ((w.selected sp c).zipIdx.map (fun x => (x.1, w.pick vf a x.2))) false)

/-- A pattern of the element type as a scalar: sign-extended for the s types (R140). -/
def extElem (fmt v : Nat) : Word := if isSigned fmt then wordI (sextN (sewOf fmt) v) else word (inFmt fmt v)

/-- VEXTR: one element into a scalar register; VL, guard and splits do not matter. -/
def execVextr (d a b : Reg) (s : State) : Out State :=
  s.vec (.vextr d a b) (fun w _ =>
      { reads := [w.srcAt a 0 [(w.indexOf (w.rd b).toNat).1]], ss := [(b, 1)], sd := [d] })
    (fun wi _ w sp =>
      let (j, out) := w.indexOf (w.rd b).toNat
      let v := extElem w.etype (w.getElem (s.vfile w.vfile) a.toNat w.sew j)
      .done ((s.beats w sp w.grp false).updWave wi (fun w => (w.wr d v).flag (flagIf out LOVR))))

/-- VINS: one element from a scalar register. -/
def execVins (d a b : Reg) (s : State) : Out State :=
  s.vec (.vins d a b) (fun w _ => { writes := [(d.toNat, w.grp)], ss := [(a, 0), (b, 1)] })
    (fun wi _ w sp =>
      let (j, out) := w.indexOf (w.rd b).toNat
      s.move wi w sp d.toNat [(j, (w.rd a).toNat % 2 ^ w.sew)] out)

/-- VSEL: from a where the mask bit is set, else from b. -/
def execVsel (d a b : Reg) (c : BitVec 3) (s : State) : Out State :=
  s.vec (.vsel d a b c) (fun w sp => { reads := [w.src sp a 0, w.src sp b 1], writes := [(d.toNat, w.grp)] })
    (fun wi _ w sp =>
      let vf := s.vfile w.vfile
      s.move wi w sp d.toNat ((w.actives sp).map (fun i =>
        (i, if (w.rdK c).getLsbD (i % w.lanes) then w.pick vf a i else w.pick vf b i))) false)

end Sys2Proof.Machine
end

