-- ==== Sys2Proof/Machine/Vector.lean ====
section
/-! DEFINITION. Element-wise vector arithmetic and comparisons: spec/05 R132 to R136. -/

namespace Sys2Proof.Machine

/-- A float or an integer result of an element. -/
def elemOp (fmt : Nat) (ftz : Bool) (ff : FVal → FVal → FRes) (fi : Int → Int → FRes) (a b : Nat) : FRes :=
  if isFloat fmt then ff (fetchF ftz fmt a) (fetchF ftz fmt b) else fi (intVal fmt a) (intVal fmt b)

/-- The smaller (`big` false) or larger of two floats, −0 below +0; a NaN operand gives the canonical NaN (Table 5.4). -/
def pickF (fmt : Nat) (big : Bool) (a b : FVal) : FRes :=
  if a.isNan || b.isNan then ⟨canonNan fmt, flagIf (a.isSnan || b.isSnan) NV ||| NF⟩
  else deliverF fmt 0 false false (if lessZ a b == big then b else a) false

/-- The magnitude of an exact value. -/
def FVal.abs : FVal → FVal
  | .nan a => .nan a
  | .inf _ => .inf false
  | .fin _ m e => .fin false m e

/-- The exact difference's magnitude, rounded once (VABSD). -/
def absdF (fmt mode : Nat) (ftz : Bool) (a b : FVal) : FRes :=
  let (v, fl) := addV mode a (negV b)
  let r := deliverF fmt mode false ftz v.abs false
  ⟨r.val, r.flags ||| fl⟩

/-- Integer division with the cases of Table 3.6. -/
def divInt (fmt : Nat) (sat : Bool) (a b : Int) : FRes :=
  if b = 0 then ⟨2 ^ widthOf fmt - 1, DZ⟩ else deliverInt fmt sat (a.tdiv b)

/-- The element of VOP function `fn` (Table 5.4), on patterns. -/
def vopElem (fn fmt mode : Nat) (sat ftz : Bool) (a b : Nat) : FRes :=
  let n := sewOf fmt
  let sh := b % 2 ^ n % n
  match fn with
  | 0 => elemOp fmt ftz (faddP fmt mode ftz) (fun x y => deliverInt fmt sat (x + y)) a b
  | 1 => elemOp fmt ftz (fun x y => faddP fmt mode ftz x (negV y)) (fun x y => deliverInt fmt sat (x - y)) a b
  | 2 => elemOp fmt ftz (fmulP fmt mode ftz) (fun x y => deliverInt fmt sat (x * y)) a b
  | 3 => elemOp fmt ftz (fdivP fmt mode ftz) (divInt fmt sat) a b
  | 4 => elemOp fmt ftz (pickF fmt false) (fun x y => deliverInt fmt false (min x y)) a b
  | 5 => elemOp fmt ftz (pickF fmt true) (fun x y => deliverInt fmt false (max x y)) a b
  | 6 => ⟨a &&& b, 0⟩
  | 7 => ⟨a ||| b, 0⟩
  | 8 => ⟨a ^^^ b, 0⟩
  | 9 => ⟨a % 2 ^ n * 2 ^ sh % 2 ^ n, 0⟩
  | 10 => ⟨a % 2 ^ n / 2 ^ sh, 0⟩
  | 11 => ⟨wrapInt fmt ((sextN n a).fdiv (2 ^ sh : Nat)), 0⟩
  | 12 => ⟨wrapInt fmt ((intVal fmt a * intVal fmt b).fdiv (2 ^ n : Nat)), 0⟩
  | _ => elemOp fmt ftz (absdF fmt mode ftz) (fun x y => deliverInt fmt sat ((x - y).natAbs : Int)) a b

/-- The element types a VOP function accepts (Table 5.1): bits for and, or, xor; integers for the shifts and vmulh; else both arithmetics. -/
def vopAccept (fn : Nat) : Nat → Bool :=
  if fn = 6 || fn = 7 || fn = 8 then fun _ => true
  else if fn = 9 || fn = 10 || fn = 11 || fn = 12 then integer
  else numeric

/-- A VOP instruction (R132). -/
def State.vop (s : State) (i : Instr) (fn : Nat) (d a b : Reg) (x : BitVec 1) : Out State :=
  s.vec i (planAB d a b x (vopAccept fn)) (fun wi _ w sp =>
    let vf := s.vfile w.vfile
    let l := (w.actives sp).map (fun j =>
      (j, vopElem fn w.etype w.rnd w.sat w.ftz (w.getElem vf a.toNat w.sew j) (w.bElem vf b x j)))
    (s.beats w sp w.grp (integer w.etype == false && !(fn == 6 || fn == 7 || fn == 8))).deliver wi w sp d.toNat w.etype l)

/-- VADD. -/
def execVadd (d a b : Reg) (x : BitVec 1) (s : State) : Out State := s.vop (.vadd d a b x) 0 d a b x
/-- VSUB. -/
def execVsub (d a b : Reg) (x : BitVec 1) (s : State) : Out State := s.vop (.vsub d a b x) 1 d a b x
/-- VMUL. -/
def execVmul (d a b : Reg) (x : BitVec 1) (s : State) : Out State := s.vop (.vmul d a b x) 2 d a b x
/-- VDIV. -/
def execVdiv (d a b : Reg) (x : BitVec 1) (s : State) : Out State := s.vop (.vdiv d a b x) 3 d a b x
/-- VMIN. -/
def execVmin (d a b : Reg) (x : BitVec 1) (s : State) : Out State := s.vop (.vmin d a b x) 4 d a b x
/-- VMAX. -/
def execVmax (d a b : Reg) (x : BitVec 1) (s : State) : Out State := s.vop (.vmax d a b x) 5 d a b x
/-- VAND. -/
def execVand (d a b : Reg) (x : BitVec 1) (s : State) : Out State := s.vop (.vand d a b x) 6 d a b x
/-- VOR. -/
def execVor (d a b : Reg) (x : BitVec 1) (s : State) : Out State := s.vop (.vor d a b x) 7 d a b x
/-- VXOR. -/
def execVxor (d a b : Reg) (x : BitVec 1) (s : State) : Out State := s.vop (.vxor d a b x) 8 d a b x
/-- VSHL. -/
def execVshl (d a b : Reg) (x : BitVec 1) (s : State) : Out State := s.vop (.vshl d a b x) 9 d a b x
/-- VSHR. -/
def execVshr (d a b : Reg) (x : BitVec 1) (s : State) : Out State := s.vop (.vshr d a b x) 10 d a b x
/-- VSHA. -/
def execVsha (d a b : Reg) (x : BitVec 1) (s : State) : Out State := s.vop (.vsha d a b x) 11 d a b x
/-- VMULH. -/
def execVmulh (d a b : Reg) (x : BitVec 1) (s : State) : Out State := s.vop (.vmulh d a b x) 12 d a b x
/-- VABSD. -/
def execVabsd (d a b : Reg) (x : BitVec 1) (s : State) : Out State := s.vop (.vabsd d a b x) 13 d a b x

/-- The element of a VFMA function (Table 5.5): bit 1 of `fn` negates the product, bit 0 the addend. -/
def vfmaElem (fn fmt mode : Nat) (sat ftz : Bool) (a b c : Nat) : FRes :=
  let np := bit fn 1
  let nc := bit fn 0
  if isFloat fmt then
    let x := fetchF ftz fmt a
    let z := fetchF ftz fmt c
    ffmaP fmt mode ftz (if np then negV x else x) (fetchF ftz fmt b) (if nc then negV z else z)
  else
    let p := intVal fmt a * intVal fmt b
    let z := intVal fmt c
    deliverInt fmt sat ((if np then -p else p) + (if nc then -z else z))

/-- A VFMA instruction (R133). -/
def State.vfmaOp (s : State) (i : Instr) (fn : Nat) (d a b : Reg) (x : BitVec 1) (c : Reg) : Out State :=
  s.vec i (fun w sp => let p := planAB d a b x numeric w sp; { p with reads := p.reads ++ [w.src sp c 2] }) (fun wi _ w sp =>
    let vf := s.vfile w.vfile
    let l := (w.actives sp).map (fun j =>
      (j, vfmaElem fn w.etype w.rnd w.sat w.ftz (w.getElem vf a.toNat w.sew j) (w.bElem vf b x j) (w.getElem vf c.toNat w.sew j)))
    (s.beats w sp w.grp true).deliver wi w sp d.toNat w.etype l)

/-- VFMA. -/
def execVfma (d a b : Reg) (x : BitVec 1) (c : Reg) (s : State) : Out State := s.vfmaOp (.vfma d a b x c) 0 d a b x c
/-- VFMS. -/
def execVfms (d a b : Reg) (x : BitVec 1) (c : Reg) (s : State) : Out State := s.vfmaOp (.vfms d a b x c) 1 d a b x c
/-- VFNMA. -/
def execVfnma (d a b : Reg) (x : BitVec 1) (c : Reg) (s : State) : Out State := s.vfmaOp (.vfnma d a b x c) 2 d a b x c
/-- VFNMS. -/
def execVfnms (d a b : Reg) (x : BitVec 1) (c : Reg) (s : State) : Out State := s.vfmaOp (.vfnms d a b x c) 3 d a b x c

/-- 1 ÷ √(m × 2^e) for m > 0: value and sticky; exact when m × 2^e is an even power of two. -/
def rsqrtV (m : Nat) (e : Int) : FVal × Bool :=
  let m' := if e % 2 = 0 then m else 2 * m
  let e' := if e % 2 = 0 then e else e - 1
  let k := 200 + Nat.log2 m'
  let q := 2 ^ (2 * k) / m'
  let r := isqrt q (Nat.log2 q / 2 + 1) 0
  (.fin false r (-(e' / 2) - k), r * r * m' != 2 ^ (2 * k))

/-- A NaN operand of a one-operand function: the canonical NaN. -/
def nanOf (fmt : Nat) (v : FVal) : FRes := ⟨canonNan fmt, flagIf v.isSnan NV ||| NF⟩

/-- VRCP, VRSQ, VEXP2, VLOG2 on a pattern: Table 5.8, else one of the two neighbours of the exact value (R135). -/
def estElem (fn fmt : Nat) (ftz : Bool) (p : Nat) : FRes :=
  let v := fetchF ftz fmt p
  let inv : FRes := ⟨canonNan fmt, NV ||| NF⟩
  match v with
  | .nan _ => nanOf fmt v
  | .inf neg =>
    match fn with
    | 0 => ⟨signBit fmt neg, 0⟩
    | 1 => if neg then inv else ⟨0, 0⟩
    | 2 => if neg then ⟨0, 0⟩ else ⟨infBits fmt false, NF⟩
    | _ => if neg then inv else ⟨infBits fmt false, NF⟩
  | .fin neg m e =>
    if m = 0 then
      match fn with
      | 0 => ⟨infBits fmt neg, DZ ||| NF⟩
      | 1 => ⟨infBits fmt neg, DZ ||| NF⟩
      | 2 => deliverF fmt 0 false ftz (.fin false 1 0) false
      | _ => ⟨infBits fmt true, DZ ||| NF⟩
    else
      match fn with
      | 0 => let (q, st, _) := divV (.fin false 1 0) v; estimate 0 fmt ftz p q st
      | 1 => if neg then inv else let (q, st) := rsqrtV m e; estimate 1 fmt ftz p q st
      | 2 => let (q, st) := exp2V neg m e; estimate 2 fmt ftz p q st
      | _ => if neg then inv else let (q, st) := log2V m e; estimate 3 fmt ftz p q st

/-- The class bit of a pattern (Table 5.7); FTZ does not act. -/
def classBit (fmt p : Nat) : Nat :=
  match decodeF fmt p with
  | .inf neg => if neg then 0 else 7
  | .nan s => if s then 8 else 9
  | .fin neg m _ =>
    if m = 0 then (if neg then 3 else 4)
    else if isSubnormal fmt p then (if neg then 2 else 5)
    else if neg then 1 else 6

/-- The element of a VUN function 0 to 9 (Table 5.6). -/
def vunElem (fn fmt mode : Nat) (sat ftz : Bool) (p : Nat) : FRes :=
  let n := sewOf fmt
  match fn with
  | 0 => fsqrtP fmt mode ftz (fetchF ftz fmt p)
  | 1 => estElem 0 fmt ftz p
  | 2 => estElem 1 fmt ftz p
  | 3 => estElem 2 fmt ftz p
  | 4 => estElem 3 fmt ftz p
  | 5 => if isFloat fmt then ⟨p % 2 ^ (n - 1), 0⟩ else deliverInt fmt sat ((intVal fmt p).natAbs : Int)
  | 6 => if isFloat fmt then ⟨p % 2 ^ n ^^^ 2 ^ (n - 1), 0⟩ else deliverInt fmt sat (-(intVal fmt p))
  | 7 => ⟨2 ^ n - 1 - p % 2 ^ n, 0⟩
  | 8 => ⟨2 ^ classBit fmt p, 0⟩
  | _ => ⟨p, 0⟩

/-- The element types a VUN function accepts (Table 5.1). -/
def vunAccept (fn : Nat) : Nat → Bool :=
  if fn = 5 || fn = 6 then numeric else if fn = 7 || fn = 9 then fun _ => true else isArith

/-- A VUN instruction of one vector operand (R134). -/
def State.vun (s : State) (i : Instr) (fn : Nat) (d a : Reg) : Out State :=
  s.vec i (fun w sp => { reads := [w.src sp a 0], writes := [(d.toNat, w.grp)], typeOk := vunAccept fn w.etype }) (fun wi _ w sp =>
    let vf := s.vfile w.vfile
    let l := (w.actives sp).map (fun j =>
      (j, vunElem fn w.etype w.rnd w.sat w.ftz (w.getElem vf a.toNat w.sew j)))
    (s.beats w sp w.grp (decide (fn ≤ 4))).deliver wi w sp d.toNat w.etype l)

/-- VSQRT. -/
def execVsqrt (d a : Reg) (s : State) : Out State := s.vun (.vsqrt d a) 0 d a
/-- VRCP. -/
def execVrcp (d a : Reg) (s : State) : Out State := s.vun (.vrcp d a) 1 d a
/-- VRSQ. -/
def execVrsq (d a : Reg) (s : State) : Out State := s.vun (.vrsq d a) 2 d a
/-- VEXP2. -/
def execVexp2 (d a : Reg) (s : State) : Out State := s.vun (.vexp2 d a) 3 d a
/-- VLOG2. -/
def execVlog2 (d a : Reg) (s : State) : Out State := s.vun (.vlog2 d a) 4 d a
/-- VABS. -/
def execVabs (d a : Reg) (s : State) : Out State := s.vun (.vabs d a) 5 d a
/-- VNEG. -/
def execVneg (d a : Reg) (s : State) : Out State := s.vun (.vneg d a) 6 d a
/-- VNOT. -/
def execVnot (d a : Reg) (s : State) : Out State := s.vun (.vnot d a) 7 d a
/-- VCLASS. -/
def execVclass (d a : Reg) (s : State) : Out State := s.vun (.vclass d a) 8 d a
/-- VMOV. -/
def execVmov (d a : Reg) (s : State) : Out State := s.vun (.vmov d a) 9 d a
/-- VBCAST: the low bits of s[a] to every active element. -/
def execVbcast (d a : Reg) (s : State) : Out State :=
  s.vec (.vbcast d a) (fun w _ => { ss := [(a, 0)], writes := [(d.toNat, w.grp)] }) (fun wi _ w sp =>
    (s.beats w sp w.grp false).deliver wi w sp d.toNat w.etype
      ((w.actives sp).map (fun j => (j, ⟨(w.rd a).toNat % 2 ^ w.sew, 0⟩))))

/-- VIOTA: how many earlier elements are active and set in the named mask. -/
def execViota (d : Reg) (a : BitVec 3) (s : State) : Out State :=
  s.vec (.viota d a) (fun w _ => { writes := [(d.toNat, w.grp)], typeOk := integer w.etype }) (fun wi _ w sp =>
    let on := (w.actives sp).filter (fun j => (w.rdK a).getLsbD (j % w.lanes))
    (s.beats w sp w.grp false).deliver wi w sp d.toNat w.etype
      ((w.actives sp).map (fun i => (i, ⟨(on.filter (fun j => decide (j < i))).length % 2 ^ w.sew, 0⟩))))

/-! ### Comparisons (R136) -/

/-- The condition of Table 5.9 on patterns, and whether an operand is a signalling NaN. -/
def vcmpElem (fn fmt : Nat) (ftz : Bool) (a b : Nat) : Bool × Bool :=
  if isFloat fmt then
    let x := fetchF ftz fmt a
    let y := fetchF ftz fmt b
    let un := x.isNan || y.isNan
    let o := cmpV x y
    ((match fn with
      | 0 => !un && o == .eq
      | 1 => un || o != .eq
      | 2 => !un && o == .lt
      | 3 => !un && o != .gt
      | 4 => !un && o == .gt
      | 5 => !un && o != .lt
      | _ => un), x.isSnan || y.isSnan)
  else
    let x := intVal fmt a
    let y := intVal fmt b
    let u := a % 2 ^ sewOf fmt
    let v := b % 2 ^ sewOf fmt
    ((match fn with
      | 0 => decide (x = y)
      | 1 => decide (x ≠ y)
      | 2 => decide (x < y)
      | 3 => decide (x ≤ y)
      | 4 => decide (y < x)
      | 5 => decide (y ≤ x)
      | 6 => decide (u < v)
      | _ => decide (v ≤ u)), false)

/-- The element types a VCMP condition accepts (Table 5.1). -/
def vcmpAccept (fn : Nat) : Nat → Bool := if fn ≤ 5 then numeric else if fn ≤ 7 then integer else isArith

/-- A VCMP (R136): the bits of the active elements of mask d. -/
def State.vcmp (s : State) (i : Instr) (fn : Nat) (d : BitVec 3) (a b : Reg) (x : BitVec 1) : Out State :=
  s.vec i (fun w sp => { planAB 0 a b x (vcmpAccept fn) w sp with writes := [], maskOk := decide (w.vl ≤ w.lanes) })
    (fun wi _ w sp =>
      let vf := s.vfile w.vfile
      let l := (w.actives sp).map (fun j => (j, vcmpElem fn w.etype w.ftz (w.getElem vf a.toNat w.sew j) (w.bElem vf b x j)))
      let m := l.foldl (fun m (j, c, _) =>
        if c then m ||| word (2 ^ j) else m &&& ~~~(word (2 ^ j))) (w.rdK d)
      ((s.beats w sp w.grp true).updWave wi (fun w => w.wrK d m)).raiseFlags wi w sp (flagIf (l.any (fun x => x.2.2)) NV))

/-- VCMP.EQ. -/
def execVcmpEq (d : BitVec 3) (a b : Reg) (x : BitVec 1) (s : State) : Out State := s.vcmp (.vcmpEq d a b x) 0 d a b x
/-- VCMP.NE. -/
def execVcmpNe (d : BitVec 3) (a b : Reg) (x : BitVec 1) (s : State) : Out State := s.vcmp (.vcmpNe d a b x) 1 d a b x
/-- VCMP.LT. -/
def execVcmpLt (d : BitVec 3) (a b : Reg) (x : BitVec 1) (s : State) : Out State := s.vcmp (.vcmpLt d a b x) 2 d a b x
/-- VCMP.LE. -/
def execVcmpLe (d : BitVec 3) (a b : Reg) (x : BitVec 1) (s : State) : Out State := s.vcmp (.vcmpLe d a b x) 3 d a b x
/-- VCMP.GT. -/
def execVcmpGt (d : BitVec 3) (a b : Reg) (x : BitVec 1) (s : State) : Out State := s.vcmp (.vcmpGt d a b x) 4 d a b x
/-- VCMP.GE. -/
def execVcmpGe (d : BitVec 3) (a b : Reg) (x : BitVec 1) (s : State) : Out State := s.vcmp (.vcmpGe d a b x) 5 d a b x
/-- VCMP.LTN. -/
def execVcmpLtn (d : BitVec 3) (a b : Reg) (x : BitVec 1) (s : State) : Out State := s.vcmp (.vcmpLtn d a b x) 6 d a b x
/-- VCMP.GEN. -/
def execVcmpGen (d : BitVec 3) (a b : Reg) (x : BitVec 1) (s : State) : Out State := s.vcmp (.vcmpGen d a b x) 7 d a b x
/-- VCMP.UNORD. -/
def execVcmpUnord (d : BitVec 3) (a b : Reg) (x : BitVec 1) (s : State) : Out State := s.vcmp (.vcmpUnord d a b x) 8 d a b x

end Sys2Proof.Machine
end

