-- ==== Sys2Proof/Machine/Reduce.lean ====
section
/-! DEFINITION. Reductions: spec/05 R142 in the orders of spec/03 R90 and R91. -/

namespace Sys2Proof.Machine

/-- One addition of a reduction: floats rounded under RND, integers under SAT (R90). FTZ acts on the operands and the sum (log
entry 132, DEDUCED). -/
def sumElem (w : Wave) (a b : FRes) : FRes :=
  let r := vopElem 0 w.etype w.rnd w.sat w.ftz a.val b.val
  ⟨r.val, a.flags ||| b.flags ||| r.flags⟩

/-- The identity of the sum: −0 for floats, 0 for integers (R90). -/
def sumIdent (fmt : Nat) : Nat := if isFloat fmt then signBit fmt true else 0

/-- The first power of two, from `p`, that is not below `n`. -/
def powUp (n : Nat) : Nat → Nat → Nat
  | 0, p => p
  | fuel + 1, p => if p < n then powUp n fuel (2 * p) else p

/-- The pairwise halving of R90: `fuel` rounds over a list whose length is a power of two. -/
def pairwise (w : Wave) : Nat → List FRes → FRes
  | 0, l => l.getD 0 ⟨0, 0⟩
  | fuel + 1, l =>
    if l.length ≤ 1 then l.getD 0 ⟨0, 0⟩
    else
      let h := l.length / 2
      pairwise w fuel ((l.take h).zipWith (sumElem w) (l.drop h))

/-- VRED.SUM over the active elements (R90). -/
def redSum (w : Wave) (sp : Split) (vf : VFile) (a : Reg) (init : Nat) : FRes :=
  let p := powUp w.vl 12 1
  let t := (List.range p).map (fun i =>
    if w.active sp i then ⟨w.getElem vf a.toNat w.sew i, 0⟩ else (⟨sumIdent w.etype, 0⟩ : FRes))
  sumElem w ⟨init, 0⟩ (pairwise w 12 t)

/-- VRED.SUMO: strictly in index order (R90). -/
def redSumo (w : Wave) (sp : Split) (vf : VFile) (a : Reg) (init : Nat) : FRes :=
  (w.actives sp).foldl (fun t i => sumElem w t ⟨w.getElem vf a.toNat w.sew i, 0⟩) ⟨init, 0⟩

/-- VRED.MAX and MIN of init and the active elements (R91): +0 exceeds −0, a NaN anywhere gives the canonical NaN. -/
def redPick (w : Wave) (sp : Split) (vf : VFile) (a : Reg) (big : Bool) (init : Nat) : FRes :=
  let l := init :: (w.actives sp).map (fun i => w.getElem vf a.toNat w.sew i)
  if isFloat w.etype then
    let vs := l.map (fetchF w.ftz w.etype)
    if vs.any (·.isNan) then ⟨canonNan w.etype, flagIf (vs.any (·.isSnan)) NV ||| NF⟩
    else
      let v := vs.foldl (fun m x => if lessZ m x == big then x else m) (fetchF w.ftz w.etype init)
      deliverF w.etype 0 false false v false
  else
    ⟨wrapInt w.etype (l.foldl (fun m x => if big then max m (intVal w.etype x) else min m (intVal w.etype x)) (intVal w.etype init)), 0⟩

/-- An init that no element joins: unchanged but for a NaN, which is delivered canonical with the flags it has where VL is not 0 (R142). An infinity carried
through is NF, but with VL 0, which sets no flag (R123; log entry 138, DEDUCED). -/
def initAlone (w : Wave) (init : Nat) : FRes :=
  if isFloat w.etype then
    match decodeF w.etype init with
    | .nan sg => ⟨canonNan w.etype, flagIf sg NV ||| NF⟩
    | .inf _ => ⟨init, flagIf (decide (w.vl ≠ 0)) NF⟩
    | _ => ⟨init, 0⟩
  else ⟨init, 0⟩

/-- A reduction of bits. -/
def redBits (w : Wave) (sp : Split) (vf : VFile) (a : Reg) (f : Nat → Nat → Nat) (init : Nat) : FRes :=
  ⟨(w.actives sp).foldl (fun t i => f t (w.pick vf a i)) init, 0⟩

/-- The result of VRED function `fn` (R142): sum, max, min, and, or, xor, sumo. -/
def redElem (fn : Nat) (w : Wave) (sp : Split) (vf : VFile) (a : Reg) (init : Nat) : FRes :=
  match fn with
  | 3 => redBits w sp vf a (· &&& ·) init
  | 4 => redBits w sp vf a (· ||| ·) init
  | 5 => redBits w sp vf a (· ^^^ ·) init
  | _ =>
    if w.vl = 0 then initAlone w init
    else match fn with
      | 0 => redSum w sp vf a init
      | 1 => redPick w sp vf a true init
      | 2 => redPick w sp vf a false init
      | _ =>
        -- with no addition made, a NaN init is still delivered canonical
        if (w.actives sp).isEmpty then initAlone w init else redSumo w sp vf a init

/-- The element types a VRED function accepts (Table 5.1). -/
def redAccept (fn : Nat) : Nat → Bool := if fn = 3 || fn = 4 || fn = 5 then fun _ => true else numeric

/-- A VRED (R142): the result reaches s[d] later. -/
def State.vred (s : State) (i : Instr) (fn : Nat) (d a b : Reg) : Out State :=
  s.vec i (fun w sp => { reads := [w.src sp a 0], ss := [(b, 1)], sd := [d], typeOk := redAccept fn w.etype })
    (fun wi _ w sp =>
      let r := redElem fn w sp (s.vfile w.vfile) a (inFmt w.etype (w.rd b).toNat)
      ((s.beats w sp w.grp true).updWave wi (fun w => w.later d (extElem w.etype r.val) false)).raiseFlags wi w sp r.flags)

/-- VRED.SUM. -/
def execVredSum (d a b : Reg) (s : State) : Out State := s.vred (.vredSum d a b) 0 d a b
/-- VRED.MAX. -/
def execVredMax (d a b : Reg) (s : State) : Out State := s.vred (.vredMax d a b) 1 d a b
/-- VRED.MIN. -/
def execVredMin (d a b : Reg) (s : State) : Out State := s.vred (.vredMin d a b) 2 d a b
/-- VRED.AND. -/
def execVredAnd (d a b : Reg) (s : State) : Out State := s.vred (.vredAnd d a b) 3 d a b
/-- VRED.OR. -/
def execVredOr (d a b : Reg) (s : State) : Out State := s.vred (.vredOr d a b) 4 d a b
/-- VRED.XOR. -/
def execVredXor (d a b : Reg) (s : State) : Out State := s.vred (.vredXor d a b) 5 d a b
/-- VRED.SUMO. -/
def execVredSumo (d a b : Reg) (s : State) : Out State := s.vred (.vredSumo d a b) 6 d a b

end Sys2Proof.Machine
end

