-- ==== Sys2Proof/Machine/Scalar.lean ====
section
/-! DEFINITION. The integer register operations, immediates and constants of spec/04 R97 to R99. -/

namespace Sys2Proof.Machine

/-- ADD (Table 4.2). -/
def execAdd (d a b : Reg) (w : BitVec 1) (s : State) : Out State := s.iop d a b w (fun o => o.ia + o.ib)
/-- SUB. -/
def execSub (d a b : Reg) (w : BitVec 1) (s : State) : Out State := s.iop d a b w (fun o => o.ia - o.ib)
/-- MUL. -/
def execMul (d a b : Reg) (w : BitVec 1) (s : State) : Out State := s.iop d a b w (fun o => o.ia * o.ib)
/-- MULH. -/
def execMulh (d a b : Reg) (w : BitVec 1) (s : State) : Out State :=
  s.iop d a b w (fun o => (o.ia * o.ib).fdiv (2 ^ o.n : Nat))
/-- MULHN. -/
def execMulhn (d a b : Reg) (w : BitVec 1) (s : State) : Out State :=
  s.iop d a b w (fun o => ((o.ua * o.ub / 2 ^ o.n : Nat) : Int))

/-- The quotient of DIV (Table 4.2). -/
def divS (o : IopIn) : Int :=
  if o.ub = 0 then -1 else if o.ia = -(2 ^ (o.n - 1) : Nat) ∧ o.ib = -1 then o.ia else o.ia.tdiv o.ib
/-- The remainder of REM. -/
def remS (o : IopIn) : Int :=
  if o.ub = 0 then o.ia else if o.ib = -1 then 0 else o.ia - o.ib * o.ia.tdiv o.ib

/-- DIV. -/
def execDiv (d a b : Reg) (w : BitVec 1) (s : State) : Out State := s.iop d a b w divS
/-- DIVN. -/
def execDivn (d a b : Reg) (w : BitVec 1) (s : State) : Out State :=
  s.iop d a b w (fun o => if o.ub = 0 then ((2 ^ o.n - 1 : Nat) : Int) else ((o.ua / o.ub : Nat) : Int))
/-- REM. -/
def execRem (d a b : Reg) (w : BitVec 1) (s : State) : Out State := s.iop d a b w remS
/-- REMN. -/
def execRemn (d a b : Reg) (w : BitVec 1) (s : State) : Out State :=
  s.iop d a b w (fun o => if o.ub = 0 then (o.ua : Int) else ((o.ua % o.ub : Nat) : Int))
/-- AND. -/
def execAnd (d a b : Reg) (w : BitVec 1) (s : State) : Out State := s.iop d a b w (fun o => ((o.ua &&& o.ub : Nat) : Int))
/-- OR. -/
def execOr (d a b : Reg) (w : BitVec 1) (s : State) : Out State := s.iop d a b w (fun o => ((o.ua ||| o.ub : Nat) : Int))
/-- XOR. -/
def execXor (d a b : Reg) (w : BitVec 1) (s : State) : Out State := s.iop d a b w (fun o => ((o.ua ^^^ o.ub : Nat) : Int))
/-- SHL. -/
def execShl (d a b : Reg) (w : BitVec 1) (s : State) : Out State := s.iop d a b w (fun o => ((o.ua * 2 ^ o.sh : Nat) : Int))
/-- SHR. -/
def execShr (d a b : Reg) (w : BitVec 1) (s : State) : Out State := s.iop d a b w (fun o => ((o.ua / 2 ^ o.sh : Nat) : Int))
/-- SHA. -/
def execSha (d a b : Reg) (w : BitVec 1) (s : State) : Out State :=
  s.iop d a b w (fun o => o.ia.fdiv (2 ^ o.sh : Nat))
/-- SLT. -/
def execSlt (d a b : Reg) (w : BitVec 1) (s : State) : Out State := s.iop d a b w (fun o => if o.ia < o.ib then 1 else 0)
/-- SLTN. -/
def execSltn (d a b : Reg) (w : BitVec 1) (s : State) : Out State := s.iop d a b w (fun o => if o.ua < o.ub then 1 else 0)
/-- MIN. -/
def execMin (d a b : Reg) (w : BitVec 1) (s : State) : Out State := s.iop d a b w (fun o => min o.ia o.ib)
/-- MAX. -/
def execMax (d a b : Reg) (w : BitVec 1) (s : State) : Out State := s.iop d a b w (fun o => max o.ia o.ib)
/-- MINN. -/
def execMinn (d a b : Reg) (w : BitVec 1) (s : State) : Out State := s.iop d a b w (fun o => ((min o.ua o.ub : Nat) : Int))
/-- MAXN. -/
def execMaxn (d a b : Reg) (w : BitVec 1) (s : State) : Out State := s.iop d a b w (fun o => ((max o.ua o.ub : Nat) : Int))
/-- CLZ. -/
def execClz (d a : Reg) (w : BitVec 1) (s : State) : Out State := s.iop1 d a w (fun o => (clzN o.n o.ua : Int))
/-- CTZ. -/
def execCtz (d a : Reg) (w : BitVec 1) (s : State) : Out State := s.iop1 d a w (fun o => (ctzN o.n o.ua : Int))
/-- POPC. -/
def execPopc (d a : Reg) (w : BitVec 1) (s : State) : Out State := s.iop1 d a w (fun o => (popcount o.n o.ua : Int))
/-- SEXT: the width code is b (R97). -/
def execSext (d a b : Reg) (s : State) : Out State :=
  s.compute [(a, 0)] d (fun w => wordI (sextN (extWidth b) (w.rd a).toNat))
/-- ZEXT. -/
def execZext (d a b : Reg) (s : State) : Out State :=
  s.compute [(a, 0)] d (fun w => word ((w.rd a).toNat % 2 ^ extWidth b))

/-- ADDI (Table 4.4). -/
def execAddi (d a : Reg) (imm : BitVec 16) (s : State) : Out State := s.compute [(a, 0)] d (fun w => w.rd a + simm imm)
/-- ANDI. -/
def execAndi (d a : Reg) (imm : BitVec 16) (s : State) : Out State :=
  s.compute [(a, 0)] d (fun w => w.rd a &&& imm.setWidth 64)
/-- ORI. -/
def execOri (d a : Reg) (imm : BitVec 16) (s : State) : Out State :=
  s.compute [(a, 0)] d (fun w => w.rd a ||| imm.setWidth 64)
/-- XORI. -/
def execXori (d a : Reg) (imm : BitVec 16) (s : State) : Out State := s.compute [(a, 0)] d (fun w => w.rd a ^^^ simm imm)
/-- SHLI. -/
def execShli (d a : Reg) (m : BitVec 6) (s : State) : Out State := s.compute [(a, 0)] d (fun w => w.rd a <<< m.toNat)
/-- SHRI. -/
def execShri (d a : Reg) (m : BitVec 6) (s : State) : Out State := s.compute [(a, 0)] d (fun w => w.rd a >>> m.toNat)
/-- SHAI. -/
def execShai (d a : Reg) (m : BitVec 6) (s : State) : Out State := s.compute [(a, 0)] d (fun w => (w.rd a).sshiftRight m.toNat)
/-- SLTI. -/
def execSlti (d a : Reg) (imm : BitVec 16) (s : State) : Out State :=
  s.compute [(a, 0)] d (fun w => if sgn (w.rd a) < sgn (simm imm) then 1 else 0)
/-- SLTNI. -/
def execSltni (d a : Reg) (imm : BitVec 16) (s : State) : Out State :=
  s.compute [(a, 0)] d (fun w => if w.rd a < simm imm then 1 else 0)
/-- LI (R99). -/
def execLi (d : Reg) (imm : BitVec 21) (s : State) : Out State := s.compute [] d (fun _ => imm.signExtend 64)
/-- LIH: d is read in position c (R99). -/
def execLih (d : Reg) (imm : BitVec 21) (s : State) : Out State :=
  s.compute [(d, 2)] d (fun w => (w.rd d <<< 21) ||| imm.setWidth 64)

end Sys2Proof.Machine
end

