-- ==== Sys2Proof/Machine/Dispatch.lean ====
section
/-! DEFINITION. Every instruction and event to its meaning. -/

namespace Sys2Proof.Machine

/-- The meaning of an instruction in a state. -/
def exec (i : Instr) (s : State) : Host.Outcome State Fault Refusal :=
  match i with
  | .add d a b w => Sys2Proof.Machine.execAdd d a b w s
  | .sub d a b w => Sys2Proof.Machine.execSub d a b w s
  | .mul d a b w => Sys2Proof.Machine.execMul d a b w s
  | .mulh d a b w => Sys2Proof.Machine.execMulh d a b w s
  | .mulhn d a b w => Sys2Proof.Machine.execMulhn d a b w s
  | .div d a b w => Sys2Proof.Machine.execDiv d a b w s
  | .divn d a b w => Sys2Proof.Machine.execDivn d a b w s
  | .rem d a b w => Sys2Proof.Machine.execRem d a b w s
  | .remn d a b w => Sys2Proof.Machine.execRemn d a b w s
  | .and d a b w => Sys2Proof.Machine.execAnd d a b w s
  | .or d a b w => Sys2Proof.Machine.execOr d a b w s
  | .xor d a b w => Sys2Proof.Machine.execXor d a b w s
  | .shl d a b w => Sys2Proof.Machine.execShl d a b w s
  | .shr d a b w => Sys2Proof.Machine.execShr d a b w s
  | .sha d a b w => Sys2Proof.Machine.execSha d a b w s
  | .slt d a b w => Sys2Proof.Machine.execSlt d a b w s
  | .sltn d a b w => Sys2Proof.Machine.execSltn d a b w s
  | .min d a b w => Sys2Proof.Machine.execMin d a b w s
  | .max d a b w => Sys2Proof.Machine.execMax d a b w s
  | .minn d a b w => Sys2Proof.Machine.execMinn d a b w s
  | .maxn d a b w => Sys2Proof.Machine.execMaxn d a b w s
  | .clz d a w => Sys2Proof.Machine.execClz d a w s
  | .ctz d a w => Sys2Proof.Machine.execCtz d a w s
  | .popc d a w => Sys2Proof.Machine.execPopc d a w s
  | .sext d a b => Sys2Proof.Machine.execSext d a b s
  | .zext d a b => Sys2Proof.Machine.execZext d a b s
  | .addi d a imm => Sys2Proof.Machine.execAddi d a imm s
  | .andi d a imm => Sys2Proof.Machine.execAndi d a imm s
  | .ori d a imm => Sys2Proof.Machine.execOri d a imm s
  | .xori d a imm => Sys2Proof.Machine.execXori d a imm s
  | .shli d a m => Sys2Proof.Machine.execShli d a m s
  | .shri d a m => Sys2Proof.Machine.execShri d a m s
  | .shai d a m => Sys2Proof.Machine.execShai d a m s
  | .slti d a imm => Sys2Proof.Machine.execSlti d a imm s
  | .sltni d a imm => Sys2Proof.Machine.execSltni d a imm s
  | .li d imm => Sys2Proof.Machine.execLi d imm s
  | .lih d imm => Sys2Proof.Machine.execLih d imm s
  | .ldsS8 d a off => Sys2Proof.Machine.execLdsS8 d a off s
  | .ldsS16 d a off => Sys2Proof.Machine.execLdsS16 d a off s
  | .ldsS32 d a off => Sys2Proof.Machine.execLdsS32 d a off s
  | .ldsS64 d a off => Sys2Proof.Machine.execLdsS64 d a off s
  | .ldsN8 d a off => Sys2Proof.Machine.execLdsN8 d a off s
  | .ldsN16 d a off => Sys2Proof.Machine.execLdsN16 d a off s
  | .ldsN32 d a off => Sys2Proof.Machine.execLdsN32 d a off s
  | .sts8 d a off => Sys2Proof.Machine.execSts8 d a off s
  | .sts16 d a off => Sys2Proof.Machine.execSts16 d a off s
  | .sts32 d a off => Sys2Proof.Machine.execSts32 d a off s
  | .sts64 d a off => Sys2Proof.Machine.execSts64 d a off s
  | .amoAdd d a b w c => Sys2Proof.Machine.execAmoAdd d a b w c s
  | .amoAnd d a b w c => Sys2Proof.Machine.execAmoAnd d a b w c s
  | .amoOr d a b w c => Sys2Proof.Machine.execAmoOr d a b w c s
  | .amoXor d a b w c => Sys2Proof.Machine.execAmoXor d a b w c s
  | .amoMin d a b w c => Sys2Proof.Machine.execAmoMin d a b w c s
  | .amoMax d a b w c => Sys2Proof.Machine.execAmoMax d a b w c s
  | .amoMinn d a b w c => Sys2Proof.Machine.execAmoMinn d a b w c s
  | .amoMaxn d a b w c => Sys2Proof.Machine.execAmoMaxn d a b w c s
  | .amoSwap d a b w c => Sys2Proof.Machine.execAmoSwap d a b w c s
  | .amoFadd d a b w c => Sys2Proof.Machine.execAmoFadd d a b w c s
  | .cas d a b w c => Sys2Proof.Machine.execCas d a b w c s
  | .fence sq od scp => Sys2Proof.Machine.execFence sq od scp s
  | .fenceX frm dst => Sys2Proof.Machine.execFenceX frm dst s
  | .beq a b off => Sys2Proof.Machine.execBeq a b off s
  | .bne a b off => Sys2Proof.Machine.execBne a b off s
  | .blt a b off => Sys2Proof.Machine.execBlt a b off s
  | .bge a b off => Sys2Proof.Machine.execBge a b off s
  | .bltn a b off => Sys2Proof.Machine.execBltn a b off s
  | .bgen a b off => Sys2Proof.Machine.execBgen a b off s
  | .jal off => Sys2Proof.Machine.execJal off s
  | .jalr d a imm => Sys2Proof.Machine.execJalr d a imm s
  | .loop a imm => Sys2Proof.Machine.execLoop a imm s
  | .brd a off => Sys2Proof.Machine.execBrd a off s
  | .join => Sys2Proof.Machine.execJoin s
  | .yield => Sys2Proof.Machine.execYield s
  | .nop => Sys2Proof.Machine.execNop s
  | .trap n => Sys2Proof.Machine.execTrap n s
  | .sysc n => Sys2Proof.Machine.execSysc n s
  | .brk n => Sys2Proof.Machine.execBrk n s
  | .rte => Sys2Proof.Machine.execRte s
  | .halt => Sys2Proof.Machine.execHalt s
  | .wfe => Sys2Proof.Machine.execWfe s
  | .claimv => Sys2Proof.Machine.execClaimv s
  | .rstv => Sys2Proof.Machine.execRstv s
  | .srr d n => Sys2Proof.Machine.execSrr d n s
  | .srw a n => Sys2Proof.Machine.execSrw a n s
  | .spawn d a b => Sys2Proof.Machine.execSpawn d a b s
  | .spawnf d a b => Sys2Proof.Machine.execSpawnf d a b s
  | .exit => Sys2Proof.Machine.execExit s
  | .cont d a => Sys2Proof.Machine.execCont d a s
  | .lease d a mn lv => Sys2Proof.Machine.execLease d a mn lv s
  | .lrel => Sys2Proof.Machine.execLrel s
  | .lqry d => Sys2Proof.Machine.execLqry d s
  | .setvl d a => Sys2Proof.Machine.execSetvl d a s
  | .setvli d n => Sys2Proof.Machine.execSetvli d n s
  | .mode d a => Sys2Proof.Machine.execMode d a s
  | .space d a => Sys2Proof.Machine.execSpace d a s
  | .vadd d a b x => Sys2Proof.Machine.execVadd d a b x s
  | .vsub d a b x => Sys2Proof.Machine.execVsub d a b x s
  | .vmul d a b x => Sys2Proof.Machine.execVmul d a b x s
  | .vdiv d a b x => Sys2Proof.Machine.execVdiv d a b x s
  | .vmin d a b x => Sys2Proof.Machine.execVmin d a b x s
  | .vmax d a b x => Sys2Proof.Machine.execVmax d a b x s
  | .vand d a b x => Sys2Proof.Machine.execVand d a b x s
  | .vor d a b x => Sys2Proof.Machine.execVor d a b x s
  | .vxor d a b x => Sys2Proof.Machine.execVxor d a b x s
  | .vshl d a b x => Sys2Proof.Machine.execVshl d a b x s
  | .vshr d a b x => Sys2Proof.Machine.execVshr d a b x s
  | .vsha d a b x => Sys2Proof.Machine.execVsha d a b x s
  | .vmulh d a b x => Sys2Proof.Machine.execVmulh d a b x s
  | .vabsd d a b x => Sys2Proof.Machine.execVabsd d a b x s
  | .vfma d a b x c => Sys2Proof.Machine.execVfma d a b x c s
  | .vfms d a b x c => Sys2Proof.Machine.execVfms d a b x c s
  | .vfnma d a b x c => Sys2Proof.Machine.execVfnma d a b x c s
  | .vfnms d a b x c => Sys2Proof.Machine.execVfnms d a b x c s
  | .vsqrt d a => Sys2Proof.Machine.execVsqrt d a s
  | .vrcp d a => Sys2Proof.Machine.execVrcp d a s
  | .vrsq d a => Sys2Proof.Machine.execVrsq d a s
  | .vexp2 d a => Sys2Proof.Machine.execVexp2 d a s
  | .vlog2 d a => Sys2Proof.Machine.execVlog2 d a s
  | .vabs d a => Sys2Proof.Machine.execVabs d a s
  | .vneg d a => Sys2Proof.Machine.execVneg d a s
  | .vnot d a => Sys2Proof.Machine.execVnot d a s
  | .vclass d a => Sys2Proof.Machine.execVclass d a s
  | .vmov d a => Sys2Proof.Machine.execVmov d a s
  | .vbcast d a => Sys2Proof.Machine.execVbcast d a s
  | .viota d a => Sys2Proof.Machine.execViota d a s
  | .vcmpEq d a b x => Sys2Proof.Machine.execVcmpEq d a b x s
  | .vcmpNe d a b x => Sys2Proof.Machine.execVcmpNe d a b x s
  | .vcmpLt d a b x => Sys2Proof.Machine.execVcmpLt d a b x s
  | .vcmpLe d a b x => Sys2Proof.Machine.execVcmpLe d a b x s
  | .vcmpGt d a b x => Sys2Proof.Machine.execVcmpGt d a b x s
  | .vcmpGe d a b x => Sys2Proof.Machine.execVcmpGe d a b x s
  | .vcmpLtn d a b x => Sys2Proof.Machine.execVcmpLtn d a b x s
  | .vcmpGen d a b x => Sys2Proof.Machine.execVcmpGen d a b x s
  | .vcmpUnord d a b x => Sys2Proof.Machine.execVcmpUnord d a b x s
  | .vcvt d a b c => Sys2Proof.Machine.execVcvt d a b c s
  | .vcvtq d a b fm sat bsel => Sys2Proof.Machine.execVcvtq d a b fm sat bsel s
  | .vcvtd d a b fm bsel => Sys2Proof.Machine.execVcvtd d a b fm bsel s
  | .vshfl d a b => Sys2Proof.Machine.execVshfl d a b s
  | .vslup d a b => Sys2Proof.Machine.execVslup d a b s
  | .vsldn d a b => Sys2Proof.Machine.execVsldn d a b s
  | .vcompr d a c => Sys2Proof.Machine.execVcompr d a c s
  | .vexpnd d a c => Sys2Proof.Machine.execVexpnd d a c s
  | .vextr d a b => Sys2Proof.Machine.execVextr d a b s
  | .vins d a b => Sys2Proof.Machine.execVins d a b s
  | .vsel d a b c => Sys2Proof.Machine.execVsel d a b c s
  | .vredSum d a b => Sys2Proof.Machine.execVredSum d a b s
  | .vredMax d a b => Sys2Proof.Machine.execVredMax d a b s
  | .vredMin d a b => Sys2Proof.Machine.execVredMin d a b s
  | .vredAnd d a b => Sys2Proof.Machine.execVredAnd d a b s
  | .vredOr d a b => Sys2Proof.Machine.execVredOr d a b s
  | .vredXor d a b => Sys2Proof.Machine.execVredXor d a b s
  | .vredSumo d a b => Sys2Proof.Machine.execVredSumo d a b s
  | .mand d a b => Sys2Proof.Machine.execMand d a b s
  | .mor d a b => Sys2Proof.Machine.execMor d a b s
  | .mxor d a b => Sys2Proof.Machine.execMxor d a b s
  | .mandn d a b => Sys2Proof.Machine.execMandn d a b s
  | .mnot d a => Sys2Proof.Machine.execMnot d a s
  | .mcnt d a => Sys2Proof.Machine.execMcnt d a s
  | .mfirst d a => Sys2Proof.Machine.execMfirst d a s
  | .mtil d a => Sys2Proof.Machine.execMtil d a s
  | .mtili d a => Sys2Proof.Machine.execMtili d a s
  | .mset d => Sys2Proof.Machine.execMset d s
  | .mclr d => Sys2Proof.Machine.execMclr d s
  | .mmovs d a => Sys2Proof.Machine.execMmovs d a s
  | .mmovk d a => Sys2Proof.Machine.execMmovk d a s
  | .vld d a => Sys2Proof.Machine.execVld d a s
  | .vlds d a b => Sys2Proof.Machine.execVlds d a b s
  | .vldx d a b => Sys2Proof.Machine.execVldx d a b s
  | .vldf d a => Sys2Proof.Machine.execVldf d a s
  | .vst d a => Sys2Proof.Machine.execVst d a s
  | .vsts d a b => Sys2Proof.Machine.execVsts d a b s
  | .vstx d a b => Sys2Proof.Machine.execVstx d a b s
  | .vamoAdd d a b w c => Sys2Proof.Machine.execVamoAdd d a b w c s
  | .vamoAnd d a b w c => Sys2Proof.Machine.execVamoAnd d a b w c s
  | .vamoOr d a b w c => Sys2Proof.Machine.execVamoOr d a b w c s
  | .vamoXor d a b w c => Sys2Proof.Machine.execVamoXor d a b w c s
  | .vamoMin d a b w c => Sys2Proof.Machine.execVamoMin d a b w c s
  | .vamoMax d a b w c => Sys2Proof.Machine.execVamoMax d a b w c s
  | .vamoMinn d a b w c => Sys2Proof.Machine.execVamoMinn d a b w c s
  | .vamoMaxn d a b w c => Sys2Proof.Machine.execVamoMaxn d a b w c s
  | .vamoSwap d a b w c => Sys2Proof.Machine.execVamoSwap d a b w c s
  | .vamoFadd d a b w c => Sys2Proof.Machine.execVamoFadd d a b w c s
  | .sbind d a => Sys2Proof.Machine.execSbind d a s
  | .sunb d => Sys2Proof.Machine.execSunb d s
  | .sqry d a => Sys2Proof.Machine.execSqry d a s
  | .settile d a => Sys2Proof.Machine.execSettile d a s
  | .tileq d a => Sys2Proof.Machine.execTileq d a s
  | .oclaim d nw role => Sys2Proof.Machine.execOclaim d nw role s
  | .orls a => Sys2Proof.Machine.execOrls a s
  | .ofill d a => Sys2Proof.Machine.execOfill d a s
  | .oqry d a => Sys2Proof.Machine.execOqry d a s
  | .mma d a b hi => Sys2Proof.Machine.execMma d a b hi s
  | .mmas d a b hi => Sys2Proof.Machine.execMmas d a b hi s
  | .mmaz d a b hi => Sys2Proof.Machine.execMmaz d a b hi s
  | .azero a => Sys2Proof.Machine.execAzero a s
  | .axt d a b => Sys2Proof.Machine.execAxt d a b s
  | .axts d a b fm sat bsel => Sys2Proof.Machine.execAxts d a b fm sat bsel s
  | .ains d a b => Sys2Proof.Machine.execAins d a b s
  | .asave d a b => Sys2Proof.Machine.execAsave d a b s
  | .aload d a b => Sys2Proof.Machine.execAload d a b s
  | .cpyA d a b x c => Sys2Proof.Machine.execCpyA d a b x c s
  | .cpyB d a b x c => Sys2Proof.Machine.execCpyB d a b x c s
  | .cpySt d a b x c => Sys2Proof.Machine.execCpySt d a b x c s
  | .cpyBox d a b x c => Sys2Proof.Machine.execCpyBox d a b x c s
  | .cpyO d a b x c => Sys2Proof.Machine.execCpyO d a b x c s
  | .cpySeal d a b x c => Sys2Proof.Machine.execCpySeal d a b x c s
  | .barInit a b => Sys2Proof.Machine.execBarInit a b s
  | .barArv a => Sys2Proof.Machine.execBarArv a s
  | .barExp a b => Sys2Proof.Machine.execBarExp a b s
  | .barWait a b => Sys2Proof.Machine.execBarWait a b s
  | .barTry d a => Sys2Proof.Machine.execBarTry d a s
  | .barTrig d a b => Sys2Proof.Machine.execBarTrig d a b s
  | .waita a b => Sys2Proof.Machine.execWaita a b s
  | .waitge a b => Sys2Proof.Machine.execWaitge a b s
  | .notify a => Sys2Proof.Machine.execNotify a s
  | .rredAdd d a b fm => Sys2Proof.Machine.execRredAdd d a b fm s
  | .rredMax d a b fm => Sys2Proof.Machine.execRredMax d a b fm s
  | .rredMin d a b fm => Sys2Proof.Machine.execRredMin d a b fm s
  | .rsig a b => Sys2Proof.Machine.execRsig a b s
  | .covq d => Sys2Proof.Machine.execCovq d s
  | .plumbLdi d imm => Sys2Proof.Machine.execPlumbLdi d imm s
  | .plumbMov d a => Sys2Proof.Machine.execPlumbMov d a s
  | .plumbAdd d a b => Sys2Proof.Machine.execPlumbAdd d a b s
  | .plumbSub d a b => Sys2Proof.Machine.execPlumbSub d a b s
  | .plumbAnd d a b => Sys2Proof.Machine.execPlumbAnd d a b s
  | .plumbOr d a b => Sys2Proof.Machine.execPlumbOr d a b s
  | .plumbXor d a b => Sys2Proof.Machine.execPlumbXor d a b s
  | .plumbShl d a b => Sys2Proof.Machine.execPlumbShl d a b s
  | .plumbShr d a b => Sys2Proof.Machine.execPlumbShr d a b s
  | .plumbCmpEq d a b => Sys2Proof.Machine.execPlumbCmpEq d a b s
  | .plumbCmpNe d a b => Sys2Proof.Machine.execPlumbCmpNe d a b s
  | .plumbCmpLtn d a b => Sys2Proof.Machine.execPlumbCmpLtn d a b s
  | .plumbCmpLt d a b => Sys2Proof.Machine.execPlumbCmpLt d a b s
  | .plumbSel d a b => Sys2Proof.Machine.execPlumbSel d a b s
  | .plumbBrf a off => Sys2Proof.Machine.execPlumbBrf a off s
  | .plumbLoopn n l => Sys2Proof.Machine.execPlumbLoopn n l s
  | .plumbRdtl d a => Sys2Proof.Machine.execPlumbRdtl d a s
  | .plumbWrtl a => Sys2Proof.Machine.execPlumbWrtl a s
  | .plumbWaittl a b => Sys2Proof.Machine.execPlumbWaittl a b s
  | .plumbRdm d a off => Sys2Proof.Machine.execPlumbRdm d a off s
  | .plumbWrm d a off => Sys2Proof.Machine.execPlumbWrm d a off s
  | .plumbEmit a => Sys2Proof.Machine.execPlumbEmit a s
  | .plumbEnd => Sys2Proof.Machine.execPlumbEnd s
  | .illegalInstructionWord w => Sys2Proof.Machine.execIllegalInstructionWord w s
  | .longLatencyWrite wave n => Sys2Proof.Machine.execLongLatencyWrite wave n s
  | .vectorFaultPoint wave => Sys2Proof.Machine.execVectorFaultPoint wave s
  | .asyncTrapTake wave => Sys2Proof.Machine.execAsyncTrapTake wave s
  | .parkedFaultResolve wave => Sys2Proof.Machine.execParkedFaultResolve wave s
  | .parkedFaultDecline wave => Sys2Proof.Machine.execParkedFaultDecline wave s
  | .streamFill wave v => Sys2Proof.Machine.execStreamFill wave v s
  | .streamTake wave v => Sys2Proof.Machine.execStreamTake wave v s
  | .tileGrantApply wave => Sys2Proof.Machine.execTileGrantApply wave s
  | .mmaDispatch core => Sys2Proof.Machine.execMmaDispatch core s
  | .mmaComplete core => Sys2Proof.Machine.execMmaComplete core s
  | .copyCompletion copy => Sys2Proof.Machine.execCopyCompletion copy s
  | .copyFaultAnswer copy resolved => Sys2Proof.Machine.execCopyFaultAnswer copy resolved s
  | .triggerRetry core => Sys2Proof.Machine.execTriggerRetry core s
  | .binTimerExpiry core bin => Sys2Proof.Machine.execBinTimerExpiry core bin s
  | .binBlockLaunch core => Sys2Proof.Machine.execBinBlockLaunch core s
  | .chunkDeal job core => Sys2Proof.Machine.execChunkDeal job core s
  | .pointLaunch core => Sys2Proof.Machine.execPointLaunch core s
  | .gangPlace queue => Sys2Proof.Machine.execGangPlace queue s
  | .gangAgeingExpiry queue => Sys2Proof.Machine.execGangAgeingExpiry queue s
  | .blockEnd block => Sys2Proof.Machine.execBlockEnd block s
  | .continuationStart block => Sys2Proof.Machine.execContinuationStart block s
  | .gangScratchRelease gang => Sys2Proof.Machine.execGangScratchRelease gang s
  | .clusterGate cluster => Sys2Proof.Machine.execClusterGate cluster s
  | .softError site => Sys2Proof.Machine.execSoftError site s
  | .preemptRequest ctx hard => Sys2Proof.Machine.execPreemptRequest ctx hard s
  | .resumeRequest ctx place => Sys2Proof.Machine.execResumeRequest ctx place s
  | .softDeadlineExpiry ctx => Sys2Proof.Machine.execSoftDeadlineExpiry ctx s
  | .copyGraceExpiry ctx => Sys2Proof.Machine.execCopyGraceExpiry ctx s
  | .imageComplete ctx => Sys2Proof.Machine.execImageComplete ctx s
  | .hardLimitExpiry ctx => Sys2Proof.Machine.execHardLimitExpiry ctx s
  | .capLower cluster => Sys2Proof.Machine.execCapLower cluster s
  | .capRaise cluster => Sys2Proof.Machine.execCapRaise cluster s
  | .leaseDecision ctx => Sys2Proof.Machine.execLeaseDecision ctx s
  | .leaseExpiry ctx => Sys2Proof.Machine.execLeaseExpiry ctx s
  | .meltfUpdate melt => Sys2Proof.Machine.execMeltfUpdate melt s
  | .energyIntervalEnd shares => Sys2Proof.Machine.execEnergyIntervalEnd shares s
  | .equotaSet ctx quota => Sys2Proof.Machine.execEquotaSet ctx quota s
  | .shootdownRequest pasid lo hi => Sys2Proof.Machine.execShootdownRequest pasid lo hi s
  | .shootdownArrival n cluster => Sys2Proof.Machine.execShootdownArrival n cluster s
  | .shootdownAck n cluster => Sys2Proof.Machine.execShootdownAck n cluster s
  | .nearCopyInvalidate die part line => Sys2Proof.Machine.execNearCopyInvalidate die part line s
  | .memoryError place dirtyLine => Sys2Proof.Machine.execMemoryError place dirtyLine s
  | .partitionForm p => Sys2Proof.Machine.execPartitionForm p s
  | .clusterMove cluster part => Sys2Proof.Machine.execClusterMove cluster part s
  | .codeObjectLoad o => Sys2Proof.Machine.execCodeObjectLoad o s
  | .contextCreate ctx fn desc => Sys2Proof.Machine.execContextCreate ctx fn desc s
  | .queueCreate queue fn desc => Sys2Proof.Machine.execQueueCreate queue fn desc s
  | .queueDelete queue => Sys2Proof.Machine.execQueueDelete queue s
  | .queueClear queue next => Sys2Proof.Machine.execQueueClear queue next s
  | .plumbProgramLoad prog words => Sys2Proof.Machine.execPlumbProgramLoad prog words s
  | .doorbell queue w => Sys2Proof.Machine.execDoorbell queue w s
  | .packetFetch queue => Sys2Proof.Machine.execPacketFetch queue s
  | .queueMemoryFaultAnswer queue resolved => Sys2Proof.Machine.execQueueMemoryFaultAnswer queue resolved s
  | .packetJob queue => Sys2Proof.Machine.execPacketJob queue s
  | .packetCopy queue => Sys2Proof.Machine.execPacketCopy queue s
  | .packetTlwait queue => Sys2Proof.Machine.execPacketTlwait queue s
  | .packetTlset queue => Sys2Proof.Machine.execPacketTlset queue s
  | .packetPlumb queue => Sys2Proof.Machine.execPacketPlumb queue s
  | .packetFence queue => Sys2Proof.Machine.execPacketFence queue s
  | .packetNop queue => Sys2Proof.Machine.execPacketNop queue s
  | .jobComplete job => Sys2Proof.Machine.execJobComplete job s
  | .copyPacketComplete copy => Sys2Proof.Machine.execCopyPacketComplete copy s
  | .timelineSignal queue => Sys2Proof.Machine.execTimelineSignal queue s
  | .servicePost wave => Sys2Proof.Machine.execServicePost wave s
  | .serviceDoorbell queue k => Sys2Proof.Machine.execServiceDoorbell queue k s
  | .getVersion => Sys2Proof.Machine.execGetVersion s
  | .getCapabilities => Sys2Proof.Machine.execGetCapabilities s
  | .negotiateAlgorithms offered => Sys2Proof.Machine.execNegotiateAlgorithms offered s
  | .getDigests => Sys2Proof.Machine.execGetDigests s
  | .getCertificate slot => Sys2Proof.Machine.execGetCertificate slot s
  | .challenge slot => Sys2Proof.Machine.execChallenge slot s
  | .getMeasurements part block => Sys2Proof.Machine.execGetMeasurements part block s
  | .keyExchange => Sys2Proof.Machine.execKeyExchange s
  | .finish verified => Sys2Proof.Machine.execFinish verified s
  | .keyUpdate => Sys2Proof.Machine.execKeyUpdate s
  | .heartbeat => Sys2Proof.Machine.execHeartbeat s
  | .endSession => Sys2Proof.Machine.execEndSession s
  | .keyinst secure payload => Sys2Proof.Machine.execKeyinst secure payload s
  | .keydel secure slot part => Sys2Proof.Machine.execKeydel secure slot part s
  | .pasidTeardown pasid => Sys2Proof.Machine.execPasidTeardown pasid s
  | .teardownComplete ctx => Sys2Proof.Machine.execTeardownComplete ctx s
  | .tdiStop part => Sys2Proof.Machine.execTdiStop part s
  | .deviceNumberAssign n => Sys2Proof.Machine.execDeviceNumberAssign n s
  | .bindingInstall part dev rpart => Sys2Proof.Machine.execBindingInstall part dev rpart s
  | .routeTableWrite part dev ports => Sys2Proof.Machine.execRouteTableWrite part dev ports s
  | .flitCrcError port => Sys2Proof.Machine.execFlitCrcError port s
  | .portRetrain port => Sys2Proof.Machine.execPortRetrain port s
  | .portDown port => Sys2Proof.Machine.execPortDown port s
  | .remoteRequestTimeout req => Sys2Proof.Machine.execRemoteRequestTimeout req s
  | .remoteRequest r => Sys2Proof.Machine.execRemoteRequest r s
  | .rredApply req n => Sys2Proof.Machine.execRredApply req n s
  | .rsigApply req => Sys2Proof.Machine.execRsigApply req s
  | .remoteResponse req answer => Sys2Proof.Machine.execRemoteResponse req answer s
  | .infill job point => Sys2Proof.Machine.execInfill job point s
  | .infillFaultAnswer job point resolved => Sys2Proof.Machine.execInfillFaultAnswer job point resolved s
  | .comparatorHit wave => Sys2Proof.Machine.execComparatorHit wave s
  | .debugHaltRequest wave => Sys2Proof.Machine.execDebugHaltRequest wave s
  | .debugResume wave => Sys2Proof.Machine.execDebugResume wave s
  | .debugPortWrite wave r => Sys2Proof.Machine.execDebugPortWrite wave r s
  | .debugArm queue entry => Sys2Proof.Machine.execDebugArm queue entry s
  | .debugPin queue pin => Sys2Proof.Machine.execDebugPin queue pin s
  | .lcuseSample d => Sys2Proof.Machine.execLcuseSample d s
  | .lcmaskClear a => Sys2Proof.Machine.execLcmaskClear a s
  | .wstatClear a => Sys2Proof.Machine.execWstatClear a s
  | .classchgClear a => Sys2Proof.Machine.execClasschgClear a s
  | .wmodeWrite a => Sys2Proof.Machine.execWmodeWrite a s
  | .loopRegisterWrite a n => Sys2Proof.Machine.execLoopRegisterWrite a n s
  | .comparatorRegisterWrite a n => Sys2Proof.Machine.execComparatorRegisterWrite a n s
  | .traceRegisterWrite a n => Sys2Proof.Machine.execTraceRegisterWrite a n s
  | .specialRegisterWrite a n => Sys2Proof.Machine.execSpecialRegisterWrite a n s
  | .reset => Sys2Proof.Machine.execReset s
  | .hostAccess h => Sys2Proof.Machine.execHostAccess h s
  | .clockChange cluster mhz => Sys2Proof.Machine.execClockChange cluster mhz s
  | .hostLinkTrain speed width => Sys2Proof.Machine.execHostLinkTrain speed width s
  | .portTrain port => Sys2Proof.Machine.execPortTrain port s
  | .portAssign port part => Sys2Proof.Machine.execPortAssign port part s
  | .bindingRemove part dev => Sys2Proof.Machine.execBindingRemove part dev s
  | .datumFirmwareUpdate => Sys2Proof.Machine.execDatumFirmwareUpdate s
  | .tdiEnterRun part => Sys2Proof.Machine.execTdiEnterRun part s
  | .ideKmRequest stream switch => Sys2Proof.Machine.execIdeKmRequest stream switch s
  | .faultRingSetup part addr slots => Sys2Proof.Machine.execFaultRingSetup part addr slots s

end Sys2Proof.Machine
end

