-- ==== Sys2Proof/Machine/Issue.lean ====
section
/-! DEFINITION. What a step is made of: which wave a core issues from (spec/10 R222, R223), the events on an instruction boundary (spec/07 R178), the
fetch of its instruction (spec/08 R203 to R205), the accounts kept afterwards (spec/21 R402, spec/10 R223), and the order in which a machine
that nothing directs goes on (log entry 3). -/

namespace Sys2Proof.Machine

/-! ### The waves of a core (spec/10 R222) -/

/-- The priority level of a wave, the highest being 0: D, H, then its queue's priority 3 to 0. -/
def State.level (s : State) (w : Wave) : Nat :=
  if w.lvl = 3 then 0 else if w.lvl ≠ 0 then 1 else 5 - (s.queue (s.block w.block).queue).prio

/-- The waves on a core, those of older blocks first and the lower index within a block. -/
def State.wavesOn (s : State) (core : Nat) : List Nat := (s.blocksOn core).flatMap (fun x => x.1.waves)

/-- A wave can issue or take an async trap now. -/
def State.ready (s : State) (wi : Nat) : Bool :=
  match s.waves[wi]? with
  | none => false
  | some w => s.running w && ((s.issuing w).isSome || s.asyncDue w)

/-- The level of a wave by number. -/
def State.levelOf (s : State) (wi : Nat) : Nat :=
  match s.waves[wi]? with
  | none => 6
  | some w => s.level w

/-! ### Fetching (spec/08 R203 to R205) -/

/-- What became of a fetch. -/
inductive Fetch where
  | word (s : State) (w : IWord)
  | trap (s : State) (t : Trap)
  | pending
  | sent (s : State)

/-- The word a cluster fetches at a key: from its instruction cache, else from memory, where a poisoned one is not to be had. -/
def State.codeAt (s : State) (cl key : Nat) : Option IWord :=
  match (s.cluster cl).icache.find? (fun x => x.1 == key) with
  | some x => some x.2
  | none => if s.poisoned key 4 then none else some (BitVec.ofNat 32 (s.readN key 4))

/-- Words from a key up, `n` at most, until one cannot be had. -/
def State.codeFrom (s : State) (cl : Nat) : Nat → Nat → List IWord
  | _, 0 => []
  | key, n + 1 => match s.codeAt cl key with
    | none => []
    | some w => w :: s.codeFrom cl (key + 4) n

/-- A cluster may have dropped the line of a key (R204: at any time, so it is settled when the line is next looked for). -/
def State.dropLine (s : State) (cl key : Nat) : State :=
  s.updCluster cl (fun c => { c with icache := c.icache.filter (fun x => !(x.1 / 64 == key / 64 && Config.lineDropped s.tick)) })

/-- A cluster keeps the words it fetched from a key up. -/
def State.keepCode (s : State) (cl key : Nat) (l : List IWord) : State :=
  s.updCluster cl (fun c => { c with
    icache := (l.zipIdx.map (fun x => (key + 4 * x.2, x.1))).filter (fun x => c.icache.all (fun y => y.1 != x.1)) ++ c.icache })

/-- The fetch buffer of a split holds `l` from `pc` up. -/
def State.buffer (s : State) (wi si : Nat) (pc : Word) (l : List IWord) : State :=
  s.updWave wi (fun w => { w with splits := updAt w.splits si (fun x => { x with fbase := pc, fbuf := l }) })

/-- The words of a split's fetch buffer from its program counter on. -/
def Split.buffered (sp : Split) : List IWord :=
  if sp.fbase ≤ sp.pc then sp.fbuf.drop ((sp.pc - sp.fbase).toNat / 4) else []

/-- The fetch of a split's next instruction: from its buffer, else translated and read, up to the end of the 64-byte piece. -/
def State.fetch (s : State) (wi si : Nat) (w : Wave) (sp : Split) : Fetch :=
  match sp.buffered with
  | x :: r => .word (s.buffer wi si sp.pc (x :: r)) x
  | [] =>
    let pc := sp.pc
    let cl := clusterOf (s.coreOf w)
    if highBits pc then .trap s ⟨7, 1, pc⟩
    else if bit pc.toNat 56 then .trap s ⟨7, 2, pc⟩
    else match s.translate (s.ctxOf w) (s.coreOf w) pc.toNat .fetch with
      | .trap c sub => .trap s ⟨c, sub, pc⟩
      | .ok (.here key _) =>
        let s := s.dropLine cl key
        match s.codeFrom cl key (16 - pc.toNat / 4 % 16) with
        | [] => .trap s ⟨9, 2, pc⟩
        | x :: r => .word (((s.fillTlb (s.ctxOf w) (s.coreOf w) pc.toNat).keepCode cl key (x :: r)).buffer wi si pc (x :: r)) x
      | .ok (.away dev addr _) => match s.lookRemote wi w pc (dev, .read addr 4) false with
        | .pending => .pending
        | .sent s' => .sent s'
        | .ready a =>
          let r := answerAt a 0 4
          if a.failed.isSome then .trap (s.looked wi) ⟨17, 0, pc⟩
          else if r.bad then .trap (s.looked wi) ⟨9, 2, pc⟩
          else .word ((s.looked wi).buffer wi si pc [BitVec.ofNat 32 r.val]) (BitVec.ofNat 32 r.val)

/-! ### An issue slot of a core -/

/-- What an issue slot holds: an instruction to execute, or an outcome already. -/
inductive Slotful where
  | run (s : State) (wi : Nat) (i : Instr)
  | over (wi : Option Nat) (o : Out State)

/-- An instruction of VCTL (spec/05 R128). -/
def isVctl : Instr → Bool
  | .setvl _ _ | .setvli _ _ | .mode _ _ | .space _ _ => true
  | _ => false

/-- What may issue while an access of the wave has not passed its fault point (spec/02 R63, spec/05 R131): scalar arithmetic, branches and loads, NOP, LOOP
and VCTL; everything else waits in order. -/
def runsAhead : Instr → Bool
  | .add _ _ _ _ | .sub _ _ _ _ | .mul _ _ _ _ | .mulh _ _ _ _ | .mulhn _ _ _ _ | .div _ _ _ _ | .divn _ _ _ _ | .rem _ _ _ _ | .remn _ _ _ _
  | .and _ _ _ _ | .or _ _ _ _ | .xor _ _ _ _ | .shl _ _ _ _ | .shr _ _ _ _ | .sha _ _ _ _ | .slt _ _ _ _ | .sltn _ _ _ _ | .min _ _ _ _
  | .max _ _ _ _ | .minn _ _ _ _ | .maxn _ _ _ _ | .clz _ _ _ | .ctz _ _ _ | .popc _ _ _ | .sext _ _ _ | .zext _ _ _
  | .addi _ _ _ | .andi _ _ _ | .ori _ _ _ | .xori _ _ _ | .shli _ _ _ | .shri _ _ _ | .shai _ _ _ | .slti _ _ _ | .sltni _ _ _
  | .li _ _ | .lih _ _ | .ldsS8 _ _ _ | .ldsS16 _ _ _ | .ldsS32 _ _ _ | .ldsS64 _ _ _ | .ldsN8 _ _ _ | .ldsN16 _ _ _ | .ldsN32 _ _ _
  | .beq _ _ _ | .bne _ _ _ | .blt _ _ _ | .bge _ _ _ | .bltn _ _ _ | .bgen _ _ _ | .jal _ | .jalr _ _ _ | .loop _ _ | .brd _ _ | .nop => true
  | i => isVctl i

/-- The history buffer of a wave has room, for two entries where a VCTL writes two registers, or none is needed (spec/02 R63, spec/05 R131). -/
def Wave.mayIssue (w : Wave) (i : Instr) : Bool := !w.ahead || (runsAhead i && decide (w.hist.length + (if isVctl i then 2 else 1) ≤ 16))

/-- The half of a legacy wave that issues is the one served last (spec/02 R66). -/
def State.serve (s : State) (w : Wave) : State := if w.mate.isNone then s else s.updVFile w.vfile (fun f => { f with served := w.half })

/-- A split's slot past the comparators (R178): an async trap, then its next instruction. -/
def State.issueSplit (s : State) (wi si : Nat) (w : Wave) (sp : Split) : Slotful :=
  if s.asyncDue w then .over (some wi) (execAsyncTrapTake wi s)
  else if w.asyncPends && !w.lookHeld then .over (some wi) (.next (s.stall wi si))
  else
    let s := { s with cur := ⟨wi, si, s.cur.run, s.cur.fn⟩ }.serve w
    match s.fetch wi si w sp with
    | .pending => .over none (.next (s.stall wi si))
    | .sent s' => .over none (.next (s'.stall wi si))
    | .trap s' t => .over (some wi) (.next (s.trapOr s' wi si sp.pc t false true))
    | .word s' x => match decodeWord x with
      | .instr i => if w.mayIssue i then .run s' wi i else .over (some wi) (.next (s'.stall wi si))
      | .illegal _ _ => .over (some wi) (execIllegalInstructionWord x s')

/-- The outcome of a slot, with a meaning for every instruction. -/
def Slotful.out (run : Instr → State → Out State) : Slotful → Out State
  | .run t _ i => run i t
  | .over _ o => o

/-- The outcome found the split not ready under R52: it is held at its instruction. -/
def State.found (s : State) (wi si : Nat) : Out State → Bool
  | .next t => match (t.waves[wi]?).bind (fun x => x.splits[si]?) with
    | some x => t.now == s.now && t.heldNow x && !x.stalls
    | none => false
  | _ => false

/-- The issue slot of a wave (R178): the empty read its split owes, once the cut is formed; a comparator hit, unless the split is found not ready at its
instruction (spec/21 R396); then the rest. -/
def State.issueWave (s : State) (run : Instr → State → Out State) (wi : Nat) (w : Wave) : Slotful :=
  match (s.issuing w).bind (fun si => (w.splits[si]?).map (fun sp => (si, sp))) with
  | none => .over (some wi) (if s.asyncDue w then execAsyncTrapTake wi s else .next s)
  | some (si, sp) =>
    match sp.due with
    | some t => .over (some wi) (.next (s.trapOr s wi si sp.pc t false false))
    | none =>
      let past := s.issueSplit wi si w sp
      if (s.hitting w sp).isEmpty || s.found wi si (past.out run) then past else .over (some wi) (execComparatorHit wi s)

/-- The issue slot of a wave carried out, with a meaning for every instruction. -/
def State.attempt (s : State) (run : Instr → State → Out State) (wi : Nat) (w : Wave) : Out State := (s.issueWave run wi w).out run

/-- No split of a wave is ready under R52: each one that would issue is held, the `fuel` of them being tried in turn. -/
def State.stuck (s : State) (run : Instr → State → Out State) (wi : Nat) : Nat → Bool
  | 0 => true
  | fuel + 1 =>
    match s.waves[wi]? with
    | none => true
    | some w =>
      if !s.running w then true
      else match s.issuing w with
        | none => !w.splits.any (s.canIssue w)
        | some si => match s.attempt run wi w with
          | .next t => s.found wi si (.next t) && t.stuck run wi fuel
          | _ => false

/-! ### The issuing wave of a core (spec/10 R222, R223) -/

/-- A wave is ready (spec/02 R52, spec/10 R222): an async trap is due, or some split of it is not found waiting at its instruction. -/
def State.live (s : State) (run : Instr → State → Out State) (wi : Nat) : Bool :=
  s.ready wi && ((match s.waves[wi]? with | some w => s.asyncDue w | none => false) || !s.stuck run wi 4)

/-- The allowance of a core's cluster lets a level issue. -/
def State.allowed (s : State) (run : Instr → State → Out State) (core l : Nat) : Bool :=
  let cl := clusterOf core
  let a := (s.cluster cl).allowance
  if 0 ≤ a then true
  else
    let levels := (((List.range 4).flatMap (fun i => s.wavesOn (4 * cl + i))).filter (s.live run)).map s.levelOf
    l == levels.foldl min 6 && (decide (-(64 * (s.credit cl : Int)) ≤ a) || decide (l ≤ 1))

/-- Of two halves of a legacy wave that could both issue, the one that did not issue last (spec/02 R66). -/
def State.alternate (s : State) (l : List Nat) (wi : Nat) : Nat :=
  match s.waves[wi]? with
  | none => wi
  | some w => match w.mate with
    | none => wi
    | some m => if l.contains m && (s.vfile w.vfile).served == w.half then m else wi

/-- The wave of a list a core issues from. -/
def State.pickOf (s : State) (run : Instr → State → Out State) (core : Nat) (l : List Nat) : Option Nat :=
  let l := l.filter (fun wi => s.ready wi && s.allowed run core (s.levelOf wi))
  ((bestIdx (fun _ => true) (fun x y => decide (s.levelOf x < s.levelOf y)) l 0 none).bind (fun i => l[i]?)).map (s.alternate l)

/-- The wave a core issues from. -/
def State.pick (s : State) (run : Instr → State → Out State) (core : Nat) : Option Nat := s.pickOf run core (s.wavesOn core)

/-- A ready wave of a core is withheld in this cycle. -/
def State.withholds (s : State) (run : Instr → State → Out State) (core : Nat) : Bool :=
  (s.wavesOn core).any (fun wi => s.live run wi && !s.allowed run core (s.levelOf wi))

/-- A cluster withholds a ready wave (spec/10 R223). -/
def State.withholding (s : State) (run : Instr → State → Out State) (cl : Nat) : Bool :=
  decide ((s.cluster cl).allowance < 0) && (List.range 4).any (fun i => s.withholds run (4 * cl + i))

/-- The issue slot of a core: nothing where no wave is ready or all are withheld. -/
def State.issueCore (s : State) (run : Instr → State → Out State) (core : Nat) : Slotful :=
  match s.pick run core with
  | none => .over none (.next s)
  | some wi => match s.waves[wi]? with
    | none => .over none (.next s)
    | some w => s.issueWave run wi w

/-- An issue slot given to one wave: nothing where it is not ready or its level is withheld. -/
def State.issueOne (s : State) (run : Instr → State → Out State) (wi : Nat) : Slotful :=
  match s.waves[wi]? with
  | none => .over none (.next s)
  | some w => if s.ready wi && s.allowed run (s.coreOf w) (s.levelOf wi) then s.issueWave run wi w else .over none (.next s)

/-- The core of a wave by number. -/
def State.homeOf (s : State) (wi : Nat) : Nat :=
  match s.waves[wi]? with
  | none => 0
  | some w => s.coreOf w

/-- An instruction whose beats are vector-memory beats (Table 10.6). -/
def vecMem : Instr → Bool
  | .vld _ _ | .vlds _ _ _ | .vldx _ _ _ | .vldf _ _ | .vst _ _ | .vsts _ _ _ | .vstx _ _ _ | .vamoAdd _ _ _ _ _ | .vamoAnd _ _ _ _ _
  | .vamoOr _ _ _ _ _ | .vamoXor _ _ _ _ _ | .vamoMin _ _ _ _ _ | .vamoMax _ _ _ _ _ | .vamoMinn _ _ _ _ _ | .vamoMaxn _ _ _ _ _
  | .vamoSwap _ _ _ _ _ | .vamoFadd _ _ _ _ _ => true
  | _ => false

/-- An SRW of LCMASK, which clears the lane-cycle counters. -/
def clearsLanes : Instr → Bool
  | .srw _ n => n == 0x061#12
  | _ => false

/-- The lane-cycles a wave has counted. -/
def State.laneSum (s : State) (wi : Nat) : Nat :=
  match s.waves[wi]? with
  | none => 0
  | some w => (s.vfile w.vfile).lc.toList.foldl (fun n v => n + v.toNat) 0

/-- The lane-cycles of the waves of a core that performed no beat in the slot (spec/21 R402): LCSTART where some split was ready, else LCSTALL. -/
def State.countLanes (s s' : State) (run : Instr → State → Out State) (core : Nat) (ran : Option Nat) (clears : Bool) : State :=
  let beats := match ran with | none => 0 | some wi => (s'.laneSum wi - s.laneSum wi) / 64
  let cycles := if beats = 0 then 1 else beats
  (s.wavesOn core).foldl (fun (t : State) (wi : Nat) => match s.waves[wi]? with
    | none => t
    | some w =>
      if w.half ≠ 0 || w.halted then t
      else
        let mine := ran == some wi || (ran.isSome && ran == w.mate)
        let live := !s.stuck run wi 4 || (match w.mate with | some m => !s.stuck run m 4 | none => false)
        if mine && (beats ≠ 0 || clears) then t
        else if live then t.addLanes w 0 0 0 (64 * cycles) 0 else t.addLanes w 0 0 0 0 (64 * cycles)) s'

/-! ### A machine that nothing directs (log entry 3) -/

/-- The kinds of packet start, by type. -/
def State.startPacket (s : State) (qi : Nat) : Out State :=
  match s.nextPacket qi with
  | none => idle s
  | some p => match p.type with
    | 1 => execPacketJob qi s
    | 2 => execPacketCopy qi s
    | 3 => execPacketTlwait qi s
    | 4 => execPacketTlset qi s
    | 5 => execPacketPlumb qi s
    | 6 => execPacketFence qi s
    | _ => execPacketNop qi s

/-- The first of a list of meanings that has an effect. -/
def firstOf (s : State) : List (State → Out State) → Out State
  | [] => .next s
  | f :: r => match f s with
    | .next s' => if s'.now = s.now then firstOf s r else .next s'
    | o => o

/-- The meanings of the device's own events in this state, which need nothing from outside. -/
def State.ownEvents (s : State) : List (State → Out State) :=
  let each (n : Nat) (f : Nat → State → Out State) : List (State → Out State) := (List.range n).map f
  each s.waves.length (fun i => execLongLatencyWrite i 0)
    ++ each s.waves.length execVectorFaultPoint
    ++ (s.waves.zipIdx.flatMap (fun x => x.1.streams.flatMap (fun t =>
        [execStreamTake x.2 (BitVec.ofNat 5 t.reg), execStreamFill x.2 (BitVec.ofNat 5 t.reg)])))
    ++ each s.waves.length execTileGrantApply
    ++ each s.cores.length execMmaComplete
    ++ each s.cores.length execMmaDispatch
    ++ each s.fabric.arrived.length (fun i => execRredApply i 0)
    ++ each s.fabric.arrived.length execRsigApply
    ++ each s.copies.length execCopyCompletion
    ++ each s.copies.length execCopyPacketComplete
    ++ each s.ctxs.length execLeaseDecision
    ++ each s.ctxs.length execLeaseExpiry
    ++ each s.ctxs.length execImageComplete
    ++ each s.ctxs.length execCopyGraceExpiry
    ++ each s.ctxs.length execSoftDeadlineExpiry
    ++ each s.ctxs.length execHardLimitExpiry
    ++ each s.ctxs.length execTeardownComplete
    ++ each s.waves.length execServicePost
    ++ each s.blocks.length execBlockEnd
    ++ each s.blocks.length execContinuationStart
    ++ each s.gangs.length execGangScratchRelease
    ++ each s.cores.length execTriggerRetry
    ++ (List.range 8).flatMap (fun b => each s.cores.length (fun c => execBinTimerExpiry c b))
    ++ each s.cores.length execBinBlockLaunch
    ++ each s.cores.length execPointLaunch
    ++ each s.queues.length execGangPlace
    ++ each s.queues.length execGangAgeingExpiry
    ++ (List.range s.jobs.length).flatMap (fun j => each s.cores.length (execChunkDeal j))
    ++ (s.jobs.zipIdx.flatMap (fun x => x.1.skipped.map (fun y => execInfill x.2 y.point)))
    ++ (s.jobs.zipIdx.flatMap (fun x => x.1.mapDue.map (fun y => execInfill x.2 y.point)))
    ++ each s.jobs.length execJobComplete
    ++ each s.queues.length execTimelineSignal
    ++ each s.queues.length (fun q s => s.startPacket q)
    ++ each s.queues.length execPacketFetch
    ++ (List.range s.shoots.length).flatMap (fun n => each s.clusters.length (execShootdownArrival n))
    ++ (List.range s.shoots.length).flatMap (fun n => each s.clusters.length (execShootdownAck n))
    ++ each s.fabric.out.length execRemoteRequestTimeout

/-- What issue slot `n` holds, two slots to a core: of an M-core, the second goes to another wave than the one that issued last (Table 10.1). -/
def State.slotTurn (s : State) (run : Instr → State → Out State) (n : Nat) : Option Turn :=
  let core := n / 2
  if n % 2 = 0 then (s.pick run core).map (fun _ => .core core)
  else if isE core then none
  else (s.pickOf run core ((s.wavesOn core).filter (fun wi => wi != s.cur.wave && (match s.waves[wi]? with
    | some w => w.mate != some s.cur.wave
    | none => true)))).map .wave

/-- The first slot from a number on with something to issue, and what it holds. -/
def State.firstReady (s : State) (run : Instr → State → Out State) : Nat → Nat → Option (Nat × Turn)
  | 0, _ => none
  | fuel + 1, n => match s.slotTurn run n with
    | some t => some (n, t)
    | none => s.firstReady run fuel (n + 1)

/-- The first unfinished plumb run from a number on. -/
def firstRun : List PlumbRun → Nat → Option Nat
  | [], _ => none
  | r :: rs, n => if r.finished then firstRun rs (n + 1) else some n

/-- What comes next: what the agenda says, else the slots of the cores in turn, the plumb runs and an event of the device's own. -/
inductive Next where
  | turn (s : State) (t : Turn)
  | own (s : State)

/-- The next turn. -/
def State.nextTurn (s : State) (run : Instr → State → Out State) : Next :=
  match s.agenda with
  | t :: r => .turn { s with agenda := r } t
  | [] => match s.firstReady run (2 * s.cores.length - s.turn) s.turn with
    | some (n, t) => .turn { s with turn := n + 1 } t
    | none =>
      if s.turn = 2 * s.cores.length + 1 then .own { s with turn := 0 }
      else match firstRun s.runs 0 with
        | some r => .turn { s with turn := 2 * s.cores.length + 1 } (.plumb r)
        | none => .own { s with turn := 0 }

/-- An event of the device's own. -/
def State.ownEvent (s : State) : Out State := firstOf s s.ownEvents

/-- The plumb operation a run is at. -/
def State.plumbWord (s : State) (n : Nat) : Option Instr :=
  match s.runs[n]? with
  | none => none
  | some r => if r.finished then none else decodePlumb (r.words.drop r.pc)

/-- The draw numbers one step may use. -/
def stride : Nat := 2 ^ 128

/-- A step begins: its free values are new ones, the front end hears which cores ask for a chunk, bins that wait for a place are put back, and early requests
of other devices are taken up whose turn has come. -/
def State.begin (s : State) : State := { s.listen.rebin.overdue with tick := s.tick + stride }

/-- Time passes at the end of a step. -/
def State.timed (s : State) (run : Instr → State → Out State) (o : Out State) : Out State :=
  match o with
  | .next s' => .next (s'.pass (Config.elapsed s.tick) (s'.withholding run))
  | o => o

/-- The end of a core's slot: the debit of the instruction it issued, the lane-cycles, and time. -/
def State.slotDone (s : State) (run : Instr → State → Out State) (core : Nat) (ran : Option Nat) (i : Option Instr) (o : Out State) : Out State :=
  match o with
  | .next s' =>
    let t := match ran, i with
      | some wi, some i => s.debit s' core wi (vecMem i)
      | _, _ => s'
    s.timed run (.next (s.countLanes t run core ran (match i with | some i => clearsLanes i | none => false)))
  | o => o

/-! ### An instruction placed where the next step fetches (log entry 10) -/

/-- The split that the next step issues from, as wave and place. -/
def State.nextFetch (s : State) (run : Instr → State → Out State) : Option (Nat × Nat) :=
  if s.waves.isEmpty then none
  else match s.nextTurn run with
    | .turn t (.core n) => (t.pick run n).bind (fun wi => (t.waves[wi]?).bind (fun w => (t.issuing w).map (fun si => (wi, si))))
    | .turn t (.wave wi) =>
      if t.ready wi && t.allowed run (t.homeOf wi) (t.levelOf wi) then (t.waves[wi]?).bind (fun w => (t.issuing w).map (fun si => (wi, si))) else none
    | _ => none

/-- An M-core without a wave, core 4 where there is none. -/
def State.emptyCore (s : State) : Nat := ((List.range 512).find? (fun c => !isE c && (s.wavesOn c).isEmpty)).getD 4

/-- A block of one wave launched on an M-core, its fetch buffer holding the words `l`, and that core's slot next. -/
def State.placeWave (s : State) (l : List IWord) : State :=
  let core := s.emptyCore
  let bi := s.blocks.length
  let b : Block := { Block.blank with
    core := core
    ctx := s.ctxs.length
    queue := s.queues.length
    gang := s.gangs.length
    waves := [s.waves.length]
    phase := .running }
  let w := Wave.launch bi 0 0 none s.vfiles.length false 0 0 0
  { s with
    blocks := s.blocks ++ [b]
    gangs := s.gangs ++ [⟨[bi], 1, clusterOf core, [], false⟩]
    vfiles := s.vfiles ++ [VFile.blank]
    waves := s.waves ++ [{ w with splits := w.splits.map (fun x => { x with fbuf := l }) }]
    agenda := .core core :: s.agenda }

/-- A plumb run of the words `l` on an open queue, and its slot next. -/
def State.placeRun (s : State) (l : List (BitVec 16)) : State :=
  { s with
    queues := s.queues ++ [{ Queue.blank with mode := .opened, deleted := false }]
    runs := s.runs ++ [⟨s.queues.length, 0, 0, l, 0, Vector.replicate 8 0, 0, [], none, false⟩]
    agenda := .plumb s.runs.length :: s.agenda }

/-- The wave words in a list of bytes. -/
def waveWords : List Byte → List IWord
  | b0 :: b1 :: b2 :: b3 :: r => BitVec.ofNat 32 (leValue [b0, b1, b2, b3]) :: waveWords r
  | _ => []

/-- Wave words placed for the next fetch. -/
def State.placeWords (s : State) (run : Instr → State → Out State) (l : List IWord) : State :=
  match s.nextFetch run with
  | none => s.placeWave l
  | some (wi, si) => s.updWave wi (fun w => { w with splits := updAt w.splits si (fun x => { x with fbase := x.pc, fbuf := l }) })

/-- The bits of a table row are a wave word: 32 of them that are not the pair of a LOOPN. -/
def waveRow (nbits w : Nat) : Bool :=
  nbits == 32 && (match decodeTableWord nbits w with | some (.plumbLoopn _ _) => false | _ => true)

end Sys2Proof.Machine
end

