-- ==== Sys2Proof/Machine/Step.lean ====
section
/-! DEFINITION. One step of the machine, and the state in which an instruction stands where the next step fetches. -/

namespace Sys2Proof.Machine

/-- One step: an event, a message, a setting of the field firmware, an issue slot of a core, or a plumb word. -/
def step (s : State) : Host.Outcome State Fault Refusal :=
  match s.begin.nextTurn exec with
  | .own s => s.timed exec s.ownEvent
  | .turn s (.event i) => s.timed exec (exec i s)
  | .turn s (.message fn i) => s.timed exec (exec i { s with cur := ⟨s.cur.wave, s.cur.split, s.cur.run, fn⟩ })
  | .turn s (.idle cl ns) => s.timed exec (.next (s.setIdle cl ns))
  | .turn s (.core n) =>
    match s.issueCore exec n with
    | .run s' wi i => s'.slotDone exec n (some wi) (some i) (exec i s')
    | .over ran o => s.slotDone exec n ran none o
  | .turn s (.wave n) =>
    match s.issueOne exec n with
    | .run s' wi i => s'.slotDone exec (s.homeOf n) (some wi) (some i) (exec i s')
    | .over ran o => s.slotDone exec (s.homeOf n) ran none o
  | .turn s (.plumb n) =>
    match s.plumbWord n with
    | none => s.timed exec (.next s)
    | some i => s.timed exec (exec i { s with cur := ⟨s.cur.wave, s.cur.split, n, s.cur.fn⟩ })

/-- The state with an instruction, numbered as in spec/opcode_table.json, placed where the next step fetches: a wave word in the fetch buffer
of the split that issues next, or of a new wave where none does; plumb words in a run whose slot is next. -/
def State.withFetchWord (s : State) (nbits w : Nat) : State :=
  if waveRow nbits w then s.placeWords exec (waveWords (leBytes 4 w))
  else if nbits = 32 then s.placeRun (plumbWords (plumbPair w))
  else s.placeRun (plumbWords (leBytes 2 w ++ [0, 0]))

end Sys2Proof.Machine
end

