-- ==== Sys2Proof/Safety.lean ====
section
/-! DEFINITION. What a safe run is: every step answers a next state, and memory keeps its canonical form. -/

namespace Sys2Proof.Safety

open Sys2Proof.Machine

/-- The invariant of memory: its canonical form. -/
def MemoryOk (s : State) : Prop := Memory.wf s.mem = true

/-- A step that neither faults nor refuses. -/
def Steps (s : State) : Prop := ∃ s', step s = .next s'

end Sys2Proof.Safety
end

