-- ==== Sys2Proof/Certificates/Slice0/Terms.lean ====
section
/-! DEFINITION. The words the statements of Obligations.lean are written in: which split issues, which operands are ready, what a
completed instruction leaves, and what an instruction leaves alone. -/

namespace Sys2Proof.Claims

open Sys2Proof.Machine

/-- Split `sp`, at place `si` of wave `w`, number `wi`, is the one that issues. -/
structure Issues (s : State) (wi si : Nat) (w : Wave) (sp : Split) : Prop where
  wave : s.waves[wi]? = some w
  split : w.splits[si]? = some sp
  curWave : s.cur.wave = wi
  curSplit : s.cur.split = si

/-- Where a split goes, by the loop step of R107. -/
def goes (sp : Split) (next stepPc : Word) (taken : Bool) : Word × Loops := loopStep 3 sp.loops next stepPc taken

/-- The transfer stays below 2^57, or is the sequential one, which R104 leaves to the next fetch. -/
def InRange (sp : Split) (next stepPc : Word) (taken : Bool) : Prop :=
  highBits (goes sp next stepPc taken).1 = true → taken = false ∧ (goes sp next stepPc taken).1 = next

/-- The same for an instruction that goes on at the next word. -/
def Straight (sp : Split) : Prop := InRange sp (sp.pc + 4) sp.pc false

/-- The state `s'` with the split gone on to `next`, and something changed for those that wait. -/
def moved (s' : State) (wi si : Nat) (sp : Split) (next stepPc : Word) (taken : Bool) : State :=
  (s'.updWave wi (fun w => w.advance si sp (goes sp next stepPc taken).1 (goes sp next stepPc taken).2)).bump

/-- The same at the next word. -/
def stepped (s' : State) (wi si : Nat) (sp : Split) : State := moved s' wi si sp (sp.pc + 4) sp.pc false

/-- Instruction `i` of the split that issues answers the next state in which it has gone on to the next word from `s'`. -/
def Gives (i : Instr) (s : State) (wi si : Nat) (sp : Split) (s' : State) : Prop :=
  exec i s = .next (stepped s' wi si sp)

/-- Scalar registers that can be read now: full and not poisoned (spec/02 R56, R57, spec/07 R193). -/
def Reads (w : Wave) (l : List Reg) : Prop := ∀ r ∈ l, w.sIsFull r = true ∧ w.sIsPois r = false

/-- Scalar registers that can be written now: full (R56). -/
def Writes (w : Wave) (l : List Reg) : Prop := ∀ r ∈ l, w.sIsFull r = true

/-- An IOP on words: at 64 bits, or on the low 32 bits with the result sign-extended (R97). -/
def iop (x : BitVec 1) (a b : Word) (f : (n : Nat) → BitVec n → BitVec n → BitVec n) : Word :=
  if x = 1 then (f 32 (a.setWidth 32) (b.setWidth 32)).signExtend 64 else f 64 a b

/-- Everything but memory, the waves, the translations that cores and clusters hold, what blocks note of their accesses outside (the side-effect latch, the stores of
a coverage launch) and the count of changes is the same. -/
def SameRest (s t : State) : Prop :=
  { t with mem := s.mem, pois := s.pois, waves := s.waves, cores := s.cores, clusters := s.clusters, blocks := s.blocks, now := s.now } = s
    ∧ t.blocks.map (fun b => { b with latch := false, wrote := [] }) = s.blocks.map (fun b => { b with latch := false, wrote := [] })
    ∧ t.cores.map (fun c => { c with tlb := [] }) = s.cores.map (fun c => { c with tlb := [] })
    ∧ t.clusters.map (fun c => { c with tlb := [] }) = s.clusters.map (fun c => { c with tlb := [] })

/-- No byte of `l` is one that an older access of the wave on the vector, stream, fabric or copy path is still to write, or, for a write, to read: nothing holds the
access back (spec/06 R147). -/
def PathsClear (s : State) (wi : Nat) (w : Wave) (l : List Span) (writes : Bool) : Prop :=
  ∀ x ∈ s.takeSpans wi w ++ s.fabricSpans wi ++ s.copySpans wi writes ++ (if writes then s.fillSpans wi w else []) ++ w.askSpans, ∀ y ∈ l,
    x.1 ≠ y.1 ∨ x.2.1 + x.2.2 ≤ y.2.1 ∨ y.2.1 + y.2.2 ≤ x.2.1

/-- No barrier in use holds one of `n` bytes from key `k` (spec/12 R265). -/
def NoBarrier (s : State) (k n : Nat) : Prop := ∀ b ∈ s.bars, b.key + 16 ≤ k ∨ k + n ≤ b.key

/-- Every byte of memory, and every granule's poison, is the same. -/
def SameMemory (s t : State) : Prop := (∀ a, memRead t.mem a = memRead s.mem a) ∧ t.pois = s.pois

/-- Every byte of memory outside `n` bytes from key `k` is the same, and so is the poison of every granule but those written whole. -/
def SameOutside (s t : State) (k n : Nat) : Prop :=
  (∀ a, a < k ∨ k + n ≤ a → memRead t.mem a = memRead s.mem a)
    ∧ ∀ g, g ∈ t.pois ↔ g ∈ s.pois ∧ ¬ (k ≤ 8 * g ∧ 8 * g + 8 ≤ k + n)

/-- Every wave but number `wi` is the same. -/
def SameWaves (s t : State) (wi : Nat) : Prop := ∀ j, j ≠ wi → t.waves[j]? = s.waves[j]?

/-- Of wave `wi`, only its splits, what `l` names of the scalar registers (value, full bit, poison bit), the results `new` put in flight and the history buffer
(spec/02 R63) differ. -/
def SameWave (t : State) (wi : Nat) (w : Wave) (l : List Reg) (new : List LongWrite) : Prop :=
  ∃ w', t.waves[wi]? = some w'
    ∧ (∀ r, r ∉ l → w'.rd r = w.rd r ∧ w'.sIsFull r = w.sIsFull r ∧ w'.sIsPois r = w.sIsPois r)
    ∧ w'.pend = w.pend ++ new
    ∧ { w' with s := w.s, sFull := w.sFull, sPois := w.sPois, splits := w.splits, pend := w.pend, hist := w.hist } = w

/-- What the history buffer `l`, newest first, kept of scalar register `r`: the value and poison before the oldest of the younger writes (spec/02 R64). -/
def heldReg (l : List Hist) (r : Reg) : Option (Word × Bool) :=
  l.reverse.findSome? (fun h => match h with | .reg n v p => if n = r then some (v, p) else none | _ => none)

/-- The same of VL, which a change of mode keeps too. -/
def heldVl (l : List Hist) : Option Nat := l.reverse.findSome? (fun h => match h with | .vl v _ => some v | .mode _ v => some v | _ => none)

/-- The same of WMODE. -/
def heldMode (l : List Hist) : Option (BitVec 32) := l.reverse.findSome? (fun h => match h with | .mode m _ => some m | _ => none)

/-- The same of SPACE. -/
def heldSpace (l : List Hist) : Option (BitVec 2) := l.reverse.findSome? (fun h => match h with | .space v => some v | _ => none)

/-- The failed access `q` of wave `wi` is undone and trap `tr` taken (spec/02 R64): its destination `d`, where it has one, is full; the splits stand where they stood;
every scalar register with its poison, VL, WMODE and SPACE are what they were before it; the results in flight are the older ones. -/
def Undone (t : State) (wi : Nat) (w : Wave) (q : RemoteAsk) (tr : Trap) (write : Bool) (d : Option Reg) : Prop :=
  ∀ sp, q.splits[q.split]? = some sp → ∃ (u : State) (w' : Wave), t = u.takeTrap wi q.split sp.pc tr write false ∧ u.waves[wi]? = some w'
    ∧ w'.splits = q.splits ∧ w'.ask = none ∧ w'.ahead = false ∧ w'.hist = [] ∧ w'.pend = w.pend.take q.older
    ∧ (∀ r, d = some r → w'.sIsFull r = true)
    ∧ (∀ r : Reg, r ≠ 0 → (w'.rd r, w'.sIsPois r) = (heldReg w.hist r).getD (w.rd r, w.sIsPois r))
    ∧ w'.vl = min ((heldVl w.hist).getD w.vl) w'.vlmax ∧ w'.wmode = (heldMode w.hist).getD w.wmode ∧ w'.space = (heldSpace w.hist).getD w.space

/-- A lane of a wave is in a split at an address. -/
def LaneAt (w : Wave) (lane : Nat) (pc : Word) : Prop := ∃ x ∈ w.splits, x.mask.getLsbD lane = true ∧ x.pc = pc

/-- A transfer of control: where the condition holds the split goes to the target, else to the next word, with nothing else changed. -/
def Branches (i : Instr) (cond : Bool) (target : Word) (s : State) (wi si : Nat) (sp : Split) : Prop :=
  (cond = true → InRange sp target sp.pc true → exec i s = .next (moved s wi si sp target sp.pc true))
    ∧ (cond = false → Straight sp → Gives i s wi si sp s)

/-- The scalar register an instruction of the integer, immediate and constant groups writes. -/
def scalarResult : Instr → Option Reg
  | .add d _ _ _ | .sub d _ _ _ | .mul d _ _ _ | .mulh d _ _ _ | .mulhn d _ _ _ | .div d _ _ _ | .divn d _ _ _ | .rem d _ _ _
  | .remn d _ _ _ | .and d _ _ _ | .or d _ _ _ | .xor d _ _ _ | .shl d _ _ _ | .shr d _ _ _ | .sha d _ _ _ | .slt d _ _ _
  | .sltn d _ _ _ | .min d _ _ _ | .max d _ _ _ | .minn d _ _ _ | .maxn d _ _ _ | .clz d _ _ | .ctz d _ _ | .popc d _ _
  | .sext d _ _ | .zext d _ _ | .addi d _ _ | .andi d _ _ | .ori d _ _ | .xori d _ _ | .shli d _ _ | .shri d _ _ | .shai d _ _
  | .slti d _ _ | .sltni d _ _ | .li d _ | .lih d _ => some d
  | _ => none

/-- The scalar registers such an instruction reads. -/
def scalarSources : Instr → List Reg
  | .add _ a b _ | .sub _ a b _ | .mul _ a b _ | .mulh _ a b _ | .mulhn _ a b _ | .div _ a b _ | .divn _ a b _ | .rem _ a b _
  | .remn _ a b _ | .and _ a b _ | .or _ a b _ | .xor _ a b _ | .shl _ a b _ | .shr _ a b _ | .sha _ a b _ | .slt _ a b _
  | .sltn _ a b _ | .min _ a b _ | .max _ a b _ | .minn _ a b _ | .maxn _ a b _ => [a, b]
  | .clz _ a _ | .ctz _ a _ | .popc _ a _ | .sext _ a _ | .zext _ a _ | .addi _ a _ | .andi _ a _ | .ori _ a _ | .xori _ a _
  | .shli _ a _ | .shri _ a _ | .shai _ a _ | .slti _ a _ | .sltni _ a _ | .lih a _ => [a]
  | _ => []

/-- Bytes of memory from a key, the lowest address in the lowest bits (spec/00 R9). -/
def bytesAt (m : List Host.Cell) (k : Nat) : (n : Nat) → BitVec (8 * n)
  | 0 => 0
  | n + 1 => (memRead m (k + n) ++ bytesAt m k n).cast (by omega)

/-- A handler of wave `w` has been entered from split `sp` at place `si`: level, address, one split of all lanes with no loop, the other splits
frozen, the scalar poison bits clear, the level not claimed, no park and no tile request of the wave under way; the split's next word may raise a comparator hit again
unless `keep` says that the handler is entered between instructions (spec/21 R396); everything else of the wave is as it was. -/
def Entered (t : State) (wi si : Nat) (w : Wave) (sp : Split) (keep : Bool) (lvl : Nat) (entry : Word) : Prop :=
  ∃ w' x y, t.waves[wi]? = some w' ∧ w'.lvl = lvl ∧ w'.splits = [x] ∧ x.pc = entry ∧ x.mask = w.allLanes ∧ x.loops = .none
    ∧ y = { sp with skipHit := sp.skipHit && keep, due := none }
    ∧ (w.lvl = 0 → w'.frozen = y :: w.splits.eraseIdx si) ∧ (w.lvl ≠ 0 → w'.frozen = w.frozen)
    ∧ w'.sPois = 0 ∧ w'.claims.getLsbD lvl = false ∧ w'.park = none ∧ (w'.look = none ∨ w'.look = w.look) ∧ w'.tile = none
    ∧ { w' with lvl := w.lvl, splits := w.splits, frozen := w.frozen, sPois := w.sPois, claims := w.claims, park := w.park,
                look := w.look, tile := w.tile, heldLevel := w.heldLevel, mateTrap := w.mateTrap } = w

/-- The words of a trap frame (Table 7.3): offset and contents, beside s0 to s31. -/
def frameWords (w : Wave) (sp : Split) (pc : Word) (t : Trap) : List (Nat × Nat) :=
  [(256, pc.toNat), (264, t.cause + 256 * t.sub), (272, t.val.toNat), (280, w.wmode.toNat), (288, w.vl), (296, w.space.toNat),
   (304, w.esr), (312, w.esv.toNat), (320, sp.mask.toNat), (328, sp.loops.cnt.toNat), (336, sp.loops.beg.toNat),
   (344, sp.loops.lpend.toNat), (352, sp.loops.scnt.toNat), (360, sp.loops.sbeg.toNat), (368, sp.loops.sfin.toNat),
   (376, w.sPois.toNat), (384, w.vPois.toNat), (392, 0)]

/-- Memory holds the frame that a trap writes at level `lvl` of wave `w`, interrupted at split `sp`, and, with no trace record made, is the same elsewhere. -/
def Framed (s t : State) (wi : Nat) (w : Wave) (sp : Split) (lvl : Nat) (pc : Word) (tr : Trap) : Prop :=
  let m := (s.writeFrame wi w sp lvl pc tr).mem
  (∀ off, off < 1024 → memRead t.mem (frameKey wi lvl + off) = memRead m (frameKey wi lvl + off))
    ∧ ((s.core (s.coreOf w)).trcCtl.getLsbD 8 = false → t.mem = m)

/-- The trap a wave takes now is the one of its own instruction: no LEASE and no older access before its fault point is still to come (spec/07 R179). -/
def CutClosed (w : Wave) : Prop := w.leaseDst = none ∧ w.ahead = false

/-! ### Vector instructions -/

/-- A state every run reaches keeps this (statement StepKeepsVectorLength): memory and the accumulators in canonical form, VL within VLMAX, a vector file for
every wave, half 0 or 1, and caps of at most 64, pinned ones too. -/
def Good (s : State) : Prop :=
  Memory.wf s.mem = true ∧ assocWf 0#32 none s.accs = true ∧ (∀ w ∈ s.waves, w.vl ≤ w.vlmax ∧ w.vfile < s.vfiles.length ∧ w.half < 2) ∧ (∀ c ∈ s.cores, c.vlcap ≤ 64)
    ∧ ∀ q ∈ s.queues, ∀ p, q.pin = some p → p.vlcap ≤ 64

/-- The checks of R126 and R170 and the gates of R56, R57 and R193 pass for an instruction with these operands, and the streams it uses wait for no access of another
path (R147). -/
def VecReady (s : State) (wi : Nat) (w : Wave) (p : VPlan) : Prop :=
  s.streamsHeld wi w (w.streamsUsed p) = false ∧ w.unclaimed = false ∧ p.aligned = true ∧ p.big = false ∧ p.typeOk = true ∧ p.maskOk = true
    ∧ (∀ t ∈ w.streams, t.clash p = false ∧ (t.used p = true → t.err = none))
    ∧ Reads w (p.ss.map (·.1)) ∧ Writes w p.sd
    ∧ (∀ r ∈ p.reads, (∀ n ∈ regRange r.base r.count, w.vIsFull n = true) ∧ ∀ n ∈ r.regs, w.vIsPois n = false)
    ∧ ∀ g ∈ p.writes, ∀ n ∈ regRange g.1 g.2, w.vIsFull n = true

/-- The elements `l` of the group from `base`, `sew` bits wide, hold their values in file `g`, and every other bit of it is as in file `f`. -/
def FileElements (w : Wave) (f g : VFile) (base sew : Nat) (l : List (Nat × Nat)) : Prop :=
  (∀ x ∈ l, w.getElem g base sew x.1 = x.2 % 2 ^ sew)
    ∧ ∀ n p, n < 32 → p < 2048 →
      (∀ x ∈ l, ¬ (n = base + (w.elemAt sew x.1).1 ∧ (w.elemAt sew x.1).2 ≤ p ∧ p < (w.elemAt sew x.1).2 + sew)) →
      (g.reg n).getLsbD p = (f.reg n).getLsbD p

/-- The same of the wave's file in two states. -/
def Elements (s t : State) (w : Wave) (base sew : Nat) (l : List (Nat × Nat)) : Prop :=
  FileElements w (s.vfile w.vfile) (t.vfile w.vfile) base sew l

/-- The issuing wave after a vector instruction: its split has gone on, the flags `f` are raised, and its scalar and mask registers, mode, VL,
level, streams' descriptors and trap state are as they were. -/
def VecWave (t : State) (wi : Nat) (w : Wave) (sp : Split) (f : BitVec 8) : Prop :=
  ∃ w', t.waves[wi]? = some w' ∧ w'.wstat = w.wstat ||| f ∧ w'.s = w.s ∧ w'.k = w.k ∧ w'.sFull = w.sFull ∧ w'.sPois = w.sPois
    ∧ w'.wmode = w.wmode ∧ w'.vl = w.vl ∧ w'.space = w.space ∧ w'.esr = w.esr ∧ w'.esv = w.esv ∧ w'.lvl = w.lvl
    ∧ w'.claims = w.claims ∧ w'.trapbase = w.trapbase ∧ w'.pend = w.pend ∧ w'.frozen = w.frozen
    ∧ ∀ lane, sp.mask.getLsbD lane = true → LaneAt w' lane (goes sp (sp.pc + 4) sp.pc false).1

/-- The union of the flags of some results. -/
def flagsOf (l : List (Nat × FRes)) : BitVec 8 := l.foldl (fun f x => f ||| x.2.flags) 0

/-- Instruction `i` delivers the results `l`, as index and result, in format `fmt` to the group from `base`, with their flags; with ATRAP set and NV, DZ
or OF among them it then takes the arithmetic trap at the next instruction, TRAPVAL its own address (spec/03 R86). -/
def Delivers (i : Instr) (s : State) (wi si : Nat) (w : Wave) (sp : Split) (base fmt : Nat) (l : List (Nat × FRes)) : Prop :=
  let vals := l.map (fun x => (x.1, inFmt fmt x.2.val))
  ((w.atrap = false ∨ flagsOf l &&& (NV ||| DZ ||| OF) = 0) →
    ∃ t, exec i s = .next t ∧ Elements s t w base (sewOf fmt) vals ∧ VecWave t wi w sp (flagsOf l) ∧ SameMemory s t ∧ SameWaves s t wi)
  ∧ (w.atrap = true → flagsOf l &&& (NV ||| DZ ||| OF) ≠ 0 → CutClosed w →
    ∃ s', exec i s = .next (s'.takeTrap wi si (goes sp (sp.pc + 4) sp.pc false).1 ⟨11, 0, sp.pc⟩ false false).bump
      ∧ Elements s s' w base (sewOf fmt) vals ∧ SameMemory s s')

/-- A group operand of `count` registers in a field, read over the elements `l` of `sew` bits. -/
def groupRead (w : Wave) (r : Reg) (pos count sew : Nat) (l : List Nat) : VRead := ⟨r.toNat, count, pos, w.regsOf r.toNat sew l⟩

/-- The plan of "op vd, va, vb" (x = 0) or "op vd, va, sb" (x = 1) over the active elements, with a third group operand where `c` names one. -/
def vopPlan (w : Wave) (sp : Split) (d : Option Reg) (a b : Reg) (x : BitVec 1) (c : Option Reg) (typeOk maskOk : Bool) : VPlan :=
  let rd (r : Reg) (pos : Nat) : VRead := groupRead w r pos w.grp w.sew (w.actives sp)
  { reads := rd a 0 :: (if x = 1 then [] else [rd b 1]) ++ (match c with | some c => [rd c 2] | none => [])
    writes := match d with | some d => [(d.toNat, w.grp)] | none => []
    ss := if x = 1 then [(b, 1)] else []
    typeOk := typeOk
    maskOk := maskOk }

/-- Element `j` of a group of the element type. -/
def elem (s : State) (w : Wave) (r : Reg) (j : Nat) : Nat := w.getElem (s.vfile w.vfile) r.toNat w.sew j

/-- The second operand of VOP, VFMA and VCMP: element `j` of group b, or the low bits of s[b] (R124). -/
def elemB (s : State) (w : Wave) (b : Reg) (x : BitVec 1) (j : Nat) : Nat :=
  if x = 1 then inFmt w.etype (w.rd b).toNat else elem s w b j

/-! ### Vector memory -/

/-- Every element of `l`, of `n` bytes, forms an address under SPACE that leads to a byte here, its key given; a read one is not in the vector area of a frame without a
claim (spec/07 R184). -/
def Here (s : State) (wi : Nat) (w : Wave) (space n : Nat) (kind : AccKind) (sum : Nat → Word) (l : List Nat) (key : Nat → Nat) : Prop :=
  ∀ j ∈ l, ∃ a dc, spaceAddr space (sum j) = some a ∧ s.resolve wi w a n n kind = .ok (.here (key j) dc) ∧ (kind = .read → s.noClaim (key j) = false)

/-- What a load reads at a key: zero where a granule is poisoned. -/
def readHere (s : State) (key n : Nat) : Nat := if s.poisoned key n then 0 else (bytesAt s.mem key n).toNat

/-- The group of `d` put in flight by a load of the elements `l`, with the poison of each register (spec/02 R56, spec/07 R192): the wave's group is
empty, ESR and ESV are zero, and the rest of the wave is as it was. -/
def InFlight (s t : State) (wi : Nat) (w : Wave) (sp : Split) (d : Reg) (vl n : Nat) (key : Nat → Nat) (l : List Nat) : Prop :=
  ∃ w' g regs whole bad, t.waves[wi]? = some w' ∧ w'.pend = w.pend ++ [.vector d regs whole bad]
    ∧ regs = (List.range w.grp).map (fun r => g.reg (d.toNat + r))
    ∧ FileElements w (s.vfile w.vfile) g d.toNat w.sew (l.map (fun j => (j, inFmt w.etype (readHere s (key j) n))))
    ∧ bad = (List.range w.grp).map (fun r => l.any (fun j => (w.elemAt w.sew j).1 == r && s.poisoned (key j) n))
    ∧ (∀ r, r < 32 → w'.vIsFull r = (w.vIsFull r && !(decide (d.toNat ≤ r) && decide (r < d.toNat + w.grp))))
    ∧ w'.esr = 0 ∧ w'.esv = 0 ∧ w'.vl = vl ∧ w'.s = w.s ∧ w'.k = w.k ∧ w'.wstat = w.wstat ∧ w'.wmode = w.wmode ∧ w'.vPois = w.vPois
    ∧ ∀ lane, sp.mask.getLsbD lane = true → LaneAt w' lane (goes sp (sp.pc + 4) sp.pc false).1

/-- The spans of the elements `l`, of `n` bytes, at their keys. -/
def elemSpans (key : Nat → Nat) (n : Nat) (l : List Nat) : List Span := l.map (fun j => (0, key j, n))

/-- The values `t 0` … `t (2 ^ n - 1)` combined by halving: each of the first half with its counterpart of the second (spec/03 R90). -/
def halving (f : FRes → FRes → FRes) : Nat → (Nat → FRes) → FRes
  | 0, t => t 0
  | n + 1, t => halving f n (fun i => f (t i) (t (i + 2 ^ n)))

/-- Two ranges of `n` bytes do not meet. -/
def Apart (a b n : Nat) : Prop := a + n ≤ b ∨ b + n ≤ a

/-! ### Matrix unit -/

/-- A slot of the core that the block owns, in a role, filled under the block's grant, as a multiply needs it (spec/11 R240). -/
def Filled (s : State) (w : Wave) (n role : Nat) : Prop :=
  ∃ x, (s.core (s.coreOf w)).slots[n]? = some x ∧ x.st = 2 ∧ x.owner = w.block ∧ x.role = role

/-- The cases in which a wave's multiply of function `fn` goes to a tile queue (R231, R240): converged, the set held, both slots filled, a grant, and
sparse exactly for MMAS. -/
structure CanMultiply (s : State) (w : Wave) (fn : Nat) (d : BitVec 2) (set na nb : Nat) : Prop where
  converged : w.converged = true
  held : (s.block w.block).sets[d.toNat]? = some set
  a : Filled s w na 0
  b : Filled s w nb 1
  grant : (s.block w.block).grant.rows ≠ 0
  sparse : (fn = 1 ↔ (s.block w.block).grant.sparse ≠ 0)

/-! ### Events, the plumb engine, copies and the device's own accesses -/

/-- Event `i` happens and leaves `t`; those that wait look again. -/
def Makes (i : Instr) (s t : State) : Prop := exec i s = .next t.bump

/-- Event `i` is not due: it changes nothing. -/
def NotDue (i : Instr) (s : State) : Prop := exec i s = .next s

/-- Run `n`, with record `r`, is the acting one and may go on. -/
structure Acts (s : State) (n : Nat) (r : PlumbRun) : Prop where
  run : s.runs[n]? = some r
  acting : s.cur.run = n
  live : r.finished = false
  opened : (s.queue r.queue).mode = .opened

/-- The plumb operation `i` leaves run `n` as `r'`, one step older, at word `pc` or where the loop sends it, with `s'` for the rest. -/
def PlumbGives (i : Instr) (s s' : State) (n : Nat) (r r' : PlumbRun) (pc : Nat) : Prop :=
  Makes i s (s'.updRun n (fun _ => { r'.goTo pc with steps := r.steps + 1 }))

/-- The queue has no request out for an access. -/
def NotAsked (s : State) (qi : Nat) (a : Word) (write : Bool) : Prop := ∀ x ∈ (s.queue qi).asks, ¬ (x.1 = a ∧ x.2.1 = write)

/-- The `n` bytes at `a` of a queue's context are in memory here, unpoisoned, and are `l`. -/
def QueueReads (s : State) (qi : Nat) (a : Word) (n : Nat) (l : List Byte) : Prop :=
  l.length = n ∧ NotAsked s qi a false ∧ ∃ key : Nat → Nat, ∀ i, i < n → s.cplace (Copy.device (s.queue qi).ctx qi) false .read (a + word i) = .at (key i)
    ∧ s.poisoned (key i) 1 = false ∧ l[i]? = some (memRead s.mem (key i))

/-- The `n` bytes at `a` of a queue's context may be written here, at the keys `key`, with no barrier in use among them. -/
def QueueWrites (s : State) (qi : Nat) (a : Word) (n : Nat) (key : Nat → Nat) : Prop :=
  NotAsked s qi a true ∧ (∀ i, i < n → NoBarrier s (key i) 1) ∧ (∀ i, i < n → s.cplace (Copy.device (s.queue qi).ctx qi) false .write (a + word i) = .at (key i))
    ∧ ∀ i j, i < n → j < n → key i = key j → i = j

/-- Memory after `l` has been written at the keys `key`. -/
def Written (s t : State) (key : Nat → Nat) (l : List Byte) : Prop :=
  (∀ i, i < l.length → l[i]? = some (memRead t.mem (key i))) ∧ ∀ a, (∀ i, i < l.length → a ≠ key i) → memRead t.mem a = memRead s.mem a

/-- Copy number `n` reads memory whose bytes all lie here, at the keys `sk`, unpoisoned, has no request out, and shares no byte of them with another copy in flight or
with what it writes (R256). -/
def PlainSource (s : State) (n : Nat) (c : Copy) (sk : List Nat) : Prop :=
  (∃ b st, c.src = .mem b st) ∧ s.srcPlaces c = sk.map .at ∧ c.placed = none ∧ c.rd = none ∧ c.wr = none ∧ (∀ k ∈ sk, s.poisoned k 1 = false)
    ∧ ∀ x ∈ s.sharedSpans n c ++ s.endSpans c c.dst c.dstLocal .write, ∀ k ∈ sk, x.meets (0, k, 1) = false

/-- The same of a copy that writes memory here too, at the keys `dk`, all distinct, apart from what it reads and what other copies touch, with no barrier in use among
them. -/
def PlainCopy (s : State) (n : Nat) (c : Copy) (sk dk : List Nat) : Prop :=
  PlainSource s n c sk ∧ (∃ b st, c.dst = .mem b st) ∧ s.dstPlaces c = dk.map .at ∧ dk.Nodup ∧ sk.length = dk.length
    ∧ (∀ x ∈ s.sharedSpans n c ++ s.endSpans c c.src c.srcLocal .read, ∀ k ∈ dk, x.meets (0, k, 1) = false) ∧ ∀ k ∈ dk, NoBarrier s k 1

/-- The copies are the same but for what each remembers of the bytes that others wrote. -/
def SameCopies (s t : State) : Prop := t.copies.map (fun c => { c with shared := [] }) = s.copies.map (fun c => { c with shared := [] })

/-- Memory after a plain copy: every destination byte holds what its source byte held, every other byte is as it was. -/
def Copied (s t : State) (sk dk : List Nat) : Prop :=
  (∀ x ∈ sk.zip dk, memRead t.mem x.2 = memRead s.mem x.1) ∧ ∀ a, a ∉ dk → memRead t.mem a = memRead s.mem a

/-- A copy that a CPY starts from `u`, the state `s` or, of one with a descriptor, `s` with no read of the wave's outstanding: its completion is legal and none of its rows
traps; it joins the copies in flight, a slot it fills counts it, and the block's side-effect latch is set, with its stores noted, where it writes or completes outside the block's
own scratchpad. One that shares a byte with an older access of the stream or fabric path waits (R147). -/
def Starts (i : Instr) (s u : State) (wi si : Nat) (w : Wave) (sp : Split) (x : BitVec 1) (c : Reg) (cp : Copy) (al : Nat) : Prop :=
  ∀ target, u.copyTarget wi w x c = .ok target → u.copyTraps (u.block w.block) cp al = none →
    let s1 : State := { u with copies := u.copies ++ [{ cp with target := target }] }
    let s2 : State := match cp.dst with
      | .slot n => s1.updSlot cp.core n (fun y => { y with filling := y.filling + 1 })
      | _ => s1
    let out := u.outside w (w.rd c) || u.copyOutside w cp || (match cp.dst with | .mem _ _ => !cp.dstLocal | _ => false)
    let held := u.streamPathWait wi w (u.copySpan cp true) true || u.fabricPathWait wi (u.copySpan cp true)
    (held = true → exec i s = .next (s.stall wi si))
      ∧ (held = false → Gives i s wi si sp (if out then (s2.sideEffect w).noteStores w cp.globalRows else s2))

/-! ### Floating-point values (spec/03 R67 to R93) -/

/-- What a pattern of a floating format stands for: a NaN, which may signal, an infinity, or a sign and a magnitude. -/
inductive FNum where
  | nan (signals : Bool)
  | inf (neg : Bool)
  | fin (neg : Bool) (mag : Rat)

/-- 2^z. -/
def two (z : Int) : Rat := if 0 ≤ z then ((2 ^ z.toNat : Nat) : Rat) else 1 / ((2 ^ (-z).toNat : Nat) : Rat)

/-- Exponent bits, fraction bits and bias of f64, f32, f16, bf16, e4m3 and e5m2 (R68 to R70). -/
def layout (fmt : Nat) : Nat × Nat × Nat :=
  match fmt with
  | 0 => (11, 52, 1023)
  | 1 => (8, 23, 127)
  | 2 => (5, 10, 15)
  | 3 => (8, 7, 127)
  | 4 => (4, 3, 7)
  | _ => (5, 2, 15)

/-- Fraction bits of a format. -/
def fracBits (fmt : Nat) : Nat := (layout fmt).2.1

/-- The exponent below which a format is subnormal: 2^(1 − bias) is its smallest normal magnitude. -/
def leastExp (fmt : Nat) : Int := 1 - ((layout fmt).2.2 : Int)

/-- The pattern with only the sign bit set, or zero. -/
def signPattern (fmt : Nat) (neg : Bool) : Nat :=
  if neg then (match fmt with | 6 => 2 ^ 7 | 7 => 2 ^ 5 | _ => 2 ^ ((layout fmt).1 + (layout fmt).2.1)) else 0

/-- The magnitude of a nonzero magnitude field of `n` bits of a tapered format (R71). -/
def taperedMag (n m : Nat) : Rat :=
  let one := m.testBit (n - 1)
  let run := ((List.range n).takeWhile (fun i => m.testBit (n - 1 - i) == one)).length
  let k : Int := if one then (run : Int) - 1 else -(run : Int)
  let rest := n - run - 1
  let e : Int := if 1 ≤ rest ∧ m.testBit (rest - 1) = true then 1 else 0
  two (2 * k + e) * (1 + (m % 2 ^ (rest - 1) : Nat) / (2 ^ (rest - 1) : Nat))

/-- Magnitude bits of l8 and l6. -/
def taperedBits (fmt : Nat) : Nat := if fmt = 6 then 7 else 5

/-- What a pattern stands for (R68 to R72). -/
def meaning (fmt p : Nat) : FNum :=
  if fmt = 6 ∨ fmt = 7 then
    let n := taperedBits fmt
    if p % 2 ^ n = 0 then (if p.testBit n then .nan false else .fin false 0) else .fin (p.testBit n) (taperedMag n (p % 2 ^ n))
  else
    let (eb, fb, bias) := layout fmt
    let neg := p.testBit (eb + fb)
    let e := p / 2 ^ fb % 2 ^ eb
    let m := p % 2 ^ fb
    if fmt = 4 ∧ e = 15 ∧ m = 7 then .nan false
    else if fmt ≠ 4 ∧ e = 2 ^ eb - 1 then (if m = 0 then .inf neg else .nan (decide (fmt ≤ 3) && !m.testBit (fb - 1)))
    else if e = 0 then .fin neg (two (1 - (bias : Int)) * ((m : Nat) / (2 ^ fb : Nat)))
    else .fin neg (two ((e : Int) - bias) * (1 + (m : Nat) / (2 ^ fb : Nat)))

/-- A subnormal pattern of f64, f32, f16 or bf16. -/
def subnormal (fmt p : Nat) : Bool :=
  let (eb, fb, _) := layout fmt
  decide (fmt ≤ 3) && p / 2 ^ fb % 2 ^ eb == 0 && p % 2 ^ fb != 0

/-- A pattern as FTZ leaves it (R78). -/
def flushed (ftz : Bool) (fmt p : Nat) : Nat :=
  if ftz && subnormal fmt p then signPattern fmt (p.testBit ((layout fmt).1 + (layout fmt).2.1)) else p

/-- What an operand stands for under FTZ. -/
def reads (ftz : Bool) (fmt p : Nat) : FNum := meaning fmt (flushed ftz fmt p)

/-- A positive magnitude, by the rationals below it and the one it may be. -/
structure Mag where
  beyond : Rat → Bool
  is : Rat → Bool

/-- A rational magnitude. -/
def Mag.of (x : Rat) : Mag := ⟨fun r => decide (r < x), fun r => decide (r = x)⟩
/-- √x. -/
def Mag.root (x : Rat) : Mag := ⟨fun r => decide (r < 0 ∨ r * r < x), fun r => decide (0 ≤ r ∧ r * r = x)⟩
/-- 1 ÷ √x. -/
def Mag.overRoot (x : Rat) : Mag := ⟨fun r => decide (r ≤ 0 ∨ r * r * x < 1), fun r => decide (0 < r ∧ r * r * x = 1)⟩

/-- The multiple of 2^q at or next below a magnitude is f × 2^q. -/
def Floor (x : Mag) (q : Int) (f : Nat) : Prop :=
  (x.beyond (f * two q) || x.is (f * two q)) = true ∧ (x.beyond ((f + 1 : Nat) * two q) || x.is ((f + 1 : Nat) * two q)) = false

/-- The multiple of 2^q that a mode rounds it to (R76): nearest even, toward zero, down, up, nearest away. -/
def rounded (mode : Nat) (neg : Bool) (x : Mag) (q : Int) (f : Nat) : Nat :=
  let exact := x.is (f * two q)
  let half : Rat := (f + 1 / 2) * two q
  let up := match mode with
    | 0 => x.beyond half || (x.is half && f % 2 == 1)
    | 1 => false
    | 2 => neg && !exact
    | 3 => !neg && !exact
    | _ => x.beyond half || x.is half
  if up then f + 1 else f

/-- The largest finite magnitude of f64 to e5m2 (R68 to R70). -/
def largest (fmt : Nat) : Rat :=
  let (eb, fb, bias) := layout fmt
  if fmt = 4 then 448 else (2 - two (-(fb : Int))) * two ((2 ^ eb - 2 : Nat) - (bias : Int))

/-- The patterns of infinity, of the largest finite magnitude, and of the canonical NaN or NaR (Table 3.2). -/
def infPattern (fmt : Nat) (neg : Bool) : Nat := signPattern fmt neg + (2 ^ (layout fmt).1 - 1) * 2 ^ fracBits fmt
/-- The largest finite magnitude. -/
def maxPattern (fmt : Nat) (neg : Bool) : Nat :=
  signPattern fmt neg + (match fmt with | 4 => 0x7E | 6 => 0x7F | 7 => 0x1F | _ => (2 ^ (layout fmt).1 - 1) * 2 ^ fracBits fmt - 1)
/-- The canonical NaN. -/
def nanPattern (fmt : Nat) : Nat :=
  match fmt with
  | 0 => 0x7FF8000000000000 | 1 => 0x7FC00000 | 2 => 0x7E00 | 3 => 0x7FC0 | 4 => 0x7F | 5 => 0x7E | 6 => 0x80 | _ => 0x20

/-- A flag where the condition holds. -/
def when (c : Bool) (f : BitVec 8) : BitVec 8 := if c then f else 0

/-- What an overflow delivers (Table 3.3). -/
def overflows (fmt mode : Nat) (sat neg : Bool) : FRes :=
  if sat then ⟨maxPattern fmt neg, OF ||| NX ||| SATF⟩
  else if fmt = 4 then ⟨nanPattern 4, OF ||| NX ||| NF⟩
  else if mode = 1 ∨ (mode = 2 ∧ neg = false) ∨ (mode = 3 ∧ neg = true) then ⟨maxPattern fmt neg, OF ||| NX⟩
  else ⟨infPattern fmt neg, OF ||| NX ||| NF⟩

/-- A nonzero magnitude delivered once rounded into f64 to e5m2, with `ovf` for an overflow (R77, R78, R80, R84): beyond the largest magnitude when rounded with an
unbounded exponent it overflows; a subnormal result is flushed under FTZ; else the result is the rounded multiple, NX where that is inexact and UF where it is also tiny. -/
def RoundsTo (fmt mode : Nat) (ftz neg : Bool) (x : Mag) (ovf r : FRes) : Prop :=
  ∀ (q₀ q : Int) (f₀ f : Nat), 2 ^ fracBits fmt ≤ f₀ → f₀ < 2 ^ (fracBits fmt + 1) → Floor x q₀ f₀ → q = max q₀ (leastExp fmt - fracBits fmt) → Floor x q f →
    let unbounded : Rat := rounded mode neg x q₀ f₀ * two q₀
    let y : Rat := rounded mode neg x q f * two q
    if largest fmt < unbounded then r = ovf
    else if ftz = true ∧ fmt ≤ 3 ∧ y ≠ 0 ∧ y < two (leastExp fmt) then r = ⟨signPattern fmt neg, UF ||| NX⟩
    else meaning fmt r.val = .fin neg y ∧ r.val < 2 ^ sewOf fmt
      ∧ r.flags = when (!x.is y) NX ||| when (!x.is y && decide (unbounded < two (leastExp fmt))) UF

/-- A nonzero magnitude delivered into l8 or l6 (R81): the ends of the range, else the pattern below it or the next, by whether the bits of the unbounded string past
the field exceed one half, the magnitude of the field with one more bit set. -/
def RoundsPattern (fmt : Nat) (neg : Bool) (x : Rat) (r : FRes) : Prop :=
  let n := taperedBits fmt
  let big := two (2 * ((n : Int) - 1))
  (big < x → r = ⟨signPattern fmt neg + (2 ^ n - 1), OF ||| NX ||| SATF⟩)
  ∧ (x < 1 / big → r = ⟨signPattern fmt neg + 1, UF ||| NX ||| SATF⟩)
  ∧ ∀ c, 1 ≤ c → c < 2 ^ n → x ≤ big → taperedMag n c ≤ x → (c + 1 < 2 ^ n → x < taperedMag n (c + 1)) →
      let mid := taperedMag (n + 1) (2 * c + 1)
      let k := if mid < x ∨ (mid = x ∧ c % 2 = 1) then c + 1 else c
      r = ⟨signPattern fmt neg + k, when (decide (taperedMag n k ≠ x)) NX⟩

/-- An exact result: a NaN, invalid or not, an infinity, by division by zero or not, a zero, or a magnitude. -/
inductive Exact where
  | nan (invalid : Bool)
  | inf (neg dz : Bool)
  | zero (neg : Bool)
  | mag (neg : Bool) (x : Mag)

/-- What an arithmetic instruction delivers of an exact result in f64, f32, f16 or bf16 (R75, R77, R84). -/
def Gets (fmt mode : Nat) (ftz : Bool) (e : Exact) (r : FRes) : Prop :=
  match e with
  | .nan v => r = ⟨nanPattern fmt, when v NV ||| NF⟩
  | .inf neg dz => r = ⟨infPattern fmt neg, when dz DZ ||| NF⟩
  | .zero neg => r = ⟨signPattern fmt neg, 0⟩
  | .mag neg x => RoundsTo fmt mode ftz neg x (overflows fmt mode false neg) r

/-- A signalling NaN. -/
def FNum.signals : FNum → Bool
  | .nan s => s
  | _ => false

/-- A NaN. -/
def FNum.isNan : FNum → Bool
  | .nan _ => true
  | _ => false

/-- The other sign. -/
def FNum.opposite : FNum → FNum
  | .nan s => .nan s
  | .inf a => .inf (!a)
  | .fin a m => .fin (!a) m

/-- A signed rational. -/
def signed (neg : Bool) (m : Rat) : Rat := if neg then -m else m

/-- The exact sum of two finite values: an exact zero is negative of two negative zeros, and under RDN of any others (IEEE 754). -/
def sumFin (mode : Nat) (a : Bool) (m : Rat) (b : Bool) (n : Rat) : Exact :=
  let v := signed a m + signed b n
  if v = 0 then .zero (if m = 0 ∧ n = 0 ∧ a = b then a else decide (mode = 2))
  else .mag (decide (v < 0)) (.of (if v < 0 then -v else v))

/-- x + y. -/
def sumOf (mode : Nat) (x y : FNum) : Exact :=
  match x, y with
  | .nan s, y => .nan (s || y.signals)
  | x, .nan s => .nan (s || x.signals)
  | .inf a, .inf b => if a = b then .inf a false else .nan true
  | .inf a, .fin _ _ => .inf a false
  | .fin _ _, .inf b => .inf b false
  | .fin a m, .fin b n => sumFin mode a m b n

/-- x × y. -/
def productOf (x y : FNum) : Exact :=
  match x, y with
  | .nan s, y => .nan (s || y.signals)
  | x, .nan s => .nan (s || x.signals)
  | .inf a, .inf b => .inf (a != b) false
  | .inf a, .fin b n => if n = 0 then .nan true else .inf (a != b) false
  | .fin a m, .inf b => if m = 0 then .nan true else .inf (a != b) false
  | .fin a m, .fin b n => if m * n = 0 then .zero (a != b) else .mag (a != b) (.of (m * n))

/-- x ÷ y. -/
def quotientOf (x y : FNum) : Exact :=
  match x, y with
  | .nan s, y => .nan (s || y.signals)
  | x, .nan s => .nan (s || x.signals)
  | .inf _, .inf _ => .nan true
  | .inf a, .fin b _ => .inf (a != b) false
  | .fin a _, .inf b => .zero (a != b)
  | .fin a m, .fin b n =>
    if n = 0 then (if m = 0 then .nan true else .inf (a != b) true)
    else if m = 0 then .zero (a != b) else .mag (a != b) (.of (m / n))

/-- x × y + z, rounded once. -/
def fusedOf (mode : Nat) (x y z : FNum) : Exact :=
  match x, y, z with
  | .fin a m, .fin b n, .fin c o => sumFin mode (a != b) (m * n) c o
  | x, y, z => match productOf x y with
    | .nan v => .nan (v || z.signals)
    | .inf a _ => sumOf mode (.inf a) z
    | _ => sumOf mode (.fin false 0) z

/-- √x. -/
def rootOf (x : FNum) : Exact :=
  match x with
  | .nan s => .nan s
  | .inf a => if a then .nan true else .inf false false
  | .fin a m => if m = 0 then .zero a else if a then .nan true else .mag false (.root m)

/-- The magnitude of an exact result. -/
def Exact.abs : Exact → Exact
  | .inf _ dz => .inf false dz
  | .zero _ => .zero false
  | .mag _ x => .mag false x
  | e => e

/-- Less by value, of two that are no NaN. -/
def FNum.less (x y : FNum) : Bool :=
  match x, y with
  | .inf a, .inf b => a && !b
  | .inf a, .fin _ _ => a
  | .fin _ _, .inf b => !b
  | .fin a m, .fin b n => decide (signed a m < signed b n)
  | _, _ => false

/-- The sign. -/
def FNum.neg : FNum → Bool
  | .nan _ => false
  | .inf a => a
  | .fin a _ => a

/-- Below in the order in which +0 exceeds −0 (R91). -/
def FNum.below (x y : FNum) : Bool := x.less y || (!y.less x && x.neg && !y.neg)

/-- An infinity. -/
def FNum.isInf : FNum → Bool
  | .inf _ => true
  | _ => false

/-- The result is one of some patterns, the smallest or the largest of them (`big`), −0 below +0; the canonical NaN where one is a NaN (R91, Table 5.4). -/
def IsExtreme (fmt : Nat) (ftz big : Bool) (l : List Nat) (r : FRes) : Prop :=
  if l.any (fun p => (reads ftz fmt p).isNan) then r = ⟨nanPattern fmt, when (l.any (fun p => (reads ftz fmt p).signals)) NV ||| NF⟩
  else ∃ p ∈ l, r = ⟨flushed ftz fmt p, when (reads ftz fmt p).isInf NF⟩
    ∧ ∀ y ∈ l, (if big then (reads ftz fmt p).below (reads ftz fmt y) else (reads ftz fmt y).below (reads ftz fmt p)) = false

/-- What a value becomes in any floating format (R80 to R82, Table 3.5). -/
def Converts (fmt mode : Nat) (sat ftz : Bool) (x : FNum) (r : FRes) : Prop :=
  match x with
  | .nan s => r = ⟨nanPattern fmt, when s NV ||| NF⟩
  | .inf neg =>
    if fmt = 6 ∨ fmt = 7 then r = ⟨maxPattern fmt neg, SATF⟩
    else if fmt = 4 then r = (if sat then ⟨maxPattern 4 neg, SATF⟩ else ⟨nanPattern 4, NF⟩)
    else r = ⟨infPattern fmt neg, NF⟩
  | .fin neg m =>
    if m = 0 then r = ⟨if fmt = 6 ∨ fmt = 7 then 0 else signPattern fmt neg, 0⟩
    else if fmt = 6 ∨ fmt = 7 then RoundsPattern fmt neg m r
    else RoundsTo fmt mode ftz neg (.of m) (overflows fmt mode sat neg) r

/-- The range of an integer format (R74). -/
def rangeOf (fmt : Nat) : Int × Int :=
  if fmt < 12 then (-(2 ^ (sewOf fmt - 1) : Nat), (2 ^ (sewOf fmt - 1) : Nat) - 1) else (0, (2 ^ sewOf fmt : Nat) - 1)

/-- The integer a pattern stands for. -/
def intMeaning (fmt p : Nat) : Int :=
  let v := p % 2 ^ sewOf fmt
  if fmt < 12 ∧ 2 ^ (sewOf fmt - 1) ≤ v then (v : Int) - (2 ^ sewOf fmt : Nat) else v

/-- The pattern of an integer, modulo 2^N. -/
def intPattern (fmt : Nat) (i : Int) : Nat := (i % (2 ^ sewOf fmt : Nat)).toNat

/-- What a value becomes in an integer format (Table 3.5). -/
def ConvertsInt (fmt mode : Nat) (sat : Bool) (x : FNum) (r : FRes) : Prop :=
  let (lo, hi) := rangeOf fmt
  match x with
  | .nan _ => r = ⟨0, NV⟩
  | .inf neg => r = (if sat then ⟨intPattern fmt (if neg then lo else hi), NV ||| SATF⟩ else ⟨0, NV⟩)
  | .fin neg m => ∀ f, Floor (.of m) 0 f →
      let i : Int := if neg then -(rounded mode neg (.of m) 0 f : Int) else rounded mode neg (.of m) 0 f
      r = (if lo ≤ i ∧ i ≤ hi then ⟨intPattern fmt i, when (decide ((i : Rat) ≠ signed neg m)) NX⟩
        else if sat then ⟨intPattern fmt (if i < lo then lo else hi), NV ||| SATF⟩ else ⟨intPattern fmt i, NV⟩)

/-- The value of a scale byte between the zero scales and the NaNs (R87). -/
def scaleOf (b : Nat) : Rat := (1 + (b % 8 : Nat) / (8 : Nat)) * two ((b / 8 % 32 : Nat) - (15 : Int))

/-- A matrix operand as a value (R92). -/
def operandOf (fmt p : Nat) : FNum :=
  if fmt = 8 then .fin (decide (intMeaning 8 p < 0)) (intMeaning 8 p).natAbs else meaning fmt p

/-- The exact sum of a group's products (R92, R93): a NaN where an operand is one, where a zero meets an infinity or where two infinities differ. -/
def groupOf (l : List (FNum × FNum)) : FNum :=
  let ps := l.map (fun x => productOf x.1 x.2)
  let nan := ps.any (fun p => match p with | .nan _ => true | _ => false)
  let inf (neg : Bool) := ps.any (fun p => match p with | .inf a _ => a == neg | _ => false)
  let fin : Rat := (l.map (fun x => match x.1, x.2 with | .fin a m, .fin b n => signed (a != b) (m * n) | _, _ => 0)).sum
  if nan || (inf true && inf false) then .nan false
  else if inf true then .inf true
  else if inf false then .inf false
  else .fin (decide (fin < 0)) (if fin < 0 then -fin else fin)

/-! ### Infill and misclosure (spec/17 R341, R343) -/

/-- An element of a tile as a value: a NaN where its granule is poisoned. -/
def elementOf (fmt p : Nat) (bad : Bool) : FNum :=
  if bad then .nan false
  else if fmt < 8 then meaning fmt p
  else .fin (decide (intMeaning fmt p < 0)) ((intMeaning fmt p).natAbs : Nat)

/-- n × x. -/
def FNum.times (n : Nat) : FNum → FNum
  | .fin s m => .fin s ((n : Nat) * m)
  | x => x

/-- x ÷ n. -/
def FNum.part (n : Nat) : FNum → FNum
  | .fin s m => .fin s (m / (n : Nat))
  | x => x

/-- x + y, exactly. -/
def FNum.plus (x y : FNum) : FNum :=
  match x, y with
  | .fin a m, .fin b n =>
    let v := signed a m + signed b n
    .fin (decide (v < 0)) (if v < 0 then -v else v)
  | .inf a, .inf b => if a = b then .inf a else .nan false
  | .inf a, .fin _ _ => .inf a
  | .fin _ _, .inf b => .inf b
  | _, _ => .nan false

/-- The estimate of a line from its lower and upper sources with their distances (R341). -/
def lineOf (lo hi : Option (Nat × FNum)) : Option FNum :=
  match lo, hi with
  | some (d1, a), some (d2, b) => some (((a.times d2).plus (b.times d1)).part (d1 + d2))
  | some (_, a), none => some a
  | none, some (_, b) => some b
  | none, none => none

/-- The mean of the line estimates there are. -/
def meanOf (x y : Option FNum) : Option FNum :=
  match x, y with
  | some a, some b => some ((a.plus b).part 2)
  | some a, none => some a
  | none, y => y

/-- What an exact estimate delivers in a format (R341): to an integer, the even one of two equally near; else through f32, or f64, to the format with saturation. An
integer format has no NaN, so nothing is said of one there, nor of the sign of a zero. -/
def InfillGives (fmt : Nat) (x : FNum) (v : Nat) : Prop :=
  match x with
  | .nan _ => fmt < 8 → v = nanPattern fmt
  | .inf neg => ∃ r, Converts fmt 0 true false (.inf neg) r ∧ (fmt < 8 → v = r.val)
  | .fin neg m =>
    if 8 ≤ fmt then ∃ i : Int, v = intPattern fmt i ∧ -1 ≤ 2 * (signed neg m - i) ∧ 2 * (signed neg m - i) ≤ 1
      ∧ (2 * (signed neg m - i) = 1 ∨ 2 * (signed neg m - i) = -1 → i % 2 = 0)
    else if m = 0 then ∃ z, meaning fmt v = .fin z 0 ∧ v < 2 ^ sewOf fmt
    else
      let wide := if fmt = 0 then 0 else 1
      ∃ r₁ r, RoundsTo wide 0 false neg (.of m) (overflows wide 0 false neg) r₁ ∧ (fmt ≤ 1 → r = r₁)
        ∧ (2 ≤ fmt → Converts fmt 0 true false (meaning 1 r₁.val) r) ∧ v = r.val

/-- The misclosure of a computed value `a` and an infill value `b` over a floor, as an f64 pattern (R343). -/
def MisclosureIs (floor : Rat) (a b : FNum) (v : Nat) : Prop :=
  match a, b with
  | .nan _, .nan _ => v = 0
  | .inf s, .inf t => v = if s = t then 0 else infPattern 0 false
  | .fin s m, .fin t n =>
    let d := signed s m - signed t n
    if d = 0 then v = 0
    else ∃ r, RoundsTo 0 0 false false (.of ((if d < 0 then -d else d) / max m floor)) (overflows 0 0 false false) r ∧ v = r.val
  | _, _ => v = infPattern 0 false

end Sys2Proof.Claims
end

