-- ==== Sys2Proof/Certificates/Slice0/Obligations.lean ====
section
/-! DEFINITION. The statements for the provers. -/

open Sys2Proof Sys2Proof.Machine Sys2Proof.Claims

/-! ### Integer registers (spec/04) -/

/-- R97 to R99, Tables 4.2 and 4.4: the result of every IOP, in the 64-bit and the .w form, and of the instructions of one source, of an immediate and of a
constant; s0 reads zero as a source and discards as a destination (`State.setReg`).

With R56, their frame: every byte of memory, every other scalar register, every vector and mask register, flag, mode and special register, every other wave and
the rest of the machine are as they were; the issuing wave's splits move on. -/
def Obligations.ScalarArithmeticResults : Prop :=
  ((∀ (s : State) (wi si : Nat) (w : Wave) (sp : Split) (d a b : Reg) (x : BitVec 1),
      Issues s wi si w sp → Straight sp → Reads w [a, b] → Writes w [d] →
      let res (f : (n : Nat) → BitVec n → BitVec n → BitVec n) : State := s.setReg wi d (iop x (w.rd a) (w.rd b) f)
      Gives (.add d a b x) s wi si sp (res fun _ u v => u + v)
      ∧ Gives (.sub d a b x) s wi si sp (res fun _ u v => u - v)
      ∧ Gives (.mul d a b x) s wi si sp (res fun _ u v => u * v)
      ∧ Gives (.mulh d a b x) s wi si sp
          (res fun n u v => (u.signExtend (2 * n) * v.signExtend (2 * n)).extractLsb' n n)
      ∧ Gives (.mulhn d a b x) s wi si sp (res fun n u v => (u.setWidth (2 * n) * v.setWidth (2 * n)).extractLsb' n n)
      ∧ Gives (.div d a b x) s wi si sp (res fun n u v => if v = 0 then BitVec.allOnes n else u.sdiv v)
      ∧ Gives (.divn d a b x) s wi si sp (res fun n u v => if v = 0 then BitVec.allOnes n else u / v)
      ∧ Gives (.rem d a b x) s wi si sp (res fun _ u v => u.srem v)
      ∧ Gives (.remn d a b x) s wi si sp (res fun _ u v => u % v)
      ∧ Gives (.and d a b x) s wi si sp (res fun _ u v => u &&& v)
      ∧ Gives (.or d a b x) s wi si sp (res fun _ u v => u ||| v)
      ∧ Gives (.xor d a b x) s wi si sp (res fun _ u v => u ^^^ v)
      ∧ Gives (.shl d a b x) s wi si sp (res fun n u v => u <<< (v.toNat % n))
      ∧ Gives (.shr d a b x) s wi si sp (res fun n u v => u >>> (v.toNat % n))
      ∧ Gives (.sha d a b x) s wi si sp (res fun n u v => u.sshiftRight (v.toNat % n))
      ∧ Gives (.slt d a b x) s wi si sp (res fun _ u v => if u.slt v then 1 else 0)
      ∧ Gives (.sltn d a b x) s wi si sp (res fun _ u v => if u < v then 1 else 0)
      ∧ Gives (.min d a b x) s wi si sp (res fun _ u v => if u.slt v then u else v)
      ∧ Gives (.max d a b x) s wi si sp (res fun _ u v => if u.slt v then v else u)
      ∧ Gives (.minn d a b x) s wi si sp (res fun _ u v => if u < v then u else v)
      ∧ Gives (.maxn d a b x) s wi si sp (res fun _ u v => if u < v then v else u))
  ∧ (∀ (s : State) (wi si : Nat) (w : Wave) (sp : Split) (d a b : Reg) (x : BitVec 1) (imm : BitVec 16) (m : BitVec 6) (i21 : BitVec 21),
      Issues s wi si w sp → Straight sp → Writes w [d] →
      let put (v : Word) : State := s.setReg wi d v
      Gives (.li d i21) s wi si sp (put (i21.signExtend 64))
      ∧ (Reads w [d] → Gives (.lih d i21) s wi si sp (put ((w.rd d).extractLsb' 0 43 ++ i21)))
      ∧ (Reads w [a] →
          Gives (.clz d a x) s wi si sp (put (iop x (w.rd a) 0 fun _ u _ => u.clz))
          ∧ Gives (.ctz d a x) s wi si sp (put (iop x (w.rd a) 0 fun _ u _ => u.ctz))
          ∧ Gives (.popc d a x) s wi si sp (put (iop x (w.rd a) 0 fun _ u _ => u.cpop))
          ∧ (b.toNat ≤ 2 → Gives (.sext d a b) s wi si sp (put (((w.rd a).setWidth (8 * 2 ^ b.toNat)).signExtend 64)))
          ∧ (b.toNat ≤ 2 → Gives (.zext d a b) s wi si sp (put (((w.rd a).setWidth (8 * 2 ^ b.toNat)).setWidth 64)))
          ∧ Gives (.addi d a imm) s wi si sp (put (w.rd a + imm.signExtend 64))
          ∧ Gives (.andi d a imm) s wi si sp (put (w.rd a &&& imm.setWidth 64))
          ∧ Gives (.ori d a imm) s wi si sp (put (w.rd a ||| imm.setWidth 64))
          ∧ Gives (.xori d a imm) s wi si sp (put (w.rd a ^^^ imm.signExtend 64))
          ∧ Gives (.shli d a m) s wi si sp (put (w.rd a <<< m.toNat))
          ∧ Gives (.shri d a m) s wi si sp (put (w.rd a >>> m.toNat))
          ∧ Gives (.shai d a m) s wi si sp (put ((w.rd a).sshiftRight m.toNat))
          ∧ Gives (.slti d a imm) s wi si sp (put (if (w.rd a).slt (imm.signExtend 64) then 1 else 0))
          ∧ Gives (.sltni d a imm) s wi si sp (put (if w.rd a < imm.signExtend 64 then 1 else 0)))))
  ∧ ∀ (i : Instr) (s : State) (wi si : Nat) (w : Wave) (sp : Split) (d : Reg),
    scalarResult i = some d → wf i = true → Issues s wi si w sp → Straight sp → Reads w (scalarSources i) → Writes w [d] →
    ∃ t, exec i s = .next t ∧ SameMemory s t ∧ SameRest s t ∧ t.cores = s.cores ∧ t.clusters = s.clusters ∧ t.blocks = s.blocks ∧ SameWaves s t wi
      ∧ SameWave t wi w [d] []

/-! ### Control transfer, loops and splits (spec/02, spec/04) -/

/-- R103: the six conditional branches, with the target pc + 4 × offset; JAL links into s31; JALR reads its source before it writes the link, and clears the
low bits of the target. -/
def Obligations.TransferResults : Prop :=
  (∀ (s : State) (wi si : Nat) (w : Wave) (sp : Split) (a b : Reg) (off : BitVec 16),
      Issues s wi si w sp → Reads w [a, b] →
      let to' (i : Instr) (c : Bool) : Prop := Branches i c (sp.pc + off.signExtend 64 * 4) s wi si sp
      to' (.beq a b off) (w.rd a == w.rd b) ∧ to' (.bne a b off) (w.rd a != w.rd b)
      ∧ to' (.blt a b off) ((w.rd a).slt (w.rd b)) ∧ to' (.bge a b off) (!(w.rd a).slt (w.rd b))
      ∧ to' (.bltn a b off) (decide (w.rd a < w.rd b)) ∧ to' (.bgen a b off) (!decide (w.rd a < w.rd b)))
  ∧ (∀ (s : State) (wi si : Nat) (w : Wave) (sp : Split) (d a : Reg) (imm : BitVec 16) (off : BitVec 26), Issues s wi si w sp →
      (Writes w [31] → InRange sp (sp.pc + off.signExtend 64 * 4) sp.pc true →
        exec (.jal off) s = .next (moved (s.setReg wi 31 (sp.pc + 4)) wi si sp (sp.pc + off.signExtend 64 * 4) sp.pc true))
      ∧ (Reads w [a] → Writes w [d] → InRange sp ((w.rd a + imm.signExtend 64) &&& ~~~3#64) sp.pc true →
        exec (.jalr d a imm) s =
          .next (moved (s.setReg wi d (sp.pc + 4)) wi si sp ((w.rd a + imm.signExtend 64) &&& ~~~3#64) sp.pc true)))

/-- R105, R106: LOOP with a nonzero count pushes a loop whose body is the next `imm` words, inside the active one if any; with a zero count it
skips the body; a third level, and a body past the end of the active loop, are refused by the loop trap.

R107: the loop step, by the depth, the count and whether control was transferred; it returns to an instruction address, whose bits [1:0] are zero (R15). -/
def Obligations.LoopResults : Prop :=
  (∀ (s : State) (wi si : Nat) (w : Wave) (sp : Split) (a : Reg) (imm : BitVec 16), Issues s wi si w sp → Reads w [a] →
     let fin := sp.pc + imm.setWidth 64 * 4
     let fits := sp.loops.depth = 0 ∨ (sp.loops.depth = 1 ∧ fin ≤ sp.loops.fin)
     let l := sp.loops
     (fits → w.rd a ≠ 0 →
       exec (.loop a imm) s = .next (s.updWave wi (fun w => w.advance si sp (sp.pc + 4)
         (if l.depth = 0 then { l with cnt := w.rd a, beg := sp.pc + 4, fin := fin, depth := 1 }
          else { cnt := w.rd a, beg := sp.pc + 4, fin := fin, depth := 2, scnt := l.cnt, sbeg := l.beg, sfin := l.fin }))).bump)
     ∧ (fits → w.rd a = 0 → InRange sp (fin + 4) fin false →
       exec (.loop a imm) s = .next (moved s wi si sp (fin + 4) fin false))
     ∧ (CutClosed w → l.depth = 2 → exec (.loop a imm) s = .next (s.takeTrap wi si sp.pc ⟨10, 0, 0⟩ false false).bump)
     ∧ (CutClosed w → l.depth = 1 → l.fin < fin →
       exec (.loop a imm) s = .next (s.takeTrap wi si sp.pc ⟨10, 0, 1⟩ false false).bump))
  ∧ (∀ (l : Loops) (next stepPc : Word),
     (l.depth = 0 → ∀ taken, loopStep 3 l next stepPc taken = (next, l))
     ∧ (l.depth ≠ 0 → stepPc ≠ l.fin → loopStep 3 l next stepPc false = (next, l))
     ∧ (l.depth ≠ 0 → stepPc = l.fin → l.cnt ≠ 1 → loopStep 3 l next stepPc false = (l.beg &&& ~~~3#64, { l with cnt := l.cnt - 1 }))
     ∧ (l.depth = 1 → stepPc = l.fin → l.cnt = 1 → loopStep 3 l next stepPc false = (next, { l with cnt := 0, depth := 0 }))
     ∧ (l.depth = 2 → stepPc = l.fin → l.cnt = 1 → l.sfin ≠ stepPc →
         loopStep 3 l next stepPc false = (next, { l with cnt := l.scnt, beg := l.sbeg, fin := l.sfin, depth := 1 }))
     ∧ (l.depth = 2 → stepPc = l.fin → l.cnt = 1 → l.sfin = stepPc → l.scnt ≠ 1 →
         loopStep 3 l next stepPc false = (l.sbeg &&& ~~~3#64, { l with cnt := l.scnt - 1, beg := l.sbeg, fin := l.sfin, depth := 1 }))
     ∧ (l.depth ≠ 0 → l.beg ≤ next → next ≤ l.fin → loopStep 3 l next stepPc true = (next, l))
     ∧ (l.depth = 1 → (next < l.beg ∨ l.fin < next) → loopStep 3 l next stepPc true = (next, { l with depth := 0 }))
     ∧ (l.depth = 2 → (next < l.beg ∨ l.fin < next) → l.sbeg ≤ next → next ≤ l.sfin →
         loopStep 3 l next stepPc true = (next, { l with cnt := l.scnt, beg := l.sbeg, fin := l.sfin, depth := 1 }))
     ∧ (l.depth = 2 → (next < l.beg ∨ l.fin < next) → (next < l.sbeg ∨ l.sfin < next) →
         loopStep 3 l next stepPc true = (next, { l with cnt := l.scnt, beg := l.sbeg, fin := l.sfin, depth := 0 }))
     ∧ (l.depth = 2 → stepPc = l.fin → l.cnt = 1 → l.sfin = stepPc → l.scnt = 1 →
         loopStep 3 l next stepPc false = (next, { l with cnt := 0, beg := l.sbeg, fin := l.sfin, depth := 0 })))

/-- R51 to R54: after the split at place `si` has gone on to `next`, with whatever merges and fills follow, exactly its lanes are at `next`
and every lane of another split is where that split was.

R109 to R111: BRD divides the lanes between the target and the next word, and in a handler raises the divergence (spec/07 R189); JOIN waits for a split at a lower
address; YIELD completes at once and the split is taken at the next instruction, which is the model's choice (log entry 26). -/
def Obligations.SplitResults : Prop :=
  (∀ (w : Wave) (si : Nat) (sp : Split) (next : Word) (l : Loops) (lane : Nat) (pc : Word), w.splits[si]? = some sp →
     (LaneAt (w.advance si sp next l) lane pc ↔
       (sp.mask.getLsbD lane = true ∧ pc = next)
         ∨ ∃ j y, j ≠ si ∧ w.splits[j]? = some y ∧ y.mask.getLsbD lane = true ∧ pc = y.pc))
  ∧ (∀ (s : State) (wi si : Nat) (w : Wave) (sp : Split) (k : BitVec 3) (off : BitVec 16), Issues s wi si w sp →
     let target := sp.pc + off.signExtend 64 * 4
     let there := sp.mask &&& (w.rdK k <<< w.laneBase)
     (w.lvl = 0 → there = 0 → Straight sp → Gives (.brd k off) s wi si sp s)
     ∧ (w.lvl = 0 → there = sp.mask → there ≠ 0 → InRange sp target sp.pc true →
         exec (.brd k off) s = .next (moved s wi si sp target sp.pc true))
     ∧ (w.lvl = 0 → there ≠ sp.mask → there ≠ 0 → highBits target = false → Straight sp →
         ∃ w', exec (.brd k off) s = .next (s.updWave wi (fun _ => w')).bump ∧
           ∀ lane, sp.mask.getLsbD lane = true →
             LaneAt w' lane (if there.getLsbD lane then (goes sp target sp.pc true).1 else (goes sp (sp.pc + 4) sp.pc false).1))
     ∧ (w.lvl ≠ 0 → CutClosed w → exec (.brd k off) s = .next (s.takeTrap wi si sp.pc ⟨20, 0, 0⟩ false false).bump)
     ∧ (Straight sp → (∀ j y, j ≠ si → w.splits[j]? = some y → sp.pc ≤ y.pc) → Gives .join s wi si sp s)
     ∧ ((∃ j y, j ≠ si ∧ w.splits[j]? = some y ∧ y.pc < sp.pc) → exec .join s = .next (s.hold wi si))
     ∧ (Straight sp → w.splits = [sp] → Gives .yield s wi si sp s)
     ∧ (Straight sp → w.splits ≠ [sp] →
         ∃ w', exec .yield s = .next (s.updWave wi (fun _ => w')).bump ∧
           ∀ lane, sp.mask.getLsbD lane = true → LaneAt w' lane (goes sp (sp.pc + 4) sp.pc false).1))

/-! ### Scalar memory (spec/04, spec/06, spec/22) -/

/-- R100, Table 4.5: the address, the little-endian bytes and the extension of the seven loads; the result is in flight, or dropped for s0, and a poisoned byte
delivers zero with poison (spec/07 R192); every byte of memory, every other register, the flags and the rest are left alone. A load that shares a byte with an older access of
another path (R147), that follows a load or atomic of its path which awaits its answer (R146, R161), or that reaches a device-class page while an older access has not passed
its fault point (R63), waits; one of the vector area of a frame without a claim (spec/07 R184) delivers a free value. -/
def Obligations.LoadResults : Prop :=
  (∀ (s : State) (wi si : Nat) (w : Wave) (sp : Split) (d a : Reg) (off : BitVec 13) (key : Nat) (dc : Bool),
      Issues s wi si w sp → Straight sp → Reads w [a] → Writes w [d] →
      let e := w.rd a + off.signExtend 64
      let at' (n : Nat) : Prop := s.resolve wi w e n n .read = .ok (.here key dc) ∧ PathsClear s wi w [(0, key, n)] false ∧ (dc = true → w.ahead = false)
        ∧ w.scalarOut = false ∧ s.noClaim key = false
      let res (n : Nat) (v : Word) : State :=
        (s.touched w e).updWave wi (fun w => w.later d (if s.poisoned key n then 0 else v) (s.poisoned key n))
      (at' 1 → Gives (.ldsS8 d a off) s wi si sp (res 1 ((bytesAt s.mem key 1).signExtend 64)))
      ∧ (at' 2 → Gives (.ldsS16 d a off) s wi si sp (res 2 ((bytesAt s.mem key 2).signExtend 64)))
      ∧ (at' 4 → Gives (.ldsS32 d a off) s wi si sp (res 4 ((bytesAt s.mem key 4).signExtend 64)))
      ∧ (at' 8 → Gives (.ldsS64 d a off) s wi si sp (res 8 (bytesAt s.mem key 8)))
      ∧ (at' 1 → Gives (.ldsN8 d a off) s wi si sp (res 1 ((bytesAt s.mem key 1).setWidth 64)))
      ∧ (at' 2 → Gives (.ldsN16 d a off) s wi si sp (res 2 ((bytesAt s.mem key 2).setWidth 64)))
      ∧ (at' 4 → Gives (.ldsN32 d a off) s wi si sp (res 4 ((bytesAt s.mem key 4).setWidth 64))))
  ∧ (∀ (s : State) (wi si : Nat) (w : Wave) (sp : Split) (d a : Reg) (off : BitVec 13) (key : Nat) (dc : Bool) (i : Instr) (n : Nat),
      (i, n) ∈ [(Instr.ldsS8 d a off, 1), (.ldsS16 d a off, 2), (.ldsS32 d a off, 4), (.ldsS64 d a off, 8), (.ldsN8 d a off, 1),
        (.ldsN16 d a off, 2), (.ldsN32 d a off, 4)] →
      Issues s wi si w sp → Straight sp → Reads w [a] → Writes w [d] →
      s.resolve wi w (w.rd a + off.signExtend 64) n n .read = .ok (.here key dc) →
      (PathsClear s wi w [(0, key, n)] false → (dc = true → w.ahead = false) → w.scalarOut = false →
        ∃ t v bad, exec i s = .next t ∧ SameMemory s t ∧ SameRest s t ∧ t.blocks = s.blocks ∧ SameWaves s t wi
          ∧ SameWave t wi w [d] (if d = 0 then [] else [.scalar d v bad]))
      ∧ (s.pathWait wi w [(0, key, n)] false = true ∨ w.scalarOut = true ∨ (dc = true ∧ w.ahead = true) → exec i s = .next (s.stall wi si)))

/-- R101: a store of n bytes writes the low n bytes of s[d], the lowest first, at the place of s[base] + offset, and nothing else in memory but the fields of a barrier in use
that it reaches into (spec/12 R265); no register changes; a store outside the block's own scratchpad sets the side-effect latch of its block (spec/14 R289); one that shares a
byte with an older access of another path waits (R147). -/
def Obligations.StoreResults : Prop :=
  ∀ (s : State) (wi si : Nat) (w : Wave) (sp : Split) (d a : Reg) (off : BitVec 13) (key : Nat) (dc : Bool) (i : Instr) (n : Nat),
    (i, n) ∈ [(Instr.sts8 d a off, 1), (.sts16 d a off, 2), (.sts32 d a off, 4), (.sts64 d a off, 8)] →
    Good s → Issues s wi si w sp → Straight sp → Reads w [a, d] →
    s.resolve wi w (w.rd a + off.signExtend 64) n n .write = .ok (.here key dc) →
    (PathsClear s wi w [(0, key, n)] true → ∃ t, exec i s = .next t
      ∧ (∀ j, j < n → memRead t.mem (key + j) = (w.rd d).extractLsb' (8 * j) 8)
      ∧ (∀ x, x < key ∨ key + n ≤ x → (∀ b ∈ s.bars, x < b.key ∨ b.key + 16 ≤ x) → memRead t.mem x = memRead s.mem x)
      ∧ (NoBarrier s key n → SameOutside s t key n ∧ SameRest s t)
      ∧ SameWaves s t wi ∧ SameWave t wi w [] []
      ∧ (∀ b, t.blocks[w.block]? = some b → s.outside w (w.rd a + off.signExtend 64) = true → b.latch = true))
    ∧ (s.pathWait wi w [(0, key, n)] true = true → exec i s = .next (s.stall wi si))

/-- R157, R159, Table 6.4: the ten atomics and CAS in both widths: the new value at the address, nothing else in memory changed, and the old value,
sign-extended, in flight to d; a CAS whose expected value s[d] is not there changes no memory. -/
def Obligations.AtomicResults : Prop :=
  (∀ (s : State) (wi si : Nat) (w : Wave) (sp : Split) (d a b c : Reg) (x : BitVec 1) (key : Nat) (dc : Bool),
      Good s → Issues s wi si w sp → Straight sp → Reads w [a, b] → Writes w [d] →
      let n := if x = 1 then 4 else 8
      s.resolve wi w (w.rd a) n n .write = .ok (.here key dc) → s.poisoned key n = false → s.noClaim key = false → PathsClear s wi w [(0, key, n)] true → NoBarrier s key n →
      let res (i : Instr) (f : (m : Nat) → BitVec m → BitVec m → BitVec m) : Prop :=
        ∃ t, exec i s = .next t
          ∧ bytesAt t.mem key n = f (8 * n) (bytesAt s.mem key n) ((w.rd b).setWidth (8 * n))
          ∧ SameOutside s t key n ∧ SameRest s t ∧ SameWaves s t wi
          ∧ SameWave t wi w [d] (if d = 0 then [] else [.scalar d ((bytesAt s.mem key n).signExtend 64) false])
      res (.amoAdd d a b x c) (fun _ u v => u + v)
      ∧ res (.amoAnd d a b x c) (fun _ u v => u &&& v)
      ∧ res (.amoOr d a b x c) (fun _ u v => u ||| v)
      ∧ res (.amoXor d a b x c) (fun _ u v => u ^^^ v)
      ∧ res (.amoMin d a b x c) (fun _ u v => if v.slt u then v else u)
      ∧ res (.amoMax d a b x c) (fun _ u v => if u.slt v then v else u)
      ∧ res (.amoMinn d a b x c) (fun _ u v => if v < u then v else u)
      ∧ res (.amoMaxn d a b x c) (fun _ u v => if u < v then v else u)
      ∧ res (.amoSwap d a b x c) (fun _ _ v => v)
      ∧ res (.amoFadd d a b x c) (fun m u v => BitVec.ofNat m (addRne (if m = 32 then 1 else 0) u.toNat v.toNat)))
  ∧ (∀ (s : State) (wi si : Nat) (w : Wave) (sp : Split) (d a b c : Reg) (x : BitVec 1) (key : Nat) (dc : Bool),
      Good s → Issues s wi si w sp → Straight sp → Reads w [a, b, d] → Writes w [d] →
      let n := if x = 1 then 4 else 8
      s.resolve wi w (w.rd a) n n .write = .ok (.here key dc) → s.poisoned key n = false → s.noClaim key = false → PathsClear s wi w [(0, key, n)] true → NoBarrier s key n →
      ∃ t, exec (.cas d a b x c) s = .next t ∧ SameRest s t ∧ SameWaves s t wi
        ∧ SameWave t wi w [d] (if d = 0 then [] else [.scalar d ((bytesAt s.mem key n).signExtend 64) false])
        ∧ (if bytesAt s.mem key n = (w.rd d).setWidth (8 * n)
            then bytesAt t.mem key n = (w.rd b).setWidth (8 * n) ∧ SameOutside s t key n
            else SameMemory s t))

/-- R409, R56, R63: an access of another device sends one request, with the next sequence number toward it, and goes on with its destination empty; until the answer it has
not passed its fault point, and a second one of the wave waits, which is the model's choice (log entry 47). The answer puts its result in flight; the failure of a load, store or
atomic, or the poison an atomic finds, undoes it and everything younger, every register, VL, WMODE and SPACE as they were before it, its destination full, the splits where they
stood, and traps with cause 17, or 9 (R64). What an entry of the history holds is the model's choice (log entry 163). -/
def Obligations.RemoteAccess : Prop :=
  (∀ (s : State) (wi si : Nat) (w : Wave) (sp : Split) (d a b c : Reg) (off : BitVec 13) (dev addr : Nat) (dc : Bool),
    Issues s wi si w sp → Straight sp → s.reaches (s.ctxOf w).part dev = true →
    let e := w.rd a + off.signExtend 64
    let sent (i : Instr) (op : RemoteOp) (kind : AskKind) (empty : Option Reg) (writes : Bool) : Prop := PathsClear s wi w [(dev + 1, addr, 8)] writes →
      (w.ahead = true → exec i s = .next (s.stall wi si))
      ∧ (w.ahead = false → w.scalarOut = false → ∃ s' w', Gives i s wi si sp s'
        ∧ s'.fabric.out = s.fabric.out ++
          [⟨(s.ctxOf w).part, [(dev, assocGet 0 s.fabric.seqs dev + 1, op)], .access wi, s.time.toNat, none, s.coreOf w⟩]
        ∧ SameMemory s s' ∧ SameWaves s s' wi
        ∧ s'.waves[wi]? = some w' ∧ w'.ahead = true ∧ w'.ask = some ⟨s.fabric.out.length, none, si, w.splits, w.pend.length, [], kind, s.fabric.out.length⟩
        ∧ (∀ r : Reg, w'.sIsFull r = (w.sIsFull r && (r == 0 || empty != some r)))
        ∧ w'.s = w.s ∧ w'.pend = w.pend ∧ w'.splits = w.splits)
    (Reads w [a] → Writes w [d] → s.resolve wi w e 8 8 .read = .ok (.away dev addr dc) →
      sent (.ldsS64 d a off) (.read addr 8) (.load d 8 true e) (some d) false)
    ∧ (Reads w [a, d] → s.resolve wi w e 8 8 .write = .ok (.away dev addr dc) →
      sent (.sts64 d a off) (.write addr (leBytes 8 (w.rd d).toNat) false) (.store e) none true)
    ∧ (Reads w [a, b] → Writes w [d] → s.resolve wi w (w.rd a) 8 8 .write = .ok (.away dev addr dc) →
      sent (.amoAdd d a b 0 c) (.amo 0 false addr (w.rd b)) (.atomic d 8 (w.rd a)) (some d) true))
  ∧ (∀ (s : State) (wi : Nat) (w : Wave) (q : RemoteAsk) (ans : RemoteAnswer) (stops : Bool), s.waves[wi]? = some w → w.ask = some q → q.fail = none →
      let t := s.accessAnswer wi ans stops
      (ans.failed = none → ans.poisoned.any id = false → ans.bytes.length = 8 → ∀ d a, q.kind = .load d 8 true a → ∃ w', t.waves[wi]? = some w' ∧ w'.ask = none
        ∧ w'.pend = w.pend ++ (if d = 0 then [] else [.scalar d (BitVec.ofNat 64 (leValue ans.bytes)) false]) ∧ w'.s = w.s ∧ w'.splits = w.splits)
      ∧ (ans.failed = none → ∀ a, q.kind = .store a → ∃ w', t.waves[wi]? = some w' ∧ w'.ask = none ∧ w'.pend = w.pend ∧ w'.s = w.s ∧ w'.splits = w.splits)
      ∧ (stops = false → w.leaseDst = none → ∀ a,
        (ans.failed ≠ none → ∀ d n sg, q.kind = .load d n sg a → Undone t wi w q ⟨17, 0, a⟩ false (some d))
        ∧ (ans.failed ≠ none → q.kind = .store a → Undone t wi w q ⟨17, 0, a⟩ true none)
        ∧ (ans.failed ≠ none → ∀ d n, q.kind = .atomic d n a → Undone t wi w q ⟨17, 0, a⟩ true (some d))
        ∧ (ans.failed = none → ∀ d n, q.kind = .atomic d n a → (ans.poisoned.take n).any id = true → Undone t wi w q ⟨9, 2, a⟩ true (some d))))

/-- R162 to R164, R414: a fence completes when no copy (FROM bit 2), fabric operation (bit 4) and access of a memory stream (bit 5: a take that is due, a fill that is called
for, as log entry 43 reads it; one stopped by a fault is passed, the model's choice, log entry 153) of the wave is out on a path it covers, FENCE with seq_cst covering all; fabric operations
found failed make it trap with cause 17 at the oldest of them; else it waits. -/
def Obligations.FenceResults : Prop :=
  ∀ (s : State) (wi si : Nat) (w : Wave) (sp : Split) (od : BitVec 2) (scp : BitVec 3) (frm dst : BitVec 6),
    Issues s wi si w sp → Straight sp →
    let out (f : BitVec 6) : Prop :=
      (f.getLsbD 2 = true ∧ ∃ c ∈ s.copies, c.wave = some wi ∧ c.finished = false)
      ∨ (f.getLsbD 4 = true ∧ ∃ r ∈ s.fabric.out, r.answer = none ∧ ∃ b a, r.use = .fabric wi b a)
      ∨ (f.getLsbD 5 = true ∧ ∃ t ∈ w.streams, t.err = none
          ∧ ((t.kind = 2 ∧ t.due = true) ∨ (t.kind = 1 ∧ t.full = false ∧ t.drained = false ∧ t.done < t.total)))
    let rule (i : Instr) (f : BitVec 6) : Prop :=
      (¬ out f → w.fabFail = [] ∨ f.getLsbD 4 = false → Gives i s wi si sp s)
      ∧ (¬ out f → CutClosed w → f.getLsbD 4 = true → ∀ n a, (n, a) ∈ w.fabFail → (∀ x ∈ w.fabFail, x = (n, a) ∨ n < x.1) → exec i s =
          .next ((s.updWave wi (fun w => { w with fabFail := [] })).takeTrap wi si sp.pc ⟨17, 0, a⟩ false false).bump)
      ∧ (out f → exec i s = .next (s.stall wi si))
    Gives (.fence 0 od scp) s wi si sp s ∧ rule (.fence 1 od scp) 0x3F ∧ rule (.fenceX frm dst) frm

/-! ### Taking an exception and returning from one (spec/07) -/

/-- R179 to R181: a trap that neither parks nor diverges, taken at level 0 or 1 of a wave with a handler, makes the writes in flight and enters
TRAPBASE one level up; where a D handler is armed a breakpoint enters it at level 3 (spec/21 R397).

R181, R184, Table 7.3: entering a handler, or parking, leaves in memory the frame of the level: s0 to s31, k0 to k7 and the words of the trap, those of the stacked loop at
352 to 368 as log entry 25 reads them; the handler's own loop registers read 0 at entry, the model's choice (log entry 152); but for a trace record nothing outside its first 1,024 bytes changes, and its vector area has no defined value until a claim. -/
def Obligations.TrapEntryAndFrame : Prop :=
  (∀ (s : State) (wi si : Nat) (w : Wave) (sp : Split) (pc : Word) (t : Trap) (write fetch : Bool),
     (s.drain wi).waves[wi]? = some w → w.splits[si]? = some sp → t.cause ≠ 20 → t.parks = false →
     (w.lvl < 2 → w.trapbase ≠ 0 → (t.cause = 13 → s.debugEntry w = none) →
       Entered (s.takeTrap wi si pc t write fetch) wi si w sp (t.cause == 18 || t.cause == 19) (w.lvl + 1) w.trapbase
         ∧ ((s.takeTrap wi si pc t write fetch).waves[wi]?).map (·.look) = some none
         ∧ Framed s (s.takeTrap wi si pc t write fetch) wi w sp (w.lvl + 1) pc t)
     ∧ (∀ entry, t.cause = 13 → w.lvl < 3 → s.debugEntry w = some entry →
       Entered (s.takeTrap wi si pc t write fetch) wi si w sp false 3 entry ∧ Framed s (s.takeTrap wi si pc t write fetch) wi w sp 3 pc t))
  ∧ (∀ (s : State) (wi lvl : Nat) (w : Wave) (sp : Split) (pc : Word) (t : Trap),
     Memory.wf s.mem = true → t.cause < 256 → t.sub < 256 → w.vl < 2 ^ 64 → w.esr < 2 ^ 64 →
     let u := s.writeFrame wi w sp lvl pc t
     (∀ r : Reg, u.frameWord wi lvl (8 * r.toNat) = (w.rd r).toNat)
     ∧ (∀ x ∈ frameWords w sp pc t, u.frameWord wi lvl x.1 = x.2)
     ∧ (∀ k : BitVec 3, u.frameWord wi lvl (512 + 8 * k.toNat) = (w.rdK k).toNat)
     ∧ (∀ a, a < frameKey wi lvl ∨ frameKey wi lvl + 1024 ≤ a → memRead u.mem a = memRead s.mem a)
     ∧ (∀ (x : Wave) (off : Nat), u.waves[wi]? = some x → 1 ≤ lvl → lvl ≤ 3 → 1024 ≤ off → off < 9216 → wi < 2 ^ 64 →
         u.noClaim (frameKey wi lvl + off) = !x.claims.getLsbD lvl))

/-- R181, R183, R188, R189: with TRAPBASE 0 a trap stops the wave, as one at level 2 or 3 does and a divergence at every level: its splits end and its queue has
the fault "wave stopped"; a translation fault parks the wave where it is, naming the frame it wrote, and is reported.

R316, R362: the report is a PCIe PRI request where the address's leaf is of host memory, else, and where no leaf is met, a record of kind 1, whose INFO has a store in bit 0, a fetch in bit 1 and a
stream in bit 3. -/
def Obligations.TrapsThatStopOrPark : Prop :=
  (∀ (s : State) (wi si : Nat) (w : Wave) (sp : Split) (pc : Word) (t : Trap) (write fetch : Bool) (q : Queue),
      (s.drain wi).waves[wi]? = some w → w.splits[si]? = some sp → s.queues[(s.block w.block).queue]? = some q →
      (t.cause ≠ 20 → t.parks = false → (t.cause = 13 → s.debugEntry w = none ∨ w.lvl = 3) →
        (w.lvl ≥ 2 ∨ w.trapbase = 0) → ∃ w' q', (s.takeTrap wi si pc t write fetch).waves[wi]? = some w'
          ∧ w'.stopped = some (if w.lvl ≥ 2 then .doubleFault else .unhandled) ∧ w'.splits = [] ∧ w'.frozen = []
          ∧ (s.takeTrap wi si pc t write fetch).queues[(s.block w.block).queue]? = some q'
          ∧ q'.mode = .faulted ∧ q'.fault = some (4, t.cause, t.sub, t.val))
      ∧ (t.cause = 20 → ∃ w' q', (s.takeTrap wi si pc t write fetch).waves[wi]? = some w'
          ∧ w'.stopped = some .divergence ∧ w'.splits = [] ∧ w'.frozen = []
          ∧ (s.takeTrap wi si pc t write fetch).queues[(s.block w.block).queue]? = some q'
          ∧ q'.mode = .faulted ∧ q'.fault = some (4, 20, t.sub, t.val)))
  ∧ (∀ (s : State) (wi si : Nat) (w : Wave) (sp : Split) (pc : Word) (t : Trap) (write fetch : Bool),
      (s.drain wi).waves[wi]? = some w → w.splits[si]? = some sp → (t.cause = 8 ∨ (t.cause = 7 ∧ t.sub = 2)) →
      ∃ u w', s.takeTrap wi si pc t write fetch = State.reportFault u (s.ctxOf w) (s.coreOf w) t.val write t.cause t.sub (s.queue (s.block w.block).queue).num
          (b2n write + 2 * b2n fetch + 8 * b2n (w.ofStream t)) (s.who w)
        ∧ u.records = s.records ∧ u.host.pri = s.host.pri ∧ u.waves[wi]? = some w'
        ∧ w'.park = some ⟨t.cause, t.sub, t.val, write, if w.lvl ≤ 1 then w.lvl + 1 else 0, si⟩
        ∧ u.mem = (if w.lvl ≤ 1 then (s.writeFrame wi w sp (w.lvl + 1) pc t).mem else s.mem)
        ∧ w'.look = none ∧ w'.splits = updAt w.splits si (fun x => { x with due := none, skipHit := false })
        ∧ { w' with park := w.park, look := w.look, splits := w.splits, mateTrap := w.mateTrap } = w)
  ∧ (∀ (s : State) (c : Ctx) (core : Nat) (a : Word) (write : Bool) (cause sub queue info who : Nat),
      let t := s.reportFault c core a write cause sub queue info who
      let recorded : Prop := t.records = s.records ++ [[1, 0, cause, sub, queue, info, a.toNat, who]] ∧ t.host.pri = s.host.pri
      t.waves = s.waves
      ∧ (∀ e, bit a.toNat 56 = false → highBits a = false → s.leaf c core a.toNat = some e →
        (bits e 8 7 = 2 → t.records = s.records ∧ t.host.pri = s.host.pri ++ [⟨c.fn, c.pasid, a.toNat / 4096, write⟩])
        ∧ (bits e 8 7 ≠ 2 → recorded))
      ∧ (bit a.toNat 56 = true ∨ highBits a = true ∨ s.leaf c core a.toNat = none → recorded))

/-- R186: RTE at level L whose frame passes the checks restores s1 to s31, both sets of poison bits (s0 has none, R192), WMODE but LEGACY, VL, SPACE, ESR and ESV
from the frame; the level becomes L − 1, or the level the D handler interrupted; at level 0 the lanes of the frame's split are at PC, and every
frozen lane is where it was. -/
def Obligations.ReturnRestores : Prop :=
  ∀ (s : State) (wi si : Nat) (w : Wave) (sp : Split), Issues s wi si w sp → w.lvl ≠ 0 → w.pend = [] → CutClosed w → (∀ t ∈ w.streams, t.due = false) →
    s.rteOk wi w w.lvl = true → ∃ t w', exec .rte s = .next t ∧ t.waves[wi]? = some w'
      ∧ (let f := s.frameWord wi w.lvl
        let back := if w.lvl = 3 then w.heldLevel else w.lvl - 1
        w'.lvl = back
        ∧ (∀ r : Reg, r ≠ 0 → w'.rd r = word (f (8 * r.toNat)))
        ∧ w'.sPois = BitVec.ofNat 32 (f 376) &&& ~~~1#32 ∧ w'.vPois = BitVec.ofNat 32 (f 384)
        ∧ w'.wmode = (BitVec.ofNat 32 (f 280) &&& ~~~0x80000#32) ||| (w.wmode &&& 0x80000#32)
        ∧ w'.vl = f 288 ∧ w'.space = BitVec.ofNat 2 (f 296) ∧ w'.esr = f 304 ∧ w'.esv = word (f 312)
        ∧ (back = 0 → ∀ x l, w.frozen = x :: l → w'.frozen = [] ∧ ∀ lane,
            (x.mask.getLsbD lane = true → LaneAt w' lane (word (f 256)))
            ∧ ∀ y ∈ l, y.mask.getLsbD lane = true → LaneAt w' lane y.pc)
        ∧ (back ≠ 0 → ∃ y, w'.splits = [y] ∧ y.pc = word (f 256)))

/-! ### The SYS group and the special registers (spec/02, spec/04) -/

/-- R112 to R117: what NOP, TRAP, BRK, SYSC, HALT and WFE do. TRAP is taken after the instruction, with TRAPPC the next address; BRK before it; SYSC completes and
stops the wave until its service is answered; HALT stops the wave for good with the cause and value of its level. At K every H-level function raises the privilege trap, cause 2
with the word in TRAPVAL. -/
def Obligations.SystemInstructions : Prop :=
  (∀ (s : State) (wi si : Nat) (w : Wave) (sp : Split) (n : BitVec 12), Issues s wi si w sp →
      (Straight sp → Gives .nop s wi si sp s)
      ∧ (CutClosed w → Straight sp → exec (.trap n) s =
          .next ((s.updWave wi (fun w => { w with splits := updAt w.splits si (fun x =>
              { x with pc := (goes sp (sp.pc + 4) sp.pc false).1, loops := (goes sp (sp.pc + 4) sp.pc false).2 }) })).takeTrap
            wi si (goes sp (sp.pc + 4) sp.pc false).1 ⟨12, 0, n.setWidth 64⟩ false false).bump)
      ∧ (CutClosed w → exec (.brk n) s = .next (s.takeTrap wi si sp.pc ⟨13, 0, n.setWidth 64⟩ false false).bump)
      ∧ (w.lvl ≠ 3 → Straight sp → Gives (.sysc n) s wi si sp
          (((s.sideEffect w).drain wi).updWave wi (fun w => { w with sysc := some (n.toNat, none) })))
      ∧ (w.lvl ≠ 0 → ∀ q, s.queues[(s.block w.block).queue]? = some q → ∃ t w' q', exec .halt s = .next t ∧ t.waves[wi]? = some w'
          ∧ w'.stopped = some .handlerHalt ∧ w'.splits = [] ∧ w'.frozen = []
          ∧ t.queues[(s.block w.block).queue]? = some q' ∧ q'.mode = .faulted
          ∧ q'.fault = some (5, s.frameWord wi w.lvl 264 % 256, s.frameWord wi w.lvl 264 / 256 % 256, word (s.frameWord wi w.lvl 272)))
      ∧ (w.latch = true → ∃ w', exec .wfe s = .next (s.updWave wi (fun _ => w')).bump
          ∧ w'.latch = false ∧ ∀ lane, sp.mask.getLsbD lane = true → LaneAt w' lane (goes sp (sp.pc + 4) sp.pc false).1)
      ∧ (w.latch = false → ∃ w', exec .wfe s = .next (s.updWave wi (fun _ => w'))
          ∧ ∃ x, w'.splits[si]? = some x ∧ x.wfe = true ∧ x.pc = sp.pc ∧ x.mask = sp.mask))
  ∧ (∀ (s : State) (wi si : Nat) (w : Wave) (sp : Split) (i : Instr) (z : IWord), Issues s wi si w sp → w.lvl = 0 → CutClosed w →
      i ∈ [Instr.rte, .halt, .claimv, .rstv] → encodeWord i = some z →
      exec i s = .next (s.takeTrap wi si sp.pc ⟨2, 0, z.setWidth 64⟩ false false).bump)

/-- R117, R185: CLAIMV at a level not yet claimed saves v0 to v31 and k0 to k7 in the frame, of a half its own lanes (log entry 34), sets CLAIM and gives the handler the
launch vector state; a second one has no effect. RSTV reloads them, WMODE but LEGACY, VL, SPACE, ESR, ESV and the poison of the vector registers, and ends the claim; without a
claim it has no effect. Both wait for a vector result in flight (spec/02 R56). -/
def Obligations.VectorClaim : Prop :=
  ∀ (s : State) (wi si : Nat) (w : Wave) (sp : Split), Good s → Issues s wi si w sp → Straight sp → w.lvl ≠ 0 →
    (w.vectorOut = false → w.claims.getLsbD w.lvl = false → w.lvl < 4 → ∃ s' w', Gives .claimv s wi si sp s' ∧ s'.waves[wi]? = some w'
      ∧ (∀ r, r < 32 → s'.readN (frameKey wi w.lvl + 1024 + 256 * r) 256 = (w.ownLanes ((s.vfile w.vfile).reg r) 0).toNat)
      ∧ (∀ k : BitVec 3, s'.frameWord wi w.lvl (512 + 8 * k.toNat) = (w.rdK k).toNat)
      ∧ s'.frameWord wi w.lvl 392 = 1
      ∧ w'.claims.getLsbD w.lvl = true ∧ w'.vPois = 0 ∧ w'.space = 0 ∧ w'.esr = 0 ∧ w'.esv = 0
      ∧ w'.wmode = 8#32 ||| (w.wmode &&& 0x80000#32) ∧ w'.vl = w'.vlmax ∧ w'.s = w.s)
    ∧ (w.vectorOut = false → w.claims.getLsbD w.lvl = true → Gives .claimv s wi si sp s)
    ∧ (w.vectorOut = false → w.claims.getLsbD w.lvl = false → Gives .rstv s wi si sp s)
    ∧ (w.vectorOut = true → exec .claimv s = .next (s.stall wi si) ∧ exec .rstv s = .next (s.stall wi si))
    ∧ (w.vectorOut = false → w.claims.getLsbD w.lvl = true → w.lvl < 4 → s.vectorWordsOk wi w w.lvl = true → ∃ s' w', Gives .rstv s wi si sp s'
        ∧ s'.waves[wi]? = some w' ∧ s'.mem = s.mem
        ∧ (w.vfile < s.vfiles.length → ∀ r, r < 32 → (s'.vfile w.vfile).reg r =
            w.ownLanes (BitVec.ofNat 2048 (s.readN (frameKey wi w.lvl + 1024 + 256 * r) 256)) ((s.vfile w.vfile).reg r))
        ∧ w'.claims.getLsbD w.lvl = false ∧ w'.vl = s.frameWord wi w.lvl 288 ∧ w'.esr = s.frameWord wi w.lvl 304
        ∧ (∀ k : BitVec 3, w'.rdK k = (let v := if k = 0 then BitVec.allOnes 64 else word (s.frameWord wi w.lvl (512 + 8 * k.toNat))
            if w.legacy then v &&& 0xFFFFFFFF#64 else v))
        ∧ w'.wmode = (BitVec.ofNat 32 (s.frameWord wi w.lvl 280) &&& ~~~0x80000#32) ||| (w.wmode &&& 0x80000#32)
        ∧ w'.space = BitVec.ofNat 2 (s.frameWord wi w.lvl 296) ∧ w'.esv = word (s.frameWord wi w.lvl 312)
        ∧ w'.vPois = BitVec.ofNat 32 (s.frameWord wi w.lvl 384) ∧ w'.s = w.s)

/-- R118, R119, Tables 2.6, 10.3 and 14.1: the value SRR delivers for the registers of the wave, its split, its block and its context, and for
the trap registers of a handler; the counters and TIME arrive later (R50) with the value at issue, which is the model's choice (log entry 129), as it is that an SRR of a grow
register waits behind a SETTILE that waits (log entry 135) and that SPLITS reads a half's lanes in their place (log entry 33). -/
def Obligations.SpecialRegisterReads : Prop :=
  ∀ (s : State) (wi si : Nat) (w : Wave) (sp : Split) (d : Reg), Issues s wi si w sp → Straight sp → Writes w [d] →
    let b := s.block w.block
    let c := s.ctxOf w
    let now (n : BitVec 12) (v : Word) : Prop := Gives (.srr d n) s wi si sp (s.setReg wi d v)
    let late (n : BitVec 12) (v : Word) : Prop := Gives (.srr d n) s wi si sp (s.updWave wi (fun w => w.later d v false))
    (∀ x ∈ [(0x000, word w.vl), (0x001, word w.vlmax), (0x002, w.wmode.setWidth 64), (0x003, w.wstat.setWidth 64),
        (0x004, w.space.setWidth 64), (0x005, word w.esr), (0x006, w.esv), (0x007, sp.mask), (0x008, sp.loops.cnt),
        (0x009, sp.loops.beg), (0x00A, sp.loops.lpend), (0x015, if isE b.core then 1 else 0),
        (0x017, word (s.core b.core).vlcap), (0x018, b.classchg.setWidth 64), (0x019, word (b.dmg.toNat * 16 + b.live.toNat)),
        (0x020, word w.id), (0x022, word (b.core % 128)), (0x023, word (s.gangId b)), (0x024, word (b.core / 128)),
        (0x025, word s.fabric.devid), (0x026, word c.part), (0x027, word b.pidx[0]), (0x028, word b.pidx[1]),
        (0x029, word b.pidx[2]), (0x02A, word b.pidx[3]), (0x02B, b.argp &&& 0x01FFFFFFFFFFFFFF#64), (0x02C, word (s.queue b.queue).num)], now x.1 x.2)
    ∧ (∀ x ∈ [(0x010, word b.grant.rows), (0x011, word b.grant.cols), (0x012, word b.grant.depth), (0x013, word b.grant.fmt), (0x014, word b.grant.sparse)],
        (w.tile = none → now x.1 x.2) ∧ (w.tile ≠ none → exec (.srr d x.1) s = .next (s.stall wi si)))
    ∧ (∀ x ∈ [(0x030, (s.core b.core).cycle), (0x031, s.time), (0x050, word (b2n s.rfz * 2 ^ 16 + s.melt.toNat)),
        (0x051, word (s.leaseRem c)), (0x052, word (c.energy / 1000)), (0x053, word c.equota),
        (0x054, word ((s.cluster (b.core / 4)).mhz * 2 ^ 16 + (match c.lease with
          | some l => if s.time.toNat < l.start + 1000 * l.granted then 4 + l.level else 0
          | none => 0)))], late x.1 x.2)
    ∧ (w.lvl ≠ 0 → ∀ x ∈ [(0x040, word (s.frameWord wi w.lvl 264) &&& 0xFFFF#64),
        (0x041, word (s.frameWord wi w.lvl 256) &&& 0x01FFFFFFFFFFFFFC#64),
        (0x042, word (s.frameWord wi w.lvl 272)), (0x043, word (2 ^ 56 + 3 * 2 ^ 40 + (w.lvl - 1) * 9216)), (0x044, w.trapbase),
        (0x045, word w.lvl)], now x.1 x.2)
    ∧ (CutClosed w → w.lvl = 0 → ∀ n ∈ [0x040#12, 0x041, 0x042, 0x043, 0x044, 0x045], ∀ z, encodeWord (.srr d n) = some z →
        exec (.srr d n) s = .next (s.takeTrap wi si sp.pc ⟨2, 0, z.setWidth 64⟩ false false).bump)
    ∧ (CutClosed w → w.lvl ≠ 3 → ∀ n : BitVec 12, 0x080 ≤ n.toNat → n.toNat ≤ 0x0BF → ∀ z, encodeWord (.srr d n) = some z →
        exec (.srr d n) s = .next (s.takeTrap wi si sp.pc ⟨2, 0, z.setWidth 64⟩ false false).bump)

/-- R46 to R49, R62, R120, Table 2.6: what SRW writes in a handler: each register holds the value where the rules admit it, and a refused value
raises illegal-instruction "reserved field" with no effect; read-only registers ignore the write. -/
def Obligations.SpecialRegisterWrites : Prop :=
  ∀ (s : State) (wi si : Nat) (w : Wave) (sp : Split) (a : Reg), Issues s wi si w sp → Straight sp → Reads w [a] → w.lvl ≠ 0 →
    let v := w.rd a
    let sets (n : BitVec 12) (f : Wave → Wave) : Prop := Gives (.srw a n) s wi si sp (s.updWave wi f)
    let refused (n : BitVec 12) : Prop := CutClosed w → ∀ z, encodeWord (.srw a n) = some z →
      exec (.srw a n) s = .next (s.takeTrap wi si sp.pc ⟨1, 5, z.setWidth 64⟩ false false).bump
    (v.toNat ≤ w.vlmax → sets 0x000 (fun w => { w with vl := v.toNat }))
    ∧ (w.vlmax < v.toNat → refused 0x000)
    ∧ ((bits v.toNat 63 21 = 0 ∧ bits v.toNat 10 8 ≤ 4 ∧ bits v.toNat 7 3 < 16) →
        let m : BitVec 32 := (v.setWidth 32 &&& ~~~0x80000#32) ||| (w.wmode &&& 0x80000#32)
        sets 0x002 (fun w => { w with wmode := m, vl := min w.vl (vlmaxOf m) }))
    ∧ (¬ (bits v.toNat 63 21 = 0 ∧ bits v.toNat 10 8 ≤ 4 ∧ bits v.toNat 7 3 < 16) → refused 0x002)
    ∧ sets 0x003 (fun w => { w with wstat := w.wstat &&& ~~~(v.setWidth 8) })
    ∧ (v.toNat ≤ 3 → sets 0x004 (fun w => { w with space := v.setWidth 2 }))
    ∧ (3 < v.toNat → refused 0x004)
    ∧ (v.toNat ≤ w.vlmax → sets 0x005 (fun w => { w with esr := v.toNat }))
    ∧ (w.vlmax < v.toNat → refused 0x005)
    ∧ ((∀ c, c < 8 → v.toNat / 2 ^ (8 * c) % 256 ≤ 8) → sets 0x006 (fun w => { w with esv := v }))
    ∧ (v.extractLsb' 57 7 = 0 ∧ v.extractLsb' 0 2 = 0 → sets 0x044 (fun w => { w with trapbase := v }))
    ∧ (¬ (v.extractLsb' 57 7 = 0 ∧ v.extractLsb' 0 2 = 0) → refused 0x044)
    ∧ (∀ n ∈ [0x001#12, 0x007, 0x015, 0x017, 0x020, 0x021, 0x022, 0x024, 0x025, 0x030, 0x031, 0x043, 0x045, 0x051, 0x070],
        Gives (.srw a n) s wi si sp s)
    ∧ (∀ n ∈ [0x00B#12, 0x01A, 0x02D, 0x032, 0x046, 0x0C0, 0xFFF], refused n)

/-- R120, R121, R284, R395, R399, R402: the register writes of spec/95 are an SRW: the flags and CLASSCHG clear by a 1, WMODE keeps LEGACY, the
lane-cycle counters clear at D, a loop register is that of the issuing split's innermost loop, whose values the loop step then uses, and the comparator and trace registers hold
what their tables admit, other values being refused. LCUSE samples the counters as they stand at issue, which is the model's choice (log entry 129). -/
def Obligations.RegisterWriteEvents : Prop :=
  ∀ (s : State) (wi si : Nat) (w : Wave) (sp : Split) (a d : Reg), Issues s wi si w sp → Straight sp →
    let v := w.rd a
    let core := s.coreOf w
    (Reads w [a] → Gives (.wstatClear a) s wi si sp (s.updWave wi (fun w => { w with wstat := w.wstat &&& ~~~(v.setWidth 8) })))
    ∧ (Reads w [a] → Gives (.classchgClear a) s wi si sp
        (s.updBlock w.block (fun b => { b with classchg := b.classchg &&& ~~~(v.setWidth 2 &&& 1#2) })))
    ∧ (Reads w [a] → bits v.toNat 63 21 = 0 → bits v.toNat 10 8 ≤ 4 → bits v.toNat 7 3 < 16 →
        let m : BitVec 32 := (v.setWidth 32 &&& ~~~0x80000#32) ||| (w.wmode &&& 0x80000#32)
        Gives (.wmodeWrite a) s wi si sp (s.updWave wi (fun w => { w with wmode := m, vl := min w.vl (vlmaxOf m) })))
    ∧ (Reads w [a] → w.lvl = 3 → Gives (.lcmaskClear a) s wi si sp
        (s.updVFile w.vfile (fun f => { f with lc := Vector.replicate 5 0 })))
    ∧ (Writes w [d] → Gives (.lcuseSample d) s wi si sp
        ((s.updVFile w.vfile (fun f => { f with sample := f.lc })).updWave wi (fun w => w.later d (s.vfile w.vfile).lc[0] false)))
    ∧ (Reads w [a] → w.lvl ≠ 0 → sp.loops.depth = 0 → w.splits = [sp] → ∃ w' x, exec (.loopRegisterWrite a 0x008) s = .next (s.updWave wi (fun _ => w')).bump.bump
        ∧ x ∈ w'.splits ∧ x.loops.cnt = v ∧ x.pc = sp.pc + 4)
    ∧ (let put (n : BitVec 12) (l : Loops) : Prop := Reads w [a] → w.lvl ≠ 0 → Straight { sp with loops := l } → exec (.loopRegisterWrite a n) s =
          .next (stepped (s.updWave wi (fun w => { w with splits := updAt w.splits si (fun x => { x with loops := l }) })) wi si { sp with loops := l }).bump
      put 0x008 { sp.loops with cnt := v }
      ∧ (v.extractLsb' 57 7 = 0 → put 0x009 { sp.loops with beg := v })
      ∧ (v.extractLsb' 57 5 = 0 → put 0x00A { sp.loops with fin := v &&& 0x01FFFFFFFFFFFFFF#64 }))
    ∧ (let refused (i : Instr) (n : BitVec 12) : Prop := Reads w [a] → CutClosed w → w.lvl = 3 → ∀ z, encodeWord (.srw a n) = some z →
          exec i s = .next (s.takeTrap wi si sp.pc ⟨1, 5, z.setWidth 64⟩ false false).bump
      (v.extractLsb' 57 7 ≠ 0 → refused (.loopRegisterWrite a 0x009) 0x009)
      ∧ (v.extractLsb' 57 5 ≠ 0 → refused (.loopRegisterWrite a 0x00A) 0x00A)
      ∧ (∀ n : BitVec 3, v.extractLsb' 57 7 ≠ 0 ∨ v.extractLsb' 0 2 ≠ 0 →
          refused (.comparatorRegisterWrite a (0x080 + n.setWidth 12 * 2)) (0x080 + n.setWidth 12 * 2))
      ∧ (∀ n : BitVec 3, v.extractLsb' 32 32 ≠ 0 ∨ v.extractLsb' 16 3 ≠ 0 ∨ v.extractLsb' 4 4 ≠ 0 ∨ v.getLsbD 1 = true ∨ v.extractLsb' 2 2 = 3 →
          refused (.comparatorRegisterWrite a (0x081 + n.setWidth 12 * 2)) (0x081 + n.setWidth 12 * 2))
      ∧ (v.extractLsb' 57 7 ≠ 0 ∨ v.extractLsb' 0 12 ≠ 0 → refused (.traceRegisterWrite a 0x090) 0x090))
    ∧ (Reads w [a] → w.lvl = 3 → v.extractLsb' 32 32 = 0 → v.extractLsb' 16 3 = 0 → v.extractLsb' 4 4 = 0 → v.getLsbD 1 = false → v.extractLsb' 2 2 ≠ 3 → ∀ n : BitVec 3,
        Gives (.comparatorRegisterWrite a (0x081 + n.setWidth 12 * 2)) s wi si sp
          (s.updCore core (fun c => { c with dcCtl := c.dcCtl.set n.toNat v n.isLt })))
    ∧ (Reads w [a] → w.lvl = 3 → v.extractLsb' 12 52 = 0 → v.extractLsb' 5 3 = 0 → 12 ≤ (v.extractLsb' 0 5).toNat → (v.extractLsb' 0 5).toNat ≤ 24 →
        Gives (.traceRegisterWrite a 0x091) s wi si sp
          (s.updCore core (fun c => { c with trcCtl := (v &&& ~~~0x800#64) ||| ((s.core core).trcCtl &&& 0x800#64 &&& ~~~v) })))
    ∧ (Reads w [a] → w.lvl = 3 → v.toNat % 64 = 0 → v.toNat < 2 ^ 25 → v.toNat < 2 ^ ((s.core core).trcCtl.extractLsb' 0 5).toNat →
        Gives (.traceRegisterWrite a 0x092) s wi si sp (s.updCore core (fun c => { c with trcPos := v })))
    ∧ (Reads w [a] → w.lvl = 3 → v.extractLsb' 57 7 = 0 → v.extractLsb' 0 2 = 0 → ∀ n : BitVec 3,
        Gives (.comparatorRegisterWrite a (0x080 + n.setWidth 12 * 2)) s wi si sp
          (s.updCore core (fun c => { c with dcAddr := c.dcAddr.set n.toNat v n.isLt })))
    ∧ (Reads w [a] → w.lvl = 3 → v.extractLsb' 57 7 = 0 → v.extractLsb' 0 12 = 0 →
        Gives (.traceRegisterWrite a 0x090) s wi si sp (s.updCore core (fun c => { c with trcBase := v })))
    ∧ (Reads w [a] → v.toNat ≤ 3 → Gives (.specialRegisterWrite a 0x004) s wi si sp
        (s.updWave wi (fun w => { w with space := v.setWidth 2 })))

/-! ### Vector arithmetic (spec/03, spec/05) -/

/-- R123, R132, R133, Tables 5.1, 5.4 and 5.5: each VOP function and each fused multiply-add delivers its element function over the active elements, with a vector
or a scalar second operand. -/
def Obligations.VectorOperationResults : Prop :=
  (∀ (s : State) (wi si : Nat) (w : Wave) (sp : Split) (d a b : Reg) (x : BitVec 1),
      Good s → Issues s wi si w sp → Straight sp →
      let gives (i : Instr) (fn : Nat) (ok : Bool) : Prop := VecReady s wi w (vopPlan w sp (some d) a b x none ok true) →
        Delivers i s wi si w sp d.toNat w.etype
          ((w.actives sp).map (fun j => (j, vopElem fn w.etype w.rnd w.sat w.ftz (elem s w a j) (elemB s w b x j))))
      let both := isArith w.etype || decide (8 ≤ w.etype)
      let ints := decide (8 ≤ w.etype)
      gives (.vadd d a b x) 0 both ∧ gives (.vsub d a b x) 1 both ∧ gives (.vmul d a b x) 2 both ∧ gives (.vdiv d a b x) 3 both
      ∧ gives (.vmin d a b x) 4 both ∧ gives (.vmax d a b x) 5 both ∧ gives (.vand d a b x) 6 true ∧ gives (.vor d a b x) 7 true
      ∧ gives (.vxor d a b x) 8 true ∧ gives (.vshl d a b x) 9 ints ∧ gives (.vshr d a b x) 10 ints ∧ gives (.vsha d a b x) 11 ints
      ∧ gives (.vmulh d a b x) 12 ints ∧ gives (.vabsd d a b x) 13 both)
  ∧ (∀ (s : State) (wi si : Nat) (w : Wave) (sp : Split) (d a b c : Reg) (x : BitVec 1),
      Good s → Issues s wi si w sp → Straight sp →
      VecReady s wi w (vopPlan w sp (some d) a b x (some c) (isArith w.etype || decide (8 ≤ w.etype)) true) →
      let gives (i : Instr) (np nc : Bool) : Prop :=
        Delivers i s wi si w sp d.toNat w.etype ((w.actives sp).map (fun j =>
          let (p, q, r) := (elem s w a j, elemB s w b x j, elem s w c j)
          (j, if isFloat w.etype then
                let f := fetchF w.ftz w.etype
                ffmaP w.etype w.rnd w.ftz (if np then negV (f p) else f p) (f q) (if nc then negV (f r) else f r)
              else
                let v := intVal w.etype
                deliverInt w.etype w.sat ((if np then -(v p * v q) else v p * v q) + (if nc then -(v r) else v r)))))
      gives (.vfma d a b x c) false false ∧ gives (.vfms d a b x c) false true ∧ gives (.vfnma d a b x c) true false
      ∧ gives (.vfnms d a b x c) true true)

/-- R83, R132, Tables 3.6 and 5.4: the element functions of the eight integer types s8 to s64 (codes 8 to 11) and n8 to n64 (codes 12 to 15), by the function number of VOP, with
their flags: the low bits of a result without SAT; the nearest end of the range, with SATF, under SAT for sum, difference, product, quotient and absolute difference;
division by zero. -/
def Obligations.IntegerElementValues : Prop :=
  ∀ (fmt mode : Nat) (ftz : Bool), 8 ≤ fmt → fmt ≤ 15 → ∀ u v : BitVec (sewOf fmt),
    let n := sewOf fmt
    let signed := decide (fmt < 12)
    let r (sat : Bool) (fn : Nat) : FRes := vopElem fn fmt mode sat ftz u.toNat v.toNat
    let val (fn : Nat) : BitVec (sewOf fmt) := BitVec.ofNat (sewOf fmt) (r false fn).val
    let less := if signed then u.slt v else u.ult v
    let x : Int := if signed then u.toInt else u.toNat
    let y : Int := if signed then v.toInt else v.toNat
    let held (i : Int) : FRes :=
      if i < (rangeOf fmt).1 then ⟨intPattern fmt (rangeOf fmt).1, SATF⟩ else if (rangeOf fmt).2 < i then ⟨intPattern fmt (rangeOf fmt).2, SATF⟩ else ⟨intPattern fmt i, 0⟩
    val 0 = u + v ∧ val 1 = u - v ∧ val 2 = u * v ∧ val 6 = u &&& v ∧ val 7 = u ||| v ∧ val 8 = u ^^^ v
    ∧ val 9 = u <<< (v.toNat % n) ∧ val 10 = u >>> (v.toNat % n) ∧ val 11 = u.sshiftRight (v.toNat % n)
    ∧ val 3 = (if v = 0 then BitVec.allOnes _ else if signed then u.sdiv v else u / v)
    ∧ val 4 = (if less then u else v) ∧ val 5 = (if less then v else u) ∧ val 13 = (if less then v - u else u - v)
    ∧ val 12 = (if signed then (u.signExtend (2 * n) * v.signExtend (2 * n)).extractLsb' n _ else (u.setWidth (2 * n) * v.setWidth (2 * n)).extractLsb' n _)
    ∧ (∀ fn, fn < 14 → (r false fn).val < 2 ^ n ∧ (r false fn).flags = (if fn = 3 ∧ v = 0 then DZ else 0))
    ∧ r true 0 = held (x + y) ∧ r true 1 = held (x - y) ∧ r true 2 = held (x * y) ∧ r true 13 = held (x - y).natAbs
    ∧ r true 3 = (if v = 0 then ⟨2 ^ n - 1, DZ⟩ else held (x.tdiv y))
    ∧ ∀ fn ∈ [4, 5, 6, 7, 8, 9, 10, 11, 12], r true fn = r false fn

/-- R68 to R70, R75 to R80, R84, R91, R134 to R136, Tables 3.2, 3.3, 3.7, 5.4, 5.7 to 5.9: the element functions of f64, f32, f16 and bf16 by the values of their patterns: sum,
difference, product, quotient, square root and the fused forms rounded once under the mode, with their flags; the smaller and the larger; the magnitude of a difference; the
comparisons; the classes; the estimates, one of the two neighbours of the exact value, exact where it is representable, infinity where they overflow (the model's choice whatever RND
holds: log entry 131); the sum to nearest of the atomics. An exact zero's sign is that of IEEE 754, which R68 names. -/
def Obligations.FloatElementValues : Prop :=
  ∀ (fmt mode : Nat) (sat ftz : Bool) (a b c : Nat), fmt ≤ 3 → mode ≤ 4 → a < 2 ^ sewOf fmt → b < 2 ^ sewOf fmt → c < 2 ^ sewOf fmt →
    let x := reads ftz fmt a
    let y := reads ftz fmt b
    let z := reads ftz fmt c
    let op (fn : Nat) : FRes := vopElem fn fmt mode sat ftz a b
    let gets (e : Exact) (r : FRes) : Prop := Gets fmt mode ftz e r
    gets (sumOf mode x y) (op 0) ∧ gets (sumOf mode x y.opposite) (op 1) ∧ gets (productOf x y) (op 2) ∧ gets (quotientOf x y) (op 3)
    ∧ IsExtreme fmt ftz false [a, b] (op 4) ∧ IsExtreme fmt ftz true [a, b] (op 5) ∧ gets (sumOf mode x y.opposite).abs (op 13)
    ∧ gets (rootOf x) (fsqrtP fmt mode ftz (fetchF ftz fmt a))
    ∧ (∀ np nc : Bool, gets (fusedOf mode (if np then x.opposite else x) y (if nc then z.opposite else z))
        (ffmaP fmt mode ftz (if np then negV (fetchF ftz fmt a) else fetchF ftz fmt a) (fetchF ftz fmt b)
          (if nc then negV (fetchF ftz fmt c) else fetchF ftz fmt c)))
    ∧ (∃ r, Gets fmt 0 false (sumOf 0 (meaning fmt a) (meaning fmt b)) r ∧ addRne fmt a b = r.val)
    ∧ (let un := x.isNan || y.isNan
      let lt := x.less y
      let gt := y.less x
      ∀ q ∈ [(0, !un && !lt && !gt), (1, un || lt || gt), (2, !un && lt), (3, !un && !gt), (4, !un && gt), (5, !un && !lt), (8, un)],
        vcmpElem q.1 fmt ftz a b = (q.2, x.signals || y.signals))
    ∧ classBit fmt a = (match meaning fmt a with
        | .inf neg => if neg then 0 else 7
        | .nan v => if v then 8 else 9
        | .fin neg m => if m = 0 then (if neg then 3 else 4) else if subnormal fmt a then (if neg then 2 else 5) else if neg then 1 else 6)
    ∧ (let est (fn : Nat) : FRes := estElem fn fmt ftz a
      let near (neg : Bool) (v : Mag) (r : FRes) : Prop := ∃ m ∈ [1, if neg then 2 else 3],
        RoundsTo fmt m ftz neg v ⟨infPattern fmt neg, OF ||| NX ||| NF⟩ r
      let invalid : FRes := ⟨nanPattern fmt, NV ||| NF⟩
      match x with
      | .nan v => ∀ fn, fn < 4 → est fn = ⟨nanPattern fmt, when v NV ||| NF⟩
      | .inf neg => est 0 = ⟨signPattern fmt neg, 0⟩ ∧ est 1 = (if neg then invalid else ⟨0, 0⟩)
          ∧ est 2 = (if neg then ⟨0, 0⟩ else ⟨infPattern fmt false, NF⟩) ∧ est 3 = (if neg then invalid else ⟨infPattern fmt false, NF⟩)
      | .fin neg m =>
        (m = 0 → est 0 = ⟨infPattern fmt neg, DZ ||| NF⟩ ∧ est 1 = ⟨infPattern fmt neg, DZ ||| NF⟩ ∧ meaning fmt (est 2).val = .fin false 1 ∧ (est 2).flags = 0
          ∧ est 3 = ⟨infPattern fmt true, DZ ||| NF⟩)
        ∧ (m ≠ 0 → near neg (.of (1 / m)) (est 0))
        ∧ (m ≠ 0 → if neg then est 1 = invalid ∧ est 3 = invalid else near false (.overRoot m) (est 1))
        ∧ (∀ i : Int, i ≠ 0 → (i : Rat) = signed neg m → near false (.of (two i)) (est 2))
        ∧ (∀ i : Int, neg = false → m = two i → if i = 0 then est 3 = ⟨0, 0⟩ else near (decide (i < 0)) (.of (i.natAbs : Rat)) (est 3)))

/-- R69 to R72, R74, R80 to R82, R87, R89, R92 to R94, Tables 3.2 to 3.5: conversions between any two formats by the values of their patterns, l8 and l6 rounded on the pattern;
an infinite operand converted to e4m3 raises SATF or NF alone, the model's choice (log entry 157);
quantizing and dequantizing by a scale byte; and the update of an accumulator by a group of products: their exact sum added and rounded once to nearest, or added as integers. -/
def Obligations.ConversionElementValues : Prop :=
  (∀ (src dst mode : Nat) (sat ftz : Bool) (p : Nat), src < 16 → dst < 16 → mode ≤ 4 → p < 2 ^ sewOf src →
    let r := convert src dst mode sat ftz p
    let i := intMeaning src p
    let (lo, hi) := rangeOf dst
    (src ≤ 7 → dst ≤ 7 → Converts dst mode sat ftz (reads ftz src p) r)
    ∧ (src ≤ 7 → 8 ≤ dst → ConvertsInt dst mode sat (reads ftz src p) r)
    ∧ (8 ≤ src → dst ≤ 7 → Converts dst mode sat ftz (.fin (decide (i < 0)) (i.natAbs : Rat)) r)
    ∧ (8 ≤ src → 8 ≤ dst → r = if sat = true ∧ i < lo then ⟨intPattern dst lo, SATF⟩ else if sat = true ∧ hi < i then ⟨intPattern dst hi, SATF⟩
        else ⟨intPattern dst i, 0⟩))
  ∧ (∀ (nf src mode : Nat) (sat ftz : Bool) (p b : Nat), 4 ≤ nf → nf ≤ 7 → src ≤ 3 → mode ≤ 4 → p < 2 ^ sewOf src → b < 256 →
    let r := quantize nf mode sat ftz src p b
    (b / 8 = 0 → r = ⟨0, 0⟩) ∧ (b / 8 = 31 → r = ⟨nanPattern nf, NV ||| NF⟩)
    ∧ (0 < b / 8 → b / 8 < 31 → Converts nf mode sat ftz (match reads ftz src p with | .fin neg m => .fin neg (m / scaleOf b) | x => x) r))
  ∧ (∀ (nf : Nat) (ftz : Bool) (p b : Nat), 4 ≤ nf → nf ≤ 7 → p < 256 → b < 256 →
    let r := dequantize nf p b ftz
    (b / 8 = 0 → r = ⟨0, 0⟩) ∧ (b / 8 = 31 → r = ⟨nanPattern 1, NV ||| NF⟩)
    ∧ (0 < b / 8 → b / 8 < 31 → Converts 1 0 false ftz (match meaning nf p with | .fin neg m => .fin neg (m * scaleOf b) | x => x) r))
  ∧ (∀ (fmt : Nat) (sat : Bool) (acc : Nat) (l : List (Nat × Nat)), 2 ≤ fmt → fmt ≤ 8 → acc < 2 ^ 32 →
    let t := accUpdate fmt sat acc (groupSum (l.map (fun x => (matVal fmt x.1, matVal fmt x.2))))
    let g := groupOf (l.map (fun x => (operandOf fmt x.1, operandOf fmt x.2)))
    (fmt ≤ 7 → ∀ neg, g = .fin neg 0 → t = acc)
    ∧ (fmt ≤ 7 → (∀ neg, g ≠ .fin neg 0) → ∃ r, Gets 1 0 false (sumOf 0 (meaning 1 acc) g) r ∧ t = r.val)
    ∧ (fmt = 8 →
      let v := intMeaning 10 acc + (l.map (fun x => intMeaning 8 x.1 * intMeaning 8 x.2)).sum
      t = intPattern 10 (if sat then max (-2147483648) (min 2147483647 v) else v)))

/-- R134, R135, Table 5.6: the one-operand functions, VBCAST and VIOTA. -/
def Obligations.VectorUnaryResults : Prop :=
  ∀ (s : State) (wi si : Nat) (w : Wave) (sp : Split) (d a : Reg) (k : BitVec 3),
    Good s → Issues s wi si w sp → Straight sp →
    let plan (ok : Bool) : VPlan :=
      { reads := [groupRead w a 0 w.grp w.sew (w.actives sp)], writes := [(d.toNat, w.grp)], typeOk := ok }
    let gives (i : Instr) (f : Nat → FRes) (ok : Bool) : Prop := VecReady s wi w (plan ok) →
      Delivers i s wi si w sp d.toNat w.etype ((w.actives sp).map (fun j => (j, f (elem s w a j))))
    let float := isArith w.etype
    let both := isArith w.etype || decide (8 ≤ w.etype)
    let n := w.sew
    gives (.vsqrt d a) (fun p => fsqrtP w.etype w.rnd w.ftz (fetchF w.ftz w.etype p)) float
    ∧ gives (.vrcp d a) (estElem 0 w.etype w.ftz) float ∧ gives (.vrsq d a) (estElem 1 w.etype w.ftz) float
    ∧ gives (.vexp2 d a) (estElem 2 w.etype w.ftz) float ∧ gives (.vlog2 d a) (estElem 3 w.etype w.ftz) float
    ∧ gives (.vabs d a) (fun p => if isFloat w.etype then ⟨p % 2 ^ (n - 1), 0⟩ else deliverInt w.etype w.sat (intVal w.etype p).natAbs) both
    ∧ gives (.vneg d a) (fun p => if isFloat w.etype then ⟨p ^^^ 2 ^ (n - 1), 0⟩ else deliverInt w.etype w.sat (-(intVal w.etype p))) both
    ∧ gives (.vnot d a) (fun p => ⟨2 ^ n - 1 - p, 0⟩) true
    ∧ gives (.vclass d a) (fun p => ⟨2 ^ classBit w.etype p, 0⟩) float
    ∧ gives (.vmov d a) (fun p => ⟨p, 0⟩) true
    ∧ (VecReady s wi w { ss := [(a, 0)], writes := [(d.toNat, w.grp)] } →
        Delivers (.vbcast d a) s wi si w sp d.toNat w.etype ((w.actives sp).map (fun j => (j, ⟨(w.rd a).toNat % 2 ^ n, 0⟩))))
    ∧ (VecReady s wi w { writes := [(d.toNat, w.grp)], typeOk := decide (8 ≤ w.etype) } →
        Delivers (.viota d k) s wi si w sp d.toNat w.etype ((w.actives sp).map (fun j =>
          (j, ⟨((w.actives sp).filter (fun i => decide (i < j) && (w.rdK k).getLsbD (i % w.lanes))).length % 2 ^ n, 0⟩))))

/-- R44, R123, R136, Table 5.9: each comparison sets or clears the bits of the active elements in mask d and leaves its other bits; a signalling NaN
raises NV. -/
def Obligations.ComparisonResults : Prop :=
  ∀ (s : State) (wi si : Nat) (w : Wave) (sp : Split) (d : BitVec 3) (a b : Reg) (x : BitVec 1),
    Good s → Issues s wi si w sp → Straight sp → d ≠ 0 →
    let gives (i : Instr) (fn : Nat) (ok : Bool) : Prop := VecReady s wi w (vopPlan w sp none a b x none ok (decide (w.vl ≤ w.lanes))) →
      let res (j : Nat) : Bool × Bool := vcmpElem fn w.etype w.ftz (elem s w a j) (elemB s w b x j)
      (w.atrap = true → ∀ j ∈ w.actives sp, (res j).2 = false) →
      ∃ t w', exec i s = .next t ∧ t.waves[wi]? = some w'
        ∧ (∀ j, j < w.lanes → (w'.rdK d).getLsbD j = if w.active sp j then (res j).1 else (w.rdK d).getLsbD j)
        ∧ (∀ k, k ≠ d → w'.rdK k = w.rdK k) ∧ w'.s = w.s
        ∧ w'.wstat = w.wstat ||| (if (w.actives sp).any (fun j => (res j).2) then NV else 0)
        ∧ SameMemory s t ∧ SameWaves s t wi ∧ t.vfiles.map (·.v) = s.vfiles.map (·.v)
    let both := isArith w.etype || decide (8 ≤ w.etype)
    let ints := decide (8 ≤ w.etype)
    gives (.vcmpEq d a b x) 0 both ∧ gives (.vcmpNe d a b x) 1 both ∧ gives (.vcmpLt d a b x) 2 both ∧ gives (.vcmpLe d a b x) 3 both
    ∧ gives (.vcmpGt d a b x) 4 both ∧ gives (.vcmpGe d a b x) 5 both ∧ gives (.vcmpLtn d a b x) 6 ints
    ∧ gives (.vcmpGen d a b x) 7 ints ∧ gives (.vcmpUnord d a b x) 8 (isArith w.etype)

/-- R137 to R139: the conversions, from and to groups of the registers their formats need. -/
def Obligations.ConversionResults : Prop :=
  ∀ (s : State) (wi si : Nat) (w : Wave) (sp : Split) (d a b : Reg) (fb fc : BitVec 5) (fm bsel : BitVec 2) (sat : BitVec 1),
    Good s → Issues s wi si w sp → Straight sp →
    let el (fmt j : Nat) : Nat := w.getElem (s.vfile w.vfile) a.toNat (sewOf fmt) j
    let rd (fmt : Nat) : VRead := groupRead w a 0 (w.groupOf fmt) (sewOf fmt) (w.actives sp)
    let scale (j : Nat) : Nat :=
      (((s.vfile w.vfile).reg b.toNat).extractLsb' (32 * (j / 32 % w.lanes + w.laneBase) + 8 * bsel.toNat) 8).toNat
    let scales : VRead := ⟨b.toNat, 1, 1, [b.toNat]⟩
    let nf := 4 + fm.toNat
    (VecReady s wi w { reads := [rd fb.toNat], writes := [(d.toNat, w.groupOf fc.toNat)], big := w.tooBig fb.toNat || w.tooBig fc.toNat } →
      Delivers (.vcvt d a fb fc) s wi si w sp d.toNat fc.toNat
        ((w.actives sp).map (fun j => (j, convert fb.toNat fc.toNat w.rnd w.sat w.ftz (el fb.toNat j)))))
    ∧ (VecReady s wi w { reads := [groupRead w a 0 w.grp w.sew (w.actives sp), scales], writes := [(d.toNat, w.groupOf nf)], typeOk := isArith w.etype, big := w.tooBig nf } →
      Delivers (.vcvtq d a b fm sat bsel) s wi si w sp d.toNat nf
        ((w.actives sp).map (fun j => (j, quantize nf w.rnd (sat == 1) w.ftz w.etype (elem s w a j) (scale j)))))
    ∧ (VecReady s wi w { reads := [rd nf, scales], writes := [(d.toNat, w.groupOf 1)], big := w.tooBig nf || w.tooBig 1 } →
      Delivers (.vcvtd d a b fm bsel) s wi si w sp d.toNat 1
        ((w.actives sp).map (fun j => (j, dequantize nf (el nf j) (scale j) w.ftz))))

/-- R140, R141: the permutes move bit patterns of whole elements: by index, up and down by a distance, compressed, expanded, selected, and one
element to or from a scalar register; a legacy half's index that leaves it raises LOVR. -/
def Obligations.PermuteResults : Prop :=
  ∀ (s : State) (wi si : Nat) (w : Wave) (sp : Split) (d a b : Reg) (c : BitVec 3),
    Good s → Issues s wi si w sp → Straight sp →
    let W := w.vlmax
    let el (r : Reg) (j : Nat) : Nat := inFmt w.etype (elem s w r j)
    let act := w.actives sp
    let chosen := act.filter (fun i => (w.rdK c).getLsbD (i % w.lanes))
    let from' (l : List Nat) : VRead := groupRead w a 0 w.grp w.sew l
    let lovr (l : List Nat) : BitVec 8 := if w.legacy && l.any (fun v => decide (W ≤ v)) then LOVR else 0
    let gives (i : Instr) (p : VPlan) (l : List (Nat × Nat)) (f : BitVec 8) : Prop := VecReady s wi w { p with writes := [(d.toNat, w.grp)] } →
      ∃ t, exec i s = .next t ∧ Elements s t w d.toNat w.sew l ∧ VecWave t wi w sp f ∧ SameMemory s t ∧ SameWaves s t wi
    gives (.vshfl d a b) { reads := [from' (act.map (fun i => el b i % W)), groupRead w b 1 w.grp w.sew act] }
      (act.map (fun i => (i, el a (el b i % W)))) (lovr (act.map (el b)))
    ∧ gives (.vslup d a b)
        { reads := [from' ((act.filter (fun i => (w.rd b).toNat ≤ i)).map (fun i => i - (w.rd b).toNat))], ss := [(b, 1)] }
        ((act.filter (fun i => (w.rd b).toNat ≤ i)).map (fun i => (i, el a (i - (w.rd b).toNat)))) 0
    ∧ gives (.vsldn d a b)
        { reads := [from' ((act.filter (fun i => i + (w.rd b).toNat < W)).map (fun i => i + (w.rd b).toNat))], ss := [(b, 1)] }
        (act.map (fun i => (i, if i + (w.rd b).toNat < W then el a (i + (w.rd b).toNat) else 0))) 0
    ∧ gives (.vcompr d a c) { reads := [from' chosen] } (chosen.zipIdx.map (fun x => (x.2, el a x.1))) 0
    ∧ gives (.vexpnd d a c) { reads := [from' (List.range chosen.length)] } (chosen.zipIdx.map (fun x => (x.1, el a x.2))) 0
    ∧ gives (.vsel d a b c) { reads := [from' act, groupRead w b 1 w.grp w.sew act] }
        (act.map (fun i => (i, if (w.rdK c).getLsbD (i % w.lanes) then el a i else el b i))) 0
    ∧ gives (.vins d a b) { ss := [(a, 0), (b, 1)] } [((w.rd b).toNat % W, inFmt w.etype ((w.rd a).toNat % 2 ^ w.sew))]
        (lovr [(w.rd b).toNat])
    ∧ (VecReady s wi w { reads := [from' [(w.rd b).toNat % W]], ss := [(b, 1)], sd := [d] } → ∃ t w', exec (.vextr d a b) s = .next t
        ∧ t.waves[wi]? = some w' ∧ SameMemory s t ∧ SameWaves s t wi ∧ t.vfiles.map (·.v) = s.vfiles.map (·.v)
        ∧ (d ≠ 0 → w'.rd d = if isSigned w.etype then wordI (sextN w.sew (elem s w a ((w.rd b).toNat % W)))
            else word (el a ((w.rd b).toNat % W)))
        ∧ (∀ r, r ≠ d → w'.rd r = w.rd r) ∧ w'.wstat = w.wstat ||| lovr [(w.rd b).toNat])

/-- R90, R91, R142: the reductions of init = s[b] and the active elements, in flight to d: the bitwise ones and the ordered sum by folding in index order, the
pairwise sum by halving over the least power of two that is not below VL, an inactive place holding the identity, max and min of integers and of floats; with nothing to combine,
init alone, a NaN canonical. With ATRAP set and NV, DZ or OF raised the arithmetic trap follows. (The model's choices: that MAX and MIN flush under FTZ is log entry 24; that
SUM and SUMO do, 132; that an infinite init which no element joins raises NF where VL is not 0, 138.) -/
def Obligations.ReductionResults : Prop :=
  ∀ (s : State) (wi si : Nat) (w : Wave) (sp : Split) (d a b : Reg),
    Good s → Issues s wi si w sp → Straight sp →
    let init := inFmt w.etype (w.rd b).toNat
    let act := w.actives sp
    let el (j : Nat) : Nat := elem s w a j
    let gives (i : Instr) (ok : Bool) (r : FRes) : Prop :=
      VecReady s wi w { reads := [groupRead w a 0 w.grp w.sew act], ss := [(b, 1)], sd := [d], typeOk := ok } →
      let after (t : State) : Prop := ∃ w', t.waves[wi]? = some w' ∧ w'.wstat = w.wstat ||| r.flags
        ∧ (d ≠ 0 → w'.pend = w.pend ++ [.scalar d (if isSigned w.etype then wordI (sextN w.sew r.val) else word (inFmt w.etype r.val)) false])
        ∧ w'.s = w.s ∧ SameMemory s t ∧ SameWaves s t wi ∧ t.vfiles.map (·.v) = s.vfiles.map (·.v)
      ((w.atrap = false ∨ r.flags &&& (NV ||| DZ ||| OF) = 0) → ∃ t, exec i s = .next t ∧ after t)
      ∧ (w.atrap = true → r.flags &&& (NV ||| DZ ||| OF) ≠ 0 → CutClosed w → ∃ s' : State,
          exec i s = .next (s'.takeTrap wi si (goes sp (sp.pc + 4) sp.pc false).1 ⟨11, 0, sp.pc⟩ false false).bump
            ∧ ∀ w', s'.waves[wi]? = some w' → w'.wstat = w.wstat ||| r.flags)
    let both := isArith w.etype || decide (8 ≤ w.etype)
    let plus (x y : FRes) : FRes :=
      let r := vopElem 0 w.etype w.rnd w.sat w.ftz x.val y.val
      ⟨r.val, x.flags ||| y.flags ||| r.flags⟩
    let alone : FRes := if 8 ≤ w.etype then ⟨init, 0⟩ else match meaning w.etype init with
      | .nan v => ⟨nanPattern w.etype, when v NV ||| NF⟩
      | .inf _ => ⟨init, if w.vl = 0 then 0 else NF⟩
      | .fin _ _ => ⟨init, 0⟩
    let extreme (i : Instr) (big : Bool) : Prop :=
      (w.vl = 0 → gives i both alone)
      ∧ (0 < w.vl → 8 ≤ w.etype → gives i both ⟨intPattern w.etype (act.foldl (fun m j => if big then max m (intMeaning w.etype (el j))
          else min m (intMeaning w.etype (el j))) (intMeaning w.etype init)), 0⟩)
      ∧ (0 < w.vl → w.etype ≤ 3 → ∃ r, IsExtreme w.etype w.ftz big (init :: act.map el) r ∧ gives i both r)
    gives (.vredAnd d a b) true ⟨act.foldl (fun t j => t &&& inFmt w.etype (el j)) init, 0⟩
    ∧ gives (.vredOr d a b) true ⟨act.foldl (fun t j => t ||| inFmt w.etype (el j)) init, 0⟩
    ∧ gives (.vredXor d a b) true ⟨act.foldl (fun t j => t ^^^ inFmt w.etype (el j)) init, 0⟩
    ∧ extreme (.vredMax d a b) true ∧ extreme (.vredMin d a b) false
    ∧ gives (.vredSumo d a b) both (if act = [] then alone else act.foldl (fun t j => plus t ⟨el j, 0⟩) ⟨init, 0⟩)
    ∧ (w.vl = 0 → gives (.vredSum d a b) both alone)
    ∧ (∀ n, 0 < w.vl → w.vl ≤ 2 ^ n → (n = 0 ∨ 2 ^ (n - 1) < w.vl) → gives (.vredSum d a b) both (plus ⟨init, 0⟩ (halving plus n (fun j =>
        if w.active sp j then ⟨el j, 0⟩ else ⟨if w.etype ≤ 7 then 2 ^ (w.sew - 1) else 0, 0⟩))))

/-- R128 to R131: SETVL and SETVLI grant min(request, VLMAX × VLCAP ÷ 64) to VL and s[d]; MODE and SPACE exchange the mode and the space with the
old value in s[d]; with no grant record to write. While an access has not passed its fault point the old VL, WMODE and SPACE go to the history buffer (R63, R131; what an entry holds: log entry 163), and the lane cap of the
SETVL that granted VL stays beside it (log entry 161); all four wait
for a VLDF that may still lower VL (R131, R154).

R143, R144: the mask operations on the whole mask, the counts below n = min(VL, W), and the moves between mask and scalar registers. -/
def Obligations.VectorControlAndMaskResults : Prop :=
  (∀ (s : State) (wi si : Nat) (w : Wave) (sp : Split) (d a : Reg) (n : BitVec 12),
      Issues s wi si w sp → Straight sp → w.unclaimed = false → Writes w [d] → (s.core (s.coreOf w)).trcCtl.getLsbD 9 = false →
      (w.lengthOut = true → exec (.setvli d n) s = .next (s.stall wi si)
        ∧ (Reads w [a] → ∀ i ∈ [Instr.setvl d a, .mode d a, .space d a], exec i s = .next (s.stall wi si)))
      ∧ (w.lengthOut = false →
      let lanes := (s.core (s.coreOf w)).vlcap
      let cap := w.vlmax * lanes / 64
      let granted (v : Nat) : State := s.updWave wi (fun w => { w.note (.vl w.vl w.cap) with vl := min v cap, cap := lanes }.wr d (word (min v cap)))
      Gives (.setvli d n) s wi si sp (granted n.toNat)
      ∧ (Reads w [a] → Gives (.setvl d a) s wi si sp (granted (w.rd a).toNat))
      ∧ (Reads w [a] → bits (w.rd a).toNat 63 21 = 0 → bits (w.rd a).toNat 10 8 ≤ 4 → bits (w.rd a).toNat 7 3 < 16 →
          let m : BitVec 32 := ((w.rd a).setWidth 32 &&& ~~~0x80000#32) ||| (w.wmode &&& 0x80000#32)
          Gives (.mode d a) s wi si sp
            (s.updWave wi (fun x => { x.note (.mode x.wmode x.vl) with wmode := m, vl := min x.vl (vlmaxOf m) }.wr d (w.wmode.setWidth 64))))
      ∧ (Reads w [a] → (w.rd a).toNat ≤ 3 → Gives (.space d a) s wi si sp
          (s.updWave wi (fun x => { x.note (.space x.space) with space := (w.rd a).setWidth 2 }.wr d (w.space.setWidth 64))))))
  ∧ ∀ (s : State) (wi si : Nat) (w : Wave) (sp : Split) (k a b : BitVec 3) (d : Reg),
      Issues s wi si w sp → Straight sp → w.unclaimed = false →
      let put (i : Instr) (v : Word) : Prop := Gives i s wi si sp (s.updWave wi (fun x => x.wrK k v))
      let n := min w.vl w.lanes
      let first (i : Nat) : Prop := i < n ∧ (w.rdK a).getLsbD i = true ∧ ∀ j, j < i → (w.rdK a).getLsbD j = false
      put (.mand k a b) (w.rdK a &&& w.rdK b) ∧ put (.mor k a b) (w.rdK a ||| w.rdK b) ∧ put (.mxor k a b) (w.rdK a ^^^ w.rdK b)
      ∧ put (.mandn k a b) (w.rdK a &&& ~~~(w.rdK b)) ∧ put (.mnot k a) (~~~(w.rdK a)) ∧ put (.mclr k) 0
      ∧ (Reads w [d] → put (.mmovk k d) (w.rd d))
      ∧ (w.vl ≤ w.lanes → put (.mset k) (word (2 ^ w.vl - 1)))
      ∧ (w.vl ≤ w.lanes → ∀ i, first i → put (.mtil k a) (word (2 ^ i - 1)) ∧ put (.mtili k a) (word (2 ^ (i + 1) - 1)))
      ∧ (w.vl ≤ w.lanes → (∀ i, i < n → (w.rdK a).getLsbD i = false) →
          put (.mtil k a) (word (2 ^ n - 1)) ∧ put (.mtili k a) (word (2 ^ n - 1)))
      ∧ (Writes w [d] → Gives (.mmovs d a) s wi si sp (s.setReg wi d (w.rdK a)))
      ∧ (Writes w [d] → Gives (.mcnt d a) s wi si sp
          (s.setReg wi d (word ((List.range n).filter (fun i => (w.rdK a).getLsbD i)).length)))
      ∧ (Writes w [d] → (∀ i, first i → Gives (.mfirst d a) s wi si sp (s.setReg wi d (word i)))
          ∧ ((∀ i, i < n → (w.rdK a).getLsbD i = false) → Gives (.mfirst d a) s wi si sp (s.setReg wi d (BitVec.allOnes 64))))

/-! ### Vector memory (spec/06) -/

/-- R148 to R153: a vector load whose outstanding elements (R62) all lead here puts the group in flight with the bytes of each, for the unit, strided,
indexed and first-fault forms; memory and the flags are as they were. -/
def Obligations.VectorLoadResults : Prop :=
  ∀ (s : State) (wi si : Nat) (w : Wave) (sp : Split) (d a b : Reg) (key : Nat → Nat),
    Good s → Issues s wi si w sp → Straight sp → w.streams = [] →
    let n := w.sew / 8
    let gives (i : Instr) (p : VPlan) (sum : Nat → Word) (more : Prop) : Prop :=
      VecReady s wi w { p with writes := [(d.toNat, w.grp)] } → Here s wi w w.space.toNat n .read sum (w.todo sp) key →
      PathsClear s wi w (elemSpans key n (w.todo sp)) false → more →
      ∃ t, exec i s = .next t ∧ InFlight s t wi w sp d w.vl n key (w.todo sp) ∧ SameMemory s t ∧ SameWaves s t wi
        ∧ t.vfiles.map (·.v) = s.vfiles.map (·.v)
    let index (j : Nat) : Word := w.rd a + ((BitVec.ofNat 32 (w.getElem (s.vfile w.vfile) b.toNat 32 j)).signExtend 64)
    gives (.vld d a) { ss := [(a, 0)] } (fun j => w.rd a + word (j * w.sew / 8)) True
    ∧ gives (.vlds d a b) { ss := [(a, 0), (b, 1)] } (fun j => w.rd a + word j * w.rd b) True
    ∧ gives (.vldx d a b) { reads := [groupRead w b 1 (w.groupOf 10) 32 (w.actives sp)], ss := [(a, 0)], big := w.tooBig 10 } index True
    ∧ gives (.vldf d a) { ss := [(a, 0)] } (fun j => w.rd a + word (j * w.sew / 8))
        (∀ j ∈ w.todo sp, s.poisoned (key j) n = false
          ∧ ∃ a', s.resolve wi w a' n n .read = .ok (.here (key j) false) ∧ spaceAddr w.space.toNat (w.rd a + word (j * w.sew / 8)) = some a')

/-- R62, R152, R154: a VLD whose element `x` is the first to fault writes the elements before it and traps with the cause of that access, its address in TRAPVAL and
ESR = x (the model's readings of the restart state and of TRAPVAL under SPACE: log entries 39, 42); a VLDF whose lowest active element can be read and whose element `x` cannot ends there, VL becomes x and the elements before it are in flight. -/
def Obligations.VectorLoadFaults : Prop :=
  (∀ (s : State) (wi si : Nat) (w : Wave) (sp : Split) (d a : Reg) (key : Nat → Nat) (pre post : List Nat) (x : Nat) (addr : Word) (c sub : Nat),
      Good s → Issues s wi si w sp → CutClosed w →
      VecReady s wi w { ss := [(a, 0)], writes := [(d.toNat, w.grp)] } → w.todo sp = pre ++ x :: post →
      let n := w.sew / 8
      let sum (j : Nat) : Word := w.rd a + word (j * w.sew / 8)
      Here s wi w w.space.toNat n .read sum pre key → PathsClear s wi w (elemSpans key n pre) false →
      spaceAddr w.space.toNat (sum x) = some addr → s.resolve wi w addr n n .read = .trap c sub →
      ∃ s' w', exec (.vld d a) s = .next (s'.takeTrap wi si sp.pc ⟨c, sub, addr⟩ false false).bump
        ∧ s'.waves[wi]? = some w' ∧ w'.esr = x ∧ w'.s = w.s ∧ w'.splits = w.splits
        ∧ Elements s s' w d.toNat w.sew (pre.map (fun j => (j, inFmt w.etype (readHere s (key j) n)))) ∧ SameMemory s s')
  ∧ (∀ (s : State) (wi si : Nat) (w : Wave) (sp : Split) (d a : Reg) (key : Nat → Nat) (y : Nat) (pre post : List Nat) (x : Nat),
      Good s → Issues s wi si w sp → Straight sp → w.streams = [] →
      VecReady s wi w { ss := [(a, 0)], writes := [(d.toNat, w.grp)] } → w.todo sp = y :: pre ++ x :: post → (w.actives sp).head? = some y →
      let n := w.sew / 8
      let sum (j : Nat) : Word := w.rd a + word (j * w.sew / 8)
      Here s wi w w.space.toNat n .read sum (y :: pre) key → PathsClear s wi w (elemSpans key n (y :: pre)) false →
      (∀ j ∈ pre, s.poisoned (key j) n = false
        ∧ ∃ a', spaceAddr w.space.toNat (sum j) = some a' ∧ s.resolve wi w a' n n .read = .ok (.here (key j) false)) →
      (∃ addr, spaceAddr w.space.toNat (sum x) = some addr ∧ ∃ c sub, s.resolve wi w addr n n .read = .trap c sub) →
      ∃ t, exec (.vldf d a) s = .next t ∧ InFlight s t wi w sp d x n key (y :: pre) ∧ SameMemory s t ∧ SameWaves s t wi)

/-- R155, R156: a vector store whose outstanding elements lead to places that do not meet writes each element at its place and no other byte of
memory; registers and flags are as they were, and ESR and ESV are zero after it. -/
def Obligations.VectorStoreResults : Prop :=
  ∀ (s : State) (wi si : Nat) (w : Wave) (sp : Split) (d a b : Reg) (key : Nat → Nat),
    Good s → Issues s wi si w sp → Straight sp →
    let n := w.sew / 8
    let l := w.todo sp
    let gives (i : Instr) (p : VPlan) (sum : Nat → Word) : Prop :=
      VecReady s wi w { p with reads := groupRead w d 2 w.grp w.sew (w.actives sp) :: p.reads } →
      Here s wi w w.space.toNat n .write sum l key → (∀ j ∈ l, ∀ k ∈ l, j ≠ k → Apart (key j) (key k) n) →
      PathsClear s wi w (elemSpans key n l) true → (∀ j ∈ l, NoBarrier s (key j) n) →
      ∃ t w', exec i s = .next t
        ∧ (∀ j ∈ l, (bytesAt t.mem (key j) n).toNat = inFmt w.etype (elem s w d j))
        ∧ (∀ x, (∀ j ∈ l, x < key j ∨ key j + n ≤ x) → memRead t.mem x = memRead s.mem x)
        ∧ SameWaves s t wi ∧ t.waves[wi]? = some w' ∧ w'.esr = 0 ∧ w'.esv = 0 ∧ w'.s = w.s ∧ w'.k = w.k ∧ w'.vl = w.vl
        ∧ w'.wstat = w.wstat ∧ w'.pend = w.pend ∧ t.vfiles.map (·.v) = s.vfiles.map (·.v)
    let index (j : Nat) : Word := w.rd a + ((BitVec.ofNat 32 (w.getElem (s.vfile w.vfile) b.toNat 32 j)).signExtend 64)
    gives (.vst d a) { ss := [(a, 0)] } (fun j => w.rd a + word (j * w.sew / 8))
    ∧ gives (.vsts d a b) { ss := [(a, 0), (b, 1)] } (fun j => w.rd a + word j * w.rd b)
    ∧ gives (.vstx d a b) { reads := [groupRead w b 1 (w.groupOf 10) 32 (w.actives sp)], ss := [(a, 0)], big := w.tooBig 10 } index

/-- R160, Table 6.4: a VAMO whose outstanding elements lead to unpoisoned places that do not meet updates each with its element of d and puts the old
values in flight to d; no other byte of memory changes. -/
def Obligations.VectorAtomicResults : Prop :=
  ∀ (s : State) (wi si : Nat) (w : Wave) (sp : Split) (d a b c : Reg) (x : BitVec 1) (key : Nat → Nat),
    Good s → Issues s wi si w sp → Straight sp → w.streams = [] →
    let n := w.sew / 8
    let l := w.todo sp
    VecReady s wi w { reads := [groupRead w d 2 w.grp w.sew (w.actives sp), groupRead w b 1 (w.groupOf 10) 32 (w.actives sp)],
                      writes := [(d.toNat, w.grp)], ss := [(a, 0)], big := w.tooBig 10, typeOk := w.sew == (if x = 1 then 32 else 64) } →
    Here s wi w w.space.toNat n .write
      (fun j => w.rd a + ((BitVec.ofNat 32 (w.getElem (s.vfile w.vfile) b.toNat 32 j)).signExtend 64)) l key →
    (∀ j ∈ l, s.poisoned (key j) n = false ∧ s.noClaim (key j) = false) → (∀ j ∈ l, ∀ k ∈ l, j ≠ k → Apart (key j) (key k) n) →
    PathsClear s wi w (elemSpans key n l) true → (∀ j ∈ l, NoBarrier s (key j) n) →
    let gives (i : Instr) (f : (m : Nat) → BitVec m → BitVec m → BitVec m) : Prop :=
      ∃ t, exec i s = .next t ∧ InFlight s t wi w sp d w.vl n key l ∧ SameWaves s t wi
        ∧ (∀ j ∈ l, bytesAt t.mem (key j) n = f (8 * n) (bytesAt s.mem (key j) n) (BitVec.ofNat (8 * n) (elem s w d j)))
        ∧ (∀ y, (∀ j ∈ l, y < key j ∨ key j + n ≤ y) → memRead t.mem y = memRead s.mem y)
    gives (.vamoAdd d a b x c) (fun _ u v => u + v)
    ∧ gives (.vamoAnd d a b x c) (fun _ u v => u &&& v)
    ∧ gives (.vamoOr d a b x c) (fun _ u v => u ||| v)
    ∧ gives (.vamoXor d a b x c) (fun _ u v => u ^^^ v)
    ∧ gives (.vamoMin d a b x c) (fun _ u v => if v.slt u then v else u)
    ∧ gives (.vamoMax d a b x c) (fun _ u v => if u.slt v then v else u)
    ∧ gives (.vamoMinn d a b x c) (fun _ u v => if v < u then v else u)
    ∧ gives (.vamoMaxn d a b x c) (fun _ u v => if u < v then v else u)
    ∧ gives (.vamoSwap d a b x c) (fun _ _ v => v)
    ∧ gives (.vamoFadd d a b x c) (fun m u v => BitVec.ofNat m (addRne (if m = 32 then 1 else 0) u.toNat v.toNat))

/-! ### Streams (spec/06) -/

/-- R165 to R173, Table 6.6: SBIND, a fence of every path first, which waits or raises the wave's fabric failure, adds the memory stream its descriptor states, a read
stream's group becoming empty; SUNB of an idle stream removes it
and its group is full; SQRY reads the status word, 0 where no stream is bound there, and traps for another register of a bound group; what a well-formed descriptor states,
the CHUNK of a legacy half bounded by the 1,024 bits it has in a register (the model's choice: log entry 154). -/
def Obligations.StreamInstructions : Prop :=
  (∀ (s : State) (wi si : Nat) (w : Wave) (sp : Split) (d a : Reg), Issues s wi si w sp → Straight sp → w.unclaimed = false →
      (∀ key dc st, d.toNat % w.grp = 0 → w.streams.length < 4 → (∀ t ∈ w.streams, overlap d.toNat w.grp t.reg t.g = false) →
        Reads w [a] → (∀ n ∈ regRange d.toNat w.grp, w.vIsFull n = true) →
        (s.copiesOut wi = true ∨ s.fabricOut wi = true ∨ w.streamsOut = true → exec (.sbind d a) s = .next (s.stall wi si))
        ∧ (s.copiesOut wi = false → s.fabricOut wi = false → w.streamsOut = false → CutClosed w → ∀ q x, w.fabFail = [(q, x)] → exec (.sbind d a) s =
            .next ((s.updWave wi (fun w => { w with fabFail := [] })).takeTrap wi si sp.pc ⟨17, 0, x⟩ false false).bump)
        ∧ (s.copiesOut wi = false → s.fabricOut wi = false → w.streamsOut = false → w.fabFail = [] →
          s.resolve wi w (w.rd a) 64 64 .read = .ok (.here key dc) → (∀ g, g < 8 → s.poisoned (key + 8 * g) 8 = false ∧ s.noClaim (key + 8 * g) = false) →
          parseStream ((List.range 64).map (fun i => memRead s.mem (key + i))) d.toNat w.grp w.regBits w.space.toNat s.now = some st →
          st.isPort = false →
          Gives (.sbind d a) s wi si sp ((s.touched w (w.rd a)).updWave wi (fun w => { w with
            look := none
            streams := w.streams ++ [st]
            vFull := if st.isRead then fullRegs w.vFull d.toNat w.grp false else w.vFull }))))
      ∧ (d.toNat % w.grp = 0 → (∀ t ∈ w.streams, t.reg ≤ d.toNat → d.toNat < t.reg + t.g → t.reg = d.toNat) →
        ((∀ t ∈ w.streams, t.reg ≠ d.toNat) → Gives (.sunb d) s wi si sp s)
        ∧ (∀ t, w.streams.find? (fun t => t.reg == d.toNat) = some t → t.err = none → t.due = false → t.ask = none → t.isPort = false →
          Gives (.sunb d) s wi si sp (s.updWave wi (fun w => { w with
            streams := w.streams.filter (fun x => x.reg != d.toNat)
            vFull := fullRegs w.vFull d.toNat t.g true }))))
      ∧ ((∃ t ∈ w.streams, t.reg < a.toNat ∧ a.toNat < t.reg + t.g) → CutClosed w → ∀ z, encodeWord (.sqry d a) = some z →
          exec (.sqry d a) s = .next (s.takeTrap wi si sp.pc ⟨3, 6, z.setWidth 64⟩ false false).bump)
      ∧ (Writes w [d] → (∀ t ∈ w.streams, t.reg ≤ a.toNat → a.toNat < t.reg + t.g → t.reg = a.toNat) →
        ((∀ t ∈ w.streams, t.reg ≠ a.toNat) → Gives (.sqry d a) s wi si sp (s.setReg wi d 0))
        ∧ (∀ t, w.streams.find? (fun t => t.reg == a.toNat) = some t →
          Gives (.sqry d a) s wi si sp (s.setReg wi d (word (2 ^ 63 + (if t.total ≤ t.filled then 2 ^ 62 else 0)
            + (match t.err with | some (_, _, _, false) => 2 ^ 61 | _ => 0) + t.kind * 2 ^ 48 + (t.total - t.done) % 2 ^ 48))))))
  ∧ (∀ (bs : List Byte) (reg g bits' space now : Nat) (t : Stream), parseStream bs reg g bits' space now = some t →
      let f (off n : Nat) : Nat := leValue ((bs.drop off).take n)
      1 ≤ t.kind ∧ t.kind ≤ 4 ∧ t.kind = f 0 1 ∧ t.fmt = f 1 1 ∧ t.fmt < 16 ∧ t.chunk = f 4 4 ∧ 1 ≤ t.chunk ∧ t.chunk * sewOf t.fmt ≤ g * bits'
      ∧ t.base = word (f 8 8) ∧ t.stride = word (f 16 8) ∧ t.count = f 24 8 ∧ 1 ≤ t.count ∧ t.count < 2 ^ 32
      ∧ t.rows = f 32 8 ∧ 1 ≤ t.rows ∧ t.rows ≤ 65535 ∧ t.rowStride = word (f 40 8) ∧ t.reg = reg ∧ t.g = g ∧ t.space = space
      ∧ t.done = 0 ∧ t.full = false ∧ t.due = false
      ∧ ∀ e, t.sum e = t.base + word (e / t.count) * t.rowStride + word (e % t.count) * t.stride)

/-- R168, R169: a fill that is due reads the next CHUNK elements of a memory stream, or what is left, into the group, whose other bits are zero, and
makes it full, once the older takes of the wave to the same bytes and the older fills of its other streams are made (R146); a take that is due, once the wave's older accesses of the stream path are performed and the group's
results are written (R146), writes the first CHUNK elements of the group, or what is left, to the stream's next places. -/
def Obligations.StreamEngine : Prop :=
  ∀ (s : State) (wi : Nat) (w : Wave) (v : Reg) (t : Stream) (key : Nat → Nat), Good s → s.waves[wi]? = some w → w.stream? v = some t →
    w.stopped = none → w.halted = false → w.suspended = false → t.isPort = false → t.err = none → t.ask = none → t.part = [] → t.reg + t.g ≤ 32 →
    t.chunk * sewOf t.fmt ≤ t.g * w.regBits →
    let n := sewOf t.fmt / 8
    let want := min t.chunk (t.total - t.done)
    let l := List.range want
    let sum (k : Nat) : Word := t.sum (t.done + k)
    let plain (kind : AccKind) : Prop := ∀ k ∈ l, ∃ a, spaceAddr t.space (sum k) = some a ∧ s.resolve wi w a n n kind = .ok (.here (key k) false)
    (t.isRead = true → w.ended = false → s.olderTake wi w t = false → w.olderFill t = false → t.full = false → t.drained = false → t.done < t.total → plain .read →
      (∀ k ∈ l, s.noClaim (key k) = false) →
      ∃ u w' t', exec (.streamFill wi v) s = .next u ∧ u.waves[wi]? = some w' ∧ w'.stream? v = some t' ∧ t'.full = true
        ∧ t'.filled = t.done + want ∧ t'.done = t.done ∧ SameMemory s u ∧ SameWaves s u wi
        ∧ (∀ k ∈ l, w.getElem (u.vfile w.vfile) t.reg (sewOf t.fmt) k = inFmt t.fmt (readHere s (key k) n))
        ∧ (∀ r p, t.reg ≤ r → r < t.reg + t.g → p < 2048 → (w.legacy = true → p / 1024 = w.half) →
          (∀ k ∈ l, ¬ (r = t.reg + (w.elemAt (sewOf t.fmt) k).1 ∧ (w.elemAt (sewOf t.fmt) k).2 ≤ p ∧ p < (w.elemAt (sewOf t.fmt) k).2 + sewOf t.fmt)) →
          ((u.vfile w.vfile).reg r).getLsbD p = false)
        ∧ ∀ r, t.reg ≤ r → r < t.reg + t.g → w'.vIsFull r = true)
    ∧ (t.isRead = false → t.due = true → w.olderStream t = false → w.groupPending t = false → (∀ k ∈ l, NoBarrier s (key k) n) → t.filled ≤ t.done → (∀ r ∈ regRange t.reg t.g, w.vIsPois r = false) → plain .write →
      (∀ j ∈ l, ∀ k ∈ l, j ≠ k → Apart (key j) (key k) n) →
      ∃ u w' t', exec (.streamTake wi v) s = .next u ∧ u.waves[wi]? = some w' ∧ w'.stream? v = some t' ∧ t'.due = false
        ∧ t'.done = t.done + want ∧ SameWaves s u wi
        ∧ (∀ k ∈ l, (bytesAt u.mem (key k) n).toNat = inFmt t.fmt (w.getElem (s.vfile w.vfile) t.reg (sewOf t.fmt) k))
        ∧ (∀ x, (∀ k ∈ l, x < key k ∨ key k + n ≤ x) → memRead u.mem x = memRead s.mem x)
        ∧ ∀ r, t.reg ≤ r → r < t.reg + t.g → w'.vIsFull r = true)

/-! ### The matrix unit (spec/03, spec/10, spec/11) -/

/-- R212, R232, R233: a grant never exceeds the request, the class or the caps, and an exact request is granted as asked or not at all; TILEQ delivers the grant a
request would get in the request layout, or its status above bit 57; SETTILE also makes it the block's grant, once the multiplies that the block issued before it and its fills are done: it waits with what was granted as it issued (log entry 135). -/
def Obligations.GrantInstructions : Prop :=
  (∀ (c : CoreSt) (e : Bool) (a st : Nat) (g : Grant), c.request e a = (st, g) →
      (st ≠ 0 → g = .none)
      ∧ (st = 0 → g.rows ≤ bits a 15 0 ∧ g.rows ≤ (if e then 16 else 64) ∧ g.rows ≤ min c.part c.power
          ∧ g.cols ≤ bits a 31 16 ∧ g.cols ≤ (if e then 16 else 64) ∧ g.cols ≤ min c.part c.power ∧ g.cols ≤ c.hcol
          ∧ 0 < g.depth ∧ g.depth ≤ bits a 47 32 ∧ g.depth % (if g.sparse = 0 then groupSize g.fmt else 48) = 0
          ∧ g.fmt = bits a 52 48 ∧ 2 ≤ g.fmt ∧ g.fmt ≤ 8 ∧ g.sparse = bits a 55 53 ∧ g.sparse ≤ 4
          ∧ (bit a 56 = true → g.rows = bits a 15 0 ∧ g.cols = bits a 31 16 ∧ g.depth = bits a 47 32)))
  ∧ (∀ (s : State) (wi si : Nat) (w : Wave) (sp : Split) (d a : Reg) (st : Nat) (g : Grant),
      Issues s wi si w sp → Straight sp → w.legacy = false → w.tile = none → Reads w [a] → Writes w [d] →
      (s.core (s.coreOf w)).trcCtl.getLsbD 9 = false → (s.core (s.coreOf w)).request (isE (s.coreOf w)) (w.rd a).toNat = (st, g) →
      let clear (s : State) : State := s.updWave wi (fun w => { w with tile := none })
      Gives (.tileq d a) s wi si sp (s.setReg wi d (word (if st = 0 then
        g.rows + g.cols * 2 ^ 16 + g.depth * 2 ^ 32 + g.fmt * 2 ^ 48 + g.sparse * 2 ^ 53 else st * 2 ^ 57)))
      ∧ (st ≠ 0 → Gives (.settile d a) s wi si sp ((clear s).setReg wi d (word st)))
      ∧ (st = 0 → g = (s.block w.block).grant → Gives (.settile d a) s wi si sp ((clear s).setReg wi d 0))
      ∧ (st = 0 → g ≠ (s.block w.block).grant → s.tileQuiet w.block s.now = true →
          Gives (.settile d a) s wi si sp ((clear ((s.updBlock w.block (fun b => { b with grant := g })).updCore (s.block w.block).core (fun c =>
            { c with slots := c.slots.map (fun x => if x.st = 2 ∧ x.owner = w.block ∧ x.grant ≠ g then { x with st := 3 } else x) }))).setReg wi d 0))
      ∧ (st = 0 → g ≠ (s.block w.block).grant → s.tileQuiet w.block s.now = false → exec (.settile d a) s =
          .next ((s.updWave wi (fun w => { w with tile := some ⟨sp.pc, sp.mask, d, w.rd a, g, (s.core (s.coreOf w)).capsWord, s.now⟩ })).stall wi si)))
  ∧ (∀ (s : State) (wi si : Nat) (w : Wave) (sp : Split) (d a : Reg) (t : TileWait),
      Issues s wi si w sp → Straight sp → w.legacy = false → w.tile = some t → t.pc = sp.pc → t.lanes = sp.mask → sp.mask ≠ 0 →
      (s.core (s.coreOf w)).trcCtl.getLsbD 9 = false →
      (s.tileQuiet w.block t.since = true → Gives (.settile d a) s wi si sp (((((s.updBlock w.block (fun b => { b with grant := t.grant })).updCore
          (s.block w.block).core (fun c => { c with slots := c.slots.map (fun x => if x.st = 2 ∧ x.owner = w.block ∧ x.grant ≠ t.grant then { x with st := 3 } else x) }))).updWave
          wi (fun w => { w with tile := none })).setReg wi t.d 0))
      ∧ (s.tileQuiet w.block t.since = false → exec (.settile d a) s = .next (s.stall wi si)))

/-- R234 to R239: OCLAIM takes the lowest free slot, zeroed, or answers all ones with no-wait; ORLS frees a slot of the block once it is idle; OFILL writes the group's bytes at
an offset of the image, of which a stale slot holds nothing known (R216); OQRY reads the state of a slot of the block, 0 for any other. -/
def Obligations.SlotInstructions : Prop :=
  ∀ (s : State) (wi si : Nat) (w : Wave) (sp : Split) (d a : Reg) (nw role : BitVec 1) (n : Nat),
    Good s → Issues s wi si w sp → Straight sp → w.legacy = false →
    let ci := s.coreOf w
    let c := s.core ci
    (Writes w [d] → c.claimers = [] → n < c.slots.length → (∀ m, m < n → ∀ x, c.slots[m]? = some x → x.st ≠ 0) →
      (∀ x, c.slots[n]? = some x → x.st = 0) → ci < s.cores.length → ∃ s' : State, Gives (.oclaim d nw role) s wi si sp (s'.setReg wi d (word n))
        ∧ ((s'.core ci).slots[n]? = some ⟨1, w.block, role.toNat, .none, 0⟩)
        ∧ (∀ o, o < 11264 → memRead s'.mem (slotKey ci n + o) = 0)
        ∧ (∀ x, x < slotKey ci n ∨ slotKey ci n + 11264 ≤ x → memRead s'.mem x = memRead s.mem x) ∧ s'.waves = s.waves)
    ∧ (Writes w [d] → nw = 1 → (∀ x ∈ c.slots, x.st ≠ 0) → Gives (.oclaim d nw role) s wi si sp (s.setReg wi d (BitVec.allOnes 64)))
    ∧ (Reads w [a] → ∀ x, c.slots[(w.rd a).toNat]? = some x → x.st ≠ 0 → x.owner = w.block → x.filling = 0 →
        c.slotInUse (w.rd a).toNat = false → Gives (.orls a) s wi si sp (s.updCore ci (fun c => { c with
          slots := updAt c.slots (w.rd a).toNat (fun _ => ⟨0, 0, 0, .none, 0⟩) })))
    ∧ (Reads w [a] → ∀ x, c.slots[(w.rd a).toNat]? = some x → x.st ≠ 0 → x.owner = w.block → (x.filling ≠ 0 ∨ c.slotInUse (w.rd a).toNat = true) →
        exec (.orls a) s = .next (s.stall wi si))
    ∧ (VecReady s wi w { reads := [⟨d.toNat, w.grp, 2, regRange d.toNat w.grp⟩], ss := [(a, 0)] } → w.streams = [] →
        let v := (w.rd a).toNat
        let o := bits v 29 16
        let g := (s.block w.block).grant
        ∀ x stop, bits v 15 4 = 0 → bits v 63 30 = 0 → o % 4 = 0 → c.slots[bits v 3 0]? = some x → x.st ≠ 0 → x.owner = w.block →
          g.rows ≠ 0 → areaEnd g x.role o = some stop → c.slotInUse (bits v 3 0) = false →
          Gives (.ofill d a) s wi si sp (((if x.st = 3 then s.freeSlot ci (bits v 3 0) 11264 else s).writeBytes (slotKey ci (bits v 3 0) + o)
            (((regRange d.toNat w.grp).flatMap (fun r => leBytes 256 ((s.vfile w.vfile).reg r).toNat)).take (stop - o))).updCore ci
              (fun c => { c with slots := updAt c.slots (bits v 3 0) (fun x => { x with st := 2, grant := g }) })))
    ∧ (Reads w [a] → Writes w [d] →
        ((∀ x, c.slots[(w.rd a).toNat]? = some x → x.st = 0 ∨ x.owner ≠ w.block) → Gives (.oqry d a) s wi si sp (s.setReg wi d 0))
        ∧ (∀ x, c.slots[(w.rd a).toNat]? = some x → x.st ≠ 0 → x.owner = w.block →
          Gives (.oqry d a) s wi si sp (s.setReg wi d (word (2 ^ 63
            + (if c.slotInUse (w.rd a).toNat = true ∨ x.filling ≠ 0 then 2 ^ 59 else 0) + x.st * 2 ^ 57 + x.role * 2 ^ 56
            + (if x.st = 1 then 0 else x.grant.packed))))))

/-- R220, R221, R240: MMA, MMAS and MMAZ that can multiply join their tile queue with the operands, the grant, RND and SAT as they are, and their set is live; with
four in the queue they wait; an idle core starts the ready head of its high queue; the running multiply updates exactly the granted elements of its set from its rows and columns,
each byte of an operand that was being filled as it issued being the old or the new one (R241; log entry 70): what the slot holds, what it held as such a fill ended, or what one still in
flight would deliver.

R92 to R94: in format s8 without saturation an element becomes its old value plus the sum of the products, modulo 2^32, whatever the number of
groups. -/
def Obligations.MultiplicationResults : Prop :=
  ((∀ (s : State) (wi si : Nat) (w : Wave) (sp : Split) (d : BitVec 2) (a b : Reg) (hi : BitVec 1) (set : Nat),
       Issues s wi si w sp → Straight sp → w.legacy = false → w.unclaimed = false → Reads w [a, b] →
       let blk := s.block w.block
       let c := s.core blk.core
       let rule (i : Instr) (fn : Nat) : Prop := CanMultiply s w fn d set (w.rd a).toNat (w.rd b).toNat →
         ((if hi = 1 then c.qhi else c.qlo).length < 4 → ∃ ord, Gives i s wi si sp
           (((s.updCore blk.core (fun c =>
               let op : MmaOp := ⟨fn, w.block, d.toNat, set, (w.rd a).toNat, (w.rd b).toNat, blk.grant, w.rnd, w.sat, ord,
                 c.fillsNow (w.rd a).toNat, c.fillsNow (w.rd b).toNat, s.now, [], []⟩
               if hi = 1 then { c with qhi := c.qhi ++ [op] } else { c with qlo := c.qlo ++ [op] }))).updBlock w.block (fun b => { b with
                 live := b.live ||| BitVec.ofNat 4 (2 ^ d.toNat)
                 dmg := if fn = 2 then b.dmg &&& ~~~(BitVec.ofNat 4 (2 ^ d.toNat)) else b.dmg })))
         ∧ (4 ≤ (if hi = 1 then c.qhi else c.qlo).length → exec i s = .next (s.stall wi si))
       rule (.mma d a b hi) 0 ∧ rule (.mmas d a b hi) 1 ∧ rule (.mmaz d a b hi) 2)
   ∧ (∀ (s : State) (core : Nat) (o : MmaOp) (l : List MmaOp), Good s → core < s.cores.length →
       ((s.core core).run = none → (s.core core).qhi = o :: l → (s.core core).headReady o = true →
         exec (.mmaDispatch core) s = .next (s.updCore core (fun c => { c with run := some o, qhi := l })).bump)
       ∧ ((s.core core).run = some o → o.set < 4 → o.grant.rows ≤ 64 → o.grant.cols ≤ 64 → ∃ t, exec (.mmaComplete core) s = .next t
         ∧ (t.core core).run = none ∧ SameMemory s t ∧ t.waves = s.waves
         ∧ (∀ i j, i < o.grant.rows → j < o.grant.cols → t.acc core o.set i j =
             accRun o.grant.fmt (groupSize o.grant.fmt) o.sat o.grant.depth (((s.operands core o).rowA o core i).zip ((s.operands core o).colB o core j))
               (if o.fn = 2 then 0 else s.acc core o.set i j) % 2 ^ 32)
         ∧ (o.mixA = false → o.mixB = false → s.operands core o = s)
         ∧ (∀ (n count : Nat) (olds : List (List Byte)),
             let u := s.mixSlot core n count olds
             (∀ i, i < count → memRead u.mem (slotKey core n + i) = memRead s.mem (slotKey core n + i)
               ∨ ∃ l ∈ olds ++ s.fillsOf core n, l[i]? = some (memRead u.mem (slotKey core n + i)))
             ∧ (∀ x, x < slotKey core n ∨ slotKey core n + count ≤ x → memRead u.mem x = memRead s.mem x)
             ∧ (o.mixA = true → o.mixB = false → n = o.slotA → count = o.grant.valueBytes 0 → olds = o.oldA → s.operands core o = u)
             ∧ (o.mixA = false → o.mixB = true → n = o.slotB → count = o.grant.valueBytes 1 → olds = o.oldB → s.operands core o = u))
         ∧ (∀ set i j, set < 4 → i < 64 → j < 64 → set ≠ o.set → t.acc core set i j = s.acc core set i j)
         ∧ (∀ i j, i < 64 → j < 64 → o.grant.rows ≤ i ∨ o.grant.cols ≤ j →
             t.acc core o.set i j = if o.fn = 2 then 0 else s.acc core o.set i j))))
  ∧ (∀ (l : List (Nat × Nat)) (n acc : Nat), l.length ≤ 8 * n → acc < 2 ^ 32 →
     ((accRun 8 8 false n (l.map (fun x => (matVal 8 x.1, matVal 8 x.2))) acc : Nat) : Int) =
       ((acc : Int) + (l.map (fun x => sextN 8 x.1 * sextN 8 x.2)).sum) % 4294967296)

/-- R243 to R247: AZERO clears a quiet set; AXT and AXTS put its row s[b] in flight to the group, converted or quantized; AINS writes the active elements of a group into the row;
ASAVE and ALOAD move the granted rows and columns to and from their places in a scratchpad. -/
def Obligations.AccumulatorInstructions : Prop :=
  ∀ (s : State) (wi si : Nat) (w : Wave) (sp : Split) (d b : Reg) (a fm bsel : BitVec 2) (sat : BitVec 1) (set : Nat),
    Good s → Issues s wi si w sp → Straight sp → w.legacy = false →
    let blk := s.block w.block
    let core := s.coreOf w
    let g := blk.grant
    let r := (w.rd b).toNat
    let src := if g.fmt = 8 then 10 else 1
    let el (j : Nat) : Nat := if r < g.rows ∧ j < g.cols then s.acc core set r j else 0
    let nf := 4 + fm.toNat
    let axts : VPlan := { reads := [⟨d.toNat, 1, 2, [d.toNat]⟩], writes := [(d.toNat, w.groupOf nf)], ss := [(b, 1)], big := w.tooBig nf }
    blk.sets[a.toNat]? = some set → set < 4 → (s.core core).setBusy set = false →
    let spans (key : Nat → Nat → Nat) : List Span := (List.range g.rows).flatMap (fun i => (List.range g.cols).map (fun j => (0, key i j, 4)))
    (∃ t, exec (.azero a) s = .next t ∧ (∀ i j, i < 64 → j < 64 → t.acc core set i j = 0)
      ∧ (∀ k i j, k < 4 → i < 64 → j < 64 → k ≠ set → t.acc core k i j = s.acc core k i j) ∧ SameMemory s t ∧ SameWaves s t wi
      ∧ (w.block < s.blocks.length → (t.block w.block).live.getLsbD a.toNat = false ∧ (t.block w.block).dmg.getLsbD a.toNat = false))
    ∧ (VecReady s wi w { writes := [(d.toNat, w.grp)], ss := [(b, 1)] } → blk.dmg.getLsbD a.toNat = false → w.streams = [] → w.atrap = false →
      ∃ t w' f regs whole bad, exec (.axt d a b) s = .next t ∧ t.waves[wi]? = some w' ∧ w'.pend = w.pend ++ [.vector d regs whole bad]
        ∧ regs = (List.range (w.groupOf w.etype)).map (fun k => f.reg (d.toNat + k))
        ∧ FileElements w (s.vfile w.vfile) f d.toNat w.sew ((w.actives sp).map (fun j =>
          (j, inFmt w.etype (convert src w.etype w.rnd w.sat w.ftz (el j)).val))) ∧ SameMemory s t ∧ SameWaves s t wi ∧ t.accs = s.accs)
    ∧ (VecReady s wi w axts → blk.dmg.getLsbD a.toNat = false → w.streams = [] → w.atrap = false →
      ∃ t w' f regs whole bad, exec (.axts d a b fm sat bsel) s = .next t ∧ t.waves[wi]? = some w'
        ∧ w'.pend = w.pend ++ [.vector d regs whole bad]
        ∧ regs = (List.range (w.groupOf (4 + fm.toNat))).map (fun k => f.reg (d.toNat + k))
        ∧ FileElements w (s.vfile w.vfile) f d.toNat (sewOf (4 + fm.toNat)) ((w.actives sp).map (fun j =>
          (j, inFmt (4 + fm.toNat) (quantize (4 + fm.toNat) w.rnd (sat == 1) w.ftz src (el j)
            (w.scaleByte (s.vfile w.vfile) d bsel.toNat j)).val))) ∧ SameMemory s t ∧ SameWaves s t wi ∧ t.accs = s.accs)
    ∧ (VecReady s wi w { reads := [groupRead w d 2 w.grp w.sew (w.actives sp)], ss := [(b, 1)] } → w.streams = [] → w.atrap = false → r < g.rows →
      g.rows ≤ 64 → g.cols ≤ 64 → ∃ t, exec (.ains d a b) s = .next t ∧ SameMemory s t ∧ SameWaves s t wi
        ∧ (∀ j, j < g.cols → w.active sp j = true → t.acc core set r j =
            (convert w.etype src w.rnd w.sat w.ftz (elem s w d j)).val % 2 ^ 32)
        ∧ (∀ i j, i < 64 → j < 64 → (i ≠ r ∨ w.active sp j = false ∨ g.cols ≤ j) → t.acc core set i j = s.acc core set i j))
    ∧ (Reads w [b, d] → g.rows ≤ 64 → g.cols ≤ 64 → 4 * g.cols ≤ (w.rd d).toNat → (w.rd b).toNat % 4 = 0 → (w.rd d).toNat % 4 = 0 →
      ∀ key : Nat → Nat → Nat, (∀ i j, i < g.rows → j < g.cols →
          s.localKey wi w (w.rd b + word i * w.rd d + word (4 * j)) 4 4 = .ok (key i j)) →
        (∀ i j i' j', i < g.rows → j < g.cols → i' < g.rows → j' < g.cols → (i, j) ≠ (i', j') → Apart (key i j) (key i' j') 4) →
        (blk.dmg.getLsbD a.toNat = false → PathsClear s wi w (spans key) true → (∀ i j, i < g.rows → j < g.cols → NoBarrier s (key i j) 4) → ∃ t, exec (.asave d a b) s = .next t ∧ SameWaves s t wi ∧ t.accs = s.accs
          ∧ (∀ i j, i < g.rows → j < g.cols → (bytesAt t.mem (key i j) 4).toNat = s.acc core set i j)
          ∧ (∀ x, (∀ i j, i < g.rows → j < g.cols → x < key i j ∨ key i j + 4 ≤ x) → memRead t.mem x = memRead s.mem x))
        ∧ ((∀ i j, i < g.rows → j < g.cols → s.poisoned (key i j) 4 = false) → PathsClear s wi w (spans key) false → ∃ t, exec (.aload d a b) s = .next t
          ∧ SameMemory s t ∧ SameWaves s t wi
          ∧ (∀ i j, i < g.rows → j < g.cols → t.acc core set i j = (bytesAt s.mem (key i j) 4).toNat)
          ∧ (∀ i j, i < 64 → j < 64 → g.rows ≤ i ∨ g.cols ≤ j → t.acc core set i j = s.acc core set i j)))

/-! ### Barriers and signal words (spec/12) -/

/-- R265 to R272: what the BAR instructions do to the sixteen bytes of the barrier at s[a]: INIT makes it; ARV and EXP count an arrival, EXP adding bytes to the
pending count; the arrival that brings ARRIVED to EXPECT with nothing pending completes the phase; WAIT completes in the other phase, and traps where that phase ended in error or
poison; TRY reads it; TRIG registers a trigger. A WAIT, WAITA or WAITGE that cannot go on leaves its split
not ready, which for WAIT and WAITGE is the model's choice (log entry 137). WAITA
goes on once the word at s[a] differs from s[b], WAITGE once it is at least s[b], unsigned; NOTIFY wakes the gang. -/
def Obligations.BarrierInstructions : Prop :=
  (∀ (s : State) (wi si : Nat) (w : Wave) (sp : Split) (d a b : Reg) (key : Nat) (x : Bar),
      Good s → Issues s wi si w sp → Straight sp → Reads w [a] → s.localKey wi w (w.rd a) 16 16 = .ok key → s.poisoned key 16 = false → x = s.bar key →
      let v := (w.rd b).toNat
      let made := 1 ≤ x.expect ∧ x.st < 8
      let side := s.barSide key
      let arrives (i : Instr) (pend : Nat) : Prop := made → ¬ (x.arrived = x.expect ∧ x.pend ≠ 0) → x.arrived < x.expect → ∃ t, exec i s = .next t
        ∧ SameOutside s t key 16
        ∧ (¬ (x.arrived + 1 = x.expect ∧ pend = 0) → t.bar key = { x with pend := pend, arrived := x.arrived + 1 })
        ∧ (x.arrived + 1 = x.expect → pend = 0 → t.bar key = { x with
            pend := 0, arrived := 0
            st := 1 - x.st % 2 + (if side.err then 2 else 0) + (if side.pois then 4 else 0) })
      (Reads w [b] → 1 ≤ v → v < 2 ^ 31 → ∃ t, exec (.barInit a b) s = .next t ∧ t.bar key = ⟨0, 0, v, 0⟩ ∧ SameOutside s t key 16 ∧ SameWaves s t wi)
      ∧ arrives (.barArv a) x.pend ∧ (Reads w [b] → arrives (.barExp a b) ((x.pend + v % 2 ^ 32) % 2 ^ 32))
      ∧ (Reads w [b] → made → x.st % 2 = v % 2 → exec (.barWait a b) s = .next (s.hold wi si))
      ∧ (Reads w [b] → made → x.st % 2 ≠ v % 2 → x.st < 2 → Gives (.barWait a b) s wi si sp s)
      ∧ (Reads w [b] → made → x.st % 2 ≠ v % 2 → 2 ≤ x.st → CutClosed w →
          exec (.barWait a b) s = .next (s.takeTrap wi si sp.pc ⟨9, 2, w.rd a⟩ false false).bump)
      ∧ (Writes w [d] → made → Gives (.barTry d a) s wi si sp (s.updWave wi (fun w => w.later d (word (x.st + x.pend * 2 ^ 32)) false)))
      ∧ (Reads w [b, d] → made → ((s.obj (s.block w.block).obj).kernelAt (w.rd b)).isSome = true →
          (s.core (keyCore key)).triggers.length < 16 → Gives (.barTrig d a b) s wi si sp ((s.sideEffect w).updCore (keyCore key) (fun c => { c with
            triggers := c.triggers ++ [⟨keyCore key, keyOffset key, w.block, w.rd b, (w.rd d).setWidth 32, false⟩] })))
      ∧ (¬ made → CutClosed w → exec (.barArv a) s = .next (s.takeTrap wi si sp.pc (copyTrap 2 (w.rd a)) false false).bump))
  ∧ (∀ (s : State) (wi si : Nat) (w : Wave) (sp : Split) (a b : Reg) (key : Nat),
      Issues s wi si w sp → Straight sp → Reads w [a, b] → s.localKey wi w (w.rd a) 8 8 = .ok key → s.poisoned key 8 = false →
      let v : Word := bytesAt s.mem key 8
      (v ≠ w.rd b → Gives (.waita a b) s wi si sp s) ∧ (v = w.rd b → exec (.waita a b) s = .next (s.hold wi si))
      ∧ (w.rd b ≤ v → Gives (.waitge a b) s wi si sp s) ∧ (v < w.rd b → exec (.waitge a b) s = .next (s.hold wi si))
      ∧ Gives (.notify a) s wi si sp (s.latchGang (s.block w.block).gang))

/-! ### The plumb engine (spec/18) -/

/-- R366 to R370, Table 18.12: the register operations of the plumb engine, BRF and LOOPN, and where a loop sends a run; RDTL and WAITTL by the timelines of the run's context;
WRTL signals its own queue; RDM, WRM and EMIT act on the window, with the faults 2 and 3; the 513th step is fault 1; END starts what was emitted. -/
def Obligations.PlumbOperationResults : Prop :=
  (∀ (s : State) (n : Nat) (r : PlumbRun) (d a b : BitVec 3) (imm off : BitVec 8) (l : BitVec 16), Acts s n r → r.steps < 512 →
      let set (i : Instr) (v : Word) : Prop := PlumbGives i s s n r { r with p := r.p.set d.toNat v d.isLt } (r.pc + 1)
      let x (m : BitVec 3) : Word := r.p[m.toNat]'(m.isLt)
      set (.plumbLdi d imm) (imm.signExtend 64) ∧ set (.plumbMov d a) (x a)
      ∧ set (.plumbAdd d a b) (x a + x b) ∧ set (.plumbSub d a b) (x a - x b) ∧ set (.plumbAnd d a b) (x a &&& x b)
      ∧ set (.plumbOr d a b) (x a ||| x b) ∧ set (.plumbXor d a b) (x a ^^^ x b)
      ∧ set (.plumbShl d a b) (x a <<< ((x b).toNat % 64)) ∧ set (.plumbShr d a b) (x a >>> ((x b).toNat % 64))
      ∧ set (.plumbCmpEq d a b) (if x a = x b then 1 else 0) ∧ set (.plumbCmpNe d a b) (if x a ≠ x b then 1 else 0)
      ∧ set (.plumbCmpLtn d a b) (if x a < x b then 1 else 0) ∧ set (.plumbCmpLt d a b) (if (x a).slt (x b) then 1 else 0)
      ∧ set (.plumbSel d a b) (if x d ≠ 0 then x a else x b)
      ∧ PlumbGives (.plumbBrf a off) s s n r r (if x a = 0 then r.pc + 1 + off.toNat else r.pc + 1)
      ∧ (l ≠ 0 → PlumbGives (.plumbLoopn imm l) s s n r { r with loop := some (r.pc + 2, l.toNat, imm.toNat + 1) } (r.pc + 2))
      ∧ (l = 0 → PlumbGives (.plumbLoopn imm l) s s n r r (r.pc + 2))
      ∧ (∀ k, s.queueOf (s.queue r.queue).ctx (x a).toNat = some k →
          set (.plumbRdtl d a) (s.queue k).tl
          ∧ (0 ≤ ((s.queue k).tl - x b).toInt → PlumbGives (.plumbWaittl a b) s s n r r (r.pc + 1))
          ∧ (((s.queue k).tl - x b).toInt < 0 → NotDue (.plumbWaittl a b) s))
      ∧ (s.queueOf (s.queue r.queue).ctx (x a).toNat = none →
          Makes (.plumbRdtl d a) s (s.plumbFault n r 4) ∧ Makes (.plumbWaittl a b) s (s.plumbFault n r 4))
      ∧ PlumbGives (.plumbWrtl a) s (s.updQueue r.queue (fun q => { q with
          flight := q.flight ++ [{ seq := r.seq, bytes := [], type := 4, sig := some (x a), compl := 0, carrier := 0, done := true, applied := false }] }))
          n r r (r.pc + 1)
      ∧ ∃ t, Makes .plumbEnd s t ∧ (t.queue r.queue).emitted = r.emits.map (Packet.make r.seq)
          ∧ ∃ r', t.runs[n]? = some r' ∧ r'.finished = true)
  ∧ (∀ (s : State) (n : Nat) (r : PlumbRun) (d a : BitVec 3) (off : BitVec 5), Good s → Acts s n r → r.steps < 512 →
      let q := s.queue r.queue
      let x (m : BitVec 3) : Word := r.p[m.toNat]'(m.isLt)
      let o := x a + word (8 * off.toNat)
      (o.toNat % 8 = 0 → o.toNat + 8 ≤ q.pwinsz →
        (∀ l, QueueReads s r.queue (q.pwin + o) 8 l → ∃ t, Makes (.plumbRdm d a off) s t ∧ SameMemory s t
          ∧ t.runs = updAt s.runs n (fun _ => { ({ r with p := r.p.set d.toNat (word (leValue l)) d.isLt }).goTo (r.pc + 1) with steps := r.steps + 1 }))
        ∧ ∀ key, QueueWrites s r.queue (q.pwin + o) 8 key → ∃ t, Makes (.plumbWrm d a off) s t ∧ Written s t key (leBytes 8 (x d).toNat)
          ∧ t.runs = updAt s.runs n (fun _ => { r.goTo (r.pc + 1) with steps := r.steps + 1 }))
      ∧ (o.toNat % 8 ≠ 0 ∨ q.pwinsz < o.toNat + 8 →
          Makes (.plumbRdm d a off) s (s.plumbFault n r 2) ∧ Makes (.plumbWrm d a off) s (s.plumbFault n r 2))
      ∧ ((x a).toNat % 64 = 0 → (x a).toNat + 64 ≤ q.pwinsz →
        (8 ≤ r.emits.length → Makes (.plumbEmit a) s (s.plumbFault n r 3))
        ∧ (r.emits.length < 8 → ∀ l, QueueReads s r.queue (q.pwin + x a) 64 l →
            ((s.packetOk q.ctx l = true ∧ field l 2 2 % 16 ≠ 3 ∧ field l 2 2 % 16 ≠ 5) → ∃ t, Makes (.plumbEmit a) s t ∧ SameMemory s t
              ∧ t.runs = updAt s.runs n (fun _ => { ({ r with emits := r.emits ++ [l] }).goTo (r.pc + 1) with steps := r.steps + 1 }))
            ∧ (¬ (s.packetOk q.ctx l = true ∧ field l 2 2 % 16 ≠ 3 ∧ field l 2 2 % 16 ≠ 5) → Makes (.plumbEmit a) s (s.plumbFault n r 3)))))
  ∧ (∀ (s : State) (n : Nat) (r : PlumbRun) (ws : List (BitVec 16)) (i : Instr), Acts s n r → 512 ≤ r.steps → decodePlumb ws = some i →
      Makes i s (s.plumbFault n r 1))
  ∧ (∀ (r : PlumbRun) (pc : Nat), (r.loop = none → r.goTo pc = { r with pc := pc })
      ∧ ∀ start len left, r.loop = some (start, len, left) →
        (pc ≠ start + len → r.goTo pc = { r with pc := pc })
        ∧ (pc = start + len → 1 < left → r.goTo pc = { r with pc := start, loop := some (start, len, left - 1) })
        ∧ (pc = start + len → left ≤ 1 → r.goTo pc = { r with pc := pc, loop := none }))

/-! ### Copies (spec/12) -/

/-- R253 to R264: each CPY starts a copy of the shape its operands, the grant or the descriptor give; with 64 of the core in flight it waits, its split not ready (log entry 137),
and without a grant the grant-sized ones trap. That a copy into the allocation of another member of the gang sets the side-effect latch is the model's choice (log
entry 53). -/
def Obligations.CopyInstructions : Prop :=
  (∀ (s : State) (wi si : Nat) (w : Wave) (sp : Split) (d a b c : Reg) (x : BitVec 1),
      Issues s wi si w sp → Straight sp → Reads w ([d, a, b, c] ++ if x = 1 then [c + 1] else []) →
      let blk := s.block w.block
      let g := blk.grant
      let v := (w.rd b).toNat
      let far : Word := ((w.rd b).setWidth 32).signExtend 64
      let near (rb : Nat) : Word := word (if v / 2 ^ 32 = 0 then rb else v / 2 ^ 32)
      let free := (s.copies.filter (fun y => y.core == s.coreOf w && !y.finished && !y.cancelled)).length < 64
      let all : List Instr := [.cpyA d a b x c, .cpyB d a b x c, .cpySt d a b x c, .cpyO d a b x c, .cpyBox d a b x c, .cpySeal d a b x c]
      (¬ free → ∀ i ∈ all, exec i s = .next (s.hold wi si))
      ∧ (free → g.rows = 0 → CutClosed w → ∀ i ∈ all.take 4, exec i s = .next (s.takeTrap wi si sp.pc noGrant false false).bump)
      ∧ (free → g.rows ≠ 0 →
        (let rb := g.valueBytes 0 / g.rows
         Starts (.cpyA d a b x c) s s wi si w sp x c { s.newCopy wi w with
           src := .mem (w.rd a) far, dst := .mem (w.rd d) (near rb), rows := g.rows, rowBytes := rb, dstLocal := true } (matBytes g.fmt))
        ∧ (let rb := g.cols * matBytes g.fmt
           Starts (.cpyB d a b x c) s s wi si w sp x c { s.newCopy wi w with
             src := .mem (w.rd a) far, dst := .mem (w.rd d) (near rb), rows := g.depth, rowBytes := rb, dstLocal := true } (matBytes g.fmt))
        ∧ (let rb := g.cols * (w.sew / 8)
           Starts (.cpySt d a b x c) s s wi si w sp x c { s.newCopy wi w with
             src := .mem (w.rd a) (near rb), dst := .mem (w.rd d) far, rows := g.rows, rowBytes := rb, srcLocal := true } (w.sew / 8))
        ∧ (∀ y, v / 2 ^ 32 = 0 → (s.core blk.core).slots[(w.rd d).toNat]? = some y → y.st ≠ 0 → y.owner = w.block →
            (s.core blk.core).slotInUse (w.rd d).toNat = false →
            let rows := if y.role = 1 then g.depth else g.rows
            Starts (.cpyO d a b x c) s s wi si w sp x c { s.newCopy wi w with
              src := .mem (w.rd a) far, dst := .slot (w.rd d).toNat, rows := rows, rowBytes := g.valueBytes y.role / rows } (matBytes g.fmt))))
  ∧ (∀ (s : State) (wi si : Nat) (w : Wave) (sp : Split) (d a b c : Reg) (x : BitVec 1) (key : Nat) (l : List Byte),
      Issues s wi si w sp → Straight sp → Reads w ([d, a, b, c] ++ if x = 1 then [c + 1] else []) →
      (s.copies.filter (fun y => y.core == s.coreOf w && !y.finished && !y.cancelled)).length < 64 →
      let u := s.looked wi
      let f := field l
      let desc (n : Nat) : Prop := (w.rd b).toNat % n = 0 ∧ s.resolve wi w (w.rd b) n n .read = .ok (.here key false) ∧ bit (w.rd b).toNat 56 = true
        ∧ l.length = n ∧ ∀ i, i < n → s.poisoned (key + i) 1 = false ∧ l[i]? = some (memRead s.mem (key + i))
      let shape := 1 ≤ f 0 4 ∧ f 0 4 ≤ 65535 ∧ 1 ≤ f 4 4 ∧ f 4 4 ≤ 1048576 ∧ f 25 7 = 0
      (desc 32 → shape → f 24 1 ≤ 3 →
        Starts (.cpyBox d a b x c) s u wi si w sp x c { u.newCopy wi w with
          src := .mem (w.rd a) (word (f 8 8)), dst := .mem (w.rd d) (word (f 16 8)), rows := f 0 4, rowBytes := f 4 4
          srcLocal := f 24 1 == 1 || f 24 1 == 2, dstLocal := f 24 1 == 0 || f 24 1 == 2 } 1)
      ∧ (desc 32 → CutClosed w → (¬ shape ∨ 4 ≤ f 24 1) →
        exec (.cpyBox d a b x c) s = .next (s.takeTrap wi si sp.pc ⟨16, 2, w.rd b⟩ false false).bump)
      ∧ (desc 64 → shape → f 24 1 = 0 → f 33 7 = 0 → f 56 8 = 0 → (w.rd a).toNat % 16 = 0 →
        (∀ k, (s.trust.keys[f 32 1]?).getD none = some k → k.part = (s.ctxOf w).part → k.measure = (s.obj (s.block w.block).obj).measure →
          k.model = word (f 40 8) → Starts (.cpySeal d a b x c) s u wi si w sp x c { u.newCopy wi w with
            src := .sealed (w.rd a) (f 48 8) (word (f 8 8)) (f 32 1) (word (f 40 8)), dst := .mem (w.rd d) (word (f 16 8)), rows := f 0 4
            rowBytes := f 4 4, dstLocal := true, key := some k } 1)
        ∧ ((s.trust.keys[f 32 1]?).getD none = none → CutClosed w →
          exec (.cpySeal d a b x c) s = .next (s.takeTrap wi si sp.pc ⟨16, 1, word (f 32 1)⟩ false false).bump)))

/-- R256 to R258, R260, R295: a copy whose bytes lie here completes with every destination byte equal to its source byte, the ones of a slot it fills included, and signals its
word or its barrier; one whose checks failed at its reissue delivers nothing, its scratchpad bytes zero and poisoned, and ends in error, with POIS for scratchpad bytes
only (the model's choice: log entry 52); a slot that was stale holds nothing known but what is delivered (R216); behind a translation fault it waits
for the host, whose answer lets it try again, with or without the page. -/
def Obligations.CopyEvents : Prop :=
  (∀ (s : State) (n : Nat) (c : Copy) (sk dk : List Nat), Good s → s.copies[n]? = some c → c.moving = true → c.block ≠ none → c.reissueError = false →
      (PlainCopy s n c sk dk → ∃ s' : State, exec (.copyCompletion n) s = .next (s'.endCopy n c false false).bump ∧ Copied s s' sk dk ∧ SameCopies s s'
        ∧ s'.waves = s.waves)
      ∧ (∀ k, c.dst = .slot k → PlainSource s n c sk → sk.length = c.rows * c.rowBytes →
        (∀ x ∈ s.sharedSpans n c ++ s.endSpans c c.src c.srcLocal .read, ∀ i, i < sk.length → x.meets (0, slotKey c.core k + i, 1) = false) →
        ∃ s' : State, exec (.copyCompletion n) s = .next (s'.endCopy n c false false).bump ∧ SameCopies s s' ∧ s'.waves = s.waves
          ∧ (∀ i, i < sk.length → memRead s'.mem (slotKey c.core k + i) = memRead s.mem (sk.getD i 0))
          ∧ (∀ a, a < slotKey c.core k ∨ slotKey c.core k + max slotBytes sk.length ≤ a → memRead s'.mem a = memRead s.mem a)
          ∧ ((∀ y, (s.core c.core).slots[k]? = some y → y.st ≠ 3) →
            ∀ a, a < slotKey c.core k ∨ slotKey c.core k + sk.length ≤ a → memRead s'.mem a = memRead s.mem a)))
  ∧ (∀ (s : State) (n : Nat) (c : Copy) (dk : List Nat), Good s → s.copies[n]? = some c → c.moving = true → c.block ≠ none → c.reissueError = true →
      (∃ b st, c.dst = .mem b st) → s.dstPlaces c = dk.map .at → dk.length = c.rows * c.rowBytes → (∀ k ∈ dk, NoBarrier s k 1) →
      ∃ s' : State, exec (.copyCompletion n) s = .next (s'.endCopy n c true (decide (c.dstLocal = true ∧ dk ≠ []))).bump ∧ s'.copies = s.copies
        ∧ (c.dstLocal = false → SameMemory s s')
        ∧ (c.dstLocal = true → (∀ k ∈ dk, memRead s'.mem k = 0 ∧ s'.poisoned k 1 = true) ∧ ∀ a, a ∉ dk → memRead s'.mem a = memRead s.mem a))
  ∧ (∀ (s : State) (n k : Nat) (c : Copy) (a v : Word) (err pois : Bool) (x : Slot), c.dst = .slot k → c.target = .signal a v → n < s.copies.length →
      s.cores[(s.copyBlock c).core]? ≠ none → (s.core (s.copyBlock c).core).slots[k]? = some x →
      ∃ y, ((s.endCopy n c err pois).core (s.copyBlock c).core).slots[k]? = some y ∧ y.owner = x.owner ∧ y.role = x.role ∧ y.filling = x.filling - 1
        ∧ y.st = (if err then 1 else 2) ∧ y.grant = (if err then Grant.none else c.grant))
  ∧ (∀ (s : State) (n : Nat) (c : Copy) (a v : Word) (key : Nat) (err pois : Bool), Good s → (∃ b st, c.dst = .mem b st) → c.target = .signal a v →
      s.localByte (s.copyBlock c) a = some key → NoBarrier s key 8 → n < s.copies.length →
      let t := s.endCopy n c err pois
      bytesAt t.mem key 8 = (if err then v ||| 0x8000000000000000#64 else v) ∧ SameOutside s t key 8
        ∧ ∃ c', t.copies[n]? = some c' ∧ c'.finished = true ∧ c'.moved = some (err, pois))
  ∧ (∀ (s : State) (n : Nat) (c : Copy), s.copies[n]? = some c →
      (c.finished = true → NotDue (.copyCompletion n) s)
      ∧ (∀ a sub rest ps, c.moving = true → c.block ≠ none → c.reissueError = false → c.srcAddrs = a :: rest → s.srcPlaces c = .fault sub :: ps →
          ∃ t c', Makes (.copyCompletion n) s t ∧ t.copies[n]? = some c' ∧ c'.fault = some (a, false) ∧ c'.finished = false)
      ∧ ∀ a write, c.fault = some (a, write) → s.priWaits (s.ctx c.ctx) a = false →
        let s' := s.priAnswered (s.ctx c.ctx) a
        exec (.copyFaultAnswer n true) s = .next (s'.updCopy n (fun c => { c with fault := none })).bump
        ∧ exec (.copyFaultAnswer n false) s =
          .next (s'.updCopy n (fun c => { c with fault := none, declined := (a.toNat / 4096, write) :: c.declined })).bump)

/-! ### Blocks, leases and the fabric from inside a wave (spec/11, spec/12, spec/17, spec/19, spec/22) -/

/-- R225, R248, R274, R275, R348, R385, R386: SPAWN, once the bins whose timers have run out are launched (log entry 167), places its thread and reports where, or that the entry is no kernel's or
no bin is free, an empty bin being the lowest-numbered (log entry 151); SPAWNF and the 64th thread launch
the bin; EXIT and CONT end the split, the last one the wave, the last wave the block; CONT records one continuation; LEASE asks and empties its register; LREL returns what is
unused, or, of a lease that has run out, expires it (R387); LQRY, once every older LEASE is answered, and COVQ read. -/
def Obligations.BlockInstructions : Prop :=
  ∀ (s : State) (wi si : Nat) (w : Wave) (sp : Split) (d a b : Reg) (mn : BitVec 10) (lv : BitVec 2), Issues s wi si w sp →
    let blk := s.block w.block
    let core := blk.core
    let ci := blk.ctx
    let known (e : Word) : Prop := ((s.obj blk.obj).kernelAt e).isSome = true
    let latched := s.sideEffect w
    let ready := latched.ripen core
    (Straight sp → w.legacy = false → Reads w [a, b] → Writes w [d] →
      (¬ known (w.rd a) → ∀ i ∈ [Instr.spawn d a b, .spawnf d a b], Gives i s wi si sp (latched.setReg wi d 3))
      ∧ (known (w.rd a) → (ready.core core).binFor blk.obj (w.rd a) = none → ∀ i ∈ [Instr.spawn d a b, .spawnf d a b], Gives i s wi si sp (ready.setReg wi d 2))
      ∧ (known (w.rd a) → ∀ n, (ready.core core).binFor blk.obj (w.rd a) = some n →
          let old := (((ready.core core).bins[n]?).getD none).getD ⟨blk.obj, w.rd a, w.block, [], s.time.toNat, false⟩
          let x := { old with args := old.args ++ [(w.rd b).setWidth 32] }
          let launched := (ready.updCore core (fun c => { c with bins := updAt c.bins n (fun _ => none), launches := c.launches ++ [x] })).setReg wi d
            (word (1 + n * 256))
          (x.args.length ≠ 64 → Gives (.spawn d a b) s wi si sp
            ((ready.updCore core (fun c => { c with bins := updAt c.bins n (fun _ => some x) })).setReg wi d (word (n * 256 + x.args.length * 65536))))
          ∧ ((s.ctx (s.block x.block).ctx).st = .running →
            (x.args.length = 64 → Gives (.spawn d a b) s wi si sp launched) ∧ Gives (.spawnf d a b) s wi si sp launched)))
    ∧ (let ends (i : Instr) : Prop := ∃ t, exec i s = .next t
         ∧ (w.lvl = 0 → 1 < w.splits.length → ∃ w', t.waves[wi]? = some w' ∧ w'.ended = w.ended
            ∧ ∀ lane pc, LaneAt w' lane pc ↔ ∃ j y, j ≠ si ∧ w.splits[j]? = some y ∧ y.mask.getLsbD lane = true ∧ pc = y.pc)
         ∧ ((w.lvl ≠ 0 ∨ w.splits.length = 1) → (∃ w', t.waves[wi]? = some w' ∧ w'.ended = true ∧ w'.splits = [] ∧ w'.frozen = [])
            ∧ (blk.waves = [wi] → w.block < s.blocks.length → (t.block w.block).phase = .ending))
       ends .exit
       ∧ (Reads w [a, d] → ∀ n, (s.obj blk.obj).kernelAt (w.rd a) = some n →
          let k := (s.obj blk.obj).kernel n
          (blk.bin = true ∨ k.waves ≤ s.nativeWaves blk) → k.scratch ≤ blk.scratch → k.accsets ≤ blk.sets.length →
          ends (.cont d a) ∧ exec (.cont d a) s =
            .next (((s.updWave wi (fun x => { x with cont := some (x.cont.getD (w.rd a, w.rd d)) })).endSplit wi si w sp).bump))
       ∧ (Reads w [a, d] → ¬ known (w.rd a) → CutClosed w → exec (.cont d a) s = .next (s.takeTrap wi si sp.pc ⟨16, 2, w.rd a⟩ false false).bump))
    ∧ (Straight sp →
      (Reads w [a] → Writes w [d] → Gives (.lease d a mn lv) s wi si sp
        ((s.updCtx ci (fun c => { c with asks := c.asks ++ [⟨wi, d, (w.rd a).toNat, lv.toNat, mn.toNat⟩] })).updWave wi (fun w =>
          { w with sFull := if d = 0 then w.sFull else w.sFull &&& ~~~(BitVec.ofNat 32 (2 ^ d.toNat)), leaseDst := some d })))
      ∧ ((s.ctx ci).lease = none → Gives .lrel s wi si sp s)
      ∧ (∀ l p, (s.ctx ci).lease = some l → s.part? (s.ctx ci).part = some p → ∃ t, Gives .lrel s wi si sp t ∧ (t.ctx ci).lease = none
          ∧ t.part? (s.ctx ci).part = some { p with allotLeft := p.allotLeft
              + l.share * (l.granted - min l.granted ((s.time.toNat - l.start) / 1000)) * 1000 / 128 }
          ∧ (∀ k ∈ t.clusters, k.part = some (s.ctx ci).part → k.mhz = 1050)
          ∧ (s.time.toNat < l.start + 1000 * l.granted → t.waves = s.waves)
          ∧ (l.start + 1000 * l.granted ≤ s.time.toNat → ∀ h, s.waves[l.holder]? = some h → h.ended = false →
              ∃ h', t.waves[l.holder]? = some h' ∧ h'.lease = some (h.lease.getD (word (min l.granted ((s.time.toNat - l.start) / 1000))))))
      ∧ (Writes w [d] → (s.ctx ci).asks = [] → Gives (.lqry d) s wi si sp (s.setReg wi d (s.leaseWord ci)))
      ∧ (Writes w [d] → (s.ctx ci).asks ≠ [] → exec (.lqry d) s = .next (s.stall wi si))
      ∧ (Writes w [d] → Gives (.covq d) s wi si sp (s.setReg wi d blk.cov)))

/-- R409 to R413: an RRED to another device sends one operation per active element, in order, to the elements' addresses, none where no element is active, and an RSIG one; both set
the side-effect latch (R289) and write no memory here; an RSIG to this device's own memory waits here, like an arrival, to be applied (the model's choice: log entry 82); a device
out of reach traps with cause 17. One that shares a byte with an older access of the wave's streams or copies waits (R147). -/
def Obligations.FabricInstructions : Prop :=
  ∀ (s : State) (wi si : Nat) (w : Wave) (sp : Split) (d a b : Reg) (fm : BitVec 2) (dev : Nat) (addr : Nat → Nat),
    Issues s wi si w sp → Straight sp → dev ≠ s.fabric.devid →
    let part := (s.ctxOf w).part
    let base := w.rd a
    let ety := match fm.toNat with | 0 => 1 | 1 => 3 | 2 => 2 | _ => 4
    let tb := if fm = 1 ∨ fm = 2 then 2 else 4
    let acts := w.actives sp
    let plan : VPlan := {
      reads := groupRead w d 2 w.grp w.sew acts :: (if fm = 3 then [⟨b.toNat, 1, 1, [b.toNat]⟩] else [])
      ss := [(a, 0)]
      typeOk := w.etype == ety }
    let held (l : List Span) : Prop := s.streamPathWait wi w l true = true ∨ s.copyPathWait wi l true = true
    let all : List Instr := [.rredAdd d a b fm, .rredMax d a b fm, .rredMin d a b fm]
    let latches (t : State) : Prop := (s.block w.block).phase = .running → (t.block w.block).latch = true
    let sends (i : Instr) (op : Nat) : Prop := ∃ t l, exec i s = .next t
      ∧ t.fabric.out = s.fabric.out ++ [⟨part, l, .fabric wi w.block base, s.time.toNat, none, s.coreOf w⟩]
      ∧ l.map (fun x => (x.1, x.2.2)) = acts.map (fun j => (dev, .rred op fm.toNat (addr j) (BitVec.ofNat 32 (elem s w d j))
          (if fm = 3 then BitVec.ofNat 8 (w.scaleByte (s.vfile w.vfile) b 0 j) else 0)))
      ∧ SameMemory s t ∧ SameWaves s t wi ∧ VecWave t wi w sp 0 ∧ latches t
    (VecReady s wi w plan → w.vl ≠ 0 → acts ≠ [] → base.toNat % tb = 0 →
      (∀ j ∈ acts, s.resolve wi w (base + word (j * tb)) tb tb .write = .ok (.away dev (addr j) false)) →
      let spans : List Span := acts.map (fun j => (dev + 1, addr j, tb))
      (held spans → ∀ i ∈ all, exec i s = .next (s.stall wi si))
      ∧ (¬ held spans → s.reaches part dev = true → sends (.rredAdd d a b fm) 0 ∧ sends (.rredMax d a b fm) 1 ∧ sends (.rredMin d a b fm) 2)
      ∧ (¬ held spans → s.reaches part dev = false → CutClosed w → ∀ j rest, acts = j :: rest →
          ∀ i ∈ all, exec i s = .next (s.takeTrap wi si sp.pc ⟨17, 0, base + word (j * tb)⟩ true false).bump))
    ∧ (VecReady s wi w plan → acts = [] → base.toNat % tb = 0 →
      ∀ i ∈ all, ∃ t, exec i s = .next t ∧ t.fabric = s.fabric ∧ SameMemory s t ∧ SameWaves s t wi ∧ VecWave t wi w sp 0 ∧ latches t)
    ∧ (Reads w [a, b] →
      (s.resolve wi w base 8 8 .write = .ok (.away dev (addr 0) false) →
        (s.reaches part dev = true → held [(dev + 1, addr 0, 8)] → exec (.rsig a b) s = .next (s.stall wi si))
        ∧ (s.reaches part dev = true → ¬ held [(dev + 1, addr 0, 8)] → ∃ t, exec (.rsig a b) s = .next t
          ∧ t.fabric.out = s.fabric.out ++ [⟨part, [(dev, assocGet 0 s.fabric.seqs dev + 1, .rsig (addr 0) (w.rd b))], .fabric wi w.block base,
              s.time.toNat, none, s.coreOf w⟩] ∧ SameMemory s t ∧ SameWaves s t wi ∧ latches t)
        ∧ (s.reaches part dev = false → CutClosed w → exec (.rsig a b) s = .next (s.takeTrap wi si sp.pc ⟨17, 0, base⟩ true false).bump))
      ∧ (∀ key, s.resolve wi w base 8 8 .write = .ok (.here key false) → bit base.toNat 56 = false → key / 2 ^ 128 ≠ 2 → ¬ held [(0, key, 8)] → ∃ t, exec (.rsig a b) s = .next t
          ∧ t.fabric.arrived = s.fabric.arrived ++ [⟨s.fabric.devid, part, assocGet 0 s.fabric.seqs s.fabric.devid + 1, .rsig key (w.rd b), s.fabric.out.length + 1⟩]
          ∧ SameMemory s t ∧ SameWaves s t wi ∧ latches t))

/-! ### Events of a wave and the debugger (spec/01, spec/02, spec/07, spec/21) -/

/-- R22, R56, R64, R178, R182, R183, R233, R270: an illegal word traps; a long-latency result arrives and fills its register; a wave at level 0 takes the lease expiry before the quota
trap; a parked wave goes on where it was or enters its handler, once the page request of its fault is out (R350; the model's choice: log entry 148); a waiting SETTILE is applied; a
fired trigger tries again, once the bins whose timers have run out are launched, and takes a bin as SPAWN does (the model's choice: log entries 167 and 151). -/
def Obligations.WaveEvents : Prop :=
  (∀ (s : State) (wi si : Nat) (w : Wave) (sp : Split) (x : IWord) (why : Reject) (need : Priv), Issues s wi si w sp →
      decodeWord x = .illegal why need → CutClosed w →
      let low := (need = .h ∧ w.lvl = 0) ∨ (need = .d ∧ w.lvl ≠ 3)
      (low → exec (.illegalInstructionWord x) s = .next (s.takeTrap wi si sp.pc ⟨2, 0, x.setWidth 64⟩ false false).bump)
      ∧ (¬ low → exec (.illegalInstructionWord x) s = .next (s.takeTrap wi si sp.pc ⟨1, why.sub, x.setWidth 64⟩ false false).bump))
  ∧ (∀ (s : State) (wi n : Nat) (w : Wave), s.waves[wi]? = some w →
      (∀ d v bad, w.pend[n]? = some (.scalar d v bad) → (w.ask = none ∨ w.hist.length < 16) → ∃ t w', Makes (.longLatencyWrite wi n) s t ∧ t.waves[wi]? = some w'
        ∧ w'.rd d = (if d = 0 then 0 else v) ∧ w'.sIsFull d = true ∧ (d ≠ 0 → w'.sIsPois d = bad) ∧ w'.pend = w.pend.eraseIdx n ∧ SameWaves s t wi ∧ SameMemory s t
        ∧ (w.ask = none → w'.hist = w.hist)
        ∧ (∀ q, w.ask = some q → q.older ≤ n → w.ahead = true → d ≠ 0 → w'.hist = .reg d (w.rd d) (w.sIsPois d) :: w.hist))
      ∧ (∀ d v bad q, w.pend[n]? = some (.scalar d v bad) → w.ask = some q → q.older ≤ n → 16 ≤ w.hist.length → NotDue (.longLatencyWrite wi n) s)
      ∧ (∀ d regs whole bad, w.pend[n]? = some (.vector d regs whole bad) → w.legacy = false → w.vfile < s.vfiles.length →
        ∃ t w', Makes (.longLatencyWrite wi n) s t ∧ t.waves[wi]? = some w' ∧ w'.pend = w.pend.eraseIdx n ∧ SameWaves s t wi
          ∧ ∀ i x, regs[i]? = some x → d.toNat + i < 32 → (t.vfile w.vfile).reg (d.toNat + i) = x
            ∧ (w.takeDue d.toNat = false → w'.vIsFull (d.toNat + i) = true))
      ∧ (w.ahead = true → w.ask = none → w.suspended = false →
        exec (.vectorFaultPoint wi) s = .next (s.updWave wi (fun w => { w with ahead := false, hist := [] })).bump)
      ∧ (w.ahead = false ∨ w.ask ≠ none ∨ w.suspended = true → NotDue (.vectorFaultPoint wi) s)
      ∧ (∀ si sp, s.asyncDue w = true → w.cutSplit = some si → w.splits[si]? = some sp →
        (∀ v, w.lease = some v → Makes (.asyncTrapTake wi) s ((s.updWave wi (fun w => { w with lease := none })).takeTrap wi si sp.pc ⟨18, 0, v⟩ false false))
        ∧ (∀ v, w.lease = none → w.quota = some v →
          Makes (.asyncTrapTake wi) s ((s.updWave wi (fun w => { w with quota := none })).takeTrap wi si sp.pc ⟨19, 0, v⟩ false false)))
      ∧ (w.lvl ≠ 0 → NotDue (.asyncTrapTake wi) s)
      ∧ (∀ p, w.park = some p → s.priWaits (s.ctxOf w) p.addr = true → NotDue (.parkedFaultResolve wi) s)
      ∧ (∀ p, w.park = some p → s.priWaits (s.ctxOf w) p.addr = false →
        (∃ t w', Makes (.parkedFaultResolve wi) s t ∧ t.waves[wi]? = some w' ∧ w'.park = none ∧ w'.lvl = w.lvl ∧ w'.s = w.s ∧ w'.frozen = w.frozen
          ∧ ∀ lane pc, LaneAt w' lane pc ↔ LaneAt w lane pc)
        ∧ (∀ sp, w.splits[p.split]? = some sp → w.lvl < 2 → w.trapbase ≠ 0 → p.cause ≠ 13 →
          ∃ t, Makes (.parkedFaultDecline wi) s t ∧ Entered t wi p.split w sp true (w.lvl + 1) w.trapbase)
        ∧ (∀ sp, w.splits[p.split]? = some sp → 2 ≤ w.lvl → p.cause ≠ 13 → ∃ t w', Makes (.parkedFaultDecline wi) s t ∧ t.waves[wi]? = some w'
          ∧ w'.stopped = some .doubleFault ∧ w'.splits = []))
      ∧ (∀ si sp (t : TileWait), w.tile = some t → findIdx t.ofSplit w.splits 0 = some si → w.splits[si]? = some sp → Straight sp →
        (s.core (s.coreOf w)).trcCtl.getLsbD 9 = false →
        (s.running w = true → s.tileQuiet w.block t.since = true → exec (.tileGrantApply wi) s =
          .next (stepped (((s.applyGrant w.block t.grant).updWave wi (fun w => { w with tile := none })).setReg wi t.d 0) wi si sp))
        ∧ (s.running w = false ∨ s.tileQuiet w.block t.since = false → NotDue (.tileGrantApply wi) s)))
  ∧ (∀ (s : State) (core n : Nat) (t : Trigger), (s.core core).triggers = [t] → core < s.cores.length →
      (t.fired = false → NotDue (.triggerRetry core) s)
      ∧ (t.fired = true → ((s.ripen core).core core).binFor (s.block t.block).obj t.entry = some n → ((s.ripen core).core core).bins[n]? = some none →
        Makes (.triggerRetry core) s ((s.ripen core).updCore core (fun c => { c with
          triggers := []
          bins := updAt c.bins n (fun _ => some ⟨(s.block t.block).obj, t.entry, t.block, [t.arg], s.time.toNat, false⟩) }))))

/-- R191, R395 to R398, R400, R401: a comparator hit enters the D handler of an armed queue or halts the wave, as ACTION says; a halted wave stays at its instruction, its waiting
SETTILE cut, and once the trace records its core has sent are performed takes the debug port's values, full and unpoisoned, and goes on with its event latch set; the D handler
issues nothing before they are; the arm and the pin of a queue are as set. That every value written to the pc gives its bits 56 to 2 is the model's choice (log entry 76). -/
def Obligations.DebugEvents : Prop :=
  (∀ (s : State) (wi si : Nat) (w : Wave) (sp : Split) (n : Fin 8) (rest : List (Fin 8)), s.waves[wi]? = some w → w.splits[si]? = some sp →
      s.running w = true → s.issuing w = some si → s.hitting w sp = n :: rest → CutClosed w →
      (s.action w n = 1 → ∃ t w', Makes (.comparatorHit wi) s t ∧ t.waves[wi]? = some w' ∧ w'.halted = true ∧ w'.lvl = w.lvl ∧ w'.tile = none
        ∧ ∀ lane pc, LaneAt w' lane pc ↔ LaneAt w lane pc)
      ∧ (∀ entry, s.action w n = 0 → s.debugEntry w = some entry → w.pend = [] → ∃ t, Makes (.comparatorHit wi) s t ∧ Entered t wi si w sp true 3 entry)
      ∧ (rest = [] → s.action w n = 2 → ∃ t w', Makes (.comparatorHit wi) s t ∧ t.waves[wi]? = some w' ∧ w'.halted = w.halted ∧ w'.lvl = w.lvl))
  ∧ (∀ (s : State) (w : Wave) (r : RemoteOut), w.lvl = 3 → r ∈ s.fabric.out → r.use = .trace (s.coreOf w) → r.answer = none → s.issuing w = none)
  ∧ (∀ (s : State) (wi : Nat) (w : Wave), s.waves[wi]? = some w → ¬ CutClosed w → NotDue (.comparatorHit wi) s ∧ NotDue (.debugHaltRequest wi) s)
  ∧ (∀ (s : State) (wi : Nat) (w : Wave), s.waves[wi]? = some w →
      (∀ si, w.ended = false → w.halted = false → w.stopped = none → CutClosed w → w.cutSplit = some si →
        ∃ t w', Makes (.debugHaltRequest wi) s t ∧ t.waves[wi]? = some w' ∧ w'.halted = true ∧ w'.pend = [] ∧ w'.tile = none ∧ ∀ lane pc, LaneAt w' lane pc ↔ LaneAt w lane pc)
      ∧ (s.haltSeen w = true →
        Makes (.debugResume wi) s (s.updWave wi (fun w => { w with halted := false, latch := true }))
        ∧ (∀ (n : Reg) v, ∃ t w', Makes (.debugPortWrite wi (.s n v)) s t ∧ t.waves[wi]? = some w' ∧ w'.rd n = (if n = 0 then 0 else v)
            ∧ w'.sIsFull n = true ∧ w'.sIsPois n = false ∧ t.portBound = false)
        ∧ (∀ (n : Reg) v, w.boundReg n.toNat = false → w.legacy = false → w.vfile < s.vfiles.length → ∃ t w', Makes (.debugPortWrite wi (.v n v)) s t
            ∧ t.waves[wi]? = some w' ∧ (t.vfile w.vfile).reg n.toNat = v ∧ w'.vIsFull n.toNat = true ∧ w'.vIsPois n.toNat = false)
        ∧ (∀ (n : Reg) v, w.boundReg n.toNat = true → exec (.debugPortWrite wi (.v n v)) s = .next ({ s with portBound := true } : State).bump)
        ∧ (∀ (k : BitVec 3) v, w.legacy = false → ∃ t w', Makes (.debugPortWrite wi (.k k v)) s t ∧ t.waves[wi]? = some w'
            ∧ w'.rdK k = (if k = 0 then BitVec.allOnes 64 else v))
        ∧ (∀ v si, w.cutSplit = some si → ∃ t w' x, Makes (.debugPortWrite wi (.pc v)) s t ∧ t.waves[wi]? = some w' ∧ w'.splits[si]? = some x
            ∧ x.pc = v &&& 0x01FFFFFFFFFFFFFC#64))
      ∧ (s.haltSeen w = true ↔ w.halted = true ∧ ∀ r ∈ s.fabric.out, r.use = .trace (s.coreOf w) → r.answer ≠ none)
      ∧ (s.haltSeen w = false → NotDue (.debugResume wi) s ∧ ∀ r, NotDue (.debugPortWrite wi r) s))
  ∧ (∀ (s : State) (q : Nat), q < s.queues.length →
      (∀ entry, ∃ t, Makes (.debugArm q entry) s t ∧ (t.queue q).debugEntry = entry.map (· &&& 0x01FFFFFFFFFFFFFC#64))
      ∧ (∀ p : Pin, p.vlcap % 8 = 0 → 8 ≤ p.vlcap → p.vlcap ≤ 64 → p.power ∈ [8, 16, 32, 64] → p.cls ∈ [none, some 0, some 1] →
        ∃ t, Makes (.debugPin q (some p)) s t ∧ (t.queue q).pin = some p
          ∧ ∀ c, c < s.cores.length → (∃ x ∈ s.blocksOn c, x.1.queue = q) → (∀ x ∈ s.blocksOn c, x.1.queue = q) → (t.core c).vlcap = p.vlcap ∧ (t.core c).power = p.power)
      ∧ ∃ t, Makes (.debugPin q none) s t ∧ (t.queue q).pin = none)

/-! ### Launching, ends, pre-emption and power (spec/10, spec/12, spec/14, spec/17, spec/19) -/

/-- R40, R252, R274, R275, R281 to R283, R285, R287, R288, R300, R225, R226: a bin launches BINT after its first thread, also where another thread or a resumption comes first (log entry 167), and the
oldest one that may start its block does, with the threads' arguments in v0, its queue, context and job those of the block that spawned its first thread (the model's choice: log entry
59); no register of a launched wave is poisoned (the model's choice: log entry 5); units are dealt
max(cmin, remaining ÷ 2P) at a time to the core that has asked longest, returned points first, or into the queue's line; a point and a gang launch with fresh waves on cores of one
cluster, none ahead of a continuation; a block ends, a take of its streams that a fault has stopped being no bar (log entry 155), or starts its continuation with what it holds; a gang's scratchpads are released; a cluster without work is gated when its idle
time is over, the limit being one the field firmware may set; which points a lattice keeps (R337, Table 17.2). -/
def Obligations.DealingEvents : Prop :=
  (∀ (s : State) (core n : Nat) (b : Bin), ((s.core core).bins[n]?).getD none = some b → b.held = false →
      let due := b.start + (s.queue (s.block b.block).queue).bint
      (s.time.toNat < due → NotDue (.binTimerExpiry core n) s)
      ∧ (due ≤ s.time.toNat → (s.ctx (s.block b.block).ctx).st = .running → Makes (.binTimerExpiry core n) s
          (s.updCore core (fun c => { c with bins := updAt c.bins n (fun _ => none), launches := c.launches ++ [b] })))
      ∧ (due ≤ s.time.toNat → (s.ctx (s.block b.block).ctx).st ≠ .running → Makes (.binTimerExpiry core n) s
          (s.updCore core (fun c => { c with bins := updAt c.bins n (fun _ => some { b with held := true }) }))))
  ∧ (∀ (s : State) (core n : Nat) (b : Bin), core < s.cores.length → n < 8 → ((s.core core).bins[n]?).getD none = some b →
      let ripe := b.held = false ∧ b.start + (s.queue (s.block b.block).queue).bint ≤ s.time.toNat
      let running := (s.ctx (s.block b.block).ctx).st = .running
      let t := s.ripen core
      (¬ ripe → ((t.core core).bins[n]?).getD none = some b) ∧ (ripe → running → ((t.core core).bins[n]?).getD none = none ∧ b ∈ (t.core core).launches)
      ∧ (ripe → ¬ running → ((t.core core).bins[n]?).getD none = some { b with held := true }))
  ∧ (∀ (s : State) (core : Nat) (x : Bin) (pre rest : List Bin), (s.core core).launches = pre ++ x :: rest → core < s.cores.length →
      let starts (y : Bin) : Prop := (s.ctx (s.block y.block).ctx).st = .running
        ∧ s.fits core ((s.obj y.obj).kernel (((s.obj y.obj).kernelAt y.entry).getD 0)) 1 = true ∧ s.pinAllows (s.block y.block).queue core = true
        ∧ (y.held = true ∨ ∀ z ∈ pre ++ x :: rest, z.held = true → (s.block z.block).ctx ≠ (s.block y.block).ctx)
      let p := s.block x.block
      let ki := ((s.obj x.obj).kernelAt x.entry).getD 0
      let k := (s.obj x.obj).kernel ki
      ((∀ y ∈ pre ++ x :: rest, ¬ starts y) ∨ s.contFirst core = true → NotDue (.binBlockLaunch core) s)
      ∧ ((∀ y ∈ pre, ¬ starts y) → starts x → s.contFirst core = false → k.legacy = false → ∃ t b w, Makes (.binBlockLaunch core) s t
          ∧ t.blocks[s.blocks.length]? = some b ∧ b.bin = true ∧ b.core = core ∧ b.queue = p.queue ∧ b.ctx = p.ctx ∧ b.job = p.job ∧ b.obj = x.obj ∧ b.kernel = ki
          ∧ b.ident = (s.core core).binCount ∧ b.argp = p.argp ∧ b.phase = .running ∧ b.waves = [s.waves.length]
          ∧ t.waves[s.waves.length]? = some w ∧ w.vl = min x.args.length 64 ∧ w.splits = [Split.start (BitVec.allOnes 64) x.entry (some 0)]
          ∧ (t.vfile w.vfile).reg 0 = binLanes x.args ∧ (t.core core).launches = pre ++ rest ∧ (t.core core).binCount = (s.core core).binCount + 1))
  ∧ (∀ (block index vfile : Nat) (entry handler s1 : Word),
      let w := Wave.launch block index 0 none vfile false entry handler s1
      (∀ r : Reg, w.rd r = if r = 1 then s1 else 0) ∧ (∀ r : Reg, w.sIsFull r = true ∧ w.sIsPois r = false) ∧ (∀ k : BitVec 3, k ≠ 0 → w.rdK k = 0) ∧ w.wmode = 8
        ∧ w.wstat = 0 ∧ w.vl = 64 ∧ w.space = 0 ∧ w.esr = 0 ∧ w.esv = 0 ∧ w.lvl = 0 ∧ w.trapbase = handler
        ∧ w.splits = [Split.start (BitVec.allOnes 64) entry (some 0)])
  ∧ (∀ (s : State) (ji core : Nat) (j : Job), s.jobs[ji]? = some j → s.serves j = true → j.gang = 1 → j.cov = [] →
      let k := s.jobKernel j
      let cl := clusterOf core
      let left := j.n[0] - j.dealt
      let n := min (max j.cmin (left / (2 * s.targets j))) left
      cl ∈ s.jobClusters j → core ∈ s.coresFor k cl → (∀ x ∈ (s.core core).chunk, x.1 ≠ ji) → s.fits core k k.waves = true → s.pinAllows j.queue core = true →
      s.reservedFrom j.queue 1 cl = false → core < s.cores.length →
      (j.asked.head? ≠ some core → NotDue (.chunkDeal ji core) s) ∧ (j.asked.head? = some core →
      (j.returned ≠ [] → ∃ t, Makes (.chunkDeal ji core) s t ∧ (t.core core).chunk = (s.core core).chunk ++ j.returned.map (fun x => (ji, x.1, x.2))
        ∧ t.jobs[ji]? = some { j with returned := [] })
      ∧ (j.returned = [] → j.dealt < j.n[0] → ∃ t, Makes (.chunkDeal ji core) s t ∧ t.jobs[ji]? = some { j with dealt := j.dealt + n }
        ∧ (t.core core).chunk = (s.core core).chunk ++ (List.range (n * (j.n[1] * j.n[2] * j.n[3]))).map
            (fun i => (ji, j.dealt * (j.n[1] * j.n[2] * j.n[3]) + i, j.chunks.length)))
      ∧ (j.returned = [] → j.n[0] ≤ j.dealt → NotDue (.chunkDeal ji core) s)))
  ∧ (∀ (s : State) (ji core : Nat) (j : Job), s.jobs[ji]? = some j → s.serves j = true → 2 ≤ j.gang → j.queue < s.queues.length →
      let left := j.n[0] - j.dealt
      let n := min (max j.cmin (left / (2 * s.targets j))) left
      let pts := j.n[1] * j.n[2] * j.n[3]
      (j.n[0] ≤ j.dealt ∨ (∃ x ∈ (s.queue j.queue).line, x.1 = ji) → NotDue (.chunkDeal ji core) s)
      ∧ (j.dealt < j.n[0] → (∀ x ∈ (s.queue j.queue).line, x.1 ≠ ji) → ∃ t, Makes (.chunkDeal ji core) s t ∧ t.jobs[ji]? = some { j with dealt := j.dealt + n }
        ∧ (t.queue j.queue).line = (s.queue j.queue).line ++ (List.range (n * pts / j.gang)).map (fun i => (ji, j.dealt * pts + i * j.gang))))
  ∧ (∀ (s : State) (core ji p ch : Nat) (j : Job) (rest : List (Nat × Nat × Nat)), Good s → (s.core core).chunk = (ji, p, ch) :: rest → s.jobs[ji]? = some j →
      core < s.cores.length → let k := s.jobKernel j
      s.serves j = true → s.fits core k k.waves = true → s.pinAllows j.queue core = true → s.reservedFrom j.queue 1 (clusterOf core) = false →
      s.binsFirst core (s.queue j.queue).ctx = false → k.legacy = false → s.contFirst core = false → ∃ t b, Makes (.pointLaunch core) s t ∧ (t.core core).chunk = rest
        ∧ t.blocks[s.blocks.length]? = some b ∧ b.job = some ji ∧ b.ident = p ∧ b.core = core ∧ b.queue = j.queue ∧ b.ctx = (s.queue j.queue).ctx ∧ b.argp = j.args
        ∧ b.phase = .running ∧ b.grant = .none ∧ b.sets.length = k.accsets ∧ b.scratch = k.scratch ∧ b.pidx = #v[p / (j.n[1] * j.n[2] * j.n[3]), p / (j.n[2] * j.n[3]) % j.n[1],
            p / j.n[3] % j.n[2], p % j.n[3]]
        ∧ b.waves.length = k.waves ∧ (∀ n, n < k.waves → t.waves[s.waves.length + n]?
            = some (Wave.launch s.blocks.length n 0 none (s.vfiles.length + n) false j.entry (s.queue j.queue).handler 0))
        ∧ ∀ o, o < k.scratch → memRead t.mem (memKey .scratch core (b.scratchBase + o)) = 0)
  ∧ (∀ (s : State) (core : Nat), s.contFirst core = true → NotDue (.pointLaunch core) s)
  ∧ (∀ (s : State) (qi ji p cl : Nat) (j : Job) (rest : List (Nat × Nat)), (s.queue qi).line = (ji, p) :: rest → s.jobs[ji]? = some j → s.serves j = true →
      (s.gangCluster (s.queue qi) qi j = none → NotDue (.gangPlace qi) s)
      ∧ (s.gangCluster (s.queue qi) qi j = some cl → (∀ c, s.binsFirst c (s.queue qi).ctx = false) → j.n[0] ≤ j.dealt → ∃ t, Makes (.gangPlace qi) s t
        ∧ (t.queue qi).line = rest ∧ t.blocks.length = s.blocks.length + j.gang
        ∧ ∀ m, m < j.gang → ∃ b, t.blocks[s.blocks.length + m]? = some b ∧ b.member = m ∧ b.ident = p + m ∧ b.gang = s.gangs.length ∧ b.core / 4 = cl ∧ b.phase = .running))
  ∧ (∀ (s : State) (qi : Nat), let q := s.queue qi
      (q.line ≠ [] → q.aged = false → q.headSince + 1000 * q.age < s.time.toNat → ∃ t, Makes (.gangAgeingExpiry qi) s t ∧ (t.queue qi).aged = true)
      ∧ (s.time.toNat ≤ q.headSince + 1000 * q.age → NotDue (.gangAgeingExpiry qi) s))
  ∧ (∀ (s : State) (bi : Nat), let b := s.block bi
      b.saved = none →
      (b.phase = .ending → s.blockQuiet bi = true →
        (s.contOf b = none → ∃ t, Makes (.blockEnd bi) s t ∧ (t.block bi).phase = .done ∧ ∀ x ∈ (t.core b.core).slots, x.st ≠ 0 → x.owner ≠ bi)
        ∧ (∀ e a, s.contOf b = some (e, a) → ∃ t, Makes (.blockEnd bi) s t ∧ (t.block bi).phase = .waiting
            ∧ (t.block bi).next = some (b.obj, ((s.obj b.obj).kernelAt e).getD 0, e, a) ∧ (t.block bi).sets = b.sets ∧ (t.block bi).grant = b.grant))
      ∧ (b.phase = .running → NotDue (.blockEnd bi) s)
      ∧ (∀ obj ki e a, b.phase = .waiting → b.next = some (obj, ki, e, a) → ((s.ctx b.ctx).st = .running ∨ (s.ctx b.ctx).st = .soft) → b.bin = false →
        ((s.obj obj).kernel ki).legacy = false → ∃ t b', Makes (.continuationStart bi) s t ∧ t.blocks[bi]? = some b' ∧ b'.phase = .running ∧ b'.kernel = ki ∧ b'.next = none
          ∧ b'.core = b.core ∧ b'.scratchBase = b.scratchBase ∧ b'.scratch = b.scratch ∧ b'.sets = b.sets ∧ b'.grant = b.grant ∧ t.mem = s.mem
          ∧ ∀ n, n < ((s.obj obj).kernel ki).waves → t.waves[s.waves.length + n]?
              = some (Wave.launch bi n 0 none (s.vfiles.length + n) false e (s.queue b.queue).handler a)))
  ∧ (∀ (s : State) (gi : Nat), let g := s.gang gi
      g.released = false → g.blocks ≠ [] → (∀ bi ∈ g.blocks, (s.block bi).alive = false ∧ ∀ c ∈ s.copies, c.block = some bi → c.finished = true) →
      ∃ t, Makes (.gangScratchRelease gi) s t ∧ (t.gang gi).released = true)
  ∧ (∀ (s : State) (cl : Nat), (s.cluster cl).gated = false →
      (∀ i, i < 4 → s.coreFree (4 * cl + i) = true ∧ ∀ x ∈ s.copies, x.core = 4 * cl + i → x.finished = true) →
      let fin := (s.cluster cl).idle + (s.cluster cl).idleLimit
      (fin ≤ s.time.toNat → exec (.clusterGate cl) s = .next (s.updCluster cl (fun c => { c with gated := true, icache := [] })).bump)
      ∧ (s.time.toNat < fin → NotDue (.clusterGate cl) s))
  ∧ (∀ (s : State) (cl ns : Nat), cl < s.clusters.length → ((s.setIdle cl ns).cluster cl).idleLimit = if 1000 ≤ ns ∧ ns ≤ 10000000 then ns else (s.cluster cl).idleLimit)
  ∧ (∀ k r c : Nat, latticeKeeps 0 k r c = true ∧ latticeKeeps 1 k r c = (r % 2 == 0) ∧ latticeKeeps 2 k r c = (c % 2 == 0)
      ∧ latticeKeeps 3 k r c = ((r + c) % 2 == 0) ∧ latticeKeeps 4 k r c = (r % 2 == 0 || c % 2 == 0) ∧ latticeKeeps 5 k r c = (r % 2 == 0 && c % 2 == 0)
      ∧ latticeKeeps 6 k r c = (c % k == 0) ∧ latticeKeeps 7 k r c = (r % 3 != 1 || c % 3 != 1))

/-- R289 to R299, R372: an uncorrectable error marks what it hit, every element of a set with its damaged value, or flushes a block that may start again and returns its point, once
the block can be stopped where it must be (the model's choice: log entry 142); a
corrected one is only counted; a pre-emption is soft, then hard at its deadline, then
saved when the image is complete or the context is reset at the hard limit; copies not done by then are cancelled and listed; a resumption restores blocks with their waves' registers as they were saved, their event latches set, their scratchpads and sets, and the class change noted. -/
def Obligations.PreemptionEvents : Prop :=
  (∀ (s : State) (wi bi n core : Nat) (r : Reg) (w : Wave) (off : Nat),
      let b := s.block bi
      (s.waves[wi]? = some w → w.block = bi → b.alive = true → b.saved = none → s.stoppable bi = true → s.restartable bi = false →
        (r ≠ 0 → ∃ t w', Makes (.softError (.scalar wi r)) s t ∧ t.waves[wi]? = some w' ∧ w'.sIsPois r = true)
        ∧ ∃ t w', Makes (.softError (.vector wi r)) s t ∧ t.waves[wi]? = some w' ∧ w'.vIsPois r.toNat = true)
      ∧ (∀ x, (s.core core).slots[n]? = some x → x.st ≠ 0 → x.owner = bi → b.alive = true → b.saved = none → s.stoppable bi = true → s.restartable bi = false → core < s.cores.length →
        ∃ t x', Makes (.softError (.slot core n)) s t ∧ (t.core core).slots[n]? = some x' ∧ x'.st = 3)
      ∧ (∀ set, b.set? n = some set → b.alive = true → b.saved = none → s.stoppable bi = true → s.restartable bi = false → n < 4 → ∃ t, Makes (.softError (.accumulator bi n)) s t ∧ (t.block bi).dmg.getLsbD n = true
        ∧ let size := if isE b.core then 16 else 64
          ∀ i j, i < size → j < size → t.acc b.core set i j = if b.grant.fmt = 8 then 0x80000000 else 0x7FC00000)
      ∧ (off < b.scratch → b.alive = true → b.saved = none → s.stoppable bi = true → s.restartable bi = false → ∃ t, Makes (.softError (.scratch bi off)) s t
          ∧ t.poisoned (memKey .scratch b.core (b.scratchBase + off)) 1 = true)
      ∧ (s.waves[wi]? = some w → w.block = bi → b.alive = true → b.saved = none → s.stoppable bi = true → s.restartable bi = true → bi ∈ (s.gang b.gang).blocks → (s.gang b.gang).size ≤ 1 → ∀ ji, b.job = some ji →
        ∃ t j', Makes (.softError (.scalar wi r)) s t ∧ (t.block bi).phase = .discarded ∧ t.jobs[ji]? = some j' ∧ (b.point, b.chunk) ∈ j'.returned)
      ∧ (s.stoppable bi = true ↔ b.saved = none ∧ (s.restartable bi = true ∨ (∃ i ∈ b.waves, ∃ x, s.waves[i]? = some x ∧ x.suspended = true)
          ∨ ∀ i ∈ b.waves, ∀ x, s.waves[i]? = some x → x.ask = none))
      ∧ (s.waves[wi]? = some w → w.block = bi → s.stoppable bi = false → NotDue (.softError (.scalar wi r)) s ∧ NotDue (.softError (.vector wi r)) s)
      ∧ ∀ p, (s.cluster (core / 4)).part = some p → exec (.softError (.corrected core)) s = .next (s.updPart p (fun p => { p with corrected := p.corrected + 1 })).bump)
  ∧ (∀ (s : State) (ci : Nat) (c : Ctx), s.ctxs[ci]? = some c →
      (c.opened = true → c.st = .running →
        ((∃ b ∈ s.blocks, b.ctx = ci ∧ b.resident = true) → Makes (.preemptRequest ci false) s (s.updCtx ci (fun c => { c with st := .soft, since := s.time.toNat })))
        ∧ ((∀ b ∈ s.blocks, b.ctx = ci → b.resident = false) → ∃ t, Makes (.preemptRequest ci false) s t ∧ (t.ctx ci).st = .saved)
        ∧ ∃ t, Makes (.preemptRequest ci true) s t ∧ (t.ctx ci).st = .hard ∧ (t.ctx ci).since = s.time.toNat)
      ∧ (c.st ≠ .running → ∀ hard, NotDue (.preemptRequest ci hard) s)
      ∧ (c.st = .soft → c.since + 1000 * c.soft ≤ s.time.toNat → ∃ t, Makes (.softDeadlineExpiry ci) s t ∧ (t.ctx ci).st = .hard)
      ∧ (s.time.toNat < c.since + 1000 * c.soft → NotDue (.softDeadlineExpiry ci) s)
      ∧ (c.st = .hard →
        (∀ place, Makes (.resumeRequest ci place) s (s.updCtx ci (fun c => { c with resume := some place })))
        ∧ (c.since + 10000 ≤ s.time.toNat → (∃ x ∈ s.copies, x.ctx = ci ∧ x.block ≠ none ∧ x.finished = false ∧ x.cancelled = false) →
          ∃ t, Makes (.copyGraceExpiry ci) s t ∧ ∀ n x, s.copies[n]? = some x → x.ctx = ci → x.block ≠ none → x.finished = false → x.cancelled = false →
            ∃ x', t.copies[n]? = some x' ∧ x'.cancelled = true ∧ n ∈ (t.ctx ci).replay)
        ∧ (s.time.toNat < c.since + 10000 → NotDue (.copyGraceExpiry ci) s)
        ∧ (s.imageReady ci = true → c.resume = none → ∃ t, Makes (.imageComplete ci) s t ∧ (t.ctx ci).st = .saved
          ∧ (∀ bi ∈ s.aliveOf ci, ((t.block bi).saved).isSome = true)
          ∧ ∀ bi, s.heldOf ci = [bi] → let b := s.block bi
            Good s → (∀ i ∈ b.waves, ∀ x, s.waves[i]? = some x → x.ahead = false) → bi < 2 ^ 64 → b.core < 1024 → (s.core b.core).slots.length ≤ 16 →
            b.scratchBase + b.scratch ≤ 2 ^ 24 → t.waves = s.waves ∧ t.vfiles = s.vfiles
              ∧ ∀ o, o < b.scratch → memRead t.mem (memKey .image bi o) = memRead s.mem (memKey .scratch b.core (b.scratchBase + o)))
        ∧ (s.imageReady ci = false → NotDue (.imageComplete ci) s)
        ∧ (c.since + 2000000 ≤ s.time.toNat → ∃ t, Makes (.hardLimitExpiry ci) s t ∧ (t.ctx ci).st = .reset ∧ (∀ bi ∈ s.aliveOf ci, (t.block bi).phase = .discarded)
          ∧ ∀ qi q, s.queues[qi]? = some q → q.ctx = ci → q.mode ≠ .closed → (t.queue qi).mode = .faulted ∧ (t.queue qi).fault = some (6, 0, 0, 0))
        ∧ (s.time.toNat < c.since + 2000000 → NotDue (.hardLimitExpiry ci) s))
      ∧ (c.st = .soft → ∃ t, Makes (.resumeRequest ci []) s t ∧ (t.ctx ci).st = .running)
      ∧ (c.st = .saved → (∃ t, Makes (.resumeRequest ci []) s t ∧ (t.ctx ci).st = .running)
        ∧ ∀ bi core, let b := s.block bi
          s.placesOk ci [(bi, core)] = true → s.mayResume bi core = true → ∃ t, Makes (.resumeRequest ci [(bi, core)]) s t ∧ (t.ctx ci).st = .running
            ∧ (t.block bi).saved = none ∧ (t.block bi).core = core
            ∧ (t.block bi).classchg = (if isE core = isE b.core then b.classchg else if isE b.core = true then 3 else 1)
            ∧ (∀ wi w, wi ∈ b.waves → s.waves[wi]? = some w → t.waves[wi]? = some { w with suspended := false, latch := true } ∧ t.vfile w.vfile = s.vfile w.vfile)
            ∧ (Good s → bi < 2 ^ 64 → core < 1024 → (s.core core).slots.length ≤ 16 →
              (∀ o, o < b.scratch → memRead t.mem (memKey .scratch core ((t.block bi).scratchBase + o)) = memRead s.mem (memKey .image bi o))
              ∧ let size := if isE core then 16 else 64
                ∀ n i j, n < b.sets.length → i < size → j < size →
                  ∃ set, (t.block bi).sets[n]? = some set ∧ t.acc core set i j = s.acc (imageCore bi) n i j))
      ∧ (c.st = .reset → ∀ place, NotDue (.resumeRequest ci place) s))

/-- R222 to R224, R381 to R390: caps fall after 64 withheld intervals and rise after 1 ms without one, pinned cores apart; a lease is decided by the first reason that applies, else
granted for what is asked, or what the heat store and the allotment leave, is held for its wave, and expires with its trap pending once its time has run out; REFREEZE ends every
lease and its end restores the allotments; a cluster's energy is divided by wave-slot cycles (R389), each share a whole number of µJ (the model's choice: log entry 139), charged, and
the quota trap pends, with the value of the first that pends (the model's choice: log entry 64); clocks move only within their range. -/
def Obligations.PowerEvents : Prop :=
  (∀ (s : State) (cl i : Nat), i < 4 → let c := s.core (4 * cl + i)
      4 * cl + i < s.cores.length →
      (64 ≤ (s.cluster cl).withheld → s.pinOn (4 * cl + i) = none → ∃ t, Makes (.capLower cl) s t ∧ (t.core (4 * cl + i)).vlcap = max 8 (c.vlcap - 8)
        ∧ (t.core (4 * cl + i)).power = max 8 (c.power / 2))
      ∧ ((s.cluster cl).withheld < 64 → NotDue (.capLower cl) s)
      ∧ ((s.cluster cl).quiet + 1000000 ≤ s.time.toNat → s.pinOn (4 * cl + i) = none → ∃ t, Makes (.capRaise cl) s t
        ∧ (t.core (4 * cl + i)).vlcap = min 64 (c.vlcap + 8) ∧ (t.core (4 * cl + i)).power = min 64 (c.power * 2))
      ∧ (s.time.toNat < (s.cluster cl).quiet + 1000000 → NotDue (.capRaise cl) s))
  ∧ (∀ (s : State) (c : Ctx), s.leaseHeld c = none ↔ ∀ l, c.lease = some l → l.start + 1000 * l.granted ≤ s.time.toNat)
  ∧ (∀ (s : State) (ci : Nat) (a : LeaseAsk), let held := s.leaseHeld (s.ctx ci)
      (held ≠ none → s.evalLease ci a = .error 5) ∧ (held = none → a.us = 0 → s.evalLease ci a = .error 1)
      ∧ (held = none → a.us ≠ 0 → 58982 ≤ s.melt.toNat → s.evalLease ci a = .error 2)
      ∧ (held = none → a.us ≠ 0 → s.melt.toNat < 58982 → s.rfz = true → s.evalLease ci a = .error 3)
      ∧ (held = none → a.us ≠ 0 → s.melt.toNat < 58982 → s.rfz = false → 1 ≤ a.level → (s.partD (s.ctx ci).part).clusters ≠ [] →
        -- watts above the sustained share, and the capacity in nanojoules
        let x : Rat := (400 * a.level * (s.partD (s.ctx ci).part).clusters.length : Nat) / (128 : Nat)
        let others : Nat := (((List.range s.ctxs.length).filter (· != ci)).map (fun i =>
          match s.leaseHeld (s.ctx i) with | some l => l.share * l.granted * 1000 / 128 | none => 0)).sum
        let cap : Rat := min (((58982 - s.melt.toNat) * 50000000000000 : Nat) / (65535 : Nat) - (others : Nat)) ((s.partD (s.ctx ci).part).allotLeft : Nat)
        ∀ f : Nat, f * (1000 * x) ≤ cap → cap < (f + 1 : Nat) * (1000 * x) →
          let g := min (min a.us 60000000) f
          s.evalLease ci a = if g = 0 then .error 6 else if g < 1000 * a.minMs then .error 4 else .ok g)
      ∧ ∀ g, s.evalLease ci a = .ok g → 0 < g ∧ g ≤ a.us ∧ g ≤ 60000000 ∧ 1000 * a.minMs ≤ g)
  ∧ (∀ (s : State) (i : Nat), (s.expireDue.ctx i).lease = s.leaseHeld (s.ctx i) ∧ s.expireDue.time = s.time)
  ∧ (∀ (s : State) (ci : Nat) (a : LeaseAsk) (rest : List LeaseAsk) (w : Wave), (s.ctx ci).asks = a :: rest → s.waves[a.wave]? = some w →
      let u := s.expireDue
      ((s.block w.block).alive = false → exec (.leaseDecision ci) s = .next (u.updCtx ci (fun c => { c with asks := rest })).bump)
      ∧ ((s.block w.block).alive = true → (∀ g, u.evalLease ci a = .ok g → ∃ t w', Makes (.leaseDecision ci) s t ∧ (t.ctx ci).lease = some ⟨a.level, g, s.time.toNat, a.wave,
          400 * a.level * (s.partD (s.ctx ci).part).clusters.length⟩ ∧ (t.ctx ci).asks = rest ∧ t.waves[a.wave]? = some w'
          ∧ (w.ended = false → w'.rd a.d = (if a.d = 0 then 0 else word g) ∧ w'.sIsFull a.d = true))
      ∧ (∀ n, u.evalLease ci a = .error n → ∃ t w', Makes (.leaseDecision ci) s t ∧ (t.ctx ci).lease = (u.ctx ci).lease ∧ (t.ctx ci).reason = n ∧ (t.ctx ci).asks = rest
          ∧ t.waves[a.wave]? = some w' ∧ (w.ended = false → w'.rd a.d = 0 ∧ w'.sIsFull a.d = true))))
  ∧ (∀ (s : State) (ci : Nat) (l : LeaseSt) (w : Wave), (s.ctx ci).lease = some l → s.waves[l.holder]? = some w →
      (s.time.toNat < l.start + 1000 * l.granted → NotDue (.leaseExpiry ci) s)
      ∧ (l.start + 1000 * l.granted ≤ s.time.toNat → w.ended = false → ∃ t w', Makes (.leaseExpiry ci) s t ∧ (t.ctx ci).lease = none ∧ t.waves[l.holder]? = some w'
          ∧ w'.lease = some (w.lease.getD (word l.granted))))
  ∧ (∀ (s : State) (m : BitVec 16),
      (s.rfz = false → 58982 ≤ m.toNat → ∃ t, Makes (.meltfUpdate m) s t ∧ t.melt = m ∧ t.rfz = true ∧ ∀ c ∈ t.ctxs, c.lease = none)
      ∧ (s.rfz = true → m.toNat ≤ 13107 → Makes (.meltfUpdate m) s { s with
          melt := m, rfz := false, parts := s.parts.map (fun p => { p with allotLeft := p.allot * 1000000 }) })
      ∧ (s.rfz = false → m.toNat < 58982 → Makes (.meltfUpdate m) s { s with melt := m })
      ∧ (s.rfz = true → 13107 < m.toNat → Makes (.meltfUpdate m) s { s with melt := m }))
  ∧ (∀ (s : State) (cl ci measured : Nat) (c : Ctx), s.ctxs[ci]? = some c →
      let slots := (s.cluster cl).slots
      let e := measured * ((slots.filter (fun x => x.1 == ci)).map (·.2)).sum / (slots.map (·.2)).sum
      (∃ t, Makes (.energyIntervalEnd [(cl, measured)]) s t ∧ (t.ctx ci).energy = c.energy + e ∧ (t.ctx ci).shares = (if e = 0 then [] else [(cl, e)])
        ∧ (∀ k ∈ t.clusters, k.slots = []) ∧ ∀ (wi : Nat) (w : Wave), s.waves[wi]? = some w → (s.block w.block).ctx = ci →
        ∃ w' : Wave, t.waves[wi]? = some w' ∧ w'.quota = (if c.equota ≠ 0 ∧ c.equota ≤ (c.energy + e) / 1000 ∧ (s.block w.block).alive = true ∧ w.ended = false then
          some (w.quota.getD (word ((c.energy + e) / 1000 - c.equota))) else w.quota))
      ∧ ∀ q, Makes (.equotaSet ci q) s (s.updCtx ci (fun c => { c with equota := q.toNat })))
  ∧ (∀ (s : State) (cl mhz p : Nat), (s.cluster cl).gated = false → (s.cluster cl).part = some p →
      let leased := ∃ c ∈ s.ctxs, c.part = p ∧ s.leaseHeld c ≠ none
      (1050 ≤ mhz → mhz ≤ 1400 → (leased ∨ mhz = 1050) → Makes (.clockChange cl mhz) s (s.updCluster cl (fun c => { c with mhz := mhz })))
      ∧ ((mhz < 1050 ∨ 1400 < mhz ∨ (¬ leased ∧ mhz ≠ 1050)) → NotDue (.clockChange cl mhz) s))

/-! ### The die: translation, memory, partitions (spec/16) -/

/-- R308, R319 to R324, R332 to R335: a shootdown reaches every cluster of the partitions that use the PASID, drops what it names, and is done with the last acknowledgement; a near copy
that goes changes no value; a memory error poisons its granule, or the granules of a lost line; the host's reads and writes; a partition forms of whole free clusters with its caps; a
moved cluster is wiped, once no access under way is still to act in its storage, its slots, sets and poison marks too; a reset leaves the reset state but for host memory. That an
arrival drops the whole instruction cache, and the reads of instruction words and descriptors that are under way, is the model's choice (log entry 18), as are which clusters a
shootdown reaches and what an acknowledgement waits for (log entry 115), that host memory stands over a reset (log entry 117), and that the read of a device-class descriptor that is out is kept (log entry 162). -/
def Obligations.MemoryEvents : Prop :=
  (∀ (s : State) (pasid lo hi : Nat) (cs : List Nat),
      (s.parts.filter (fun p => ((s.ctxs.filter (fun c => c.opened && c.pasid == pasid)).map (·.part)).contains p.id)).flatMap (·.clusters) = cs → cs ≠ [] →
      Makes (.shootdownRequest pasid lo hi) s { s with shoots := s.shoots ++ [⟨pasid, lo, hi, cs, cs, false, s.fabric.out.length, []⟩] })
  ∧ (∀ (s : State) (n cl : Nat) (x : Shootdown), s.shoots[n]? = some x →
      (cl ∈ x.toReach → ∃ t x', Makes (.shootdownArrival n cl) s t ∧ t.shoots[n]? = some x' ∧ cl ∉ x'.toReach ∧ (cl < s.clusters.length → (t.cluster cl).icache = []
        ∧ ∀ e, e ∈ (t.cluster cl).tlb ↔ e ∈ (s.cluster cl).tlb ∧ ¬ (e.pasid = x.pasid ∧ e.base < x.hi ∧ x.lo < e.base + e.size))
        ∧ (∀ c, c / 4 = cl → c < s.cores.length → ∀ e, e ∈ (t.core c).tlb ↔ e ∈ (s.core c).tlb ∧ ¬ (e.pasid = x.pasid ∧ e.base < x.hi ∧ x.lo < e.base + e.size))
        ∧ SameMemory s t ∧ t.waves = s.waves.map (fun w => { w with look := if s.coreOf w / 4 = cl then w.look.filter (fun l => l.2.2) else w.look })
        ∧ ((∀ m ∈ x.marks, m.1 ≠ cl) → x'.mark cl = s.fabric.out.length))
      ∧ (cl ∉ x.toReach → cl ∈ x.toAck → s.remoteAt cl (x.mark cl) = false → ((∀ c ∈ x.toAck, c = cl) → s.hubRemote x.sent = false) →
        ∃ t x', Makes (.shootdownAck n cl) s t ∧ t.shoots[n]? = some x' ∧ cl ∉ x'.toAck ∧ (x'.done = true ↔ ∀ c ∈ x.toAck, c = cl))
      ∧ (s.remoteAt cl (x.mark cl) = true → NotDue (.shootdownAck n cl) s)
      ∧ (∀ i r, i < x.mark cl → s.fabric.out[i]? = some r → r.answer = none → r.core / 4 = cl → NotDue (.shootdownAck n cl) s)
      ∧ (cl ∈ x.toReach → NotDue (.shootdownAck n cl) s))
  ∧ (∀ (s : State) (die part line : Nat), Makes (.nearCopyInvalidate die part line) s s)
  ∧ (∀ (s : State) (place : MemPlace) (k : Nat), s.placeKey place = some k →
      (∃ t, Makes (.memoryError place false) s t ∧ t.poisoned k 1 = true ∧ t.mem = s.mem)
      ∧ (∀ p a, place = .hbm p a → ∃ t, Makes (.memoryError place true) s t ∧ t.mem = s.mem ∧ ∀ o, o < 128 → t.poisoned (k / 128 * 128 + o) 1 = true))
  ∧ (∀ (s : State) (p a n : Nat) (l : List Byte) (bad : Bool), Good s →
      Makes (.hostAccess (.readHbm p a n)) s s
      ∧ (a + l.length ≤ s.hbmSize p → (∀ i, i < l.length → NoBarrier s (s.hbmKey p (a + i)) 1) → (∀ i j, i < l.length → j < l.length → s.hbmKey p (a + i) = s.hbmKey p (a + j) → i = j) →
        ∃ t, Makes (.hostAccess (.writeHbm p a l bad)) s t ∧ Written s t (fun i => s.hbmKey p (a + i)) l
          ∧ ∀ i, i < l.length → bad = true → t.poisoned (s.hbmKey p (a + i)) 1 = true)
      ∧ (s.hbmSize p < a + l.length → NotDue (.hostAccess (.writeHbm p a l bad)) s)
      ∧ (a + l.length ≤ 2 ^ 64 → NoBarrier s (memKey .host 0 a) l.length → ∃ t, Makes (.hostAccess (.writeHost a l)) s t ∧ Written s t (fun i => memKey .host 0 (a + i)) l))
  ∧ (∀ (s : State) (p : PartSpec), s.clusters.length = 128 → s.cores.length = 512 →
      let cs := p.clusters.foldl (fun l c => insertNat c l) []
      p.id < 16 → s.part? p.id = none → cs ≠ [] → cs.length = p.clusters.length → (∀ c ∈ cs, c < 128 ∧ s.clusterFree c = true ∧ (s.cluster c).part = none) →
      (∀ d, d < 4 → rectOn cs d = true) → p.cap ∈ [8, 16, 32, 64] → p.regulator < 4 →
      (∀ k ∈ p.keySlots, k < 256 ∧ ∀ q ∈ s.parts, k ∉ q.keySlots) →
      ∃ t q, Makes (.partitionForm p) s t ∧ t.part? p.id = some q ∧ q.clusters = cs ∧ q.cap = p.cap ∧ q.regulator = p.regulator ∧ q.keySlots = p.keySlots
        ∧ q.allotLeft = p.allotMj * 1000000 ∧ ∀ c ∈ cs, (t.cluster c).part = some p.id ∧ (t.cluster c).gated = false ∧ ∀ i, i < 4 → (t.core (4 * c + i)).part = p.cap)
  ∧ (∀ (s : State) (cl : Nat) (dest : Option Nat), Good s → cl < s.clusters.length → (s.cluster cl).part ≠ dest → (∀ p, dest = some p → (s.part? p).isSome = true) →
      let shape := (∀ p, (s.cluster cl).part = some p → ∀ d, d < 4 → rectOn ((s.partD p).clusters.filter (· != cl)) d = true)
        ∧ ∀ p, dest = some p → ∀ d, d < 4 → rectOn (insertNat cl (s.partD p).clusters) d = true
      (shape → s.clusterFree cl = true → ∃ t, Makes (.clusterMove cl dest) s t ∧ (t.cluster cl).part = dest ∧ (t.cluster cl).tlb = [] ∧ (t.cluster cl).icache = []
        ∧ (∀ o, o < 6442450944 → memRead t.mem (memKey .hbm cl o) = 0) ∧ (∀ o, o < 8388608 → memRead t.mem (memKey .vault cl o) = 0)
        ∧ (∀ i o, i < 4 → o < coreScratch (4 * cl + i) → memRead t.mem (memKey .scratch (4 * cl + i) o) = 0 ∧ t.poisoned (memKey .scratch (4 * cl + i) o) 1 = false)
        ∧ (∀ o, o < 6442450944 → t.poisoned (memKey .hbm cl o) 1 = false) ∧ (∀ o, o < 8388608 → t.poisoned (memKey .vault cl o) 1 = false)
        ∧ (∀ i n o, i < 4 → n < 16 → o < slotBytes → memRead t.mem (slotKey (4 * cl + i) n + o) = 0 ∧ t.poisoned (slotKey (4 * cl + i) n + o) 1 = false)
        ∧ (∀ i, i < 4 → 4 * cl + i < s.cores.length → (∀ x ∈ (t.core (4 * cl + i)).slots, x = Slot.free) ∧ (t.core (4 * cl + i)).triggers = []
          ∧ ∀ n r c, n < 4 → r < 64 → c < 64 → t.acc (4 * cl + i) n r c = 0)
        ∧ (∀ b ∈ t.bars, keyCore b.key / 4 ≠ cl) ∧ ∀ q ∈ t.parts, cl ∈ q.clusters → dest = some q.id)
      ∧ (∀ c ∈ s.copies, ∀ from_ to_ key, c.finished = false → c.cancelled = false → c.placed = some (from_, to_) → .at key ∈ from_ ++ to_ → keyIn cl key = true →
        NotDue (.clusterMove cl dest) s)
      ∧ (s.clusterFree cl = false ∨ ¬ shape → NotDue (.clusterMove cl dest) s))
  ∧ (∀ s : State, Good s → ∃ t, Makes .reset s t ∧ t.waves = [] ∧ t.blocks = [] ∧ t.parts = [] ∧ t.ctxs = [] ∧ t.queues = [] ∧ t.cores = State.reset.cores
      ∧ t.clusters = State.reset.clusters ∧ t.accs = [] ∧ t.pois = [] ∧ t.trust.keys = List.replicate 256 none ∧ t.fabric = State.reset.fabric
      ∧ ∀ a, memRead t.mem a = if a / 2 ^ 128 = 2 then memRead s.mem a else 0)

/-! ### Queues, packets and services (spec/18) -/

/-- R351 to R354, R356, R364, R365, R369: contexts and queues hold their descriptors' fields; a doorbell counts only forward and within the ring; a fetch takes the slot whose mark and
stamp match and faults the queue at the ninth mismatch, 2 µs after the first with no read under way, or at a malformed packet; a declined access faults an open queue; services are
posted and answered; a cleared queue starts at the given number, keeping its timeline; a verified program is stored under its number. The model's choices: HANDLER's bits 56 to 2 (log
entry 87), QUEUE_DELETE of an idle queue only (97), which packets in flight a clearing keeps (144), the retired packets that bound a doorbell (145), and that a request the host has not
been sent is not answered (148). -/
def Obligations.QueueEvents : Prop :=
  (∀ (s : State) (ci fn : Nat) (d : List Byte), ci < 1024 → (s.ctx ci).opened = false → (∀ q ∈ s.queues, q.ctx = ci → q.deleted = true) → s.ctxDescOk fn d = true →
      ∃ t, Makes (.contextCreate ci fn d) s t ∧ (t.ctx ci).opened = true ∧ (t.ctx ci).st = .running ∧ (t.ctx ci).root = field d 0 8 ∧ (t.ctx ci).pasid = field d 8 4
        ∧ (t.ctx ci).part = field d 12 1 ∧ (t.ctx ci).soft = field d 16 4 ∧ (t.ctx ci).lease = none ∧ (t.ctx ci).energy = 0)
  ∧ (∀ (s : State) (num fn : Nat) (d : List Byte), let c := s.ctx (field d 10 2)
      num < 4096 → (∀ q ∈ s.queues, q.num = num → q.deleted = false → (s.ctx q.ctx).fn ≠ fn) → queueDescOk d = true → c.opened = true → c.tearing = false → c.fn = fn →
      ∃ t q, Makes (.queueCreate num fn d) s t ∧ t.queues[s.queues.length]? = some q ∧ q.num = num ∧ q.ctx = field d 10 2 ∧ q.ring = word (field d 0 8) ∧ q.slots = field d 8 1
        ∧ q.prio = field d 9 1 ∧ q.bint = field d 12 2 ∧ q.prog = field d 14 2 ∧ q.tladdr = word (field d 16 8) ∧ q.handler = word (field d 24 8) &&& 0x01FFFFFFFFFFFFFC#64
        ∧ q.pwin = word (field d 32 8) ∧ q.pwinsz = field d 40 4 ∧ q.age = field d 44 4 ∧ q.svc = word (field d 48 8) ∧ q.tl = 0 ∧ q.nextSeq = 0 ∧ q.deleted = false)
  ∧ (∀ (s : State) (qi : Nat) (q : Queue), s.queues[qi]? = some q →
      (q.deleted = false → s.queueIdle qi = true → ∃ t, Makes (.queueDelete qi) s t ∧ (t.queue qi).deleted = true)
      ∧ (s.queueIdle qi = false → NotDue (.queueDelete qi) s)
      ∧ (∀ next : Word, q.mode = .faulted → q.deleted = false → ∃ t, Makes (.queueClear qi next) s t ∧ (t.queue qi).nextSeq = next.toNat ∧ (t.queue qi).tl = q.tl
        ∧ (t.queue qi).head = none ∧ (t.queue qi).flight = s.keptFlight q.flight ∧ (t.queue qi).outstanding = [] ∧ ∀ b ∈ t.blocks, b.queue = qi → b.alive = false)
      ∧ (∀ ji, s.jobStopped ji = true ↔ ∃ j, s.jobs[ji]? = some j ∧ j.stopped = true)
      ∧ (∀ p, p ∈ s.keptFlight q.flight → p.type = 1 → s.jobStopped p.carrier = true → p.sig = none)
      ∧ (∀ p ∈ q.flight, p.type = 2 ∨ p.type = 4 ∨ (p.type = 1 ∧ s.jobStopped p.carrier = false) → ¬ (p.done = true ∧ (p.sig = none ∨ p.applied = true)) →
        p ∈ s.keptFlight q.flight)
      ∧ (∀ next, q.mode = .opened → NotDue (.queueClear qi next) s)
      ∧ (∀ w : Word, q.deleted = false →
        (0 < (w - q.bell).toInt → (w - word q.retired).toInt ≤ 2 ^ q.slots → Makes (.doorbell qi w) s (s.updQueue qi (fun q => { q with bell := w })))
        ∧ ((w - q.bell).toInt ≤ 0 ∨ 2 ^ q.slots < (w - word q.retired).toInt → NotDue (.doorbell qi w) s))
      ∧ (q.mode = .opened → q.head = none → 0 < (q.bell - word q.nextSeq).toInt → 0 < q.retries → q.retrySince + 2000 < s.time.toNat →
        q.reading (q.ring + word (64 * (q.nextSeq % 2 ^ q.slots))) 64 = false → ∃ t, Makes (.packetFetch qi) s t ∧ (t.queue qi).mode = .faulted ∧ (t.queue qi).fault = some (1, 0, 0, word q.nextSeq))
      ∧ (∀ l, q.mode = .opened → q.head = none → 0 < (q.bell - word q.nextSeq).toInt → (0 < q.retries → s.time.toNat ≤ q.retrySince + 2000 ∨ q.reading (q.ring + word (64 * (q.nextSeq % 2 ^ q.slots))) 64 = true) → QueueReads s qi (q.ring + word (64 * (q.nextSeq % 2 ^ q.slots))) 64 l →
        let good := field l 0 2 = q.nextSeq % 65536 ∧ field l 60 2 = q.nextSeq % 65536
        (good → s.packetOk q.ctx l = true → ∃ t, Makes (.packetFetch qi) s t ∧ SameMemory s t ∧ (t.queue qi).head = some (Packet.make q.nextSeq l))
        ∧ (good → s.packetOk q.ctx l = false → ∃ t, Makes (.packetFetch qi) s t ∧ (t.queue qi).mode = .faulted ∧ (t.queue qi).fault = some (2, 0, 0, word q.nextSeq)
          ∧ (t.queue qi).head = none)
        ∧ (¬ good → q.retries < 8 → ∃ t, Makes (.packetFetch qi) s t ∧ (t.queue qi).head = none ∧ (t.queue qi).retries = q.retries + 1 ∧ (t.queue qi).mode = .opened
          ∧ (q.retries = 0 → (t.queue qi).retrySince = s.time.toNat))
        ∧ (¬ good → 8 ≤ q.retries → ∃ t, Makes (.packetFetch qi) s t ∧ (t.queue qi).mode = .faulted ∧ (t.queue qi).fault = some (1, 0, 0, word q.nextSeq)))
      ∧ (∀ a write card, q.memFault = some (a, write, card) →
        (s.priWaits (s.ctx q.ctx) a = true → ∀ b, NotDue (.queueMemoryFaultAnswer qi b) s)
        ∧ (s.priWaits (s.ctx q.ctx) a = false → q.mirror = [] → Makes (.queueMemoryFaultAnswer qi true) s ((s.priAnswered (s.ctx q.ctx) a).updQueue qi (fun q => { q with
          memFault := none, retrySince := s.time.toNat })))
        ∧ (s.priWaits (s.ctx q.ctx) a = false → card = false → q.mode = .opened → ∃ t, Makes (.queueMemoryFaultAnswer qi false) s t ∧ (t.queue qi).mode = .faulted ∧ (t.queue qi).fault = some (10, 0, 0, a)
          ∧ (t.queue qi).memFault = none)
        ∧ (s.priWaits (s.ctx q.ctx) a = false → card = true → q.mode = .opened → ∀ p, q.emitted.head?.or q.head = some p → p.type = 1 →
          ∃ t, Makes (.queueMemoryFaultAnswer qi false) s t ∧ (t.queue qi).mode = .faulted ∧ t.jobs.length = s.jobs.length + 1)
        ∧ (s.priWaits (s.ctx q.ctx) a = false → q.mode ≠ .opened → ∀ b, ∃ t, Makes (.queueMemoryFaultAnswer qi b) s t ∧ (t.queue qi).mode = q.mode))
      ∧ (∀ wi w n key, Good s → s.waves[wi]? = some w → (s.block w.block).queue = qi → w.sysc = some (n, none) → w.ended = false → q.outstanding.length < 32 →
        QueueWrites s qi (q.svc + word (128 * (q.services % 32))) 72 key → ∃ t w', Makes (.servicePost wi) s t ∧ t.waves[wi]? = some w' ∧ w'.sysc = some (n, some q.services)
          ∧ (t.queue qi).services = q.services + 1 ∧ (t.queue qi).outstanding = q.outstanding ++ [(q.services, wi)]
          ∧ Written s t key (leBytes 8 q.services ++ leBytes 4 n ++ leBytes 4 0 ++ leBytes 8 (s.who w) ++ leBytes 8 (w.rd 1).toNat ++ leBytes 8 (w.rd 2).toNat
              ++ leBytes 8 (w.rd 3).toNat ++ leBytes 8 (w.rd 4).toNat ++ leBytes 8 (w.rd 5).toNat ++ leBytes 8 (w.rd 6).toNat))
      ∧ (∀ wi w k l, s.waves[wi]? = some w → q.outstanding = [(k.toNat, wi)] → QueueReads s qi (q.svc + word (128 * (BitVec.toNat k % 32) + 72)) 16 l →
        ∃ t w', Makes (.serviceDoorbell qi k) s t ∧ t.waves[wi]? = some w' ∧ w'.sysc = none ∧ w'.rd 1 = word (field l 0 8) ∧ w'.rd 2 = word (field l 8 8)
          ∧ w'.sIsFull 1 = true ∧ w'.sIsFull 2 = true ∧ (t.queue qi).outstanding = []))
  ∧ (∀ (s : State) (n : Nat) (ws : List (BitVec 16)),
      (n < 256 → plumbOk ws = true → ∃ t, Makes (.plumbProgramLoad n ws) s t ∧ t.trust.progs.find? (fun x => x.1 == n) = some (n, ws))
      ∧ (plumbOk ws = false → NotDue (.plumbProgramLoad n ws) s))

/-- R355, R357 to R361, R363, R366: packets start in order, one by one, each type with its effect: a job from a legal card, a copy, a wait for a timeline, a timeline value, a plumb run, a
fence, nothing; completed packets are recorded and signal their timeline in order, which only moves forward, each once the mirror area holds the one before; a mirror write to another
device is made with its response (R354). That a PLUMB packet without a loaded program faults its queue (log entry 89) and a refused card makes a job (log entry 93) are the model's
choices. -/
def Obligations.PacketEvents : Prop :=
  (∀ (s : State) (qi : Nat) (q : Queue) (p : Packet), s.queues[qi]? = some q → s.nextPacket qi = some p →
      (p.type = 7 → Makes (.packetNop qi) s (s.started qi { p with done := true }))
      ∧ (p.type = 6 → ((∀ x ∈ q.flight, x.done = true) → Makes (.packetFence qi) s (s.started qi { p with done := true }))
          ∧ ((∃ x ∈ q.flight, x.done = false) → NotDue (.packetFence qi) s))
      ∧ (p.type = 4 → Makes (.packetTlset qi) s (s.started qi { p with done := true }))
      ∧ (p.type = 3 → ∀ k, s.queueOf q.ctx (field p.bytes 8 8) = some k →
          (0 ≤ ((s.queue k).tl - word (field p.bytes 16 8)).toInt → Makes (.packetTlwait qi) s (s.started qi { p with done := true }))
          ∧ (((s.queue k).tl - word (field p.bytes 16 8)).toInt < 0 → NotDue (.packetTlwait qi) s))
      ∧ (p.type = 2 → ∃ t c, Makes (.packetCopy qi) s t ∧ t.copies.length = s.copies.length + 1 ∧ t.copies[s.copies.length]? = some c
          ∧ c.src = .mem (word (field p.bytes 8 8)) 0 ∧ c.dst = .mem (word (field p.bytes 16 8)) 0 ∧ c.rows = 1 ∧ c.rowBytes = field p.bytes 24 8
          ∧ c.target = .packet qi p.seq ∧ c.block = none ∧ c.finished = false)
      ∧ (p.type = 1 → ∀ l, field p.bytes 8 8 % 64 = 0 → QueueReads s qi (word (field p.bytes 8 8)) 64 l →
          (∀ obj ker, cardForm l = true → bit (field l 35 1) 1 = false → s.entryOf (s.ctx q.ctx).part (word (field l 0 8)) = some (obj, ker) →
            s.cardPlaces (s.ctx q.ctx).part ((s.obj obj).kernel ker) (field l 34 1) (word (field l 40 8)) = true → ∃ t j, Makes (.packetJob qi) s t
              ∧ t.jobs.length = s.jobs.length + 1 ∧ t.jobs[s.jobs.length]? = some j ∧ j.queue = qi ∧ j.entry = word (field l 0 8) ∧ j.args = word (field l 8 8)
              ∧ j.n = #v[field l 16 4, field l 20 4, field l 24 4, field l 28 4] ∧ j.cmin = field l 32 2 ∧ j.gang = field l 34 1 ∧ j.idem = bit (field l 35 1) 0
              ∧ j.dealt = 0 ∧ j.obj = obj ∧ j.kernel = ker)
          ∧ (cardForm l = false → ∃ t, Makes (.packetJob qi) s t ∧ (t.queue qi).mode = .faulted ∧ t.jobs.length = s.jobs.length + 1))
      ∧ (p.type = 5 → (∀ n ws, s.trust.progs.find? (fun x => x.1 == q.prog) = some (n, ws) → ∃ t r, Makes (.packetPlumb qi) s t
            ∧ t.runs[s.runs.length]? = some r ∧ r.queue = qi ∧ r.words = ws ∧ r.pc = 0 ∧ r.steps = 0 ∧ r.emits = [] ∧ r.finished = false
            ∧ r.p = #v[word (field p.bytes 8 8), word (field p.bytes 16 8), word (field p.bytes 24 8), word (field p.bytes 32 8), word (field p.bytes 40 8),
                word (field p.bytes 48 8), word p.seq, 0])
          ∧ (s.trust.progs.find? (fun x => x.1 == q.prog) = none → ∃ t, Makes (.packetPlumb qi) s t ∧ (t.queue qi).mode = .faulted))
      ∧ (q.emitted = [] → ∀ p' : Packet, ((s.started qi p').queue qi).head = none ∧ ((s.started qi p').queue qi).nextSeq = (q.nextSeq + 1) % 2 ^ 64)
      ∧ (∀ e r, q.emitted = e :: r → p = e ∧ ∀ p' : Packet, ((s.started qi p').queue qi).emitted = r ∧ ((s.started qi p').queue qi).nextSeq = q.nextSeq))
  ∧ (∀ (s : State) (qi : Nat) (q : Queue), s.queues[qi]? = some q →
      ((q.mode ≠ .opened ∨ q.mirror ≠ [] ∨ ∃ r ∈ s.runs, r.queue = qi ∧ r.finished = false) →
        ∀ i ∈ [Instr.packetJob qi, .packetCopy qi, .packetTlwait qi, .packetTlset qi, .packetPlumb qi, .packetFence qi, .packetNop qi], NotDue i s)
      ∧ (∀ p v, q.mode = .opened → firstSignal q.flight = some p → p.sig = some v →
        (p.done = true → (∀ x ∈ q.mirror, x.1 ≠ 0) → ∃ t, Makes (.timelineSignal qi) s t ∧ (t.queue qi).tl = (if 0 < (v - q.tl).toInt then v else q.tl))
        ∧ (p.done = false ∨ (∃ x ∈ q.mirror, x.1 = 0) → NotDue (.timelineSignal qi) s)))
  ∧ (∀ (s : State) (qi i req : Nat) (q : Queue) (v : Word) (r : RemoteOut) (ps : List CPlace), s.queues[qi]? = some q → q.mirror = [(i, v)] →
      q.asked (q.tladdr + word (8 * i)) true = some (req, ps) → ps.length = 8 → (∀ p ∈ ps, ∃ d a, p = .away d a) → s.fabric.out[req]? = some r → r.use = .queue qi →
      r.answer = none → (∀ x ∈ r.ops, ∃ a l f, x.2.2 = .write a l f) → (∃ x ∈ r.ops, x.1 ≠ s.fabric.devid) → s.lostAt r = none →
      ∃ t, Makes (.remoteResponse req ⟨[], [], none⟩) s t ∧ (t.queue qi).mirror = [] ∧ (i = 1 → (t.queue qi).retired = v.toNat))
  ∧ (∀ (s : State) (ji : Nat) (j : Job), s.jobs[ji]? = some j → j.finished = false →
      (s.jobOver ji j = false → NotDue (.jobComplete ji) s)
      ∧ (s.jobOver ji j = true → j.recorded = false → j.cov = [] → j.compl = 0 → ∃ t j', Makes (.jobComplete ji) s t ∧ t.jobs[ji]? = some j' ∧ j'.finished = true
        ∧ ∀ p ∈ (t.queue j.queue).flight, p.type = 1 → p.carrier = ji → p.done = true)
      ∧ (∀ key, Good s → s.jobOver ji j = true → j.recorded = false → j.cov = [] → j.compl ≠ 0 → (s.ctxOfQueue j.queue).opened = true → QueueWrites s j.queue j.compl 32 key →
        ∃ t j', Makes (.jobComplete ji) s t ∧ t.jobs[ji]? = some j' ∧ j'.finished = true
          ∧ Written s t key (leBytes 4 (if j.stopped then 1 else if j.fabError then 2 else 0) ++ leBytes 4 (if j.covError then 1 else 0) ++ leBytes 8 j.launched
              ++ leBytes 4 j.skipped.length ++ leBytes 4 (j.skipped.filter (fun x => x.stat == 1)).length ++ leBytes 8 s.time.toNat)))
  ∧ (∀ (s : State) (n : Nat) (c : Copy) (sk dk : List Nat), Good s → s.copies[n]? = some c → c.block = none → c.finished = false → c.fault = none → c.cancelled = false →
      c.moved = none → c.compl = 0 → PlainCopy s n c sk dk → ∃ t c', Makes (.copyPacketComplete n) s t ∧ Copied s t sk dk ∧ t.copies[n]? = some c' ∧ c'.finished = true)

/-! ### Trust and the fabric from outside (spec/01, spec/18, spec/22, spec/17) -/

/-- R33 to R39, R350, R362, R371 to R378: a legal object is loaded and measured, any other refused whole; the SPDM exchange answers each request once those before it have been made, with
an ERROR otherwise; keys are installed and deleted in a secure session for slots of the partition; a firmware update empties every slot; a teardown closes the context's queues and ends
it once nothing is outstanding and its records are written, with STATUS 1; TDI_STOP empties the partition's keys; the host link's settings. The model's choices: the signatures and
session keys are free values (log entry 143), the nonce is little-endian (49), the order of the SPDM messages (109), what the layout and firmware digests are of (107), what TDI RUN
gates (113), and which records a teardown writes (146). -/
def Obligations.TrustEvents : Prop :=
  (∀ (s : State) (o : ObjectLoad),
      (objectOk o.bytes = false → NotDue (.codeObjectLoad o) s)
      ∧ (∀ t d, (s.ctx o.ctx).opened = true → objectOk o.bytes = true → o.textBase % alignOf o.bytes 1 = 0 → o.dataBase % alignOf o.bytes 2 = 0 →
        s.placeBytes (s.ctx o.ctx) o.textBase (relocate o.bytes 1 o.textBase o.dataBase) = some t →
        s.placeBytes (s.ctx o.ctx) o.dataBase (relocate o.bytes 2 o.textBase o.dataBase) = some d → ∃ u x, Makes (.codeObjectLoad o) s u ∧ u.objs = s.objs ++ [x]
          ∧ x.part = (s.ctx o.ctx).part ∧ x.text = word o.textBase ∧ x.measure = sha384 (bytesOf o.bytes 1 ++ bytesOf o.bytes 4)
          ∧ x.kernels.length = field (bytesOf o.bytes 4) 4 4))
  ∧ (∀ (s : State) (slot part block : Nat) (ok' : Bool), let fn := s.cur.fn
      let x := s.spdm fn
      let reply (i : Instr) (f : Spdm → Spdm) : Prop := Makes i s (s.updSpdm fn f)
      let error (i : Instr) : Prop := reply i (fun x => { x with reply := 255, payload := [] })
      let signed (i : Instr) (f : Spdm → List Byte → Spdm) : Prop := ∃ g : List Byte, g.length = 96 ∧ reply i (fun x => f x g)
      (∀ f : Spdm → Spdm, (s.updSpdm fn f).spdm fn = f x
        ∧ (s.trust.spdm.Pairwise (fun a b => a.1 < b.1) → ∀ fn', fn' ≠ fn → (s.updSpdm fn f).spdm fn' = s.spdm fn'))
      ∧ reply (.getVersion) (fun x => { x with
          version := true, caps := false, algs := false, session := 0, measured := none, key := none, payload := [], reply := 0x84 })
      ∧ (x.version = true → reply (.getCapabilities) (fun x => { x with caps := true, payload := [], reply := 0xE1 }))
      ∧ (x.version = false → error (.getCapabilities))
      ∧ (x.caps = true → reply (.negotiateAlgorithms true) (fun x => { x with algs := true, payload := [], reply := 0xE3 }))
      ∧ (x.caps = false ∨ ok' = false → error (.negotiateAlgorithms ok'))
      ∧ (x.algs = true → reply (.getDigests) (fun x => { x with
            payload := (List.range 8).flatMap (fun i => digestBytes (sha384 (Config.certificate i))), reply := 0x81 })
          ∧ signed (.keyExchange) (fun x g => { x with session := 1, key := some s.sessionKey, payload := g, reply := 0xE4 })
          ∧ (slot < 8 → reply (.getCertificate slot) (fun x => { x with payload := Config.certificate slot, reply := 0x82 })
            ∧ signed (.challenge slot) (fun x g => { x with payload := digestBytes (sha384 (Config.certificate slot)) ++ g, reply := 0x83 }))
          ∧ (∀ m, 16 ≤ block → block ≤ 79 → (s.objs.filter (fun o => o.part == part))[block - 16]? = some m →
              signed (.getMeasurements part block) (fun x g => { x with measured := some m.measure, payload := g, reply := 0xE0 }))
          ∧ signed (.getMeasurements part 1) (fun x g => { x with measured := some (sha384 (Config.datumFirmware s.trust.firmware)), payload := g, reply := 0xE0 })
          ∧ signed (.getMeasurements part 2) (fun x g => { x with measured := some (sha384 (Config.layoutBytes s.layout)), payload := g, reply := 0xE0 })
          ∧ signed (.getMeasurements part 3) (fun x g => { x with measured := some (sha384 Config.fieldFirmware), payload := g, reply := 0xE0 })
          ∧ (block = 0 ∨ (4 ≤ block ∧ block < 16) ∨ 80 ≤ block → error (.getMeasurements part block)))
      ∧ (x.algs = false → ∀ i ∈ [Instr.getDigests, .keyExchange, .getCertificate slot, .challenge slot, .getMeasurements part block], error i)
      ∧ (x.session = 1 → reply (.finish true) (fun x => { x with session := 2, payload := [], reply := 0xE5 }))
      ∧ (x.session ≠ 1 ∨ ok' = false → error (.finish ok'))
      ∧ (x.session = 2 → reply (.keyUpdate) (fun x => { x with keyUpdates := x.keyUpdates + 1, key := some s.sessionKey, payload := [], reply := 0xE9 })
          ∧ reply (.heartbeat) (fun x => { x with payload := [], reply := 0xE8 })
          ∧ reply (.endSession) (fun x => { x with session := 0, key := none, payload := [], reply := 0xEC }))
      ∧ (x.session ≠ 2 → ∀ i ∈ [Instr.keyUpdate, .heartbeat, .endSession, .keydel true slot part, .keyinst true []], error i)
      ∧ error (.keydel false slot part) ∧ error (.keyinst false []))
  ∧ (∀ (s : State) (l : List Byte) (slot part : Nat), let fn := s.cur.fn
      (s.spdm fn).session = 2 → s.trust.keys.length = 256 → slot < 256 →
      let mine := slot ∈ (s.partD part).keySlots
      let status (i : Instr) (n : Nat) (t : State) : Prop := Makes i s t ∧ t.trust.keyStatus = some n ∧ (t.spdm fn).payload = [BitVec.ofNat 8 n]
      (l.length = 112 → field l 0 1 = slot → field l 1 1 = part → field l 2 6 = 0 → field l 108 4 = 0 →
        (mine → s.trust.keys[slot]? = some none → ∃ t k, status (.keyinst true l) 0 t ∧ t.trust.keys[slot]? = some (some k) ∧ k.part = part
          ∧ k.model = word (field l 8 8) ∧ k.key.toNat = beValue ((l.drop 64).take 32) ∧ k.nonce.toNat = leValue ((l.drop 96).take 12)
          ∧ k.measure.toNat = beValue ((l.drop 16).take 48))
        ∧ (∀ k, mine → s.trust.keys[slot]? = some (some k) → ∃ t, status (.keyinst true l) 2 t ∧ t.trust.keys = s.trust.keys)
        ∧ (¬ mine → ∃ t, status (.keyinst true l) 1 t ∧ t.trust.keys = s.trust.keys))
      ∧ (l.length ≠ 112 → ∃ t, status (.keyinst true l) 3 t ∧ t.trust.keys = s.trust.keys)
      ∧ (mine → ∃ t, status (.keydel true slot part) 0 t ∧ t.trust.keys[slot]? = some none)
      ∧ (¬ mine → ∃ t, status (.keydel true slot part) 1 t ∧ t.trust.keys = s.trust.keys))
  ∧ (∀ s : State, ∃ t, Makes .datumFirmwareUpdate s t ∧ t.trust.keys.length = s.trust.keys.length ∧ ∀ k ∈ t.trust.keys, k = none)
  ∧ (∀ (s : State) (ci pasid : Nat) (c : Ctx), s.ctxs[ci]? = some c →
      (c.opened = true → c.tearing = false → c.pasid = pasid → s.ctxsWith (fun c => c.pasid == pasid) = [ci] → ∃ t, Makes (.pasidTeardown pasid) s t ∧ (t.ctx ci).tearing = true
        ∧ (t.ctx ci).lease = none ∧ (∀ bi ∈ s.aliveOf ci, (t.block bi).phase = .discarded)
        ∧ ∀ qi q, s.queues[qi]? = some q → q.ctx = ci → q.mode ≠ .closed → (t.queue qi).mode = .closed ∧ (t.queue qi).fault = some (8, 0, 0, word pasid))
      ∧ (c.tearing = true → (c.since + 50000 ≤ s.time.toNat ∨ (s.owedRecords ci = [] ∧ ∀ r ∈ s.fabric.out, r.answer ≠ none)) → ∃ t, Makes (.teardownComplete ci) s t ∧ (t.ctx ci).opened = false
        ∧ ∀ j ∈ t.jobs, (s.queue j.queue).ctx = ci → j.finished = true)
      ∧ (∀ (ji : Nat) (j : Job) (key : Nat → Nat), Good s → c.opened = true → c.tearing = true → c.since + 50000 ≤ s.time.toNat → (s.partD c.part).ring = none → s.jobs[ji]? = some j →
        (s.queue j.queue).ctx = ci → j.compl ≠ 0 → s.owedRecords ci = [(j.queue, j.compl)] → QueueWrites s j.queue j.compl 32 key →
        ∃ t, Makes (.teardownComplete ci) s t ∧ Written s t key (completion 1 0 0 0 0 s.time.toNat))
      ∧ (c.tearing = false → NotDue (.teardownComplete ci) s))
  ∧ (∀ (s : State) (p addr slots : Nat) (q : Part), s.part? p = some q →
      (q.run = true → ∃ t q', Makes (.tdiStop p) s t ∧ t.part? p = some q' ∧ q'.run = false ∧ ∀ k ∈ q.keySlots, ∀ x, t.trust.keys[k]? = some x → x = none)
      ∧ (q.run = false → NotDue (.tdiStop p) s) ∧ Makes (.tdiEnterRun p) s (s.updPart p (fun q => { q with run := true }))
      ∧ (slots ≠ 0 → Makes (.faultRingSetup p addr slots) s (s.updPart p (fun q => { q with ring := some (addr, slots, 0) }))))
  ∧ (∀ (s : State) (speed width stream : Nat),
      (speed ∈ [64, 32, 16, 8, 5, 2] → width ∈ [16, 8, 4, 1] → Makes (.hostLinkTrain speed width) s { s with host := { s.host with speed := speed, width := width } })
      ∧ (stream ≤ 32 → (∃ t, Makes (.ideKmRequest stream false) s t ∧ stream ∈ t.host.ideReady)
        ∧ (stream ∈ s.host.ideReady → ∃ t, Makes (.ideKmRequest stream true) s t ∧ stream ∈ t.host.ideOn ∧ stream ∉ t.host.ideReady)))

/-- R340 to R344, R347, R403 to R414: numbers, bindings, routes and ports; a request from a bound partition is performed once, inside its space and in its source's order, any other
refused in its response; an RRED element and an RSIG are applied to memory in their order, or refused once their place is gone; an answer, 200 µs without one or a device no port
reaches ends a request; the infill of a point writes its tile with the estimates of its lines, an integer one rounded to even, or compares it, and then writes its skip-map byte; the
closure controller steps by the largest misclosure. The model's choices: an assignment leaves every port untrained (log entry 84), a time-out fails at element 0 (83), what unbound and
bound mean (121), a later request waits 200 µs for the one before it (159), the pass and the map's order (103), that a binding removed refuses what still waits for it (168), the packets read from sequence numbers (165), and that a request the host has not been sent is not answered (148). -/
def Obligations.FabricEvents : Prop :=
  (∀ (s : State) (n : BitVec 9) (part dev rpart : Nat) (p : Part) (ports : List Nat), s.part? part = some p →
      ((∀ q ∈ s.parts, q.bindings = []) → ∃ t, Makes (.deviceNumberAssign n) s t ∧ t.fabric.devid = n.toNat ∧ t.fabric.assigned = true ∧ ∀ q ∈ t.fabric.ports, q.lanes = 0)
      ∧ (p.bindings ≠ [] → NotDue (.deviceNumberAssign n) s)
      ∧ ((∃ b ∈ p.bindings, b.1 = dev) ∨ (∃ q ∈ s.parts, (dev, rpart) ∈ q.bindings) → NotDue (.bindingInstall part dev rpart) s)
      ∧ (s.fabric.assigned = true → dev ≠ s.fabric.devid → dev < 512 → (∀ b ∈ p.bindings, b.1 ≠ dev) → (∀ q ∈ s.parts, (dev, rpart) ∉ q.bindings) →
        Makes (.bindingInstall part dev rpart) s (s.updPart part (fun p => { p with bindings := p.bindings ++ [(dev, rpart)] })))
      ∧ (let gone (x : RemoteIn) : Bool := x.dev == dev && p.bindings.contains (x.dev, x.part)
         dev ≠ s.fabric.devid → Makes (.bindingRemove part dev) s ({ s with fabric := { s.fabric with
           arrived := s.fabric.arrived.filter (fun x => !gone x)
           replies := s.fabric.replies ++ (s.fabric.arrived.filter gone).map (fun x : RemoteIn => (x.dev, x.seq, (⟨[], [], some 0⟩ : RemoteAnswer))) } }.updPart part
             (fun p => { p with bindings := p.bindings.filter (fun b => b.1 != dev) })))
      ∧ (ports ≠ [] → (∀ x ∈ ports, ∃ q, s.fabric.ports[x]? = some q ∧ q.part = some part) →
        Makes (.routeTableWrite part dev ports) s (s.updPart part (fun p => { p with routes := p.routes.filter (fun r => r.1 != dev) ++ [(dev, ports)] }))))
  ∧ (∀ (s : State) (n : Nat) (x : FabPort), s.fabric.ports[n]? = some x →
      let becomes (i : Instr) (y : FabPort) : Prop := ∃ t, Makes i s t ∧ t.fabric.ports[n]? = some y
      becomes (.flitCrcError n) { x with retries := x.retries + 1 } ∧ becomes (.portDown n) ⟨0, 0, x.part⟩
      ∧ (x.lanes = 8 ∨ x.lanes = 4 → becomes (.portRetrain n) ⟨x.lanes / 2, 0, x.part⟩) ∧ (x.lanes ≤ 2 → becomes (.portRetrain n) x)
      ∧ (s.fabric.assigned = true → becomes (.portTrain n) ⟨8, 0, x.part⟩) ∧ (s.fabric.assigned = false → NotDue (.portTrain n) s)
      ∧ becomes (.portAssign n none) { x with part := none } ∧ ∀ p, (s.part? p).isSome = true → becomes (.portAssign n (some p)) { x with part := some p })
  ∧ (∀ (s : State) (r : RemoteIn) (p : Part), Good s → s.parts.find? (fun p => p.bindings.contains (r.dev, r.part)) = some p → r.dev ≠ s.fabric.devid → s.fabric.assigned = true →
      let key (a : Nat) : Nat := s.hbmKey p.id a
      ((r.dev, r.seq) ∈ s.fabric.performed ∨ r.seq ≤ s.fabric.lastIn r.dev → NotDue (.remoteRequest r) s)
      ∧ (s.fabric.lastIn r.dev + 1 < r.seq → (∀ x ∈ s.fabric.early, x.1.dev ≠ r.dev) →
        Makes (.remoteRequest r) s { s with fabric := { s.fabric with early := s.fabric.early ++ [(r, s.time.toNat)] } })
      ∧ (∀ r₂ since, r.seq = s.fabric.lastIn r.dev + 1 → s.fabric.early = [(r₂, since)] → r₂.dev = r.dev → r₂.seq = r.seq + 1 → ∃ t, Makes (.remoteRequest r) s t
        ∧ t.fabric.early = [] ∧ t.fabric.performed = s.fabric.performed ++ [(r.dev, r.seq), (r.dev, r₂.seq)])
      ∧ (∀ since, s.fabric.early = [(r, since)] → s.fabric.lastIn r.dev + 1 < r.seq →
        (s.time.toNat < since + 200000 → s.overdue = s)
        ∧ (since + 200000 ≤ s.time.toNat → s.overdue.fabric.early = [] ∧ s.overdue.fabric.performed = s.fabric.performed ++ [(r.dev, r.seq)]))
      ∧ (r.seq = s.fabric.lastIn r.dev + 1 → (∀ x ∈ s.fabric.early, x.1.dev ≠ r.dev) →
        (∀ a n, r.op = .read a n → a + n ≤ s.hbmSize p.id → ∃ t x, Makes (.remoteRequest r) s t ∧ SameMemory s t ∧ (r.dev, r.seq) ∈ t.fabric.performed
            ∧ t.fabric.replies = s.fabric.replies ++ [(r.dev, r.seq, x)] ∧ x.failed = none ∧ x.bytes = (List.range n).map (fun i => memRead s.mem (key a + i)))
        ∧ (∀ a l, r.op = .write a l false → a + l.length ≤ s.hbmSize p.id → ∃ t, Makes (.remoteRequest r) s t ∧ Written s t (fun i => key a + i) l
            ∧ (r.dev, r.seq) ∈ t.fabric.performed ∧ t.fabric.replies = s.fabric.replies ++ [(r.dev, r.seq, ⟨[], [], none⟩)])
        ∧ (∀ a v, r.op = .amo 0 false a v → a + 8 ≤ s.hbmSize p.id → s.poisoned (key a) 8 = false → ∃ t, Makes (.remoteRequest r) s t
            ∧ (bytesAt t.mem (key a) 8).toNat = ((bytesAt s.mem (key a) 8).toNat + v.toNat) % 2 ^ 64 ∧ SameOutside s t (key a) 8)
        ∧ (∀ a v, r.op = .rsig a v → a + 8 ≤ s.hbmSize p.id → ∃ t, Makes (.remoteRequest r) s t ∧ SameMemory s t ∧ t.fabric.arrived = s.fabric.arrived ++ [r])
        ∧ (s.hbmSize p.id < (opSpan r.op).1 + (opSpan r.op).2 → ∃ t, Makes (.remoteRequest r) s t ∧ SameMemory s t ∧ t.fabric.arrived = s.fabric.arrived
            ∧ t.fabric.replies = s.fabric.replies ++ [(r.dev, r.seq, ⟨[], [], some 0⟩)])))
  ∧ (∀ (s : State) (r : RemoteIn), s.fabric.assigned = true → r.dev ≠ s.fabric.devid → r.seq = s.fabric.lastIn r.dev + 1 → (∀ x ∈ s.fabric.early, x.1.dev ≠ r.dev) →
      (∀ p ∈ s.parts, (r.dev, r.part) ∉ p.bindings) → ∃ t, Makes (.remoteRequest r) s t ∧ SameMemory s t ∧ t.fabric.arrived = s.fabric.arrived
        ∧ t.fabric.replies = s.fabric.replies ++ [(r.dev, r.seq, ⟨[], [], some 0⟩)])
  ∧ (∀ (s : State) (req n : Nat) (r : RemoteIn), Good s → s.fabric.arrived[req + n]? = some r →
      (∀ op fmt addr v scale, r.op = .rred op fmt addr v scale → (∃ x ∈ s.fabric.arrived.take (req + n), s.goesBefore r x = true) → NotDue (.rredApply req n) s)
      ∧ (∀ op fmt addr v scale, r.op = .rred op fmt addr v scale → fmt < 4 → (∀ x ∈ s.fabric.arrived.take (req + n), s.goesBefore r x = false) →
        let tb := if fmt = 1 ∨ fmt = 2 then 2 else 4
        (s.inKey r addr tb = none → ∃ t, Makes (.rredApply req n) s t ∧ SameMemory s t ∧ t.fabric.arrived = s.fabric.arrived.eraseIdx (req + n)
          ∧ (r.dev ≠ s.fabric.devid → t.fabric.replies = s.fabric.replies ++ [(r.dev, r.seq, ⟨[], [], some 0⟩)]))
        ∧ ∀ key, s.inKey r addr tb = some key →
        (s.poisoned key tb = false → ∃ t, Makes (.rredApply req n) s t
          ∧ (bytesAt t.mem key tb).toNat = rredNew op fmt (bytesAt s.mem key tb).toNat v scale % 2 ^ (8 * tb) ∧ SameOutside s t key tb
          ∧ t.fabric.arrived = s.fabric.arrived.eraseIdx (req + n))
        ∧ (s.poisoned key tb = true → ∃ t, Makes (.rredApply req n) s t ∧ SameMemory s t ∧ t.fabric.arrived = s.fabric.arrived.eraseIdx (req + n)))
      ∧ (∀ addr v, n = 0 → r.op = .rsig addr v → r.dev ≠ s.fabric.devid →
        ((∀ x ∈ s.fabric.arrived.take req, ¬ (x.dev = r.dev ∧ x.part = r.part)) → s.inKey r addr 8 = none → ∃ t, Makes (.rsigApply req) s t ∧ SameMemory s t
          ∧ t.fabric.arrived = s.fabric.arrived.eraseIdx req ∧ t.fabric.replies = s.fabric.replies ++ [(r.dev, r.seq, ⟨[], [], some 0⟩)])
        ∧ (∀ key, s.inKey r addr 8 = some key → (∀ x ∈ s.fabric.arrived.take req, ¬ (x.dev = r.dev ∧ x.part = r.part)) → s.poisoned key 8 = false → ∃ t, Makes (.rsigApply req) s t
          ∧ (bytesAt t.mem key 8).toNat = ((bytesAt s.mem key 8).toNat + v.toNat) % 2 ^ 64 ∧ SameOutside s t key 8 ∧ t.fabric.arrived = s.fabric.arrived.eraseIdx req)
        ∧ ((∃ x ∈ s.fabric.arrived.take req, x.dev = r.dev ∧ x.part = r.part) → NotDue (.rsigApply req) s)))
  ∧ (∀ (s : State) (r : RemoteIn) (a n key : Nat), r.dev ≠ s.fabric.devid → (s.inKey r a n = some key ↔
      ∃ p, s.parts.find? (fun p => p.bindings.contains (r.dev, r.part)) = some p ∧ a + n ≤ s.hbmSize p.id ∧ key = s.hbmKey p.id a))
  ∧ (∀ (s : State) (req : Nat) (o : RemoteOut) (dev seq a n wi : Nat) (l : List Byte) (bad : List Bool), s.fabric.out[req]? = some o → o.ops = [(dev, seq, .read a n)] →
      dev ≠ s.fabric.devid → o.use = .access wi →
      (o.answer = none → l.length = n → bad.length = n → s.reaches o.part dev = true → ∃ t o', Makes (.remoteResponse req ⟨l, bad, none⟩) s t ∧ t.fabric.out[req]? = some o' ∧ o'.answer = some ⟨l, bad, none⟩)
      ∧ (o.answer = none → o.sent + 200000 ≤ s.time.toNat ∨ s.reaches o.part dev = false → ∃ t o', Makes (.remoteRequestTimeout req) s t ∧ t.fabric.out[req]? = some o'
          ∧ o'.answer = some ⟨[], [], some 0⟩)
      ∧ (s.time.toNat < o.sent + 200000 → s.reaches o.part dev = true → NotDue (.remoteRequestTimeout req) s)
      ∧ (s.reaches o.part dev = false → NotDue (.remoteResponse req ⟨l, bad, none⟩) s)
      ∧ (o.answer ≠ none → NotDue (.remoteRequestTimeout req) s ∧ NotDue (.remoteResponse req ⟨l, bad, none⟩) s))
  ∧ (∀ (s : State) (ji p : Nat) (j : Job) (x : Skipped), Good s → s.jobs[ji]? = some j → s.infilling j = true → j.skipped.find? (fun x => x.point == p) = some x →
      (x.fault = none → x.step = 0 → s.infillReady ji j p = false → NotDue (.infill ji p) s)
      ∧ (x.fault = none → x.step = 0 → s.infillReady ji j p = true → (j.used p).all (·.isNone) = true → ∃ t j' y, Makes (.infill ji p) s t ∧ t.jobs[ji]? = some j'
        ∧ j'.skipped.find? (fun x => x.point == p) = some y ∧ y.step = 1 ∧ y.stat = (if x.check then 2 else 3))
      ∧ (∀ key, x.fault = none → x.step = 1 → x.placed = none → NoBarrier s key 1 → s.cplace (Copy.device (s.queue j.queue).ctx j.queue) false .write (word (field j.cov 80 8) + word p) = .at key →
        ∃ t j' y, Makes (.infill ji p) s t ∧ Written s t (fun _ => key) [BitVec.ofNat 8 (x.rung * 16 + (if x.pass2 then 4 else 0) + x.stat)] ∧ t.jobs[ji]? = some j'
          ∧ j'.skipped.find? (fun x => x.point == p) = some y ∧ y.step = 2)
      ∧ (∀ f, x.fault = some f → s.priWaits (s.ctxOfQueue j.queue) f.1 = true → ∀ b, NotDue (.infillFaultAnswer ji p b) s)
      ∧ (∀ f, x.fault = some f → s.priWaits (s.ctxOfQueue j.queue) f.1 = false → NotDue (.infill ji p) s
        ∧ (∃ t j' y, Makes (.infillFaultAnswer ji p true) s t ∧ t.jobs[ji]? = some j' ∧ j'.skipped.find? (fun x => x.point == p) = some y ∧ y.fault = none ∧ y.step = x.step)
        ∧ (∃ t j', Makes (.infillFaultAnswer ji p false) s t ∧ t.jobs[ji]? = some j' ∧ j'.covError = true)))
  ∧ (∀ (s : State) (ji p : Nat) (j : Job) (x : Skipped) (sk dk : List Nat), Good s → s.jobs[ji]? = some j → s.infilling j = true →
      j.skipped.find? (fun x => x.point == p) = some x → x.fault = none → x.step = 0 → x.rd = none → x.wr = none → x.placed = none → s.infillReady ji j p = true →
      let pts := (j.used p).filterMap (fun o => o.map (·.2))
      let srcs := if x.check then pts ++ [p] else pts
      let per := field j.cov 40 2 * field j.cov 42 2
      let ctx := Copy.device (s.queue j.queue).ctx j.queue
      pts ≠ [] → (srcs.flatMap j.tile).map (s.cplace ctx false .read) = sk.map .at → (∀ k ∈ sk, s.poisoned k 1 = false) →
      let tiles := (List.range srcs.length).map (fun k => elemsOf j.elemBytes per ((sk.drop (per * j.elemBytes * k)).map (fun a => ⟨memRead s.mem a, 0⟩)))
      let new := j.infillElems s (j.used p) tiles
      (x.check = false → (j.tile p).map (s.cplace ctx false .write) = dk.map .at → dk.Nodup → (∀ k ∈ dk, NoBarrier s k 1) → ∃ t j' y, Makes (.infill ji p) s t
        ∧ Written s t (fun i => dk.getD i 0) (new.flatMap (fun y => leBytes j.elemBytes y.1)) ∧ t.jobs[ji]? = some j'
        ∧ j'.skipped.find? (fun x => x.point == p) = some y ∧ y.step = 1 ∧ y.stat = 1)
      ∧ (x.check = true →
        let mis := ((tiles.getD pts.length []).zip new).map (fun y => misElem j.floor (elemV (field j.cov 5 1) y.1.1 false) (elemV (field j.cov 5 1) y.2.1 false))
        ∃ t j' y, Makes (.infill ji p) s t ∧ SameMemory s t ∧ t.jobs[ji]? = some j' ∧ j'.skipped.find? (fun x => x.point == p) = some y ∧ y.step = 1 ∧ y.stat = 2
          ∧ j'.compared = true ∧ (∀ m ∈ mis, f64Less j'.miss.toNat m = false) ∧ (j.compared = true → f64Less j'.miss.toNat j.miss.toNat = false)
          ∧ (j'.miss = 0 ∨ j'.miss.toNat ∈ mis ∨ j'.miss = j.miss)))
  ∧ (∀ (j : Job) (p : Nat),
      (field j.cov 6 1 = 0 → j.used p = j.sources p)
      ∧ (field j.cov 6 1 ≠ 0 → ∀ d x, (j.used p)[0]? = some (some (d, x)) → some (d, x) ∈ j.sources p
        ∧ ∀ d' x', some (d', x') ∈ j.sources p → d < d' ∨ (d = d' ∧ x ≤ x'))
      ∧ (∀ k d x, (j.sources p)[k]? = some (some (d, x)) →
        let source (y : Nat) : Prop := if j.pass1 p = true then y ∈ j.kept else j.source2 y = true
        (d, x) ∈ j.side p k ∧ source x ∧ ∀ e y, (e, y) ∈ j.side p k → e < d → ¬ source y))
  ∧ (∀ (s : State) (j : Job) (sides : List (Option (Nat × Nat × List (Nat × Bool)))) (i : Nat), sides.length = 4 → (∀ x, some x ∈ sides → 1 ≤ x.1) →
      i < field j.cov 40 2 * field j.cov 42 2 → field j.cov 5 1 < 16 →
      let fmt := field j.cov 5 1
      let val (k : Nat) : Option (Nat × FNum) := (sides.getD k none).map (fun x => let e := x.2.2.getD i (0, false); (x.1, elementOf fmt e.1 e.2))
      ∃ v bad, (j.infillElems s (sides.map (·.map (fun x => (x.1, x.2.1)))) (sides.filterMap (·.map (fun x => x.2.2))))[i]? = some (v, bad)
        ∧ (bad = true ↔ ∃ x, some x ∈ sides ∧ (x.2.2.getD i (0, false)).2 = true)
        ∧ ∀ x, meanOf (lineOf (val 0) (val 1)) (lineOf (val 2) (val 3)) = some x → InfillGives fmt x v)
  ∧ (∀ (j : Job) (p q : Nat) (a b : Bool) (m : Rat), let fmt := field j.cov 5 1
      fmt < 16 → meaning 1 (field j.cov 32 4) = .fin false m →
      let floor : Rat := if m ≠ 0 then m else if 8 ≤ fmt then 1 else if fmt = 6 then two (-12) else if fmt = 7 then two (-8) else two (leastExp fmt)
      MisclosureIs floor (elementOf fmt p a) (elementOf fmt q b) (misElem j.floor (elemV fmt p a) (elemV fmt q b)))
  ∧ (∀ (s : State) (ji : Nat) (j : Job) (q : Queue), s.jobs[ji]? = some j → s.queues[j.queue]? = some q →
      (j.cov = [] ∨ j.compared = false → s.closure ji = s)
      ∧ (j.cov ≠ [] → j.compared = true → (s.closure ji).jobs[ji]? = some { j with compared := false, miss := 0 } ∧
        let e := meaning 0 j.miss.toNat
        let x : Queue := { q with covRun := 0 }
        (s.closure ji).queues[j.queue]? = some (
          if (meaning 1 (field j.cov 24 4)).less e then
            (if q.covFull then x else if q.covRung = 0 then { x with covFull := true } else { x with covRung := q.covRung - 1 })
          else if e.less (meaning 1 (field j.cov 28 4)) then
            (if q.covRun + 1 < field j.cov 4 1 then { q with covRun := q.covRun + 1 }
            else if q.covFull then { x with covFull := false } else if q.covRung < field j.cov 2 1 then { x with covRung := q.covRung + 1 } else x)
          else x)))
  ∧ (∀ (n : Int) (d : Nat), 0 < d → let q := evenDiv n d
      2 * (n - q * d) ≤ d ∧ -(d : Int) ≤ 2 * (n - q * d) ∧ (2 * (n - q * d) = d ∨ 2 * (n - q * d) = -d → q % 2 = 0))

/-! ### Decoding (spec/01, spec/18) -/

/-- R15 to R20, R367: a word of each group, written out field by field, and the manual's own words of R31 and of the plumb example, are the
instructions they stand for.

R22, R23: what a word that is no instruction is rejected as: the major first, then the function value, then privilege (the level a function
needs goes with the rejection), then must-be-zero fields and the illegal values of R21; R367: a plumb operation 0 or above 20, and a plumb word with an
unused bit set, are refused. -/
def Obligations.DecodedAndRejectedWords : Prop :=
  ((∀ (d a b c : Reg) (x : BitVec 1) (k : BitVec 3) (q : BitVec 2) (i : BitVec 16) (u : BitVec 21) (o : BitVec 13) (n : BitVec 12) (j : BitVec 26),
     decodeWord (0x01#6 ++ d ++ a ++ b ++ x ++ 1#5 ++ 0#5) = .instr (.sub d a b x)
     ∧ decodeWord (0x02#6 ++ d ++ a ++ i) = .instr (.addi d a i)
     ∧ decodeWord (0x0A#6 ++ d ++ u) = .instr (.lih d u)
     ∧ decodeWord (0x0B#6 ++ d ++ a ++ 5#3 ++ o) = .instr (.ldsN16 d a o)
     ∧ decodeWord (0x0C#6 ++ d ++ a ++ 3#3 ++ o) = .instr (.sts64 d a o)
     ∧ decodeWord (0x13#6 ++ a ++ b ++ i) = .instr (.bge a b i)
     ∧ decodeWord (0x16#6 ++ j) = .instr (.jal j)
     ∧ decodeWord (0x19#6 ++ 0#2 ++ k ++ 0#5 ++ i) = .instr (.brd k i)
     ∧ decodeWord (0x1C#6 ++ d ++ 0#5 ++ 0#4 ++ n) = .instr (.srr d n)
     ∧ decodeWord (0x22#6 ++ d ++ a ++ b ++ x ++ 13#5 ++ 0#5) = .instr (.vabsd d a b x)
     ∧ decodeWord (0x23#6 ++ d ++ a ++ b ++ x ++ 3#5 ++ c) = .instr (.vfnms d a b x c)
     ∧ decodeWord (0x29#6 ++ 0#2 ++ k ++ 0#2 ++ k ++ 0#2 ++ k ++ 0#1 ++ 3#5 ++ 0#5) = .instr (.mandn k k k)
     ∧ decodeWord (0x2A#6 ++ d ++ a ++ b ++ 0#1 ++ 2#5 ++ 0#5) = .instr (.vldx d a b)
     ∧ decodeWord (0x2D#6 ++ d ++ a ++ 0#4 ++ 0#12) = .instr (.sbind d a)
     ∧ decodeWord (0x32#6 ++ 0#3 ++ q ++ a ++ b ++ x ++ 2#5 ++ 0#5) = .instr (.mmaz q a b x)
     ∧ decodeWord (0x34#6 ++ d ++ a ++ b ++ 0#1 ++ 3#5 ++ c) = .instr (.cpyBox d a b 0 c)
     ∧ decodeWord (0x35#6 ++ 0#5 ++ a ++ b ++ 0#1 ++ 3#5 ++ 0#5) = .instr (.barWait a b)
     ∧ decodeWord (0x37#6 ++ 0#5 ++ a ++ b ++ 0#1 ++ 1#5 ++ 0#5) = .instr (.rsig a b))
   ∧ decodeWord 0x25200051#32 = .instr (.li 9 81) ∧ decodeWord 0x84092000#32 = .instr (.mode 0 9)
   ∧ decodePlumb [0x8004] = some (.plumbWaittl 0 1) ∧ decodePlumb [0x9840] = some (.plumbEmit 2) ∧ decodePlumb [0x6301] = some (.plumbBrf 3 1)
   ∧ decodePlumb [0xA000] = some .plumbEnd
   ∧ ∀ (n l : BitVec 8) (rest : List (BitVec 16)), decodePlumb ((13#5 ++ n ++ 0#3) :: (0#8 ++ l) :: rest) = some (.plumbLoopn n (0#8 ++ l)))
  ∧ ((∀ low : BitVec 26,
     decodeWord (0x00#6 ++ low) = .illegal .illegalWord .k
     ∧ (∀ m ∈ [0x2E#6, 0x2F#6, 0x39#6, 0x3A#6, 0x3B#6], decodeWord (m ++ low) = .illegal .unassignedMajor .k)
     ∧ ∀ m ∈ [0x3C#6, 0x3D#6, 0x3E#6, 0x3F#6], decodeWord (m ++ low) = .illegal .laterGeneration .k)
   ∧ (∀ (d a b c : Reg) (x : BitVec 1) (fn : BitVec 5) (n : BitVec 12),
     (26 ≤ fn.toNat → decodeWord (0x01#6 ++ d ++ a ++ b ++ x ++ fn ++ c) = .illegal .reservedFunction .k)
     ∧ (c ≠ 0 → decodeWord (0x01#6 ++ d ++ a ++ b ++ x ++ 0#5 ++ c) = .illegal .reservedField .k)
     ∧ (n ≠ 0 → decodeWord (0x1B#6 ++ 0#10 ++ 0#4 ++ n) = .illegal .reservedField .k)
     ∧ (n ≠ 0 → decodeWord (0x1B#6 ++ 0#10 ++ 4#4 ++ n) = .illegal .reservedField .h)
     ∧ (4 ≤ fn.toNat → decodeWord (0x2A#6 ++ d ++ a ++ b ++ x ++ fn ++ c) = .illegal .reservedFunction .k))
   ∧ (∀ (d a b c : Reg) (x : BitVec 1) (fn : BitVec 5) (v : BitVec 14) (imm : BitVec 16) (sq : BitVec 1) (od : BitVec 2) (scp : BitVec 3)
       (frm tgt : BitVec 6) (ms : BitVec 10) (fm : BitVec 2) (op : BitVec 3),
     let bad (z : IWord) : Prop := decodeWord z = .illegal .reservedField .k
     (c.extractLsb' 2 3 = 7#3 → (fn.toNat < 10 → bad (0x0D#6 ++ d ++ a ++ b ++ x ++ fn ++ c) ∧ bad (0x2C#6 ++ d ++ a ++ b ++ x ++ fn ++ c))
       ∧ bad (0x0E#6 ++ d ++ a ++ b ++ x ++ 0#5 ++ c))
     ∧ bad (0x0F#6 ++ 0#10 ++ 0#4 ++ 0#6 ++ sq ++ od ++ 7#3)
     ∧ (16 ≤ b.toNat ∨ 16 ≤ c.toNat → bad (0x26#6 ++ d ++ a ++ b ++ 0#1 ++ 0#5 ++ c))
     ∧ bad (0x06#6 ++ d ++ a ++ 3#2 ++ v)
     ∧ (imm = 0 ∨ 4095 < imm.toNat → bad (0x18#6 ++ 0#5 ++ a ++ imm))
     ∧ bad (0x0F#6 ++ 0#10 ++ 0#4 ++ 0#6 ++ sq ++ 0#2 ++ scp)
     ∧ (od ≠ 3 → bad (0x0F#6 ++ 0#10 ++ 0#4 ++ 0#6 ++ 1#1 ++ od ++ scp))
     ∧ (frm = 0 ∨ tgt = 0 → bad (0x0F#6 ++ 0#10 ++ 1#4 ++ frm ++ tgt))
     ∧ bad (0x20#6 ++ d ++ a ++ 0#4 ++ ms ++ 0#2)
     ∧ (fn.toNat < 6 → bad (0x34#6 ++ d ++ a ++ b ++ 1#1 ++ fn ++ 31#5))
     ∧ (3 ≤ b.toNat → bad (0x01#6 ++ d ++ a ++ b ++ 0#1 ++ 24#5 ++ 0#5) ∧ bad (0x01#6 ++ d ++ a ++ b ++ 0#1 ++ 25#5 ++ 0#5))
     ∧ (2 < op.toNat → bad (0x37#6 ++ d ++ a ++ b ++ 0#1 ++ 0#5 ++ fm ++ op)))
   ∧ ∀ (op : BitVec 5) (v : BitVec 11) (rest : List (BitVec 16)),
     (op = 0 ∨ 21 ≤ op.toNat → decodePlumb ((op ++ v) :: rest) = none) ∧ (v ≠ 0 → decodePlumb ((20#5 ++ v) :: rest) = none))

/-- R15 to R21, R367: decoding and encoding agree. The word of every well-formed wave instruction decodes to it, and a word that decodes is that
instruction's own word, whose fields are legal; the same of the plumb words at the head of any list. -/
def Obligations.WordsRoundTrip : Prop :=
  (∀ (i : Instr) (z : IWord), encodeWord i = some z → wf i = true → decodeWord z = .instr i)
  ∧ (∀ (i : Instr) (z : IWord), decodeWord z = .instr i → encodeWord i = some z ∧ wf i = true)
  ∧ (∀ (i : Instr) (ws rest : List (BitVec 16)), encodePlumb i = some ws → decodePlumb (ws ++ rest) = some i)
  ∧ ∀ (i : Instr) (ws : List (BitVec 16)), decodePlumb ws = some i → ∃ e rest, encodePlumb i = some e ∧ ws = e ++ rest

/-! ### A step (spec/08, spec/10, spec/21) -/

/-- R203, R222: a step runs the decoded instruction. A turn of the agenda comes next as it stands; in a core's turn the ready wave it picks issues, in a wave's turn that wave, from its
fetch buffer or, where the program counter's page is here and the cluster holds no copy of the word, from memory; its instruction is executed in the state that has fetched it. An
instruction that R63 lets not go ahead of an access before its fault point is held, and so is every instruction at level 0 once an async trap is pending and cannot be taken yet
(spec/19 R390), but one whose device-class read has been sent (R317). The empty read that a split owes is raised, and a comparator hit, unless the split is found not ready (R396),
comes before the instruction (R178): the empty read owed, the moment of the hit and the device-class read are read as log entries 160, 78 and 162 say. What a step adds around `exec` is accounts and time only: the lane-cycle counters, the allowance, CYCLE and TIME (log entries 2, 3, 6). -/
def Obligations.StepRunsDecoded : Prop :=
  (∀ (s : State) (t : Turn) (l : List Turn), s.agenda = t :: l → s.begin.nextTurn exec = .turn { s.begin with agenda := l } t)
  ∧ (∀ (s u : State) (core wi si : Nat) (w : Wave) (sp : Split),
      (s.begin.nextTurn exec = .turn u (.core core) ∧ u.pick exec core = some wi
        ∨ s.begin.nextTurn exec = .turn u (.wave wi) ∧ u.ready wi = true ∧ u.homeOf wi = core ∧ u.allowed exec core (u.levelOf wi) = true) → u.waves[wi]? = some w → u.issuing w = some si →
      w.splits[si]? = some sp →
      (∀ t, sp.due = some t → step s = u.slotDone exec core (some wi) none (.next (u.trapOr u wi si sp.pc t false false)))
      ∧ (sp.due = none → u.hitting w sp ≠ [] → u.found wi si ((u.issueSplit wi si w sp).out exec) = false →
        step s = u.slotDone exec core (some wi) none (exec (.comparatorHit wi) u))
      ∧ (sp.due = none → u.hitting w sp = [] ∨ u.found wi si ((u.issueSplit wi si w sp).out exec) = true → u.asyncDue w = false →
      let v : State := { u with cur := ⟨wi, si, u.cur.run, u.cur.fn⟩ }.serve w
      let cl := clusterOf (u.coreOf w)
      let goesOn := w.asyncPends = false ∨ w.lookHeld = true
      (¬ goesOn → step s = u.slotDone exec core (some wi) none (.next (u.stall wi si)))
      ∧ (∀ (x : IWord) (l : List IWord) (i : Instr), goesOn → sp.buffered = x :: l → decodeWord x = .instr i →
        let y := v.buffer wi si sp.pc (x :: l)
        (w.mayIssue i = true → step s = y.slotDone exec core (some wi) (some i) (exec i y))
        ∧ (w.mayIssue i = false → step s = u.slotDone exec core (some wi) none (.next (y.stall wi si))))
      ∧ (∀ (key : Nat) (dc : Bool) (i : Instr), goesOn → w.mayIssue i = true → sp.buffered = [] → highBits sp.pc = false → bit sp.pc.toNat 56 = false →
        v.translate (v.ctxOf w) (v.coreOf w) sp.pc.toNat .fetch = .ok (.here key dc) → ((v.dropLine cl key).cluster cl).icache.find? (fun y => y.1 == key) = none →
        v.poisoned key 4 = false → decodeWord (bytesAt v.mem key 4) = .instr i →
        ∃ l, let y := (((v.dropLine cl key).fillTlb (v.ctxOf w) (v.coreOf w) sp.pc.toNat).keepCode cl key (bytesAt v.mem key 4 :: l)).buffer wi si sp.pc (bytesAt v.mem key 4 :: l)
          step s = y.slotDone exec core (some wi) (some i) (exec i y))))
  ∧ (∀ (s u : State) (n : Nat) (r : PlumbRun) (i : Instr), s.begin.nextTurn exec = .turn u (.plumb n) → u.runs[n]? = some r → r.finished = false →
      decodePlumb (r.words.drop r.pc) = some i → step s = u.timed exec (exec i { u with cur := ⟨u.cur.wave, u.cur.split, n, u.cur.fn⟩ }))
  ∧ (∀ (s u : State) (i : Instr), s.begin.nextTurn exec = .turn u (.event i) → step s = u.timed exec (exec i u))
  ∧ (∀ (s u : State) (fn : Nat) (i : Instr), s.begin.nextTurn exec = .turn u (.message fn i) →
      step s = u.timed exec (exec i { u with cur := ⟨u.cur.wave, u.cur.split, u.cur.run, fn⟩ }))
  ∧ (∀ (s u : State) (cl ns : Nat), s.begin.nextTurn exec = .turn u (.idle cl ns) → step s = u.timed exec (.next (u.setIdle cl ns)))
  ∧ ∀ (s u : State) (core : Nat) (ran : Option Nat) (i : Option Instr),
      (∃ t, s.timed exec (.next u) = .next t ∧ { t with time := u.time, cores := u.cores, clusters := u.clusters } = u
        ∧ t.cores.map (fun c => { c with cycle := 0 }) = u.cores.map (fun c => { c with cycle := 0 }))
      ∧ ∃ t, s.slotDone exec core ran i (.next u) = .next t
        ∧ { t with time := u.time, cores := u.cores, clusters := u.clusters, vfiles := u.vfiles } = u
        ∧ t.vfiles.map (fun f => f.v) = u.vfiles.map (fun f => f.v)

/-- The state after reset: R214 with Table 10.3 (HCOL by class and self-test, the power cap and the lane cap 64), R216 (every slot free), R395 and Table 21.2 (no
comparator, a trace buffer of 2^12 bytes, off), R376 (every key slot empty); CYCLE 0 on every core, and the invariants hold. The other fields of reset are
the model's (log entry 4). -/
def Obligations.ResetState : Prop :=
  State.reset.cores.length = 512
  ∧ (∀ (n : Nat) (c : CoreSt), State.reset.cores[n]? = some c →
      (isE n = true → c.hcol = 16) ∧ (isE n = false → c.hcol = if Config.columnFault n then 32 else 64) ∧ c.power = 64 ∧ c.vlcap = 64
      ∧ c.cycle = 0 ∧ c.slots = List.replicate (if isE n then 8 else 16) ⟨0, 0, 0, .none, 0⟩
      ∧ c.dcAddr = Vector.replicate 8 0 ∧ c.dcCtl = Vector.replicate 8 0 ∧ c.trcBase = 0 ∧ c.trcCtl = 12 ∧ c.trcPos = 0)
  ∧ (∀ n, n < 256 → State.reset.trust.keys[n]? = some none)
  ∧ State.reset.waves = [] ∧ Good State.reset

/-- Every step keeps the canonical form of memory and of the accumulators: addresses rise, and no entry equals what an unlisted one reads as (log
entry 1). -/
def Obligations.StepKeepsStorage : Prop :=
  ∀ s s' : State, Memory.wf s.mem = true → assocWf 0#32 none s.accs = true → step s = .next s' →
    Memory.wf s'.mem = true ∧ assocWf 0#32 none s'.accs = true

/-- R42, R129, R224: every step keeps VL of every wave within VLMAX and the lane caps of cores and pins within 64 lanes, beside the canonical forms and a vector file for every
wave (`Good`). -/
def Obligations.StepKeepsVectorLength : Prop :=
  ∀ s s' : State, Good s → step s = .next s' → Good s'

/-! ### Memory (spec/00, spec/16) -/

/-- R9, R332, R333: a byte read is the byte last written there, other bytes stay; wide accesses are little-endian; a granule written whole loses its poison; every
memory operation keeps the canonical form, in which equal memories are equal lists (log entry 1). -/
def Obligations.MemoryReadAfterWrite : Prop :=
  (∀ (m : List Host.Cell) (a b : Nat) (v : Byte), Memory.wf m = true →
    Memory.wf (memWrite m a v) = true ∧ memRead (memWrite m a v) b = if b = a then v else memRead m b)
  ∧ (∀ m m' : List Host.Cell, Memory.wf m = true → Memory.wf m' = true → (∀ a, memRead m a = memRead m' a) → m = m')
  ∧ ∀ s : State, Memory.wf s.mem = true →
    (∀ (a n v : Nat), SameOutside s (s.writeN a n v) a n ∧ (s.writeN a n v).readN a n = v % 256 ^ n
      ∧ (∀ i, i < n → memRead (s.writeN a n v).mem (a + i) = BitVec.ofNat 8 (v / 256 ^ i)) ∧ Memory.wf (s.writeN a n v).mem = true)
    ∧ (∀ (a n : Nat), Memory.wf (s.clearBytes a n).mem = true
      ∧ ∀ b, memRead (s.clearBytes a n).mem b = if a ≤ b ∧ b < a + n then 0 else memRead s.mem b)
    ∧ ∀ (a b n : Nat), Apart a b n → Memory.wf (s.moveBytes a b n).mem = true
      ∧ ∀ x, memRead (s.moveBytes a b n).mem x =
          if b ≤ x ∧ x < b + n then memRead s.mem (a + (x - b)) else if a ≤ x ∧ x < a + n then 0 else memRead s.mem x
end

