-- ==== Sys2Proof/Laws/Issue.lean ====
section
/-! SUPPORT. What the shared shapes of a wave's instruction do: the gates open on ready operands, and a body that completes moves the split on. -/

namespace Sys2Proof.Laws

open Sys2Proof.Machine Sys2Proof.Claims

/-- No source is found wanting when none is. -/
theorem sources_filter_none (u : Uses) (bad : Bool → Nat → Bool)
    (hs : ∀ r ∈ u.ss, bad false r.1.toNat = false) (hv : ∀ r ∈ u.vs, bad true r.1 = false) :
    (u.sources bad).filter (fun x => x.2.2.2) = [] := by
  rw [List.filter_eq_nil_iff]
  intro x hx
  simp only [Uses.sources, byPos, List.mem_append, List.mem_filter, List.mem_map] at hx
  obtain (⟨(⟨r, hr, rfl⟩ | ⟨r, hr, rfl⟩), -⟩ | ⟨(⟨r, hr, rfl⟩ | ⟨r, hr, rfl⟩), -⟩) | ⟨(⟨r, hr, rfl⟩ | ⟨r, hr, rfl⟩), -⟩ := hx
  all_goals first | simp [hs r hr] | simp [hv r hr]

/-- No source is empty when all are full. -/
theorem emptySources_none (w : Wave) (u : Uses) (hs : ∀ r ∈ u.ss, w.sIsFull r.1 = true) (hv : ∀ r ∈ u.vs, w.vIsFull r.1 = true) :
    w.emptySources u = [] := sources_filter_none u _ (fun r h => by simp [hs r h]) (fun r h => by simp [hv r h])

/-- No source is read poisoned when none is. -/
theorem poisonedSources_none (w : Wave) (u : Uses) (hs : ∀ r ∈ u.ss, w.sIsPois r.1 = false) (hr : ∀ r ∈ u.vread, w.vIsPois r.1 = false) :
    w.poisonedSources u = [] :=
  sources_filter_none { u with vs := u.vread } _ (fun r h => by simp [hs r h]) (fun r h => by simp [hr r h])

/-- The gate of R57 opens on full sources. -/
theorem emptyGate_open (w : Wave) (u : Uses) (k : Unit → Res) (hs : ∀ r ∈ u.ss, w.sIsFull r.1 = true)
    (hv : ∀ r ∈ u.vs, w.vIsFull r.1 = true) : w.emptyGate u k = k () := by
  simp [Wave.emptyGate, emptySources_none w u hs hv]

/-- The gates of R56, R57 and R193 open on operands that are full and, where read, not poisoned, whatever checks come before the poison. -/
theorem gateWith_open (w : Wave) (u : Uses) (early : Trap → Bool) (meets : Nat × Bool → Bool) (k : Unit → Res)
    (hs : ∀ r ∈ u.ss, w.sIsFull r.1 = true ∧ w.sIsPois r.1 = false)
    (hv : ∀ r ∈ u.vs, w.vIsFull r.1 = true) (hr : ∀ r ∈ u.vread, w.vIsPois r.1 = false)
    (hd : ∀ r ∈ u.sd, w.sIsFull r = true) (hvd : ∀ r ∈ u.vd, w.vIsFull r = true) : w.gateWith u early meets k = k () := by
  rw [Wave.gateWith, emptyGate_open w u _ (fun r h => (hs r h).1) hv]
  simp [poisonedSources_none w u (fun r h => (hs r h).2) hr, List.all_eq_true.2 hd, List.all_eq_true.2 hvd]

/-- The same of the gate of a scalar instruction. -/
theorem gate_open (w : Wave) (u : Uses) (k : Unit → Res)
    (hs : ∀ r ∈ u.ss, w.sIsFull r.1 = true ∧ w.sIsPois r.1 = false)
    (hv : ∀ r ∈ u.vs, w.vIsFull r.1 = true) (hr : ∀ r ∈ u.vread, w.vIsPois r.1 = false)
    (hd : ∀ r ∈ u.sd, w.sIsFull r = true) (hvd : ∀ r ∈ u.vd, w.vIsFull r = true) : w.gate u k = k () :=
  gateWith_open w u _ _ k hs hv hr hd hvd

/-- An instruction of the split that issues is retired as its body says. -/
theorem runWave_eq {s : State} {wi si : Nat} {w : Wave} {sp : Split} (h : Issues s wi si w sp) (k : Nat → Nat → Wave → Split → Res) :
    s.runWave k = .next (s.retire wi si sp (k wi si w sp)) := by
  obtain ⟨hw, hs, rfl, rfl⟩ := h
  simp [State.runWave, hw, hs]

/-- A body that completes at a target in range moves the split there. -/
theorem retire_goto {s s' : State} {wi si : Nat} {sp : Split} {next stepPc : Word} {taken : Bool}
    (h : InRange sp next stepPc taken) : s.retire wi si sp (.goto s' next stepPc taken) = moved s' wi si sp next stepPc taken := by
  have : (highBits (goes sp next stepPc taken).1 && (taken || (goes sp next stepPc taken).1 != next)) = false := by
    cases hb : highBits (goes sp next stepPc taken).1
    · rfl
    · obtain ⟨rfl, e⟩ := h hb
      simp [e]
  rw [goes] at this
  simp only [State.retire, State.complete, this, moved, goes]
  rfl

/-- A body that completes moves the split to the next word. -/
theorem retire_done {s s' : State} {wi si : Nat} {sp : Split} (h : Straight sp) :
    s.retire wi si sp (.done s') = stepped s' wi si sp := retire_goto h

/-- A scalar instruction whose operands are ready runs its body. -/
theorem scalar_eq {s : State} {wi si : Nat} {w : Wave} {sp : Split} (h : Issues s wi si w sp) {ss : List (Reg × Nat)} {sd : List Reg}
    (hr : Reads w (ss.map (·.1))) (hw : Writes w sd) (k : Nat → Nat → Wave → Split → Res) :
    s.scalar ss sd k = .next (s.retire wi si sp (k wi si w sp)) := by
  rw [State.scalar, runWave_eq h,
    gate_open w { ss := ss, sd := sd } _ (fun r hm => hr r.1 (List.mem_map_of_mem hm)) (by simp) (by simp) hw (by simp)]

/-- A scalar instruction of one result. -/
theorem compute_eq {s : State} {wi si : Nat} {w : Wave} {sp : Split} (h : Issues s wi si w sp) (hst : Straight sp)
    {ss : List (Reg × Nat)} {d : Reg} (hr : Reads w (ss.map (·.1))) (hw : Writes w [d]) (f : Wave → Word) :
    s.compute ss d f = .next (stepped (s.setReg wi d (f w)) wi si sp) := by
  rw [State.compute, scalar_eq h hr hw, retire_done hst]

end Sys2Proof.Laws
end

