-- ==== Sys2Proof/Laws/State.lean ====
section
/-! SUPPORT. What each update of the state does to each field: one simp lemma a field, true by rfl; and what `updAt` does to a list. -/

namespace Sys2Proof.Machine

/-! ### One element of a list changed -/

@[simp] theorem updAt_nil {α : Type} (i : Nat) (f : α → α) : updAt [] i f = [] := by cases i <;> rfl

/-- The element at a place of an updated list. -/
theorem updAt_get {α : Type} (l : List α) (i j : Nat) (f : α → α) :
    (updAt l i f)[j]? = if j = i then l[j]?.map f else l[j]? := by
  induction l generalizing i j with
  | nil => simp
  | cons x xs ih => cases i <;> cases j <;> simp [updAt, ih]

@[simp] theorem updAt_get_self {α : Type} (l : List α) (i : Nat) (f : α → α) : (updAt l i f)[i]? = l[i]?.map f := by
  simp [updAt_get]

theorem updAt_get_other {α : Type} (l : List α) {i j : Nat} (f : α → α) (h : j ≠ i) : (updAt l i f)[j]? = l[j]? := by
  simp [updAt_get, h]

@[simp] theorem updAt_length {α : Type} (l : List α) (i : Nat) (f : α → α) : (updAt l i f).length = l.length := by
  induction l generalizing i with
  | nil => simp
  | cons x xs ih => cases i <;> simp [updAt, ih]

/-- What an updated list holds. -/
theorem updAt_forall {α : Type} {p : α → Prop} {l : List α} (i : Nat) {f : α → α} (h : ∀ x ∈ l, p x) (hf : ∀ x ∈ l, p x → p (f x)) :
    ∀ x ∈ updAt l i f, p x := by
  induction l generalizing i with
  | nil => simp
  | cons x xs ih =>
    simp only [List.forall_mem_cons] at h hf
    cases i with
    | zero => simpa [updAt] using ⟨hf.1 h.1, h.2⟩
    | succ i => simpa [updAt] using ⟨h.1, ih i h.2 hf.2⟩

/-- Two changes at one place are one. -/
theorem updAt_updAt {α : Type} (l : List α) (i : Nat) (f g : α → α) : updAt (updAt l i f) i g = updAt l i (fun x => g (f x)) := by
  induction l generalizing i with
  | nil => simp
  | cons x xs ih => cases i <;> simp [updAt, ih]

/-! ### updWave -/

@[simp] theorem State.updWave_waves (s : State) (i : Nat) (f : Wave → Wave) : (s.updWave i f).waves = updAt s.waves i f := rfl
@[simp] theorem State.updWave_vfiles (s : State) (i : Nat) (f : Wave → Wave) : (s.updWave i f).vfiles = s.vfiles := rfl
@[simp] theorem State.updWave_blocks (s : State) (i : Nat) (f : Wave → Wave) : (s.updWave i f).blocks = s.blocks := rfl
@[simp] theorem State.updWave_gangs (s : State) (i : Nat) (f : Wave → Wave) : (s.updWave i f).gangs = s.gangs := rfl
@[simp] theorem State.updWave_cores (s : State) (i : Nat) (f : Wave → Wave) : (s.updWave i f).cores = s.cores := rfl
@[simp] theorem State.updWave_clusters (s : State) (i : Nat) (f : Wave → Wave) : (s.updWave i f).clusters = s.clusters := rfl
@[simp] theorem State.updWave_parts (s : State) (i : Nat) (f : Wave → Wave) : (s.updWave i f).parts = s.parts := rfl
@[simp] theorem State.updWave_ctxs (s : State) (i : Nat) (f : Wave → Wave) : (s.updWave i f).ctxs = s.ctxs := rfl
@[simp] theorem State.updWave_queues (s : State) (i : Nat) (f : Wave → Wave) : (s.updWave i f).queues = s.queues := rfl
@[simp] theorem State.updWave_jobs (s : State) (i : Nat) (f : Wave → Wave) : (s.updWave i f).jobs = s.jobs := rfl
@[simp] theorem State.updWave_objs (s : State) (i : Nat) (f : Wave → Wave) : (s.updWave i f).objs = s.objs := rfl
@[simp] theorem State.updWave_copies (s : State) (i : Nat) (f : Wave → Wave) : (s.updWave i f).copies = s.copies := rfl
@[simp] theorem State.updWave_bars (s : State) (i : Nat) (f : Wave → Wave) : (s.updWave i f).bars = s.bars := rfl
@[simp] theorem State.updWave_runs (s : State) (i : Nat) (f : Wave → Wave) : (s.updWave i f).runs = s.runs := rfl
@[simp] theorem State.updWave_shoots (s : State) (i : Nat) (f : Wave → Wave) : (s.updWave i f).shoots = s.shoots := rfl
@[simp] theorem State.updWave_accs (s : State) (i : Nat) (f : Wave → Wave) : (s.updWave i f).accs = s.accs := rfl
@[simp] theorem State.updWave_mem (s : State) (i : Nat) (f : Wave → Wave) : (s.updWave i f).mem = s.mem := rfl
@[simp] theorem State.updWave_pois (s : State) (i : Nat) (f : Wave → Wave) : (s.updWave i f).pois = s.pois := rfl
@[simp] theorem State.updWave_fabric (s : State) (i : Nat) (f : Wave → Wave) : (s.updWave i f).fabric = s.fabric := rfl
@[simp] theorem State.updWave_trust (s : State) (i : Nat) (f : Wave → Wave) : (s.updWave i f).trust = s.trust := rfl
@[simp] theorem State.updWave_host (s : State) (i : Nat) (f : Wave → Wave) : (s.updWave i f).host = s.host := rfl
@[simp] theorem State.updWave_melt (s : State) (i : Nat) (f : Wave → Wave) : (s.updWave i f).melt = s.melt := rfl
@[simp] theorem State.updWave_rfz (s : State) (i : Nat) (f : Wave → Wave) : (s.updWave i f).rfz = s.rfz := rfl
@[simp] theorem State.updWave_portBound (s : State) (i : Nat) (f : Wave → Wave) : (s.updWave i f).portBound = s.portBound := rfl
@[simp] theorem State.updWave_records (s : State) (i : Nat) (f : Wave → Wave) : (s.updWave i f).records = s.records := rfl
@[simp] theorem State.updWave_agenda (s : State) (i : Nat) (f : Wave → Wave) : (s.updWave i f).agenda = s.agenda := rfl
@[simp] theorem State.updWave_cur (s : State) (i : Nat) (f : Wave → Wave) : (s.updWave i f).cur = s.cur := rfl
@[simp] theorem State.updWave_turn (s : State) (i : Nat) (f : Wave → Wave) : (s.updWave i f).turn = s.turn := rfl
@[simp] theorem State.updWave_now (s : State) (i : Nat) (f : Wave → Wave) : (s.updWave i f).now = s.now := rfl
@[simp] theorem State.updWave_tick (s : State) (i : Nat) (f : Wave → Wave) : (s.updWave i f).tick = s.tick := rfl
@[simp] theorem State.updWave_time (s : State) (i : Nat) (f : Wave → Wave) : (s.updWave i f).time = s.time := rfl

/-! ### updBlock -/

@[simp] theorem State.updBlock_waves (s : State) (i : Nat) (f : Block → Block) : (s.updBlock i f).waves = s.waves := rfl
@[simp] theorem State.updBlock_vfiles (s : State) (i : Nat) (f : Block → Block) : (s.updBlock i f).vfiles = s.vfiles := rfl
@[simp] theorem State.updBlock_blocks (s : State) (i : Nat) (f : Block → Block) : (s.updBlock i f).blocks = updAt s.blocks i f := rfl
@[simp] theorem State.updBlock_gangs (s : State) (i : Nat) (f : Block → Block) : (s.updBlock i f).gangs = s.gangs := rfl
@[simp] theorem State.updBlock_cores (s : State) (i : Nat) (f : Block → Block) : (s.updBlock i f).cores = s.cores := rfl
@[simp] theorem State.updBlock_clusters (s : State) (i : Nat) (f : Block → Block) : (s.updBlock i f).clusters = s.clusters := rfl
@[simp] theorem State.updBlock_parts (s : State) (i : Nat) (f : Block → Block) : (s.updBlock i f).parts = s.parts := rfl
@[simp] theorem State.updBlock_ctxs (s : State) (i : Nat) (f : Block → Block) : (s.updBlock i f).ctxs = s.ctxs := rfl
@[simp] theorem State.updBlock_queues (s : State) (i : Nat) (f : Block → Block) : (s.updBlock i f).queues = s.queues := rfl
@[simp] theorem State.updBlock_jobs (s : State) (i : Nat) (f : Block → Block) : (s.updBlock i f).jobs = s.jobs := rfl
@[simp] theorem State.updBlock_objs (s : State) (i : Nat) (f : Block → Block) : (s.updBlock i f).objs = s.objs := rfl
@[simp] theorem State.updBlock_copies (s : State) (i : Nat) (f : Block → Block) : (s.updBlock i f).copies = s.copies := rfl
@[simp] theorem State.updBlock_bars (s : State) (i : Nat) (f : Block → Block) : (s.updBlock i f).bars = s.bars := rfl
@[simp] theorem State.updBlock_runs (s : State) (i : Nat) (f : Block → Block) : (s.updBlock i f).runs = s.runs := rfl
@[simp] theorem State.updBlock_shoots (s : State) (i : Nat) (f : Block → Block) : (s.updBlock i f).shoots = s.shoots := rfl
@[simp] theorem State.updBlock_accs (s : State) (i : Nat) (f : Block → Block) : (s.updBlock i f).accs = s.accs := rfl
@[simp] theorem State.updBlock_mem (s : State) (i : Nat) (f : Block → Block) : (s.updBlock i f).mem = s.mem := rfl
@[simp] theorem State.updBlock_pois (s : State) (i : Nat) (f : Block → Block) : (s.updBlock i f).pois = s.pois := rfl
@[simp] theorem State.updBlock_fabric (s : State) (i : Nat) (f : Block → Block) : (s.updBlock i f).fabric = s.fabric := rfl
@[simp] theorem State.updBlock_trust (s : State) (i : Nat) (f : Block → Block) : (s.updBlock i f).trust = s.trust := rfl
@[simp] theorem State.updBlock_host (s : State) (i : Nat) (f : Block → Block) : (s.updBlock i f).host = s.host := rfl
@[simp] theorem State.updBlock_melt (s : State) (i : Nat) (f : Block → Block) : (s.updBlock i f).melt = s.melt := rfl
@[simp] theorem State.updBlock_rfz (s : State) (i : Nat) (f : Block → Block) : (s.updBlock i f).rfz = s.rfz := rfl
@[simp] theorem State.updBlock_portBound (s : State) (i : Nat) (f : Block → Block) : (s.updBlock i f).portBound = s.portBound := rfl
@[simp] theorem State.updBlock_records (s : State) (i : Nat) (f : Block → Block) : (s.updBlock i f).records = s.records := rfl
@[simp] theorem State.updBlock_agenda (s : State) (i : Nat) (f : Block → Block) : (s.updBlock i f).agenda = s.agenda := rfl
@[simp] theorem State.updBlock_cur (s : State) (i : Nat) (f : Block → Block) : (s.updBlock i f).cur = s.cur := rfl
@[simp] theorem State.updBlock_turn (s : State) (i : Nat) (f : Block → Block) : (s.updBlock i f).turn = s.turn := rfl
@[simp] theorem State.updBlock_now (s : State) (i : Nat) (f : Block → Block) : (s.updBlock i f).now = s.now := rfl
@[simp] theorem State.updBlock_tick (s : State) (i : Nat) (f : Block → Block) : (s.updBlock i f).tick = s.tick := rfl
@[simp] theorem State.updBlock_time (s : State) (i : Nat) (f : Block → Block) : (s.updBlock i f).time = s.time := rfl

/-! ### updCore -/

@[simp] theorem State.updCore_waves (s : State) (i : Nat) (f : CoreSt → CoreSt) : (s.updCore i f).waves = s.waves := rfl
@[simp] theorem State.updCore_vfiles (s : State) (i : Nat) (f : CoreSt → CoreSt) : (s.updCore i f).vfiles = s.vfiles := rfl
@[simp] theorem State.updCore_blocks (s : State) (i : Nat) (f : CoreSt → CoreSt) : (s.updCore i f).blocks = s.blocks := rfl
@[simp] theorem State.updCore_gangs (s : State) (i : Nat) (f : CoreSt → CoreSt) : (s.updCore i f).gangs = s.gangs := rfl
@[simp] theorem State.updCore_cores (s : State) (i : Nat) (f : CoreSt → CoreSt) : (s.updCore i f).cores = updAt s.cores i f := rfl
@[simp] theorem State.updCore_clusters (s : State) (i : Nat) (f : CoreSt → CoreSt) : (s.updCore i f).clusters = s.clusters := rfl
@[simp] theorem State.updCore_parts (s : State) (i : Nat) (f : CoreSt → CoreSt) : (s.updCore i f).parts = s.parts := rfl
@[simp] theorem State.updCore_ctxs (s : State) (i : Nat) (f : CoreSt → CoreSt) : (s.updCore i f).ctxs = s.ctxs := rfl
@[simp] theorem State.updCore_queues (s : State) (i : Nat) (f : CoreSt → CoreSt) : (s.updCore i f).queues = s.queues := rfl
@[simp] theorem State.updCore_jobs (s : State) (i : Nat) (f : CoreSt → CoreSt) : (s.updCore i f).jobs = s.jobs := rfl
@[simp] theorem State.updCore_objs (s : State) (i : Nat) (f : CoreSt → CoreSt) : (s.updCore i f).objs = s.objs := rfl
@[simp] theorem State.updCore_copies (s : State) (i : Nat) (f : CoreSt → CoreSt) : (s.updCore i f).copies = s.copies := rfl
@[simp] theorem State.updCore_bars (s : State) (i : Nat) (f : CoreSt → CoreSt) : (s.updCore i f).bars = s.bars := rfl
@[simp] theorem State.updCore_runs (s : State) (i : Nat) (f : CoreSt → CoreSt) : (s.updCore i f).runs = s.runs := rfl
@[simp] theorem State.updCore_shoots (s : State) (i : Nat) (f : CoreSt → CoreSt) : (s.updCore i f).shoots = s.shoots := rfl
@[simp] theorem State.updCore_accs (s : State) (i : Nat) (f : CoreSt → CoreSt) : (s.updCore i f).accs = s.accs := rfl
@[simp] theorem State.updCore_mem (s : State) (i : Nat) (f : CoreSt → CoreSt) : (s.updCore i f).mem = s.mem := rfl
@[simp] theorem State.updCore_pois (s : State) (i : Nat) (f : CoreSt → CoreSt) : (s.updCore i f).pois = s.pois := rfl
@[simp] theorem State.updCore_fabric (s : State) (i : Nat) (f : CoreSt → CoreSt) : (s.updCore i f).fabric = s.fabric := rfl
@[simp] theorem State.updCore_trust (s : State) (i : Nat) (f : CoreSt → CoreSt) : (s.updCore i f).trust = s.trust := rfl
@[simp] theorem State.updCore_host (s : State) (i : Nat) (f : CoreSt → CoreSt) : (s.updCore i f).host = s.host := rfl
@[simp] theorem State.updCore_melt (s : State) (i : Nat) (f : CoreSt → CoreSt) : (s.updCore i f).melt = s.melt := rfl
@[simp] theorem State.updCore_rfz (s : State) (i : Nat) (f : CoreSt → CoreSt) : (s.updCore i f).rfz = s.rfz := rfl
@[simp] theorem State.updCore_portBound (s : State) (i : Nat) (f : CoreSt → CoreSt) : (s.updCore i f).portBound = s.portBound := rfl
@[simp] theorem State.updCore_records (s : State) (i : Nat) (f : CoreSt → CoreSt) : (s.updCore i f).records = s.records := rfl
@[simp] theorem State.updCore_agenda (s : State) (i : Nat) (f : CoreSt → CoreSt) : (s.updCore i f).agenda = s.agenda := rfl
@[simp] theorem State.updCore_cur (s : State) (i : Nat) (f : CoreSt → CoreSt) : (s.updCore i f).cur = s.cur := rfl
@[simp] theorem State.updCore_turn (s : State) (i : Nat) (f : CoreSt → CoreSt) : (s.updCore i f).turn = s.turn := rfl
@[simp] theorem State.updCore_now (s : State) (i : Nat) (f : CoreSt → CoreSt) : (s.updCore i f).now = s.now := rfl
@[simp] theorem State.updCore_tick (s : State) (i : Nat) (f : CoreSt → CoreSt) : (s.updCore i f).tick = s.tick := rfl
@[simp] theorem State.updCore_time (s : State) (i : Nat) (f : CoreSt → CoreSt) : (s.updCore i f).time = s.time := rfl

/-! ### updCluster -/

@[simp] theorem State.updCluster_waves (s : State) (i : Nat) (f : ClusterSt → ClusterSt) : (s.updCluster i f).waves = s.waves := rfl
@[simp] theorem State.updCluster_vfiles (s : State) (i : Nat) (f : ClusterSt → ClusterSt) : (s.updCluster i f).vfiles = s.vfiles := rfl
@[simp] theorem State.updCluster_blocks (s : State) (i : Nat) (f : ClusterSt → ClusterSt) : (s.updCluster i f).blocks = s.blocks := rfl
@[simp] theorem State.updCluster_gangs (s : State) (i : Nat) (f : ClusterSt → ClusterSt) : (s.updCluster i f).gangs = s.gangs := rfl
@[simp] theorem State.updCluster_cores (s : State) (i : Nat) (f : ClusterSt → ClusterSt) : (s.updCluster i f).cores = s.cores := rfl
@[simp] theorem State.updCluster_clusters (s : State) (i : Nat) (f : ClusterSt → ClusterSt) : (s.updCluster i f).clusters = updAt s.clusters i f := rfl
@[simp] theorem State.updCluster_parts (s : State) (i : Nat) (f : ClusterSt → ClusterSt) : (s.updCluster i f).parts = s.parts := rfl
@[simp] theorem State.updCluster_ctxs (s : State) (i : Nat) (f : ClusterSt → ClusterSt) : (s.updCluster i f).ctxs = s.ctxs := rfl
@[simp] theorem State.updCluster_queues (s : State) (i : Nat) (f : ClusterSt → ClusterSt) : (s.updCluster i f).queues = s.queues := rfl
@[simp] theorem State.updCluster_jobs (s : State) (i : Nat) (f : ClusterSt → ClusterSt) : (s.updCluster i f).jobs = s.jobs := rfl
@[simp] theorem State.updCluster_objs (s : State) (i : Nat) (f : ClusterSt → ClusterSt) : (s.updCluster i f).objs = s.objs := rfl
@[simp] theorem State.updCluster_copies (s : State) (i : Nat) (f : ClusterSt → ClusterSt) : (s.updCluster i f).copies = s.copies := rfl
@[simp] theorem State.updCluster_bars (s : State) (i : Nat) (f : ClusterSt → ClusterSt) : (s.updCluster i f).bars = s.bars := rfl
@[simp] theorem State.updCluster_runs (s : State) (i : Nat) (f : ClusterSt → ClusterSt) : (s.updCluster i f).runs = s.runs := rfl
@[simp] theorem State.updCluster_shoots (s : State) (i : Nat) (f : ClusterSt → ClusterSt) : (s.updCluster i f).shoots = s.shoots := rfl
@[simp] theorem State.updCluster_accs (s : State) (i : Nat) (f : ClusterSt → ClusterSt) : (s.updCluster i f).accs = s.accs := rfl
@[simp] theorem State.updCluster_mem (s : State) (i : Nat) (f : ClusterSt → ClusterSt) : (s.updCluster i f).mem = s.mem := rfl
@[simp] theorem State.updCluster_pois (s : State) (i : Nat) (f : ClusterSt → ClusterSt) : (s.updCluster i f).pois = s.pois := rfl
@[simp] theorem State.updCluster_fabric (s : State) (i : Nat) (f : ClusterSt → ClusterSt) : (s.updCluster i f).fabric = s.fabric := rfl
@[simp] theorem State.updCluster_trust (s : State) (i : Nat) (f : ClusterSt → ClusterSt) : (s.updCluster i f).trust = s.trust := rfl
@[simp] theorem State.updCluster_host (s : State) (i : Nat) (f : ClusterSt → ClusterSt) : (s.updCluster i f).host = s.host := rfl
@[simp] theorem State.updCluster_melt (s : State) (i : Nat) (f : ClusterSt → ClusterSt) : (s.updCluster i f).melt = s.melt := rfl
@[simp] theorem State.updCluster_rfz (s : State) (i : Nat) (f : ClusterSt → ClusterSt) : (s.updCluster i f).rfz = s.rfz := rfl
@[simp] theorem State.updCluster_portBound (s : State) (i : Nat) (f : ClusterSt → ClusterSt) : (s.updCluster i f).portBound = s.portBound := rfl
@[simp] theorem State.updCluster_records (s : State) (i : Nat) (f : ClusterSt → ClusterSt) : (s.updCluster i f).records = s.records := rfl
@[simp] theorem State.updCluster_agenda (s : State) (i : Nat) (f : ClusterSt → ClusterSt) : (s.updCluster i f).agenda = s.agenda := rfl
@[simp] theorem State.updCluster_cur (s : State) (i : Nat) (f : ClusterSt → ClusterSt) : (s.updCluster i f).cur = s.cur := rfl
@[simp] theorem State.updCluster_turn (s : State) (i : Nat) (f : ClusterSt → ClusterSt) : (s.updCluster i f).turn = s.turn := rfl
@[simp] theorem State.updCluster_now (s : State) (i : Nat) (f : ClusterSt → ClusterSt) : (s.updCluster i f).now = s.now := rfl
@[simp] theorem State.updCluster_tick (s : State) (i : Nat) (f : ClusterSt → ClusterSt) : (s.updCluster i f).tick = s.tick := rfl
@[simp] theorem State.updCluster_time (s : State) (i : Nat) (f : ClusterSt → ClusterSt) : (s.updCluster i f).time = s.time := rfl

/-! ### updCtx -/

@[simp] theorem State.updCtx_waves (s : State) (i : Nat) (f : Ctx → Ctx) : (s.updCtx i f).waves = s.waves := rfl
@[simp] theorem State.updCtx_vfiles (s : State) (i : Nat) (f : Ctx → Ctx) : (s.updCtx i f).vfiles = s.vfiles := rfl
@[simp] theorem State.updCtx_blocks (s : State) (i : Nat) (f : Ctx → Ctx) : (s.updCtx i f).blocks = s.blocks := rfl
@[simp] theorem State.updCtx_gangs (s : State) (i : Nat) (f : Ctx → Ctx) : (s.updCtx i f).gangs = s.gangs := rfl
@[simp] theorem State.updCtx_cores (s : State) (i : Nat) (f : Ctx → Ctx) : (s.updCtx i f).cores = s.cores := rfl
@[simp] theorem State.updCtx_clusters (s : State) (i : Nat) (f : Ctx → Ctx) : (s.updCtx i f).clusters = s.clusters := rfl
@[simp] theorem State.updCtx_parts (s : State) (i : Nat) (f : Ctx → Ctx) : (s.updCtx i f).parts = s.parts := rfl
@[simp] theorem State.updCtx_ctxs (s : State) (i : Nat) (f : Ctx → Ctx) : (s.updCtx i f).ctxs = updAt s.ctxs i f := rfl
@[simp] theorem State.updCtx_queues (s : State) (i : Nat) (f : Ctx → Ctx) : (s.updCtx i f).queues = s.queues := rfl
@[simp] theorem State.updCtx_jobs (s : State) (i : Nat) (f : Ctx → Ctx) : (s.updCtx i f).jobs = s.jobs := rfl
@[simp] theorem State.updCtx_objs (s : State) (i : Nat) (f : Ctx → Ctx) : (s.updCtx i f).objs = s.objs := rfl
@[simp] theorem State.updCtx_copies (s : State) (i : Nat) (f : Ctx → Ctx) : (s.updCtx i f).copies = s.copies := rfl
@[simp] theorem State.updCtx_bars (s : State) (i : Nat) (f : Ctx → Ctx) : (s.updCtx i f).bars = s.bars := rfl
@[simp] theorem State.updCtx_runs (s : State) (i : Nat) (f : Ctx → Ctx) : (s.updCtx i f).runs = s.runs := rfl
@[simp] theorem State.updCtx_shoots (s : State) (i : Nat) (f : Ctx → Ctx) : (s.updCtx i f).shoots = s.shoots := rfl
@[simp] theorem State.updCtx_accs (s : State) (i : Nat) (f : Ctx → Ctx) : (s.updCtx i f).accs = s.accs := rfl
@[simp] theorem State.updCtx_mem (s : State) (i : Nat) (f : Ctx → Ctx) : (s.updCtx i f).mem = s.mem := rfl
@[simp] theorem State.updCtx_pois (s : State) (i : Nat) (f : Ctx → Ctx) : (s.updCtx i f).pois = s.pois := rfl
@[simp] theorem State.updCtx_fabric (s : State) (i : Nat) (f : Ctx → Ctx) : (s.updCtx i f).fabric = s.fabric := rfl
@[simp] theorem State.updCtx_trust (s : State) (i : Nat) (f : Ctx → Ctx) : (s.updCtx i f).trust = s.trust := rfl
@[simp] theorem State.updCtx_host (s : State) (i : Nat) (f : Ctx → Ctx) : (s.updCtx i f).host = s.host := rfl
@[simp] theorem State.updCtx_melt (s : State) (i : Nat) (f : Ctx → Ctx) : (s.updCtx i f).melt = s.melt := rfl
@[simp] theorem State.updCtx_rfz (s : State) (i : Nat) (f : Ctx → Ctx) : (s.updCtx i f).rfz = s.rfz := rfl
@[simp] theorem State.updCtx_portBound (s : State) (i : Nat) (f : Ctx → Ctx) : (s.updCtx i f).portBound = s.portBound := rfl
@[simp] theorem State.updCtx_records (s : State) (i : Nat) (f : Ctx → Ctx) : (s.updCtx i f).records = s.records := rfl
@[simp] theorem State.updCtx_agenda (s : State) (i : Nat) (f : Ctx → Ctx) : (s.updCtx i f).agenda = s.agenda := rfl
@[simp] theorem State.updCtx_cur (s : State) (i : Nat) (f : Ctx → Ctx) : (s.updCtx i f).cur = s.cur := rfl
@[simp] theorem State.updCtx_turn (s : State) (i : Nat) (f : Ctx → Ctx) : (s.updCtx i f).turn = s.turn := rfl
@[simp] theorem State.updCtx_now (s : State) (i : Nat) (f : Ctx → Ctx) : (s.updCtx i f).now = s.now := rfl
@[simp] theorem State.updCtx_tick (s : State) (i : Nat) (f : Ctx → Ctx) : (s.updCtx i f).tick = s.tick := rfl
@[simp] theorem State.updCtx_time (s : State) (i : Nat) (f : Ctx → Ctx) : (s.updCtx i f).time = s.time := rfl

/-! ### updQueue -/

@[simp] theorem State.updQueue_waves (s : State) (i : Nat) (f : Queue → Queue) : (s.updQueue i f).waves = s.waves := rfl
@[simp] theorem State.updQueue_vfiles (s : State) (i : Nat) (f : Queue → Queue) : (s.updQueue i f).vfiles = s.vfiles := rfl
@[simp] theorem State.updQueue_blocks (s : State) (i : Nat) (f : Queue → Queue) : (s.updQueue i f).blocks = s.blocks := rfl
@[simp] theorem State.updQueue_gangs (s : State) (i : Nat) (f : Queue → Queue) : (s.updQueue i f).gangs = s.gangs := rfl
@[simp] theorem State.updQueue_cores (s : State) (i : Nat) (f : Queue → Queue) : (s.updQueue i f).cores = s.cores := rfl
@[simp] theorem State.updQueue_clusters (s : State) (i : Nat) (f : Queue → Queue) : (s.updQueue i f).clusters = s.clusters := rfl
@[simp] theorem State.updQueue_parts (s : State) (i : Nat) (f : Queue → Queue) : (s.updQueue i f).parts = s.parts := rfl
@[simp] theorem State.updQueue_ctxs (s : State) (i : Nat) (f : Queue → Queue) : (s.updQueue i f).ctxs = s.ctxs := rfl
@[simp] theorem State.updQueue_queues (s : State) (i : Nat) (f : Queue → Queue) : (s.updQueue i f).queues = updAt s.queues i f := rfl
@[simp] theorem State.updQueue_jobs (s : State) (i : Nat) (f : Queue → Queue) : (s.updQueue i f).jobs = s.jobs := rfl
@[simp] theorem State.updQueue_objs (s : State) (i : Nat) (f : Queue → Queue) : (s.updQueue i f).objs = s.objs := rfl
@[simp] theorem State.updQueue_copies (s : State) (i : Nat) (f : Queue → Queue) : (s.updQueue i f).copies = s.copies := rfl
@[simp] theorem State.updQueue_bars (s : State) (i : Nat) (f : Queue → Queue) : (s.updQueue i f).bars = s.bars := rfl
@[simp] theorem State.updQueue_runs (s : State) (i : Nat) (f : Queue → Queue) : (s.updQueue i f).runs = s.runs := rfl
@[simp] theorem State.updQueue_shoots (s : State) (i : Nat) (f : Queue → Queue) : (s.updQueue i f).shoots = s.shoots := rfl
@[simp] theorem State.updQueue_accs (s : State) (i : Nat) (f : Queue → Queue) : (s.updQueue i f).accs = s.accs := rfl
@[simp] theorem State.updQueue_mem (s : State) (i : Nat) (f : Queue → Queue) : (s.updQueue i f).mem = s.mem := rfl
@[simp] theorem State.updQueue_pois (s : State) (i : Nat) (f : Queue → Queue) : (s.updQueue i f).pois = s.pois := rfl
@[simp] theorem State.updQueue_fabric (s : State) (i : Nat) (f : Queue → Queue) : (s.updQueue i f).fabric = s.fabric := rfl
@[simp] theorem State.updQueue_trust (s : State) (i : Nat) (f : Queue → Queue) : (s.updQueue i f).trust = s.trust := rfl
@[simp] theorem State.updQueue_host (s : State) (i : Nat) (f : Queue → Queue) : (s.updQueue i f).host = s.host := rfl
@[simp] theorem State.updQueue_melt (s : State) (i : Nat) (f : Queue → Queue) : (s.updQueue i f).melt = s.melt := rfl
@[simp] theorem State.updQueue_rfz (s : State) (i : Nat) (f : Queue → Queue) : (s.updQueue i f).rfz = s.rfz := rfl
@[simp] theorem State.updQueue_portBound (s : State) (i : Nat) (f : Queue → Queue) : (s.updQueue i f).portBound = s.portBound := rfl
@[simp] theorem State.updQueue_records (s : State) (i : Nat) (f : Queue → Queue) : (s.updQueue i f).records = s.records := rfl
@[simp] theorem State.updQueue_agenda (s : State) (i : Nat) (f : Queue → Queue) : (s.updQueue i f).agenda = s.agenda := rfl
@[simp] theorem State.updQueue_cur (s : State) (i : Nat) (f : Queue → Queue) : (s.updQueue i f).cur = s.cur := rfl
@[simp] theorem State.updQueue_turn (s : State) (i : Nat) (f : Queue → Queue) : (s.updQueue i f).turn = s.turn := rfl
@[simp] theorem State.updQueue_now (s : State) (i : Nat) (f : Queue → Queue) : (s.updQueue i f).now = s.now := rfl
@[simp] theorem State.updQueue_tick (s : State) (i : Nat) (f : Queue → Queue) : (s.updQueue i f).tick = s.tick := rfl
@[simp] theorem State.updQueue_time (s : State) (i : Nat) (f : Queue → Queue) : (s.updQueue i f).time = s.time := rfl

/-! ### updJob -/

@[simp] theorem State.updJob_waves (s : State) (i : Nat) (f : Job → Job) : (s.updJob i f).waves = s.waves := rfl
@[simp] theorem State.updJob_vfiles (s : State) (i : Nat) (f : Job → Job) : (s.updJob i f).vfiles = s.vfiles := rfl
@[simp] theorem State.updJob_blocks (s : State) (i : Nat) (f : Job → Job) : (s.updJob i f).blocks = s.blocks := rfl
@[simp] theorem State.updJob_gangs (s : State) (i : Nat) (f : Job → Job) : (s.updJob i f).gangs = s.gangs := rfl
@[simp] theorem State.updJob_cores (s : State) (i : Nat) (f : Job → Job) : (s.updJob i f).cores = s.cores := rfl
@[simp] theorem State.updJob_clusters (s : State) (i : Nat) (f : Job → Job) : (s.updJob i f).clusters = s.clusters := rfl
@[simp] theorem State.updJob_parts (s : State) (i : Nat) (f : Job → Job) : (s.updJob i f).parts = s.parts := rfl
@[simp] theorem State.updJob_ctxs (s : State) (i : Nat) (f : Job → Job) : (s.updJob i f).ctxs = s.ctxs := rfl
@[simp] theorem State.updJob_queues (s : State) (i : Nat) (f : Job → Job) : (s.updJob i f).queues = s.queues := rfl
@[simp] theorem State.updJob_jobs (s : State) (i : Nat) (f : Job → Job) : (s.updJob i f).jobs = updAt s.jobs i f := rfl
@[simp] theorem State.updJob_objs (s : State) (i : Nat) (f : Job → Job) : (s.updJob i f).objs = s.objs := rfl
@[simp] theorem State.updJob_copies (s : State) (i : Nat) (f : Job → Job) : (s.updJob i f).copies = s.copies := rfl
@[simp] theorem State.updJob_bars (s : State) (i : Nat) (f : Job → Job) : (s.updJob i f).bars = s.bars := rfl
@[simp] theorem State.updJob_runs (s : State) (i : Nat) (f : Job → Job) : (s.updJob i f).runs = s.runs := rfl
@[simp] theorem State.updJob_shoots (s : State) (i : Nat) (f : Job → Job) : (s.updJob i f).shoots = s.shoots := rfl
@[simp] theorem State.updJob_accs (s : State) (i : Nat) (f : Job → Job) : (s.updJob i f).accs = s.accs := rfl
@[simp] theorem State.updJob_mem (s : State) (i : Nat) (f : Job → Job) : (s.updJob i f).mem = s.mem := rfl
@[simp] theorem State.updJob_pois (s : State) (i : Nat) (f : Job → Job) : (s.updJob i f).pois = s.pois := rfl
@[simp] theorem State.updJob_fabric (s : State) (i : Nat) (f : Job → Job) : (s.updJob i f).fabric = s.fabric := rfl
@[simp] theorem State.updJob_trust (s : State) (i : Nat) (f : Job → Job) : (s.updJob i f).trust = s.trust := rfl
@[simp] theorem State.updJob_host (s : State) (i : Nat) (f : Job → Job) : (s.updJob i f).host = s.host := rfl
@[simp] theorem State.updJob_melt (s : State) (i : Nat) (f : Job → Job) : (s.updJob i f).melt = s.melt := rfl
@[simp] theorem State.updJob_rfz (s : State) (i : Nat) (f : Job → Job) : (s.updJob i f).rfz = s.rfz := rfl
@[simp] theorem State.updJob_portBound (s : State) (i : Nat) (f : Job → Job) : (s.updJob i f).portBound = s.portBound := rfl
@[simp] theorem State.updJob_records (s : State) (i : Nat) (f : Job → Job) : (s.updJob i f).records = s.records := rfl
@[simp] theorem State.updJob_agenda (s : State) (i : Nat) (f : Job → Job) : (s.updJob i f).agenda = s.agenda := rfl
@[simp] theorem State.updJob_cur (s : State) (i : Nat) (f : Job → Job) : (s.updJob i f).cur = s.cur := rfl
@[simp] theorem State.updJob_turn (s : State) (i : Nat) (f : Job → Job) : (s.updJob i f).turn = s.turn := rfl
@[simp] theorem State.updJob_now (s : State) (i : Nat) (f : Job → Job) : (s.updJob i f).now = s.now := rfl
@[simp] theorem State.updJob_tick (s : State) (i : Nat) (f : Job → Job) : (s.updJob i f).tick = s.tick := rfl
@[simp] theorem State.updJob_time (s : State) (i : Nat) (f : Job → Job) : (s.updJob i f).time = s.time := rfl

/-! ### updCopy -/

@[simp] theorem State.updCopy_waves (s : State) (i : Nat) (f : Copy → Copy) : (s.updCopy i f).waves = s.waves := rfl
@[simp] theorem State.updCopy_vfiles (s : State) (i : Nat) (f : Copy → Copy) : (s.updCopy i f).vfiles = s.vfiles := rfl
@[simp] theorem State.updCopy_blocks (s : State) (i : Nat) (f : Copy → Copy) : (s.updCopy i f).blocks = s.blocks := rfl
@[simp] theorem State.updCopy_gangs (s : State) (i : Nat) (f : Copy → Copy) : (s.updCopy i f).gangs = s.gangs := rfl
@[simp] theorem State.updCopy_cores (s : State) (i : Nat) (f : Copy → Copy) : (s.updCopy i f).cores = s.cores := rfl
@[simp] theorem State.updCopy_clusters (s : State) (i : Nat) (f : Copy → Copy) : (s.updCopy i f).clusters = s.clusters := rfl
@[simp] theorem State.updCopy_parts (s : State) (i : Nat) (f : Copy → Copy) : (s.updCopy i f).parts = s.parts := rfl
@[simp] theorem State.updCopy_ctxs (s : State) (i : Nat) (f : Copy → Copy) : (s.updCopy i f).ctxs = s.ctxs := rfl
@[simp] theorem State.updCopy_queues (s : State) (i : Nat) (f : Copy → Copy) : (s.updCopy i f).queues = s.queues := rfl
@[simp] theorem State.updCopy_jobs (s : State) (i : Nat) (f : Copy → Copy) : (s.updCopy i f).jobs = s.jobs := rfl
@[simp] theorem State.updCopy_objs (s : State) (i : Nat) (f : Copy → Copy) : (s.updCopy i f).objs = s.objs := rfl
@[simp] theorem State.updCopy_copies (s : State) (i : Nat) (f : Copy → Copy) : (s.updCopy i f).copies = updAt s.copies i f := rfl
@[simp] theorem State.updCopy_bars (s : State) (i : Nat) (f : Copy → Copy) : (s.updCopy i f).bars = s.bars := rfl
@[simp] theorem State.updCopy_runs (s : State) (i : Nat) (f : Copy → Copy) : (s.updCopy i f).runs = s.runs := rfl
@[simp] theorem State.updCopy_shoots (s : State) (i : Nat) (f : Copy → Copy) : (s.updCopy i f).shoots = s.shoots := rfl
@[simp] theorem State.updCopy_accs (s : State) (i : Nat) (f : Copy → Copy) : (s.updCopy i f).accs = s.accs := rfl
@[simp] theorem State.updCopy_mem (s : State) (i : Nat) (f : Copy → Copy) : (s.updCopy i f).mem = s.mem := rfl
@[simp] theorem State.updCopy_pois (s : State) (i : Nat) (f : Copy → Copy) : (s.updCopy i f).pois = s.pois := rfl
@[simp] theorem State.updCopy_fabric (s : State) (i : Nat) (f : Copy → Copy) : (s.updCopy i f).fabric = s.fabric := rfl
@[simp] theorem State.updCopy_trust (s : State) (i : Nat) (f : Copy → Copy) : (s.updCopy i f).trust = s.trust := rfl
@[simp] theorem State.updCopy_host (s : State) (i : Nat) (f : Copy → Copy) : (s.updCopy i f).host = s.host := rfl
@[simp] theorem State.updCopy_melt (s : State) (i : Nat) (f : Copy → Copy) : (s.updCopy i f).melt = s.melt := rfl
@[simp] theorem State.updCopy_rfz (s : State) (i : Nat) (f : Copy → Copy) : (s.updCopy i f).rfz = s.rfz := rfl
@[simp] theorem State.updCopy_portBound (s : State) (i : Nat) (f : Copy → Copy) : (s.updCopy i f).portBound = s.portBound := rfl
@[simp] theorem State.updCopy_records (s : State) (i : Nat) (f : Copy → Copy) : (s.updCopy i f).records = s.records := rfl
@[simp] theorem State.updCopy_agenda (s : State) (i : Nat) (f : Copy → Copy) : (s.updCopy i f).agenda = s.agenda := rfl
@[simp] theorem State.updCopy_cur (s : State) (i : Nat) (f : Copy → Copy) : (s.updCopy i f).cur = s.cur := rfl
@[simp] theorem State.updCopy_turn (s : State) (i : Nat) (f : Copy → Copy) : (s.updCopy i f).turn = s.turn := rfl
@[simp] theorem State.updCopy_now (s : State) (i : Nat) (f : Copy → Copy) : (s.updCopy i f).now = s.now := rfl
@[simp] theorem State.updCopy_tick (s : State) (i : Nat) (f : Copy → Copy) : (s.updCopy i f).tick = s.tick := rfl
@[simp] theorem State.updCopy_time (s : State) (i : Nat) (f : Copy → Copy) : (s.updCopy i f).time = s.time := rfl

/-! ### updGang -/

@[simp] theorem State.updGang_waves (s : State) (i : Nat) (f : Gang → Gang) : (s.updGang i f).waves = s.waves := rfl
@[simp] theorem State.updGang_vfiles (s : State) (i : Nat) (f : Gang → Gang) : (s.updGang i f).vfiles = s.vfiles := rfl
@[simp] theorem State.updGang_blocks (s : State) (i : Nat) (f : Gang → Gang) : (s.updGang i f).blocks = s.blocks := rfl
@[simp] theorem State.updGang_gangs (s : State) (i : Nat) (f : Gang → Gang) : (s.updGang i f).gangs = updAt s.gangs i f := rfl
@[simp] theorem State.updGang_cores (s : State) (i : Nat) (f : Gang → Gang) : (s.updGang i f).cores = s.cores := rfl
@[simp] theorem State.updGang_clusters (s : State) (i : Nat) (f : Gang → Gang) : (s.updGang i f).clusters = s.clusters := rfl
@[simp] theorem State.updGang_parts (s : State) (i : Nat) (f : Gang → Gang) : (s.updGang i f).parts = s.parts := rfl
@[simp] theorem State.updGang_ctxs (s : State) (i : Nat) (f : Gang → Gang) : (s.updGang i f).ctxs = s.ctxs := rfl
@[simp] theorem State.updGang_queues (s : State) (i : Nat) (f : Gang → Gang) : (s.updGang i f).queues = s.queues := rfl
@[simp] theorem State.updGang_jobs (s : State) (i : Nat) (f : Gang → Gang) : (s.updGang i f).jobs = s.jobs := rfl
@[simp] theorem State.updGang_objs (s : State) (i : Nat) (f : Gang → Gang) : (s.updGang i f).objs = s.objs := rfl
@[simp] theorem State.updGang_copies (s : State) (i : Nat) (f : Gang → Gang) : (s.updGang i f).copies = s.copies := rfl
@[simp] theorem State.updGang_bars (s : State) (i : Nat) (f : Gang → Gang) : (s.updGang i f).bars = s.bars := rfl
@[simp] theorem State.updGang_runs (s : State) (i : Nat) (f : Gang → Gang) : (s.updGang i f).runs = s.runs := rfl
@[simp] theorem State.updGang_shoots (s : State) (i : Nat) (f : Gang → Gang) : (s.updGang i f).shoots = s.shoots := rfl
@[simp] theorem State.updGang_accs (s : State) (i : Nat) (f : Gang → Gang) : (s.updGang i f).accs = s.accs := rfl
@[simp] theorem State.updGang_mem (s : State) (i : Nat) (f : Gang → Gang) : (s.updGang i f).mem = s.mem := rfl
@[simp] theorem State.updGang_pois (s : State) (i : Nat) (f : Gang → Gang) : (s.updGang i f).pois = s.pois := rfl
@[simp] theorem State.updGang_fabric (s : State) (i : Nat) (f : Gang → Gang) : (s.updGang i f).fabric = s.fabric := rfl
@[simp] theorem State.updGang_trust (s : State) (i : Nat) (f : Gang → Gang) : (s.updGang i f).trust = s.trust := rfl
@[simp] theorem State.updGang_host (s : State) (i : Nat) (f : Gang → Gang) : (s.updGang i f).host = s.host := rfl
@[simp] theorem State.updGang_melt (s : State) (i : Nat) (f : Gang → Gang) : (s.updGang i f).melt = s.melt := rfl
@[simp] theorem State.updGang_rfz (s : State) (i : Nat) (f : Gang → Gang) : (s.updGang i f).rfz = s.rfz := rfl
@[simp] theorem State.updGang_portBound (s : State) (i : Nat) (f : Gang → Gang) : (s.updGang i f).portBound = s.portBound := rfl
@[simp] theorem State.updGang_records (s : State) (i : Nat) (f : Gang → Gang) : (s.updGang i f).records = s.records := rfl
@[simp] theorem State.updGang_agenda (s : State) (i : Nat) (f : Gang → Gang) : (s.updGang i f).agenda = s.agenda := rfl
@[simp] theorem State.updGang_cur (s : State) (i : Nat) (f : Gang → Gang) : (s.updGang i f).cur = s.cur := rfl
@[simp] theorem State.updGang_turn (s : State) (i : Nat) (f : Gang → Gang) : (s.updGang i f).turn = s.turn := rfl
@[simp] theorem State.updGang_now (s : State) (i : Nat) (f : Gang → Gang) : (s.updGang i f).now = s.now := rfl
@[simp] theorem State.updGang_tick (s : State) (i : Nat) (f : Gang → Gang) : (s.updGang i f).tick = s.tick := rfl
@[simp] theorem State.updGang_time (s : State) (i : Nat) (f : Gang → Gang) : (s.updGang i f).time = s.time := rfl

/-! ### updVFile -/

@[simp] theorem State.updVFile_waves (s : State) (i : Nat) (f : VFile → VFile) : (s.updVFile i f).waves = s.waves := rfl
@[simp] theorem State.updVFile_vfiles (s : State) (i : Nat) (f : VFile → VFile) : (s.updVFile i f).vfiles = updAt s.vfiles i f := rfl
@[simp] theorem State.updVFile_blocks (s : State) (i : Nat) (f : VFile → VFile) : (s.updVFile i f).blocks = s.blocks := rfl
@[simp] theorem State.updVFile_gangs (s : State) (i : Nat) (f : VFile → VFile) : (s.updVFile i f).gangs = s.gangs := rfl
@[simp] theorem State.updVFile_cores (s : State) (i : Nat) (f : VFile → VFile) : (s.updVFile i f).cores = s.cores := rfl
@[simp] theorem State.updVFile_clusters (s : State) (i : Nat) (f : VFile → VFile) : (s.updVFile i f).clusters = s.clusters := rfl
@[simp] theorem State.updVFile_parts (s : State) (i : Nat) (f : VFile → VFile) : (s.updVFile i f).parts = s.parts := rfl
@[simp] theorem State.updVFile_ctxs (s : State) (i : Nat) (f : VFile → VFile) : (s.updVFile i f).ctxs = s.ctxs := rfl
@[simp] theorem State.updVFile_queues (s : State) (i : Nat) (f : VFile → VFile) : (s.updVFile i f).queues = s.queues := rfl
@[simp] theorem State.updVFile_jobs (s : State) (i : Nat) (f : VFile → VFile) : (s.updVFile i f).jobs = s.jobs := rfl
@[simp] theorem State.updVFile_objs (s : State) (i : Nat) (f : VFile → VFile) : (s.updVFile i f).objs = s.objs := rfl
@[simp] theorem State.updVFile_copies (s : State) (i : Nat) (f : VFile → VFile) : (s.updVFile i f).copies = s.copies := rfl
@[simp] theorem State.updVFile_bars (s : State) (i : Nat) (f : VFile → VFile) : (s.updVFile i f).bars = s.bars := rfl
@[simp] theorem State.updVFile_runs (s : State) (i : Nat) (f : VFile → VFile) : (s.updVFile i f).runs = s.runs := rfl
@[simp] theorem State.updVFile_shoots (s : State) (i : Nat) (f : VFile → VFile) : (s.updVFile i f).shoots = s.shoots := rfl
@[simp] theorem State.updVFile_accs (s : State) (i : Nat) (f : VFile → VFile) : (s.updVFile i f).accs = s.accs := rfl
@[simp] theorem State.updVFile_mem (s : State) (i : Nat) (f : VFile → VFile) : (s.updVFile i f).mem = s.mem := rfl
@[simp] theorem State.updVFile_pois (s : State) (i : Nat) (f : VFile → VFile) : (s.updVFile i f).pois = s.pois := rfl
@[simp] theorem State.updVFile_fabric (s : State) (i : Nat) (f : VFile → VFile) : (s.updVFile i f).fabric = s.fabric := rfl
@[simp] theorem State.updVFile_trust (s : State) (i : Nat) (f : VFile → VFile) : (s.updVFile i f).trust = s.trust := rfl
@[simp] theorem State.updVFile_host (s : State) (i : Nat) (f : VFile → VFile) : (s.updVFile i f).host = s.host := rfl
@[simp] theorem State.updVFile_melt (s : State) (i : Nat) (f : VFile → VFile) : (s.updVFile i f).melt = s.melt := rfl
@[simp] theorem State.updVFile_rfz (s : State) (i : Nat) (f : VFile → VFile) : (s.updVFile i f).rfz = s.rfz := rfl
@[simp] theorem State.updVFile_portBound (s : State) (i : Nat) (f : VFile → VFile) : (s.updVFile i f).portBound = s.portBound := rfl
@[simp] theorem State.updVFile_records (s : State) (i : Nat) (f : VFile → VFile) : (s.updVFile i f).records = s.records := rfl
@[simp] theorem State.updVFile_agenda (s : State) (i : Nat) (f : VFile → VFile) : (s.updVFile i f).agenda = s.agenda := rfl
@[simp] theorem State.updVFile_cur (s : State) (i : Nat) (f : VFile → VFile) : (s.updVFile i f).cur = s.cur := rfl
@[simp] theorem State.updVFile_turn (s : State) (i : Nat) (f : VFile → VFile) : (s.updVFile i f).turn = s.turn := rfl
@[simp] theorem State.updVFile_now (s : State) (i : Nat) (f : VFile → VFile) : (s.updVFile i f).now = s.now := rfl
@[simp] theorem State.updVFile_tick (s : State) (i : Nat) (f : VFile → VFile) : (s.updVFile i f).tick = s.tick := rfl
@[simp] theorem State.updVFile_time (s : State) (i : Nat) (f : VFile → VFile) : (s.updVFile i f).time = s.time := rfl

/-! ### updPart -/

@[simp] theorem State.updPart_waves (s : State) (p : Nat) (f : Part → Part) : (s.updPart p f).waves = s.waves := rfl
@[simp] theorem State.updPart_vfiles (s : State) (p : Nat) (f : Part → Part) : (s.updPart p f).vfiles = s.vfiles := rfl
@[simp] theorem State.updPart_blocks (s : State) (p : Nat) (f : Part → Part) : (s.updPart p f).blocks = s.blocks := rfl
@[simp] theorem State.updPart_gangs (s : State) (p : Nat) (f : Part → Part) : (s.updPart p f).gangs = s.gangs := rfl
@[simp] theorem State.updPart_cores (s : State) (p : Nat) (f : Part → Part) : (s.updPart p f).cores = s.cores := rfl
@[simp] theorem State.updPart_clusters (s : State) (p : Nat) (f : Part → Part) : (s.updPart p f).clusters = s.clusters := rfl
@[simp] theorem State.updPart_parts (s : State) (p : Nat) (f : Part → Part) : (s.updPart p f).parts = s.parts.map (fun q => if q.id = p then f q else q) := rfl
@[simp] theorem State.updPart_ctxs (s : State) (p : Nat) (f : Part → Part) : (s.updPart p f).ctxs = s.ctxs := rfl
@[simp] theorem State.updPart_queues (s : State) (p : Nat) (f : Part → Part) : (s.updPart p f).queues = s.queues := rfl
@[simp] theorem State.updPart_jobs (s : State) (p : Nat) (f : Part → Part) : (s.updPart p f).jobs = s.jobs := rfl
@[simp] theorem State.updPart_objs (s : State) (p : Nat) (f : Part → Part) : (s.updPart p f).objs = s.objs := rfl
@[simp] theorem State.updPart_copies (s : State) (p : Nat) (f : Part → Part) : (s.updPart p f).copies = s.copies := rfl
@[simp] theorem State.updPart_bars (s : State) (p : Nat) (f : Part → Part) : (s.updPart p f).bars = s.bars := rfl
@[simp] theorem State.updPart_runs (s : State) (p : Nat) (f : Part → Part) : (s.updPart p f).runs = s.runs := rfl
@[simp] theorem State.updPart_shoots (s : State) (p : Nat) (f : Part → Part) : (s.updPart p f).shoots = s.shoots := rfl
@[simp] theorem State.updPart_accs (s : State) (p : Nat) (f : Part → Part) : (s.updPart p f).accs = s.accs := rfl
@[simp] theorem State.updPart_mem (s : State) (p : Nat) (f : Part → Part) : (s.updPart p f).mem = s.mem := rfl
@[simp] theorem State.updPart_pois (s : State) (p : Nat) (f : Part → Part) : (s.updPart p f).pois = s.pois := rfl
@[simp] theorem State.updPart_fabric (s : State) (p : Nat) (f : Part → Part) : (s.updPart p f).fabric = s.fabric := rfl
@[simp] theorem State.updPart_trust (s : State) (p : Nat) (f : Part → Part) : (s.updPart p f).trust = s.trust := rfl
@[simp] theorem State.updPart_host (s : State) (p : Nat) (f : Part → Part) : (s.updPart p f).host = s.host := rfl
@[simp] theorem State.updPart_melt (s : State) (p : Nat) (f : Part → Part) : (s.updPart p f).melt = s.melt := rfl
@[simp] theorem State.updPart_rfz (s : State) (p : Nat) (f : Part → Part) : (s.updPart p f).rfz = s.rfz := rfl
@[simp] theorem State.updPart_portBound (s : State) (p : Nat) (f : Part → Part) : (s.updPart p f).portBound = s.portBound := rfl
@[simp] theorem State.updPart_records (s : State) (p : Nat) (f : Part → Part) : (s.updPart p f).records = s.records := rfl
@[simp] theorem State.updPart_agenda (s : State) (p : Nat) (f : Part → Part) : (s.updPart p f).agenda = s.agenda := rfl
@[simp] theorem State.updPart_cur (s : State) (p : Nat) (f : Part → Part) : (s.updPart p f).cur = s.cur := rfl
@[simp] theorem State.updPart_turn (s : State) (p : Nat) (f : Part → Part) : (s.updPart p f).turn = s.turn := rfl
@[simp] theorem State.updPart_now (s : State) (p : Nat) (f : Part → Part) : (s.updPart p f).now = s.now := rfl
@[simp] theorem State.updPart_tick (s : State) (p : Nat) (f : Part → Part) : (s.updPart p f).tick = s.tick := rfl
@[simp] theorem State.updPart_time (s : State) (p : Nat) (f : Part → Part) : (s.updPart p f).time = s.time := rfl

/-! ### updRun -/

@[simp] theorem State.updRun_waves (s : State) (n : Nat) (f : PlumbRun → PlumbRun) : (s.updRun n f).waves = s.waves := rfl
@[simp] theorem State.updRun_vfiles (s : State) (n : Nat) (f : PlumbRun → PlumbRun) : (s.updRun n f).vfiles = s.vfiles := rfl
@[simp] theorem State.updRun_blocks (s : State) (n : Nat) (f : PlumbRun → PlumbRun) : (s.updRun n f).blocks = s.blocks := rfl
@[simp] theorem State.updRun_gangs (s : State) (n : Nat) (f : PlumbRun → PlumbRun) : (s.updRun n f).gangs = s.gangs := rfl
@[simp] theorem State.updRun_cores (s : State) (n : Nat) (f : PlumbRun → PlumbRun) : (s.updRun n f).cores = s.cores := rfl
@[simp] theorem State.updRun_clusters (s : State) (n : Nat) (f : PlumbRun → PlumbRun) : (s.updRun n f).clusters = s.clusters := rfl
@[simp] theorem State.updRun_parts (s : State) (n : Nat) (f : PlumbRun → PlumbRun) : (s.updRun n f).parts = s.parts := rfl
@[simp] theorem State.updRun_ctxs (s : State) (n : Nat) (f : PlumbRun → PlumbRun) : (s.updRun n f).ctxs = s.ctxs := rfl
@[simp] theorem State.updRun_queues (s : State) (n : Nat) (f : PlumbRun → PlumbRun) : (s.updRun n f).queues = s.queues := rfl
@[simp] theorem State.updRun_jobs (s : State) (n : Nat) (f : PlumbRun → PlumbRun) : (s.updRun n f).jobs = s.jobs := rfl
@[simp] theorem State.updRun_objs (s : State) (n : Nat) (f : PlumbRun → PlumbRun) : (s.updRun n f).objs = s.objs := rfl
@[simp] theorem State.updRun_copies (s : State) (n : Nat) (f : PlumbRun → PlumbRun) : (s.updRun n f).copies = s.copies := rfl
@[simp] theorem State.updRun_bars (s : State) (n : Nat) (f : PlumbRun → PlumbRun) : (s.updRun n f).bars = s.bars := rfl
@[simp] theorem State.updRun_runs (s : State) (n : Nat) (f : PlumbRun → PlumbRun) : (s.updRun n f).runs = updAt s.runs n f := rfl
@[simp] theorem State.updRun_shoots (s : State) (n : Nat) (f : PlumbRun → PlumbRun) : (s.updRun n f).shoots = s.shoots := rfl
@[simp] theorem State.updRun_accs (s : State) (n : Nat) (f : PlumbRun → PlumbRun) : (s.updRun n f).accs = s.accs := rfl
@[simp] theorem State.updRun_mem (s : State) (n : Nat) (f : PlumbRun → PlumbRun) : (s.updRun n f).mem = s.mem := rfl
@[simp] theorem State.updRun_pois (s : State) (n : Nat) (f : PlumbRun → PlumbRun) : (s.updRun n f).pois = s.pois := rfl
@[simp] theorem State.updRun_fabric (s : State) (n : Nat) (f : PlumbRun → PlumbRun) : (s.updRun n f).fabric = s.fabric := rfl
@[simp] theorem State.updRun_trust (s : State) (n : Nat) (f : PlumbRun → PlumbRun) : (s.updRun n f).trust = s.trust := rfl
@[simp] theorem State.updRun_host (s : State) (n : Nat) (f : PlumbRun → PlumbRun) : (s.updRun n f).host = s.host := rfl
@[simp] theorem State.updRun_melt (s : State) (n : Nat) (f : PlumbRun → PlumbRun) : (s.updRun n f).melt = s.melt := rfl
@[simp] theorem State.updRun_rfz (s : State) (n : Nat) (f : PlumbRun → PlumbRun) : (s.updRun n f).rfz = s.rfz := rfl
@[simp] theorem State.updRun_portBound (s : State) (n : Nat) (f : PlumbRun → PlumbRun) : (s.updRun n f).portBound = s.portBound := rfl
@[simp] theorem State.updRun_records (s : State) (n : Nat) (f : PlumbRun → PlumbRun) : (s.updRun n f).records = s.records := rfl
@[simp] theorem State.updRun_agenda (s : State) (n : Nat) (f : PlumbRun → PlumbRun) : (s.updRun n f).agenda = s.agenda := rfl
@[simp] theorem State.updRun_cur (s : State) (n : Nat) (f : PlumbRun → PlumbRun) : (s.updRun n f).cur = s.cur := rfl
@[simp] theorem State.updRun_turn (s : State) (n : Nat) (f : PlumbRun → PlumbRun) : (s.updRun n f).turn = s.turn := rfl
@[simp] theorem State.updRun_now (s : State) (n : Nat) (f : PlumbRun → PlumbRun) : (s.updRun n f).now = s.now := rfl
@[simp] theorem State.updRun_tick (s : State) (n : Nat) (f : PlumbRun → PlumbRun) : (s.updRun n f).tick = s.tick := rfl
@[simp] theorem State.updRun_time (s : State) (n : Nat) (f : PlumbRun → PlumbRun) : (s.updRun n f).time = s.time := rfl

/-! ### bump -/

@[simp] theorem State.bump_waves (s : State) : (s.bump).waves = s.waves := rfl
@[simp] theorem State.bump_vfiles (s : State) : (s.bump).vfiles = s.vfiles := rfl
@[simp] theorem State.bump_blocks (s : State) : (s.bump).blocks = s.blocks := rfl
@[simp] theorem State.bump_gangs (s : State) : (s.bump).gangs = s.gangs := rfl
@[simp] theorem State.bump_cores (s : State) : (s.bump).cores = s.cores := rfl
@[simp] theorem State.bump_clusters (s : State) : (s.bump).clusters = s.clusters := rfl
@[simp] theorem State.bump_parts (s : State) : (s.bump).parts = s.parts := rfl
@[simp] theorem State.bump_ctxs (s : State) : (s.bump).ctxs = s.ctxs := rfl
@[simp] theorem State.bump_queues (s : State) : (s.bump).queues = s.queues := rfl
@[simp] theorem State.bump_jobs (s : State) : (s.bump).jobs = s.jobs := rfl
@[simp] theorem State.bump_objs (s : State) : (s.bump).objs = s.objs := rfl
@[simp] theorem State.bump_copies (s : State) : (s.bump).copies = s.copies := rfl
@[simp] theorem State.bump_bars (s : State) : (s.bump).bars = s.bars := rfl
@[simp] theorem State.bump_runs (s : State) : (s.bump).runs = s.runs := rfl
@[simp] theorem State.bump_shoots (s : State) : (s.bump).shoots = s.shoots := rfl
@[simp] theorem State.bump_accs (s : State) : (s.bump).accs = s.accs := rfl
@[simp] theorem State.bump_mem (s : State) : (s.bump).mem = s.mem := rfl
@[simp] theorem State.bump_pois (s : State) : (s.bump).pois = s.pois := rfl
@[simp] theorem State.bump_fabric (s : State) : (s.bump).fabric = s.fabric := rfl
@[simp] theorem State.bump_trust (s : State) : (s.bump).trust = s.trust := rfl
@[simp] theorem State.bump_host (s : State) : (s.bump).host = s.host := rfl
@[simp] theorem State.bump_melt (s : State) : (s.bump).melt = s.melt := rfl
@[simp] theorem State.bump_rfz (s : State) : (s.bump).rfz = s.rfz := rfl
@[simp] theorem State.bump_portBound (s : State) : (s.bump).portBound = s.portBound := rfl
@[simp] theorem State.bump_records (s : State) : (s.bump).records = s.records := rfl
@[simp] theorem State.bump_agenda (s : State) : (s.bump).agenda = s.agenda := rfl
@[simp] theorem State.bump_cur (s : State) : (s.bump).cur = s.cur := rfl
@[simp] theorem State.bump_turn (s : State) : (s.bump).turn = s.turn := rfl
@[simp] theorem State.bump_now (s : State) : (s.bump).now = s.now + 1 := rfl
@[simp] theorem State.bump_tick (s : State) : (s.bump).tick = s.tick := rfl
@[simp] theorem State.bump_time (s : State) : (s.bump).time = s.time := rfl

/-! ### listen and begin -/

@[simp] theorem State.listen_waves (s : State) : (s.listen).waves = s.waves := rfl
@[simp] theorem State.listen_vfiles (s : State) : (s.listen).vfiles = s.vfiles := rfl
@[simp] theorem State.listen_blocks (s : State) : (s.listen).blocks = s.blocks := rfl
@[simp] theorem State.listen_gangs (s : State) : (s.listen).gangs = s.gangs := rfl
@[simp] theorem State.listen_cores (s : State) : (s.listen).cores = s.cores := rfl
@[simp] theorem State.listen_clusters (s : State) : (s.listen).clusters = s.clusters := rfl
@[simp] theorem State.listen_parts (s : State) : (s.listen).parts = s.parts := rfl
@[simp] theorem State.listen_ctxs (s : State) : (s.listen).ctxs = s.ctxs := rfl
@[simp] theorem State.listen_queues (s : State) : (s.listen).queues = s.queues := rfl
@[simp] theorem State.listen_objs (s : State) : (s.listen).objs = s.objs := rfl
@[simp] theorem State.listen_copies (s : State) : (s.listen).copies = s.copies := rfl
@[simp] theorem State.listen_bars (s : State) : (s.listen).bars = s.bars := rfl
@[simp] theorem State.listen_runs (s : State) : (s.listen).runs = s.runs := rfl
@[simp] theorem State.listen_shoots (s : State) : (s.listen).shoots = s.shoots := rfl
@[simp] theorem State.listen_accs (s : State) : (s.listen).accs = s.accs := rfl
@[simp] theorem State.listen_mem (s : State) : (s.listen).mem = s.mem := rfl
@[simp] theorem State.listen_pois (s : State) : (s.listen).pois = s.pois := rfl
@[simp] theorem State.listen_fabric (s : State) : (s.listen).fabric = s.fabric := rfl
@[simp] theorem State.listen_trust (s : State) : (s.listen).trust = s.trust := rfl
@[simp] theorem State.listen_host (s : State) : (s.listen).host = s.host := rfl
@[simp] theorem State.listen_melt (s : State) : (s.listen).melt = s.melt := rfl
@[simp] theorem State.listen_rfz (s : State) : (s.listen).rfz = s.rfz := rfl
@[simp] theorem State.listen_portBound (s : State) : (s.listen).portBound = s.portBound := rfl
@[simp] theorem State.listen_records (s : State) : (s.listen).records = s.records := rfl
@[simp] theorem State.listen_agenda (s : State) : (s.listen).agenda = s.agenda := rfl
@[simp] theorem State.listen_cur (s : State) : (s.listen).cur = s.cur := rfl
@[simp] theorem State.listen_turn (s : State) : (s.listen).turn = s.turn := rfl
@[simp] theorem State.listen_now (s : State) : (s.listen).now = s.now := rfl
@[simp] theorem State.listen_tick (s : State) : (s.listen).tick = s.tick := rfl
@[simp] theorem State.listen_time (s : State) : (s.listen).time = s.time := rfl

/-- The bins put back change cores and contexts alone. -/
theorem State.binBack_only (s : State) (ci : Nat) (x : Nat × Bin) : ∃ c l, s.binBack ci x = { s with cores := c, ctxs := l } := by
  unfold State.binBack
  split
  · exact ⟨_, _, rfl⟩
  · split <;> exact ⟨_, _, rfl⟩

theorem State.binsBack_only (s : State) (ci : Nat) : ∃ c l, s.binsBack ci = { s with cores := c, ctxs := l } := by
  have fold (l : List (Nat × Bin)) (s : State) : ∃ c k, l.foldl (fun s x => s.binBack ci x) s = { s with cores := c, ctxs := k } := by
    induction l generalizing s with
    | nil => exact ⟨_, _, rfl⟩
    | cons x xs ih =>
      obtain ⟨c, k, h⟩ := State.binBack_only s ci x
      obtain ⟨c', k', h'⟩ := ih (s.binBack ci x)
      exact ⟨c', k', by simp only [List.foldl_cons, h'] ; rw [h]⟩
  unfold State.binsBack
  dsimp only
  split
  · exact ⟨_, _, rfl⟩
  · obtain ⟨c, k, h⟩ := fold (s.ctx ci).bins (s.updCtx ci (fun c => { c with bins := [] }))
    exact ⟨c, k, by rw [h]; rfl⟩

theorem State.rebin_only (s : State) : ∃ c l, s.rebin = { s with cores := c, ctxs := l } := by
  have fold (l : List Nat) (s : State) : ∃ c k, l.foldl (fun s ci => s.binsBack ci) s = { s with cores := c, ctxs := k } := by
    induction l generalizing s with
    | nil => exact ⟨_, _, rfl⟩
    | cons x xs ih =>
      obtain ⟨c, k, h⟩ := State.binsBack_only s x
      obtain ⟨c', k', h'⟩ := ih (s.binsBack x)
      exact ⟨c', k', by simp only [List.foldl_cons, h']; rw [h]⟩
  unfold State.rebin
  split
  · exact fold _ _
  · exact ⟨_, _, rfl⟩

/-- Fields that requests of other devices leave alone: all but memory, poison and the fabric. -/
def State.OnlyMemory (s t : State) : Prop := ∃ m p f, t = { s with mem := m, pois := p, fabric := f }

theorem State.OnlyMemory.refl (s : State) : s.OnlyMemory s := ⟨_, _, _, rfl⟩

theorem State.OnlyMemory.trans {s t u : State} (h : s.OnlyMemory t) (k : t.OnlyMemory u) : s.OnlyMemory u := by
  obtain ⟨_, _, _, rfl⟩ := h
  obtain ⟨_, _, _, rfl⟩ := k
  exact ⟨_, _, _, rfl⟩

/-- Folding an update of memory, poison and the fabric. -/
theorem State.OnlyMemory.fold {α : Type} (f : State → α → State) (hf : ∀ (s : State) (x : α), s.OnlyMemory (f s x)) (l : List α) (s : State) :
    s.OnlyMemory (l.foldl f s) := by
  induction l generalizing s with
  | nil => exact .refl s
  | cons x xs ih => exact (hf s x).trans (ih _)

theorem State.poison_only (s : State) (a : Nat) : s.OnlyMemory (s.poison a) := ⟨_, _, _, rfl⟩

theorem State.writeN_only (s : State) (a n v : Nat) : s.OnlyMemory (s.writeN a n v) := ⟨_, _, _, rfl⟩

theorem State.reply_only (s : State) (r : RemoteIn) (x : RemoteAnswer) : s.OnlyMemory (s.reply r x) := by
  unfold State.reply
  split
  · exact .refl s
  · exact ⟨_, _, _, rfl⟩

theorem State.flaggedWrite_only (s : State) (key : Nat) (l : List Byte) (flag : Bool) : s.OnlyMemory (s.flaggedWrite key l flag) := by
  have h : s.OnlyMemory (s.writeBytes key l) := ⟨_, _, _, rfl⟩
  unfold State.flaggedWrite
  dsimp only
  split
  · exact h.trans (State.OnlyMemory.fold _ (fun s _ => State.poison_only s _) _ _)
  · exact h

theorem State.performRemote_only (s : State) (r : RemoteIn) (key : Nat) : s.OnlyMemory (s.performRemote r key) := by
  have ite {c : Prop} [Decidable c] (a n v : Nat) : s.OnlyMemory (if c then s else s.writeN a n v) := by
    split
    · exact .refl s
    · exact s.writeN_only a n v
  unfold State.performRemote
  split
  · exact s.reply_only r _
  · exact (s.flaggedWrite_only _ _ _).trans (State.reply_only _ r _)
  · exact (ite _ _ _).trans (State.reply_only _ r _)
  · exact (ite _ _ _).trans (State.reply_only _ r _)
  · exact ⟨_, _, _, rfl⟩
  · exact ⟨_, _, _, rfl⟩

theorem State.takeUp_only (s : State) (r : RemoteIn) : s.OnlyMemory (s.takeUp r) := by
  have h : s.OnlyMemory { s with fabric := { s.fabric with performed := s.fabric.performed ++ [(r.dev, r.seq)] } } := ⟨_, _, _, rfl⟩
  unfold State.takeUp
  dsimp only
  split
  · exact h.trans (State.reply_only _ r _)
  · split
    · exact h.trans (State.reply_only _ r _)
    · exact h.trans (State.performRemote_only _ r _)

theorem State.takeTurns_only (s : State) (dev fuel : Nat) : s.OnlyMemory (s.takeTurns dev fuel) := by
  induction fuel generalizing s with
  | zero => exact .refl s
  | succ n ih =>
    unfold State.takeTurns
    split
    · exact .refl s
    · split
      · have h (l : List (RemoteIn × Nat)) : s.OnlyMemory { s with fabric := { s.fabric with early := l } } := ⟨_, _, _, rfl⟩
        exact ((h _).trans (State.takeUp_only _ _)).trans (ih _)
      · exact .refl s

/-- Early requests that are taken up change memory, poison and the fabric alone. -/
theorem State.overdue_only (s : State) : s.OnlyMemory s.overdue := State.OnlyMemory.fold _ (fun s (x : RemoteIn × Nat) => State.takeTurns_only s x.1.dev _) _ _

/-- What a step's beginning changes. -/
theorem State.begin_only (s : State) :
    ∃ c l m p f, s.begin = { s.listen with cores := c, ctxs := l, mem := m, pois := p, fabric := f, tick := s.tick + stride } := by
  obtain ⟨c, l, h⟩ := State.rebin_only s.listen
  obtain ⟨m, p, f, k⟩ := State.overdue_only s.listen.rebin
  exact ⟨c, l, m, p, f, by unfold State.begin; rw [k, h]⟩

/-- No bin waits for a place and no request is early: a step begins with the machine as it is. -/
theorem State.begin_of_no_bins {s : State} (h : ∀ c ∈ s.ctxs, c.bins = []) (e : s.fabric.early = []) :
    s.begin = { s.listen with tick := s.tick + stride } := by
  have : (s.listen.ctxs.any (fun c => !c.bins.isEmpty)) = false := by
    simp only [State.listen_ctxs, List.any_eq_false]
    intro c hc
    simp [h c hc]
  unfold State.begin State.rebin State.overdue
  rw [this]
  simp [e]

@[simp] theorem State.begin_waves (s : State) : (s.begin).waves = s.waves := by
  obtain ⟨c, l, m, p, f, h⟩ := State.begin_only s
  simp [h]
@[simp] theorem State.begin_vfiles (s : State) : (s.begin).vfiles = s.vfiles := by
  obtain ⟨c, l, m, p, f, h⟩ := State.begin_only s
  simp [h]
@[simp] theorem State.begin_blocks (s : State) : (s.begin).blocks = s.blocks := by
  obtain ⟨c, l, m, p, f, h⟩ := State.begin_only s
  simp [h]
@[simp] theorem State.begin_gangs (s : State) : (s.begin).gangs = s.gangs := by
  obtain ⟨c, l, m, p, f, h⟩ := State.begin_only s
  simp [h]
@[simp] theorem State.begin_clusters (s : State) : (s.begin).clusters = s.clusters := by
  obtain ⟨c, l, m, p, f, h⟩ := State.begin_only s
  simp [h]
@[simp] theorem State.begin_parts (s : State) : (s.begin).parts = s.parts := by
  obtain ⟨c, l, m, p, f, h⟩ := State.begin_only s
  simp [h]
@[simp] theorem State.begin_queues (s : State) : (s.begin).queues = s.queues := by
  obtain ⟨c, l, m, p, f, h⟩ := State.begin_only s
  simp [h]
@[simp] theorem State.begin_jobs (s : State) : (s.begin).jobs = s.listen.jobs := by
  obtain ⟨c, l, m, p, f, h⟩ := State.begin_only s
  simp [h]
@[simp] theorem State.begin_objs (s : State) : (s.begin).objs = s.objs := by
  obtain ⟨c, l, m, p, f, h⟩ := State.begin_only s
  simp [h]
@[simp] theorem State.begin_copies (s : State) : (s.begin).copies = s.copies := by
  obtain ⟨c, l, m, p, f, h⟩ := State.begin_only s
  simp [h]
@[simp] theorem State.begin_bars (s : State) : (s.begin).bars = s.bars := by
  obtain ⟨c, l, m, p, f, h⟩ := State.begin_only s
  simp [h]
@[simp] theorem State.begin_runs (s : State) : (s.begin).runs = s.runs := by
  obtain ⟨c, l, m, p, f, h⟩ := State.begin_only s
  simp [h]
@[simp] theorem State.begin_shoots (s : State) : (s.begin).shoots = s.shoots := by
  obtain ⟨c, l, m, p, f, h⟩ := State.begin_only s
  simp [h]
@[simp] theorem State.begin_accs (s : State) : (s.begin).accs = s.accs := by
  obtain ⟨c, l, m, p, f, h⟩ := State.begin_only s
  simp [h]
@[simp] theorem State.begin_trust (s : State) : (s.begin).trust = s.trust := by
  obtain ⟨c, l, m, p, f, h⟩ := State.begin_only s
  simp [h]
@[simp] theorem State.begin_host (s : State) : (s.begin).host = s.host := by
  obtain ⟨c, l, m, p, f, h⟩ := State.begin_only s
  simp [h]
@[simp] theorem State.begin_melt (s : State) : (s.begin).melt = s.melt := by
  obtain ⟨c, l, m, p, f, h⟩ := State.begin_only s
  simp [h]
@[simp] theorem State.begin_rfz (s : State) : (s.begin).rfz = s.rfz := by
  obtain ⟨c, l, m, p, f, h⟩ := State.begin_only s
  simp [h]
@[simp] theorem State.begin_portBound (s : State) : (s.begin).portBound = s.portBound := by
  obtain ⟨c, l, m, p, f, h⟩ := State.begin_only s
  simp [h]
@[simp] theorem State.begin_records (s : State) : (s.begin).records = s.records := by
  obtain ⟨c, l, m, p, f, h⟩ := State.begin_only s
  simp [h]
@[simp] theorem State.begin_agenda (s : State) : (s.begin).agenda = s.agenda := by
  obtain ⟨c, l, m, p, f, h⟩ := State.begin_only s
  simp [h]
@[simp] theorem State.begin_cur (s : State) : (s.begin).cur = s.cur := by
  obtain ⟨c, l, m, p, f, h⟩ := State.begin_only s
  simp [h]
@[simp] theorem State.begin_turn (s : State) : (s.begin).turn = s.turn := by
  obtain ⟨c, l, m, p, f, h⟩ := State.begin_only s
  simp [h]
@[simp] theorem State.begin_now (s : State) : (s.begin).now = s.now := by
  obtain ⟨c, l, m, p, f, h⟩ := State.begin_only s
  simp [h]
@[simp] theorem State.begin_time (s : State) : (s.begin).time = s.time := by
  obtain ⟨c, l, m, p, f, h⟩ := State.begin_only s
  simp [h]
@[simp] theorem State.begin_tick (s : State) : (s.begin).tick = s.tick + stride := rfl

/-! ### writeBytes -/

@[simp] theorem State.writeBytes_waves (s : State) (a : Nat) (l : List Byte) : (s.writeBytes a l).waves = s.waves := rfl
@[simp] theorem State.writeBytes_vfiles (s : State) (a : Nat) (l : List Byte) : (s.writeBytes a l).vfiles = s.vfiles := rfl
@[simp] theorem State.writeBytes_blocks (s : State) (a : Nat) (l : List Byte) : (s.writeBytes a l).blocks = s.blocks := rfl
@[simp] theorem State.writeBytes_gangs (s : State) (a : Nat) (l : List Byte) : (s.writeBytes a l).gangs = s.gangs := rfl
@[simp] theorem State.writeBytes_cores (s : State) (a : Nat) (l : List Byte) : (s.writeBytes a l).cores = s.cores := rfl
@[simp] theorem State.writeBytes_clusters (s : State) (a : Nat) (l : List Byte) : (s.writeBytes a l).clusters = s.clusters := rfl
@[simp] theorem State.writeBytes_parts (s : State) (a : Nat) (l : List Byte) : (s.writeBytes a l).parts = s.parts := rfl
@[simp] theorem State.writeBytes_ctxs (s : State) (a : Nat) (l : List Byte) : (s.writeBytes a l).ctxs = s.ctxs := rfl
@[simp] theorem State.writeBytes_queues (s : State) (a : Nat) (l : List Byte) : (s.writeBytes a l).queues = s.queues := rfl
@[simp] theorem State.writeBytes_jobs (s : State) (a : Nat) (l : List Byte) : (s.writeBytes a l).jobs = s.jobs := rfl
@[simp] theorem State.writeBytes_objs (s : State) (a : Nat) (l : List Byte) : (s.writeBytes a l).objs = s.objs := rfl
@[simp] theorem State.writeBytes_copies (s : State) (a : Nat) (l : List Byte) : (s.writeBytes a l).copies = s.copies := rfl
@[simp] theorem State.writeBytes_bars (s : State) (a : Nat) (l : List Byte) : (s.writeBytes a l).bars = s.bars := rfl
@[simp] theorem State.writeBytes_runs (s : State) (a : Nat) (l : List Byte) : (s.writeBytes a l).runs = s.runs := rfl
@[simp] theorem State.writeBytes_shoots (s : State) (a : Nat) (l : List Byte) : (s.writeBytes a l).shoots = s.shoots := rfl
@[simp] theorem State.writeBytes_accs (s : State) (a : Nat) (l : List Byte) : (s.writeBytes a l).accs = s.accs := rfl
@[simp] theorem State.writeBytes_mem (s : State) (a : Nat) (l : List Byte) : (s.writeBytes a l).mem = memWriteBytes s.mem a l := rfl
@[simp] theorem State.writeBytes_fabric (s : State) (a : Nat) (l : List Byte) : (s.writeBytes a l).fabric = s.fabric := rfl
@[simp] theorem State.writeBytes_trust (s : State) (a : Nat) (l : List Byte) : (s.writeBytes a l).trust = s.trust := rfl
@[simp] theorem State.writeBytes_host (s : State) (a : Nat) (l : List Byte) : (s.writeBytes a l).host = s.host := rfl
@[simp] theorem State.writeBytes_melt (s : State) (a : Nat) (l : List Byte) : (s.writeBytes a l).melt = s.melt := rfl
@[simp] theorem State.writeBytes_rfz (s : State) (a : Nat) (l : List Byte) : (s.writeBytes a l).rfz = s.rfz := rfl
@[simp] theorem State.writeBytes_portBound (s : State) (a : Nat) (l : List Byte) : (s.writeBytes a l).portBound = s.portBound := rfl
@[simp] theorem State.writeBytes_records (s : State) (a : Nat) (l : List Byte) : (s.writeBytes a l).records = s.records := rfl
@[simp] theorem State.writeBytes_agenda (s : State) (a : Nat) (l : List Byte) : (s.writeBytes a l).agenda = s.agenda := rfl
@[simp] theorem State.writeBytes_cur (s : State) (a : Nat) (l : List Byte) : (s.writeBytes a l).cur = s.cur := rfl
@[simp] theorem State.writeBytes_turn (s : State) (a : Nat) (l : List Byte) : (s.writeBytes a l).turn = s.turn := rfl
@[simp] theorem State.writeBytes_now (s : State) (a : Nat) (l : List Byte) : (s.writeBytes a l).now = s.now := rfl
@[simp] theorem State.writeBytes_tick (s : State) (a : Nat) (l : List Byte) : (s.writeBytes a l).tick = s.tick := rfl
@[simp] theorem State.writeBytes_time (s : State) (a : Nat) (l : List Byte) : (s.writeBytes a l).time = s.time := rfl

/-! ### clearBytes -/

@[simp] theorem State.clearBytes_waves (s : State) (a n : Nat) : (s.clearBytes a n).waves = s.waves := rfl
@[simp] theorem State.clearBytes_vfiles (s : State) (a n : Nat) : (s.clearBytes a n).vfiles = s.vfiles := rfl
@[simp] theorem State.clearBytes_blocks (s : State) (a n : Nat) : (s.clearBytes a n).blocks = s.blocks := rfl
@[simp] theorem State.clearBytes_gangs (s : State) (a n : Nat) : (s.clearBytes a n).gangs = s.gangs := rfl
@[simp] theorem State.clearBytes_cores (s : State) (a n : Nat) : (s.clearBytes a n).cores = s.cores := rfl
@[simp] theorem State.clearBytes_clusters (s : State) (a n : Nat) : (s.clearBytes a n).clusters = s.clusters := rfl
@[simp] theorem State.clearBytes_parts (s : State) (a n : Nat) : (s.clearBytes a n).parts = s.parts := rfl
@[simp] theorem State.clearBytes_ctxs (s : State) (a n : Nat) : (s.clearBytes a n).ctxs = s.ctxs := rfl
@[simp] theorem State.clearBytes_queues (s : State) (a n : Nat) : (s.clearBytes a n).queues = s.queues := rfl
@[simp] theorem State.clearBytes_jobs (s : State) (a n : Nat) : (s.clearBytes a n).jobs = s.jobs := rfl
@[simp] theorem State.clearBytes_objs (s : State) (a n : Nat) : (s.clearBytes a n).objs = s.objs := rfl
@[simp] theorem State.clearBytes_copies (s : State) (a n : Nat) : (s.clearBytes a n).copies = s.copies := rfl
@[simp] theorem State.clearBytes_bars (s : State) (a n : Nat) : (s.clearBytes a n).bars = s.bars := rfl
@[simp] theorem State.clearBytes_runs (s : State) (a n : Nat) : (s.clearBytes a n).runs = s.runs := rfl
@[simp] theorem State.clearBytes_shoots (s : State) (a n : Nat) : (s.clearBytes a n).shoots = s.shoots := rfl
@[simp] theorem State.clearBytes_accs (s : State) (a n : Nat) : (s.clearBytes a n).accs = s.accs := rfl
@[simp] theorem State.clearBytes_fabric (s : State) (a n : Nat) : (s.clearBytes a n).fabric = s.fabric := rfl
@[simp] theorem State.clearBytes_trust (s : State) (a n : Nat) : (s.clearBytes a n).trust = s.trust := rfl
@[simp] theorem State.clearBytes_host (s : State) (a n : Nat) : (s.clearBytes a n).host = s.host := rfl
@[simp] theorem State.clearBytes_melt (s : State) (a n : Nat) : (s.clearBytes a n).melt = s.melt := rfl
@[simp] theorem State.clearBytes_rfz (s : State) (a n : Nat) : (s.clearBytes a n).rfz = s.rfz := rfl
@[simp] theorem State.clearBytes_portBound (s : State) (a n : Nat) : (s.clearBytes a n).portBound = s.portBound := rfl
@[simp] theorem State.clearBytes_records (s : State) (a n : Nat) : (s.clearBytes a n).records = s.records := rfl
@[simp] theorem State.clearBytes_agenda (s : State) (a n : Nat) : (s.clearBytes a n).agenda = s.agenda := rfl
@[simp] theorem State.clearBytes_cur (s : State) (a n : Nat) : (s.clearBytes a n).cur = s.cur := rfl
@[simp] theorem State.clearBytes_turn (s : State) (a n : Nat) : (s.clearBytes a n).turn = s.turn := rfl
@[simp] theorem State.clearBytes_now (s : State) (a n : Nat) : (s.clearBytes a n).now = s.now := rfl
@[simp] theorem State.clearBytes_tick (s : State) (a n : Nat) : (s.clearBytes a n).tick = s.tick := rfl
@[simp] theorem State.clearBytes_time (s : State) (a n : Nat) : (s.clearBytes a n).time = s.time := rfl

/-! ### heal -/

@[simp] theorem State.heal_waves (s : State) (l : List (Nat × Nat)) : (s.heal l).waves = s.waves := rfl
@[simp] theorem State.heal_vfiles (s : State) (l : List (Nat × Nat)) : (s.heal l).vfiles = s.vfiles := rfl
@[simp] theorem State.heal_blocks (s : State) (l : List (Nat × Nat)) : (s.heal l).blocks = s.blocks := rfl
@[simp] theorem State.heal_gangs (s : State) (l : List (Nat × Nat)) : (s.heal l).gangs = s.gangs := rfl
@[simp] theorem State.heal_cores (s : State) (l : List (Nat × Nat)) : (s.heal l).cores = s.cores := rfl
@[simp] theorem State.heal_clusters (s : State) (l : List (Nat × Nat)) : (s.heal l).clusters = s.clusters := rfl
@[simp] theorem State.heal_parts (s : State) (l : List (Nat × Nat)) : (s.heal l).parts = s.parts := rfl
@[simp] theorem State.heal_ctxs (s : State) (l : List (Nat × Nat)) : (s.heal l).ctxs = s.ctxs := rfl
@[simp] theorem State.heal_queues (s : State) (l : List (Nat × Nat)) : (s.heal l).queues = s.queues := rfl
@[simp] theorem State.heal_jobs (s : State) (l : List (Nat × Nat)) : (s.heal l).jobs = s.jobs := rfl
@[simp] theorem State.heal_objs (s : State) (l : List (Nat × Nat)) : (s.heal l).objs = s.objs := rfl
@[simp] theorem State.heal_copies (s : State) (l : List (Nat × Nat)) : (s.heal l).copies = s.copies := rfl
@[simp] theorem State.heal_bars (s : State) (l : List (Nat × Nat)) : (s.heal l).bars = s.bars := rfl
@[simp] theorem State.heal_runs (s : State) (l : List (Nat × Nat)) : (s.heal l).runs = s.runs := rfl
@[simp] theorem State.heal_shoots (s : State) (l : List (Nat × Nat)) : (s.heal l).shoots = s.shoots := rfl
@[simp] theorem State.heal_accs (s : State) (l : List (Nat × Nat)) : (s.heal l).accs = s.accs := rfl
@[simp] theorem State.heal_mem (s : State) (l : List (Nat × Nat)) : (s.heal l).mem = s.mem := rfl
@[simp] theorem State.heal_fabric (s : State) (l : List (Nat × Nat)) : (s.heal l).fabric = s.fabric := rfl
@[simp] theorem State.heal_trust (s : State) (l : List (Nat × Nat)) : (s.heal l).trust = s.trust := rfl
@[simp] theorem State.heal_host (s : State) (l : List (Nat × Nat)) : (s.heal l).host = s.host := rfl
@[simp] theorem State.heal_melt (s : State) (l : List (Nat × Nat)) : (s.heal l).melt = s.melt := rfl
@[simp] theorem State.heal_rfz (s : State) (l : List (Nat × Nat)) : (s.heal l).rfz = s.rfz := rfl
@[simp] theorem State.heal_portBound (s : State) (l : List (Nat × Nat)) : (s.heal l).portBound = s.portBound := rfl
@[simp] theorem State.heal_records (s : State) (l : List (Nat × Nat)) : (s.heal l).records = s.records := rfl
@[simp] theorem State.heal_agenda (s : State) (l : List (Nat × Nat)) : (s.heal l).agenda = s.agenda := rfl
@[simp] theorem State.heal_cur (s : State) (l : List (Nat × Nat)) : (s.heal l).cur = s.cur := rfl
@[simp] theorem State.heal_turn (s : State) (l : List (Nat × Nat)) : (s.heal l).turn = s.turn := rfl
@[simp] theorem State.heal_now (s : State) (l : List (Nat × Nat)) : (s.heal l).now = s.now := rfl
@[simp] theorem State.heal_tick (s : State) (l : List (Nat × Nat)) : (s.heal l).tick = s.tick := rfl
@[simp] theorem State.heal_time (s : State) (l : List (Nat × Nat)) : (s.heal l).time = s.time := rfl

/-! ### poison -/

@[simp] theorem State.poison_waves (s : State) (a : Nat) : (s.poison a).waves = s.waves := rfl
@[simp] theorem State.poison_vfiles (s : State) (a : Nat) : (s.poison a).vfiles = s.vfiles := rfl
@[simp] theorem State.poison_blocks (s : State) (a : Nat) : (s.poison a).blocks = s.blocks := rfl
@[simp] theorem State.poison_gangs (s : State) (a : Nat) : (s.poison a).gangs = s.gangs := rfl
@[simp] theorem State.poison_cores (s : State) (a : Nat) : (s.poison a).cores = s.cores := rfl
@[simp] theorem State.poison_clusters (s : State) (a : Nat) : (s.poison a).clusters = s.clusters := rfl
@[simp] theorem State.poison_parts (s : State) (a : Nat) : (s.poison a).parts = s.parts := rfl
@[simp] theorem State.poison_ctxs (s : State) (a : Nat) : (s.poison a).ctxs = s.ctxs := rfl
@[simp] theorem State.poison_queues (s : State) (a : Nat) : (s.poison a).queues = s.queues := rfl
@[simp] theorem State.poison_jobs (s : State) (a : Nat) : (s.poison a).jobs = s.jobs := rfl
@[simp] theorem State.poison_objs (s : State) (a : Nat) : (s.poison a).objs = s.objs := rfl
@[simp] theorem State.poison_copies (s : State) (a : Nat) : (s.poison a).copies = s.copies := rfl
@[simp] theorem State.poison_bars (s : State) (a : Nat) : (s.poison a).bars = s.bars := rfl
@[simp] theorem State.poison_runs (s : State) (a : Nat) : (s.poison a).runs = s.runs := rfl
@[simp] theorem State.poison_shoots (s : State) (a : Nat) : (s.poison a).shoots = s.shoots := rfl
@[simp] theorem State.poison_accs (s : State) (a : Nat) : (s.poison a).accs = s.accs := rfl
@[simp] theorem State.poison_mem (s : State) (a : Nat) : (s.poison a).mem = s.mem := rfl
@[simp] theorem State.poison_pois (s : State) (a : Nat) : (s.poison a).pois = insertNat (a / 8) s.pois := rfl
@[simp] theorem State.poison_fabric (s : State) (a : Nat) : (s.poison a).fabric = s.fabric := rfl
@[simp] theorem State.poison_trust (s : State) (a : Nat) : (s.poison a).trust = s.trust := rfl
@[simp] theorem State.poison_host (s : State) (a : Nat) : (s.poison a).host = s.host := rfl
@[simp] theorem State.poison_melt (s : State) (a : Nat) : (s.poison a).melt = s.melt := rfl
@[simp] theorem State.poison_rfz (s : State) (a : Nat) : (s.poison a).rfz = s.rfz := rfl
@[simp] theorem State.poison_portBound (s : State) (a : Nat) : (s.poison a).portBound = s.portBound := rfl
@[simp] theorem State.poison_records (s : State) (a : Nat) : (s.poison a).records = s.records := rfl
@[simp] theorem State.poison_agenda (s : State) (a : Nat) : (s.poison a).agenda = s.agenda := rfl
@[simp] theorem State.poison_cur (s : State) (a : Nat) : (s.poison a).cur = s.cur := rfl
@[simp] theorem State.poison_turn (s : State) (a : Nat) : (s.poison a).turn = s.turn := rfl
@[simp] theorem State.poison_now (s : State) (a : Nat) : (s.poison a).now = s.now := rfl
@[simp] theorem State.poison_tick (s : State) (a : Nat) : (s.poison a).tick = s.tick := rfl
@[simp] theorem State.poison_time (s : State) (a : Nat) : (s.poison a).time = s.time := rfl

/-! ### setReg -/

@[simp] theorem State.setReg_waves (s : State) (i : Nat) (d : Reg) (v : Word) : (s.setReg i d v).waves = updAt s.waves i (fun w => w.wr d v) := rfl
@[simp] theorem State.setReg_vfiles (s : State) (i : Nat) (d : Reg) (v : Word) : (s.setReg i d v).vfiles = s.vfiles := rfl
@[simp] theorem State.setReg_blocks (s : State) (i : Nat) (d : Reg) (v : Word) : (s.setReg i d v).blocks = s.blocks := rfl
@[simp] theorem State.setReg_gangs (s : State) (i : Nat) (d : Reg) (v : Word) : (s.setReg i d v).gangs = s.gangs := rfl
@[simp] theorem State.setReg_cores (s : State) (i : Nat) (d : Reg) (v : Word) : (s.setReg i d v).cores = s.cores := rfl
@[simp] theorem State.setReg_clusters (s : State) (i : Nat) (d : Reg) (v : Word) : (s.setReg i d v).clusters = s.clusters := rfl
@[simp] theorem State.setReg_parts (s : State) (i : Nat) (d : Reg) (v : Word) : (s.setReg i d v).parts = s.parts := rfl
@[simp] theorem State.setReg_ctxs (s : State) (i : Nat) (d : Reg) (v : Word) : (s.setReg i d v).ctxs = s.ctxs := rfl
@[simp] theorem State.setReg_queues (s : State) (i : Nat) (d : Reg) (v : Word) : (s.setReg i d v).queues = s.queues := rfl
@[simp] theorem State.setReg_jobs (s : State) (i : Nat) (d : Reg) (v : Word) : (s.setReg i d v).jobs = s.jobs := rfl
@[simp] theorem State.setReg_objs (s : State) (i : Nat) (d : Reg) (v : Word) : (s.setReg i d v).objs = s.objs := rfl
@[simp] theorem State.setReg_copies (s : State) (i : Nat) (d : Reg) (v : Word) : (s.setReg i d v).copies = s.copies := rfl
@[simp] theorem State.setReg_bars (s : State) (i : Nat) (d : Reg) (v : Word) : (s.setReg i d v).bars = s.bars := rfl
@[simp] theorem State.setReg_runs (s : State) (i : Nat) (d : Reg) (v : Word) : (s.setReg i d v).runs = s.runs := rfl
@[simp] theorem State.setReg_shoots (s : State) (i : Nat) (d : Reg) (v : Word) : (s.setReg i d v).shoots = s.shoots := rfl
@[simp] theorem State.setReg_accs (s : State) (i : Nat) (d : Reg) (v : Word) : (s.setReg i d v).accs = s.accs := rfl
@[simp] theorem State.setReg_mem (s : State) (i : Nat) (d : Reg) (v : Word) : (s.setReg i d v).mem = s.mem := rfl
@[simp] theorem State.setReg_pois (s : State) (i : Nat) (d : Reg) (v : Word) : (s.setReg i d v).pois = s.pois := rfl
@[simp] theorem State.setReg_fabric (s : State) (i : Nat) (d : Reg) (v : Word) : (s.setReg i d v).fabric = s.fabric := rfl
@[simp] theorem State.setReg_trust (s : State) (i : Nat) (d : Reg) (v : Word) : (s.setReg i d v).trust = s.trust := rfl
@[simp] theorem State.setReg_host (s : State) (i : Nat) (d : Reg) (v : Word) : (s.setReg i d v).host = s.host := rfl
@[simp] theorem State.setReg_melt (s : State) (i : Nat) (d : Reg) (v : Word) : (s.setReg i d v).melt = s.melt := rfl
@[simp] theorem State.setReg_rfz (s : State) (i : Nat) (d : Reg) (v : Word) : (s.setReg i d v).rfz = s.rfz := rfl
@[simp] theorem State.setReg_portBound (s : State) (i : Nat) (d : Reg) (v : Word) : (s.setReg i d v).portBound = s.portBound := rfl
@[simp] theorem State.setReg_records (s : State) (i : Nat) (d : Reg) (v : Word) : (s.setReg i d v).records = s.records := rfl
@[simp] theorem State.setReg_agenda (s : State) (i : Nat) (d : Reg) (v : Word) : (s.setReg i d v).agenda = s.agenda := rfl
@[simp] theorem State.setReg_cur (s : State) (i : Nat) (d : Reg) (v : Word) : (s.setReg i d v).cur = s.cur := rfl
@[simp] theorem State.setReg_turn (s : State) (i : Nat) (d : Reg) (v : Word) : (s.setReg i d v).turn = s.turn := rfl
@[simp] theorem State.setReg_now (s : State) (i : Nat) (d : Reg) (v : Word) : (s.setReg i d v).now = s.now := rfl
@[simp] theorem State.setReg_tick (s : State) (i : Nat) (d : Reg) (v : Word) : (s.setReg i d v).tick = s.tick := rfl
@[simp] theorem State.setReg_time (s : State) (i : Nat) (d : Reg) (v : Word) : (s.setReg i d v).time = s.time := rfl

/-! ### sideEffect -/

@[simp] theorem State.sideEffect_waves (s : State) (w : Wave) : (s.sideEffect w).waves = s.waves := rfl
@[simp] theorem State.sideEffect_vfiles (s : State) (w : Wave) : (s.sideEffect w).vfiles = s.vfiles := rfl
@[simp] theorem State.sideEffect_blocks (s : State) (w : Wave) : (s.sideEffect w).blocks = updAt s.blocks w.block (fun b => { b with latch := true }) := rfl
@[simp] theorem State.sideEffect_gangs (s : State) (w : Wave) : (s.sideEffect w).gangs = s.gangs := rfl
@[simp] theorem State.sideEffect_cores (s : State) (w : Wave) : (s.sideEffect w).cores = s.cores := rfl
@[simp] theorem State.sideEffect_clusters (s : State) (w : Wave) : (s.sideEffect w).clusters = s.clusters := rfl
@[simp] theorem State.sideEffect_parts (s : State) (w : Wave) : (s.sideEffect w).parts = s.parts := rfl
@[simp] theorem State.sideEffect_ctxs (s : State) (w : Wave) : (s.sideEffect w).ctxs = s.ctxs := rfl
@[simp] theorem State.sideEffect_queues (s : State) (w : Wave) : (s.sideEffect w).queues = s.queues := rfl
@[simp] theorem State.sideEffect_jobs (s : State) (w : Wave) : (s.sideEffect w).jobs = s.jobs := rfl
@[simp] theorem State.sideEffect_objs (s : State) (w : Wave) : (s.sideEffect w).objs = s.objs := rfl
@[simp] theorem State.sideEffect_copies (s : State) (w : Wave) : (s.sideEffect w).copies = s.copies := rfl
@[simp] theorem State.sideEffect_bars (s : State) (w : Wave) : (s.sideEffect w).bars = s.bars := rfl
@[simp] theorem State.sideEffect_runs (s : State) (w : Wave) : (s.sideEffect w).runs = s.runs := rfl
@[simp] theorem State.sideEffect_shoots (s : State) (w : Wave) : (s.sideEffect w).shoots = s.shoots := rfl
@[simp] theorem State.sideEffect_accs (s : State) (w : Wave) : (s.sideEffect w).accs = s.accs := rfl
@[simp] theorem State.sideEffect_mem (s : State) (w : Wave) : (s.sideEffect w).mem = s.mem := rfl
@[simp] theorem State.sideEffect_pois (s : State) (w : Wave) : (s.sideEffect w).pois = s.pois := rfl
@[simp] theorem State.sideEffect_fabric (s : State) (w : Wave) : (s.sideEffect w).fabric = s.fabric := rfl
@[simp] theorem State.sideEffect_trust (s : State) (w : Wave) : (s.sideEffect w).trust = s.trust := rfl
@[simp] theorem State.sideEffect_host (s : State) (w : Wave) : (s.sideEffect w).host = s.host := rfl
@[simp] theorem State.sideEffect_melt (s : State) (w : Wave) : (s.sideEffect w).melt = s.melt := rfl
@[simp] theorem State.sideEffect_rfz (s : State) (w : Wave) : (s.sideEffect w).rfz = s.rfz := rfl
@[simp] theorem State.sideEffect_portBound (s : State) (w : Wave) : (s.sideEffect w).portBound = s.portBound := rfl
@[simp] theorem State.sideEffect_records (s : State) (w : Wave) : (s.sideEffect w).records = s.records := rfl
@[simp] theorem State.sideEffect_agenda (s : State) (w : Wave) : (s.sideEffect w).agenda = s.agenda := rfl
@[simp] theorem State.sideEffect_cur (s : State) (w : Wave) : (s.sideEffect w).cur = s.cur := rfl
@[simp] theorem State.sideEffect_turn (s : State) (w : Wave) : (s.sideEffect w).turn = s.turn := rfl
@[simp] theorem State.sideEffect_now (s : State) (w : Wave) : (s.sideEffect w).now = s.now := rfl
@[simp] theorem State.sideEffect_tick (s : State) (w : Wave) : (s.sideEffect w).tick = s.tick := rfl
@[simp] theorem State.sideEffect_time (s : State) (w : Wave) : (s.sideEffect w).time = s.time := rfl

/-! ### addLanes -/

@[simp] theorem State.addLanes_waves (s : State) (w : Wave) (u m b st sl : Nat) : (s.addLanes w u m b st sl).waves = s.waves := rfl
@[simp] theorem State.addLanes_blocks (s : State) (w : Wave) (u m b st sl : Nat) : (s.addLanes w u m b st sl).blocks = s.blocks := rfl
@[simp] theorem State.addLanes_gangs (s : State) (w : Wave) (u m b st sl : Nat) : (s.addLanes w u m b st sl).gangs = s.gangs := rfl
@[simp] theorem State.addLanes_cores (s : State) (w : Wave) (u m b st sl : Nat) : (s.addLanes w u m b st sl).cores = s.cores := rfl
@[simp] theorem State.addLanes_clusters (s : State) (w : Wave) (u m b st sl : Nat) : (s.addLanes w u m b st sl).clusters = s.clusters := rfl
@[simp] theorem State.addLanes_parts (s : State) (w : Wave) (u m b st sl : Nat) : (s.addLanes w u m b st sl).parts = s.parts := rfl
@[simp] theorem State.addLanes_ctxs (s : State) (w : Wave) (u m b st sl : Nat) : (s.addLanes w u m b st sl).ctxs = s.ctxs := rfl
@[simp] theorem State.addLanes_queues (s : State) (w : Wave) (u m b st sl : Nat) : (s.addLanes w u m b st sl).queues = s.queues := rfl
@[simp] theorem State.addLanes_jobs (s : State) (w : Wave) (u m b st sl : Nat) : (s.addLanes w u m b st sl).jobs = s.jobs := rfl
@[simp] theorem State.addLanes_objs (s : State) (w : Wave) (u m b st sl : Nat) : (s.addLanes w u m b st sl).objs = s.objs := rfl
@[simp] theorem State.addLanes_copies (s : State) (w : Wave) (u m b st sl : Nat) : (s.addLanes w u m b st sl).copies = s.copies := rfl
@[simp] theorem State.addLanes_bars (s : State) (w : Wave) (u m b st sl : Nat) : (s.addLanes w u m b st sl).bars = s.bars := rfl
@[simp] theorem State.addLanes_runs (s : State) (w : Wave) (u m b st sl : Nat) : (s.addLanes w u m b st sl).runs = s.runs := rfl
@[simp] theorem State.addLanes_shoots (s : State) (w : Wave) (u m b st sl : Nat) : (s.addLanes w u m b st sl).shoots = s.shoots := rfl
@[simp] theorem State.addLanes_accs (s : State) (w : Wave) (u m b st sl : Nat) : (s.addLanes w u m b st sl).accs = s.accs := rfl
@[simp] theorem State.addLanes_mem (s : State) (w : Wave) (u m b st sl : Nat) : (s.addLanes w u m b st sl).mem = s.mem := rfl
@[simp] theorem State.addLanes_pois (s : State) (w : Wave) (u m b st sl : Nat) : (s.addLanes w u m b st sl).pois = s.pois := rfl
@[simp] theorem State.addLanes_fabric (s : State) (w : Wave) (u m b st sl : Nat) : (s.addLanes w u m b st sl).fabric = s.fabric := rfl
@[simp] theorem State.addLanes_trust (s : State) (w : Wave) (u m b st sl : Nat) : (s.addLanes w u m b st sl).trust = s.trust := rfl
@[simp] theorem State.addLanes_host (s : State) (w : Wave) (u m b st sl : Nat) : (s.addLanes w u m b st sl).host = s.host := rfl
@[simp] theorem State.addLanes_melt (s : State) (w : Wave) (u m b st sl : Nat) : (s.addLanes w u m b st sl).melt = s.melt := rfl
@[simp] theorem State.addLanes_rfz (s : State) (w : Wave) (u m b st sl : Nat) : (s.addLanes w u m b st sl).rfz = s.rfz := rfl
@[simp] theorem State.addLanes_portBound (s : State) (w : Wave) (u m b st sl : Nat) : (s.addLanes w u m b st sl).portBound = s.portBound := rfl
@[simp] theorem State.addLanes_records (s : State) (w : Wave) (u m b st sl : Nat) : (s.addLanes w u m b st sl).records = s.records := rfl
@[simp] theorem State.addLanes_agenda (s : State) (w : Wave) (u m b st sl : Nat) : (s.addLanes w u m b st sl).agenda = s.agenda := rfl
@[simp] theorem State.addLanes_cur (s : State) (w : Wave) (u m b st sl : Nat) : (s.addLanes w u m b st sl).cur = s.cur := rfl
@[simp] theorem State.addLanes_turn (s : State) (w : Wave) (u m b st sl : Nat) : (s.addLanes w u m b st sl).turn = s.turn := rfl
@[simp] theorem State.addLanes_now (s : State) (w : Wave) (u m b st sl : Nat) : (s.addLanes w u m b st sl).now = s.now := rfl
@[simp] theorem State.addLanes_tick (s : State) (w : Wave) (u m b st sl : Nat) : (s.addLanes w u m b st sl).tick = s.tick := rfl
@[simp] theorem State.addLanes_time (s : State) (w : Wave) (u m b st sl : Nat) : (s.addLanes w u m b st sl).time = s.time := rfl

end Sys2Proof.Machine
end

