-- ==== Sys2Proof/Laws/Memory.lean ====
section
/-! SUPPORT. The canonical form of memory and of the accumulators, and that every memory operation keeps it (log entry 1). -/

namespace Sys2Proof.Machine

/-! ### Rising association lists -/

/-- `k` lies above the bound. -/
def aboveLo (lo : Option Nat) (k : Nat) : Prop := ∀ l, lo = some l → l < k

variable {α : Type} [DecidableEq α] {z : α}

theorem assocWf_cons (lo : Option Nat) (k : Nat) (v : α) (r : List (Nat × α)) :
    assocWf z lo ((k, v) :: r) = true ↔ aboveLo lo k ∧ v ≠ z ∧ assocWf z (some k) r = true := by
  cases lo <;> simp [assocWf, aboveLo, and_assoc]

theorem aboveLo_some {l k : Nat} : aboveLo (some l) k ↔ l < k := by simp [aboveLo]

/-- A list that is canonical above a key is canonical above a lower bound. -/
theorem assocWf_weaken {lo : Option Nat} {k : Nat} {l : List (Nat × α)} (h : assocWf z (some k) l = true) (hk : aboveLo lo k) :
    assocWf z lo l = true := by
  cases l with
  | nil => rfl
  | cons x r =>
    obtain ⟨a, b, c⟩ := (assocWf_cons _ _ _ _).1 h
    exact (assocWf_cons _ _ _ _).2 ⟨fun y e => Nat.lt_trans (hk y e) (a k rfl), b, c⟩

/-- Below its first possible key a canonical list holds nothing. -/
theorem assocGet_low {k a : Nat} {l : List (Nat × α)} (h : assocWf z (some k) l = true) (ha : a ≤ k) : assocGet z l a = z := by
  cases l with
  | nil => rfl
  | cons x r =>
    have := aboveLo_some.1 ((assocWf_cons _ _ _ _).1 h).1
    simp [assocGet, show x.1 ≠ a by omega, show a < x.1 by omega]

/-- Setting an entry keeps the canonical form. -/
theorem assocSet_wf {lo : Option Nat} {l : List (Nat × α)} {a : Nat} {v : α} (h : assocWf z lo l = true) (ha : aboveLo lo a) :
    assocWf z lo (assocSet z l a v) = true := by
  induction l generalizing lo with
  | nil =>
    by_cases hv : v = z
    · simp [assocSet, hv, assocWf]
    · simp only [assocSet, hv, if_false]
      exact (assocWf_cons _ _ _ _).2 ⟨ha, hv, rfl⟩
  | cons x r ih =>
    obtain ⟨h1, h2, h3⟩ := (assocWf_cons _ _ _ _).1 h
    by_cases e : x.1 = a
    · by_cases hv : v = z
      · simpa [assocSet, e, hv] using assocWf_weaken h3 h1
      · simp only [assocSet, e, hv, if_true, if_false]
        exact (assocWf_cons _ _ _ _).2 ⟨ha, hv, e ▸ h3⟩
    · by_cases lt : a < x.1
      · by_cases hv : v = z
        · simpa [assocSet, e, lt, hv] using h
        · simp only [assocSet, e, lt, hv, if_true, if_false]
          exact (assocWf_cons _ _ _ _).2 ⟨ha, hv, (assocWf_cons _ _ _ _).2 ⟨aboveLo_some.2 lt, h2, h3⟩⟩
      · simp only [assocSet, e, lt, if_false]
        exact (assocWf_cons _ _ _ _).2 ⟨h1, h2, ih h3 (aboveLo_some.2 (by omega))⟩

/-- What an entry reads as after one has been set. -/
theorem assocGet_set {lo : Option Nat} {l : List (Nat × α)} (a b : Nat) (v : α) (h : assocWf z lo l = true) :
    assocGet z (assocSet z l a v) b = if b = a then v else assocGet z l b := by
  induction l generalizing lo with
  | nil =>
    by_cases hv : v = z
    · simp [assocSet, hv, assocGet]
    · by_cases hb : b = a
      · simp [assocSet, hv, assocGet, hb]
      · simp [assocSet, hv, assocGet, hb, Ne.symm hb]
  | cons x r ih =>
    obtain ⟨-, -, h3⟩ := (assocWf_cons _ _ _ _).1 h
    by_cases e : x.1 = a
    · subst e
      by_cases hv : v = z
      · by_cases hb : b = x.1
        · subst hb; simp [assocSet, hv, assocGet_low h3 (Nat.le_refl _)]
        · by_cases lt : b < x.1
          · simp [assocSet, hv, hb, assocGet, Ne.symm hb, lt, assocGet_low h3 (Nat.le_of_lt lt)]
          · simp [assocSet, hv, hb, assocGet, Ne.symm hb, lt]
      · by_cases hb : b = x.1
        · simp [assocSet, hv, hb, assocGet]
        · simp [assocSet, hv, hb, assocGet, Ne.symm hb]
    · by_cases lt : a < x.1
      · by_cases hv : v = z
        · by_cases hb : b = a
          · subst hb; simp [assocSet, e, lt, hv, assocGet]
          · simp [assocSet, e, lt, hv, hb]
        · by_cases hb : b = a
          · simp [assocSet, e, lt, hv, hb, assocGet]
          · by_cases hl : b < a
            · simp [assocSet, e, lt, hv, hb, assocGet, Ne.symm hb, hl, show x.1 ≠ b by omega, show b < x.1 by omega]
            · simp [assocSet, e, lt, hv, hb, assocGet, Ne.symm hb, hl]
      · by_cases hx : x.1 = b
        · subst hx; simp [assocSet, e, lt, assocGet]
        · by_cases hl : b < x.1
          · simp [assocSet, e, lt, assocGet, hx, hl, show b ≠ a by omega]
          · simp [assocSet, e, lt, assocGet, hx, hl, ih h3]

/-- Dropping entries keeps the canonical form. -/
theorem assocWf_filter {lo : Option Nat} {l : List (Nat × α)} (p : Nat × α → Bool) (h : assocWf z lo l = true) :
    assocWf z lo (l.filter p) = true := by
  induction l generalizing lo with
  | nil => simpa using h
  | cons x r ih =>
    obtain ⟨h1, h2, h3⟩ := (assocWf_cons _ _ _ _).1 h
    by_cases hp : p x
    · rw [List.filter_cons_of_pos hp]
      exact (assocWf_cons _ _ _ _).2 ⟨h1, h2, ih h3⟩
    · rw [List.filter_cons_of_neg hp]
      exact assocWf_weaken (ih h3) h1

/-- What a list reads as of which the entries outside a set of keys were dropped. -/
theorem assocGet_filter {lo : Option Nat} {l : List (Nat × α)} (p : Nat → Bool) (a : Nat) (h : assocWf z lo l = true) :
    assocGet z (l.filter (fun x => p x.1)) a = if p a then assocGet z l a else z := by
  induction l generalizing lo with
  | nil => simp [assocGet]
  | cons x r ih =>
    obtain ⟨-, -, h3⟩ := (assocWf_cons _ _ _ _).1 h
    by_cases hp : p x.1
    · rw [List.filter_cons_of_pos (by simpa using hp)]
      by_cases e : x.1 = a
      · subst e; simp [assocGet, hp]
      · by_cases lt : a < x.1
        · simp [assocGet, e, lt]
        · simp [assocGet, e, lt, ih h3]
    · rw [List.filter_cons_of_neg (by simpa using hp), ih h3]
      by_cases e : x.1 = a
      · subst e; simp [hp]
      · by_cases lt : a < x.1
        · simp [assocGet, e, lt, assocGet_low h3 (Nat.le_of_lt lt)]
        · simp [assocGet, e, lt]

/-! ### The operations on memory -/

/-- Writing a byte keeps the canonical form. -/
theorem memWrite_wf {m : List Host.Cell} (a : Nat) (b : Byte) (h : Memory.wf m = true) : Memory.wf (memWrite m a b) = true :=
  assocSet_wf h (by simp [aboveLo])

/-- Writing bytes keeps the canonical form. -/
theorem memWriteBytes_wf {m : List Host.Cell} (a : Nat) (l : List Byte) (h : Memory.wf m = true) :
    Memory.wf (memWriteBytes m a l) = true := by
  induction l generalizing m a with
  | nil => exact h
  | cons b bs ih => exact ih (a + 1) (memWrite_wf a b h)

/-- The operation that writes bytes keeps the canonical form. -/
theorem State.writeBytes_wf {s : State} (a : Nat) (l : List Byte) (h : Memory.wf s.mem = true) :
    Memory.wf (s.writeBytes a l).mem = true := memWriteBytes_wf a l h

/-- The operation that writes a value keeps the canonical form. -/
theorem State.writeN_wf {s : State} (a n v : Nat) (h : Memory.wf s.mem = true) : Memory.wf (s.writeN a n v).mem = true :=
  memWriteBytes_wf a _ h

/-- The operation that clears bytes keeps the canonical form. -/
theorem State.clearBytes_wf {s : State} (a n : Nat) (h : Memory.wf s.mem = true) : Memory.wf (s.clearBytes a n).mem = true :=
  assocWf_filter _ h

/-- The writes of a list of cells keep the canonical form. -/
theorem memWrite_foldl_wf {β : Type} (f : β → Nat × Byte) (l : List β) {m : List Host.Cell} (h : Memory.wf m = true) :
    Memory.wf (l.foldl (fun m c => memWrite m (f c).1 (f c).2) m) = true := by
  induction l generalizing m with
  | nil => exact h
  | cons c l ih => exact ih (memWrite_wf _ _ h)

/-- The operation that moves bytes keeps the canonical form. -/
theorem State.moveBytes_wf {s : State} (a b n : Nat) (h : Memory.wf s.mem = true) : Memory.wf (s.moveBytes a b n).mem = true :=
  memWrite_foldl_wf (fun c : Host.Cell => (b + (c.1 - a), c.2)) _ (State.clearBytes_wf b n (State.clearBytes_wf a n h))

/-- Healing and poisoning leave memory as it is, and with it the canonical form. -/
theorem State.heal_wf {s : State} (l : List (Nat × Nat)) (h : Memory.wf s.mem = true) : Memory.wf (s.heal l).mem = true := h

theorem State.poison_wf {s : State} (a : Nat) (h : Memory.wf s.mem = true) : Memory.wf (s.poison a).mem = true := h

/-- Memory after reset has the canonical form. -/
theorem State.reset_wf : Memory.wf State.reset.mem = true := rfl

end Sys2Proof.Machine
end

