-- ==== Sys2Proof/Laws/Ops.lean ====
section
/-! SUPPORT. What each shared operation can change, once: the fields it leaves alone (`_only`), and the canonical forms it keeps (`_stored`). -/

namespace Sys2Proof.Machine

/-- Memory and accumulators of a state are in canonical form. -/
def State.Stored (s : State) : Prop := Memory.wf s.mem = true ∧ assocWf 0#32 none s.accs = true

/-- An operation that leaves memory and accumulators alone keeps the forms. -/
theorem Stored_of_eq {s t : State} (hm : t.mem = s.mem) (ha : t.accs = s.accs) (h : s.Stored) : t.Stored := by
  unfold State.Stored; rw [hm, ha]; exact h

/-- A choice between two states with the forms. -/
theorem Stored_ite {c : Prop} [Decidable c] {s t : State} (h : s.Stored) (h' : t.Stored) : (if c then s else t).Stored := by
  split
  · exact h
  · exact h'

theorem Stored_writeBytes {s : State} (a : Nat) (l : List Byte) (h : s.Stored) : (s.writeBytes a l).Stored :=
  ⟨State.writeBytes_wf a l h.1, h.2⟩

theorem Stored_writeN {s : State} (a n v : Nat) (h : s.Stored) : (s.writeN a n v).Stored := ⟨State.writeN_wf a n v h.1, h.2⟩

theorem Stored_clearBytes {s : State} (a n : Nat) (h : s.Stored) : (s.clearBytes a n).Stored := ⟨State.clearBytes_wf a n h.1, h.2⟩

theorem Stored_moveBytes {s : State} (a b n : Nat) (h : s.Stored) : (s.moveBytes a b n).Stored := ⟨State.moveBytes_wf a b n h.1, h.2⟩

/-! ### Results in flight -/

/-- A long-latency write changes a wave and a vector file. -/
theorem State.makeWrite_only (s : State) (wi : Nat) (w : Wave) (p : LongWrite) (young : Bool) :
    { s.makeWrite wi w p young with waves := s.waves, vfiles := s.vfiles } = s := by
  cases p <;> rfl

/-- The writes of a list change waves and vector files. -/
theorem State.makeWrites_only (s : State) (wi : Nat) (w : Wave) (l : List LongWrite) :
    { l.foldl (fun s p => s.makeWrite wi w p false) s with waves := s.waves, vfiles := s.vfiles } = s := by
  induction l generalizing s with
  | nil => rfl
  | cons p l ih =>
    have a := ih (s.makeWrite wi w p false)
    have b := s.makeWrite_only wi w p false
    rw [List.foldl_cons]
    generalize List.foldl (fun s p => s.makeWrite wi w p false) (s.makeWrite wi w p false) l = t at a ⊢
    rw [← a] at b
    exact b

/-- Draining a wave changes it and its vector file. -/
theorem State.drain_only (s : State) (wi : Nat) : { s.drain wi with waves := s.waves, vfiles := s.vfiles } = s := by
  unfold State.drain
  split
  · rfl
  · exact s.makeWrites_only wi _ _

@[simp] theorem State.drain_mem (s : State) (wi : Nat) : (s.drain wi).mem = s.mem := (congrArg State.mem (s.drain_only wi) :)
@[simp] theorem State.drain_accs (s : State) (wi : Nat) : (s.drain wi).accs = s.accs := (congrArg State.accs (s.drain_only wi) :)
@[simp] theorem State.drain_pois (s : State) (wi : Nat) : (s.drain wi).pois = s.pois := (congrArg State.pois (s.drain_only wi) :)
@[simp] theorem State.drain_blocks (s : State) (wi : Nat) : (s.drain wi).blocks = s.blocks := (congrArg State.blocks (s.drain_only wi) :)
@[simp] theorem State.drain_queues (s : State) (wi : Nat) : (s.drain wi).queues = s.queues := (congrArg State.queues (s.drain_only wi) :)

/-- A split that waits changes nothing else. -/
theorem State.hold_only (s : State) (wi si : Nat) : { s.hold wi si with waves := s.waves } = s := rfl
theorem State.stall_only (s : State) (wi si : Nat) : { s.stall wi si with waves := s.waves } = s := rfl

/-- The effects of a store beside memory: the latch and the notes of the block. -/
theorem State.stored_only (s : State) (w : Wave) (a : Word) (n : Nat) : { s.stored w a n with blocks := s.blocks } = s := by
  unfold State.stored State.noteStores
  split
  · split
    · split <;> rfl
    · rfl
  · rfl

@[simp] theorem State.stored_mem (s : State) (w : Wave) (a : Word) (n : Nat) : (s.stored w a n).mem = s.mem :=
  (congrArg State.mem (s.stored_only w a n) :)
@[simp] theorem State.stored_bars (s : State) (w : Wave) (a : Word) (n : Nat) : (s.stored w a n).bars = s.bars :=
  (congrArg State.bars (s.stored_only w a n) :)

/-! ### Stores into a barrier -/

/-- A store that reaches into no barrier in use spoils none. -/
theorem State.spoil_clear {s : State} {a n : Nat} (h : s.barsClear a n = true) : s.spoil a n = s := by
  simp [State.spoil, h]

/-- Then it writes its bytes and nothing else. -/
theorem State.storeN_clear {s : State} {a n : Nat} (v : Nat) (h : s.barsClear a n = true) : s.storeN a n v = s.writeN a n v := by
  simp [State.storeN, State.spoil_clear h]

/-- A spoiled barrier changes memory and the list of barriers. -/
theorem State.spoil_only (s : State) (a n : Nat) : { s.spoil a n with mem := s.mem, bars := s.bars } = s := by
  unfold State.spoil
  split <;> rfl

/-- It keeps the forms. -/
theorem State.spoil_stored {s : State} (a n : Nat) (h : s.Stored) : (s.spoil a n).Stored := by
  have fold (l : List (BarSide × Nat)) (d : Nat → Nat) {m : List Host.Cell} (h : Memory.wf m = true) :
      Memory.wf (l.foldl (fun m x => spoilBytes m (d x.2) x.1.key) m) = true := by
    induction l generalizing m with
    | nil => exact h
    | cons x l ih => exact ih (memWriteBytes_wf _ _ h)
  unfold State.spoil
  split
  · exact h
  · exact ⟨fold _ _ h.1, h.2⟩

/-- A store keeps the forms. -/
theorem State.storeN_stored {s : State} (a n v : Nat) (h : s.Stored) : (s.storeN a n v).Stored := Stored_writeN _ _ _ (State.spoil_stored _ _ h)

/-- Stopping the other half changes a wave. -/
theorem State.stopMate_only (s : State) (w : Wave) (b : Bool) : { s.stopMate w b with waves := s.waves } = s := by
  unfold State.stopMate; split <;> rfl

@[simp] theorem State.stopMate_mem (s : State) (w : Wave) (b : Bool) : (s.stopMate w b).mem = s.mem :=
  (congrArg State.mem (s.stopMate_only w b) :)
@[simp] theorem State.stopMate_accs (s : State) (w : Wave) (b : Bool) : (s.stopMate w b).accs = s.accs :=
  (congrArg State.accs (s.stopMate_only w b) :)

/-! ### Reports -/

/-- A fault record changes the records, the partition's ring and host memory. -/
theorem State.faultRecord_only (s : State) (p kind code cause sub queue info : Nat) (value : Word) (who : Nat) :
    { s.faultRecord p kind code cause sub queue info value who with
      records := s.records, parts := s.parts, mem := s.mem, pois := s.pois } = s := by
  unfold State.faultRecord
  dsimp only
  split
  · rfl
  · split <;> simp

/-- A fault record keeps the forms. -/
theorem State.faultRecord_stored {s : State} (p kind code cause sub queue info : Nat) (value : Word) (who : Nat) (h : s.Stored) :
    (s.faultRecord p kind code cause sub queue info value who).Stored := by
  unfold State.faultRecord
  dsimp only
  split
  · exact h
  · split
    · exact h
    · exact Stored_of_eq (State.updPart_mem _ _ _) (State.updPart_accs _ _ _) (Stored_writeBytes _ _ h)

/-- A queue fault changes queues, jobs, cores, copies, contexts and what a record changes. -/
theorem State.queueFault_only (s : State) (q code cause sub info : Nat) (value : Word) (who : Nat) (closed : Bool) :
    { s.queueFault q code cause sub info value who closed with
      queues := s.queues, jobs := s.jobs, cores := s.cores, copies := s.copies, ctxs := s.ctxs,
      records := s.records, parts := s.parts, mem := s.mem, pois := s.pois } = s := by
  have k (y : State) (a c : Nat) (hq : { y with queues := s.queues, jobs := s.jobs, cores := s.cores, copies := s.copies, ctxs := s.ctxs } = s) :
      { y.faultRecord a 2 code cause sub c info value who with
        queues := s.queues, jobs := s.jobs, cores := s.cores, copies := s.copies, ctxs := s.ctxs,
        records := s.records, parts := s.parts, mem := s.mem, pois := s.pois } = s := by
    have e := congrArg (fun z : State => { z with
      queues := s.queues, jobs := s.jobs, cores := s.cores, copies := s.copies, ctxs := s.ctxs,
      records := s.records, parts := s.parts, mem := s.mem, pois := s.pois }) (y.faultRecord_only a 2 code cause sub c info value who)
    have f := congrArg (fun z : State => { z with
      records := s.records, parts := s.parts, mem := s.mem, pois := s.pois }) hq
    exact Eq.trans e f
  exact k _ _ _ rfl

/-- A queue fault keeps the forms. -/
theorem State.queueFault_stored {s : State} (q code cause sub info : Nat) (value : Word) (who : Nat) (closed : Bool) (h : s.Stored) :
    (s.queueFault q code cause sub info value who closed).Stored :=
  State.faultRecord_stored _ _ _ _ _ _ _ _ _ (Stored_of_eq rfl rfl h)

/-- Requests to other devices change the fabric. -/
theorem State.sendRemote_only (s : State) (part : Nat) (ops : List (Nat × RemoteOp)) (use : RemoteUse) :
    { s.sendRemote part ops use with fabric := s.fabric } = s := rfl

/-- A report of a translation fault changes the page requests, or what a record changes. -/
theorem State.reportFault_only (s : State) (c : Ctx) (core : Nat) (a : Word) (write : Bool) (cause sub queue info who : Nat) :
    { s.reportFault c core a write cause sub queue info who with
      records := s.records, parts := s.parts, mem := s.mem, pois := s.pois, host := s.host } = s := by
  have f := congrArg (fun z : State => { z with host := s.host }) (s.faultRecord_only c.part 1 0 cause sub queue info a who)
  unfold State.reportFault
  split
  · split
    · rfl
    · exact f
  · exact f

/-- It keeps the forms. -/
theorem State.reportFault_stored {s : State} (c : Ctx) (core : Nat) (a : Word) (write : Bool) (cause sub queue info who : Nat) (h : s.Stored) :
    (s.reportFault c core a write cause sub queue info who).Stored := by
  unfold State.reportFault
  split
  · split
    · exact h
    · exact State.faultRecord_stored _ _ _ _ _ _ _ _ _ h
  · exact State.faultRecord_stored _ _ _ _ _ _ _ _ _ h

/-- A trace record changes a core's trace registers, memory and the requests to other devices. -/
theorem State.traceRecord_only (s : State) (w : Wave) (type num : Nat) (pc : Word) (a b c d : Nat) :
    { s.traceRecord w type num pc a b c d with cores := s.cores, mem := s.mem, pois := s.pois, fabric := s.fabric } = s := by
  unfold State.traceRecord
  dsimp only
  split
  · rfl
  · split
    · simp
    · split
      · simp
      · split <;> simp [State.sendRemote]
      · simp

/-- A trace record keeps the forms. -/
theorem State.traceRecord_stored {s : State} (w : Wave) (type num : Nat) (pc : Word) (a b c d : Nat) (h : s.Stored) :
    (s.traceRecord w type num pc a b c d).Stored := by
  unfold State.traceRecord
  dsimp only
  split
  · exact h
  · split
    · exact h
    · split
      · exact Stored_of_eq (State.updCore_mem _ _ _) (State.updCore_accs _ _ _) (Stored_writeBytes _ _ h)
      · split <;> exact h
      · exact h

/-! ### Traps -/

/-- The frame of a trap keeps the forms. -/
theorem State.writeFrame_stored {s : State} (wi : Nat) (w : Wave) (sp : Split) (lvl : Nat) (pc : Word) (t : Trap) (h : s.Stored) :
    (s.writeFrame wi w sp lvl pc t).Stored := Stored_writeBytes _ _ h

/-- Stopping a wave keeps the forms. -/
theorem State.stopWave_stored {s : State} (wi : Nat) (w : Wave) (why : StopWhy) (t : Trap) (h : s.Stored) : (s.stopWave wi w why t).Stored := by
  unfold State.stopWave
  exact State.queueFault_stored _ _ _ _ _ _ _ _ (Stored_of_eq (by simp) (by simp) h)

/-- Entering a handler keeps the forms. -/
theorem State.takeHandler_stored {s : State} (wi si : Nat) (w : Wave) (sp : Split) (pc : Word) (t : Trap) (framed : Bool) (h : s.Stored) :
    (s.takeHandler wi si w sp pc t framed).Stored := by
  have enter (new : Nat) (entry : Word) : (((if framed then s else s.writeFrame wi w sp new pc t).updWave wi
      (fun w => w.enter si new entry)).stopMate w true).Stored := by
    refine Stored_of_eq (s := if framed then s else s.writeFrame wi w sp new pc t) (by simp) (by simp) ?_
    split
    · exact h
    · exact State.writeFrame_stored _ _ _ _ _ _ h
  unfold State.takeHandler
  dsimp only
  split
  · exact State.traceRecord_stored _ _ _ _ _ _ _ _ (enter _ _)
  · split
    · exact State.stopWave_stored _ _ _ _ h
    · split
      · exact State.stopWave_stored _ _ _ _ h
      · exact State.traceRecord_stored _ _ _ _ _ _ _ _ (enter _ _)

/-- Taking a trap keeps the forms. -/
theorem State.takeTrap_stored {s : State} (wi si : Nat) (pc : Word) (t : Trap) (write fetch : Bool) (h : s.Stored) :
    (s.takeTrap wi si pc t write fetch).Stored := by
  have d (f : Wave → Wave) : ((s.drain wi).updWave wi f).Stored := Stored_of_eq (by simp) (by simp) h
  unfold State.takeTrap
  dsimp only
  split
  · exact d _
  · split
    · exact d _
    · split
      · exact State.stopWave_stored _ _ _ _ (d _)
      · split
        · refine State.reportFault_stored _ _ _ _ _ _ _ _ _ (Stored_of_eq (State.stopMate_mem _ _ _) (State.stopMate_accs _ _ _) ?_)
          refine Stored_of_eq (State.updWave_mem _ _ _) (State.updWave_accs _ _ _) ?_
          exact Stored_ite (d _) (State.writeFrame_stored _ _ _ _ _ _ (d _))
        · exact State.takeHandler_stored _ _ _ _ _ _ _ (d _)

/-- So does a trap that may have to wait. -/
theorem State.trapOr_stored {s s' : State} (wi si : Nat) (pc : Word) (t : Trap) (write fetch : Bool) (h : s.Stored) (h' : s'.Stored) :
    (s.trapOr s' wi si pc t write fetch).Stored := by
  unfold State.trapOr
  split
  · exact h
  · exact Stored_of_eq rfl rfl (State.takeTrap_stored wi si _ _ _ _ h')

/-! ### Completion -/

/-- The states a body answers with. -/
def Res.All (p : State → Prop) : Res → Prop
  | .done s | .goto s _ _ _ | .trapIn s _ _ | .after s _ | .waitIn s | .stallIn s | .left s => p s
  | .trap _ | .wait | .stall => True

/-- Completion keeps the forms. -/
theorem State.complete_stored {s s' : State} (wi si : Nat) (sp : Split) (next stepPc : Word) (taken : Bool) (h : s.Stored) (h' : s'.Stored) :
    (s.complete s' wi si sp next stepPc taken).Stored := by
  unfold State.complete
  dsimp only
  split
  · exact State.trapOr_stored _ _ _ _ _ _ h h
  · exact h'

/-- So does a trap after completion. -/
theorem State.completeTrap_stored {s s' : State} (wi si : Nat) (sp : Split) (t : Trap) (h : s.Stored) (h' : s'.Stored) :
    (s.completeTrap s' wi si sp t).Stored := by
  unfold State.completeTrap
  dsimp only
  split
  · exact State.trapOr_stored _ _ _ _ _ _ h h
  · exact State.trapOr_stored _ _ _ _ _ _ h h'

/-- An instruction keeps the forms if the states its body answers with have them. -/
theorem State.retire_stored {s : State} (wi si : Nat) (sp : Split) (r : Res) (h : s.Stored) (hr : r.All State.Stored) :
    (s.retire wi si sp r).Stored := by
  cases r with
  | done s' => exact State.complete_stored _ _ _ _ _ _ h hr
  | goto s' => exact State.complete_stored _ _ _ _ _ _ h hr
  | trap t => exact State.trapOr_stored _ _ _ _ _ _ h h
  | trapIn s' t wr => exact State.trapOr_stored _ _ _ _ _ _ h hr
  | after s' t => exact State.completeTrap_stored _ _ _ _ h hr
  | wait => exact h
  | waitIn s' => exact hr
  | stall => exact h
  | stallIn s' => exact hr
  | left s' => exact hr

/-- An instruction of the issuing split keeps the forms if its body does. -/
theorem State.runWave_stored {s t : State} {k : Nat → Nat → Wave → Split → Res} (h : s.Stored)
    (hk : ∀ wi si w sp, s.waves[wi]? = some w → w.splits[si]? = some sp → (k wi si w sp).All State.Stored) (e : s.runWave k = .next t) :
    t.Stored := by
  unfold State.runWave at e
  split at e
  · cases e; exact h
  · split at e
    · cases e; exact h
    · cases e; exact State.retire_stored _ _ _ _ h (hk _ _ _ _ ‹_› ‹_›)

/-- A trap that comes before poison is the body's own. -/
theorem Res.unlessEarly_all (r : Res) (early : Trap → Bool) (t : Trap) (p : State → Prop) (h : r.All p) : (r.unlessEarly early t).All p := by
  unfold Res.unlessEarly
  split
  · split <;> trivial
  · split
    · exact h
    · trivial
  · trivial

/-- An empty source stops an instruction without a state of its own. -/
theorem Wave.emptyGate_all (w : Wave) (u : Uses) (k : Unit → Res) (p : State → Prop) (h : (k ()).All p) : (w.emptyGate u k).All p := by
  unfold Wave.emptyGate
  split
  · trivial
  · split
    · trivial
    · exact h

/-- The gates stop an instruction without a state of their own. -/
theorem Wave.gateWith_all (w : Wave) (u : Uses) (early : Trap → Bool) (meets : Nat × Bool → Bool) (k : Unit → Res) (p : State → Prop)
    (h : (k ()).All p) : (w.gateWith u early meets k).All p := by
  unfold Wave.gateWith
  refine Wave.emptyGate_all _ _ _ _ ?_
  split
  · dsimp only
    split
    · exact Res.unlessEarly_all _ _ _ _ h
    · trivial
  · split
    · exact h
    · trivial

theorem Wave.gate_all (w : Wave) (u : Uses) (k : Unit → Res) (p : State → Prop) (h : (k ()).All p) : (w.gate u k).All p :=
  w.gateWith_all u _ _ k p h

/-- A scalar instruction keeps the forms if its body does. -/
theorem State.scalar_stored {s t : State} {ss : List (Reg × Nat)} {sd : List Reg} {k : Nat → Nat → Wave → Split → Res} (h : s.Stored)
    (hk : ∀ wi si w sp, (k wi si w sp).All State.Stored) (e : s.scalar ss sd k = .next t) : t.Stored :=
  State.runWave_stored h (fun wi si w sp _ _ => Wave.gate_all _ _ _ _ (hk wi si w sp)) e

/-- A scalar result keeps the forms. -/
theorem State.compute_stored {s t : State} {ss : List (Reg × Nat)} {d : Reg} {f : Wave → Word} (h : s.Stored)
    (e : s.compute ss d f = .next t) : t.Stored :=
  State.scalar_stored (k := fun wi _ w _ => .done (s.setReg wi d (f w))) h (fun _ _ _ _ => h) e

end Sys2Proof.Machine
end

