-- ==== Sys2Proof/Laws/PerInstr.lean ====
section
/-! SUPPORT. The word of every well-formed wave instruction decodes to it (spec/01 R15 to R23): one lemma for each constructor.
The `fields` lemmas, one for each layout of a word, name its fields. -/

namespace Sys2Proof.Laws.RoundTrip

/-- Decoding the word of a well-formed instruction gives it back. -/
def Statement (i : Instr) : Prop := ∀ z : IWord, encodeWord i = some z → wf i = true → decodeWord z = .instr i

/-- A field of the upper part of an appended word. -/
theorem field_hi {n m : Nat} {x : BitVec n} {y : BitVec m} (lo k : Nat) (h : m ≤ lo) :
    (x ++ y).extractLsb' lo k = x.extractLsb' (lo - m) k := BitVec.extractLsb'_append_eq_of_le h

/-- The lower part. -/
theorem field_lo {n m : Nat} {x : BitVec n} {y : BitVec m} : (x ++ y).extractLsb' 0 m = y :=
  (BitVec.extractLsb'_append_eq_of_add_le (by omega)).trans BitVec.extractLsb'_eq_self

/-- A field inside a field. -/
theorem sub_field {n k lo : Nat} {z : BitVec n} {v : BitVec k} (h : z.extractLsb' lo k = v) (o m : Nat) (hm : o + m ≤ k) :
    z.extractLsb' (lo + o) m = v.extractLsb' o m := by
  subst h
  ext i hi
  simp [show o + i < k by omega, Nat.add_assoc]

theorem fields_6_5_5_5_1_10 (z : IWord) {p0 : BitVec 6} {p1 : BitVec 5} {p2 : BitVec 5} {p3 : BitVec 5} {p4 : BitVec 1} {p5 : BitVec 10} (h : p0 ++ p1 ++ p2 ++ p3 ++ p4 ++ p5 = z) :
    z.extractLsb' 26 6 = p0 ∧ z.extractLsb' 21 5 = p1 ∧ z.extractLsb' 16 5 = p2 ∧ z.extractLsb' 11 5 = p3 ∧ z.extractLsb' 10 1 = p4 ∧ z.extractLsb' 0 10 = p5 := by
  subst h
  exact ⟨(field_hi 26 6 (by decide)).trans ((field_hi 16 6 (by decide)).trans ((field_hi 15 6 (by decide)).trans ((field_hi 10 6 (by decide)).trans ((field_hi 5 6 (by decide)).trans BitVec.extractLsb'_eq_self)))),
    (field_hi 21 5 (by decide)).trans ((field_hi 11 5 (by decide)).trans ((field_hi 10 5 (by decide)).trans ((field_hi 5 5 (by decide)).trans field_lo))),
    (field_hi 16 5 (by decide)).trans ((field_hi 6 5 (by decide)).trans ((field_hi 5 5 (by decide)).trans field_lo)),
    (field_hi 11 5 (by decide)).trans ((field_hi 1 5 (by decide)).trans field_lo),
    (field_hi 10 1 (by decide)).trans field_lo,
    field_lo⟩
theorem fields_6_5_5_5_11 (z : IWord) {p0 : BitVec 6} {p1 : BitVec 5} {p2 : BitVec 5} {p3 : BitVec 5} {p4 : BitVec 11} (h : p0 ++ p1 ++ p2 ++ p3 ++ p4 = z) :
    z.extractLsb' 26 6 = p0 ∧ z.extractLsb' 21 5 = p1 ∧ z.extractLsb' 16 5 = p2 ∧ z.extractLsb' 11 5 = p3 ∧ z.extractLsb' 0 11 = p4 := by
  subst h
  exact ⟨(field_hi 26 6 (by decide)).trans ((field_hi 15 6 (by decide)).trans ((field_hi 10 6 (by decide)).trans ((field_hi 5 6 (by decide)).trans BitVec.extractLsb'_eq_self))),
    (field_hi 21 5 (by decide)).trans ((field_hi 10 5 (by decide)).trans ((field_hi 5 5 (by decide)).trans field_lo)),
    (field_hi 16 5 (by decide)).trans ((field_hi 5 5 (by decide)).trans field_lo),
    (field_hi 11 5 (by decide)).trans field_lo,
    field_lo⟩
theorem fields_6_5_5_16 (z : IWord) {p0 : BitVec 6} {p1 : BitVec 5} {p2 : BitVec 5} {p3 : BitVec 16} (h : p0 ++ p1 ++ p2 ++ p3 = z) :
    z.extractLsb' 26 6 = p0 ∧ z.extractLsb' 21 5 = p1 ∧ z.extractLsb' 16 5 = p2 ∧ z.extractLsb' 0 16 = p3 := by
  subst h
  exact ⟨(field_hi 26 6 (by decide)).trans ((field_hi 10 6 (by decide)).trans ((field_hi 5 6 (by decide)).trans BitVec.extractLsb'_eq_self)),
    (field_hi 21 5 (by decide)).trans ((field_hi 5 5 (by decide)).trans field_lo),
    (field_hi 16 5 (by decide)).trans field_lo,
    field_lo⟩
theorem fields_6_5_5_10_6 (z : IWord) {p0 : BitVec 6} {p1 : BitVec 5} {p2 : BitVec 5} {p3 : BitVec 10} {p4 : BitVec 6} (h : p0 ++ p1 ++ p2 ++ p3 ++ p4 = z) :
    z.extractLsb' 26 6 = p0 ∧ z.extractLsb' 21 5 = p1 ∧ z.extractLsb' 16 5 = p2 ∧ z.extractLsb' 6 10 = p3 ∧ z.extractLsb' 0 6 = p4 := by
  subst h
  exact ⟨(field_hi 26 6 (by decide)).trans ((field_hi 20 6 (by decide)).trans ((field_hi 10 6 (by decide)).trans ((field_hi 5 6 (by decide)).trans BitVec.extractLsb'_eq_self))),
    (field_hi 21 5 (by decide)).trans ((field_hi 15 5 (by decide)).trans ((field_hi 5 5 (by decide)).trans field_lo)),
    (field_hi 16 5 (by decide)).trans ((field_hi 10 5 (by decide)).trans field_lo),
    (field_hi 6 10 (by decide)).trans field_lo,
    field_lo⟩
theorem fields_6_5_21 (z : IWord) {p0 : BitVec 6} {p1 : BitVec 5} {p2 : BitVec 21} (h : p0 ++ p1 ++ p2 = z) :
    z.extractLsb' 26 6 = p0 ∧ z.extractLsb' 21 5 = p1 ∧ z.extractLsb' 0 21 = p2 := by
  subst h
  exact ⟨(field_hi 26 6 (by decide)).trans ((field_hi 5 6 (by decide)).trans BitVec.extractLsb'_eq_self),
    (field_hi 21 5 (by decide)).trans field_lo,
    field_lo⟩
theorem fields_6_5_5_3_13 (z : IWord) {p0 : BitVec 6} {p1 : BitVec 5} {p2 : BitVec 5} {p3 : BitVec 3} {p4 : BitVec 13} (h : p0 ++ p1 ++ p2 ++ p3 ++ p4 = z) :
    z.extractLsb' 26 6 = p0 ∧ z.extractLsb' 21 5 = p1 ∧ z.extractLsb' 16 5 = p2 ∧ z.extractLsb' 13 3 = p3 ∧ z.extractLsb' 0 13 = p4 := by
  subst h
  exact ⟨(field_hi 26 6 (by decide)).trans ((field_hi 13 6 (by decide)).trans ((field_hi 10 6 (by decide)).trans ((field_hi 5 6 (by decide)).trans BitVec.extractLsb'_eq_self))),
    (field_hi 21 5 (by decide)).trans ((field_hi 8 5 (by decide)).trans ((field_hi 5 5 (by decide)).trans field_lo)),
    (field_hi 16 5 (by decide)).trans ((field_hi 3 5 (by decide)).trans field_lo),
    (field_hi 13 3 (by decide)).trans field_lo,
    field_lo⟩
theorem fields_6_5_5_5_1_5_5 (z : IWord) {p0 : BitVec 6} {p1 : BitVec 5} {p2 : BitVec 5} {p3 : BitVec 5} {p4 : BitVec 1} {p5 : BitVec 5} {p6 : BitVec 5} (h : p0 ++ p1 ++ p2 ++ p3 ++ p4 ++ p5 ++ p6 = z) :
    z.extractLsb' 26 6 = p0 ∧ z.extractLsb' 21 5 = p1 ∧ z.extractLsb' 16 5 = p2 ∧ z.extractLsb' 11 5 = p3 ∧ z.extractLsb' 10 1 = p4 ∧ z.extractLsb' 5 5 = p5 ∧ z.extractLsb' 0 5 = p6 := by
  subst h
  exact ⟨(field_hi 26 6 (by decide)).trans ((field_hi 21 6 (by decide)).trans ((field_hi 16 6 (by decide)).trans ((field_hi 15 6 (by decide)).trans ((field_hi 10 6 (by decide)).trans ((field_hi 5 6 (by decide)).trans BitVec.extractLsb'_eq_self))))),
    (field_hi 21 5 (by decide)).trans ((field_hi 16 5 (by decide)).trans ((field_hi 11 5 (by decide)).trans ((field_hi 10 5 (by decide)).trans ((field_hi 5 5 (by decide)).trans field_lo)))),
    (field_hi 16 5 (by decide)).trans ((field_hi 11 5 (by decide)).trans ((field_hi 6 5 (by decide)).trans ((field_hi 5 5 (by decide)).trans field_lo))),
    (field_hi 11 5 (by decide)).trans ((field_hi 6 5 (by decide)).trans ((field_hi 1 5 (by decide)).trans field_lo)),
    (field_hi 10 1 (by decide)).trans ((field_hi 5 1 (by decide)).trans field_lo),
    (field_hi 5 5 (by decide)).trans field_lo,
    field_lo⟩
theorem fields_26_1_2_3 (z : IWord) {p0 : BitVec 26} {p1 : BitVec 1} {p2 : BitVec 2} {p3 : BitVec 3} (h : p0 ++ p1 ++ p2 ++ p3 = z) :
    z.extractLsb' 6 26 = p0 ∧ z.extractLsb' 5 1 = p1 ∧ z.extractLsb' 3 2 = p2 ∧ z.extractLsb' 0 3 = p3 := by
  subst h
  exact ⟨(field_hi 6 26 (by decide)).trans ((field_hi 3 26 (by decide)).trans ((field_hi 1 26 (by decide)).trans BitVec.extractLsb'_eq_self)),
    (field_hi 5 1 (by decide)).trans ((field_hi 2 1 (by decide)).trans field_lo),
    (field_hi 3 2 (by decide)).trans field_lo,
    field_lo⟩
theorem fields_20_6_6 (z : IWord) {p0 : BitVec 20} {p1 : BitVec 6} {p2 : BitVec 6} (h : p0 ++ p1 ++ p2 = z) :
    z.extractLsb' 12 20 = p0 ∧ z.extractLsb' 6 6 = p1 ∧ z.extractLsb' 0 6 = p2 := by
  subst h
  exact ⟨(field_hi 12 20 (by decide)).trans ((field_hi 6 20 (by decide)).trans BitVec.extractLsb'_eq_self),
    (field_hi 6 6 (by decide)).trans field_lo,
    field_lo⟩
theorem fields_6_26 (z : IWord) {p0 : BitVec 6} {p1 : BitVec 26} (h : p0 ++ p1 = z) :
    z.extractLsb' 26 6 = p0 ∧ z.extractLsb' 0 26 = p1 := by
  subst h
  exact ⟨(field_hi 26 6 (by decide)).trans BitVec.extractLsb'_eq_self,
    field_lo⟩
theorem fields_11_5_16 (z : IWord) {p0 : BitVec 11} {p1 : BitVec 5} {p2 : BitVec 16} (h : p0 ++ p1 ++ p2 = z) :
    z.extractLsb' 21 11 = p0 ∧ z.extractLsb' 16 5 = p1 ∧ z.extractLsb' 0 16 = p2 := by
  subst h
  exact ⟨(field_hi 21 11 (by decide)).trans ((field_hi 5 11 (by decide)).trans BitVec.extractLsb'_eq_self),
    (field_hi 16 5 (by decide)).trans field_lo,
    field_lo⟩
theorem fields_8_3_5_16 (z : IWord) {p0 : BitVec 8} {p1 : BitVec 3} {p2 : BitVec 5} {p3 : BitVec 16} (h : p0 ++ p1 ++ p2 ++ p3 = z) :
    z.extractLsb' 24 8 = p0 ∧ z.extractLsb' 21 3 = p1 ∧ z.extractLsb' 16 5 = p2 ∧ z.extractLsb' 0 16 = p3 := by
  subst h
  exact ⟨(field_hi 24 8 (by decide)).trans ((field_hi 8 8 (by decide)).trans ((field_hi 3 8 (by decide)).trans BitVec.extractLsb'_eq_self)),
    (field_hi 21 3 (by decide)).trans ((field_hi 5 3 (by decide)).trans field_lo),
    (field_hi 16 5 (by decide)).trans field_lo,
    field_lo⟩
theorem fields_32 (z p0 : BitVec 32) (h : p0 = z) : z.extractLsb' 0 32 = p0 := h ▸ BitVec.extractLsb'_eq_self
theorem fields_20_12 (z : IWord) {p0 : BitVec 20} {p1 : BitVec 12} (h : p0 ++ p1 = z) :
    z.extractLsb' 12 20 = p0 ∧ z.extractLsb' 0 12 = p1 := by
  subst h
  exact ⟨(field_hi 12 20 (by decide)).trans BitVec.extractLsb'_eq_self,
    field_lo⟩
theorem fields_6_5_9_12 (z : IWord) {p0 : BitVec 6} {p1 : BitVec 5} {p2 : BitVec 9} {p3 : BitVec 12} (h : p0 ++ p1 ++ p2 ++ p3 = z) :
    z.extractLsb' 26 6 = p0 ∧ z.extractLsb' 21 5 = p1 ∧ z.extractLsb' 12 9 = p2 ∧ z.extractLsb' 0 12 = p3 := by
  subst h
  exact ⟨(field_hi 26 6 (by decide)).trans ((field_hi 14 6 (by decide)).trans ((field_hi 5 6 (by decide)).trans BitVec.extractLsb'_eq_self)),
    (field_hi 21 5 (by decide)).trans ((field_hi 9 5 (by decide)).trans field_lo),
    (field_hi 12 9 (by decide)).trans field_lo,
    field_lo⟩
theorem fields_11_5_4_12 (z : IWord) {p0 : BitVec 11} {p1 : BitVec 5} {p2 : BitVec 4} {p3 : BitVec 12} (h : p0 ++ p1 ++ p2 ++ p3 = z) :
    z.extractLsb' 21 11 = p0 ∧ z.extractLsb' 16 5 = p1 ∧ z.extractLsb' 12 4 = p2 ∧ z.extractLsb' 0 12 = p3 := by
  subst h
  exact ⟨(field_hi 21 11 (by decide)).trans ((field_hi 9 11 (by decide)).trans ((field_hi 5 11 (by decide)).trans BitVec.extractLsb'_eq_self)),
    (field_hi 16 5 (by decide)).trans ((field_hi 4 5 (by decide)).trans field_lo),
    (field_hi 12 4 (by decide)).trans field_lo,
    field_lo⟩
theorem fields_6_5_5_4_10_2 (z : IWord) {p0 : BitVec 6} {p1 : BitVec 5} {p2 : BitVec 5} {p3 : BitVec 4} {p4 : BitVec 10} {p5 : BitVec 2} (h : p0 ++ p1 ++ p2 ++ p3 ++ p4 ++ p5 = z) :
    z.extractLsb' 26 6 = p0 ∧ z.extractLsb' 21 5 = p1 ∧ z.extractLsb' 16 5 = p2 ∧ z.extractLsb' 12 4 = p3 ∧ z.extractLsb' 2 10 = p4 ∧ z.extractLsb' 0 2 = p5 := by
  subst h
  exact ⟨(field_hi 26 6 (by decide)).trans ((field_hi 24 6 (by decide)).trans ((field_hi 14 6 (by decide)).trans ((field_hi 10 6 (by decide)).trans ((field_hi 5 6 (by decide)).trans BitVec.extractLsb'_eq_self)))),
    (field_hi 21 5 (by decide)).trans ((field_hi 19 5 (by decide)).trans ((field_hi 9 5 (by decide)).trans ((field_hi 5 5 (by decide)).trans field_lo))),
    (field_hi 16 5 (by decide)).trans ((field_hi 14 5 (by decide)).trans ((field_hi 4 5 (by decide)).trans field_lo)),
    (field_hi 12 4 (by decide)).trans ((field_hi 10 4 (by decide)).trans field_lo),
    (field_hi 2 10 (by decide)).trans field_lo,
    field_lo⟩
theorem fields_6_5_2_3_16 (z : IWord) {p0 : BitVec 6} {p1 : BitVec 5} {p2 : BitVec 2} {p3 : BitVec 3} {p4 : BitVec 16} (h : p0 ++ p1 ++ p2 ++ p3 ++ p4 = z) :
    z.extractLsb' 26 6 = p0 ∧ z.extractLsb' 21 5 = p1 ∧ z.extractLsb' 19 2 = p2 ∧ z.extractLsb' 16 3 = p3 ∧ z.extractLsb' 0 16 = p4 := by
  subst h
  exact ⟨(field_hi 26 6 (by decide)).trans ((field_hi 10 6 (by decide)).trans ((field_hi 7 6 (by decide)).trans ((field_hi 5 6 (by decide)).trans BitVec.extractLsb'_eq_self))),
    (field_hi 21 5 (by decide)).trans ((field_hi 5 5 (by decide)).trans ((field_hi 2 5 (by decide)).trans field_lo)),
    (field_hi 19 2 (by decide)).trans ((field_hi 3 2 (by decide)).trans field_lo),
    (field_hi 16 3 (by decide)).trans field_lo,
    field_lo⟩
theorem fields_8_3_5_5_1_10 (z : IWord) {p0 : BitVec 8} {p1 : BitVec 3} {p2 : BitVec 5} {p3 : BitVec 5} {p4 : BitVec 1} {p5 : BitVec 10} (h : p0 ++ p1 ++ p2 ++ p3 ++ p4 ++ p5 = z) :
    z.extractLsb' 24 8 = p0 ∧ z.extractLsb' 21 3 = p1 ∧ z.extractLsb' 16 5 = p2 ∧ z.extractLsb' 11 5 = p3 ∧ z.extractLsb' 10 1 = p4 ∧ z.extractLsb' 0 10 = p5 := by
  subst h
  exact ⟨(field_hi 24 8 (by decide)).trans ((field_hi 14 8 (by decide)).trans ((field_hi 13 8 (by decide)).trans ((field_hi 8 8 (by decide)).trans ((field_hi 3 8 (by decide)).trans BitVec.extractLsb'_eq_self)))),
    (field_hi 21 3 (by decide)).trans ((field_hi 11 3 (by decide)).trans ((field_hi 10 3 (by decide)).trans ((field_hi 5 3 (by decide)).trans field_lo))),
    (field_hi 16 5 (by decide)).trans ((field_hi 6 5 (by decide)).trans ((field_hi 5 5 (by decide)).trans field_lo)),
    (field_hi 11 5 (by decide)).trans ((field_hi 1 5 (by decide)).trans field_lo),
    (field_hi 10 1 (by decide)).trans field_lo,
    field_lo⟩
theorem fields_6_5_5_5_6_5 (z : IWord) {p0 : BitVec 6} {p1 : BitVec 5} {p2 : BitVec 5} {p3 : BitVec 5} {p4 : BitVec 6} {p5 : BitVec 5} (h : p0 ++ p1 ++ p2 ++ p3 ++ p4 ++ p5 = z) :
    z.extractLsb' 26 6 = p0 ∧ z.extractLsb' 21 5 = p1 ∧ z.extractLsb' 16 5 = p2 ∧ z.extractLsb' 11 5 = p3 ∧ z.extractLsb' 5 6 = p4 ∧ z.extractLsb' 0 5 = p5 := by
  subst h
  exact ⟨(field_hi 26 6 (by decide)).trans ((field_hi 21 6 (by decide)).trans ((field_hi 15 6 (by decide)).trans ((field_hi 10 6 (by decide)).trans ((field_hi 5 6 (by decide)).trans BitVec.extractLsb'_eq_self)))),
    (field_hi 21 5 (by decide)).trans ((field_hi 16 5 (by decide)).trans ((field_hi 10 5 (by decide)).trans ((field_hi 5 5 (by decide)).trans field_lo))),
    (field_hi 16 5 (by decide)).trans ((field_hi 11 5 (by decide)).trans ((field_hi 5 5 (by decide)).trans field_lo)),
    (field_hi 11 5 (by decide)).trans ((field_hi 6 5 (by decide)).trans field_lo),
    (field_hi 5 6 (by decide)).trans field_lo,
    field_lo⟩
theorem fields_6_5_5_5_6_2_1_2 (z : IWord) {p0 : BitVec 6} {p1 : BitVec 5} {p2 : BitVec 5} {p3 : BitVec 5} {p4 : BitVec 6} {p5 : BitVec 2} {p6 : BitVec 1} {p7 : BitVec 2} (h : p0 ++ p1 ++ p2 ++ p3 ++ p4 ++ p5 ++ p6 ++ p7 = z) :
    z.extractLsb' 26 6 = p0 ∧ z.extractLsb' 21 5 = p1 ∧ z.extractLsb' 16 5 = p2 ∧ z.extractLsb' 11 5 = p3 ∧ z.extractLsb' 5 6 = p4 ∧ z.extractLsb' 3 2 = p5 ∧ z.extractLsb' 2 1 = p6 ∧ z.extractLsb' 0 2 = p7 := by
  subst h
  exact ⟨(field_hi 26 6 (by decide)).trans ((field_hi 24 6 (by decide)).trans ((field_hi 23 6 (by decide)).trans ((field_hi 21 6 (by decide)).trans ((field_hi 15 6 (by decide)).trans ((field_hi 10 6 (by decide)).trans ((field_hi 5 6 (by decide)).trans BitVec.extractLsb'_eq_self)))))),
    (field_hi 21 5 (by decide)).trans ((field_hi 19 5 (by decide)).trans ((field_hi 18 5 (by decide)).trans ((field_hi 16 5 (by decide)).trans ((field_hi 10 5 (by decide)).trans ((field_hi 5 5 (by decide)).trans field_lo))))),
    (field_hi 16 5 (by decide)).trans ((field_hi 14 5 (by decide)).trans ((field_hi 13 5 (by decide)).trans ((field_hi 11 5 (by decide)).trans ((field_hi 5 5 (by decide)).trans field_lo)))),
    (field_hi 11 5 (by decide)).trans ((field_hi 9 5 (by decide)).trans ((field_hi 8 5 (by decide)).trans ((field_hi 6 5 (by decide)).trans field_lo))),
    (field_hi 5 6 (by decide)).trans ((field_hi 3 6 (by decide)).trans ((field_hi 2 6 (by decide)).trans field_lo)),
    (field_hi 3 2 (by decide)).trans ((field_hi 1 2 (by decide)).trans field_lo),
    (field_hi 2 1 (by decide)).trans field_lo,
    field_lo⟩
theorem fields_6_5_5_13_3 (z : IWord) {p0 : BitVec 6} {p1 : BitVec 5} {p2 : BitVec 5} {p3 : BitVec 13} {p4 : BitVec 3} (h : p0 ++ p1 ++ p2 ++ p3 ++ p4 = z) :
    z.extractLsb' 26 6 = p0 ∧ z.extractLsb' 21 5 = p1 ∧ z.extractLsb' 16 5 = p2 ∧ z.extractLsb' 3 13 = p3 ∧ z.extractLsb' 0 3 = p4 := by
  subst h
  exact ⟨(field_hi 26 6 (by decide)).trans ((field_hi 23 6 (by decide)).trans ((field_hi 10 6 (by decide)).trans ((field_hi 5 6 (by decide)).trans BitVec.extractLsb'_eq_self))),
    (field_hi 21 5 (by decide)).trans ((field_hi 18 5 (by decide)).trans ((field_hi 5 5 (by decide)).trans field_lo)),
    (field_hi 16 5 (by decide)).trans ((field_hi 13 5 (by decide)).trans field_lo),
    (field_hi 3 13 (by decide)).trans field_lo,
    field_lo⟩
theorem fields_6_5_5_5_8_3 (z : IWord) {p0 : BitVec 6} {p1 : BitVec 5} {p2 : BitVec 5} {p3 : BitVec 5} {p4 : BitVec 8} {p5 : BitVec 3} (h : p0 ++ p1 ++ p2 ++ p3 ++ p4 ++ p5 = z) :
    z.extractLsb' 26 6 = p0 ∧ z.extractLsb' 21 5 = p1 ∧ z.extractLsb' 16 5 = p2 ∧ z.extractLsb' 11 5 = p3 ∧ z.extractLsb' 3 8 = p4 ∧ z.extractLsb' 0 3 = p5 := by
  subst h
  exact ⟨(field_hi 26 6 (by decide)).trans ((field_hi 23 6 (by decide)).trans ((field_hi 15 6 (by decide)).trans ((field_hi 10 6 (by decide)).trans ((field_hi 5 6 (by decide)).trans BitVec.extractLsb'_eq_self)))),
    (field_hi 21 5 (by decide)).trans ((field_hi 18 5 (by decide)).trans ((field_hi 10 5 (by decide)).trans ((field_hi 5 5 (by decide)).trans field_lo))),
    (field_hi 16 5 (by decide)).trans ((field_hi 13 5 (by decide)).trans ((field_hi 5 5 (by decide)).trans field_lo)),
    (field_hi 11 5 (by decide)).trans ((field_hi 8 5 (by decide)).trans field_lo),
    (field_hi 3 8 (by decide)).trans field_lo,
    field_lo⟩
theorem fields_8_3_2_3_2_3_11 (z : IWord) {p0 : BitVec 8} {p1 : BitVec 3} {p2 : BitVec 2} {p3 : BitVec 3} {p4 : BitVec 2} {p5 : BitVec 3} {p6 : BitVec 11} (h : p0 ++ p1 ++ p2 ++ p3 ++ p4 ++ p5 ++ p6 = z) :
    z.extractLsb' 24 8 = p0 ∧ z.extractLsb' 21 3 = p1 ∧ z.extractLsb' 19 2 = p2 ∧ z.extractLsb' 16 3 = p3 ∧ z.extractLsb' 14 2 = p4 ∧ z.extractLsb' 11 3 = p5 ∧ z.extractLsb' 0 11 = p6 := by
  subst h
  exact ⟨(field_hi 24 8 (by decide)).trans ((field_hi 13 8 (by decide)).trans ((field_hi 10 8 (by decide)).trans ((field_hi 8 8 (by decide)).trans ((field_hi 5 8 (by decide)).trans ((field_hi 3 8 (by decide)).trans BitVec.extractLsb'_eq_self))))),
    (field_hi 21 3 (by decide)).trans ((field_hi 10 3 (by decide)).trans ((field_hi 7 3 (by decide)).trans ((field_hi 5 3 (by decide)).trans ((field_hi 2 3 (by decide)).trans field_lo)))),
    (field_hi 19 2 (by decide)).trans ((field_hi 8 2 (by decide)).trans ((field_hi 5 2 (by decide)).trans ((field_hi 3 2 (by decide)).trans field_lo))),
    (field_hi 16 3 (by decide)).trans ((field_hi 5 3 (by decide)).trans ((field_hi 2 3 (by decide)).trans field_lo)),
    (field_hi 14 2 (by decide)).trans ((field_hi 3 2 (by decide)).trans field_lo),
    (field_hi 11 3 (by decide)).trans field_lo,
    field_lo⟩
theorem fields_8_3_2_3_16 (z : IWord) {p0 : BitVec 8} {p1 : BitVec 3} {p2 : BitVec 2} {p3 : BitVec 3} {p4 : BitVec 16} (h : p0 ++ p1 ++ p2 ++ p3 ++ p4 = z) :
    z.extractLsb' 24 8 = p0 ∧ z.extractLsb' 21 3 = p1 ∧ z.extractLsb' 19 2 = p2 ∧ z.extractLsb' 16 3 = p3 ∧ z.extractLsb' 0 16 = p4 := by
  subst h
  exact ⟨(field_hi 24 8 (by decide)).trans ((field_hi 8 8 (by decide)).trans ((field_hi 5 8 (by decide)).trans ((field_hi 3 8 (by decide)).trans BitVec.extractLsb'_eq_self))),
    (field_hi 21 3 (by decide)).trans ((field_hi 5 3 (by decide)).trans ((field_hi 2 3 (by decide)).trans field_lo)),
    (field_hi 19 2 (by decide)).trans ((field_hi 3 2 (by decide)).trans field_lo),
    (field_hi 16 3 (by decide)).trans field_lo,
    field_lo⟩
theorem fields_8_3_21 (z : IWord) {p0 : BitVec 8} {p1 : BitVec 3} {p2 : BitVec 21} (h : p0 ++ p1 ++ p2 = z) :
    z.extractLsb' 24 8 = p0 ∧ z.extractLsb' 21 3 = p1 ∧ z.extractLsb' 0 21 = p2 := by
  subst h
  exact ⟨(field_hi 24 8 (by decide)).trans ((field_hi 3 8 (by decide)).trans BitVec.extractLsb'_eq_self),
    (field_hi 21 3 (by decide)).trans field_lo,
    field_lo⟩
theorem fields_6_5_19_1_1 (z : IWord) {p0 : BitVec 6} {p1 : BitVec 5} {p2 : BitVec 19} {p3 : BitVec 1} {p4 : BitVec 1} (h : p0 ++ p1 ++ p2 ++ p3 ++ p4 = z) :
    z.extractLsb' 26 6 = p0 ∧ z.extractLsb' 21 5 = p1 ∧ z.extractLsb' 2 19 = p2 ∧ z.extractLsb' 1 1 = p3 ∧ z.extractLsb' 0 1 = p4 := by
  subst h
  exact ⟨(field_hi 26 6 (by decide)).trans ((field_hi 25 6 (by decide)).trans ((field_hi 24 6 (by decide)).trans ((field_hi 5 6 (by decide)).trans BitVec.extractLsb'_eq_self))),
    (field_hi 21 5 (by decide)).trans ((field_hi 20 5 (by decide)).trans ((field_hi 19 5 (by decide)).trans field_lo)),
    (field_hi 2 19 (by decide)).trans ((field_hi 1 19 (by decide)).trans field_lo),
    (field_hi 1 1 (by decide)).trans field_lo,
    field_lo⟩
theorem fields_9_2_5_5_1_10 (z : IWord) {p0 : BitVec 9} {p1 : BitVec 2} {p2 : BitVec 5} {p3 : BitVec 5} {p4 : BitVec 1} {p5 : BitVec 10} (h : p0 ++ p1 ++ p2 ++ p3 ++ p4 ++ p5 = z) :
    z.extractLsb' 23 9 = p0 ∧ z.extractLsb' 21 2 = p1 ∧ z.extractLsb' 16 5 = p2 ∧ z.extractLsb' 11 5 = p3 ∧ z.extractLsb' 10 1 = p4 ∧ z.extractLsb' 0 10 = p5 := by
  subst h
  exact ⟨(field_hi 23 9 (by decide)).trans ((field_hi 13 9 (by decide)).trans ((field_hi 12 9 (by decide)).trans ((field_hi 7 9 (by decide)).trans ((field_hi 2 9 (by decide)).trans BitVec.extractLsb'_eq_self)))),
    (field_hi 21 2 (by decide)).trans ((field_hi 11 2 (by decide)).trans ((field_hi 10 2 (by decide)).trans ((field_hi 5 2 (by decide)).trans field_lo))),
    (field_hi 16 5 (by decide)).trans ((field_hi 6 5 (by decide)).trans ((field_hi 5 5 (by decide)).trans field_lo)),
    (field_hi 11 5 (by decide)).trans ((field_hi 1 5 (by decide)).trans field_lo),
    (field_hi 10 1 (by decide)).trans field_lo,
    field_lo⟩
theorem fields_14_2_16 (z : IWord) {p0 : BitVec 14} {p1 : BitVec 2} {p2 : BitVec 16} (h : p0 ++ p1 ++ p2 = z) :
    z.extractLsb' 18 14 = p0 ∧ z.extractLsb' 16 2 = p1 ∧ z.extractLsb' 0 16 = p2 := by
  subst h
  exact ⟨(field_hi 18 14 (by decide)).trans ((field_hi 2 14 (by decide)).trans BitVec.extractLsb'_eq_self),
    (field_hi 16 2 (by decide)).trans field_lo,
    field_lo⟩
theorem fields_6_5_3_2_5_11 (z : IWord) {p0 : BitVec 6} {p1 : BitVec 5} {p2 : BitVec 3} {p3 : BitVec 2} {p4 : BitVec 5} {p5 : BitVec 11} (h : p0 ++ p1 ++ p2 ++ p3 ++ p4 ++ p5 = z) :
    z.extractLsb' 26 6 = p0 ∧ z.extractLsb' 21 5 = p1 ∧ z.extractLsb' 18 3 = p2 ∧ z.extractLsb' 16 2 = p3 ∧ z.extractLsb' 11 5 = p4 ∧ z.extractLsb' 0 11 = p5 := by
  subst h
  exact ⟨(field_hi 26 6 (by decide)).trans ((field_hi 15 6 (by decide)).trans ((field_hi 10 6 (by decide)).trans ((field_hi 8 6 (by decide)).trans ((field_hi 5 6 (by decide)).trans BitVec.extractLsb'_eq_self)))),
    (field_hi 21 5 (by decide)).trans ((field_hi 10 5 (by decide)).trans ((field_hi 5 5 (by decide)).trans ((field_hi 3 5 (by decide)).trans field_lo))),
    (field_hi 18 3 (by decide)).trans ((field_hi 7 3 (by decide)).trans ((field_hi 2 3 (by decide)).trans field_lo)),
    (field_hi 16 2 (by decide)).trans ((field_hi 5 2 (by decide)).trans field_lo),
    (field_hi 11 5 (by decide)).trans field_lo,
    field_lo⟩
theorem fields_6_5_3_2_5_6_2_1_2 (z : IWord) {p0 : BitVec 6} {p1 : BitVec 5} {p2 : BitVec 3} {p3 : BitVec 2} {p4 : BitVec 5} {p5 : BitVec 6} {p6 : BitVec 2} {p7 : BitVec 1} {p8 : BitVec 2} (h : p0 ++ p1 ++ p2 ++ p3 ++ p4 ++ p5 ++ p6 ++ p7 ++ p8 = z) :
    z.extractLsb' 26 6 = p0 ∧ z.extractLsb' 21 5 = p1 ∧ z.extractLsb' 18 3 = p2 ∧ z.extractLsb' 16 2 = p3 ∧ z.extractLsb' 11 5 = p4 ∧ z.extractLsb' 5 6 = p5 ∧ z.extractLsb' 3 2 = p6 ∧ z.extractLsb' 2 1 = p7 ∧ z.extractLsb' 0 2 = p8 := by
  subst h
  exact ⟨(field_hi 26 6 (by decide)).trans ((field_hi 24 6 (by decide)).trans ((field_hi 23 6 (by decide)).trans ((field_hi 21 6 (by decide)).trans ((field_hi 15 6 (by decide)).trans ((field_hi 10 6 (by decide)).trans ((field_hi 8 6 (by decide)).trans ((field_hi 5 6 (by decide)).trans BitVec.extractLsb'_eq_self))))))),
    (field_hi 21 5 (by decide)).trans ((field_hi 19 5 (by decide)).trans ((field_hi 18 5 (by decide)).trans ((field_hi 16 5 (by decide)).trans ((field_hi 10 5 (by decide)).trans ((field_hi 5 5 (by decide)).trans ((field_hi 3 5 (by decide)).trans field_lo)))))),
    (field_hi 18 3 (by decide)).trans ((field_hi 16 3 (by decide)).trans ((field_hi 15 3 (by decide)).trans ((field_hi 13 3 (by decide)).trans ((field_hi 7 3 (by decide)).trans ((field_hi 2 3 (by decide)).trans field_lo))))),
    (field_hi 16 2 (by decide)).trans ((field_hi 14 2 (by decide)).trans ((field_hi 13 2 (by decide)).trans ((field_hi 11 2 (by decide)).trans ((field_hi 5 2 (by decide)).trans field_lo)))),
    (field_hi 11 5 (by decide)).trans ((field_hi 9 5 (by decide)).trans ((field_hi 8 5 (by decide)).trans ((field_hi 6 5 (by decide)).trans field_lo))),
    (field_hi 5 6 (by decide)).trans ((field_hi 3 6 (by decide)).trans ((field_hi 2 6 (by decide)).trans field_lo)),
    (field_hi 3 2 (by decide)).trans ((field_hi 1 2 (by decide)).trans field_lo),
    (field_hi 2 1 (by decide)).trans field_lo,
    field_lo⟩
theorem fields_11_5_5_11 (z : IWord) {p0 : BitVec 11} {p1 : BitVec 5} {p2 : BitVec 5} {p3 : BitVec 11} (h : p0 ++ p1 ++ p2 ++ p3 = z) :
    z.extractLsb' 21 11 = p0 ∧ z.extractLsb' 16 5 = p1 ∧ z.extractLsb' 11 5 = p2 ∧ z.extractLsb' 0 11 = p3 := by
  subst h
  exact ⟨(field_hi 21 11 (by decide)).trans ((field_hi 10 11 (by decide)).trans ((field_hi 5 11 (by decide)).trans BitVec.extractLsb'_eq_self)),
    (field_hi 16 5 (by decide)).trans ((field_hi 5 5 (by decide)).trans field_lo),
    (field_hi 11 5 (by decide)).trans field_lo,
    field_lo⟩
theorem fields_6_5_5_5_6_2_3 (z : IWord) {p0 : BitVec 6} {p1 : BitVec 5} {p2 : BitVec 5} {p3 : BitVec 5} {p4 : BitVec 6} {p5 : BitVec 2} {p6 : BitVec 3} (h : p0 ++ p1 ++ p2 ++ p3 ++ p4 ++ p5 ++ p6 = z) :
    z.extractLsb' 26 6 = p0 ∧ z.extractLsb' 21 5 = p1 ∧ z.extractLsb' 16 5 = p2 ∧ z.extractLsb' 11 5 = p3 ∧ z.extractLsb' 5 6 = p4 ∧ z.extractLsb' 3 2 = p5 ∧ z.extractLsb' 0 3 = p6 := by
  subst h
  exact ⟨(field_hi 26 6 (by decide)).trans ((field_hi 23 6 (by decide)).trans ((field_hi 21 6 (by decide)).trans ((field_hi 15 6 (by decide)).trans ((field_hi 10 6 (by decide)).trans ((field_hi 5 6 (by decide)).trans BitVec.extractLsb'_eq_self))))),
    (field_hi 21 5 (by decide)).trans ((field_hi 18 5 (by decide)).trans ((field_hi 16 5 (by decide)).trans ((field_hi 10 5 (by decide)).trans ((field_hi 5 5 (by decide)).trans field_lo)))),
    (field_hi 16 5 (by decide)).trans ((field_hi 13 5 (by decide)).trans ((field_hi 11 5 (by decide)).trans ((field_hi 5 5 (by decide)).trans field_lo))),
    (field_hi 11 5 (by decide)).trans ((field_hi 8 5 (by decide)).trans ((field_hi 6 5 (by decide)).trans field_lo)),
    (field_hi 5 6 (by decide)).trans ((field_hi 2 6 (by decide)).trans field_lo),
    (field_hi 3 2 (by decide)).trans field_lo,
    field_lo⟩

theorem add (d : BitVec 5) (a : BitVec 5) (b : BitVec 5) (w : BitVec 1) : Statement (.add d a b w) := by
  intro z h hw
  obtain ⟨f0, f1, f2, f3, f4, f5⟩ := fields_6_5_5_5_1_10 z (h := Option.some.inj h)
  have s0 : z.extractLsb' 5 5 = 0#5 := (sub_field f5 5 5 (by decide)).trans (by decide)
  have s1 : z.extractLsb' 0 5 = 0#5 := (sub_field f5 0 5 (by decide)).trans (by decide)
  show decodeMajor z (z.extractLsb' 26 6).toNat = _
  rw [f0]
  show decodeMajor01 z (z.extractLsb' 5 5).toNat = _
  rw [s0]
  simp [decodeMajor01, mbz, fa, fb, fd, fx, legal, hw, s1, f1, f2, f3, f4]
theorem sub (d : BitVec 5) (a : BitVec 5) (b : BitVec 5) (w : BitVec 1) : Statement (.sub d a b w) := by
  intro z h hw
  obtain ⟨f0, f1, f2, f3, f4, f5⟩ := fields_6_5_5_5_1_10 z (h := Option.some.inj h)
  have s0 : z.extractLsb' 5 5 = 1#5 := (sub_field f5 5 5 (by decide)).trans (by decide)
  have s1 : z.extractLsb' 0 5 = 0#5 := (sub_field f5 0 5 (by decide)).trans (by decide)
  show decodeMajor z (z.extractLsb' 26 6).toNat = _
  rw [f0]
  show decodeMajor01 z (z.extractLsb' 5 5).toNat = _
  rw [s0]
  simp [decodeMajor01, mbz, fa, fb, fd, fx, legal, hw, s1, f1, f2, f3, f4]
theorem mul (d : BitVec 5) (a : BitVec 5) (b : BitVec 5) (w : BitVec 1) : Statement (.mul d a b w) := by
  intro z h hw
  obtain ⟨f0, f1, f2, f3, f4, f5⟩ := fields_6_5_5_5_1_10 z (h := Option.some.inj h)
  have s0 : z.extractLsb' 5 5 = 2#5 := (sub_field f5 5 5 (by decide)).trans (by decide)
  have s1 : z.extractLsb' 0 5 = 0#5 := (sub_field f5 0 5 (by decide)).trans (by decide)
  show decodeMajor z (z.extractLsb' 26 6).toNat = _
  rw [f0]
  show decodeMajor01 z (z.extractLsb' 5 5).toNat = _
  rw [s0]
  simp [decodeMajor01, mbz, fa, fb, fd, fx, legal, hw, s1, f1, f2, f3, f4]
theorem mulh (d : BitVec 5) (a : BitVec 5) (b : BitVec 5) (w : BitVec 1) : Statement (.mulh d a b w) := by
  intro z h hw
  obtain ⟨f0, f1, f2, f3, f4, f5⟩ := fields_6_5_5_5_1_10 z (h := Option.some.inj h)
  have s0 : z.extractLsb' 5 5 = 3#5 := (sub_field f5 5 5 (by decide)).trans (by decide)
  have s1 : z.extractLsb' 0 5 = 0#5 := (sub_field f5 0 5 (by decide)).trans (by decide)
  show decodeMajor z (z.extractLsb' 26 6).toNat = _
  rw [f0]
  show decodeMajor01 z (z.extractLsb' 5 5).toNat = _
  rw [s0]
  simp [decodeMajor01, mbz, fa, fb, fd, fx, legal, hw, s1, f1, f2, f3, f4]
theorem mulhn (d : BitVec 5) (a : BitVec 5) (b : BitVec 5) (w : BitVec 1) : Statement (.mulhn d a b w) := by
  intro z h hw
  obtain ⟨f0, f1, f2, f3, f4, f5⟩ := fields_6_5_5_5_1_10 z (h := Option.some.inj h)
  have s0 : z.extractLsb' 5 5 = 4#5 := (sub_field f5 5 5 (by decide)).trans (by decide)
  have s1 : z.extractLsb' 0 5 = 0#5 := (sub_field f5 0 5 (by decide)).trans (by decide)
  show decodeMajor z (z.extractLsb' 26 6).toNat = _
  rw [f0]
  show decodeMajor01 z (z.extractLsb' 5 5).toNat = _
  rw [s0]
  simp [decodeMajor01, mbz, fa, fb, fd, fx, legal, hw, s1, f1, f2, f3, f4]
theorem div (d : BitVec 5) (a : BitVec 5) (b : BitVec 5) (w : BitVec 1) : Statement (.div d a b w) := by
  intro z h hw
  obtain ⟨f0, f1, f2, f3, f4, f5⟩ := fields_6_5_5_5_1_10 z (h := Option.some.inj h)
  have s0 : z.extractLsb' 5 5 = 5#5 := (sub_field f5 5 5 (by decide)).trans (by decide)
  have s1 : z.extractLsb' 0 5 = 0#5 := (sub_field f5 0 5 (by decide)).trans (by decide)
  show decodeMajor z (z.extractLsb' 26 6).toNat = _
  rw [f0]
  show decodeMajor01 z (z.extractLsb' 5 5).toNat = _
  rw [s0]
  simp [decodeMajor01, mbz, fa, fb, fd, fx, legal, hw, s1, f1, f2, f3, f4]
theorem divn (d : BitVec 5) (a : BitVec 5) (b : BitVec 5) (w : BitVec 1) : Statement (.divn d a b w) := by
  intro z h hw
  obtain ⟨f0, f1, f2, f3, f4, f5⟩ := fields_6_5_5_5_1_10 z (h := Option.some.inj h)
  have s0 : z.extractLsb' 5 5 = 6#5 := (sub_field f5 5 5 (by decide)).trans (by decide)
  have s1 : z.extractLsb' 0 5 = 0#5 := (sub_field f5 0 5 (by decide)).trans (by decide)
  show decodeMajor z (z.extractLsb' 26 6).toNat = _
  rw [f0]
  show decodeMajor01 z (z.extractLsb' 5 5).toNat = _
  rw [s0]
  simp [decodeMajor01, mbz, fa, fb, fd, fx, legal, hw, s1, f1, f2, f3, f4]
theorem rem (d : BitVec 5) (a : BitVec 5) (b : BitVec 5) (w : BitVec 1) : Statement (.rem d a b w) := by
  intro z h hw
  obtain ⟨f0, f1, f2, f3, f4, f5⟩ := fields_6_5_5_5_1_10 z (h := Option.some.inj h)
  have s0 : z.extractLsb' 5 5 = 7#5 := (sub_field f5 5 5 (by decide)).trans (by decide)
  have s1 : z.extractLsb' 0 5 = 0#5 := (sub_field f5 0 5 (by decide)).trans (by decide)
  show decodeMajor z (z.extractLsb' 26 6).toNat = _
  rw [f0]
  show decodeMajor01 z (z.extractLsb' 5 5).toNat = _
  rw [s0]
  simp [decodeMajor01, mbz, fa, fb, fd, fx, legal, hw, s1, f1, f2, f3, f4]
theorem remn (d : BitVec 5) (a : BitVec 5) (b : BitVec 5) (w : BitVec 1) : Statement (.remn d a b w) := by
  intro z h hw
  obtain ⟨f0, f1, f2, f3, f4, f5⟩ := fields_6_5_5_5_1_10 z (h := Option.some.inj h)
  have s0 : z.extractLsb' 5 5 = 8#5 := (sub_field f5 5 5 (by decide)).trans (by decide)
  have s1 : z.extractLsb' 0 5 = 0#5 := (sub_field f5 0 5 (by decide)).trans (by decide)
  show decodeMajor z (z.extractLsb' 26 6).toNat = _
  rw [f0]
  show decodeMajor01 z (z.extractLsb' 5 5).toNat = _
  rw [s0]
  simp [decodeMajor01, mbz, fa, fb, fd, fx, legal, hw, s1, f1, f2, f3, f4]
theorem and (d : BitVec 5) (a : BitVec 5) (b : BitVec 5) (w : BitVec 1) : Statement (.and d a b w) := by
  intro z h hw
  obtain ⟨f0, f1, f2, f3, f4, f5⟩ := fields_6_5_5_5_1_10 z (h := Option.some.inj h)
  have s0 : z.extractLsb' 5 5 = 9#5 := (sub_field f5 5 5 (by decide)).trans (by decide)
  have s1 : z.extractLsb' 0 5 = 0#5 := (sub_field f5 0 5 (by decide)).trans (by decide)
  show decodeMajor z (z.extractLsb' 26 6).toNat = _
  rw [f0]
  show decodeMajor01 z (z.extractLsb' 5 5).toNat = _
  rw [s0]
  simp [decodeMajor01, mbz, fa, fb, fd, fx, legal, hw, s1, f1, f2, f3, f4]
theorem or (d : BitVec 5) (a : BitVec 5) (b : BitVec 5) (w : BitVec 1) : Statement (.or d a b w) := by
  intro z h hw
  obtain ⟨f0, f1, f2, f3, f4, f5⟩ := fields_6_5_5_5_1_10 z (h := Option.some.inj h)
  have s0 : z.extractLsb' 5 5 = 10#5 := (sub_field f5 5 5 (by decide)).trans (by decide)
  have s1 : z.extractLsb' 0 5 = 0#5 := (sub_field f5 0 5 (by decide)).trans (by decide)
  show decodeMajor z (z.extractLsb' 26 6).toNat = _
  rw [f0]
  show decodeMajor01 z (z.extractLsb' 5 5).toNat = _
  rw [s0]
  simp [decodeMajor01, mbz, fa, fb, fd, fx, legal, hw, s1, f1, f2, f3, f4]
theorem xor (d : BitVec 5) (a : BitVec 5) (b : BitVec 5) (w : BitVec 1) : Statement (.xor d a b w) := by
  intro z h hw
  obtain ⟨f0, f1, f2, f3, f4, f5⟩ := fields_6_5_5_5_1_10 z (h := Option.some.inj h)
  have s0 : z.extractLsb' 5 5 = 11#5 := (sub_field f5 5 5 (by decide)).trans (by decide)
  have s1 : z.extractLsb' 0 5 = 0#5 := (sub_field f5 0 5 (by decide)).trans (by decide)
  show decodeMajor z (z.extractLsb' 26 6).toNat = _
  rw [f0]
  show decodeMajor01 z (z.extractLsb' 5 5).toNat = _
  rw [s0]
  simp [decodeMajor01, mbz, fa, fb, fd, fx, legal, hw, s1, f1, f2, f3, f4]
theorem shl (d : BitVec 5) (a : BitVec 5) (b : BitVec 5) (w : BitVec 1) : Statement (.shl d a b w) := by
  intro z h hw
  obtain ⟨f0, f1, f2, f3, f4, f5⟩ := fields_6_5_5_5_1_10 z (h := Option.some.inj h)
  have s0 : z.extractLsb' 5 5 = 12#5 := (sub_field f5 5 5 (by decide)).trans (by decide)
  have s1 : z.extractLsb' 0 5 = 0#5 := (sub_field f5 0 5 (by decide)).trans (by decide)
  show decodeMajor z (z.extractLsb' 26 6).toNat = _
  rw [f0]
  show decodeMajor01 z (z.extractLsb' 5 5).toNat = _
  rw [s0]
  simp [decodeMajor01, mbz, fa, fb, fd, fx, legal, hw, s1, f1, f2, f3, f4]
theorem shr (d : BitVec 5) (a : BitVec 5) (b : BitVec 5) (w : BitVec 1) : Statement (.shr d a b w) := by
  intro z h hw
  obtain ⟨f0, f1, f2, f3, f4, f5⟩ := fields_6_5_5_5_1_10 z (h := Option.some.inj h)
  have s0 : z.extractLsb' 5 5 = 13#5 := (sub_field f5 5 5 (by decide)).trans (by decide)
  have s1 : z.extractLsb' 0 5 = 0#5 := (sub_field f5 0 5 (by decide)).trans (by decide)
  show decodeMajor z (z.extractLsb' 26 6).toNat = _
  rw [f0]
  show decodeMajor01 z (z.extractLsb' 5 5).toNat = _
  rw [s0]
  simp [decodeMajor01, mbz, fa, fb, fd, fx, legal, hw, s1, f1, f2, f3, f4]
theorem sha (d : BitVec 5) (a : BitVec 5) (b : BitVec 5) (w : BitVec 1) : Statement (.sha d a b w) := by
  intro z h hw
  obtain ⟨f0, f1, f2, f3, f4, f5⟩ := fields_6_5_5_5_1_10 z (h := Option.some.inj h)
  have s0 : z.extractLsb' 5 5 = 14#5 := (sub_field f5 5 5 (by decide)).trans (by decide)
  have s1 : z.extractLsb' 0 5 = 0#5 := (sub_field f5 0 5 (by decide)).trans (by decide)
  show decodeMajor z (z.extractLsb' 26 6).toNat = _
  rw [f0]
  show decodeMajor01 z (z.extractLsb' 5 5).toNat = _
  rw [s0]
  simp [decodeMajor01, mbz, fa, fb, fd, fx, legal, hw, s1, f1, f2, f3, f4]
theorem slt (d : BitVec 5) (a : BitVec 5) (b : BitVec 5) (w : BitVec 1) : Statement (.slt d a b w) := by
  intro z h hw
  obtain ⟨f0, f1, f2, f3, f4, f5⟩ := fields_6_5_5_5_1_10 z (h := Option.some.inj h)
  have s0 : z.extractLsb' 5 5 = 15#5 := (sub_field f5 5 5 (by decide)).trans (by decide)
  have s1 : z.extractLsb' 0 5 = 0#5 := (sub_field f5 0 5 (by decide)).trans (by decide)
  show decodeMajor z (z.extractLsb' 26 6).toNat = _
  rw [f0]
  show decodeMajor01 z (z.extractLsb' 5 5).toNat = _
  rw [s0]
  simp [decodeMajor01, mbz, fa, fb, fd, fx, legal, hw, s1, f1, f2, f3, f4]
theorem sltn (d : BitVec 5) (a : BitVec 5) (b : BitVec 5) (w : BitVec 1) : Statement (.sltn d a b w) := by
  intro z h hw
  obtain ⟨f0, f1, f2, f3, f4, f5⟩ := fields_6_5_5_5_1_10 z (h := Option.some.inj h)
  have s0 : z.extractLsb' 5 5 = 16#5 := (sub_field f5 5 5 (by decide)).trans (by decide)
  have s1 : z.extractLsb' 0 5 = 0#5 := (sub_field f5 0 5 (by decide)).trans (by decide)
  show decodeMajor z (z.extractLsb' 26 6).toNat = _
  rw [f0]
  show decodeMajor01 z (z.extractLsb' 5 5).toNat = _
  rw [s0]
  simp [decodeMajor01, mbz, fa, fb, fd, fx, legal, hw, s1, f1, f2, f3, f4]
theorem min (d : BitVec 5) (a : BitVec 5) (b : BitVec 5) (w : BitVec 1) : Statement (.min d a b w) := by
  intro z h hw
  obtain ⟨f0, f1, f2, f3, f4, f5⟩ := fields_6_5_5_5_1_10 z (h := Option.some.inj h)
  have s0 : z.extractLsb' 5 5 = 17#5 := (sub_field f5 5 5 (by decide)).trans (by decide)
  have s1 : z.extractLsb' 0 5 = 0#5 := (sub_field f5 0 5 (by decide)).trans (by decide)
  show decodeMajor z (z.extractLsb' 26 6).toNat = _
  rw [f0]
  show decodeMajor01 z (z.extractLsb' 5 5).toNat = _
  rw [s0]
  simp [decodeMajor01, mbz, fa, fb, fd, fx, legal, hw, s1, f1, f2, f3, f4]
theorem max (d : BitVec 5) (a : BitVec 5) (b : BitVec 5) (w : BitVec 1) : Statement (.max d a b w) := by
  intro z h hw
  obtain ⟨f0, f1, f2, f3, f4, f5⟩ := fields_6_5_5_5_1_10 z (h := Option.some.inj h)
  have s0 : z.extractLsb' 5 5 = 18#5 := (sub_field f5 5 5 (by decide)).trans (by decide)
  have s1 : z.extractLsb' 0 5 = 0#5 := (sub_field f5 0 5 (by decide)).trans (by decide)
  show decodeMajor z (z.extractLsb' 26 6).toNat = _
  rw [f0]
  show decodeMajor01 z (z.extractLsb' 5 5).toNat = _
  rw [s0]
  simp [decodeMajor01, mbz, fa, fb, fd, fx, legal, hw, s1, f1, f2, f3, f4]
theorem minn (d : BitVec 5) (a : BitVec 5) (b : BitVec 5) (w : BitVec 1) : Statement (.minn d a b w) := by
  intro z h hw
  obtain ⟨f0, f1, f2, f3, f4, f5⟩ := fields_6_5_5_5_1_10 z (h := Option.some.inj h)
  have s0 : z.extractLsb' 5 5 = 19#5 := (sub_field f5 5 5 (by decide)).trans (by decide)
  have s1 : z.extractLsb' 0 5 = 0#5 := (sub_field f5 0 5 (by decide)).trans (by decide)
  show decodeMajor z (z.extractLsb' 26 6).toNat = _
  rw [f0]
  show decodeMajor01 z (z.extractLsb' 5 5).toNat = _
  rw [s0]
  simp [decodeMajor01, mbz, fa, fb, fd, fx, legal, hw, s1, f1, f2, f3, f4]
theorem maxn (d : BitVec 5) (a : BitVec 5) (b : BitVec 5) (w : BitVec 1) : Statement (.maxn d a b w) := by
  intro z h hw
  obtain ⟨f0, f1, f2, f3, f4, f5⟩ := fields_6_5_5_5_1_10 z (h := Option.some.inj h)
  have s0 : z.extractLsb' 5 5 = 20#5 := (sub_field f5 5 5 (by decide)).trans (by decide)
  have s1 : z.extractLsb' 0 5 = 0#5 := (sub_field f5 0 5 (by decide)).trans (by decide)
  show decodeMajor z (z.extractLsb' 26 6).toNat = _
  rw [f0]
  show decodeMajor01 z (z.extractLsb' 5 5).toNat = _
  rw [s0]
  simp [decodeMajor01, mbz, fa, fb, fd, fx, legal, hw, s1, f1, f2, f3, f4]
theorem clz (d : BitVec 5) (a : BitVec 5) (w : BitVec 1) : Statement (.clz d a w) := by
  intro z h hw
  obtain ⟨f0, f1, f2, f3, f4, f5⟩ := fields_6_5_5_5_1_10 z (h := Option.some.inj h)
  have s0 : z.extractLsb' 5 5 = 21#5 := (sub_field f5 5 5 (by decide)).trans (by decide)
  have s1 : z.extractLsb' 0 5 = 0#5 := (sub_field f5 0 5 (by decide)).trans (by decide)
  show decodeMajor z (z.extractLsb' 26 6).toNat = _
  rw [f0]
  show decodeMajor01 z (z.extractLsb' 5 5).toNat = _
  rw [s0]
  simp [decodeMajor01, mbz, fa, fd, fx, legal, hw, s1, f3, f1, f2, f4]
theorem ctz (d : BitVec 5) (a : BitVec 5) (w : BitVec 1) : Statement (.ctz d a w) := by
  intro z h hw
  obtain ⟨f0, f1, f2, f3, f4, f5⟩ := fields_6_5_5_5_1_10 z (h := Option.some.inj h)
  have s0 : z.extractLsb' 5 5 = 22#5 := (sub_field f5 5 5 (by decide)).trans (by decide)
  have s1 : z.extractLsb' 0 5 = 0#5 := (sub_field f5 0 5 (by decide)).trans (by decide)
  show decodeMajor z (z.extractLsb' 26 6).toNat = _
  rw [f0]
  show decodeMajor01 z (z.extractLsb' 5 5).toNat = _
  rw [s0]
  simp [decodeMajor01, mbz, fa, fd, fx, legal, hw, s1, f3, f1, f2, f4]
theorem popc (d : BitVec 5) (a : BitVec 5) (w : BitVec 1) : Statement (.popc d a w) := by
  intro z h hw
  obtain ⟨f0, f1, f2, f3, f4, f5⟩ := fields_6_5_5_5_1_10 z (h := Option.some.inj h)
  have s0 : z.extractLsb' 5 5 = 23#5 := (sub_field f5 5 5 (by decide)).trans (by decide)
  have s1 : z.extractLsb' 0 5 = 0#5 := (sub_field f5 0 5 (by decide)).trans (by decide)
  show decodeMajor z (z.extractLsb' 26 6).toNat = _
  rw [f0]
  show decodeMajor01 z (z.extractLsb' 5 5).toNat = _
  rw [s0]
  simp [decodeMajor01, mbz, fa, fd, fx, legal, hw, s1, f3, f1, f2, f4]
theorem sext (d : BitVec 5) (a : BitVec 5) (b : BitVec 5) : Statement (.sext d a b) := by
  intro z h hw
  obtain ⟨f0, f1, f2, f3, f4⟩ := fields_6_5_5_5_11 z (h := Option.some.inj h)
  have s0 : z.extractLsb' 5 5 = 24#5 := (sub_field f4 5 5 (by decide)).trans (by decide)
  have s1 : z.extractLsb' 0 5 = 0#5 := (sub_field f4 0 5 (by decide)).trans (by decide)
  have s2 : z.extractLsb' 10 1 = 0#1 := (sub_field f4 10 1 (by decide)).trans (by decide)
  show decodeMajor z (z.extractLsb' 26 6).toNat = _
  rw [f0]
  show decodeMajor01 z (z.extractLsb' 5 5).toNat = _
  rw [s0]
  simp [decodeMajor01, mbz, fa, fb, fd, legal, hw, s1, s2, f1, f2, f3]
theorem zext (d : BitVec 5) (a : BitVec 5) (b : BitVec 5) : Statement (.zext d a b) := by
  intro z h hw
  obtain ⟨f0, f1, f2, f3, f4⟩ := fields_6_5_5_5_11 z (h := Option.some.inj h)
  have s0 : z.extractLsb' 5 5 = 25#5 := (sub_field f4 5 5 (by decide)).trans (by decide)
  have s1 : z.extractLsb' 0 5 = 0#5 := (sub_field f4 0 5 (by decide)).trans (by decide)
  have s2 : z.extractLsb' 10 1 = 0#1 := (sub_field f4 10 1 (by decide)).trans (by decide)
  show decodeMajor z (z.extractLsb' 26 6).toNat = _
  rw [f0]
  show decodeMajor01 z (z.extractLsb' 5 5).toNat = _
  rw [s0]
  simp [decodeMajor01, mbz, fa, fb, fd, legal, hw, s1, s2, f1, f2, f3]
theorem addi (d : BitVec 5) (a : BitVec 5) (imm : BitVec 16) : Statement (.addi d a imm) := by
  intro z h hw
  obtain ⟨f0, f1, f2, f3⟩ := fields_6_5_5_16 z (h := Option.some.inj h)
  show decodeMajor z (z.extractLsb' 26 6).toNat = _
  rw [f0]
  simp [decodeMajor, fa, fd, imm16, legal, hw, f1, f2, f3]
theorem andi (d : BitVec 5) (a : BitVec 5) (imm : BitVec 16) : Statement (.andi d a imm) := by
  intro z h hw
  obtain ⟨f0, f1, f2, f3⟩ := fields_6_5_5_16 z (h := Option.some.inj h)
  show decodeMajor z (z.extractLsb' 26 6).toNat = _
  rw [f0]
  simp [decodeMajor, fa, fd, imm16, legal, hw, f1, f2, f3]
theorem ori (d : BitVec 5) (a : BitVec 5) (imm : BitVec 16) : Statement (.ori d a imm) := by
  intro z h hw
  obtain ⟨f0, f1, f2, f3⟩ := fields_6_5_5_16 z (h := Option.some.inj h)
  show decodeMajor z (z.extractLsb' 26 6).toNat = _
  rw [f0]
  simp [decodeMajor, fa, fd, imm16, legal, hw, f1, f2, f3]
theorem xori (d : BitVec 5) (a : BitVec 5) (imm : BitVec 16) : Statement (.xori d a imm) := by
  intro z h hw
  obtain ⟨f0, f1, f2, f3⟩ := fields_6_5_5_16 z (h := Option.some.inj h)
  show decodeMajor z (z.extractLsb' 26 6).toNat = _
  rw [f0]
  simp [decodeMajor, fa, fd, imm16, legal, hw, f1, f2, f3]
theorem shli (d : BitVec 5) (a : BitVec 5) (m : BitVec 6) : Statement (.shli d a m) := by
  intro z h hw
  obtain ⟨f0, f1, f2, f3, f4⟩ := fields_6_5_5_10_6 z (h := Option.some.inj h)
  have s0 : z.extractLsb' 14 2 = 0#2 := (sub_field f3 8 2 (by decide)).trans (by decide)
  have s1 : z.extractLsb' 6 8 = 0#8 := (sub_field f3 0 8 (by decide)).trans (by decide)
  show decodeMajor z (z.extractLsb' 26 6).toNat = _
  rw [f0]
  show decodeMajor06 z (z.extractLsb' 14 2).toNat = _
  rw [s0]
  simp [decodeMajor06, mbz, fa, fd, legal, hw, s1, f1, f2, f4]
theorem shri (d : BitVec 5) (a : BitVec 5) (m : BitVec 6) : Statement (.shri d a m) := by
  intro z h hw
  obtain ⟨f0, f1, f2, f3, f4⟩ := fields_6_5_5_10_6 z (h := Option.some.inj h)
  have s0 : z.extractLsb' 14 2 = 1#2 := (sub_field f3 8 2 (by decide)).trans (by decide)
  have s1 : z.extractLsb' 6 8 = 0#8 := (sub_field f3 0 8 (by decide)).trans (by decide)
  show decodeMajor z (z.extractLsb' 26 6).toNat = _
  rw [f0]
  show decodeMajor06 z (z.extractLsb' 14 2).toNat = _
  rw [s0]
  simp [decodeMajor06, mbz, fa, fd, legal, hw, s1, f1, f2, f4]
theorem shai (d : BitVec 5) (a : BitVec 5) (m : BitVec 6) : Statement (.shai d a m) := by
  intro z h hw
  obtain ⟨f0, f1, f2, f3, f4⟩ := fields_6_5_5_10_6 z (h := Option.some.inj h)
  have s0 : z.extractLsb' 14 2 = 2#2 := (sub_field f3 8 2 (by decide)).trans (by decide)
  have s1 : z.extractLsb' 6 8 = 0#8 := (sub_field f3 0 8 (by decide)).trans (by decide)
  show decodeMajor z (z.extractLsb' 26 6).toNat = _
  rw [f0]
  show decodeMajor06 z (z.extractLsb' 14 2).toNat = _
  rw [s0]
  simp [decodeMajor06, mbz, fa, fd, legal, hw, s1, f1, f2, f4]
theorem slti (d : BitVec 5) (a : BitVec 5) (imm : BitVec 16) : Statement (.slti d a imm) := by
  intro z h hw
  obtain ⟨f0, f1, f2, f3⟩ := fields_6_5_5_16 z (h := Option.some.inj h)
  show decodeMajor z (z.extractLsb' 26 6).toNat = _
  rw [f0]
  simp [decodeMajor, fa, fd, imm16, legal, hw, f1, f2, f3]
theorem sltni (d : BitVec 5) (a : BitVec 5) (imm : BitVec 16) : Statement (.sltni d a imm) := by
  intro z h hw
  obtain ⟨f0, f1, f2, f3⟩ := fields_6_5_5_16 z (h := Option.some.inj h)
  show decodeMajor z (z.extractLsb' 26 6).toNat = _
  rw [f0]
  simp [decodeMajor, fa, fd, imm16, legal, hw, f1, f2, f3]
theorem li (d : BitVec 5) (imm : BitVec 21) : Statement (.li d imm) := by
  intro z h hw
  obtain ⟨f0, f1, f2⟩ := fields_6_5_21 z (h := Option.some.inj h)
  show decodeMajor z (z.extractLsb' 26 6).toNat = _
  rw [f0]
  simp [decodeMajor, fd, legal, hw, f1, f2]
theorem lih (d : BitVec 5) (imm : BitVec 21) : Statement (.lih d imm) := by
  intro z h hw
  obtain ⟨f0, f1, f2⟩ := fields_6_5_21 z (h := Option.some.inj h)
  show decodeMajor z (z.extractLsb' 26 6).toNat = _
  rw [f0]
  simp [decodeMajor, fd, legal, hw, f1, f2]
theorem ldsS8 (d : BitVec 5) (a : BitVec 5) (off : BitVec 13) : Statement (.ldsS8 d a off) := by
  intro z h hw
  obtain ⟨f0, f1, f2, f3, f4⟩ := fields_6_5_5_3_13 z (h := Option.some.inj h)
  show decodeMajor z (z.extractLsb' 26 6).toNat = _
  rw [f0]
  show decodeMajor0B z (z.extractLsb' 13 3).toNat = _
  rw [f3]
  simp [decodeMajor0B, fa, fd, off13, legal, hw, f1, f2, f4]
theorem ldsS16 (d : BitVec 5) (a : BitVec 5) (off : BitVec 13) : Statement (.ldsS16 d a off) := by
  intro z h hw
  obtain ⟨f0, f1, f2, f3, f4⟩ := fields_6_5_5_3_13 z (h := Option.some.inj h)
  show decodeMajor z (z.extractLsb' 26 6).toNat = _
  rw [f0]
  show decodeMajor0B z (z.extractLsb' 13 3).toNat = _
  rw [f3]
  simp [decodeMajor0B, fa, fd, off13, legal, hw, f1, f2, f4]
theorem ldsS32 (d : BitVec 5) (a : BitVec 5) (off : BitVec 13) : Statement (.ldsS32 d a off) := by
  intro z h hw
  obtain ⟨f0, f1, f2, f3, f4⟩ := fields_6_5_5_3_13 z (h := Option.some.inj h)
  show decodeMajor z (z.extractLsb' 26 6).toNat = _
  rw [f0]
  show decodeMajor0B z (z.extractLsb' 13 3).toNat = _
  rw [f3]
  simp [decodeMajor0B, fa, fd, off13, legal, hw, f1, f2, f4]
theorem ldsS64 (d : BitVec 5) (a : BitVec 5) (off : BitVec 13) : Statement (.ldsS64 d a off) := by
  intro z h hw
  obtain ⟨f0, f1, f2, f3, f4⟩ := fields_6_5_5_3_13 z (h := Option.some.inj h)
  show decodeMajor z (z.extractLsb' 26 6).toNat = _
  rw [f0]
  show decodeMajor0B z (z.extractLsb' 13 3).toNat = _
  rw [f3]
  simp [decodeMajor0B, fa, fd, off13, legal, hw, f1, f2, f4]
theorem ldsN8 (d : BitVec 5) (a : BitVec 5) (off : BitVec 13) : Statement (.ldsN8 d a off) := by
  intro z h hw
  obtain ⟨f0, f1, f2, f3, f4⟩ := fields_6_5_5_3_13 z (h := Option.some.inj h)
  show decodeMajor z (z.extractLsb' 26 6).toNat = _
  rw [f0]
  show decodeMajor0B z (z.extractLsb' 13 3).toNat = _
  rw [f3]
  simp [decodeMajor0B, fa, fd, off13, legal, hw, f1, f2, f4]
theorem ldsN16 (d : BitVec 5) (a : BitVec 5) (off : BitVec 13) : Statement (.ldsN16 d a off) := by
  intro z h hw
  obtain ⟨f0, f1, f2, f3, f4⟩ := fields_6_5_5_3_13 z (h := Option.some.inj h)
  show decodeMajor z (z.extractLsb' 26 6).toNat = _
  rw [f0]
  show decodeMajor0B z (z.extractLsb' 13 3).toNat = _
  rw [f3]
  simp [decodeMajor0B, fa, fd, off13, legal, hw, f1, f2, f4]
theorem ldsN32 (d : BitVec 5) (a : BitVec 5) (off : BitVec 13) : Statement (.ldsN32 d a off) := by
  intro z h hw
  obtain ⟨f0, f1, f2, f3, f4⟩ := fields_6_5_5_3_13 z (h := Option.some.inj h)
  show decodeMajor z (z.extractLsb' 26 6).toNat = _
  rw [f0]
  show decodeMajor0B z (z.extractLsb' 13 3).toNat = _
  rw [f3]
  simp [decodeMajor0B, fa, fd, off13, legal, hw, f1, f2, f4]
theorem sts8 (d : BitVec 5) (a : BitVec 5) (off : BitVec 13) : Statement (.sts8 d a off) := by
  intro z h hw
  obtain ⟨f0, f1, f2, f3, f4⟩ := fields_6_5_5_3_13 z (h := Option.some.inj h)
  show decodeMajor z (z.extractLsb' 26 6).toNat = _
  rw [f0]
  show decodeMajor0C z (z.extractLsb' 13 3).toNat = _
  rw [f3]
  simp [decodeMajor0C, fa, fd, off13, legal, hw, f1, f2, f4]
theorem sts16 (d : BitVec 5) (a : BitVec 5) (off : BitVec 13) : Statement (.sts16 d a off) := by
  intro z h hw
  obtain ⟨f0, f1, f2, f3, f4⟩ := fields_6_5_5_3_13 z (h := Option.some.inj h)
  show decodeMajor z (z.extractLsb' 26 6).toNat = _
  rw [f0]
  show decodeMajor0C z (z.extractLsb' 13 3).toNat = _
  rw [f3]
  simp [decodeMajor0C, fa, fd, off13, legal, hw, f1, f2, f4]
theorem sts32 (d : BitVec 5) (a : BitVec 5) (off : BitVec 13) : Statement (.sts32 d a off) := by
  intro z h hw
  obtain ⟨f0, f1, f2, f3, f4⟩ := fields_6_5_5_3_13 z (h := Option.some.inj h)
  show decodeMajor z (z.extractLsb' 26 6).toNat = _
  rw [f0]
  show decodeMajor0C z (z.extractLsb' 13 3).toNat = _
  rw [f3]
  simp [decodeMajor0C, fa, fd, off13, legal, hw, f1, f2, f4]
theorem sts64 (d : BitVec 5) (a : BitVec 5) (off : BitVec 13) : Statement (.sts64 d a off) := by
  intro z h hw
  obtain ⟨f0, f1, f2, f3, f4⟩ := fields_6_5_5_3_13 z (h := Option.some.inj h)
  show decodeMajor z (z.extractLsb' 26 6).toNat = _
  rw [f0]
  show decodeMajor0C z (z.extractLsb' 13 3).toNat = _
  rw [f3]
  simp [decodeMajor0C, fa, fd, off13, legal, hw, f1, f2, f4]
theorem amoAdd (d : BitVec 5) (a : BitVec 5) (b : BitVec 5) (w : BitVec 1) (c : BitVec 5) : Statement (.amoAdd d a b w c) := by
  intro z h hw
  obtain ⟨f0, f1, f2, f3, f4, f5, f6⟩ := fields_6_5_5_5_1_5_5 z (h := Option.some.inj h)
  show decodeMajor z (z.extractLsb' 26 6).toNat = _
  rw [f0]
  show decodeMajor0D z (z.extractLsb' 5 5).toNat = _
  rw [f5]
  simp [decodeMajor0D, fa, fb, fc, fd, fx, legal, hw, f1, f2, f3, f4, f6]
theorem amoAnd (d : BitVec 5) (a : BitVec 5) (b : BitVec 5) (w : BitVec 1) (c : BitVec 5) : Statement (.amoAnd d a b w c) := by
  intro z h hw
  obtain ⟨f0, f1, f2, f3, f4, f5, f6⟩ := fields_6_5_5_5_1_5_5 z (h := Option.some.inj h)
  show decodeMajor z (z.extractLsb' 26 6).toNat = _
  rw [f0]
  show decodeMajor0D z (z.extractLsb' 5 5).toNat = _
  rw [f5]
  simp [decodeMajor0D, fa, fb, fc, fd, fx, legal, hw, f1, f2, f3, f4, f6]
theorem amoOr (d : BitVec 5) (a : BitVec 5) (b : BitVec 5) (w : BitVec 1) (c : BitVec 5) : Statement (.amoOr d a b w c) := by
  intro z h hw
  obtain ⟨f0, f1, f2, f3, f4, f5, f6⟩ := fields_6_5_5_5_1_5_5 z (h := Option.some.inj h)
  show decodeMajor z (z.extractLsb' 26 6).toNat = _
  rw [f0]
  show decodeMajor0D z (z.extractLsb' 5 5).toNat = _
  rw [f5]
  simp [decodeMajor0D, fa, fb, fc, fd, fx, legal, hw, f1, f2, f3, f4, f6]
theorem amoXor (d : BitVec 5) (a : BitVec 5) (b : BitVec 5) (w : BitVec 1) (c : BitVec 5) : Statement (.amoXor d a b w c) := by
  intro z h hw
  obtain ⟨f0, f1, f2, f3, f4, f5, f6⟩ := fields_6_5_5_5_1_5_5 z (h := Option.some.inj h)
  show decodeMajor z (z.extractLsb' 26 6).toNat = _
  rw [f0]
  show decodeMajor0D z (z.extractLsb' 5 5).toNat = _
  rw [f5]
  simp [decodeMajor0D, fa, fb, fc, fd, fx, legal, hw, f1, f2, f3, f4, f6]
theorem amoMin (d : BitVec 5) (a : BitVec 5) (b : BitVec 5) (w : BitVec 1) (c : BitVec 5) : Statement (.amoMin d a b w c) := by
  intro z h hw
  obtain ⟨f0, f1, f2, f3, f4, f5, f6⟩ := fields_6_5_5_5_1_5_5 z (h := Option.some.inj h)
  show decodeMajor z (z.extractLsb' 26 6).toNat = _
  rw [f0]
  show decodeMajor0D z (z.extractLsb' 5 5).toNat = _
  rw [f5]
  simp [decodeMajor0D, fa, fb, fc, fd, fx, legal, hw, f1, f2, f3, f4, f6]
theorem amoMax (d : BitVec 5) (a : BitVec 5) (b : BitVec 5) (w : BitVec 1) (c : BitVec 5) : Statement (.amoMax d a b w c) := by
  intro z h hw
  obtain ⟨f0, f1, f2, f3, f4, f5, f6⟩ := fields_6_5_5_5_1_5_5 z (h := Option.some.inj h)
  show decodeMajor z (z.extractLsb' 26 6).toNat = _
  rw [f0]
  show decodeMajor0D z (z.extractLsb' 5 5).toNat = _
  rw [f5]
  simp [decodeMajor0D, fa, fb, fc, fd, fx, legal, hw, f1, f2, f3, f4, f6]
theorem amoMinn (d : BitVec 5) (a : BitVec 5) (b : BitVec 5) (w : BitVec 1) (c : BitVec 5) : Statement (.amoMinn d a b w c) := by
  intro z h hw
  obtain ⟨f0, f1, f2, f3, f4, f5, f6⟩ := fields_6_5_5_5_1_5_5 z (h := Option.some.inj h)
  show decodeMajor z (z.extractLsb' 26 6).toNat = _
  rw [f0]
  show decodeMajor0D z (z.extractLsb' 5 5).toNat = _
  rw [f5]
  simp [decodeMajor0D, fa, fb, fc, fd, fx, legal, hw, f1, f2, f3, f4, f6]
theorem amoMaxn (d : BitVec 5) (a : BitVec 5) (b : BitVec 5) (w : BitVec 1) (c : BitVec 5) : Statement (.amoMaxn d a b w c) := by
  intro z h hw
  obtain ⟨f0, f1, f2, f3, f4, f5, f6⟩ := fields_6_5_5_5_1_5_5 z (h := Option.some.inj h)
  show decodeMajor z (z.extractLsb' 26 6).toNat = _
  rw [f0]
  show decodeMajor0D z (z.extractLsb' 5 5).toNat = _
  rw [f5]
  simp [decodeMajor0D, fa, fb, fc, fd, fx, legal, hw, f1, f2, f3, f4, f6]
theorem amoSwap (d : BitVec 5) (a : BitVec 5) (b : BitVec 5) (w : BitVec 1) (c : BitVec 5) : Statement (.amoSwap d a b w c) := by
  intro z h hw
  obtain ⟨f0, f1, f2, f3, f4, f5, f6⟩ := fields_6_5_5_5_1_5_5 z (h := Option.some.inj h)
  show decodeMajor z (z.extractLsb' 26 6).toNat = _
  rw [f0]
  show decodeMajor0D z (z.extractLsb' 5 5).toNat = _
  rw [f5]
  simp [decodeMajor0D, fa, fb, fc, fd, fx, legal, hw, f1, f2, f3, f4, f6]
theorem amoFadd (d : BitVec 5) (a : BitVec 5) (b : BitVec 5) (w : BitVec 1) (c : BitVec 5) : Statement (.amoFadd d a b w c) := by
  intro z h hw
  obtain ⟨f0, f1, f2, f3, f4, f5, f6⟩ := fields_6_5_5_5_1_5_5 z (h := Option.some.inj h)
  show decodeMajor z (z.extractLsb' 26 6).toNat = _
  rw [f0]
  show decodeMajor0D z (z.extractLsb' 5 5).toNat = _
  rw [f5]
  simp [decodeMajor0D, fa, fb, fc, fd, fx, legal, hw, f1, f2, f3, f4, f6]
theorem cas (d : BitVec 5) (a : BitVec 5) (b : BitVec 5) (w : BitVec 1) (c : BitVec 5) : Statement (.cas d a b w c) := by
  intro z h hw
  obtain ⟨f0, f1, f2, f3, f4, f5, f6⟩ := fields_6_5_5_5_1_5_5 z (h := Option.some.inj h)
  show decodeMajor z (z.extractLsb' 26 6).toNat = _
  rw [f0]
  show decodeMajor0E z (z.extractLsb' 5 5).toNat = _
  rw [f5]
  simp [decodeMajor0E, fa, fb, fc, fd, fx, legal, hw, f1, f2, f3, f4, f6]
theorem fence (sq : BitVec 1) (od : BitVec 2) (scp : BitVec 3) : Statement (.fence sq od scp) := by
  intro z h hw
  obtain ⟨f0, f1, f2, f3⟩ := fields_26_1_2_3 z (h := Option.some.inj h)
  have s0 : z.extractLsb' 26 6 = 15#6 := (sub_field f0 20 6 (by decide)).trans (by decide)
  have s1 : z.extractLsb' 12 4 = 0#4 := (sub_field f0 6 4 (by decide)).trans (by decide)
  have s2 : z.extractLsb' 6 6 = 0#6 := (sub_field f0 0 6 (by decide)).trans (by decide)
  have s3 : z.extractLsb' 16 10 = 0#10 := (sub_field f0 10 10 (by decide)).trans (by decide)
  show decodeMajor z (z.extractLsb' 26 6).toNat = _
  rw [s0]
  show decodeMajor0F z (z.extractLsb' 12 4).toNat = _
  rw [s1]
  simp [decodeMajor0F, mbz, legal, hw, s2, s3, f1, f2, f3]
theorem fenceX (frm : BitVec 6) (dst : BitVec 6) : Statement (.fenceX frm dst) := by
  intro z h hw
  obtain ⟨f0, f1, f2⟩ := fields_20_6_6 z (h := Option.some.inj h)
  have s0 : z.extractLsb' 26 6 = 15#6 := (sub_field f0 14 6 (by decide)).trans (by decide)
  have s1 : z.extractLsb' 12 4 = 1#4 := (sub_field f0 0 4 (by decide)).trans (by decide)
  have s2 : z.extractLsb' 16 10 = 0#10 := (sub_field f0 4 10 (by decide)).trans (by decide)
  show decodeMajor z (z.extractLsb' 26 6).toNat = _
  rw [s0]
  show decodeMajor0F z (z.extractLsb' 12 4).toNat = _
  rw [s1]
  simp [decodeMajor0F, mbz, legal, hw, s2, f1, f2]
theorem beq (a : BitVec 5) (b : BitVec 5) (off : BitVec 16) : Statement (.beq a b off) := by
  intro z h hw
  obtain ⟨f0, f1, f2, f3⟩ := fields_6_5_5_16 z (h := Option.some.inj h)
  show decodeMajor z (z.extractLsb' 26 6).toNat = _
  rw [f0]
  simp [decodeMajor, fa, fd, imm16, legal, hw, f1, f2, f3]
theorem bne (a : BitVec 5) (b : BitVec 5) (off : BitVec 16) : Statement (.bne a b off) := by
  intro z h hw
  obtain ⟨f0, f1, f2, f3⟩ := fields_6_5_5_16 z (h := Option.some.inj h)
  show decodeMajor z (z.extractLsb' 26 6).toNat = _
  rw [f0]
  simp [decodeMajor, fa, fd, imm16, legal, hw, f1, f2, f3]
theorem blt (a : BitVec 5) (b : BitVec 5) (off : BitVec 16) : Statement (.blt a b off) := by
  intro z h hw
  obtain ⟨f0, f1, f2, f3⟩ := fields_6_5_5_16 z (h := Option.some.inj h)
  show decodeMajor z (z.extractLsb' 26 6).toNat = _
  rw [f0]
  simp [decodeMajor, fa, fd, imm16, legal, hw, f1, f2, f3]
theorem bge (a : BitVec 5) (b : BitVec 5) (off : BitVec 16) : Statement (.bge a b off) := by
  intro z h hw
  obtain ⟨f0, f1, f2, f3⟩ := fields_6_5_5_16 z (h := Option.some.inj h)
  show decodeMajor z (z.extractLsb' 26 6).toNat = _
  rw [f0]
  simp [decodeMajor, fa, fd, imm16, legal, hw, f1, f2, f3]
theorem bltn (a : BitVec 5) (b : BitVec 5) (off : BitVec 16) : Statement (.bltn a b off) := by
  intro z h hw
  obtain ⟨f0, f1, f2, f3⟩ := fields_6_5_5_16 z (h := Option.some.inj h)
  show decodeMajor z (z.extractLsb' 26 6).toNat = _
  rw [f0]
  simp [decodeMajor, fa, fd, imm16, legal, hw, f1, f2, f3]
theorem bgen (a : BitVec 5) (b : BitVec 5) (off : BitVec 16) : Statement (.bgen a b off) := by
  intro z h hw
  obtain ⟨f0, f1, f2, f3⟩ := fields_6_5_5_16 z (h := Option.some.inj h)
  show decodeMajor z (z.extractLsb' 26 6).toNat = _
  rw [f0]
  simp [decodeMajor, fa, fd, imm16, legal, hw, f1, f2, f3]
theorem jal (off : BitVec 26) : Statement (.jal off) := by
  intro z h hw
  obtain ⟨f0, f1⟩ := fields_6_26 z (h := Option.some.inj h)
  show decodeMajor z (z.extractLsb' 26 6).toNat = _
  rw [f0]
  simp [decodeMajor, legal, hw, f1]
theorem jalr (d : BitVec 5) (a : BitVec 5) (imm : BitVec 16) : Statement (.jalr d a imm) := by
  intro z h hw
  obtain ⟨f0, f1, f2, f3⟩ := fields_6_5_5_16 z (h := Option.some.inj h)
  show decodeMajor z (z.extractLsb' 26 6).toNat = _
  rw [f0]
  simp [decodeMajor, fa, fd, imm16, legal, hw, f1, f2, f3]
theorem loop (a : BitVec 5) (imm : BitVec 16) : Statement (.loop a imm) := by
  intro z h hw
  obtain ⟨f0, f1, f2⟩ := fields_11_5_16 z (h := Option.some.inj h)
  have s0 : z.extractLsb' 26 6 = 24#6 := (sub_field f0 5 6 (by decide)).trans (by decide)
  have s1 : z.extractLsb' 21 5 = 0#5 := (sub_field f0 0 5 (by decide)).trans (by decide)
  show decodeMajor z (z.extractLsb' 26 6).toNat = _
  rw [s0]
  simp [decodeMajor, mbz, fa, imm16, legal, hw, s1, f1, f2]
theorem brd (a : BitVec 3) (off : BitVec 16) : Statement (.brd a off) := by
  intro z h hw
  obtain ⟨f0, f1, f2, f3⟩ := fields_8_3_5_16 z (h := Option.some.inj h)
  have s0 : z.extractLsb' 26 6 = 25#6 := (sub_field f0 2 6 (by decide)).trans (by decide)
  have s1 : z.extractLsb' 24 2 = 0#2 := (sub_field f0 0 2 (by decide)).trans (by decide)
  show decodeMajor z (z.extractLsb' 26 6).toNat = _
  rw [s0]
  simp [decodeMajor, mbz, imm16, legal, hw, f2, s1, f1, f3]
theorem join : Statement .join := by
  intro z h hw
  have f0 := fields_32 z _ (Option.some.inj h)
  have s0 : z.extractLsb' 26 6 = 26#6 := (sub_field f0 26 6 (by decide)).trans (by decide)
  have s1 : z.extractLsb' 12 4 = 0#4 := (sub_field f0 12 4 (by decide)).trans (by decide)
  have s2 : z.extractLsb' 0 12 = 0#12 := (sub_field f0 0 12 (by decide)).trans (by decide)
  have s3 : z.extractLsb' 16 10 = 0#10 := (sub_field f0 16 10 (by decide)).trans (by decide)
  show decodeMajor z (z.extractLsb' 26 6).toNat = _
  rw [s0]
  show decodeMajor1A z (z.extractLsb' 12 4).toNat = _
  rw [s1]
  simp [decodeMajor1A, mbz, legal, hw, s2, s3]
theorem yield : Statement .yield := by
  intro z h hw
  have f0 := fields_32 z _ (Option.some.inj h)
  have s0 : z.extractLsb' 26 6 = 26#6 := (sub_field f0 26 6 (by decide)).trans (by decide)
  have s1 : z.extractLsb' 12 4 = 1#4 := (sub_field f0 12 4 (by decide)).trans (by decide)
  have s2 : z.extractLsb' 0 12 = 0#12 := (sub_field f0 0 12 (by decide)).trans (by decide)
  have s3 : z.extractLsb' 16 10 = 0#10 := (sub_field f0 16 10 (by decide)).trans (by decide)
  show decodeMajor z (z.extractLsb' 26 6).toNat = _
  rw [s0]
  show decodeMajor1A z (z.extractLsb' 12 4).toNat = _
  rw [s1]
  simp [decodeMajor1A, mbz, legal, hw, s2, s3]
theorem nop : Statement .nop := by
  intro z h hw
  have f0 := fields_32 z _ (Option.some.inj h)
  have s0 : z.extractLsb' 26 6 = 27#6 := (sub_field f0 26 6 (by decide)).trans (by decide)
  have s1 : z.extractLsb' 12 4 = 0#4 := (sub_field f0 12 4 (by decide)).trans (by decide)
  have s2 : z.extractLsb' 0 12 = 0#12 := (sub_field f0 0 12 (by decide)).trans (by decide)
  have s3 : z.extractLsb' 16 10 = 0#10 := (sub_field f0 16 10 (by decide)).trans (by decide)
  show decodeMajor z (z.extractLsb' 26 6).toNat = _
  rw [s0]
  show decodeMajor1B z (z.extractLsb' 12 4).toNat = _
  rw [s1]
  simp [decodeMajor1B, mbz, legal, hw, s2, s3]
theorem trap (n : BitVec 12) : Statement (.trap n) := by
  intro z h hw
  obtain ⟨f0, f1⟩ := fields_20_12 z (h := Option.some.inj h)
  have s0 : z.extractLsb' 26 6 = 27#6 := (sub_field f0 14 6 (by decide)).trans (by decide)
  have s1 : z.extractLsb' 12 4 = 1#4 := (sub_field f0 0 4 (by decide)).trans (by decide)
  have s2 : z.extractLsb' 16 10 = 0#10 := (sub_field f0 4 10 (by decide)).trans (by decide)
  show decodeMajor z (z.extractLsb' 26 6).toNat = _
  rw [s0]
  show decodeMajor1B z (z.extractLsb' 12 4).toNat = _
  rw [s1]
  simp [decodeMajor1B, mbz, n12, legal, hw, s2, f1]
theorem sysc (n : BitVec 12) : Statement (.sysc n) := by
  intro z h hw
  obtain ⟨f0, f1⟩ := fields_20_12 z (h := Option.some.inj h)
  have s0 : z.extractLsb' 26 6 = 27#6 := (sub_field f0 14 6 (by decide)).trans (by decide)
  have s1 : z.extractLsb' 12 4 = 2#4 := (sub_field f0 0 4 (by decide)).trans (by decide)
  have s2 : z.extractLsb' 16 10 = 0#10 := (sub_field f0 4 10 (by decide)).trans (by decide)
  show decodeMajor z (z.extractLsb' 26 6).toNat = _
  rw [s0]
  show decodeMajor1B z (z.extractLsb' 12 4).toNat = _
  rw [s1]
  simp [decodeMajor1B, mbz, n12, legal, hw, s2, f1]
theorem brk (n : BitVec 12) : Statement (.brk n) := by
  intro z h hw
  obtain ⟨f0, f1⟩ := fields_20_12 z (h := Option.some.inj h)
  have s0 : z.extractLsb' 26 6 = 27#6 := (sub_field f0 14 6 (by decide)).trans (by decide)
  have s1 : z.extractLsb' 12 4 = 3#4 := (sub_field f0 0 4 (by decide)).trans (by decide)
  have s2 : z.extractLsb' 16 10 = 0#10 := (sub_field f0 4 10 (by decide)).trans (by decide)
  show decodeMajor z (z.extractLsb' 26 6).toNat = _
  rw [s0]
  show decodeMajor1B z (z.extractLsb' 12 4).toNat = _
  rw [s1]
  simp [decodeMajor1B, mbz, n12, legal, hw, s2, f1]
theorem rte : Statement .rte := by
  intro z h hw
  have f0 := fields_32 z _ (Option.some.inj h)
  have s0 : z.extractLsb' 26 6 = 27#6 := (sub_field f0 26 6 (by decide)).trans (by decide)
  have s1 : z.extractLsb' 12 4 = 4#4 := (sub_field f0 12 4 (by decide)).trans (by decide)
  have s2 : z.extractLsb' 0 12 = 0#12 := (sub_field f0 0 12 (by decide)).trans (by decide)
  have s3 : z.extractLsb' 16 10 = 0#10 := (sub_field f0 16 10 (by decide)).trans (by decide)
  show decodeMajor z (z.extractLsb' 26 6).toNat = _
  rw [s0]
  show decodeMajor1B z (z.extractLsb' 12 4).toNat = _
  rw [s1]
  simp [decodeMajor1B, mbz, legalH, hw, s2, s3]
theorem halt : Statement .halt := by
  intro z h hw
  have f0 := fields_32 z _ (Option.some.inj h)
  have s0 : z.extractLsb' 26 6 = 27#6 := (sub_field f0 26 6 (by decide)).trans (by decide)
  have s1 : z.extractLsb' 12 4 = 5#4 := (sub_field f0 12 4 (by decide)).trans (by decide)
  have s2 : z.extractLsb' 0 12 = 0#12 := (sub_field f0 0 12 (by decide)).trans (by decide)
  have s3 : z.extractLsb' 16 10 = 0#10 := (sub_field f0 16 10 (by decide)).trans (by decide)
  show decodeMajor z (z.extractLsb' 26 6).toNat = _
  rw [s0]
  show decodeMajor1B z (z.extractLsb' 12 4).toNat = _
  rw [s1]
  simp [decodeMajor1B, mbz, legalH, hw, s2, s3]
theorem wfe : Statement .wfe := by
  intro z h hw
  have f0 := fields_32 z _ (Option.some.inj h)
  have s0 : z.extractLsb' 26 6 = 27#6 := (sub_field f0 26 6 (by decide)).trans (by decide)
  have s1 : z.extractLsb' 12 4 = 6#4 := (sub_field f0 12 4 (by decide)).trans (by decide)
  have s2 : z.extractLsb' 0 12 = 0#12 := (sub_field f0 0 12 (by decide)).trans (by decide)
  have s3 : z.extractLsb' 16 10 = 0#10 := (sub_field f0 16 10 (by decide)).trans (by decide)
  show decodeMajor z (z.extractLsb' 26 6).toNat = _
  rw [s0]
  show decodeMajor1B z (z.extractLsb' 12 4).toNat = _
  rw [s1]
  simp [decodeMajor1B, mbz, legal, hw, s2, s3]
theorem claimv : Statement .claimv := by
  intro z h hw
  have f0 := fields_32 z _ (Option.some.inj h)
  have s0 : z.extractLsb' 26 6 = 27#6 := (sub_field f0 26 6 (by decide)).trans (by decide)
  have s1 : z.extractLsb' 12 4 = 7#4 := (sub_field f0 12 4 (by decide)).trans (by decide)
  have s2 : z.extractLsb' 0 12 = 0#12 := (sub_field f0 0 12 (by decide)).trans (by decide)
  have s3 : z.extractLsb' 16 10 = 0#10 := (sub_field f0 16 10 (by decide)).trans (by decide)
  show decodeMajor z (z.extractLsb' 26 6).toNat = _
  rw [s0]
  show decodeMajor1B z (z.extractLsb' 12 4).toNat = _
  rw [s1]
  simp [decodeMajor1B, mbz, legalH, hw, s2, s3]
theorem rstv : Statement .rstv := by
  intro z h hw
  have f0 := fields_32 z _ (Option.some.inj h)
  have s0 : z.extractLsb' 26 6 = 27#6 := (sub_field f0 26 6 (by decide)).trans (by decide)
  have s1 : z.extractLsb' 12 4 = 8#4 := (sub_field f0 12 4 (by decide)).trans (by decide)
  have s2 : z.extractLsb' 0 12 = 0#12 := (sub_field f0 0 12 (by decide)).trans (by decide)
  have s3 : z.extractLsb' 16 10 = 0#10 := (sub_field f0 16 10 (by decide)).trans (by decide)
  show decodeMajor z (z.extractLsb' 26 6).toNat = _
  rw [s0]
  show decodeMajor1B z (z.extractLsb' 12 4).toNat = _
  rw [s1]
  simp [decodeMajor1B, mbz, legalH, hw, s2, s3]
theorem srr (d : BitVec 5) (n : BitVec 12) : Statement (.srr d n) := by
  intro z h hw
  obtain ⟨f0, f1, f2, f3⟩ := fields_6_5_9_12 z (h := Option.some.inj h)
  have s0 : z.extractLsb' 12 4 = 0#4 := (sub_field f2 0 4 (by decide)).trans (by decide)
  have s1 : z.extractLsb' 16 5 = 0#5 := (sub_field f2 4 5 (by decide)).trans (by decide)
  show decodeMajor z (z.extractLsb' 26 6).toNat = _
  rw [f0]
  show decodeMajor1C z (z.extractLsb' 12 4).toNat = _
  rw [s0]
  simp [decodeMajor1C, mbz, fd, n12, legalS, hw, s1, f1, f3]
theorem srw (a : BitVec 5) (n : BitVec 12) : Statement (.srw a n) := by
  intro z h hw
  obtain ⟨f0, f1, f2, f3⟩ := fields_11_5_4_12 z (h := Option.some.inj h)
  have s0 : z.extractLsb' 26 6 = 29#6 := (sub_field f0 5 6 (by decide)).trans (by decide)
  have s1 : z.extractLsb' 21 5 = 0#5 := (sub_field f0 0 5 (by decide)).trans (by decide)
  show decodeMajor z (z.extractLsb' 26 6).toNat = _
  rw [s0]
  show decodeMajor1D z (z.extractLsb' 12 4).toNat = _
  rw [f2]
  simp [decodeMajor1D, mbz, fa, n12, legalS, hw, s1, f1, f3]
theorem spawn (d : BitVec 5) (a : BitVec 5) (b : BitVec 5) : Statement (.spawn d a b) := by
  intro z h hw
  obtain ⟨f0, f1, f2, f3, f4⟩ := fields_6_5_5_5_11 z (h := Option.some.inj h)
  have s0 : z.extractLsb' 5 5 = 0#5 := (sub_field f4 5 5 (by decide)).trans (by decide)
  have s1 : z.extractLsb' 0 5 = 0#5 := (sub_field f4 0 5 (by decide)).trans (by decide)
  have s2 : z.extractLsb' 10 1 = 0#1 := (sub_field f4 10 1 (by decide)).trans (by decide)
  show decodeMajor z (z.extractLsb' 26 6).toNat = _
  rw [f0]
  show decodeMajor1E z (z.extractLsb' 5 5).toNat = _
  rw [s0]
  simp [decodeMajor1E, mbz, fa, fb, fd, legal, hw, s1, s2, f1, f2, f3]
theorem spawnf (d : BitVec 5) (a : BitVec 5) (b : BitVec 5) : Statement (.spawnf d a b) := by
  intro z h hw
  obtain ⟨f0, f1, f2, f3, f4⟩ := fields_6_5_5_5_11 z (h := Option.some.inj h)
  have s0 : z.extractLsb' 5 5 = 1#5 := (sub_field f4 5 5 (by decide)).trans (by decide)
  have s1 : z.extractLsb' 0 5 = 0#5 := (sub_field f4 0 5 (by decide)).trans (by decide)
  have s2 : z.extractLsb' 10 1 = 0#1 := (sub_field f4 10 1 (by decide)).trans (by decide)
  show decodeMajor z (z.extractLsb' 26 6).toNat = _
  rw [f0]
  show decodeMajor1E z (z.extractLsb' 5 5).toNat = _
  rw [s0]
  simp [decodeMajor1E, mbz, fa, fb, fd, legal, hw, s1, s2, f1, f2, f3]
theorem exit : Statement .exit := by
  intro z h hw
  have f0 := fields_32 z _ (Option.some.inj h)
  have s0 : z.extractLsb' 26 6 = 31#6 := (sub_field f0 26 6 (by decide)).trans (by decide)
  have s1 : z.extractLsb' 12 4 = 0#4 := (sub_field f0 12 4 (by decide)).trans (by decide)
  have s2 : z.extractLsb' 0 12 = 0#12 := (sub_field f0 0 12 (by decide)).trans (by decide)
  have s3 : z.extractLsb' 16 10 = 0#10 := (sub_field f0 16 10 (by decide)).trans (by decide)
  show decodeMajor z (z.extractLsb' 26 6).toNat = _
  rw [s0]
  show decodeMajor1F z (z.extractLsb' 12 4).toNat = _
  rw [s1]
  simp [decodeMajor1F, mbz, legal, hw, s2, s3]
theorem cont (d : BitVec 5) (a : BitVec 5) : Statement (.cont d a) := by
  intro z h hw
  obtain ⟨f0, f1, f2, f3⟩ := fields_6_5_5_16 z (h := Option.some.inj h)
  have s0 : z.extractLsb' 12 4 = 1#4 := (sub_field f3 12 4 (by decide)).trans (by decide)
  have s1 : z.extractLsb' 0 12 = 0#12 := (sub_field f3 0 12 (by decide)).trans (by decide)
  show decodeMajor z (z.extractLsb' 26 6).toNat = _
  rw [f0]
  show decodeMajor1F z (z.extractLsb' 12 4).toNat = _
  rw [s0]
  simp [decodeMajor1F, mbz, fa, fd, legal, hw, s1, f1, f2]
theorem lease (d : BitVec 5) (a : BitVec 5) (mn : BitVec 10) (lv : BitVec 2) : Statement (.lease d a mn lv) := by
  intro z h hw
  obtain ⟨f0, f1, f2, f3, f4, f5⟩ := fields_6_5_5_4_10_2 z (h := Option.some.inj h)
  show decodeMajor z (z.extractLsb' 26 6).toNat = _
  rw [f0]
  show decodeMajor20 z (z.extractLsb' 12 4).toNat = _
  rw [f3]
  simp [decodeMajor20, fa, fd, legal, hw, f1, f2, f4, f5]
theorem lrel : Statement .lrel := by
  intro z h hw
  have f0 := fields_32 z _ (Option.some.inj h)
  have s0 : z.extractLsb' 26 6 = 32#6 := (sub_field f0 26 6 (by decide)).trans (by decide)
  have s1 : z.extractLsb' 12 4 = 1#4 := (sub_field f0 12 4 (by decide)).trans (by decide)
  have s2 : z.extractLsb' 0 12 = 0#12 := (sub_field f0 0 12 (by decide)).trans (by decide)
  have s3 : z.extractLsb' 16 10 = 0#10 := (sub_field f0 16 10 (by decide)).trans (by decide)
  show decodeMajor z (z.extractLsb' 26 6).toNat = _
  rw [s0]
  show decodeMajor20 z (z.extractLsb' 12 4).toNat = _
  rw [s1]
  simp [decodeMajor20, mbz, legal, hw, s2, s3]
theorem lqry (d : BitVec 5) : Statement (.lqry d) := by
  intro z h hw
  obtain ⟨f0, f1, f2⟩ := fields_6_5_21 z (h := Option.some.inj h)
  have s0 : z.extractLsb' 12 4 = 2#4 := (sub_field f2 12 4 (by decide)).trans (by decide)
  have s1 : z.extractLsb' 0 12 = 0#12 := (sub_field f2 0 12 (by decide)).trans (by decide)
  have s2 : z.extractLsb' 16 5 = 0#5 := (sub_field f2 16 5 (by decide)).trans (by decide)
  show decodeMajor z (z.extractLsb' 26 6).toNat = _
  rw [f0]
  show decodeMajor20 z (z.extractLsb' 12 4).toNat = _
  rw [s0]
  simp [decodeMajor20, mbz, fd, legal, hw, s1, s2, f1]
theorem setvl (d : BitVec 5) (a : BitVec 5) : Statement (.setvl d a) := by
  intro z h hw
  obtain ⟨f0, f1, f2, f3⟩ := fields_6_5_5_16 z (h := Option.some.inj h)
  have s0 : z.extractLsb' 12 4 = 0#4 := (sub_field f3 12 4 (by decide)).trans (by decide)
  have s1 : z.extractLsb' 0 12 = 0#12 := (sub_field f3 0 12 (by decide)).trans (by decide)
  show decodeMajor z (z.extractLsb' 26 6).toNat = _
  rw [f0]
  show decodeMajor21 z (z.extractLsb' 12 4).toNat = _
  rw [s0]
  simp [decodeMajor21, mbz, fa, fd, legal, hw, s1, f1, f2]
theorem setvli (d : BitVec 5) (n : BitVec 12) : Statement (.setvli d n) := by
  intro z h hw
  obtain ⟨f0, f1, f2, f3⟩ := fields_6_5_9_12 z (h := Option.some.inj h)
  have s0 : z.extractLsb' 12 4 = 1#4 := (sub_field f2 0 4 (by decide)).trans (by decide)
  have s1 : z.extractLsb' 16 5 = 0#5 := (sub_field f2 4 5 (by decide)).trans (by decide)
  show decodeMajor z (z.extractLsb' 26 6).toNat = _
  rw [f0]
  show decodeMajor21 z (z.extractLsb' 12 4).toNat = _
  rw [s0]
  simp [decodeMajor21, mbz, fd, n12, legal, hw, s1, f1, f3]
theorem mode (d : BitVec 5) (a : BitVec 5) : Statement (.mode d a) := by
  intro z h hw
  obtain ⟨f0, f1, f2, f3⟩ := fields_6_5_5_16 z (h := Option.some.inj h)
  have s0 : z.extractLsb' 12 4 = 2#4 := (sub_field f3 12 4 (by decide)).trans (by decide)
  have s1 : z.extractLsb' 0 12 = 0#12 := (sub_field f3 0 12 (by decide)).trans (by decide)
  show decodeMajor z (z.extractLsb' 26 6).toNat = _
  rw [f0]
  show decodeMajor21 z (z.extractLsb' 12 4).toNat = _
  rw [s0]
  simp [decodeMajor21, mbz, fa, fd, legal, hw, s1, f1, f2]
theorem space (d : BitVec 5) (a : BitVec 5) : Statement (.space d a) := by
  intro z h hw
  obtain ⟨f0, f1, f2, f3⟩ := fields_6_5_5_16 z (h := Option.some.inj h)
  have s0 : z.extractLsb' 12 4 = 3#4 := (sub_field f3 12 4 (by decide)).trans (by decide)
  have s1 : z.extractLsb' 0 12 = 0#12 := (sub_field f3 0 12 (by decide)).trans (by decide)
  show decodeMajor z (z.extractLsb' 26 6).toNat = _
  rw [f0]
  show decodeMajor21 z (z.extractLsb' 12 4).toNat = _
  rw [s0]
  simp [decodeMajor21, mbz, fa, fd, legal, hw, s1, f1, f2]
theorem vadd (d : BitVec 5) (a : BitVec 5) (b : BitVec 5) (x : BitVec 1) : Statement (.vadd d a b x) := by
  intro z h hw
  obtain ⟨f0, f1, f2, f3, f4, f5⟩ := fields_6_5_5_5_1_10 z (h := Option.some.inj h)
  have s0 : z.extractLsb' 5 5 = 0#5 := (sub_field f5 5 5 (by decide)).trans (by decide)
  have s1 : z.extractLsb' 0 5 = 0#5 := (sub_field f5 0 5 (by decide)).trans (by decide)
  show decodeMajor z (z.extractLsb' 26 6).toNat = _
  rw [f0]
  show decodeMajor22 z (z.extractLsb' 5 5).toNat = _
  rw [s0]
  simp [decodeMajor22, mbz, fa, fb, fd, fx, legal, hw, s1, f1, f2, f3, f4]
theorem vsub (d : BitVec 5) (a : BitVec 5) (b : BitVec 5) (x : BitVec 1) : Statement (.vsub d a b x) := by
  intro z h hw
  obtain ⟨f0, f1, f2, f3, f4, f5⟩ := fields_6_5_5_5_1_10 z (h := Option.some.inj h)
  have s0 : z.extractLsb' 5 5 = 1#5 := (sub_field f5 5 5 (by decide)).trans (by decide)
  have s1 : z.extractLsb' 0 5 = 0#5 := (sub_field f5 0 5 (by decide)).trans (by decide)
  show decodeMajor z (z.extractLsb' 26 6).toNat = _
  rw [f0]
  show decodeMajor22 z (z.extractLsb' 5 5).toNat = _
  rw [s0]
  simp [decodeMajor22, mbz, fa, fb, fd, fx, legal, hw, s1, f1, f2, f3, f4]
theorem vmul (d : BitVec 5) (a : BitVec 5) (b : BitVec 5) (x : BitVec 1) : Statement (.vmul d a b x) := by
  intro z h hw
  obtain ⟨f0, f1, f2, f3, f4, f5⟩ := fields_6_5_5_5_1_10 z (h := Option.some.inj h)
  have s0 : z.extractLsb' 5 5 = 2#5 := (sub_field f5 5 5 (by decide)).trans (by decide)
  have s1 : z.extractLsb' 0 5 = 0#5 := (sub_field f5 0 5 (by decide)).trans (by decide)
  show decodeMajor z (z.extractLsb' 26 6).toNat = _
  rw [f0]
  show decodeMajor22 z (z.extractLsb' 5 5).toNat = _
  rw [s0]
  simp [decodeMajor22, mbz, fa, fb, fd, fx, legal, hw, s1, f1, f2, f3, f4]
theorem vdiv (d : BitVec 5) (a : BitVec 5) (b : BitVec 5) (x : BitVec 1) : Statement (.vdiv d a b x) := by
  intro z h hw
  obtain ⟨f0, f1, f2, f3, f4, f5⟩ := fields_6_5_5_5_1_10 z (h := Option.some.inj h)
  have s0 : z.extractLsb' 5 5 = 3#5 := (sub_field f5 5 5 (by decide)).trans (by decide)
  have s1 : z.extractLsb' 0 5 = 0#5 := (sub_field f5 0 5 (by decide)).trans (by decide)
  show decodeMajor z (z.extractLsb' 26 6).toNat = _
  rw [f0]
  show decodeMajor22 z (z.extractLsb' 5 5).toNat = _
  rw [s0]
  simp [decodeMajor22, mbz, fa, fb, fd, fx, legal, hw, s1, f1, f2, f3, f4]
theorem vmin (d : BitVec 5) (a : BitVec 5) (b : BitVec 5) (x : BitVec 1) : Statement (.vmin d a b x) := by
  intro z h hw
  obtain ⟨f0, f1, f2, f3, f4, f5⟩ := fields_6_5_5_5_1_10 z (h := Option.some.inj h)
  have s0 : z.extractLsb' 5 5 = 4#5 := (sub_field f5 5 5 (by decide)).trans (by decide)
  have s1 : z.extractLsb' 0 5 = 0#5 := (sub_field f5 0 5 (by decide)).trans (by decide)
  show decodeMajor z (z.extractLsb' 26 6).toNat = _
  rw [f0]
  show decodeMajor22 z (z.extractLsb' 5 5).toNat = _
  rw [s0]
  simp [decodeMajor22, mbz, fa, fb, fd, fx, legal, hw, s1, f1, f2, f3, f4]
theorem vmax (d : BitVec 5) (a : BitVec 5) (b : BitVec 5) (x : BitVec 1) : Statement (.vmax d a b x) := by
  intro z h hw
  obtain ⟨f0, f1, f2, f3, f4, f5⟩ := fields_6_5_5_5_1_10 z (h := Option.some.inj h)
  have s0 : z.extractLsb' 5 5 = 5#5 := (sub_field f5 5 5 (by decide)).trans (by decide)
  have s1 : z.extractLsb' 0 5 = 0#5 := (sub_field f5 0 5 (by decide)).trans (by decide)
  show decodeMajor z (z.extractLsb' 26 6).toNat = _
  rw [f0]
  show decodeMajor22 z (z.extractLsb' 5 5).toNat = _
  rw [s0]
  simp [decodeMajor22, mbz, fa, fb, fd, fx, legal, hw, s1, f1, f2, f3, f4]
theorem vand (d : BitVec 5) (a : BitVec 5) (b : BitVec 5) (x : BitVec 1) : Statement (.vand d a b x) := by
  intro z h hw
  obtain ⟨f0, f1, f2, f3, f4, f5⟩ := fields_6_5_5_5_1_10 z (h := Option.some.inj h)
  have s0 : z.extractLsb' 5 5 = 6#5 := (sub_field f5 5 5 (by decide)).trans (by decide)
  have s1 : z.extractLsb' 0 5 = 0#5 := (sub_field f5 0 5 (by decide)).trans (by decide)
  show decodeMajor z (z.extractLsb' 26 6).toNat = _
  rw [f0]
  show decodeMajor22 z (z.extractLsb' 5 5).toNat = _
  rw [s0]
  simp [decodeMajor22, mbz, fa, fb, fd, fx, legal, hw, s1, f1, f2, f3, f4]
theorem vor (d : BitVec 5) (a : BitVec 5) (b : BitVec 5) (x : BitVec 1) : Statement (.vor d a b x) := by
  intro z h hw
  obtain ⟨f0, f1, f2, f3, f4, f5⟩ := fields_6_5_5_5_1_10 z (h := Option.some.inj h)
  have s0 : z.extractLsb' 5 5 = 7#5 := (sub_field f5 5 5 (by decide)).trans (by decide)
  have s1 : z.extractLsb' 0 5 = 0#5 := (sub_field f5 0 5 (by decide)).trans (by decide)
  show decodeMajor z (z.extractLsb' 26 6).toNat = _
  rw [f0]
  show decodeMajor22 z (z.extractLsb' 5 5).toNat = _
  rw [s0]
  simp [decodeMajor22, mbz, fa, fb, fd, fx, legal, hw, s1, f1, f2, f3, f4]
theorem vxor (d : BitVec 5) (a : BitVec 5) (b : BitVec 5) (x : BitVec 1) : Statement (.vxor d a b x) := by
  intro z h hw
  obtain ⟨f0, f1, f2, f3, f4, f5⟩ := fields_6_5_5_5_1_10 z (h := Option.some.inj h)
  have s0 : z.extractLsb' 5 5 = 8#5 := (sub_field f5 5 5 (by decide)).trans (by decide)
  have s1 : z.extractLsb' 0 5 = 0#5 := (sub_field f5 0 5 (by decide)).trans (by decide)
  show decodeMajor z (z.extractLsb' 26 6).toNat = _
  rw [f0]
  show decodeMajor22 z (z.extractLsb' 5 5).toNat = _
  rw [s0]
  simp [decodeMajor22, mbz, fa, fb, fd, fx, legal, hw, s1, f1, f2, f3, f4]
theorem vshl (d : BitVec 5) (a : BitVec 5) (b : BitVec 5) (x : BitVec 1) : Statement (.vshl d a b x) := by
  intro z h hw
  obtain ⟨f0, f1, f2, f3, f4, f5⟩ := fields_6_5_5_5_1_10 z (h := Option.some.inj h)
  have s0 : z.extractLsb' 5 5 = 9#5 := (sub_field f5 5 5 (by decide)).trans (by decide)
  have s1 : z.extractLsb' 0 5 = 0#5 := (sub_field f5 0 5 (by decide)).trans (by decide)
  show decodeMajor z (z.extractLsb' 26 6).toNat = _
  rw [f0]
  show decodeMajor22 z (z.extractLsb' 5 5).toNat = _
  rw [s0]
  simp [decodeMajor22, mbz, fa, fb, fd, fx, legal, hw, s1, f1, f2, f3, f4]
theorem vshr (d : BitVec 5) (a : BitVec 5) (b : BitVec 5) (x : BitVec 1) : Statement (.vshr d a b x) := by
  intro z h hw
  obtain ⟨f0, f1, f2, f3, f4, f5⟩ := fields_6_5_5_5_1_10 z (h := Option.some.inj h)
  have s0 : z.extractLsb' 5 5 = 10#5 := (sub_field f5 5 5 (by decide)).trans (by decide)
  have s1 : z.extractLsb' 0 5 = 0#5 := (sub_field f5 0 5 (by decide)).trans (by decide)
  show decodeMajor z (z.extractLsb' 26 6).toNat = _
  rw [f0]
  show decodeMajor22 z (z.extractLsb' 5 5).toNat = _
  rw [s0]
  simp [decodeMajor22, mbz, fa, fb, fd, fx, legal, hw, s1, f1, f2, f3, f4]
theorem vsha (d : BitVec 5) (a : BitVec 5) (b : BitVec 5) (x : BitVec 1) : Statement (.vsha d a b x) := by
  intro z h hw
  obtain ⟨f0, f1, f2, f3, f4, f5⟩ := fields_6_5_5_5_1_10 z (h := Option.some.inj h)
  have s0 : z.extractLsb' 5 5 = 11#5 := (sub_field f5 5 5 (by decide)).trans (by decide)
  have s1 : z.extractLsb' 0 5 = 0#5 := (sub_field f5 0 5 (by decide)).trans (by decide)
  show decodeMajor z (z.extractLsb' 26 6).toNat = _
  rw [f0]
  show decodeMajor22 z (z.extractLsb' 5 5).toNat = _
  rw [s0]
  simp [decodeMajor22, mbz, fa, fb, fd, fx, legal, hw, s1, f1, f2, f3, f4]
theorem vmulh (d : BitVec 5) (a : BitVec 5) (b : BitVec 5) (x : BitVec 1) : Statement (.vmulh d a b x) := by
  intro z h hw
  obtain ⟨f0, f1, f2, f3, f4, f5⟩ := fields_6_5_5_5_1_10 z (h := Option.some.inj h)
  have s0 : z.extractLsb' 5 5 = 12#5 := (sub_field f5 5 5 (by decide)).trans (by decide)
  have s1 : z.extractLsb' 0 5 = 0#5 := (sub_field f5 0 5 (by decide)).trans (by decide)
  show decodeMajor z (z.extractLsb' 26 6).toNat = _
  rw [f0]
  show decodeMajor22 z (z.extractLsb' 5 5).toNat = _
  rw [s0]
  simp [decodeMajor22, mbz, fa, fb, fd, fx, legal, hw, s1, f1, f2, f3, f4]
theorem vabsd (d : BitVec 5) (a : BitVec 5) (b : BitVec 5) (x : BitVec 1) : Statement (.vabsd d a b x) := by
  intro z h hw
  obtain ⟨f0, f1, f2, f3, f4, f5⟩ := fields_6_5_5_5_1_10 z (h := Option.some.inj h)
  have s0 : z.extractLsb' 5 5 = 13#5 := (sub_field f5 5 5 (by decide)).trans (by decide)
  have s1 : z.extractLsb' 0 5 = 0#5 := (sub_field f5 0 5 (by decide)).trans (by decide)
  show decodeMajor z (z.extractLsb' 26 6).toNat = _
  rw [f0]
  show decodeMajor22 z (z.extractLsb' 5 5).toNat = _
  rw [s0]
  simp [decodeMajor22, mbz, fa, fb, fd, fx, legal, hw, s1, f1, f2, f3, f4]
theorem vfma (d : BitVec 5) (a : BitVec 5) (b : BitVec 5) (x : BitVec 1) (c : BitVec 5) : Statement (.vfma d a b x c) := by
  intro z h hw
  obtain ⟨f0, f1, f2, f3, f4, f5, f6⟩ := fields_6_5_5_5_1_5_5 z (h := Option.some.inj h)
  show decodeMajor z (z.extractLsb' 26 6).toNat = _
  rw [f0]
  show decodeMajor23 z (z.extractLsb' 5 5).toNat = _
  rw [f5]
  simp [decodeMajor23, fa, fb, fc, fd, fx, legal, hw, f1, f2, f3, f4, f6]
theorem vfms (d : BitVec 5) (a : BitVec 5) (b : BitVec 5) (x : BitVec 1) (c : BitVec 5) : Statement (.vfms d a b x c) := by
  intro z h hw
  obtain ⟨f0, f1, f2, f3, f4, f5, f6⟩ := fields_6_5_5_5_1_5_5 z (h := Option.some.inj h)
  show decodeMajor z (z.extractLsb' 26 6).toNat = _
  rw [f0]
  show decodeMajor23 z (z.extractLsb' 5 5).toNat = _
  rw [f5]
  simp [decodeMajor23, fa, fb, fc, fd, fx, legal, hw, f1, f2, f3, f4, f6]
theorem vfnma (d : BitVec 5) (a : BitVec 5) (b : BitVec 5) (x : BitVec 1) (c : BitVec 5) : Statement (.vfnma d a b x c) := by
  intro z h hw
  obtain ⟨f0, f1, f2, f3, f4, f5, f6⟩ := fields_6_5_5_5_1_5_5 z (h := Option.some.inj h)
  show decodeMajor z (z.extractLsb' 26 6).toNat = _
  rw [f0]
  show decodeMajor23 z (z.extractLsb' 5 5).toNat = _
  rw [f5]
  simp [decodeMajor23, fa, fb, fc, fd, fx, legal, hw, f1, f2, f3, f4, f6]
theorem vfnms (d : BitVec 5) (a : BitVec 5) (b : BitVec 5) (x : BitVec 1) (c : BitVec 5) : Statement (.vfnms d a b x c) := by
  intro z h hw
  obtain ⟨f0, f1, f2, f3, f4, f5, f6⟩ := fields_6_5_5_5_1_5_5 z (h := Option.some.inj h)
  show decodeMajor z (z.extractLsb' 26 6).toNat = _
  rw [f0]
  show decodeMajor23 z (z.extractLsb' 5 5).toNat = _
  rw [f5]
  simp [decodeMajor23, fa, fb, fc, fd, fx, legal, hw, f1, f2, f3, f4, f6]
theorem vsqrt (d : BitVec 5) (a : BitVec 5) : Statement (.vsqrt d a) := by
  intro z h hw
  obtain ⟨f0, f1, f2, f3⟩ := fields_6_5_5_16 z (h := Option.some.inj h)
  have s0 : z.extractLsb' 5 5 = 0#5 := (sub_field f3 5 5 (by decide)).trans (by decide)
  have s1 : z.extractLsb' 0 5 = 0#5 := (sub_field f3 0 5 (by decide)).trans (by decide)
  have s2 : z.extractLsb' 10 6 = 0#6 := (sub_field f3 10 6 (by decide)).trans (by decide)
  show decodeMajor z (z.extractLsb' 26 6).toNat = _
  rw [f0]
  show decodeMajor24 z (z.extractLsb' 5 5).toNat = _
  rw [s0]
  simp [decodeMajor24, mbz, fa, fd, legal, hw, s1, s2, f1, f2]
theorem vrcp (d : BitVec 5) (a : BitVec 5) : Statement (.vrcp d a) := by
  intro z h hw
  obtain ⟨f0, f1, f2, f3⟩ := fields_6_5_5_16 z (h := Option.some.inj h)
  have s0 : z.extractLsb' 5 5 = 1#5 := (sub_field f3 5 5 (by decide)).trans (by decide)
  have s1 : z.extractLsb' 0 5 = 0#5 := (sub_field f3 0 5 (by decide)).trans (by decide)
  have s2 : z.extractLsb' 10 6 = 0#6 := (sub_field f3 10 6 (by decide)).trans (by decide)
  show decodeMajor z (z.extractLsb' 26 6).toNat = _
  rw [f0]
  show decodeMajor24 z (z.extractLsb' 5 5).toNat = _
  rw [s0]
  simp [decodeMajor24, mbz, fa, fd, legal, hw, s1, s2, f1, f2]
theorem vrsq (d : BitVec 5) (a : BitVec 5) : Statement (.vrsq d a) := by
  intro z h hw
  obtain ⟨f0, f1, f2, f3⟩ := fields_6_5_5_16 z (h := Option.some.inj h)
  have s0 : z.extractLsb' 5 5 = 2#5 := (sub_field f3 5 5 (by decide)).trans (by decide)
  have s1 : z.extractLsb' 0 5 = 0#5 := (sub_field f3 0 5 (by decide)).trans (by decide)
  have s2 : z.extractLsb' 10 6 = 0#6 := (sub_field f3 10 6 (by decide)).trans (by decide)
  show decodeMajor z (z.extractLsb' 26 6).toNat = _
  rw [f0]
  show decodeMajor24 z (z.extractLsb' 5 5).toNat = _
  rw [s0]
  simp [decodeMajor24, mbz, fa, fd, legal, hw, s1, s2, f1, f2]
theorem vexp2 (d : BitVec 5) (a : BitVec 5) : Statement (.vexp2 d a) := by
  intro z h hw
  obtain ⟨f0, f1, f2, f3⟩ := fields_6_5_5_16 z (h := Option.some.inj h)
  have s0 : z.extractLsb' 5 5 = 3#5 := (sub_field f3 5 5 (by decide)).trans (by decide)
  have s1 : z.extractLsb' 0 5 = 0#5 := (sub_field f3 0 5 (by decide)).trans (by decide)
  have s2 : z.extractLsb' 10 6 = 0#6 := (sub_field f3 10 6 (by decide)).trans (by decide)
  show decodeMajor z (z.extractLsb' 26 6).toNat = _
  rw [f0]
  show decodeMajor24 z (z.extractLsb' 5 5).toNat = _
  rw [s0]
  simp [decodeMajor24, mbz, fa, fd, legal, hw, s1, s2, f1, f2]
theorem vlog2 (d : BitVec 5) (a : BitVec 5) : Statement (.vlog2 d a) := by
  intro z h hw
  obtain ⟨f0, f1, f2, f3⟩ := fields_6_5_5_16 z (h := Option.some.inj h)
  have s0 : z.extractLsb' 5 5 = 4#5 := (sub_field f3 5 5 (by decide)).trans (by decide)
  have s1 : z.extractLsb' 0 5 = 0#5 := (sub_field f3 0 5 (by decide)).trans (by decide)
  have s2 : z.extractLsb' 10 6 = 0#6 := (sub_field f3 10 6 (by decide)).trans (by decide)
  show decodeMajor z (z.extractLsb' 26 6).toNat = _
  rw [f0]
  show decodeMajor24 z (z.extractLsb' 5 5).toNat = _
  rw [s0]
  simp [decodeMajor24, mbz, fa, fd, legal, hw, s1, s2, f1, f2]
theorem vabs (d : BitVec 5) (a : BitVec 5) : Statement (.vabs d a) := by
  intro z h hw
  obtain ⟨f0, f1, f2, f3⟩ := fields_6_5_5_16 z (h := Option.some.inj h)
  have s0 : z.extractLsb' 5 5 = 5#5 := (sub_field f3 5 5 (by decide)).trans (by decide)
  have s1 : z.extractLsb' 0 5 = 0#5 := (sub_field f3 0 5 (by decide)).trans (by decide)
  have s2 : z.extractLsb' 10 6 = 0#6 := (sub_field f3 10 6 (by decide)).trans (by decide)
  show decodeMajor z (z.extractLsb' 26 6).toNat = _
  rw [f0]
  show decodeMajor24 z (z.extractLsb' 5 5).toNat = _
  rw [s0]
  simp [decodeMajor24, mbz, fa, fd, legal, hw, s1, s2, f1, f2]
theorem vneg (d : BitVec 5) (a : BitVec 5) : Statement (.vneg d a) := by
  intro z h hw
  obtain ⟨f0, f1, f2, f3⟩ := fields_6_5_5_16 z (h := Option.some.inj h)
  have s0 : z.extractLsb' 5 5 = 6#5 := (sub_field f3 5 5 (by decide)).trans (by decide)
  have s1 : z.extractLsb' 0 5 = 0#5 := (sub_field f3 0 5 (by decide)).trans (by decide)
  have s2 : z.extractLsb' 10 6 = 0#6 := (sub_field f3 10 6 (by decide)).trans (by decide)
  show decodeMajor z (z.extractLsb' 26 6).toNat = _
  rw [f0]
  show decodeMajor24 z (z.extractLsb' 5 5).toNat = _
  rw [s0]
  simp [decodeMajor24, mbz, fa, fd, legal, hw, s1, s2, f1, f2]
theorem vnot (d : BitVec 5) (a : BitVec 5) : Statement (.vnot d a) := by
  intro z h hw
  obtain ⟨f0, f1, f2, f3⟩ := fields_6_5_5_16 z (h := Option.some.inj h)
  have s0 : z.extractLsb' 5 5 = 7#5 := (sub_field f3 5 5 (by decide)).trans (by decide)
  have s1 : z.extractLsb' 0 5 = 0#5 := (sub_field f3 0 5 (by decide)).trans (by decide)
  have s2 : z.extractLsb' 10 6 = 0#6 := (sub_field f3 10 6 (by decide)).trans (by decide)
  show decodeMajor z (z.extractLsb' 26 6).toNat = _
  rw [f0]
  show decodeMajor24 z (z.extractLsb' 5 5).toNat = _
  rw [s0]
  simp [decodeMajor24, mbz, fa, fd, legal, hw, s1, s2, f1, f2]
theorem vclass (d : BitVec 5) (a : BitVec 5) : Statement (.vclass d a) := by
  intro z h hw
  obtain ⟨f0, f1, f2, f3⟩ := fields_6_5_5_16 z (h := Option.some.inj h)
  have s0 : z.extractLsb' 5 5 = 8#5 := (sub_field f3 5 5 (by decide)).trans (by decide)
  have s1 : z.extractLsb' 0 5 = 0#5 := (sub_field f3 0 5 (by decide)).trans (by decide)
  have s2 : z.extractLsb' 10 6 = 0#6 := (sub_field f3 10 6 (by decide)).trans (by decide)
  show decodeMajor z (z.extractLsb' 26 6).toNat = _
  rw [f0]
  show decodeMajor24 z (z.extractLsb' 5 5).toNat = _
  rw [s0]
  simp [decodeMajor24, mbz, fa, fd, legal, hw, s1, s2, f1, f2]
theorem vmov (d : BitVec 5) (a : BitVec 5) : Statement (.vmov d a) := by
  intro z h hw
  obtain ⟨f0, f1, f2, f3⟩ := fields_6_5_5_16 z (h := Option.some.inj h)
  have s0 : z.extractLsb' 5 5 = 9#5 := (sub_field f3 5 5 (by decide)).trans (by decide)
  have s1 : z.extractLsb' 0 5 = 0#5 := (sub_field f3 0 5 (by decide)).trans (by decide)
  have s2 : z.extractLsb' 10 6 = 0#6 := (sub_field f3 10 6 (by decide)).trans (by decide)
  show decodeMajor z (z.extractLsb' 26 6).toNat = _
  rw [f0]
  show decodeMajor24 z (z.extractLsb' 5 5).toNat = _
  rw [s0]
  simp [decodeMajor24, mbz, fa, fd, legal, hw, s1, s2, f1, f2]
theorem vbcast (d : BitVec 5) (a : BitVec 5) : Statement (.vbcast d a) := by
  intro z h hw
  obtain ⟨f0, f1, f2, f3⟩ := fields_6_5_5_16 z (h := Option.some.inj h)
  have s0 : z.extractLsb' 5 5 = 10#5 := (sub_field f3 5 5 (by decide)).trans (by decide)
  have s1 : z.extractLsb' 0 5 = 0#5 := (sub_field f3 0 5 (by decide)).trans (by decide)
  have s2 : z.extractLsb' 10 6 = 0#6 := (sub_field f3 10 6 (by decide)).trans (by decide)
  show decodeMajor z (z.extractLsb' 26 6).toNat = _
  rw [f0]
  show decodeMajor24 z (z.extractLsb' 5 5).toNat = _
  rw [s0]
  simp [decodeMajor24, mbz, fa, fd, legal, hw, s1, s2, f1, f2]
theorem viota (d : BitVec 5) (a : BitVec 3) : Statement (.viota d a) := by
  intro z h hw
  obtain ⟨f0, f1, f2, f3, f4⟩ := fields_6_5_2_3_16 z (h := Option.some.inj h)
  have s0 : z.extractLsb' 5 5 = 11#5 := (sub_field f4 5 5 (by decide)).trans (by decide)
  have s1 : z.extractLsb' 0 5 = 0#5 := (sub_field f4 0 5 (by decide)).trans (by decide)
  have s2 : z.extractLsb' 10 6 = 0#6 := (sub_field f4 10 6 (by decide)).trans (by decide)
  show decodeMajor z (z.extractLsb' 26 6).toNat = _
  rw [f0]
  show decodeMajor24 z (z.extractLsb' 5 5).toNat = _
  rw [s0]
  simp [decodeMajor24, mbz, fd, legal, hw, s1, s2, f2, f1, f3]
theorem vcmpEq (d : BitVec 3) (a : BitVec 5) (b : BitVec 5) (x : BitVec 1) : Statement (.vcmpEq d a b x) := by
  intro z h hw
  obtain ⟨f0, f1, f2, f3, f4, f5⟩ := fields_8_3_5_5_1_10 z (h := Option.some.inj h)
  have s0 : z.extractLsb' 26 6 = 37#6 := (sub_field f0 2 6 (by decide)).trans (by decide)
  have s1 : z.extractLsb' 5 5 = 0#5 := (sub_field f5 5 5 (by decide)).trans (by decide)
  have s2 : z.extractLsb' 0 5 = 0#5 := (sub_field f5 0 5 (by decide)).trans (by decide)
  have s3 : z.extractLsb' 24 2 = 0#2 := (sub_field f0 0 2 (by decide)).trans (by decide)
  show decodeMajor z (z.extractLsb' 26 6).toNat = _
  rw [s0]
  show decodeMajor25 z (z.extractLsb' 5 5).toNat = _
  rw [s1]
  simp [decodeMajor25, mbz, fa, fb, fx, legal, hw, s2, s3, f1, f2, f3, f4]
theorem vcmpNe (d : BitVec 3) (a : BitVec 5) (b : BitVec 5) (x : BitVec 1) : Statement (.vcmpNe d a b x) := by
  intro z h hw
  obtain ⟨f0, f1, f2, f3, f4, f5⟩ := fields_8_3_5_5_1_10 z (h := Option.some.inj h)
  have s0 : z.extractLsb' 26 6 = 37#6 := (sub_field f0 2 6 (by decide)).trans (by decide)
  have s1 : z.extractLsb' 5 5 = 1#5 := (sub_field f5 5 5 (by decide)).trans (by decide)
  have s2 : z.extractLsb' 0 5 = 0#5 := (sub_field f5 0 5 (by decide)).trans (by decide)
  have s3 : z.extractLsb' 24 2 = 0#2 := (sub_field f0 0 2 (by decide)).trans (by decide)
  show decodeMajor z (z.extractLsb' 26 6).toNat = _
  rw [s0]
  show decodeMajor25 z (z.extractLsb' 5 5).toNat = _
  rw [s1]
  simp [decodeMajor25, mbz, fa, fb, fx, legal, hw, s2, s3, f1, f2, f3, f4]
theorem vcmpLt (d : BitVec 3) (a : BitVec 5) (b : BitVec 5) (x : BitVec 1) : Statement (.vcmpLt d a b x) := by
  intro z h hw
  obtain ⟨f0, f1, f2, f3, f4, f5⟩ := fields_8_3_5_5_1_10 z (h := Option.some.inj h)
  have s0 : z.extractLsb' 26 6 = 37#6 := (sub_field f0 2 6 (by decide)).trans (by decide)
  have s1 : z.extractLsb' 5 5 = 2#5 := (sub_field f5 5 5 (by decide)).trans (by decide)
  have s2 : z.extractLsb' 0 5 = 0#5 := (sub_field f5 0 5 (by decide)).trans (by decide)
  have s3 : z.extractLsb' 24 2 = 0#2 := (sub_field f0 0 2 (by decide)).trans (by decide)
  show decodeMajor z (z.extractLsb' 26 6).toNat = _
  rw [s0]
  show decodeMajor25 z (z.extractLsb' 5 5).toNat = _
  rw [s1]
  simp [decodeMajor25, mbz, fa, fb, fx, legal, hw, s2, s3, f1, f2, f3, f4]
theorem vcmpLe (d : BitVec 3) (a : BitVec 5) (b : BitVec 5) (x : BitVec 1) : Statement (.vcmpLe d a b x) := by
  intro z h hw
  obtain ⟨f0, f1, f2, f3, f4, f5⟩ := fields_8_3_5_5_1_10 z (h := Option.some.inj h)
  have s0 : z.extractLsb' 26 6 = 37#6 := (sub_field f0 2 6 (by decide)).trans (by decide)
  have s1 : z.extractLsb' 5 5 = 3#5 := (sub_field f5 5 5 (by decide)).trans (by decide)
  have s2 : z.extractLsb' 0 5 = 0#5 := (sub_field f5 0 5 (by decide)).trans (by decide)
  have s3 : z.extractLsb' 24 2 = 0#2 := (sub_field f0 0 2 (by decide)).trans (by decide)
  show decodeMajor z (z.extractLsb' 26 6).toNat = _
  rw [s0]
  show decodeMajor25 z (z.extractLsb' 5 5).toNat = _
  rw [s1]
  simp [decodeMajor25, mbz, fa, fb, fx, legal, hw, s2, s3, f1, f2, f3, f4]
theorem vcmpGt (d : BitVec 3) (a : BitVec 5) (b : BitVec 5) (x : BitVec 1) : Statement (.vcmpGt d a b x) := by
  intro z h hw
  obtain ⟨f0, f1, f2, f3, f4, f5⟩ := fields_8_3_5_5_1_10 z (h := Option.some.inj h)
  have s0 : z.extractLsb' 26 6 = 37#6 := (sub_field f0 2 6 (by decide)).trans (by decide)
  have s1 : z.extractLsb' 5 5 = 4#5 := (sub_field f5 5 5 (by decide)).trans (by decide)
  have s2 : z.extractLsb' 0 5 = 0#5 := (sub_field f5 0 5 (by decide)).trans (by decide)
  have s3 : z.extractLsb' 24 2 = 0#2 := (sub_field f0 0 2 (by decide)).trans (by decide)
  show decodeMajor z (z.extractLsb' 26 6).toNat = _
  rw [s0]
  show decodeMajor25 z (z.extractLsb' 5 5).toNat = _
  rw [s1]
  simp [decodeMajor25, mbz, fa, fb, fx, legal, hw, s2, s3, f1, f2, f3, f4]
theorem vcmpGe (d : BitVec 3) (a : BitVec 5) (b : BitVec 5) (x : BitVec 1) : Statement (.vcmpGe d a b x) := by
  intro z h hw
  obtain ⟨f0, f1, f2, f3, f4, f5⟩ := fields_8_3_5_5_1_10 z (h := Option.some.inj h)
  have s0 : z.extractLsb' 26 6 = 37#6 := (sub_field f0 2 6 (by decide)).trans (by decide)
  have s1 : z.extractLsb' 5 5 = 5#5 := (sub_field f5 5 5 (by decide)).trans (by decide)
  have s2 : z.extractLsb' 0 5 = 0#5 := (sub_field f5 0 5 (by decide)).trans (by decide)
  have s3 : z.extractLsb' 24 2 = 0#2 := (sub_field f0 0 2 (by decide)).trans (by decide)
  show decodeMajor z (z.extractLsb' 26 6).toNat = _
  rw [s0]
  show decodeMajor25 z (z.extractLsb' 5 5).toNat = _
  rw [s1]
  simp [decodeMajor25, mbz, fa, fb, fx, legal, hw, s2, s3, f1, f2, f3, f4]
theorem vcmpLtn (d : BitVec 3) (a : BitVec 5) (b : BitVec 5) (x : BitVec 1) : Statement (.vcmpLtn d a b x) := by
  intro z h hw
  obtain ⟨f0, f1, f2, f3, f4, f5⟩ := fields_8_3_5_5_1_10 z (h := Option.some.inj h)
  have s0 : z.extractLsb' 26 6 = 37#6 := (sub_field f0 2 6 (by decide)).trans (by decide)
  have s1 : z.extractLsb' 5 5 = 6#5 := (sub_field f5 5 5 (by decide)).trans (by decide)
  have s2 : z.extractLsb' 0 5 = 0#5 := (sub_field f5 0 5 (by decide)).trans (by decide)
  have s3 : z.extractLsb' 24 2 = 0#2 := (sub_field f0 0 2 (by decide)).trans (by decide)
  show decodeMajor z (z.extractLsb' 26 6).toNat = _
  rw [s0]
  show decodeMajor25 z (z.extractLsb' 5 5).toNat = _
  rw [s1]
  simp [decodeMajor25, mbz, fa, fb, fx, legal, hw, s2, s3, f1, f2, f3, f4]
theorem vcmpGen (d : BitVec 3) (a : BitVec 5) (b : BitVec 5) (x : BitVec 1) : Statement (.vcmpGen d a b x) := by
  intro z h hw
  obtain ⟨f0, f1, f2, f3, f4, f5⟩ := fields_8_3_5_5_1_10 z (h := Option.some.inj h)
  have s0 : z.extractLsb' 26 6 = 37#6 := (sub_field f0 2 6 (by decide)).trans (by decide)
  have s1 : z.extractLsb' 5 5 = 7#5 := (sub_field f5 5 5 (by decide)).trans (by decide)
  have s2 : z.extractLsb' 0 5 = 0#5 := (sub_field f5 0 5 (by decide)).trans (by decide)
  have s3 : z.extractLsb' 24 2 = 0#2 := (sub_field f0 0 2 (by decide)).trans (by decide)
  show decodeMajor z (z.extractLsb' 26 6).toNat = _
  rw [s0]
  show decodeMajor25 z (z.extractLsb' 5 5).toNat = _
  rw [s1]
  simp [decodeMajor25, mbz, fa, fb, fx, legal, hw, s2, s3, f1, f2, f3, f4]
theorem vcmpUnord (d : BitVec 3) (a : BitVec 5) (b : BitVec 5) (x : BitVec 1) : Statement (.vcmpUnord d a b x) := by
  intro z h hw
  obtain ⟨f0, f1, f2, f3, f4, f5⟩ := fields_8_3_5_5_1_10 z (h := Option.some.inj h)
  have s0 : z.extractLsb' 26 6 = 37#6 := (sub_field f0 2 6 (by decide)).trans (by decide)
  have s1 : z.extractLsb' 5 5 = 8#5 := (sub_field f5 5 5 (by decide)).trans (by decide)
  have s2 : z.extractLsb' 0 5 = 0#5 := (sub_field f5 0 5 (by decide)).trans (by decide)
  have s3 : z.extractLsb' 24 2 = 0#2 := (sub_field f0 0 2 (by decide)).trans (by decide)
  show decodeMajor z (z.extractLsb' 26 6).toNat = _
  rw [s0]
  show decodeMajor25 z (z.extractLsb' 5 5).toNat = _
  rw [s1]
  simp [decodeMajor25, mbz, fa, fb, fx, legal, hw, s2, s3, f1, f2, f3, f4]
theorem vcvt (d : BitVec 5) (a : BitVec 5) (b : BitVec 5) (c : BitVec 5) : Statement (.vcvt d a b c) := by
  intro z h hw
  obtain ⟨f0, f1, f2, f3, f4, f5⟩ := fields_6_5_5_5_6_5 z (h := Option.some.inj h)
  have s0 : z.extractLsb' 5 5 = 0#5 := (sub_field f4 0 5 (by decide)).trans (by decide)
  have s1 : z.extractLsb' 10 1 = 0#1 := (sub_field f4 5 1 (by decide)).trans (by decide)
  show decodeMajor z (z.extractLsb' 26 6).toNat = _
  rw [f0]
  show decodeMajor26 z (z.extractLsb' 5 5).toNat = _
  rw [s0]
  simp [decodeMajor26, mbz, fa, fb, fc, fd, legal, hw, s1, f1, f2, f3, f5]
theorem vcvtq (d : BitVec 5) (a : BitVec 5) (b : BitVec 5) (fm : BitVec 2) (sat : BitVec 1) (bsel : BitVec 2) : Statement (.vcvtq d a b fm sat bsel) := by
  intro z h hw
  obtain ⟨f0, f1, f2, f3, f4, f5, f6, f7⟩ := fields_6_5_5_5_6_2_1_2 z (h := Option.some.inj h)
  have s0 : z.extractLsb' 5 5 = 1#5 := (sub_field f4 0 5 (by decide)).trans (by decide)
  have s1 : z.extractLsb' 10 1 = 0#1 := (sub_field f4 5 1 (by decide)).trans (by decide)
  show decodeMajor z (z.extractLsb' 26 6).toNat = _
  rw [f0]
  show decodeMajor26 z (z.extractLsb' 5 5).toNat = _
  rw [s0]
  simp [decodeMajor26, mbz, fa, fb, fd, legal, hw, s1, f1, f2, f3, f5, f6, f7]
theorem vcvtd (d : BitVec 5) (a : BitVec 5) (b : BitVec 5) (fm : BitVec 2) (bsel : BitVec 2) : Statement (.vcvtd d a b fm bsel) := by
  intro z h hw
  obtain ⟨f0, f1, f2, f3, f4, f5, f6, f7⟩ := fields_6_5_5_5_6_2_1_2 z (h := Option.some.inj h)
  have s0 : z.extractLsb' 5 5 = 2#5 := (sub_field f4 0 5 (by decide)).trans (by decide)
  have s1 : z.extractLsb' 10 1 = 0#1 := (sub_field f4 5 1 (by decide)).trans (by decide)
  show decodeMajor z (z.extractLsb' 26 6).toNat = _
  rw [f0]
  show decodeMajor26 z (z.extractLsb' 5 5).toNat = _
  rw [s0]
  simp [decodeMajor26, mbz, fa, fb, fd, legal, hw, f6, s1, f1, f2, f3, f5, f7]
theorem vshfl (d : BitVec 5) (a : BitVec 5) (b : BitVec 5) : Statement (.vshfl d a b) := by
  intro z h hw
  obtain ⟨f0, f1, f2, f3, f4⟩ := fields_6_5_5_5_11 z (h := Option.some.inj h)
  have s0 : z.extractLsb' 5 5 = 0#5 := (sub_field f4 5 5 (by decide)).trans (by decide)
  have s1 : z.extractLsb' 0 5 = 0#5 := (sub_field f4 0 5 (by decide)).trans (by decide)
  have s2 : z.extractLsb' 10 1 = 0#1 := (sub_field f4 10 1 (by decide)).trans (by decide)
  show decodeMajor z (z.extractLsb' 26 6).toNat = _
  rw [f0]
  show decodeMajor27 z (z.extractLsb' 5 5).toNat = _
  rw [s0]
  simp [decodeMajor27, mbz, fa, fb, fd, legal, hw, s1, s2, f1, f2, f3]
theorem vslup (d : BitVec 5) (a : BitVec 5) (b : BitVec 5) : Statement (.vslup d a b) := by
  intro z h hw
  obtain ⟨f0, f1, f2, f3, f4⟩ := fields_6_5_5_5_11 z (h := Option.some.inj h)
  have s0 : z.extractLsb' 5 5 = 1#5 := (sub_field f4 5 5 (by decide)).trans (by decide)
  have s1 : z.extractLsb' 0 5 = 0#5 := (sub_field f4 0 5 (by decide)).trans (by decide)
  have s2 : z.extractLsb' 10 1 = 0#1 := (sub_field f4 10 1 (by decide)).trans (by decide)
  show decodeMajor z (z.extractLsb' 26 6).toNat = _
  rw [f0]
  show decodeMajor27 z (z.extractLsb' 5 5).toNat = _
  rw [s0]
  simp [decodeMajor27, mbz, fa, fb, fd, legal, hw, s1, s2, f1, f2, f3]
theorem vsldn (d : BitVec 5) (a : BitVec 5) (b : BitVec 5) : Statement (.vsldn d a b) := by
  intro z h hw
  obtain ⟨f0, f1, f2, f3, f4⟩ := fields_6_5_5_5_11 z (h := Option.some.inj h)
  have s0 : z.extractLsb' 5 5 = 2#5 := (sub_field f4 5 5 (by decide)).trans (by decide)
  have s1 : z.extractLsb' 0 5 = 0#5 := (sub_field f4 0 5 (by decide)).trans (by decide)
  have s2 : z.extractLsb' 10 1 = 0#1 := (sub_field f4 10 1 (by decide)).trans (by decide)
  show decodeMajor z (z.extractLsb' 26 6).toNat = _
  rw [f0]
  show decodeMajor27 z (z.extractLsb' 5 5).toNat = _
  rw [s0]
  simp [decodeMajor27, mbz, fa, fb, fd, legal, hw, s1, s2, f1, f2, f3]
theorem vcompr (d : BitVec 5) (a : BitVec 5) (c : BitVec 3) : Statement (.vcompr d a c) := by
  intro z h hw
  obtain ⟨f0, f1, f2, f3, f4⟩ := fields_6_5_5_13_3 z (h := Option.some.inj h)
  have s0 : z.extractLsb' 5 5 = 3#5 := (sub_field f3 2 5 (by decide)).trans (by decide)
  have s1 : z.extractLsb' 3 2 = 0#2 := (sub_field f3 0 2 (by decide)).trans (by decide)
  have s2 : z.extractLsb' 10 6 = 0#6 := (sub_field f3 7 6 (by decide)).trans (by decide)
  show decodeMajor z (z.extractLsb' 26 6).toNat = _
  rw [f0]
  show decodeMajor27 z (z.extractLsb' 5 5).toNat = _
  rw [s0]
  simp [decodeMajor27, mbz, fa, fd, legal, hw, s1, s2, f1, f2, f4]
theorem vexpnd (d : BitVec 5) (a : BitVec 5) (c : BitVec 3) : Statement (.vexpnd d a c) := by
  intro z h hw
  obtain ⟨f0, f1, f2, f3, f4⟩ := fields_6_5_5_13_3 z (h := Option.some.inj h)
  have s0 : z.extractLsb' 5 5 = 4#5 := (sub_field f3 2 5 (by decide)).trans (by decide)
  have s1 : z.extractLsb' 3 2 = 0#2 := (sub_field f3 0 2 (by decide)).trans (by decide)
  have s2 : z.extractLsb' 10 6 = 0#6 := (sub_field f3 7 6 (by decide)).trans (by decide)
  show decodeMajor z (z.extractLsb' 26 6).toNat = _
  rw [f0]
  show decodeMajor27 z (z.extractLsb' 5 5).toNat = _
  rw [s0]
  simp [decodeMajor27, mbz, fa, fd, legal, hw, s1, s2, f1, f2, f4]
theorem vextr (d : BitVec 5) (a : BitVec 5) (b : BitVec 5) : Statement (.vextr d a b) := by
  intro z h hw
  obtain ⟨f0, f1, f2, f3, f4⟩ := fields_6_5_5_5_11 z (h := Option.some.inj h)
  have s0 : z.extractLsb' 5 5 = 5#5 := (sub_field f4 5 5 (by decide)).trans (by decide)
  have s1 : z.extractLsb' 0 5 = 0#5 := (sub_field f4 0 5 (by decide)).trans (by decide)
  have s2 : z.extractLsb' 10 1 = 0#1 := (sub_field f4 10 1 (by decide)).trans (by decide)
  show decodeMajor z (z.extractLsb' 26 6).toNat = _
  rw [f0]
  show decodeMajor27 z (z.extractLsb' 5 5).toNat = _
  rw [s0]
  simp [decodeMajor27, mbz, fa, fb, fd, legal, hw, s1, s2, f1, f2, f3]
theorem vins (d : BitVec 5) (a : BitVec 5) (b : BitVec 5) : Statement (.vins d a b) := by
  intro z h hw
  obtain ⟨f0, f1, f2, f3, f4⟩ := fields_6_5_5_5_11 z (h := Option.some.inj h)
  have s0 : z.extractLsb' 5 5 = 6#5 := (sub_field f4 5 5 (by decide)).trans (by decide)
  have s1 : z.extractLsb' 0 5 = 0#5 := (sub_field f4 0 5 (by decide)).trans (by decide)
  have s2 : z.extractLsb' 10 1 = 0#1 := (sub_field f4 10 1 (by decide)).trans (by decide)
  show decodeMajor z (z.extractLsb' 26 6).toNat = _
  rw [f0]
  show decodeMajor27 z (z.extractLsb' 5 5).toNat = _
  rw [s0]
  simp [decodeMajor27, mbz, fa, fb, fd, legal, hw, s1, s2, f1, f2, f3]
theorem vsel (d : BitVec 5) (a : BitVec 5) (b : BitVec 5) (c : BitVec 3) : Statement (.vsel d a b c) := by
  intro z h hw
  obtain ⟨f0, f1, f2, f3, f4, f5⟩ := fields_6_5_5_5_8_3 z (h := Option.some.inj h)
  have s0 : z.extractLsb' 5 5 = 7#5 := (sub_field f4 2 5 (by decide)).trans (by decide)
  have s1 : z.extractLsb' 3 2 = 0#2 := (sub_field f4 0 2 (by decide)).trans (by decide)
  have s2 : z.extractLsb' 10 1 = 0#1 := (sub_field f4 7 1 (by decide)).trans (by decide)
  show decodeMajor z (z.extractLsb' 26 6).toNat = _
  rw [f0]
  show decodeMajor27 z (z.extractLsb' 5 5).toNat = _
  rw [s0]
  simp [decodeMajor27, mbz, fa, fb, fd, legal, hw, s1, s2, f1, f2, f3, f5]
theorem vredSum (d : BitVec 5) (a : BitVec 5) (b : BitVec 5) : Statement (.vredSum d a b) := by
  intro z h hw
  obtain ⟨f0, f1, f2, f3, f4⟩ := fields_6_5_5_5_11 z (h := Option.some.inj h)
  have s0 : z.extractLsb' 5 5 = 0#5 := (sub_field f4 5 5 (by decide)).trans (by decide)
  have s1 : z.extractLsb' 0 5 = 0#5 := (sub_field f4 0 5 (by decide)).trans (by decide)
  have s2 : z.extractLsb' 10 1 = 0#1 := (sub_field f4 10 1 (by decide)).trans (by decide)
  show decodeMajor z (z.extractLsb' 26 6).toNat = _
  rw [f0]
  show decodeMajor28 z (z.extractLsb' 5 5).toNat = _
  rw [s0]
  simp [decodeMajor28, mbz, fa, fb, fd, legal, hw, s1, s2, f1, f2, f3]
theorem vredMax (d : BitVec 5) (a : BitVec 5) (b : BitVec 5) : Statement (.vredMax d a b) := by
  intro z h hw
  obtain ⟨f0, f1, f2, f3, f4⟩ := fields_6_5_5_5_11 z (h := Option.some.inj h)
  have s0 : z.extractLsb' 5 5 = 1#5 := (sub_field f4 5 5 (by decide)).trans (by decide)
  have s1 : z.extractLsb' 0 5 = 0#5 := (sub_field f4 0 5 (by decide)).trans (by decide)
  have s2 : z.extractLsb' 10 1 = 0#1 := (sub_field f4 10 1 (by decide)).trans (by decide)
  show decodeMajor z (z.extractLsb' 26 6).toNat = _
  rw [f0]
  show decodeMajor28 z (z.extractLsb' 5 5).toNat = _
  rw [s0]
  simp [decodeMajor28, mbz, fa, fb, fd, legal, hw, s1, s2, f1, f2, f3]
theorem vredMin (d : BitVec 5) (a : BitVec 5) (b : BitVec 5) : Statement (.vredMin d a b) := by
  intro z h hw
  obtain ⟨f0, f1, f2, f3, f4⟩ := fields_6_5_5_5_11 z (h := Option.some.inj h)
  have s0 : z.extractLsb' 5 5 = 2#5 := (sub_field f4 5 5 (by decide)).trans (by decide)
  have s1 : z.extractLsb' 0 5 = 0#5 := (sub_field f4 0 5 (by decide)).trans (by decide)
  have s2 : z.extractLsb' 10 1 = 0#1 := (sub_field f4 10 1 (by decide)).trans (by decide)
  show decodeMajor z (z.extractLsb' 26 6).toNat = _
  rw [f0]
  show decodeMajor28 z (z.extractLsb' 5 5).toNat = _
  rw [s0]
  simp [decodeMajor28, mbz, fa, fb, fd, legal, hw, s1, s2, f1, f2, f3]
theorem vredAnd (d : BitVec 5) (a : BitVec 5) (b : BitVec 5) : Statement (.vredAnd d a b) := by
  intro z h hw
  obtain ⟨f0, f1, f2, f3, f4⟩ := fields_6_5_5_5_11 z (h := Option.some.inj h)
  have s0 : z.extractLsb' 5 5 = 3#5 := (sub_field f4 5 5 (by decide)).trans (by decide)
  have s1 : z.extractLsb' 0 5 = 0#5 := (sub_field f4 0 5 (by decide)).trans (by decide)
  have s2 : z.extractLsb' 10 1 = 0#1 := (sub_field f4 10 1 (by decide)).trans (by decide)
  show decodeMajor z (z.extractLsb' 26 6).toNat = _
  rw [f0]
  show decodeMajor28 z (z.extractLsb' 5 5).toNat = _
  rw [s0]
  simp [decodeMajor28, mbz, fa, fb, fd, legal, hw, s1, s2, f1, f2, f3]
theorem vredOr (d : BitVec 5) (a : BitVec 5) (b : BitVec 5) : Statement (.vredOr d a b) := by
  intro z h hw
  obtain ⟨f0, f1, f2, f3, f4⟩ := fields_6_5_5_5_11 z (h := Option.some.inj h)
  have s0 : z.extractLsb' 5 5 = 4#5 := (sub_field f4 5 5 (by decide)).trans (by decide)
  have s1 : z.extractLsb' 0 5 = 0#5 := (sub_field f4 0 5 (by decide)).trans (by decide)
  have s2 : z.extractLsb' 10 1 = 0#1 := (sub_field f4 10 1 (by decide)).trans (by decide)
  show decodeMajor z (z.extractLsb' 26 6).toNat = _
  rw [f0]
  show decodeMajor28 z (z.extractLsb' 5 5).toNat = _
  rw [s0]
  simp [decodeMajor28, mbz, fa, fb, fd, legal, hw, s1, s2, f1, f2, f3]
theorem vredXor (d : BitVec 5) (a : BitVec 5) (b : BitVec 5) : Statement (.vredXor d a b) := by
  intro z h hw
  obtain ⟨f0, f1, f2, f3, f4⟩ := fields_6_5_5_5_11 z (h := Option.some.inj h)
  have s0 : z.extractLsb' 5 5 = 5#5 := (sub_field f4 5 5 (by decide)).trans (by decide)
  have s1 : z.extractLsb' 0 5 = 0#5 := (sub_field f4 0 5 (by decide)).trans (by decide)
  have s2 : z.extractLsb' 10 1 = 0#1 := (sub_field f4 10 1 (by decide)).trans (by decide)
  show decodeMajor z (z.extractLsb' 26 6).toNat = _
  rw [f0]
  show decodeMajor28 z (z.extractLsb' 5 5).toNat = _
  rw [s0]
  simp [decodeMajor28, mbz, fa, fb, fd, legal, hw, s1, s2, f1, f2, f3]
theorem vredSumo (d : BitVec 5) (a : BitVec 5) (b : BitVec 5) : Statement (.vredSumo d a b) := by
  intro z h hw
  obtain ⟨f0, f1, f2, f3, f4⟩ := fields_6_5_5_5_11 z (h := Option.some.inj h)
  have s0 : z.extractLsb' 5 5 = 6#5 := (sub_field f4 5 5 (by decide)).trans (by decide)
  have s1 : z.extractLsb' 0 5 = 0#5 := (sub_field f4 0 5 (by decide)).trans (by decide)
  have s2 : z.extractLsb' 10 1 = 0#1 := (sub_field f4 10 1 (by decide)).trans (by decide)
  show decodeMajor z (z.extractLsb' 26 6).toNat = _
  rw [f0]
  show decodeMajor28 z (z.extractLsb' 5 5).toNat = _
  rw [s0]
  simp [decodeMajor28, mbz, fa, fb, fd, legal, hw, s1, s2, f1, f2, f3]
theorem mand (d : BitVec 3) (a : BitVec 3) (b : BitVec 3) : Statement (.mand d a b) := by
  intro z h hw
  obtain ⟨f0, f1, f2, f3, f4, f5, f6⟩ := fields_8_3_2_3_2_3_11 z (h := Option.some.inj h)
  have s0 : z.extractLsb' 26 6 = 41#6 := (sub_field f0 2 6 (by decide)).trans (by decide)
  have s1 : z.extractLsb' 5 5 = 0#5 := (sub_field f6 5 5 (by decide)).trans (by decide)
  have s2 : z.extractLsb' 0 5 = 0#5 := (sub_field f6 0 5 (by decide)).trans (by decide)
  have s3 : z.extractLsb' 10 1 = 0#1 := (sub_field f6 10 1 (by decide)).trans (by decide)
  have s4 : z.extractLsb' 24 2 = 0#2 := (sub_field f0 0 2 (by decide)).trans (by decide)
  show decodeMajor z (z.extractLsb' 26 6).toNat = _
  rw [s0]
  show decodeMajor29 z (z.extractLsb' 5 5).toNat = _
  rw [s1]
  simp [decodeMajor29, mbz, legal, hw, s2, s3, f4, f2, s4, f1, f3, f5]
theorem mor (d : BitVec 3) (a : BitVec 3) (b : BitVec 3) : Statement (.mor d a b) := by
  intro z h hw
  obtain ⟨f0, f1, f2, f3, f4, f5, f6⟩ := fields_8_3_2_3_2_3_11 z (h := Option.some.inj h)
  have s0 : z.extractLsb' 26 6 = 41#6 := (sub_field f0 2 6 (by decide)).trans (by decide)
  have s1 : z.extractLsb' 5 5 = 1#5 := (sub_field f6 5 5 (by decide)).trans (by decide)
  have s2 : z.extractLsb' 0 5 = 0#5 := (sub_field f6 0 5 (by decide)).trans (by decide)
  have s3 : z.extractLsb' 10 1 = 0#1 := (sub_field f6 10 1 (by decide)).trans (by decide)
  have s4 : z.extractLsb' 24 2 = 0#2 := (sub_field f0 0 2 (by decide)).trans (by decide)
  show decodeMajor z (z.extractLsb' 26 6).toNat = _
  rw [s0]
  show decodeMajor29 z (z.extractLsb' 5 5).toNat = _
  rw [s1]
  simp [decodeMajor29, mbz, legal, hw, s2, s3, f4, f2, s4, f1, f3, f5]
theorem mxor (d : BitVec 3) (a : BitVec 3) (b : BitVec 3) : Statement (.mxor d a b) := by
  intro z h hw
  obtain ⟨f0, f1, f2, f3, f4, f5, f6⟩ := fields_8_3_2_3_2_3_11 z (h := Option.some.inj h)
  have s0 : z.extractLsb' 26 6 = 41#6 := (sub_field f0 2 6 (by decide)).trans (by decide)
  have s1 : z.extractLsb' 5 5 = 2#5 := (sub_field f6 5 5 (by decide)).trans (by decide)
  have s2 : z.extractLsb' 0 5 = 0#5 := (sub_field f6 0 5 (by decide)).trans (by decide)
  have s3 : z.extractLsb' 10 1 = 0#1 := (sub_field f6 10 1 (by decide)).trans (by decide)
  have s4 : z.extractLsb' 24 2 = 0#2 := (sub_field f0 0 2 (by decide)).trans (by decide)
  show decodeMajor z (z.extractLsb' 26 6).toNat = _
  rw [s0]
  show decodeMajor29 z (z.extractLsb' 5 5).toNat = _
  rw [s1]
  simp [decodeMajor29, mbz, legal, hw, s2, s3, f4, f2, s4, f1, f3, f5]
theorem mandn (d : BitVec 3) (a : BitVec 3) (b : BitVec 3) : Statement (.mandn d a b) := by
  intro z h hw
  obtain ⟨f0, f1, f2, f3, f4, f5, f6⟩ := fields_8_3_2_3_2_3_11 z (h := Option.some.inj h)
  have s0 : z.extractLsb' 26 6 = 41#6 := (sub_field f0 2 6 (by decide)).trans (by decide)
  have s1 : z.extractLsb' 5 5 = 3#5 := (sub_field f6 5 5 (by decide)).trans (by decide)
  have s2 : z.extractLsb' 0 5 = 0#5 := (sub_field f6 0 5 (by decide)).trans (by decide)
  have s3 : z.extractLsb' 10 1 = 0#1 := (sub_field f6 10 1 (by decide)).trans (by decide)
  have s4 : z.extractLsb' 24 2 = 0#2 := (sub_field f0 0 2 (by decide)).trans (by decide)
  show decodeMajor z (z.extractLsb' 26 6).toNat = _
  rw [s0]
  show decodeMajor29 z (z.extractLsb' 5 5).toNat = _
  rw [s1]
  simp [decodeMajor29, mbz, legal, hw, s2, s3, f4, f2, s4, f1, f3, f5]
theorem mnot (d : BitVec 3) (a : BitVec 3) : Statement (.mnot d a) := by
  intro z h hw
  obtain ⟨f0, f1, f2, f3, f4⟩ := fields_8_3_2_3_16 z (h := Option.some.inj h)
  have s0 : z.extractLsb' 26 6 = 41#6 := (sub_field f0 2 6 (by decide)).trans (by decide)
  have s1 : z.extractLsb' 5 5 = 4#5 := (sub_field f4 5 5 (by decide)).trans (by decide)
  have s2 : z.extractLsb' 0 5 = 0#5 := (sub_field f4 0 5 (by decide)).trans (by decide)
  have s3 : z.extractLsb' 10 6 = 0#6 := (sub_field f4 10 6 (by decide)).trans (by decide)
  have s4 : z.extractLsb' 24 2 = 0#2 := (sub_field f0 0 2 (by decide)).trans (by decide)
  show decodeMajor z (z.extractLsb' 26 6).toNat = _
  rw [s0]
  show decodeMajor29 z (z.extractLsb' 5 5).toNat = _
  rw [s1]
  simp [decodeMajor29, mbz, legal, hw, s2, s3, f2, s4, f1, f3]
theorem mcnt (d : BitVec 5) (a : BitVec 3) : Statement (.mcnt d a) := by
  intro z h hw
  obtain ⟨f0, f1, f2, f3, f4⟩ := fields_6_5_2_3_16 z (h := Option.some.inj h)
  have s0 : z.extractLsb' 5 5 = 5#5 := (sub_field f4 5 5 (by decide)).trans (by decide)
  have s1 : z.extractLsb' 0 5 = 0#5 := (sub_field f4 0 5 (by decide)).trans (by decide)
  have s2 : z.extractLsb' 10 6 = 0#6 := (sub_field f4 10 6 (by decide)).trans (by decide)
  show decodeMajor z (z.extractLsb' 26 6).toNat = _
  rw [f0]
  show decodeMajor29 z (z.extractLsb' 5 5).toNat = _
  rw [s0]
  simp [decodeMajor29, mbz, fd, legal, hw, s1, s2, f2, f1, f3]
theorem mfirst (d : BitVec 5) (a : BitVec 3) : Statement (.mfirst d a) := by
  intro z h hw
  obtain ⟨f0, f1, f2, f3, f4⟩ := fields_6_5_2_3_16 z (h := Option.some.inj h)
  have s0 : z.extractLsb' 5 5 = 6#5 := (sub_field f4 5 5 (by decide)).trans (by decide)
  have s1 : z.extractLsb' 0 5 = 0#5 := (sub_field f4 0 5 (by decide)).trans (by decide)
  have s2 : z.extractLsb' 10 6 = 0#6 := (sub_field f4 10 6 (by decide)).trans (by decide)
  show decodeMajor z (z.extractLsb' 26 6).toNat = _
  rw [f0]
  show decodeMajor29 z (z.extractLsb' 5 5).toNat = _
  rw [s0]
  simp [decodeMajor29, mbz, fd, legal, hw, s1, s2, f2, f1, f3]
theorem mtil (d : BitVec 3) (a : BitVec 3) : Statement (.mtil d a) := by
  intro z h hw
  obtain ⟨f0, f1, f2, f3, f4⟩ := fields_8_3_2_3_16 z (h := Option.some.inj h)
  have s0 : z.extractLsb' 26 6 = 41#6 := (sub_field f0 2 6 (by decide)).trans (by decide)
  have s1 : z.extractLsb' 5 5 = 7#5 := (sub_field f4 5 5 (by decide)).trans (by decide)
  have s2 : z.extractLsb' 0 5 = 0#5 := (sub_field f4 0 5 (by decide)).trans (by decide)
  have s3 : z.extractLsb' 10 6 = 0#6 := (sub_field f4 10 6 (by decide)).trans (by decide)
  have s4 : z.extractLsb' 24 2 = 0#2 := (sub_field f0 0 2 (by decide)).trans (by decide)
  show decodeMajor z (z.extractLsb' 26 6).toNat = _
  rw [s0]
  show decodeMajor29 z (z.extractLsb' 5 5).toNat = _
  rw [s1]
  simp [decodeMajor29, mbz, legal, hw, s2, s3, f2, s4, f1, f3]
theorem mtili (d : BitVec 3) (a : BitVec 3) : Statement (.mtili d a) := by
  intro z h hw
  obtain ⟨f0, f1, f2, f3, f4⟩ := fields_8_3_2_3_16 z (h := Option.some.inj h)
  have s0 : z.extractLsb' 26 6 = 41#6 := (sub_field f0 2 6 (by decide)).trans (by decide)
  have s1 : z.extractLsb' 5 5 = 8#5 := (sub_field f4 5 5 (by decide)).trans (by decide)
  have s2 : z.extractLsb' 0 5 = 0#5 := (sub_field f4 0 5 (by decide)).trans (by decide)
  have s3 : z.extractLsb' 10 6 = 0#6 := (sub_field f4 10 6 (by decide)).trans (by decide)
  have s4 : z.extractLsb' 24 2 = 0#2 := (sub_field f0 0 2 (by decide)).trans (by decide)
  show decodeMajor z (z.extractLsb' 26 6).toNat = _
  rw [s0]
  show decodeMajor29 z (z.extractLsb' 5 5).toNat = _
  rw [s1]
  simp [decodeMajor29, mbz, legal, hw, s2, s3, f2, s4, f1, f3]
theorem mset (d : BitVec 3) : Statement (.mset d) := by
  intro z h hw
  obtain ⟨f0, f1, f2⟩ := fields_8_3_21 z (h := Option.some.inj h)
  have s0 : z.extractLsb' 26 6 = 41#6 := (sub_field f0 2 6 (by decide)).trans (by decide)
  have s1 : z.extractLsb' 5 5 = 9#5 := (sub_field f2 5 5 (by decide)).trans (by decide)
  have s2 : z.extractLsb' 0 5 = 0#5 := (sub_field f2 0 5 (by decide)).trans (by decide)
  have s3 : z.extractLsb' 10 11 = 0#11 := (sub_field f2 10 11 (by decide)).trans (by decide)
  have s4 : z.extractLsb' 24 2 = 0#2 := (sub_field f0 0 2 (by decide)).trans (by decide)
  show decodeMajor z (z.extractLsb' 26 6).toNat = _
  rw [s0]
  show decodeMajor29 z (z.extractLsb' 5 5).toNat = _
  rw [s1]
  simp [decodeMajor29, mbz, legal, hw, s2, s3, s4, f1]
theorem mclr (d : BitVec 3) : Statement (.mclr d) := by
  intro z h hw
  obtain ⟨f0, f1, f2⟩ := fields_8_3_21 z (h := Option.some.inj h)
  have s0 : z.extractLsb' 26 6 = 41#6 := (sub_field f0 2 6 (by decide)).trans (by decide)
  have s1 : z.extractLsb' 5 5 = 10#5 := (sub_field f2 5 5 (by decide)).trans (by decide)
  have s2 : z.extractLsb' 0 5 = 0#5 := (sub_field f2 0 5 (by decide)).trans (by decide)
  have s3 : z.extractLsb' 10 11 = 0#11 := (sub_field f2 10 11 (by decide)).trans (by decide)
  have s4 : z.extractLsb' 24 2 = 0#2 := (sub_field f0 0 2 (by decide)).trans (by decide)
  show decodeMajor z (z.extractLsb' 26 6).toNat = _
  rw [s0]
  show decodeMajor29 z (z.extractLsb' 5 5).toNat = _
  rw [s1]
  simp [decodeMajor29, mbz, legal, hw, s2, s3, s4, f1]
theorem mmovs (d : BitVec 5) (a : BitVec 3) : Statement (.mmovs d a) := by
  intro z h hw
  obtain ⟨f0, f1, f2, f3, f4⟩ := fields_6_5_2_3_16 z (h := Option.some.inj h)
  have s0 : z.extractLsb' 5 5 = 11#5 := (sub_field f4 5 5 (by decide)).trans (by decide)
  have s1 : z.extractLsb' 0 5 = 0#5 := (sub_field f4 0 5 (by decide)).trans (by decide)
  have s2 : z.extractLsb' 10 6 = 0#6 := (sub_field f4 10 6 (by decide)).trans (by decide)
  show decodeMajor z (z.extractLsb' 26 6).toNat = _
  rw [f0]
  show decodeMajor29 z (z.extractLsb' 5 5).toNat = _
  rw [s0]
  simp [decodeMajor29, mbz, fd, legal, hw, s1, s2, f2, f1, f3]
theorem mmovk (d : BitVec 3) (a : BitVec 5) : Statement (.mmovk d a) := by
  intro z h hw
  obtain ⟨f0, f1, f2, f3⟩ := fields_8_3_5_16 z (h := Option.some.inj h)
  have s0 : z.extractLsb' 26 6 = 41#6 := (sub_field f0 2 6 (by decide)).trans (by decide)
  have s1 : z.extractLsb' 5 5 = 12#5 := (sub_field f3 5 5 (by decide)).trans (by decide)
  have s2 : z.extractLsb' 0 5 = 0#5 := (sub_field f3 0 5 (by decide)).trans (by decide)
  have s3 : z.extractLsb' 10 6 = 0#6 := (sub_field f3 10 6 (by decide)).trans (by decide)
  have s4 : z.extractLsb' 24 2 = 0#2 := (sub_field f0 0 2 (by decide)).trans (by decide)
  show decodeMajor z (z.extractLsb' 26 6).toNat = _
  rw [s0]
  show decodeMajor29 z (z.extractLsb' 5 5).toNat = _
  rw [s1]
  simp [decodeMajor29, mbz, fa, legal, hw, s2, s3, s4, f1, f2]
theorem vld (d : BitVec 5) (a : BitVec 5) : Statement (.vld d a) := by
  intro z h hw
  obtain ⟨f0, f1, f2, f3⟩ := fields_6_5_5_16 z (h := Option.some.inj h)
  have s0 : z.extractLsb' 5 5 = 0#5 := (sub_field f3 5 5 (by decide)).trans (by decide)
  have s1 : z.extractLsb' 0 5 = 0#5 := (sub_field f3 0 5 (by decide)).trans (by decide)
  have s2 : z.extractLsb' 10 6 = 0#6 := (sub_field f3 10 6 (by decide)).trans (by decide)
  show decodeMajor z (z.extractLsb' 26 6).toNat = _
  rw [f0]
  show decodeMajor2A z (z.extractLsb' 5 5).toNat = _
  rw [s0]
  simp [decodeMajor2A, mbz, fa, fd, legal, hw, s1, s2, f1, f2]
theorem vlds (d : BitVec 5) (a : BitVec 5) (b : BitVec 5) : Statement (.vlds d a b) := by
  intro z h hw
  obtain ⟨f0, f1, f2, f3, f4⟩ := fields_6_5_5_5_11 z (h := Option.some.inj h)
  have s0 : z.extractLsb' 5 5 = 1#5 := (sub_field f4 5 5 (by decide)).trans (by decide)
  have s1 : z.extractLsb' 0 5 = 0#5 := (sub_field f4 0 5 (by decide)).trans (by decide)
  have s2 : z.extractLsb' 10 1 = 0#1 := (sub_field f4 10 1 (by decide)).trans (by decide)
  show decodeMajor z (z.extractLsb' 26 6).toNat = _
  rw [f0]
  show decodeMajor2A z (z.extractLsb' 5 5).toNat = _
  rw [s0]
  simp [decodeMajor2A, mbz, fa, fb, fd, legal, hw, s1, s2, f1, f2, f3]
theorem vldx (d : BitVec 5) (a : BitVec 5) (b : BitVec 5) : Statement (.vldx d a b) := by
  intro z h hw
  obtain ⟨f0, f1, f2, f3, f4⟩ := fields_6_5_5_5_11 z (h := Option.some.inj h)
  have s0 : z.extractLsb' 5 5 = 2#5 := (sub_field f4 5 5 (by decide)).trans (by decide)
  have s1 : z.extractLsb' 0 5 = 0#5 := (sub_field f4 0 5 (by decide)).trans (by decide)
  have s2 : z.extractLsb' 10 1 = 0#1 := (sub_field f4 10 1 (by decide)).trans (by decide)
  show decodeMajor z (z.extractLsb' 26 6).toNat = _
  rw [f0]
  show decodeMajor2A z (z.extractLsb' 5 5).toNat = _
  rw [s0]
  simp [decodeMajor2A, mbz, fa, fb, fd, legal, hw, s1, s2, f1, f2, f3]
theorem vldf (d : BitVec 5) (a : BitVec 5) : Statement (.vldf d a) := by
  intro z h hw
  obtain ⟨f0, f1, f2, f3⟩ := fields_6_5_5_16 z (h := Option.some.inj h)
  have s0 : z.extractLsb' 5 5 = 3#5 := (sub_field f3 5 5 (by decide)).trans (by decide)
  have s1 : z.extractLsb' 0 5 = 0#5 := (sub_field f3 0 5 (by decide)).trans (by decide)
  have s2 : z.extractLsb' 10 6 = 0#6 := (sub_field f3 10 6 (by decide)).trans (by decide)
  show decodeMajor z (z.extractLsb' 26 6).toNat = _
  rw [f0]
  show decodeMajor2A z (z.extractLsb' 5 5).toNat = _
  rw [s0]
  simp [decodeMajor2A, mbz, fa, fd, legal, hw, s1, s2, f1, f2]
theorem vst (d : BitVec 5) (a : BitVec 5) : Statement (.vst d a) := by
  intro z h hw
  obtain ⟨f0, f1, f2, f3⟩ := fields_6_5_5_16 z (h := Option.some.inj h)
  have s0 : z.extractLsb' 5 5 = 0#5 := (sub_field f3 5 5 (by decide)).trans (by decide)
  have s1 : z.extractLsb' 0 5 = 0#5 := (sub_field f3 0 5 (by decide)).trans (by decide)
  have s2 : z.extractLsb' 10 6 = 0#6 := (sub_field f3 10 6 (by decide)).trans (by decide)
  show decodeMajor z (z.extractLsb' 26 6).toNat = _
  rw [f0]
  show decodeMajor2B z (z.extractLsb' 5 5).toNat = _
  rw [s0]
  simp [decodeMajor2B, mbz, fa, fd, legal, hw, s1, s2, f1, f2]
theorem vsts (d : BitVec 5) (a : BitVec 5) (b : BitVec 5) : Statement (.vsts d a b) := by
  intro z h hw
  obtain ⟨f0, f1, f2, f3, f4⟩ := fields_6_5_5_5_11 z (h := Option.some.inj h)
  have s0 : z.extractLsb' 5 5 = 1#5 := (sub_field f4 5 5 (by decide)).trans (by decide)
  have s1 : z.extractLsb' 0 5 = 0#5 := (sub_field f4 0 5 (by decide)).trans (by decide)
  have s2 : z.extractLsb' 10 1 = 0#1 := (sub_field f4 10 1 (by decide)).trans (by decide)
  show decodeMajor z (z.extractLsb' 26 6).toNat = _
  rw [f0]
  show decodeMajor2B z (z.extractLsb' 5 5).toNat = _
  rw [s0]
  simp [decodeMajor2B, mbz, fa, fb, fd, legal, hw, s1, s2, f1, f2, f3]
theorem vstx (d : BitVec 5) (a : BitVec 5) (b : BitVec 5) : Statement (.vstx d a b) := by
  intro z h hw
  obtain ⟨f0, f1, f2, f3, f4⟩ := fields_6_5_5_5_11 z (h := Option.some.inj h)
  have s0 : z.extractLsb' 5 5 = 2#5 := (sub_field f4 5 5 (by decide)).trans (by decide)
  have s1 : z.extractLsb' 0 5 = 0#5 := (sub_field f4 0 5 (by decide)).trans (by decide)
  have s2 : z.extractLsb' 10 1 = 0#1 := (sub_field f4 10 1 (by decide)).trans (by decide)
  show decodeMajor z (z.extractLsb' 26 6).toNat = _
  rw [f0]
  show decodeMajor2B z (z.extractLsb' 5 5).toNat = _
  rw [s0]
  simp [decodeMajor2B, mbz, fa, fb, fd, legal, hw, s1, s2, f1, f2, f3]
theorem vamoAdd (d : BitVec 5) (a : BitVec 5) (b : BitVec 5) (w : BitVec 1) (c : BitVec 5) : Statement (.vamoAdd d a b w c) := by
  intro z h hw
  obtain ⟨f0, f1, f2, f3, f4, f5, f6⟩ := fields_6_5_5_5_1_5_5 z (h := Option.some.inj h)
  show decodeMajor z (z.extractLsb' 26 6).toNat = _
  rw [f0]
  show decodeMajor2C z (z.extractLsb' 5 5).toNat = _
  rw [f5]
  simp [decodeMajor2C, fa, fb, fc, fd, fx, legal, hw, f1, f2, f3, f4, f6]
theorem vamoAnd (d : BitVec 5) (a : BitVec 5) (b : BitVec 5) (w : BitVec 1) (c : BitVec 5) : Statement (.vamoAnd d a b w c) := by
  intro z h hw
  obtain ⟨f0, f1, f2, f3, f4, f5, f6⟩ := fields_6_5_5_5_1_5_5 z (h := Option.some.inj h)
  show decodeMajor z (z.extractLsb' 26 6).toNat = _
  rw [f0]
  show decodeMajor2C z (z.extractLsb' 5 5).toNat = _
  rw [f5]
  simp [decodeMajor2C, fa, fb, fc, fd, fx, legal, hw, f1, f2, f3, f4, f6]
theorem vamoOr (d : BitVec 5) (a : BitVec 5) (b : BitVec 5) (w : BitVec 1) (c : BitVec 5) : Statement (.vamoOr d a b w c) := by
  intro z h hw
  obtain ⟨f0, f1, f2, f3, f4, f5, f6⟩ := fields_6_5_5_5_1_5_5 z (h := Option.some.inj h)
  show decodeMajor z (z.extractLsb' 26 6).toNat = _
  rw [f0]
  show decodeMajor2C z (z.extractLsb' 5 5).toNat = _
  rw [f5]
  simp [decodeMajor2C, fa, fb, fc, fd, fx, legal, hw, f1, f2, f3, f4, f6]
theorem vamoXor (d : BitVec 5) (a : BitVec 5) (b : BitVec 5) (w : BitVec 1) (c : BitVec 5) : Statement (.vamoXor d a b w c) := by
  intro z h hw
  obtain ⟨f0, f1, f2, f3, f4, f5, f6⟩ := fields_6_5_5_5_1_5_5 z (h := Option.some.inj h)
  show decodeMajor z (z.extractLsb' 26 6).toNat = _
  rw [f0]
  show decodeMajor2C z (z.extractLsb' 5 5).toNat = _
  rw [f5]
  simp [decodeMajor2C, fa, fb, fc, fd, fx, legal, hw, f1, f2, f3, f4, f6]
theorem vamoMin (d : BitVec 5) (a : BitVec 5) (b : BitVec 5) (w : BitVec 1) (c : BitVec 5) : Statement (.vamoMin d a b w c) := by
  intro z h hw
  obtain ⟨f0, f1, f2, f3, f4, f5, f6⟩ := fields_6_5_5_5_1_5_5 z (h := Option.some.inj h)
  show decodeMajor z (z.extractLsb' 26 6).toNat = _
  rw [f0]
  show decodeMajor2C z (z.extractLsb' 5 5).toNat = _
  rw [f5]
  simp [decodeMajor2C, fa, fb, fc, fd, fx, legal, hw, f1, f2, f3, f4, f6]
theorem vamoMax (d : BitVec 5) (a : BitVec 5) (b : BitVec 5) (w : BitVec 1) (c : BitVec 5) : Statement (.vamoMax d a b w c) := by
  intro z h hw
  obtain ⟨f0, f1, f2, f3, f4, f5, f6⟩ := fields_6_5_5_5_1_5_5 z (h := Option.some.inj h)
  show decodeMajor z (z.extractLsb' 26 6).toNat = _
  rw [f0]
  show decodeMajor2C z (z.extractLsb' 5 5).toNat = _
  rw [f5]
  simp [decodeMajor2C, fa, fb, fc, fd, fx, legal, hw, f1, f2, f3, f4, f6]
theorem vamoMinn (d : BitVec 5) (a : BitVec 5) (b : BitVec 5) (w : BitVec 1) (c : BitVec 5) : Statement (.vamoMinn d a b w c) := by
  intro z h hw
  obtain ⟨f0, f1, f2, f3, f4, f5, f6⟩ := fields_6_5_5_5_1_5_5 z (h := Option.some.inj h)
  show decodeMajor z (z.extractLsb' 26 6).toNat = _
  rw [f0]
  show decodeMajor2C z (z.extractLsb' 5 5).toNat = _
  rw [f5]
  simp [decodeMajor2C, fa, fb, fc, fd, fx, legal, hw, f1, f2, f3, f4, f6]
theorem vamoMaxn (d : BitVec 5) (a : BitVec 5) (b : BitVec 5) (w : BitVec 1) (c : BitVec 5) : Statement (.vamoMaxn d a b w c) := by
  intro z h hw
  obtain ⟨f0, f1, f2, f3, f4, f5, f6⟩ := fields_6_5_5_5_1_5_5 z (h := Option.some.inj h)
  show decodeMajor z (z.extractLsb' 26 6).toNat = _
  rw [f0]
  show decodeMajor2C z (z.extractLsb' 5 5).toNat = _
  rw [f5]
  simp [decodeMajor2C, fa, fb, fc, fd, fx, legal, hw, f1, f2, f3, f4, f6]
theorem vamoSwap (d : BitVec 5) (a : BitVec 5) (b : BitVec 5) (w : BitVec 1) (c : BitVec 5) : Statement (.vamoSwap d a b w c) := by
  intro z h hw
  obtain ⟨f0, f1, f2, f3, f4, f5, f6⟩ := fields_6_5_5_5_1_5_5 z (h := Option.some.inj h)
  show decodeMajor z (z.extractLsb' 26 6).toNat = _
  rw [f0]
  show decodeMajor2C z (z.extractLsb' 5 5).toNat = _
  rw [f5]
  simp [decodeMajor2C, fa, fb, fc, fd, fx, legal, hw, f1, f2, f3, f4, f6]
theorem vamoFadd (d : BitVec 5) (a : BitVec 5) (b : BitVec 5) (w : BitVec 1) (c : BitVec 5) : Statement (.vamoFadd d a b w c) := by
  intro z h hw
  obtain ⟨f0, f1, f2, f3, f4, f5, f6⟩ := fields_6_5_5_5_1_5_5 z (h := Option.some.inj h)
  show decodeMajor z (z.extractLsb' 26 6).toNat = _
  rw [f0]
  show decodeMajor2C z (z.extractLsb' 5 5).toNat = _
  rw [f5]
  simp [decodeMajor2C, fa, fb, fc, fd, fx, legal, hw, f1, f2, f3, f4, f6]
theorem sbind (d : BitVec 5) (a : BitVec 5) : Statement (.sbind d a) := by
  intro z h hw
  obtain ⟨f0, f1, f2, f3⟩ := fields_6_5_5_16 z (h := Option.some.inj h)
  have s0 : z.extractLsb' 12 4 = 0#4 := (sub_field f3 12 4 (by decide)).trans (by decide)
  have s1 : z.extractLsb' 0 12 = 0#12 := (sub_field f3 0 12 (by decide)).trans (by decide)
  show decodeMajor z (z.extractLsb' 26 6).toNat = _
  rw [f0]
  show decodeMajor2D z (z.extractLsb' 12 4).toNat = _
  rw [s0]
  simp [decodeMajor2D, mbz, fa, fd, legal, hw, s1, f1, f2]
theorem sunb (d : BitVec 5) : Statement (.sunb d) := by
  intro z h hw
  obtain ⟨f0, f1, f2⟩ := fields_6_5_21 z (h := Option.some.inj h)
  have s0 : z.extractLsb' 12 4 = 1#4 := (sub_field f2 12 4 (by decide)).trans (by decide)
  have s1 : z.extractLsb' 0 12 = 0#12 := (sub_field f2 0 12 (by decide)).trans (by decide)
  have s2 : z.extractLsb' 16 5 = 0#5 := (sub_field f2 16 5 (by decide)).trans (by decide)
  show decodeMajor z (z.extractLsb' 26 6).toNat = _
  rw [f0]
  show decodeMajor2D z (z.extractLsb' 12 4).toNat = _
  rw [s0]
  simp [decodeMajor2D, mbz, fd, legal, hw, s1, s2, f1]
theorem sqry (d : BitVec 5) (a : BitVec 5) : Statement (.sqry d a) := by
  intro z h hw
  obtain ⟨f0, f1, f2, f3⟩ := fields_6_5_5_16 z (h := Option.some.inj h)
  have s0 : z.extractLsb' 12 4 = 2#4 := (sub_field f3 12 4 (by decide)).trans (by decide)
  have s1 : z.extractLsb' 0 12 = 0#12 := (sub_field f3 0 12 (by decide)).trans (by decide)
  show decodeMajor z (z.extractLsb' 26 6).toNat = _
  rw [f0]
  show decodeMajor2D z (z.extractLsb' 12 4).toNat = _
  rw [s0]
  simp [decodeMajor2D, mbz, fa, fd, legal, hw, s1, f1, f2]
theorem settile (d : BitVec 5) (a : BitVec 5) : Statement (.settile d a) := by
  intro z h hw
  obtain ⟨f0, f1, f2, f3⟩ := fields_6_5_5_16 z (h := Option.some.inj h)
  have s0 : z.extractLsb' 12 4 = 0#4 := (sub_field f3 12 4 (by decide)).trans (by decide)
  have s1 : z.extractLsb' 0 12 = 0#12 := (sub_field f3 0 12 (by decide)).trans (by decide)
  show decodeMajor z (z.extractLsb' 26 6).toNat = _
  rw [f0]
  show decodeMajor30 z (z.extractLsb' 12 4).toNat = _
  rw [s0]
  simp [decodeMajor30, mbz, fa, fd, legal, hw, s1, f1, f2]
theorem tileq (d : BitVec 5) (a : BitVec 5) : Statement (.tileq d a) := by
  intro z h hw
  obtain ⟨f0, f1, f2, f3⟩ := fields_6_5_5_16 z (h := Option.some.inj h)
  have s0 : z.extractLsb' 12 4 = 1#4 := (sub_field f3 12 4 (by decide)).trans (by decide)
  have s1 : z.extractLsb' 0 12 = 0#12 := (sub_field f3 0 12 (by decide)).trans (by decide)
  show decodeMajor z (z.extractLsb' 26 6).toNat = _
  rw [f0]
  show decodeMajor30 z (z.extractLsb' 12 4).toNat = _
  rw [s0]
  simp [decodeMajor30, mbz, fa, fd, legal, hw, s1, f1, f2]
theorem oclaim (d : BitVec 5) (nw : BitVec 1) (role : BitVec 1) : Statement (.oclaim d nw role) := by
  intro z h hw
  obtain ⟨f0, f1, f2, f3, f4⟩ := fields_6_5_19_1_1 z (h := Option.some.inj h)
  have s0 : z.extractLsb' 12 4 = 0#4 := (sub_field f2 10 4 (by decide)).trans (by decide)
  have s1 : z.extractLsb' 2 10 = 0#10 := (sub_field f2 0 10 (by decide)).trans (by decide)
  have s2 : z.extractLsb' 16 5 = 0#5 := (sub_field f2 14 5 (by decide)).trans (by decide)
  show decodeMajor z (z.extractLsb' 26 6).toNat = _
  rw [f0]
  show decodeMajor31 z (z.extractLsb' 12 4).toNat = _
  rw [s0]
  simp [decodeMajor31, mbz, fd, legal, hw, s1, s2, f1, f3, f4]
theorem orls (a : BitVec 5) : Statement (.orls a) := by
  intro z h hw
  obtain ⟨f0, f1, f2⟩ := fields_11_5_16 z (h := Option.some.inj h)
  have s0 : z.extractLsb' 26 6 = 49#6 := (sub_field f0 5 6 (by decide)).trans (by decide)
  have s1 : z.extractLsb' 12 4 = 1#4 := (sub_field f2 12 4 (by decide)).trans (by decide)
  have s2 : z.extractLsb' 0 12 = 0#12 := (sub_field f2 0 12 (by decide)).trans (by decide)
  have s3 : z.extractLsb' 21 5 = 0#5 := (sub_field f0 0 5 (by decide)).trans (by decide)
  show decodeMajor z (z.extractLsb' 26 6).toNat = _
  rw [s0]
  show decodeMajor31 z (z.extractLsb' 12 4).toNat = _
  rw [s1]
  simp [decodeMajor31, mbz, fa, legal, hw, s2, s3, f1]
theorem ofill (d : BitVec 5) (a : BitVec 5) : Statement (.ofill d a) := by
  intro z h hw
  obtain ⟨f0, f1, f2, f3⟩ := fields_6_5_5_16 z (h := Option.some.inj h)
  have s0 : z.extractLsb' 12 4 = 2#4 := (sub_field f3 12 4 (by decide)).trans (by decide)
  have s1 : z.extractLsb' 0 12 = 0#12 := (sub_field f3 0 12 (by decide)).trans (by decide)
  show decodeMajor z (z.extractLsb' 26 6).toNat = _
  rw [f0]
  show decodeMajor31 z (z.extractLsb' 12 4).toNat = _
  rw [s0]
  simp [decodeMajor31, mbz, fa, fd, legal, hw, s1, f1, f2]
theorem oqry (d : BitVec 5) (a : BitVec 5) : Statement (.oqry d a) := by
  intro z h hw
  obtain ⟨f0, f1, f2, f3⟩ := fields_6_5_5_16 z (h := Option.some.inj h)
  have s0 : z.extractLsb' 12 4 = 3#4 := (sub_field f3 12 4 (by decide)).trans (by decide)
  have s1 : z.extractLsb' 0 12 = 0#12 := (sub_field f3 0 12 (by decide)).trans (by decide)
  show decodeMajor z (z.extractLsb' 26 6).toNat = _
  rw [f0]
  show decodeMajor31 z (z.extractLsb' 12 4).toNat = _
  rw [s0]
  simp [decodeMajor31, mbz, fa, fd, legal, hw, s1, f1, f2]
theorem mma (d : BitVec 2) (a : BitVec 5) (b : BitVec 5) (hi : BitVec 1) : Statement (.mma d a b hi) := by
  intro z h hw
  obtain ⟨f0, f1, f2, f3, f4, f5⟩ := fields_9_2_5_5_1_10 z (h := Option.some.inj h)
  have s0 : z.extractLsb' 26 6 = 50#6 := (sub_field f0 3 6 (by decide)).trans (by decide)
  have s1 : z.extractLsb' 5 5 = 0#5 := (sub_field f5 5 5 (by decide)).trans (by decide)
  have s2 : z.extractLsb' 0 5 = 0#5 := (sub_field f5 0 5 (by decide)).trans (by decide)
  have s3 : z.extractLsb' 23 3 = 0#3 := (sub_field f0 0 3 (by decide)).trans (by decide)
  show decodeMajor z (z.extractLsb' 26 6).toNat = _
  rw [s0]
  show decodeMajor32 z (z.extractLsb' 5 5).toNat = _
  rw [s1]
  simp [decodeMajor32, mbz, fa, fb, fx, legal, hw, s2, s3, f1, f2, f3, f4]
theorem mmas (d : BitVec 2) (a : BitVec 5) (b : BitVec 5) (hi : BitVec 1) : Statement (.mmas d a b hi) := by
  intro z h hw
  obtain ⟨f0, f1, f2, f3, f4, f5⟩ := fields_9_2_5_5_1_10 z (h := Option.some.inj h)
  have s0 : z.extractLsb' 26 6 = 50#6 := (sub_field f0 3 6 (by decide)).trans (by decide)
  have s1 : z.extractLsb' 5 5 = 1#5 := (sub_field f5 5 5 (by decide)).trans (by decide)
  have s2 : z.extractLsb' 0 5 = 0#5 := (sub_field f5 0 5 (by decide)).trans (by decide)
  have s3 : z.extractLsb' 23 3 = 0#3 := (sub_field f0 0 3 (by decide)).trans (by decide)
  show decodeMajor z (z.extractLsb' 26 6).toNat = _
  rw [s0]
  show decodeMajor32 z (z.extractLsb' 5 5).toNat = _
  rw [s1]
  simp [decodeMajor32, mbz, fa, fb, fx, legal, hw, s2, s3, f1, f2, f3, f4]
theorem mmaz (d : BitVec 2) (a : BitVec 5) (b : BitVec 5) (hi : BitVec 1) : Statement (.mmaz d a b hi) := by
  intro z h hw
  obtain ⟨f0, f1, f2, f3, f4, f5⟩ := fields_9_2_5_5_1_10 z (h := Option.some.inj h)
  have s0 : z.extractLsb' 26 6 = 50#6 := (sub_field f0 3 6 (by decide)).trans (by decide)
  have s1 : z.extractLsb' 5 5 = 2#5 := (sub_field f5 5 5 (by decide)).trans (by decide)
  have s2 : z.extractLsb' 0 5 = 0#5 := (sub_field f5 0 5 (by decide)).trans (by decide)
  have s3 : z.extractLsb' 23 3 = 0#3 := (sub_field f0 0 3 (by decide)).trans (by decide)
  show decodeMajor z (z.extractLsb' 26 6).toNat = _
  rw [s0]
  show decodeMajor32 z (z.extractLsb' 5 5).toNat = _
  rw [s1]
  simp [decodeMajor32, mbz, fa, fb, fx, legal, hw, s2, s3, f1, f2, f3, f4]
theorem azero (a : BitVec 2) : Statement (.azero a) := by
  intro z h hw
  obtain ⟨f0, f1, f2⟩ := fields_14_2_16 z (h := Option.some.inj h)
  have s0 : z.extractLsb' 26 6 = 51#6 := (sub_field f0 8 6 (by decide)).trans (by decide)
  have s1 : z.extractLsb' 5 5 = 0#5 := (sub_field f2 5 5 (by decide)).trans (by decide)
  have s2 : z.extractLsb' 0 5 = 0#5 := (sub_field f2 0 5 (by decide)).trans (by decide)
  have s3 : z.extractLsb' 10 6 = 0#6 := (sub_field f2 10 6 (by decide)).trans (by decide)
  have s4 : z.extractLsb' 18 8 = 0#8 := (sub_field f0 0 8 (by decide)).trans (by decide)
  show decodeMajor z (z.extractLsb' 26 6).toNat = _
  rw [s0]
  show decodeMajor33 z (z.extractLsb' 5 5).toNat = _
  rw [s1]
  simp [decodeMajor33, mbz, legal, hw, s2, s3, s4, f1]
theorem axt (d : BitVec 5) (a : BitVec 2) (b : BitVec 5) : Statement (.axt d a b) := by
  intro z h hw
  obtain ⟨f0, f1, f2, f3, f4, f5⟩ := fields_6_5_3_2_5_11 z (h := Option.some.inj h)
  have s0 : z.extractLsb' 5 5 = 1#5 := (sub_field f5 5 5 (by decide)).trans (by decide)
  have s1 : z.extractLsb' 0 5 = 0#5 := (sub_field f5 0 5 (by decide)).trans (by decide)
  have s2 : z.extractLsb' 10 1 = 0#1 := (sub_field f5 10 1 (by decide)).trans (by decide)
  show decodeMajor z (z.extractLsb' 26 6).toNat = _
  rw [f0]
  show decodeMajor33 z (z.extractLsb' 5 5).toNat = _
  rw [s0]
  simp [decodeMajor33, mbz, fb, fd, legal, hw, s1, s2, f2, f1, f3, f4]
theorem axts (d : BitVec 5) (a : BitVec 2) (b : BitVec 5) (fm : BitVec 2) (sat : BitVec 1) (bsel : BitVec 2) : Statement (.axts d a b fm sat bsel) := by
  intro z h hw
  obtain ⟨f0, f1, f2, f3, f4, f5, f6, f7, f8⟩ := fields_6_5_3_2_5_6_2_1_2 z (h := Option.some.inj h)
  have s0 : z.extractLsb' 5 5 = 2#5 := (sub_field f5 0 5 (by decide)).trans (by decide)
  have s1 : z.extractLsb' 10 1 = 0#1 := (sub_field f5 5 1 (by decide)).trans (by decide)
  show decodeMajor z (z.extractLsb' 26 6).toNat = _
  rw [f0]
  show decodeMajor33 z (z.extractLsb' 5 5).toNat = _
  rw [s0]
  simp [decodeMajor33, mbz, fb, fd, legal, hw, s1, f2, f1, f3, f4, f6, f7, f8]
theorem ains (d : BitVec 5) (a : BitVec 2) (b : BitVec 5) : Statement (.ains d a b) := by
  intro z h hw
  obtain ⟨f0, f1, f2, f3, f4, f5⟩ := fields_6_5_3_2_5_11 z (h := Option.some.inj h)
  have s0 : z.extractLsb' 5 5 = 3#5 := (sub_field f5 5 5 (by decide)).trans (by decide)
  have s1 : z.extractLsb' 0 5 = 0#5 := (sub_field f5 0 5 (by decide)).trans (by decide)
  have s2 : z.extractLsb' 10 1 = 0#1 := (sub_field f5 10 1 (by decide)).trans (by decide)
  show decodeMajor z (z.extractLsb' 26 6).toNat = _
  rw [f0]
  show decodeMajor33 z (z.extractLsb' 5 5).toNat = _
  rw [s0]
  simp [decodeMajor33, mbz, fb, fd, legal, hw, s1, s2, f2, f1, f3, f4]
theorem asave (d : BitVec 5) (a : BitVec 2) (b : BitVec 5) : Statement (.asave d a b) := by
  intro z h hw
  obtain ⟨f0, f1, f2, f3, f4, f5⟩ := fields_6_5_3_2_5_11 z (h := Option.some.inj h)
  have s0 : z.extractLsb' 5 5 = 4#5 := (sub_field f5 5 5 (by decide)).trans (by decide)
  have s1 : z.extractLsb' 0 5 = 0#5 := (sub_field f5 0 5 (by decide)).trans (by decide)
  have s2 : z.extractLsb' 10 1 = 0#1 := (sub_field f5 10 1 (by decide)).trans (by decide)
  show decodeMajor z (z.extractLsb' 26 6).toNat = _
  rw [f0]
  show decodeMajor33 z (z.extractLsb' 5 5).toNat = _
  rw [s0]
  simp [decodeMajor33, mbz, fb, fd, legal, hw, s1, s2, f2, f1, f3, f4]
theorem aload (d : BitVec 5) (a : BitVec 2) (b : BitVec 5) : Statement (.aload d a b) := by
  intro z h hw
  obtain ⟨f0, f1, f2, f3, f4, f5⟩ := fields_6_5_3_2_5_11 z (h := Option.some.inj h)
  have s0 : z.extractLsb' 5 5 = 5#5 := (sub_field f5 5 5 (by decide)).trans (by decide)
  have s1 : z.extractLsb' 0 5 = 0#5 := (sub_field f5 0 5 (by decide)).trans (by decide)
  have s2 : z.extractLsb' 10 1 = 0#1 := (sub_field f5 10 1 (by decide)).trans (by decide)
  show decodeMajor z (z.extractLsb' 26 6).toNat = _
  rw [f0]
  show decodeMajor33 z (z.extractLsb' 5 5).toNat = _
  rw [s0]
  simp [decodeMajor33, mbz, fb, fd, legal, hw, s1, s2, f2, f1, f3, f4]
theorem cpyA (d : BitVec 5) (a : BitVec 5) (b : BitVec 5) (x : BitVec 1) (c : BitVec 5) : Statement (.cpyA d a b x c) := by
  intro z h hw
  obtain ⟨f0, f1, f2, f3, f4, f5, f6⟩ := fields_6_5_5_5_1_5_5 z (h := Option.some.inj h)
  show decodeMajor z (z.extractLsb' 26 6).toNat = _
  rw [f0]
  show decodeMajor34 z (z.extractLsb' 5 5).toNat = _
  rw [f5]
  simp [decodeMajor34, fa, fb, fc, fd, fx, legal, hw, f1, f2, f3, f4, f6]
theorem cpyB (d : BitVec 5) (a : BitVec 5) (b : BitVec 5) (x : BitVec 1) (c : BitVec 5) : Statement (.cpyB d a b x c) := by
  intro z h hw
  obtain ⟨f0, f1, f2, f3, f4, f5, f6⟩ := fields_6_5_5_5_1_5_5 z (h := Option.some.inj h)
  show decodeMajor z (z.extractLsb' 26 6).toNat = _
  rw [f0]
  show decodeMajor34 z (z.extractLsb' 5 5).toNat = _
  rw [f5]
  simp [decodeMajor34, fa, fb, fc, fd, fx, legal, hw, f1, f2, f3, f4, f6]
theorem cpySt (d : BitVec 5) (a : BitVec 5) (b : BitVec 5) (x : BitVec 1) (c : BitVec 5) : Statement (.cpySt d a b x c) := by
  intro z h hw
  obtain ⟨f0, f1, f2, f3, f4, f5, f6⟩ := fields_6_5_5_5_1_5_5 z (h := Option.some.inj h)
  show decodeMajor z (z.extractLsb' 26 6).toNat = _
  rw [f0]
  show decodeMajor34 z (z.extractLsb' 5 5).toNat = _
  rw [f5]
  simp [decodeMajor34, fa, fb, fc, fd, fx, legal, hw, f1, f2, f3, f4, f6]
theorem cpyBox (d : BitVec 5) (a : BitVec 5) (b : BitVec 5) (x : BitVec 1) (c : BitVec 5) : Statement (.cpyBox d a b x c) := by
  intro z h hw
  obtain ⟨f0, f1, f2, f3, f4, f5, f6⟩ := fields_6_5_5_5_1_5_5 z (h := Option.some.inj h)
  show decodeMajor z (z.extractLsb' 26 6).toNat = _
  rw [f0]
  show decodeMajor34 z (z.extractLsb' 5 5).toNat = _
  rw [f5]
  simp [decodeMajor34, fa, fb, fc, fd, fx, legal, hw, f1, f2, f3, f4, f6]
theorem cpyO (d : BitVec 5) (a : BitVec 5) (b : BitVec 5) (x : BitVec 1) (c : BitVec 5) : Statement (.cpyO d a b x c) := by
  intro z h hw
  obtain ⟨f0, f1, f2, f3, f4, f5, f6⟩ := fields_6_5_5_5_1_5_5 z (h := Option.some.inj h)
  show decodeMajor z (z.extractLsb' 26 6).toNat = _
  rw [f0]
  show decodeMajor34 z (z.extractLsb' 5 5).toNat = _
  rw [f5]
  simp [decodeMajor34, fa, fb, fc, fd, fx, legal, hw, f1, f2, f3, f4, f6]
theorem cpySeal (d : BitVec 5) (a : BitVec 5) (b : BitVec 5) (x : BitVec 1) (c : BitVec 5) : Statement (.cpySeal d a b x c) := by
  intro z h hw
  obtain ⟨f0, f1, f2, f3, f4, f5, f6⟩ := fields_6_5_5_5_1_5_5 z (h := Option.some.inj h)
  show decodeMajor z (z.extractLsb' 26 6).toNat = _
  rw [f0]
  show decodeMajor34 z (z.extractLsb' 5 5).toNat = _
  rw [f5]
  simp [decodeMajor34, fa, fb, fc, fd, fx, legal, hw, f1, f2, f3, f4, f6]
theorem barInit (a : BitVec 5) (b : BitVec 5) : Statement (.barInit a b) := by
  intro z h hw
  obtain ⟨f0, f1, f2, f3⟩ := fields_11_5_5_11 z (h := Option.some.inj h)
  have s0 : z.extractLsb' 26 6 = 53#6 := (sub_field f0 5 6 (by decide)).trans (by decide)
  have s1 : z.extractLsb' 5 5 = 0#5 := (sub_field f3 5 5 (by decide)).trans (by decide)
  have s2 : z.extractLsb' 0 5 = 0#5 := (sub_field f3 0 5 (by decide)).trans (by decide)
  have s3 : z.extractLsb' 10 1 = 0#1 := (sub_field f3 10 1 (by decide)).trans (by decide)
  have s4 : z.extractLsb' 21 5 = 0#5 := (sub_field f0 0 5 (by decide)).trans (by decide)
  show decodeMajor z (z.extractLsb' 26 6).toNat = _
  rw [s0]
  show decodeMajor35 z (z.extractLsb' 5 5).toNat = _
  rw [s1]
  simp [decodeMajor35, mbz, fa, fb, legal, hw, s2, s3, s4, f1, f2]
theorem barArv (a : BitVec 5) : Statement (.barArv a) := by
  intro z h hw
  obtain ⟨f0, f1, f2⟩ := fields_11_5_16 z (h := Option.some.inj h)
  have s0 : z.extractLsb' 26 6 = 53#6 := (sub_field f0 5 6 (by decide)).trans (by decide)
  have s1 : z.extractLsb' 5 5 = 1#5 := (sub_field f2 5 5 (by decide)).trans (by decide)
  have s2 : z.extractLsb' 0 5 = 0#5 := (sub_field f2 0 5 (by decide)).trans (by decide)
  have s3 : z.extractLsb' 10 6 = 0#6 := (sub_field f2 10 6 (by decide)).trans (by decide)
  have s4 : z.extractLsb' 21 5 = 0#5 := (sub_field f0 0 5 (by decide)).trans (by decide)
  show decodeMajor z (z.extractLsb' 26 6).toNat = _
  rw [s0]
  show decodeMajor35 z (z.extractLsb' 5 5).toNat = _
  rw [s1]
  simp [decodeMajor35, mbz, fa, legal, hw, s2, s3, s4, f1]
theorem barExp (a : BitVec 5) (b : BitVec 5) : Statement (.barExp a b) := by
  intro z h hw
  obtain ⟨f0, f1, f2, f3⟩ := fields_11_5_5_11 z (h := Option.some.inj h)
  have s0 : z.extractLsb' 26 6 = 53#6 := (sub_field f0 5 6 (by decide)).trans (by decide)
  have s1 : z.extractLsb' 5 5 = 2#5 := (sub_field f3 5 5 (by decide)).trans (by decide)
  have s2 : z.extractLsb' 0 5 = 0#5 := (sub_field f3 0 5 (by decide)).trans (by decide)
  have s3 : z.extractLsb' 10 1 = 0#1 := (sub_field f3 10 1 (by decide)).trans (by decide)
  have s4 : z.extractLsb' 21 5 = 0#5 := (sub_field f0 0 5 (by decide)).trans (by decide)
  show decodeMajor z (z.extractLsb' 26 6).toNat = _
  rw [s0]
  show decodeMajor35 z (z.extractLsb' 5 5).toNat = _
  rw [s1]
  simp [decodeMajor35, mbz, fa, fb, legal, hw, s2, s3, s4, f1, f2]
theorem barWait (a : BitVec 5) (b : BitVec 5) : Statement (.barWait a b) := by
  intro z h hw
  obtain ⟨f0, f1, f2, f3⟩ := fields_11_5_5_11 z (h := Option.some.inj h)
  have s0 : z.extractLsb' 26 6 = 53#6 := (sub_field f0 5 6 (by decide)).trans (by decide)
  have s1 : z.extractLsb' 5 5 = 3#5 := (sub_field f3 5 5 (by decide)).trans (by decide)
  have s2 : z.extractLsb' 0 5 = 0#5 := (sub_field f3 0 5 (by decide)).trans (by decide)
  have s3 : z.extractLsb' 10 1 = 0#1 := (sub_field f3 10 1 (by decide)).trans (by decide)
  have s4 : z.extractLsb' 21 5 = 0#5 := (sub_field f0 0 5 (by decide)).trans (by decide)
  show decodeMajor z (z.extractLsb' 26 6).toNat = _
  rw [s0]
  show decodeMajor35 z (z.extractLsb' 5 5).toNat = _
  rw [s1]
  simp [decodeMajor35, mbz, fa, fb, legal, hw, s2, s3, s4, f1, f2]
theorem barTry (d : BitVec 5) (a : BitVec 5) : Statement (.barTry d a) := by
  intro z h hw
  obtain ⟨f0, f1, f2, f3⟩ := fields_6_5_5_16 z (h := Option.some.inj h)
  have s0 : z.extractLsb' 5 5 = 4#5 := (sub_field f3 5 5 (by decide)).trans (by decide)
  have s1 : z.extractLsb' 0 5 = 0#5 := (sub_field f3 0 5 (by decide)).trans (by decide)
  have s2 : z.extractLsb' 10 6 = 0#6 := (sub_field f3 10 6 (by decide)).trans (by decide)
  show decodeMajor z (z.extractLsb' 26 6).toNat = _
  rw [f0]
  show decodeMajor35 z (z.extractLsb' 5 5).toNat = _
  rw [s0]
  simp [decodeMajor35, mbz, fa, fd, legal, hw, s1, s2, f1, f2]
theorem barTrig (d : BitVec 5) (a : BitVec 5) (b : BitVec 5) : Statement (.barTrig d a b) := by
  intro z h hw
  obtain ⟨f0, f1, f2, f3, f4⟩ := fields_6_5_5_5_11 z (h := Option.some.inj h)
  have s0 : z.extractLsb' 5 5 = 5#5 := (sub_field f4 5 5 (by decide)).trans (by decide)
  have s1 : z.extractLsb' 0 5 = 0#5 := (sub_field f4 0 5 (by decide)).trans (by decide)
  have s2 : z.extractLsb' 10 1 = 0#1 := (sub_field f4 10 1 (by decide)).trans (by decide)
  show decodeMajor z (z.extractLsb' 26 6).toNat = _
  rw [f0]
  show decodeMajor35 z (z.extractLsb' 5 5).toNat = _
  rw [s0]
  simp [decodeMajor35, mbz, fa, fb, fd, legal, hw, s1, s2, f1, f2, f3]
theorem waita (a : BitVec 5) (b : BitVec 5) : Statement (.waita a b) := by
  intro z h hw
  obtain ⟨f0, f1, f2, f3⟩ := fields_11_5_5_11 z (h := Option.some.inj h)
  have s0 : z.extractLsb' 26 6 = 54#6 := (sub_field f0 5 6 (by decide)).trans (by decide)
  have s1 : z.extractLsb' 5 5 = 0#5 := (sub_field f3 5 5 (by decide)).trans (by decide)
  have s2 : z.extractLsb' 0 5 = 0#5 := (sub_field f3 0 5 (by decide)).trans (by decide)
  have s3 : z.extractLsb' 10 1 = 0#1 := (sub_field f3 10 1 (by decide)).trans (by decide)
  have s4 : z.extractLsb' 21 5 = 0#5 := (sub_field f0 0 5 (by decide)).trans (by decide)
  show decodeMajor z (z.extractLsb' 26 6).toNat = _
  rw [s0]
  show decodeMajor36 z (z.extractLsb' 5 5).toNat = _
  rw [s1]
  simp [decodeMajor36, mbz, fa, fb, legal, hw, s2, s3, s4, f1, f2]
theorem waitge (a : BitVec 5) (b : BitVec 5) : Statement (.waitge a b) := by
  intro z h hw
  obtain ⟨f0, f1, f2, f3⟩ := fields_11_5_5_11 z (h := Option.some.inj h)
  have s0 : z.extractLsb' 26 6 = 54#6 := (sub_field f0 5 6 (by decide)).trans (by decide)
  have s1 : z.extractLsb' 5 5 = 1#5 := (sub_field f3 5 5 (by decide)).trans (by decide)
  have s2 : z.extractLsb' 0 5 = 0#5 := (sub_field f3 0 5 (by decide)).trans (by decide)
  have s3 : z.extractLsb' 10 1 = 0#1 := (sub_field f3 10 1 (by decide)).trans (by decide)
  have s4 : z.extractLsb' 21 5 = 0#5 := (sub_field f0 0 5 (by decide)).trans (by decide)
  show decodeMajor z (z.extractLsb' 26 6).toNat = _
  rw [s0]
  show decodeMajor36 z (z.extractLsb' 5 5).toNat = _
  rw [s1]
  simp [decodeMajor36, mbz, fa, fb, legal, hw, s2, s3, s4, f1, f2]
theorem notify (a : BitVec 5) : Statement (.notify a) := by
  intro z h hw
  obtain ⟨f0, f1, f2⟩ := fields_11_5_16 z (h := Option.some.inj h)
  have s0 : z.extractLsb' 26 6 = 54#6 := (sub_field f0 5 6 (by decide)).trans (by decide)
  have s1 : z.extractLsb' 5 5 = 2#5 := (sub_field f2 5 5 (by decide)).trans (by decide)
  have s2 : z.extractLsb' 0 5 = 0#5 := (sub_field f2 0 5 (by decide)).trans (by decide)
  have s3 : z.extractLsb' 10 6 = 0#6 := (sub_field f2 10 6 (by decide)).trans (by decide)
  have s4 : z.extractLsb' 21 5 = 0#5 := (sub_field f0 0 5 (by decide)).trans (by decide)
  show decodeMajor z (z.extractLsb' 26 6).toNat = _
  rw [s0]
  show decodeMajor36 z (z.extractLsb' 5 5).toNat = _
  rw [s1]
  simp [decodeMajor36, mbz, fa, legal, hw, s2, s3, s4, f1]
theorem rredAdd (d : BitVec 5) (a : BitVec 5) (b : BitVec 5) (fm : BitVec 2) : Statement (.rredAdd d a b fm) := by
  intro z h hw
  obtain ⟨f0, f1, f2, f3, f4, f5, f6⟩ := fields_6_5_5_5_6_2_3 z (h := Option.some.inj h)
  have s0 : z.extractLsb' 5 5 = 0#5 := (sub_field f4 0 5 (by decide)).trans (by decide)
  have s1 : z.extractLsb' 10 1 = 0#1 := (sub_field f4 5 1 (by decide)).trans (by decide)
  show decodeMajor z (z.extractLsb' 26 6).toNat = _
  rw [f0]
  show decodeMajor37 z (z.extractLsb' 5 5).toNat = _
  rw [s0]
  simp [decodeMajor37, mbz, fa, fb, fd, legal, hw, f6, s1, f1, f2, f3, f5]
theorem rredMax (d : BitVec 5) (a : BitVec 5) (b : BitVec 5) (fm : BitVec 2) : Statement (.rredMax d a b fm) := by
  intro z h hw
  obtain ⟨f0, f1, f2, f3, f4, f5, f6⟩ := fields_6_5_5_5_6_2_3 z (h := Option.some.inj h)
  have s0 : z.extractLsb' 5 5 = 0#5 := (sub_field f4 0 5 (by decide)).trans (by decide)
  have s1 : z.extractLsb' 10 1 = 0#1 := (sub_field f4 5 1 (by decide)).trans (by decide)
  show decodeMajor z (z.extractLsb' 26 6).toNat = _
  rw [f0]
  show decodeMajor37 z (z.extractLsb' 5 5).toNat = _
  rw [s0]
  simp [decodeMajor37, mbz, fa, fb, fd, legal, hw, f6, s1, f1, f2, f3, f5]
theorem rredMin (d : BitVec 5) (a : BitVec 5) (b : BitVec 5) (fm : BitVec 2) : Statement (.rredMin d a b fm) := by
  intro z h hw
  obtain ⟨f0, f1, f2, f3, f4, f5, f6⟩ := fields_6_5_5_5_6_2_3 z (h := Option.some.inj h)
  have s0 : z.extractLsb' 5 5 = 0#5 := (sub_field f4 0 5 (by decide)).trans (by decide)
  have s1 : z.extractLsb' 10 1 = 0#1 := (sub_field f4 5 1 (by decide)).trans (by decide)
  show decodeMajor z (z.extractLsb' 26 6).toNat = _
  rw [f0]
  show decodeMajor37 z (z.extractLsb' 5 5).toNat = _
  rw [s0]
  simp [decodeMajor37, mbz, fa, fb, fd, legal, hw, f6, s1, f1, f2, f3, f5]
theorem rsig (a : BitVec 5) (b : BitVec 5) : Statement (.rsig a b) := by
  intro z h hw
  obtain ⟨f0, f1, f2, f3⟩ := fields_11_5_5_11 z (h := Option.some.inj h)
  have s0 : z.extractLsb' 26 6 = 55#6 := (sub_field f0 5 6 (by decide)).trans (by decide)
  have s1 : z.extractLsb' 5 5 = 1#5 := (sub_field f3 5 5 (by decide)).trans (by decide)
  have s2 : z.extractLsb' 0 5 = 0#5 := (sub_field f3 0 5 (by decide)).trans (by decide)
  have s3 : z.extractLsb' 10 1 = 0#1 := (sub_field f3 10 1 (by decide)).trans (by decide)
  have s4 : z.extractLsb' 21 5 = 0#5 := (sub_field f0 0 5 (by decide)).trans (by decide)
  show decodeMajor z (z.extractLsb' 26 6).toNat = _
  rw [s0]
  show decodeMajor37 z (z.extractLsb' 5 5).toNat = _
  rw [s1]
  simp [decodeMajor37, mbz, fa, fb, legal, hw, s2, s3, s4, f1, f2]
theorem covq (d : BitVec 5) : Statement (.covq d) := by
  intro z h hw
  obtain ⟨f0, f1, f2⟩ := fields_6_5_21 z (h := Option.some.inj h)
  have s0 : z.extractLsb' 12 4 = 0#4 := (sub_field f2 12 4 (by decide)).trans (by decide)
  have s1 : z.extractLsb' 0 12 = 0#12 := (sub_field f2 0 12 (by decide)).trans (by decide)
  have s2 : z.extractLsb' 16 5 = 0#5 := (sub_field f2 16 5 (by decide)).trans (by decide)
  show decodeMajor z (z.extractLsb' 26 6).toNat = _
  rw [f0]
  show decodeMajor38 z (z.extractLsb' 12 4).toNat = _
  rw [s0]
  simp [decodeMajor38, mbz, fd, legal, hw, s1, s2, f1]
theorem plumbLdi (d : BitVec 3) (imm : BitVec 8) : Statement (.plumbLdi d imm) := fun _ h => nomatch h
theorem plumbMov (d : BitVec 3) (a : BitVec 3) : Statement (.plumbMov d a) := fun _ h => nomatch h
theorem plumbAdd (d : BitVec 3) (a : BitVec 3) (b : BitVec 3) : Statement (.plumbAdd d a b) := fun _ h => nomatch h
theorem plumbSub (d : BitVec 3) (a : BitVec 3) (b : BitVec 3) : Statement (.plumbSub d a b) := fun _ h => nomatch h
theorem plumbAnd (d : BitVec 3) (a : BitVec 3) (b : BitVec 3) : Statement (.plumbAnd d a b) := fun _ h => nomatch h
theorem plumbOr (d : BitVec 3) (a : BitVec 3) (b : BitVec 3) : Statement (.plumbOr d a b) := fun _ h => nomatch h
theorem plumbXor (d : BitVec 3) (a : BitVec 3) (b : BitVec 3) : Statement (.plumbXor d a b) := fun _ h => nomatch h
theorem plumbShl (d : BitVec 3) (a : BitVec 3) (b : BitVec 3) : Statement (.plumbShl d a b) := fun _ h => nomatch h
theorem plumbShr (d : BitVec 3) (a : BitVec 3) (b : BitVec 3) : Statement (.plumbShr d a b) := fun _ h => nomatch h
theorem plumbCmpEq (d : BitVec 3) (a : BitVec 3) (b : BitVec 3) : Statement (.plumbCmpEq d a b) := fun _ h => nomatch h
theorem plumbCmpNe (d : BitVec 3) (a : BitVec 3) (b : BitVec 3) : Statement (.plumbCmpNe d a b) := fun _ h => nomatch h
theorem plumbCmpLtn (d : BitVec 3) (a : BitVec 3) (b : BitVec 3) : Statement (.plumbCmpLtn d a b) := fun _ h => nomatch h
theorem plumbCmpLt (d : BitVec 3) (a : BitVec 3) (b : BitVec 3) : Statement (.plumbCmpLt d a b) := fun _ h => nomatch h
theorem plumbSel (d : BitVec 3) (a : BitVec 3) (b : BitVec 3) : Statement (.plumbSel d a b) := fun _ h => nomatch h
theorem plumbBrf (a : BitVec 3) (off : BitVec 8) : Statement (.plumbBrf a off) := fun _ h => nomatch h
theorem plumbLoopn (n : BitVec 8) (l : BitVec 16) : Statement (.plumbLoopn n l) := fun _ h => nomatch h
theorem plumbRdtl (d : BitVec 3) (a : BitVec 3) : Statement (.plumbRdtl d a) := fun _ h => nomatch h
theorem plumbWrtl (a : BitVec 3) : Statement (.plumbWrtl a) := fun _ h => nomatch h
theorem plumbWaittl (a : BitVec 3) (b : BitVec 3) : Statement (.plumbWaittl a b) := fun _ h => nomatch h
theorem plumbRdm (d : BitVec 3) (a : BitVec 3) (off : BitVec 5) : Statement (.plumbRdm d a off) := fun _ h => nomatch h
theorem plumbWrm (d : BitVec 3) (a : BitVec 3) (off : BitVec 5) : Statement (.plumbWrm d a off) := fun _ h => nomatch h
theorem plumbEmit (a : BitVec 3) : Statement (.plumbEmit a) := fun _ h => nomatch h
theorem plumbEnd : Statement .plumbEnd := fun _ h => nomatch h
theorem illegalInstructionWord (w : IWord) : Statement (.illegalInstructionWord w) := fun _ h => nomatch h
theorem longLatencyWrite (wave n : Nat) : Statement (.longLatencyWrite wave n) := fun _ h => nomatch h
theorem vectorFaultPoint (wave : Nat) : Statement (.vectorFaultPoint wave) := fun _ h => nomatch h
theorem asyncTrapTake (wave : Nat) : Statement (.asyncTrapTake wave) := fun _ h => nomatch h
theorem parkedFaultResolve (wave : Nat) : Statement (.parkedFaultResolve wave) := fun _ h => nomatch h
theorem parkedFaultDecline (wave : Nat) : Statement (.parkedFaultDecline wave) := fun _ h => nomatch h
theorem streamFill (wave : Nat) (v : Reg) : Statement (.streamFill wave v) := fun _ h => nomatch h
theorem streamTake (wave : Nat) (v : Reg) : Statement (.streamTake wave v) := fun _ h => nomatch h
theorem tileGrantApply (wave : Nat) : Statement (.tileGrantApply wave) := fun _ h => nomatch h
theorem mmaDispatch (core : Nat) : Statement (.mmaDispatch core) := fun _ h => nomatch h
theorem mmaComplete (core : Nat) : Statement (.mmaComplete core) := fun _ h => nomatch h
theorem copyCompletion (copy : Nat) : Statement (.copyCompletion copy) := fun _ h => nomatch h
theorem copyFaultAnswer (copy : Nat) (resolved : Bool) : Statement (.copyFaultAnswer copy resolved) := fun _ h => nomatch h
theorem triggerRetry (core : Nat) : Statement (.triggerRetry core) := fun _ h => nomatch h
theorem binTimerExpiry (core bin : Nat) : Statement (.binTimerExpiry core bin) := fun _ h => nomatch h
theorem binBlockLaunch (core : Nat) : Statement (.binBlockLaunch core) := fun _ h => nomatch h
theorem chunkDeal (job core : Nat) : Statement (.chunkDeal job core) := fun _ h => nomatch h
theorem pointLaunch (core : Nat) : Statement (.pointLaunch core) := fun _ h => nomatch h
theorem gangPlace (queue : Nat) : Statement (.gangPlace queue) := fun _ h => nomatch h
theorem gangAgeingExpiry (queue : Nat) : Statement (.gangAgeingExpiry queue) := fun _ h => nomatch h
theorem blockEnd (block : Nat) : Statement (.blockEnd block) := fun _ h => nomatch h
theorem continuationStart (block : Nat) : Statement (.continuationStart block) := fun _ h => nomatch h
theorem gangScratchRelease (gang : Nat) : Statement (.gangScratchRelease gang) := fun _ h => nomatch h
theorem clusterGate (cluster : Nat) : Statement (.clusterGate cluster) := fun _ h => nomatch h
theorem softError (site : SoftSite) : Statement (.softError site) := fun _ h => nomatch h
theorem preemptRequest (ctx : Nat) (hard : Bool) : Statement (.preemptRequest ctx hard) := fun _ h => nomatch h
theorem resumeRequest (ctx : Nat) (place : List (Nat × Nat)) : Statement (.resumeRequest ctx place) := fun _ h => nomatch h
theorem softDeadlineExpiry (ctx : Nat) : Statement (.softDeadlineExpiry ctx) := fun _ h => nomatch h
theorem copyGraceExpiry (ctx : Nat) : Statement (.copyGraceExpiry ctx) := fun _ h => nomatch h
theorem imageComplete (ctx : Nat) : Statement (.imageComplete ctx) := fun _ h => nomatch h
theorem hardLimitExpiry (ctx : Nat) : Statement (.hardLimitExpiry ctx) := fun _ h => nomatch h
theorem capLower (cluster : Nat) : Statement (.capLower cluster) := fun _ h => nomatch h
theorem capRaise (cluster : Nat) : Statement (.capRaise cluster) := fun _ h => nomatch h
theorem leaseDecision (ctx : Nat) : Statement (.leaseDecision ctx) := fun _ h => nomatch h
theorem leaseExpiry (ctx : Nat) : Statement (.leaseExpiry ctx) := fun _ h => nomatch h
theorem meltfUpdate (melt : BitVec 16) : Statement (.meltfUpdate melt) := fun _ h => nomatch h
theorem energyIntervalEnd (shares : List (Nat × Nat)) : Statement (.energyIntervalEnd shares) := fun _ h => nomatch h
theorem equotaSet (ctx : Nat) (quota : Word) : Statement (.equotaSet ctx quota) := fun _ h => nomatch h
theorem shootdownRequest (pasid lo hi : Nat) : Statement (.shootdownRequest pasid lo hi) := fun _ h => nomatch h
theorem shootdownArrival (n cluster : Nat) : Statement (.shootdownArrival n cluster) := fun _ h => nomatch h
theorem shootdownAck (n cluster : Nat) : Statement (.shootdownAck n cluster) := fun _ h => nomatch h
theorem nearCopyInvalidate (die part line : Nat) : Statement (.nearCopyInvalidate die part line) := fun _ h => nomatch h
theorem memoryError (place : MemPlace) (dirtyLine : Bool) : Statement (.memoryError place dirtyLine) := fun _ h => nomatch h
theorem partitionForm (p : PartSpec) : Statement (.partitionForm p) := fun _ h => nomatch h
theorem clusterMove (cluster : Nat) (part : Option Nat) : Statement (.clusterMove cluster part) := fun _ h => nomatch h
theorem codeObjectLoad (o : ObjectLoad) : Statement (.codeObjectLoad o) := fun _ h => nomatch h
theorem contextCreate (ctx fn : Nat) (desc : List Byte) : Statement (.contextCreate ctx fn desc) := fun _ h => nomatch h
theorem queueCreate (queue fn : Nat) (desc : List Byte) : Statement (.queueCreate queue fn desc) := fun _ h => nomatch h
theorem queueDelete (queue : Nat) : Statement (.queueDelete queue) := fun _ h => nomatch h
theorem queueClear (queue : Nat) (next : Word) : Statement (.queueClear queue next) := fun _ h => nomatch h
theorem plumbProgramLoad (prog : Nat) (words : List (BitVec 16)) : Statement (.plumbProgramLoad prog words) := fun _ h => nomatch h
theorem doorbell (queue : Nat) (w : Word) : Statement (.doorbell queue w) := fun _ h => nomatch h
theorem packetFetch (queue : Nat) : Statement (.packetFetch queue) := fun _ h => nomatch h
theorem queueMemoryFaultAnswer (queue : Nat) (resolved : Bool) : Statement (.queueMemoryFaultAnswer queue resolved) := fun _ h => nomatch h
theorem packetJob (queue : Nat) : Statement (.packetJob queue) := fun _ h => nomatch h
theorem packetCopy (queue : Nat) : Statement (.packetCopy queue) := fun _ h => nomatch h
theorem packetTlwait (queue : Nat) : Statement (.packetTlwait queue) := fun _ h => nomatch h
theorem packetTlset (queue : Nat) : Statement (.packetTlset queue) := fun _ h => nomatch h
theorem packetPlumb (queue : Nat) : Statement (.packetPlumb queue) := fun _ h => nomatch h
theorem packetFence (queue : Nat) : Statement (.packetFence queue) := fun _ h => nomatch h
theorem packetNop (queue : Nat) : Statement (.packetNop queue) := fun _ h => nomatch h
theorem jobComplete (job : Nat) : Statement (.jobComplete job) := fun _ h => nomatch h
theorem copyPacketComplete (copy : Nat) : Statement (.copyPacketComplete copy) := fun _ h => nomatch h
theorem timelineSignal (queue : Nat) : Statement (.timelineSignal queue) := fun _ h => nomatch h
theorem servicePost (wave : Nat) : Statement (.servicePost wave) := fun _ h => nomatch h
theorem serviceDoorbell (queue : Nat) (k : Word) : Statement (.serviceDoorbell queue k) := fun _ h => nomatch h
theorem getVersion : Statement .getVersion := fun _ h => nomatch h
theorem getCapabilities : Statement .getCapabilities := fun _ h => nomatch h
theorem negotiateAlgorithms (offered : Bool) : Statement (.negotiateAlgorithms offered) := fun _ h => nomatch h
theorem getDigests : Statement .getDigests := fun _ h => nomatch h
theorem getCertificate (slot : Nat) : Statement (.getCertificate slot) := fun _ h => nomatch h
theorem challenge (slot : Nat) : Statement (.challenge slot) := fun _ h => nomatch h
theorem getMeasurements (part block : Nat) : Statement (.getMeasurements part block) := fun _ h => nomatch h
theorem keyExchange : Statement .keyExchange := fun _ h => nomatch h
theorem finish (verified : Bool) : Statement (.finish verified) := fun _ h => nomatch h
theorem keyUpdate : Statement .keyUpdate := fun _ h => nomatch h
theorem heartbeat : Statement .heartbeat := fun _ h => nomatch h
theorem endSession : Statement .endSession := fun _ h => nomatch h
theorem keyinst (secure : Bool) (payload : List Byte) : Statement (.keyinst secure payload) := fun _ h => nomatch h
theorem keydel (secure : Bool) (slot part : Nat) : Statement (.keydel secure slot part) := fun _ h => nomatch h
theorem pasidTeardown (pasid : Nat) : Statement (.pasidTeardown pasid) := fun _ h => nomatch h
theorem teardownComplete (ctx : Nat) : Statement (.teardownComplete ctx) := fun _ h => nomatch h
theorem tdiStop (part : Nat) : Statement (.tdiStop part) := fun _ h => nomatch h
theorem deviceNumberAssign (n : BitVec 9) : Statement (.deviceNumberAssign n) := fun _ h => nomatch h
theorem bindingInstall (part dev rpart : Nat) : Statement (.bindingInstall part dev rpart) := fun _ h => nomatch h
theorem routeTableWrite (part dev : Nat) (ports : List Nat) : Statement (.routeTableWrite part dev ports) := fun _ h => nomatch h
theorem flitCrcError (port : Nat) : Statement (.flitCrcError port) := fun _ h => nomatch h
theorem portRetrain (port : Nat) : Statement (.portRetrain port) := fun _ h => nomatch h
theorem portDown (port : Nat) : Statement (.portDown port) := fun _ h => nomatch h
theorem remoteRequestTimeout (req : Nat) : Statement (.remoteRequestTimeout req) := fun _ h => nomatch h
theorem remoteRequest (r : RemoteIn) : Statement (.remoteRequest r) := fun _ h => nomatch h
theorem rredApply (req n : Nat) : Statement (.rredApply req n) := fun _ h => nomatch h
theorem rsigApply (req : Nat) : Statement (.rsigApply req) := fun _ h => nomatch h
theorem remoteResponse (req : Nat) (answer : RemoteAnswer) : Statement (.remoteResponse req answer) := fun _ h => nomatch h
theorem infill (job point : Nat) : Statement (.infill job point) := fun _ h => nomatch h
theorem infillFaultAnswer (job point : Nat) (resolved : Bool) : Statement (.infillFaultAnswer job point resolved) := fun _ h => nomatch h
theorem comparatorHit (wave : Nat) : Statement (.comparatorHit wave) := fun _ h => nomatch h
theorem debugHaltRequest (wave : Nat) : Statement (.debugHaltRequest wave) := fun _ h => nomatch h
theorem debugResume (wave : Nat) : Statement (.debugResume wave) := fun _ h => nomatch h
theorem debugPortWrite (wave : Nat) (r : DebugReg) : Statement (.debugPortWrite wave r) := fun _ h => nomatch h
theorem debugArm (queue : Nat) (entry : Option Word) : Statement (.debugArm queue entry) := fun _ h => nomatch h
theorem debugPin (queue : Nat) (pin : Option Pin) : Statement (.debugPin queue pin) := fun _ h => nomatch h
theorem lcuseSample (d : Reg) : Statement (.lcuseSample d) := fun _ h => nomatch h
theorem lcmaskClear (a : Reg) : Statement (.lcmaskClear a) := fun _ h => nomatch h
theorem wstatClear (a : Reg) : Statement (.wstatClear a) := fun _ h => nomatch h
theorem classchgClear (a : Reg) : Statement (.classchgClear a) := fun _ h => nomatch h
theorem wmodeWrite (a : Reg) : Statement (.wmodeWrite a) := fun _ h => nomatch h
theorem loopRegisterWrite (a : Reg) (n : BitVec 12) : Statement (.loopRegisterWrite a n) := fun _ h => nomatch h
theorem comparatorRegisterWrite (a : Reg) (n : BitVec 12) : Statement (.comparatorRegisterWrite a n) := fun _ h => nomatch h
theorem traceRegisterWrite (a : Reg) (n : BitVec 12) : Statement (.traceRegisterWrite a n) := fun _ h => nomatch h
theorem specialRegisterWrite (a : Reg) (n : BitVec 12) : Statement (.specialRegisterWrite a n) := fun _ h => nomatch h
theorem reset : Statement .reset := fun _ h => nomatch h
theorem hostAccess (h : HostIn) : Statement (.hostAccess h) := fun _ h => nomatch h
theorem clockChange (cluster mhz : Nat) : Statement (.clockChange cluster mhz) := fun _ h => nomatch h
theorem hostLinkTrain (speed width : Nat) : Statement (.hostLinkTrain speed width) := fun _ h => nomatch h
theorem portTrain (port : Nat) : Statement (.portTrain port) := fun _ h => nomatch h
theorem portAssign (port : Nat) (part : Option Nat) : Statement (.portAssign port part) := fun _ h => nomatch h
theorem bindingRemove (part dev : Nat) : Statement (.bindingRemove part dev) := fun _ h => nomatch h
theorem datumFirmwareUpdate : Statement .datumFirmwareUpdate := fun _ h => nomatch h
theorem tdiEnterRun (part : Nat) : Statement (.tdiEnterRun part) := fun _ h => nomatch h
theorem ideKmRequest (stream : Nat) (switch : Bool) : Statement (.ideKmRequest stream switch) := fun _ h => nomatch h
theorem faultRingSetup (part addr slots : Nat) : Statement (.faultRingSetup part addr slots) := fun _ h => nomatch h

end Sys2Proof.Laws.RoundTrip
end

