-- ==== Sys2Proof/Laws/Vec.lean ====
section
/-! SUPPORT. What the shared operations of the vector and matrix instructions can change, and that they keep the canonical forms. -/

namespace Sys2Proof.Machine

/-- Writing elements changes the file and the poison of the wave. -/
theorem State.writeElems_only (s : State) (wi : Nat) (w : Wave) (base sew : Nat) (l : List (Nat × Nat)) :
    { s.writeElems wi w base sew l with waves := s.waves, vfiles := s.vfiles } = s := by
  unfold State.writeElems
  dsimp only
  split <;> rfl

@[simp] theorem State.writeElems_mem (s : State) (wi : Nat) (w : Wave) (base sew : Nat) (l : List (Nat × Nat)) :
    (s.writeElems wi w base sew l).mem = s.mem := (congrArg State.mem (s.writeElems_only wi w base sew l) :)
@[simp] theorem State.writeElems_accs (s : State) (wi : Nat) (w : Wave) (base sew : Nat) (l : List (Nat × Nat)) :
    (s.writeElems wi w base sew l).accs = s.accs := (congrArg State.accs (s.writeElems_only wi w base sew l) :)

/-- The lane counters of an instruction change a vector file. -/
theorem State.beats_only (s : State) (w : Wave) (sp : Split) (regs : Nat) (arith : Bool) :
    { s.beats w sp regs arith with vfiles := s.vfiles } = s := rfl

/-- Raising flags answers with a state that differs in a wave. -/
theorem State.raiseFlags_all {s : State} (wi : Nat) (w : Wave) (sp : Split) (f : BitVec 8) (h : s.Stored) :
    (s.raiseFlags wi w sp f).All State.Stored := by
  unfold State.raiseFlags
  dsimp only
  split <;> exact h

/-- Delivering results keeps the forms. -/
theorem State.deliver_all {s : State} (wi : Nat) (w : Wave) (sp : Split) (base fmt : Nat) (l : List (Nat × FRes)) (h : s.Stored) :
    (s.deliver wi w sp base fmt l).All State.Stored :=
  State.raiseFlags_all wi w sp _ (Stored_of_eq (State.writeElems_mem ..) (State.writeElems_accs ..) h)

/-- A vector instruction keeps the forms if its body does. -/
theorem State.vec_stored {s t : State} {i : Instr} {plan : Wave → Split → VPlan} {k : Nat → Nat → Wave → Split → Res} (h : s.Stored)
    (hk : ∀ wi si w sp, (k wi si w sp).All State.Stored) (e : s.vec i plan k = .next t) : t.Stored := by
  refine State.runWave_stored h (fun wi si w sp _ _ => ?_) e
  dsimp only
  iterate 6 (split; · trivial)
  split
  · refine Wave.emptyGate_all _ _ _ _ ?_
    split
    · exact Stored_of_eq rfl rfl h
    · trivial
  refine Wave.gateWith_all _ _ _ _ _ _ ?_
  have a := hk wi si w sp
  split
  · trivial
  split
  · rename_i s' he
    rw [he] at a
    exact Stored_ite a (Stored_of_eq rfl rfl a)
  · rename_i s' t' he
    rw [he] at a
    exact Stored_ite a (Stored_of_eq rfl rfl a)
  · exact a

/-- A control instruction of the vector unit keeps the forms if its body does. -/
theorem State.vctl_stored {s t : State} {i : Instr} {ss : List (Reg × Nat)} {sd : List Reg} {k : Nat → Wave → Split → Res} (h : s.Stored)
    (hk : ∀ wi w sp, (k wi w sp).All State.Stored) (e : s.vctl i ss sd k = .next t) : t.Stored := by
  refine State.runWave_stored h (fun wi si w sp _ _ => ?_) e
  split
  · trivial
  · refine Wave.gate_all _ _ _ _ ?_
    split
    · trivial
    · exact hk wi w sp

/-! ### Accumulator sets -/

/-- Writing an accumulator element keeps the forms. -/
theorem State.setAcc_stored {s : State} (core set i j v : Nat) (h : s.Stored) : (s.setAcc core set i j v).Stored :=
  ⟨h.1, assocSet_wf h.2 (by simp [aboveLo])⟩

/-- Clearing a set keeps the forms. -/
theorem State.zeroSet_stored {s : State} (core set : Nat) (h : s.Stored) : (s.zeroSet core set).Stored := ⟨h.1, assocWf_filter _ h.2⟩

/-- Losing the elements that an E-core does not hold keeps the forms. -/
theorem State.shrinkSet_stored {s : State} (core set : Nat) (h : s.Stored) : (s.shrinkSet core set).Stored := ⟨h.1, assocWf_filter _ h.2⟩

/-- Setting the entries of a list keeps the form. -/
theorem assocSet_foldl_wf {α β : Type} [DecidableEq α] {z : α} (f : β → Nat) (g : β → α) (l : List β) {m : List (Nat × α)}
    (h : assocWf z none m = true) : assocWf z none (l.foldl (fun m x => assocSet z m (f x) (g x)) m) = true := by
  induction l generalizing m with
  | nil => exact h
  | cons x l ih => exact ih (assocSet_wf h (by simp [aboveLo]))

/-- Moving a set keeps the forms. -/
theorem State.moveSet_stored {s : State} (core set core' set' : Nat) (h : s.Stored) : (s.moveSet core set core' set').Stored :=
  ⟨h.1, assocSet_foldl_wf _ _ _ (State.zeroSet_stored core' set' (State.zeroSet_stored core set h)).2⟩

end Sys2Proof.Machine
end

