-- ==== Sys2Proof/Tests/Slice0.lean ====
section
/-! SUPPORT. Tests: words of the manual's own tables, instructions with a value of R21 that is not legal, results the manual states, and for
the statements states and operands that meet their hypotheses. -/

namespace Sys2Proof.Tests

-- one test after the other: each is evaluated by the kernel
set_option Elab.async false

open Sys2Proof Sys2Proof.Machine Sys2Proof.Claims

/-! ### Decoding -/

/-- spec/01 R26, R31 and spec/04 R119: words of the scalar groups. -/
theorem test_decode_scalar :
    decodeWord 0x25200051#32 = .instr (.li 9 81) ∧ decodeWord 0x29200000#32 = .instr (.lih 9 0)
    ∧ decodeWord 0x04642800#32 = .instr (.add 3 4 5 0) ∧ decodeWord 0x04642C20#32 = .instr (.sub 3 4 5 1)
    ∧ decodeWord 0x04640B00#32 = .instr (.sext 3 4 1) ∧ decodeWord 0x0863FFFF#32 = .instr (.addi 3 3 0xFFFF)
    ∧ decodeWord 0x1864400C#32 = .instr (.shri 3 4 12) := by decide

/-- spec/01 R26, spec/04 R119: scalar memory and atomics. -/
theorem test_decode_memory :
    decodeWord 0x34642812#32 = .instr (.amoAdd 3 4 5 0 18) ∧ decodeWord 0x2C64400C#32 = .instr (.ldsS32 3 4 12)
    ∧ decodeWord 0x30876000#32 = .instr (.sts64 4 7 0) ∧ decodeWord 0x3C000014#32 = .instr (.fence 0 2 4)
    ∧ decodeWord 0x3C001081#32 = .instr (.fenceX 2 1) := by decide

/-- spec/01 R26, spec/04 R108, R119: transfers, loops and splits. -/
theorem test_decode_control :
    decodeWord 0x4420FFFD#32 = .instr (.bne 1 0 0xFFFD) ∧ decodeWord 0x58000300#32 = .instr (.jal 0x300)
    ∧ decodeWord 0x5C1F0000#32 = .instr (.jalr 0 31 0) ∧ decodeWord 0x60050003#32 = .instr (.loop 5 3)
    ∧ decodeWord 0x64400003#32 = .instr (.brd 2 3) ∧ decodeWord 0x68000000#32 = .instr .join
    ∧ decodeWord 0x68001000#32 = .instr .yield := by decide

/-- spec/01 R26, spec/04 R116, R119: the system group and the special registers. -/
theorem test_decode_system :
    decodeWord 0x6C000000#32 = .instr .nop ∧ decodeWord 0x6C001007#32 = .instr (.trap 7)
    ∧ decodeWord 0x6C002020#32 = .instr (.sysc 0x20) ∧ decodeWord 0x6C003000#32 = .instr (.brk 0)
    ∧ decodeWord 0x6C004000#32 = .instr .rte ∧ decodeWord 0x6C005000#32 = .instr .halt ∧ decodeWord 0x6C006000#32 = .instr .wfe
    ∧ decodeWord 0x6C007000#32 = .instr .claimv ∧ decodeWord 0x6C008000#32 = .instr .rstv
    ∧ decodeWord 0x70E00010#32 = .instr (.srr 7 0x010) ∧ decodeWord 0x74050003#32 = .instr (.srw 5 3) := by decide

/-- spec/05: vector control, arithmetic, comparison, conversion. -/
theorem test_decode_vector :
    decodeWord 0x84E01008#32 = .instr (.setvli 7 8) ∧ decodeWord 0x84092000#32 = .instr (.mode 0 9)
    ∧ decodeWord 0x88886000#32 = .instr (.vadd 4 8 12 0) ∧ decodeWord 0x8C884C0C#32 = .instr (.vfma 4 8 9 1 12)
    ∧ decodeWord 0x888861A0#32 = .instr (.vabsd 4 8 12 0) ∧ decodeWord 0x90C20140#32 = .instr (.vbcast 6 2)
    ∧ decodeWord 0x94221840#32 = .instr (.vcmpLt 1 2 3 0) ∧ decodeWord 0x99041025#32 = .instr (.vcvtq 8 4 2 0 1 1) := by decide

/-- spec/05: permutes, reductions and masks. -/
theorem test_decode_masks :
    decodeWord 0x9C2218E4#32 = .instr (.vsel 1 2 3 4) ∧ decodeWord 0xA0A60000#32 = .instr (.vredSum 5 6 0)
    ∧ decodeWord 0xA4450080#32 = .instr (.mnot 2 5) ∧ decodeWord 0xA46300C0#32 = .instr (.mfirst 3 3) := by decide

/-- spec/06: vector memory and streams. -/
theorem test_decode_vector_memory :
    decodeWord 0xA8220000#32 = .instr (.vld 1 2) ∧ decodeWord 0xA8221820#32 = .instr (.vlds 1 2 3)
    ∧ decodeWord 0xA8220060#32 = .instr (.vldf 1 2) ∧ decodeWord 0xAC221840#32 = .instr (.vstx 1 2 3)
    ∧ decodeWord 0xB0A23410#32 = .instr (.vamoAdd 5 2 6 1 16) ∧ decodeWord 0xB5090000#32 = .instr (.sbind 8 9)
    ∧ decodeWord 0xB5001000#32 = .instr (.sunb 8) ∧ decodeWord 0xB4682000#32 = .instr (.sqry 3 8) := by decide

/-- spec/11, spec/12: the matrix unit, copies, barriers and waits. -/
theorem test_decode_cluster :
    decodeWord 0xC0640000#32 = .instr (.settile 3 4) ∧ decodeWord 0xC4C00001#32 = .instr (.oclaim 6 0 1)
    ∧ decodeWord 0xC4252000#32 = .instr (.ofill 1 5) ∧ decodeWord 0xC8053040#32 = .instr (.mmaz 0 5 6 0)
    ∧ decodeWord 0xCC603820#32 = .instr (.axt 3 0 7) ∧ decodeWord 0xCD204080#32 = .instr (.asave 9 0 8)
    ∧ decodeWord 0xD0432005#32 = .instr (.cpyA 2 3 4 0 5) ∧ decodeWord 0xD4055000#32 = .instr (.barInit 5 10)
    ∧ decodeWord 0xD8065020#32 = .instr (.waitge 6 10) := by decide

/-- spec/12, spec/18, spec/19: spawning, leases and the plumb engine. -/
theorem test_decode_work :
    decodeWord 0x794B6000#32 = .instr (.spawn 10 11 12) ∧ decodeWord 0x7C831000#32 = .instr (.cont 4 3)
    ∧ decodeWord 0x80640002#32 = .instr (.lease 3 4 0 2) ∧ decodeWord 0x80A02000#32 = .instr (.lqry 5)
    ∧ decodePlumb [0x8004] = some (.plumbWaittl 0 1) ∧ decodePlumb [0x9840] = some (.plumbEmit 2)
    ∧ decodePlumb [0x6301] = some (.plumbBrf 3 1) ∧ decodePlumb [0xA000] = some .plumbEnd := by decide

/-- spec/01 R22 to R26, spec/04 R119, spec/05: words that are no instruction. -/
theorem test_decode_rejects :
    decodeWord 0xF0A32000#32 = .illegal .laterGeneration .k ∧ decodeWord 0x68000001#32 = .illegal .reservedField .k
    ∧ decodeWord 0x6C009000#32 = .illegal .reservedFunction .k ∧ decodeWord 0x88886001#32 = .illegal .reservedField .k
    ∧ decodeWord 0x888861C0#32 = .illegal .reservedFunction .k ∧ decodeWord 0#32 = .illegal .illegalWord .k := by decide

/-! ### Values that are illegal where their field is used (R21) -/

theorem test_wf_refuses :
    wf (.amoAdd 1 2 3 0 28) = false ∧ wf (.cas 1 2 3 0 31) = false ∧ wf (.vamoSwap 1 2 3 0 29) = false
    ∧ wf (.vcvt 1 2 16 0) = false ∧ wf (.vcvt 1 2 0 16) = false ∧ wf (.loop 1 0) = false ∧ wf (.loop 1 4096) = false
    ∧ wf (.fence 0 3 7) = false ∧ wf (.fence 0 0 1) = false ∧ wf (.fence 1 1 1) = false ∧ wf (.fenceX 0 1) = false
    ∧ wf (.fenceX 1 0) = false ∧ wf (.lease 1 2 3 0) = false ∧ wf (.cpyA 1 2 3 1 31) = false ∧ wf (.sext 1 2 3) = false
    ∧ wf (.zext 1 2 3) = false := by decide

theorem test_wf_accepts :
    wf (.amoAdd 1 2 3 0 24) = true ∧ wf (.vcvt 1 2 15 15) = true ∧ wf (.loop 1 4095) = true ∧ wf (.loop 1 1) = true
    ∧ wf (.fence 1 3 6) = true ∧ wf (.lease 1 2 3 1) = true ∧ wf (.cpyA 1 2 3 1 30) = true ∧ wf (.cpyA 1 2 3 0 31) = true
    ∧ wf (.sext 1 2 2) = true := by decide


/-! ### A small machine: one block of one wave on core 4, in an open context and queue of partition 1 -/

/-- Scalar registers by number, zero where not listed. -/
def sregs (l : List (Nat × Word)) : Vector Word 32 := Vector.ofFn (fun i => ((l.find? (fun x => x.1 == i.val)).map (·.2)).getD 0)

/-- Its wave: s2 an address in its scratchpad, s3 = 8, s4 = 100, s5 = 7. -/
def wave0 : Wave :=
  { Wave.launch 0 0 0 none 0 false 0x400000 0x500000 0 with
    s := sregs [(2, 0x0100000000000040#64), (3, 8), (4, 100), (5, 7)] }

/-- Its split. -/
def split0 : Split := Split.start (BitVec.allOnes 64) 0x400000 (some 0)

/-- Its block: 4 KiB of scratchpad and two accumulator sets. -/
def block0 : Block :=
  { Block.blank with job := some 0, core := 4, waves := [0], scratch := 4096, sets := [0, 1], phase := .running }

/-- Its core: slot 0 filled for operand A, slot 1 for operand B, under a grant of 16 rows, 16 columns and depth 32 in f16. -/
def core4 : CoreSt :=
  let g : Grant := ⟨16, 16, 32, 2, 0⟩
  { CoreSt.reset 4 with
    hcol := 64
    slots := ⟨2, 0, 0, g, 0⟩ :: ⟨2, 0, 1, g, 0⟩ :: List.replicate 14 Slot.free }

/-- The machine with wave `w`. -/
def machine (w : Wave) : State :=
  { State.reset with
    waves := [w]
    vfiles := [.blank]
    blocks := [block0]
    gangs := [⟨[0], 1, 1, [], false⟩]
    cores := [CoreSt.reset 0, CoreSt.reset 1, CoreSt.reset 2, CoreSt.reset 3, core4, CoreSt.reset 5, CoreSt.reset 6, CoreSt.reset 7]
    clusters := [.reset, { ClusterSt.reset with part := some 1, gated := false }]
    parts := [⟨1, [1], 64, 128, 0, 0, [], true, none, 0, 0, [], [], []⟩]
    ctxs := [{ Ctx.blank with opened := true, part := 1, st := .running }]
    queues := [{ Queue.blank with mode := .opened, deleted := false }]
    objs := [⟨1, 0, 0x400000, 0x600000, [⟨1, 2, false, 4096, [0x400000]⟩], 0⟩] }

/-- The machine as it stands. -/
def m0 : State := machine wave0

theorem issues0 : Issues m0 0 0 wave0 split0 := ⟨rfl, rfl, rfl, rfl⟩

theorem straight0 : Straight split0 := fun h => absurd h (by decide)

/-- Of the machine with a wave: the invariants, for a VL the wave's mode admits. -/
theorem good_machine (w : Wave) (h : w.vl ≤ w.vlmax) (hv : w.vfile = 0) (hh : w.half = 0) : Good (machine w) :=
  ⟨rfl, rfl, by simp [machine, h, hv, hh], by simp [machine, core4, CoreSt.reset], by simp [machine, Queue.blank]⟩

theorem good0 : Good m0 := good_machine wave0 (by decide) rfl rfl

/-- What an instruction leaves, as a state. -/
def after (i : Instr) (s : State) : State := match exec i s with
  | .next t => t
  | _ => s

/-! ### Integer registers -/

theorem witness_ScalarArithmeticResults :
    Issues m0 0 0 wave0 split0 ∧ Straight split0 ∧ Reads wave0 [4, 5] ∧ Writes wave0 [31] ∧ Writes wave0 [0] :=
  ⟨issues0, straight0, by unfold Reads; decide, by unfold Writes; decide, by unfold Writes; decide⟩

theorem witness_scalarFrame :
    scalarResult (.remn 3 4 5 1) = some 3 ∧ wf (.remn 3 4 5 1) = true ∧ Reads wave0 (scalarSources (.remn 3 4 5 1)) :=
  ⟨rfl, rfl, by unfold Reads; decide⟩

/-- spec/04 R97, R98: dividing by zero, the one overflow, and the 32-bit forms sign-extended. -/
theorem test_division :
    ((after (.div 3 4 0 0) m0).waves.map (fun w => w.rd 3)) = [BitVec.allOnes 64]
    ∧ ((after (.rem 3 4 0 0) m0).waves.map (fun w => w.rd 3)) = [100]
    ∧ ((after (.div 3 6 7 1) (machine { wave0 with s := sregs [(6, 0x80000000), (7, 0xFFFFFFFF)] })).waves.map (fun w => w.rd 3))
        = [0xFFFFFFFF80000000] := by decide +kernel

theorem test_word_forms :
    ((after (.add 3 6 7 1) (machine { wave0 with s := sregs [(6, 0x7FFFFFFF), (7, 1)] })).waves.map (fun w => w.rd 3)) = [0xFFFFFFFF80000000]
    ∧ ((after (.mulhn 3 6 6 0) (machine { wave0 with s := sregs [(6, 0xFFFFFFFFFFFFFFFF)] })).waves.map (fun w => w.rd 3))
        = [0xFFFFFFFFFFFFFFFE]
    ∧ ((after (.clz 3 0 1) m0).waves.map (fun w => w.rd 3)) = [32]
    ∧ ((after (.add 0 4 5 0) m0).waves.map (fun w => w.rd 0)) = [0] := by decide +kernel

/-! ### Control transfer -/

theorem witness_TransferResults :
    InRange split0 (split0.pc + (0x8000#16).signExtend 64 * 4) split0.pc true
    ∧ InRange split0 (split0.pc + (0x7FFF#16).signExtend 64 * 4) split0.pc true
    ∧ InRange split0 (split0.pc + (0x1FFFFFF#26).signExtend 64 * 4) split0.pc true
    ∧ InRange split0 ((wave0.rd 4 + (0xFFFF#16).signExtend 64) &&& ~~~3#64) split0.pc true :=
  ⟨fun h => absurd h (by decide), fun h => absurd h (by decide), fun h => absurd h (by decide), fun h => absurd h (by decide)⟩

/-- A split in a loop that ends at its address, inside another that ends there or further on. -/
def looped (depth : Nat) (cnt scnt sfin : Word) : Split := { split0 with loops := ⟨cnt, 0x3FFFF0, 0x400000, depth, scnt, 0x3FFFE0, sfin⟩ }

theorem witness_LoopResults :
    wave0.rd 5 ≠ 0 ∧ wave0.rd 6 = 0 ∧ split0.loops.depth = 0
    ∧ InRange split0 (split0.pc + (4095#16).setWidth 64 * 4 + 4) (split0.pc + (4095#16).setWidth 64 * 4) false
    ∧ (looped 1 1 0 0).loops.depth = 1 ∧ (looped 1 1 0 0).loops.fin < (looped 1 1 0 0).pc + (1#16).setWidth 64 * 4
    ∧ (looped 2 1 1 0).loops.depth = 2 ∧ CutClosed wave0 :=
  ⟨by decide, by decide, rfl, fun h => absurd h (by decide), rfl, by decide, rfl, by unfold CutClosed; decide⟩

/-- spec/04 R107: the last pass of a loop falls through, another goes back, and two loops that end together end in one step. -/
theorem test_loop_ends :
    loopStep 3 (looped 1 1 0 0).loops 0x400004 0x400000 false = (0x400004, { (looped 1 1 0 0).loops with cnt := 0, depth := 0 })
    ∧ (loopStep 3 (looped 1 2 0 0).loops 0x400004 0x400000 false).1 = 0x3FFFF0
    ∧ (loopStep 3 (looped 2 1 2 0x400000).loops 0x400004 0x400000 false).1 = 0x3FFFE0
    ∧ (loopStep 3 (looped 2 1 1 0x400000).loops 0x400004 0x400000 false).1 = 0x400004 := by decide

/-- Two splits: the issuing one above or below the other. -/
def wave2 (pc other : Word) : Wave :=
  { wave0 with splits := [Split.start 0xFF pc (some 0), Split.start 0xFF00 other (some 1)], k := (Vector.replicate 8 0).set 2 0xF }

theorem witness_SplitResults :
    (Split.start 0xFF 0x400000 (some 0)).mask &&& ((wave2 0x400000 0x400010).rdK 2 <<< (wave2 0x400000 0x400010).laneBase) = 0xF
    ∧ (Split.start 0xFF 0x400000 (some 0)).mask &&& ((wave2 0x400000 0x400010).rdK 0 <<< (wave2 0x400000 0x400010).laneBase) = 0xFF
    ∧ (Split.start 0xFF 0x400000 (some 0)).mask &&& ((wave2 0x400000 0x400010).rdK 3 <<< (wave2 0x400000 0x400010).laneBase) = 0
    ∧ (wave2 0x400000 0x400010).lvl = 0 := by decide

/-- spec/04 R109, R110: a divided split, and one that waits at a JOIN for a lower one. -/
theorem test_split_join :
    ((after (.brd 2 4) (machine (wave2 0x400000 0x400020))).waves.map (fun w => w.splits.map (fun x => (x.mask, x.pc))))
        = [[(0xFF00, 0x400020), (0xF0, 0x400004), (0xF, 0x400010)]]
    ∧ ((after .join (machine (wave2 0x400004 0x400000))).waves.map (fun w => w.splits.map (fun x => (x.pc, x.held.isSome))))
        = [[(0x400004, true), (0x400000, false)]] := by decide +kernel

/-! ### Memory -/

/-- Bytes of memory: a page table with its root at 0 and one table at 0x100000, whose entries are gigapages: code here, data here, data of device 5, data of
the host, and data here of class device. -/
def tables : List Host.Cell :=
  let put (m : List Host.Cell) (x : Nat × Nat) : List Host.Cell := memWriteBytes m (hbmKey [1] x.1) (leBytes 8 x.2)
  [(0, 0x100001), (0x100000, 0x75), (0x100008, 0x40000073), (0x100010, 0x500000000000F3), (0x100018, 0x173), (0x100020, 0x8000007B)].foldl put []

/-- The machine with that page table, routes to device 5 and port 0 up. -/
def mapped (w : Wave) : State :=
  { machine w with
    mem := tables
    fabric := ⟨2, true, ⟨8, 0, some 1⟩ :: List.replicate 17 ⟨0, 0, none⟩, [], [], [], [], [], []⟩
    parts := [⟨1, [1], 64, 128, 0, 0, [7], true, none, 0, 0, [(5, 3)], [(5, [0])], []⟩] }

/-- A place in the wave's scratchpad. -/
def spot : Nat := memKey .scratch 4 64

theorem witness_LoadResults :
    m0.resolve 0 wave0 (wave0.rd 2 + (0#13).signExtend 64) 8 8 .read = .ok (.here spot false)
    ∧ m0.resolve 0 wave0 (wave0.rd 2 + (0xFFF#13).signExtend 64) 1 1 .read ≠ .ok (.here spot false)
    ∧ m0.resolve 0 wave0 (wave0.rd 2 + (4031 - 7 : BitVec 13).signExtend 64) 8 8 .read = .ok (.here (spot + 4024) false)
    ∧ Reads wave0 [2] ∧ Writes wave0 [0] := by
  refine ⟨by decide +kernel, by decide +kernel, by decide +kernel, ?_, ?_⟩ <;> simp only [Reads, Writes] <;> decide

/-- A byte and a half-word loaded with and without the sign, the lowest address first (spec/04 R100, spec/00 R9). -/
theorem test_loads :
    ((after (.ldsS8 9 2 1) (m0.writeN spot 8 0x80FF7F01E2F3A4C5)).waves.map (·.pend)) = [[.scalar 9 0xFFFFFFFFFFFFFFA4 false]]
    ∧ ((after (.ldsN16 9 2 6) (m0.writeN spot 8 0x80FF7F01E2F3A4C5)).waves.map (·.pend)) = [[.scalar 9 0x80FF false]]
    ∧ ((after (.ldsS64 9 2 0) { m0.writeN spot 8 5 with pois := [spot / 8] }).waves.map (·.pend)) = [[.scalar 9 0 true]] := by
  decide +kernel

theorem witness_StoreResults :
    m0.resolve 0 wave0 (wave0.rd 2 + (8#13).signExtend 64) 8 8 .write = .ok (.here (spot + 8) false)
    ∧ (mapped { wave0 with s := sregs [(2, 0x40000000)] }).resolve 0 { wave0 with s := sregs [(2, 0x40000000)] } 0x40000000 1 1 .write
        = .ok (.here (hbmKey [1] 0x40000000) false)
    ∧ m0.outside { wave0 with s := sregs [(2, 0x40000000)] } 0x40000000 = true := by decide +kernel

theorem test_store_low_bytes_first :
    ((after (.sts16 4 2 4) (machine { wave0 with s := sregs [(2, 0x0100000000000040), (4, 0x12345678)] })).readN spot 8) = 0x567800000000 := by
  decide +kernel

theorem witness_AtomicResults :
    m0.resolve 0 wave0 (wave0.rd 2) 4 4 .write = .ok (.here spot false) ∧ m0.resolve 0 wave0 (wave0.rd 2) 8 8 .write = .ok (.here spot false)
    ∧ m0.poisoned spot 8 = false ∧ Reads wave0 [2, 4, 5] ∧ Writes wave0 [5] := by
  refine ⟨by decide +kernel, by decide +kernel, by decide, ?_, ?_⟩ <;> simp only [Reads, Writes] <;> decide

theorem test_atomics :
    ((after (.amoMin 9 2 4 1 0) ((machine { wave0 with s := sregs [(2, 0x0100000000000040), (4, 0xFFFFFFFF)] }).writeN spot 4 5)).readN spot 8) = 0xFFFFFFFF
    ∧ ((after (.cas 3 2 4 0 0) (m0.writeN spot 8 8)).readN spot 8) = 100
    ∧ ((after (.cas 3 2 4 0 0) (m0.writeN spot 8 9)).readN spot 8) = 9 := by decide +kernel

/-- A wave whose s2 is an address of device 5, and the same with its answer there. -/
def waveAway : Wave := { wave0 with s := sregs [(2, 0x80000040), (4, 100), (5, 7)] }
def waveAsk : Wave :=
  { waveAway with ask := some ⟨0, none, 0, [split0], 0, [], .load 9 8 true 0x80000040, 0⟩, ahead := true, sFull := 0xFFFFFDFF, hist := [.reg 5 6 false] }
def answered0 : State :=
  let s := mapped waveAsk
  { s with fabric := { s.fabric with out := [⟨1, [(5, 1, .read 0x40 8)], .access 0, 0, none, 4⟩] } }

theorem witness_RemoteAccess :
    (mapped waveAway).reaches ((mapped waveAway).ctxOf waveAway).part 5 = true
    ∧ (mapped waveAway).resolve 0 waveAway (waveAway.rd 2) 8 8 .read = .ok (.away 5 0x40 false)
    ∧ (mapped waveAway).resolve 0 waveAway (waveAway.rd 2) 8 8 .write = .ok (.away 5 0x40 false)
    ∧ ((after (.ldsS64 9 2 0) (mapped waveAway)).fabric.out.map (·.ops)) = [[(5, 1, .read 0x40 8)]]
    ∧ ((after (.ldsS64 9 2 0) (mapped waveAway)).waves.map (fun w => (w.ahead, w.sIsFull 9, w.pend))) = [(true, false, [])]
    ∧ ((after (.ldsS64 10 2 0) answered0).waves.map (fun w => w.splits.map (·.stalls))) = [[true]]
    ∧ ((after (.remoteResponse 0 ⟨leBytes 8 77, List.replicate 8 false, none⟩) answered0).waves.map (fun w => (w.ask.isNone, w.pend))) = [(true, [.scalar 9 77 false])]
    ∧ ((after (.remoteRequestTimeout 0) { answered0 with time := 200000 }).waves.map (fun w => (w.lvl, w.rd 5, w.ahead))) = [(1, 6, false)] := by decide +kernel

/-- A copy of the wave that is out. -/
def copy0 : Copy :=
  { (m0.newCopy 0 wave0) with src := .mem 0x0100000000000000 0, dst := .mem 0x0100000000000100 0, rows := 1, rowBytes := 16, target := .signal 0x0100000000000200 9 }

theorem witness_FenceResults :
    (∃ c ∈ ({ m0 with copies := [copy0] } : State).copies, c.wave = some 0 ∧ c.finished = false)
    ∧ (0x04#6).getLsbD 2 = true ∧ (0x10#6).getLsbD 4 = true ∧ (0x20#6).getLsbD 5 = true
    ∧ exec (.fence 1 3 2) { m0 with copies := [copy0] } = .next (({ m0 with copies := [copy0] } : State).stall 0 0)
    ∧ exec (.fence 1 3 2) m0 = .next (stepped m0 0 0 split0) :=
  ⟨⟨copy0, by simp [copy0], rfl, rfl⟩, by decide, by decide, by decide, rfl, rfl⟩

/-! ### Exceptions -/

/-- The machine in its handler of level 1, after a trap of cause 12. -/
def handling : State := m0.takeTrap 0 0 0x400000 ⟨12, 3, 77⟩ false false

/-- Its wave. -/
def waveH : Wave := wave0.enter 0 1 0x500000

/-- Its split. -/
def splitH : Split := Split.start (BitVec.allOnes 64) 0x500000 (some 0)

theorem issuesH : Issues handling 0 0 waveH splitH :=
  ⟨by decide +kernel, by decide +kernel, by decide +kernel, by decide +kernel⟩

theorem goodH : Good handling :=
  ⟨by decide +kernel, by decide +kernel, by decide +kernel, by decide +kernel, by
    have h : handling.queues = [{ Queue.blank with mode := .opened, deleted := false }] := by decide +kernel
    rw [h]
    simp [Queue.blank]⟩

theorem witness_TrapEntryAndFrame :
    (m0.drain 0).waves[0]? = some wave0 ∧ wave0.splits[0]? = some split0 ∧ (⟨12, 3, 77⟩ : Trap).parks = false ∧ wave0.trapbase ≠ 0
    ∧ m0.debugEntry wave0 = none
    ∧ ({ m0 with queues := [{ Queue.blank with debugEntry := some 0x700000 }] } : State).debugEntry wave0 = some 0x700000 := by
  decide +kernel

theorem test_trap_frame :
    handling.waves.map (fun w => (w.lvl, w.splits.map (·.pc), w.frozen.map (·.pc))) = [(1, [0x500000], [0x400000])]
    ∧ handling.frameWord 0 1 256 = 0x400000 ∧ handling.frameWord 0 1 264 = 12 + 256 * 3 ∧ handling.frameWord 0 1 272 = 77
    ∧ handling.frameWord 0 1 32 = 100 := by decide +kernel

theorem witness_TrapsThatStopOrPark :
    (m0.drain 0).waves[0]? = some wave0 ∧ m0.queues[(m0.block wave0.block).queue]? = some { Queue.blank with mode := .opened, deleted := false }
    ∧ (⟨8, 1, 0x1000⟩ : Trap).parks = true
    ∧ ((machine { wave0 with trapbase := 0 }).takeTrap 0 0 0x400000 ⟨12, 0, 0⟩ false false).waves.map (·.stopped) = [some .unhandled]
    ∧ ((machine { wave0 with lvl := 2 }).takeTrap 0 0 0x400000 ⟨12, 0, 0⟩ false false).waves.map (·.stopped) = [some .doubleFault]
    ∧ (m0.takeTrap 0 0 0x400000 ⟨20, 0, 0⟩ false false).waves.map (·.stopped) = [some .divergence]
    ∧ (m0.takeTrap 0 0 0x400000 ⟨8, 1, 0x1000⟩ true false).waves.map (·.park) = [some ⟨8, 1, 0x1000, true, 1, 0⟩] := by decide +kernel

theorem witness_ReturnRestores :
    waveH.lvl ≠ 0 ∧ waveH.pend = [] ∧ handling.rteOk 0 waveH waveH.lvl = true
    ∧ (after .rte handling).waves.map (fun w => (w.lvl, w.splits.map (·.pc), w.rd 4)) = [(0, [0x400000], 100)] := by decide +kernel

theorem witness_SystemInstructions :
    Issues m0 0 0 wave0 split0 ∧ CutClosed wave0 ∧ wave0.lvl = 0 ∧ wave0.latch = false
    ∧ Issues handling 0 0 waveH splitH ∧ waveH.lvl ≠ 0 ∧ CutClosed waveH :=
  ⟨issues0, by unfold CutClosed; decide, rfl, rfl, issuesH, by decide +kernel, by unfold CutClosed; decide +kernel⟩

/-- spec/04 R112: TRAP saves the next address, BRK its own; spec/07 R188: HALT at level 1 faults the queue with the cause of its frame. -/
theorem test_system :
    (after (.trap 7) m0).frameWord 0 1 256 = 0x400004 ∧ (after (.trap 7) m0).frameWord 0 1 272 = 7
    ∧ (after (.brk 7) m0).frameWord 0 1 256 = 0x400000
    ∧ (after .halt handling).queues.map (·.fault) = [some (5, 12, 3, 77)] := by decide +kernel

theorem witness_VectorClaim :
    waveH.claims.getLsbD waveH.lvl = false ∧ waveH.lvl < 4
    ∧ ({ waveH with claims := 2 }).claims.getLsbD waveH.lvl = true
    ∧ handling.vectorWordsOk 0 { waveH with claims := 2 } 1 = true := by decide +kernel

theorem witness_SpecialRegisterReads :
    Issues handling 0 0 waveH splitH ∧ Straight splitH ∧ Writes waveH [7] ∧ waveH.lvl ≠ 0 ∧ waveH.lvl ≠ 3
    ∧ CutClosed wave0 ∧ encodeWord (.srr 7 0x0BF) = some 0x70E000BF :=
  ⟨issuesH, fun h => absurd h (by decide), by unfold Writes; decide +kernel, by decide +kernel, by decide +kernel, by unfold CutClosed; decide, by decide⟩

/-- spec/04 R118, spec/02 Table 2.6: VLMAX and the class of the core. -/
theorem test_special_registers :
    (after (.srr 7 0x001) m0).waves.map (fun w => w.rd 7) = [64] ∧ (after (.srr 7 0x015) m0).waves.map (fun w => w.rd 7) = [0]
    ∧ (after (.srr 7 0x042) handling).waves.map (fun w => w.rd 7) = [77]
    ∧ (after (.srr 7 0x042) m0).frameWord 0 1 264 = 2 := by decide +kernel

/-- The value a write of WMODE admits, and one it refuses. -/
theorem witness_SpecialRegisterWrites :
    Reads waveH [4] ∧ (64#64).toNat ≤ waveH.vlmax ∧ waveH.vlmax < (65#64).toNat
    ∧ (bits (0x1FFCFF#64).toNat 63 21 = 0 ∧ bits (0x1FFC7F#64).toNat 10 8 ≤ 4 ∧ bits (0x1FFC7F#64).toNat 7 3 < 16)
    ∧ ¬ (bits (0x200000#64).toNat 63 21 = 0) ∧ (0x01FFFFFFFFFFFFFC#64).extractLsb' 57 7 = 0
    ∧ (0x01FFFFFFFFFFFFFC#64).extractLsb' 0 2 = 0 ∧ encodeWord (.srw 4 0x002) = some 0x74040002 := by
  refine ⟨by unfold Reads; decide +kernel, ?_⟩
  decide +kernel

/-- The handler at level 3, in the debugger's place. -/
def debugging : State := machine { wave0 with lvl := 3, s := sregs [(4, 0x700000)] }

theorem witness_RegisterWriteEvents :
    Issues debugging 0 0 { wave0 with lvl := 3, s := sregs [(4, 0x700000)] } split0
    ∧ (0x700000#64).extractLsb' 57 7 = 0 ∧ (0x700000#64).extractLsb' 0 12 = 0 ∧ split0.loops.depth = 0 ∧ wave0.splits = [split0]
    ∧ (after (.comparatorRegisterWrite 4 0x08E) debugging).cores.map (fun c => c.dcAddr[7]) = [0, 0, 0, 0, 0x700000, 0, 0, 0]
    ∧ (after (.traceRegisterWrite 4 0x090) debugging).cores.map (·.trcBase) = [0, 0, 0, 0, 0x700000, 0, 0, 0] := by
  exact ⟨⟨rfl, rfl, rfl, rfl⟩, by decide, by decide, rfl, rfl, by decide +kernel, by decide +kernel⟩

/-! ### Vectors -/

theorem witness_VectorControlAndMaskResults :
    Issues m0 0 0 wave0 split0 ∧ wave0.unclaimed = false ∧ (m0.core (m0.coreOf wave0)).trcCtl.getLsbD 9 = false
    ∧ (wave0.rd 4).toNat ≤ 100 ∧ bits (wave0.rd 3).toNat 63 21 = 0 ∧ bits (wave0.rd 3).toNat 10 8 ≤ 4 ∧ bits (wave0.rd 3).toNat 7 3 < 16 :=
  ⟨issues0, by decide, by decide +kernel, by decide, by decide, by decide, by decide⟩

/-- spec/05 R129: a request beyond VLMAX is cut to it, and to VLCAP's share. -/
theorem test_setvl :
    (after (.setvl 9 4) m0).waves.map (fun w => (w.vl, w.rd 9)) = [(64, 64)]
    ∧ (after (.setvli 9 5) m0).waves.map (fun w => (w.vl, w.rd 9)) = [(5, 5)]
    ∧ (after (.setvl 9 4) (m0.updCore 4 (fun c => { c with vlcap := 24 }))).waves.map (fun w => (w.vl, w.rd 9)) = [(24, 24)] := by decide +kernel

/-- A wave in mode `m` with a VL, guard mask k1 = `k1`. -/
def waveV (m : BitVec 32) (vl : Nat) (k1 : Word) : Wave :=
  { wave0 with wmode := m, vl := vl, k := ((Vector.replicate 8 0).set 1 k1).set 2 0xA5 }

/-- The machine with that wave, its v16 and v24 the elements listed, 32 bits each. -/
def machineV (w : Wave) (a b : Nat) : State :=
  { machine w with vfiles := [{ VFile.blank with v := ((Vector.replicate 32 0).set 16 (BitVec.ofNat 2048 a)).set 24 (BitVec.ofNat 2048 b) }] }

/-- `VecReady`, computed. -/
def ready (s : State) (w : Wave) (p : VPlan) : Bool :=
  !s.streamsHeld 0 w (w.streamsUsed p) && !w.unclaimed && p.aligned && !p.big && p.typeOk && p.maskOk
    && w.streams.all (fun t => !t.clash p && (!t.used p || t.err.isNone))
    && p.ss.all (fun x => w.sIsFull x.1 && !w.sIsPois x.1) && p.sd.all (fun r => w.sIsFull r)
    && p.reads.all (fun r => (regRange r.base r.count).all (fun n => w.vIsFull n) && r.regs.all (fun n => !w.vIsPois n))
    && p.writes.all (fun g => (regRange g.1 g.2).all (fun n => w.vIsFull n))

theorem vecReady_of_ready {s : State} {w : Wave} {p : VPlan} (h : ready s w p = true) : VecReady s 0 w p := by
  simp only [ready, Bool.and_eq_true, List.all_eq_true, Bool.not_eq_true', Bool.or_eq_true] at h
  obtain ⟨⟨⟨⟨⟨⟨⟨⟨⟨⟨h0, h1⟩, h2⟩, h3⟩, h4⟩, h5⟩, h6⟩, h7⟩, h8⟩, h9⟩, h10⟩ := h
  refine ⟨h0, h1, h2, h3, h4, h5, fun t ht => ⟨(h6 t ht).1, fun hu => ?_⟩, ?_, h8, fun r hr => h9 r hr, fun g hg => h10 g hg⟩
  · cases (h6 t ht).2 with
    | inl h => simp [h] at hu
    | inr h => simpa using h
  · intro r hr
    obtain ⟨x, hx, rfl⟩ := List.mem_map.mp hr
    exact h7 x hx

/-- WMODE of s32 under guard k1, and of f32. -/
theorem witness_VectorOperationResults :
    Good (machineV (waveV 0x51 3 5) 7 9) ∧ Issues (machineV (waveV 0x51 3 5) 7 9) 0 0 (waveV 0x51 3 5) split0
    ∧ VecReady (machine (waveV 0x51 3 5)) 0 (waveV 0x51 3 5) (vopPlan (waveV 0x51 3 5) split0 (some 8) 16 24 0 none true true)
    ∧ VecReady (machine (waveV 0x51 3 5)) 0 (waveV 0x51 3 5) (vopPlan (waveV 0x51 3 5) split0 (some 8) 16 4 1 none true true)
    ∧ VecReady (machine (waveV 8 64 0)) 0 (waveV 8 64 0) (vopPlan (waveV 8 64 0) split0 (some 8) 16 24 0 (some 8) true true)
    ∧ (isArith (waveV 8 64 0).etype || decide (8 ≤ (waveV 8 64 0).etype)) = true
    ∧ (waveV 0x51 3 5).actives split0 = [0, 2] := by
  refine ⟨?_, ⟨rfl, rfl, rfl, rfl⟩, ?_, ?_, ?_, by decide, by decide⟩
  · exact ⟨rfl, rfl, by simp [machineV, machine, waveV, wave0, Wave.launch, Wave.wr, Wave.vlmax, vlmaxOf, sewOf], by simp [machineV, machine, core4, CoreSt.reset],
      by simp [machineV, machine, Queue.blank]⟩
  all_goals exact vecReady_of_ready (by decide +kernel)

/-- Its group operands ready, the plan of a VOP; a NaN compared less-than raises NV (spec/05 R136). -/
theorem witness_ComparisonResults :
    VecReady (machine (waveV 8 2 0)) 0 (waveV 8 2 0) (vopPlan (waveV 8 2 0) split0 none 16 24 0 none true (decide ((waveV 8 2 0).vl ≤ (waveV 8 2 0).lanes)))
    ∧ (after (.vcmpLt 3 16 24 0) (machineV (waveV 8 2 0) 0x400000003F800000 0x7F80000140000000)).waves.map (fun w => (w.rdK 3, w.wstat)) = [(1, NV)] := by
  repeat' (first | exact vecReady_of_ready (by decide +kernel) | apply And.intro)
  all_goals decide +kernel

theorem witness_VectorUnaryResults :
    VecReady (machine (waveV 8 2 0)) 0 (waveV 8 2 0) { reads := [groupRead (waveV 8 2 0) 16 0 1 32 [0, 1]], writes := [(8, 1)], typeOk := true }
    ∧ VecReady (machine (waveV 0x50 3 0)) 0 (waveV 0x50 3 0) { writes := [(8, 1)], typeOk := decide (8 ≤ (waveV 0x50 3 0).etype) }
    ∧ VecReady (machine (waveV 8 2 0)) 0 (waveV 8 2 0) { ss := [(4, 0)], writes := [(8, 1)] } := by
  repeat' (first | exact vecReady_of_ready (by decide +kernel) | apply And.intro)

/-- spec/05 R134, R135: VIOTA counts the chosen lanes below; the square root of 4 is 2; VNOT and VBCAST. -/
theorem test_unary :
    ((after (.viota 8 2) (machineV (waveV 0x50 4 0) 0 0)).vfiles.map (fun f => f.v[8])) = [0x00000002000000010000000100000000]
    ∧ ((after (.vsqrt 8 16) (machineV (waveV 8 1 0) 0x40800000 0)).vfiles.map (fun f => f.v[8])) = [0x40000000]
    ∧ ((after (.vbcast 8 4) (machineV (waveV 0x51 3 5) 0 0)).vfiles.map (fun f => f.v[8])) = [0x000000640000000000000064] := by
  decide +kernel

/-- spec/05 R132: the sum and the minimum of s32 elements under a guard, the inactive element kept. -/
theorem test_integer_elements :
    ((after (.vadd 16 16 24 0) (machineV (waveV 0x51 3 5) 0xFFFFFFFF0000000200000001 0x000000070000000900000005)).vfiles.map (fun f => f.v[16]))
      = [0x000000060000000200000006]
    ∧ ((after (.vmin 8 16 24 0) (machineV (waveV 0x50 1 0) 0xFFFFFFFF 5)).vfiles.map (fun f => f.v[8])) = [0xFFFFFFFF]
    ∧ ((after (.vmin 8 16 24 0) (machineV (waveV 0x70 1 0) 0xFFFFFFFF 5)).vfiles.map (fun f => f.v[8])) = [5] := by decide +kernel

theorem witness_ConversionResults :
    VecReady (machine (waveV 8 2 0)) 0 (waveV 8 2 0) { reads := [groupRead (waveV 8 2 0) 16 0 1 32 [0, 1]], writes := [(8, 1)], big := (waveV 8 2 0).tooBig 1 || (waveV 8 2 0).tooBig 2 }
    ∧ VecReady (machine (waveV 8 2 0)) 0 (waveV 8 2 0) { reads := [groupRead (waveV 8 2 0) 16 0 1 32 [0, 1], ⟨24, 1, 1, [24]⟩], writes := [(8, 1)], typeOk := true, big := (waveV 8 2 0).tooBig 4 }
    ∧ (waveV 8 2 0).actives split0 = [0, 1] := by
  repeat' (first | exact vecReady_of_ready (by decide +kernel) | apply And.intro)
  all_goals decide +kernel

/-- spec/05 R137: 1.0 and -2.0 from f32 to f16, and 2^31 saturated to s32. -/
theorem test_conversion :
    ((after (.vcvt 8 16 1 2) (machineV (waveV 8 2 0) 0xC00000003F800000 0)).vfiles.map (fun f => f.v[8])) = [0xC0003C00]
    ∧ ((after (.vcvt 8 16 1 10) (machineV (waveV 0x808 1 0) 0x4F000000 0)).vfiles.map (fun f => f.v[8])) = [0x7FFFFFFF] := by decide +kernel

theorem witness_PermuteResults :
    VecReady (machine (waveV 0x50 3 0)) 0 (waveV 0x50 3 0) { ({ reads := [groupRead (waveV 0x50 3 0) 16 0 1 32 [0], groupRead (waveV 0x50 3 0) 24 1 1 32 [0, 1, 2]] } : VPlan) with writes := [(8, 1)] }
    ∧ VecReady (machine (waveV 0x50 3 0)) 0 (waveV 0x50 3 0) { reads := [groupRead (waveV 0x50 3 0) 16 0 1 32 [36]], ss := [(4, 1)], sd := [9] } := by
  repeat' (first | exact vecReady_of_ready (by decide +kernel) | apply And.intro)

/-- spec/05 R140, R141: shuffle by index, compress, and the element 100 modulo 64 extracted with its sign. -/
theorem test_permutes :
    ((after (.vshfl 8 16 24) (machineV (waveV 0x50 3 0) 0x333333332222222211111111 0x000000000000004100000002)).vfiles.map (fun f => f.v[8]))
      = [0x111111112222222233333333]
    ∧ ((after (.vcompr 8 16 2) (machineV (waveV 0x50 4 0) 0x44444444333333332222222211111111 0)).vfiles.map (fun f => f.v[8])) = [0x3333333311111111]
    ∧ ((after (.vextr 9 16 4) (machineV (waveV 0x50 3 0) (0x80000000 * 2 ^ 1152) 0)).waves.map (fun w => w.rd 9)) = [0xFFFFFFFF80000000] := by decide +kernel

theorem witness_ReductionResults :
    (waveV 0x50 2 0).atrap = false ∧ (waveV 0x50 2 0).active split0 0 = true ∧ (waveV 0x50 2 0).active split0 1 = true
    ∧ VecReady (machine (waveV 0x50 2 0)) 0 (waveV 0x50 2 0) { reads := [groupRead (waveV 0x50 2 0) 16 0 1 32 [0, 1]], ss := [(5, 1)], sd := [9], typeOk := true }
    ∧ (after (.vredSum 9 16 5) (machineV (waveV 0x50 2 0) 0x0000000500000003 0)).waves.map (·.pend) = [[.scalar 9 15 false]] := by
  repeat' (first | exact vecReady_of_ready (by decide +kernel) | apply And.intro)
  all_goals decide +kernel

/-- spec/05 R144: k3 = 0x320 with VL 10 has its first bit at 5 and 3 bits; MTIL and MTILI give the bits below and up to it. -/
def waveM : Wave := { waveV 0x50 10 0 with k := (Vector.replicate 8 0).set 3 0x320 }

theorem witness_maskOperations :
    waveM.unclaimed = false ∧ waveM.vl ≤ waveM.lanes ∧ (5 < min waveM.vl waveM.lanes ∧ (waveM.rdK 3).getLsbD 5 = true ∧ ∀ j, j < 5 → (waveM.rdK 3).getLsbD j = false)
    ∧ (∀ i, i < min waveM.vl waveM.lanes → (waveM.rdK 4).getLsbD i = false) := by decide +kernel

theorem test_masks :
    (after (.mfirst 9 3) (machine waveM)).waves.map (fun w => w.rd 9) = [5] ∧ (after (.mcnt 9 3) (machine waveM)).waves.map (fun w => w.rd 9) = [3]
    ∧ (after (.mtil 2 3) (machine waveM)).waves.map (fun w => w.rdK 2) = [0x1F] ∧ (after (.mtili 2 3) (machine waveM)).waves.map (fun w => w.rdK 2) = [0x3F] := by
  decide +kernel

/-! ### Vector memory and streams -/

theorem here0 (kind : AccKind) (hk : kind ≠ .fetch) :
    Here (machine (waveV 0x50 4 0)) 0 (waveV 0x50 4 0) 0 4 kind (fun j => 0x0100000000000040#64 + word (j * 32 / 8)) [0, 1, 2, 3] (fun j => spot + 4 * j) := by
  intro j hj
  refine ⟨0x0100000000000040#64 + word (j * 32 / 8), false, ?_, ?_⟩
  · revert j; decide +kernel
  · cases kind with
    | fetch => exact absurd rfl hk
    | read => revert j; decide +kernel
    | write => revert j; decide +kernel

theorem witness_VectorLoadResults :
    VecReady (machine (waveV 0x50 4 0)) 0 (waveV 0x50 4 0) { ({ ss := [(2, 0)] } : VPlan) with writes := [(8, 1)] } ∧ (waveV 0x50 4 0).streams = []
    ∧ (waveV 0x50 4 0).rd 2 = 0x0100000000000040 ∧ (waveV 0x50 4 0).todo split0 = [0, 1, 2, 3]
    ∧ Here (machine (waveV 0x50 4 0)) 0 (waveV 0x50 4 0) 0 4 .read (fun j => 0x0100000000000040#64 + word (j * 32 / 8)) [0, 1, 2, 3] (fun j => spot + 4 * j) := by
  refine ⟨vecReady_of_ready (by decide +kernel), rfl, by decide, by decide, here0 .read (by decide)⟩

/-- A load whose third element lies past the end of the allocation. -/
def waveEdge : Wave := { waveV 0x50 4 0 with s := sregs [(2, 0x0100000000000FF8)] }

theorem witness_VectorLoadFaults :
    waveEdge.todo split0 = [0, 1] ++ 2 :: [3] ∧ waveEdge.todo split0 = 0 :: [1] ++ 2 :: [3] ∧ (waveEdge.actives split0).head? = some 0
    ∧ spaceAddr 0 (waveEdge.rd 2 + word (2 * 32 / 8)) = some 0x0100000000001000
    ∧ (machine waveEdge).resolve 0 waveEdge 0x0100000000001000 4 4 .read = .trap 6 0
    ∧ (machine waveEdge).resolve 0 waveEdge 0x0100000000000FFC 4 4 .read = .ok (.here (memKey .scratch 4 4092) false)
    ∧ CutClosed waveEdge
    ∧ (after (.vld 8 2) (machine waveEdge)).waves.map (fun w => (w.lvl, w.esr)) = [(1, 2)]
    ∧ (after (.vldf 8 2) (machine waveEdge)).waves.map (fun w => (w.lvl, w.vl)) = [(0, 2)] := by
  unfold CutClosed; decide +kernel

theorem witness_VectorStoreResults :
    VecReady (machine (waveV 0x50 4 0)) 0 (waveV 0x50 4 0) { ({ ss := [(2, 0)] } : VPlan) with reads := [groupRead (waveV 0x50 4 0) 8 2 1 32 [0, 1, 2, 3]] }
    ∧ Here (machine (waveV 0x50 4 0)) 0 (waveV 0x50 4 0) 0 4 .write (fun j => 0x0100000000000040#64 + word (j * 32 / 8)) [0, 1, 2, 3] (fun j => spot + 4 * j)
    ∧ ∀ j ∈ [0, 1, 2, 3], ∀ k ∈ [0, 1, 2, 3], j ≠ k → Apart (spot + 4 * j) (spot + 4 * k) 4 := by
  refine ⟨vecReady_of_ready (by decide +kernel), here0 .write (by decide), ?_⟩
  intro j _ k _ h
  unfold Apart
  omega

theorem witness_VectorAtomicResults :
    VecReady (machine (waveV 0x50 1 0)) 0 (waveV 0x50 1 0) { reads := [groupRead (waveV 0x50 1 0) 8 2 1 32 [0], groupRead (waveV 0x50 1 0) 24 1 1 32 [0]], writes := [(8, 1)], ss := [(2, 0)], big := (waveV 0x50 1 0).tooBig 10, typeOk := (waveV 0x50 1 0).sew == 32 }
    ∧ ((after (.vamoAdd 8 2 24 1 0) (machineV (waveV 0x50 2 0) 0 0x0000000800000000)).waves.map (fun w => w.lvl)) = [0]
    ∧ (machine (waveV 0x50 1 0)).poisoned spot 4 = false :=
  ⟨vecReady_of_ready (by decide +kernel), by decide +kernel⟩

/-- A descriptor of a read stream of f32: chunks of 4, 8 elements of stride 4 from s2, one row. -/
def streamBytes : List Byte :=
  leBytes 1 1 ++ leBytes 1 1 ++ leBytes 2 0 ++ leBytes 4 4 ++ leBytes 8 0x0100000000000100 ++ leBytes 8 4 ++ leBytes 8 8 ++ leBytes 8 1 ++ leBytes 24 0

/-- The stream it states, bound at v8. -/
def stream0 : Stream :=
  { reg := 8, kind := 1, fmt := 1, port := 0, chunk := 4, base := 0x0100000000000100, stride := 4, count := 8, rows := 1, rowStride := 0, space := 0, g := 1,
    done := 0, filled := 0, part := [], full := false, due := false, drained := false, ask := none, err := none, told := false, since := 0, todo := [] }

theorem witness_StreamInstructions :
    parseStream streamBytes 8 1 2048 0 0 = some stream0 ∧ stream0.isPort = false
    ∧ (m0.writeBytes spot streamBytes).resolve 0 wave0 (wave0.rd 2) 64 64 .read = .ok (.here spot false)
    ∧ (m0.writeBytes spot streamBytes).poisoned spot 64 = false
    ∧ (after (.sbind 8 2) (m0.writeBytes spot streamBytes)).waves.map (·.streams) = [[stream0]]
    ∧ (after (.sunb 8) (machine { wave0 with streams := [stream0] })).waves.map (·.streams) = [[]] := by decide +kernel

theorem witness_StreamEngine :
    (machine { wave0 with streams := [stream0] }).waves[0]? = some { wave0 with streams := [stream0] }
    ∧ ({ wave0 with streams := [stream0] } : Wave).stream? 8 = some stream0 ∧ stream0.chunk * sewOf stream0.fmt ≤ stream0.g * wave0.regBits
    ∧ (machine wave0).resolve 0 wave0 0x0100000000000100 4 4 .read = .ok (.here (spot + 192) false)
    ∧ ((after (.streamFill 0 8) (machine { wave0 with streams := [stream0] })).waves.map (fun w => w.streams.map (fun t => (t.full, t.filled)))) = [[(true, 4)]]
    ∧ ((after (.streamTake 0 8) (machine { wave0 with streams := [{ stream0 with kind := 2, due := true }] })).waves.map (fun w => w.streams.map (fun t => (t.due, t.done))))
        = [[(false, 4)]] := by decide +kernel

/-! ### The matrix unit -/

/-- A grant of 2 rows, 3 columns and depth 8 in s8. -/
def grant8 : Grant := ⟨2, 3, 8, 8, 0⟩

/-- A wave whose registers name slots 0 and 1 (s4, s5), an offset (s6), a row (s7), requests (s8, s9) and a row stride (s10). -/
def waveT : Wave :=
  { wave0 with s := sregs [(2, 0x0100000000000040), (4, 0), (5, 1), (6, 0x00040000), (7, 1), (8, 0x0008000800030002), (9, 0x0100000000010001), (10, 64)] }

/-- The machine with that grant, slots 0 and 1 filled under it, bytes 1 in A and 2 in B. -/
def tiled : State :=
  let s := machine waveT
  let s := s.updBlock 0 (fun b => { b with grant := grant8 })
  let s := s.updCore 4 (fun c => { c with slots := ⟨2, 0, 0, grant8, 0⟩ :: ⟨2, 0, 1, grant8, 0⟩ :: List.replicate 14 Slot.free })
  (s.writeBytes (slotKey 4 0) (List.replicate 16 1)).writeBytes (slotKey 4 1) (List.replicate 24 2)

/-- A multiply of that tile. -/
def multiply : MmaOp := ⟨0, 0, 0, 0, 0, 1, grant8, 0, false, 0, false, false, 0, [], []⟩

theorem witness_GrantInstructions :
    (m0.core 4).request false 0x0008000800030002 = (0, grant8) ∧ (m0.core 4).request true 0x0108000800030002 = (0, grant8)
    ∧ (m0.core 4).request false 0x0100000000010001 = (1, .none) ∧ (m0.block 0).grant ≠ grant8 ∧ m0.tileQuiet 0 m0.now = true
    ∧ (tiled.block 0).grant = grant8 ∧ (tiled.updCore 4 (fun c => { c with qlo := [multiply] })).tileQuiet 0 1 = false := by decide +kernel

/-- spec/10 R212: what a request is cut to: the class of an M-core, the columns of the core, whole groups of the depth. -/
theorem test_grants :
    (m0.core 4).request false (100 + 100 * 2 ^ 16 + 30 * 2 ^ 32 + 2 * 2 ^ 48) = (0, ⟨64, 64, 28, 2, 0⟩)
    ∧ (m0.core 4).request true (100 + 100 * 2 ^ 16 + 30 * 2 ^ 32 + 2 * 2 ^ 48) = (0, ⟨16, 16, 16, 2, 0⟩)
    ∧ ((m0.core 4).request false (100 + 8 * 2 ^ 16 + 8 * 2 ^ 32 + 2 * 2 ^ 48 + 2 ^ 56)).1 = 2
    ∧ ((m0.core 4).request false (1 + 1 * 2 ^ 16 + 3 * 2 ^ 32 + 2 * 2 ^ 48)).1 = 3 := by decide +kernel

theorem witness_SlotInstructions :
    (tiled.core 4).claimers = [] ∧ (tiled.core 4).slots[2]? = some ⟨0, 0, 0, .none, 0⟩ ∧ (tiled.core 4).slotInUse 1 = false
    ∧ VecReady tiled 0 waveT { reads := [⟨8, 1, 2, regRange 8 1⟩], ss := [(6, 0)] }
    ∧ areaEnd (tiled.block 0).grant 0 4 = some 16
    ∧ (after (.ofill 8 6) tiled).readN (slotKey 4 0) 16 = 0x01010101
    ∧ (after (.oclaim 9 0 1) tiled).waves.map (fun w => w.rd 9) = [2] := by
  refine ⟨by decide +kernel, by decide +kernel, by decide +kernel, vecReady_of_ready (by decide +kernel), ?_⟩
  decide +kernel

theorem witness_MultiplicationResults :
    CanMultiply tiled waveT 0 0 0 0 1 ∧ (tiled.core 4).qlo.length < 4 ∧ (tiled.updCore 4 (fun c => { c with qhi := [multiply] })).core 4 ≠ tiled.core 4
    ∧ ((tiled.updCore 4 (fun c => { c with qhi := [multiply] })).core 4).headReady multiply = true := by
  exact ⟨⟨by decide +kernel, by decide +kernel, ⟨⟨2, 0, 0, grant8, 0⟩, by decide +kernel⟩, ⟨⟨2, 0, 1, grant8, 0⟩, by decide +kernel⟩, by decide +kernel,
    by decide +kernel⟩, by decide +kernel⟩

/-- A tile of ones times a tile of twos over a depth of 8 (spec/03 R92): 16 at each granted place. -/
theorem test_multiply :
    ((after (.mmaComplete 4) (tiled.updCore 4 (fun c => { c with run := some multiply }))).acc 4 0 1 2) = 16
    ∧ ((after (.mmaComplete 4) (tiled.updCore 4 (fun c => { c with run := some multiply }))).acc 4 0 2 0) = 0
    ∧ ((after (.mma 0 4 5 0) tiled).cores.map (fun c => c.qlo.map (fun o => (o.slotA, o.slotB, o.grant.cols)))) = [[], [], [], [], [(0, 1, 3)], [], [], []] := by
  decide +kernel

theorem witness_AccumulatorInstructions :
    (tiled.block 0).sets[(0#2).toNat]? = some 0 ∧ (tiled.core 4).setBusy 0 = false ∧ (tiled.block 0).dmg.getLsbD 0 = false
    ∧ VecReady tiled 0 waveT { writes := [(12, 1)], ss := [(7, 1)] }
    ∧ (waveT.rd 7).toNat < grant8.rows ∧ 4 * grant8.cols ≤ (waveT.rd 10).toNat
    ∧ (∀ i, i < 2 → ∀ j, j < 3 → (match tiled.localKey 0 waveT (waveT.rd 2 + word i * waveT.rd 10 + word (4 * j)) 4 4 with
        | .ok k => k
        | .error _ => 0) = spot + 64 * i + 4 * j) := by
  refine ⟨by decide +kernel, by decide +kernel, by decide +kernel, vecReady_of_ready (by decide +kernel), ?_⟩
  decide +kernel

/-- spec/11 R243 to R247: a row inserted is extracted again, and saved to the scratchpad. -/
theorem test_accumulators :
    ((after (.axt 12 0 7) (tiled.setAcc 4 0 1 2 5)).waves.map (fun w => w.pend.length)) = [1]
    ∧ (after (.asave 10 0 2) (tiled.setAcc 4 0 1 2 5)).readN (spot + 64 + 8) 4 = 5
    ∧ (after (.azero 0) (tiled.setAcc 4 0 1 2 5)).accs = [] := by decide +kernel

/-! ### Barriers, copies -/

/-- The machine with a barrier at s2: 2 expected, 1 arrived, phase 0. -/
def barred : State := machine { wave0 with s := sregs [(2, 0x0100000000000040), (3, 1), (4, 0x400000), (5, 7), (6, 0)] } |>.putBar spot ⟨0, 1, 2, 0⟩

theorem witness_BarrierInstructions :
    barred.localKey 0 wave0 (wave0.rd 2) 16 16 = .ok spot ∧ barred.poisoned spot 16 = false ∧ barred.bar spot = ⟨0, 1, 2, 0⟩
    ∧ ((barred.obj (barred.block 0).obj).kernelAt 0x400000).isSome = true
    ∧ (after (.barArv 2) barred).bar spot = ⟨0, 0, 2, 1⟩ ∧ (after (.barExp 2 5) barred).bar spot = ⟨7, 2, 2, 0⟩
    ∧ (after (.barInit 2 5) barred).bar spot = ⟨0, 0, 7, 0⟩
    ∧ (after (.barWait 2 3) barred).waves.map (fun w => w.splits.map (·.pc)) = [[0x400004]]
    ∧ (after (.barWait 2 6) barred).waves.map (fun w => w.splits.map (fun x => x.held.isSome)) = [[true]]
    ∧ (after (.barTrig 5 2 4) barred).cores.map (fun c => c.triggers.length) = [0, 0, 0, 0, 1, 0, 0, 0]
    ∧ (after (.waita 2 6) barred).waves.map (fun w => w.splits.map (·.pc)) = [[0x400004]]
    ∧ (after (.waitge 2 5) barred).waves.map (fun w => w.splits.map (·.pc)) = [[0x400004]] := by
  refine ⟨rfl, ?_⟩
  decide +kernel

/-- A wave that copies: to s2, from s4, strides s5, signalling s6 with s7; s8 names a descriptor. -/
def waveC : Wave :=
  { wave0 with s := sregs [(2, 0x0100000000000100), (4, 0x40000000), (5, 0x10), (6, 0x0100000000000800), (7, 9), (8, 0x0100000000000040)] }

/-- The machine with it, the page table and the grant. -/
def copying : State := (mapped waveC).updBlock 0 (fun b => { b with grant := grant8 })

theorem witness_CopyInstructions :
    copying.copyTarget 0 waveC 1 6 = .ok (.signal 0x0100000000000800 9) ∧ (copying.block 0).grant.rows ≠ 0
    ∧ copying.copyTraps (copying.block 0) { copying.newCopy 0 waveC with src := .mem 0x40000000 0x10, dst := .mem 0x0100000000000100 8, rows := 2, rowBytes := 8, dstLocal := true } 1 = none
    ∧ ((after (.cpyA 2 4 5 1 6) copying).copies.map (fun c => (c.rows, c.rowBytes, c.target))) = [(2, 8, .signal 0x0100000000000800 9)]
    ∧ ((after (.cpySt 4 2 5 1 6) copying).copies.map (fun c => (c.rows, c.srcLocal))) = [(2, true)]
    ∧ ((after (.cpyB 2 4 5 1 6) copying).copies.map (fun c => (c.rows, c.rowBytes))) = [(8, 3)] := by
  refine ⟨rfl, ?_⟩
  decide +kernel

/-- A copy of 4 bytes within the scratchpad, in flight. -/
def copy1 : Copy :=
  { copy0 with src := .mem 0x0100000000000040 0, dst := .mem 0x0100000000000100 0, rows := 1, rowBytes := 4, srcLocal := true, dstLocal := true }

theorem witness_CopyEvents :
    (∃ b st, copy1.src = .mem b st) ∧ copy1.moving = true ∧ m0.srcPlaces copy1 = [spot, spot + 1, spot + 2, spot + 3].map .at
    ∧ m0.dstPlaces copy1 = [spot + 192, spot + 193, spot + 194, spot + 195].map .at ∧ copy1.reissueError = false
    ∧ m0.localByte (m0.copyBlock copy1) 0x0100000000000200 = some (spot + 448)
    ∧ (after (.copyCompletion 0) { m0.writeN spot 4 0xAABBCCDD with copies := [copy1] }).readN (spot + 192) 4 = 0xAABBCCDD
    ∧ (after (.copyCompletion 0) { m0.writeN spot 4 0xAABBCCDD with copies := [copy1] }).readN (spot + 448) 8 = 9 :=
  ⟨⟨0x0100000000000040, 0, rfl⟩, by decide +kernel⟩

/-! ### The plumb engine -/

/-- A run of queue 0 with p1 = 5, p2 = -1, at the first of its words. -/
def run0 : PlumbRun := ⟨0, 0, 3, [], 0, #v[0, 5, BitVec.allOnes 64, 64, 0, 0, 0, 0], 0, [], none, false⟩

/-- The machine with it; the queue's window in the second gigapage. -/
def plumbing (r : PlumbRun) : State :=
  { mapped wave0 with runs := [r], queues := [{ Queue.blank with mode := .opened, deleted := false, pwin := 0x40000000 }] }

theorem witness_PlumbOperationResults :
    (plumbing run0).runs[0]? = some run0 ∧ (plumbing run0).cur.run = 0 ∧ run0.finished = false ∧ ((plumbing run0).queue 0).mode = .opened
    ∧ (plumbing run0).queueOf 0 0 = some 0 ∧ (plumbing run0).queueOf 0 5 = none
    ∧ (plumbing run0).cplace (Copy.device 0 0) false .write 0x40000040 = .at (hbmKey [1] 0x40000040)
    ∧ decodePlumb [0xA000] = some .plumbEnd
    ∧ (after (.plumbAdd 4 1 2) (plumbing run0)).runs.map (fun r => (r.p[4], r.pc, r.steps)) = [(4, 1, 1)]
    ∧ (after (.plumbCmpLt 4 2 1) (plumbing run0)).runs.map (fun r => r.p[4]) = [1]
    ∧ (after (.plumbCmpLtn 4 2 1) (plumbing run0)).runs.map (fun r => r.p[4]) = [0]
    ∧ (after (.plumbBrf 0 1) (plumbing run0)).runs.map (·.pc) = [2]
    ∧ (after (.plumbLoopn 2 3) (plumbing run0)).runs.map (·.loop) = [some (2, 3, 3)]
    ∧ (after (.plumbRdtl 4 1) (plumbing run0)).queues.map (·.mode) = [.faulted]
    ∧ (after (.plumbWrm 1 3 0) (plumbing run0)).readN (hbmKey [1] 0x40000040) 8 = 5
    ∧ (after (.plumbRdm 4 1 0) (plumbing run0)).queues.map (·.fault) = [some (7, 0, 2, 0)]
    ∧ (after (.plumbWrtl 1) (plumbing run0)).queues.map (fun q => q.flight.map (·.sig)) = [[some 5]]
    ∧ (after (.plumbMov 4 1) (plumbing { run0 with steps := 512 })).queues.map (·.mode) = [.faulted]
    ∧ (after .plumbEnd (plumbing run0)).runs.map (·.finished) = [true] := by decide +kernel

/-! ### Blocks, leases, the fabric -/

/-- A wave that spawns at s4, a kernel's entry, with s5; s6 is none. -/
def waveS : Wave := { wave0 with s := sregs [(4, 0x400000), (5, 7), (6, 0x123), (2, 0x80000040), (3, 0x40000040)] }

theorem witness_BlockInstructions :
    (((mapped waveS).obj 0).kernelAt 0x400000).isSome = true ∧ (((mapped waveS).obj 0).kernelAt 0x123) = none
    ∧ ((mapped waveS).core 4).binFor 0 0x400000 = some 0 ∧ ((mapped waveS).ctx ((mapped waveS).block 0).ctx).st = .running
    ∧ (after (.spawn 9 6 5) (mapped waveS)).waves.map (fun w => w.rd 9) = [3]
    ∧ (after (.spawn 9 4 5) (mapped waveS)).waves.map (fun w => w.rd 9) = [1 * 65536]
    ∧ (after (.spawnf 9 4 5) (mapped waveS)).cores.map (fun c => c.launches.map (·.args)) = [[], [], [], [], [[7]], [], [], []]
    ∧ (after .exit (mapped waveS)).waves.map (fun w => (w.ended, w.splits.length)) = [(true, 0)]
    ∧ (after .exit (mapped waveS)).blocks.map (·.phase) = [.ending]
    ∧ (after (.cont 5 4) ((mapped waveS).updBlock 0 (fun b => { b with bin := true }))).waves.map (·.cont) = [some (0x400000, 7)]
    ∧ (after (.cont 5 6) (mapped waveS)).waves.map (·.lvl) = [1]
    ∧ (after (.lease 9 5 1 2) (mapped waveS)).ctxs.map (fun c => c.asks.length) = [1]
    ∧ (after (.lqry 9) ((mapped waveS).updCtx 0 (fun c => { c with asks := [⟨0, 1, 5, 2, 1⟩] }))).waves.map (fun w => w.splits.map (fun x => x.held.isSome)) = [[true]]
    ∧ (after .lrel ((mapped waveS).updCtx 0 (fun c => { c with lease := some ⟨2, 50, 0, 0, 64⟩ }))).ctxs.map (·.lease) = [none] := by decide +kernel

/-- A wave in f32 with VL 2 whose s2 is an address of device 5. -/
def waveF : Wave := { waveS with wmode := 8, vl := 2 }

theorem witness_FabricInstructions :
    (mapped waveF).resolve 0 waveF (waveF.rd 2 + word (1 * 4)) 4 4 .write = .ok (.away 5 0x44 false) ∧ waveF.actives split0 = [0, 1]
    ∧ (mapped waveF).reaches 1 5 = true ∧ (mapped waveF).fabric.devid ≠ 5
    ∧ ({ mapped waveF with fabric := { (mapped waveF).fabric with assigned := false } } : State).reaches 1 5 = false
    ∧ VecReady (mapped waveF) 0 waveF { reads := groupRead waveF 8 2 1 32 [0, 1] :: [], ss := [(2, 0)], typeOk := waveF.etype == 1 }
    ∧ (mapped waveF).resolve 0 waveF (waveF.rd 3) 8 8 .write = .ok (.here (hbmKey [1] 0x40000040) false)
    ∧ (after (.rredAdd 8 2 0 0) (mapped waveF)).fabric.out.map (fun o => o.ops.map (·.1)) = [[5, 5]]
    ∧ (after (.rsig 2 5) (mapped waveF)).fabric.out.map (fun o => o.ops.map (·.2.2)) = [[.rsig 0x40 7]]
    ∧ (after (.rsig 3 5) (mapped waveF)).fabric.arrived.length = 1 := by
  exact ⟨by decide +kernel, by decide +kernel, by decide +kernel, by decide +kernel, by decide +kernel, vecReady_of_ready (by decide +kernel), by decide +kernel⟩

/-! ### Events of a wave, the debugger -/

/-- The machine with a result in flight, a pending lease expiry and an energy quota. -/
def waveE : Wave := { wave0 with pend := [.scalar 9 77 true, .vector 8 [5] [true] [false]], sFull := 0xFFFFFDFF, vFull := 0xFFFFFEFF, lease := some 50, quota := some 3 }

theorem witness_WaveEvents :
    decodeWord 0x6C009000 = .illegal .reservedFunction .k ∧ CutClosed wave0
    ∧ (machine waveE).asyncDue waveE = true ∧ waveE.cutSplit = some 0
    ∧ (after (.illegalInstructionWord 0x6C009000) m0).frameWord 0 1 264 = 1 + 256 * 4
    ∧ (after (.illegalInstructionWord 0x6C009000) m0).frameWord 0 1 272 = 0x6C009000
    ∧ (after (.longLatencyWrite 0 0) (machine waveE)).waves.map (fun w => (w.rd 9, w.sIsFull 9, w.sIsPois 9, w.pend.length)) = [(77, true, true, 1)]
    ∧ (after (.longLatencyWrite 0 1) (machine waveE)).vfiles.map (fun f => f.v[8]) = [5]
    ∧ (after (.asyncTrapTake 0) (machine waveE)).frameWord 0 1 264 = 18
    ∧ (after (.asyncTrapTake 0) (machine { waveE with lease := none })).frameWord 0 1 264 = 19
    ∧ (after (.parkedFaultResolve 0) (m0.takeTrap 0 0 0x400000 ⟨8, 1, 0x1000⟩ true false)).waves.map (fun w => (w.park, w.lvl)) = [(none, 0)]
    ∧ (after (.parkedFaultDecline 0) (m0.takeTrap 0 0 0x400000 ⟨8, 1, 0x1000⟩ true false)).waves.map (fun w => (w.park, w.lvl)) = [(none, 1)]
    ∧ (after (.triggerRetry 4) (m0.updCore 4 (fun c => { c with triggers := [⟨4, 0, 0, 0x400000, 9, true⟩] }))).cores.map (fun c => c.bins.map (fun b => b.map (·.args)))
        = [List.replicate 8 none, List.replicate 8 none, List.replicate 8 none, List.replicate 8 none, some [9] :: List.replicate 7 none,
           List.replicate 8 none, List.replicate 8 none, List.replicate 8 none] := by
  refine ⟨rfl, ⟨rfl, rfl⟩, ?_⟩
  decide +kernel

/-- A SETTILE that waited and may be applied. -/
theorem witness_tileGrantApply :
    findIdx (TileWait.ofSplit ⟨0x400000, BitVec.allOnes 64, 9, 0x0008000800030002, grant8, 0, 0⟩) [{ split0 with held := some 0 }] 0 = some 0
    ∧ (after (.tileGrantApply 0) (machine { wave0 with s := sregs [(4, 0x0008000800030002)], tile := some ⟨0x400000, BitVec.allOnes 64, 9, 0x0008000800030002, grant8, 0, 0⟩, splits := [{ split0 with held := some 0 }] })).blocks.map
        (·.grant) = [grant8] := by decide +kernel

/-- The machine with comparator 0 on the wave's address, ACTION as given, for queue 0 and wave 0. -/
def compared (action : Nat) : State :=
  m0.updCore 4 (fun c => { c with dcAddr := c.dcAddr.set 0 0x400000, dcCtl := c.dcCtl.set 0 (word (1 + action * 4 + 256)) })

theorem witness_DebugEvents :
    (compared 1).hitting wave0 split0 = [0] ∧ (compared 1).running wave0 = true ∧ (compared 1).issuing wave0 = some 0
    ∧ (compared 1).action wave0 0 = 1 ∧ (compared 0).action wave0 0 = 0 ∧ (compared 2).action wave0 0 = 2
    ∧ (after (.comparatorHit 0) (compared 1)).waves.map (·.halted) = [true]
    ∧ (after (.comparatorHit 0) { compared 0 with queues := [{ Queue.blank with debugEntry := some 0x700000 }] }).waves.map (fun w => (w.lvl, w.splits.map (·.pc)))
        = [(3, [0x700000])]
    ∧ (after (.debugHaltRequest 0) m0).waves.map (·.halted) = [true]
    ∧ (after (.debugPortWrite 0 (.s 9 5)) (machine { wave0 with halted := true })).waves.map (fun w => w.rd 9) = [5]
    ∧ (after (.debugPortWrite 0 (.pc 0x500001)) (machine { wave0 with halted := true })).waves.map (fun w => w.splits.map (·.pc)) = [[0x500000]]
    ∧ (after (.debugPortWrite 0 (.s 9 5)) m0).waves.map (fun w => w.rd 9) = [0]
    ∧ (after (.debugResume 0) (machine { wave0 with halted := true })).waves.map (fun w => (w.halted, w.latch)) = [(false, true)]
    ∧ (after (.debugArm 0 (some 0x700000)) m0).queues.map (·.debugEntry) = [some 0x700000]
    ∧ (after (.debugPin 0 (some ⟨32, 16, none, 64⟩)) m0).queues.map (fun q => q.pin.isSome) = [true] := by decide +kernel

/-! ### Launching, ends, pre-emption, power -/

/-- A job of 8 × 1 × 2 × 1 points from the queue, chunks of at least 2 units, no coverage. -/
def job0 : Job where
  queue := 0
  seq := 0
  obj := 0
  kernel := 0
  entry := 0x400000
  args := 0x600000
  n := #v[8, 1, 2, 1]
  cmin := 2
  gang := 1
  idem := true
  regions := BitVec.allOnes 64
  dealt := 0
  returned := []
  launched := 0
  stopped := false
  cov := []
  covRec := 0
  skipCount := 0
  skipped := []
  chunks := []
  kept := []
  covError := false
  fabError := false
  miss := 0
  compared := false
  covEnded := false
  asked := []
  mapDue := []
  compl := 0
  recorded := false
  finished := false

/-- The machine with that job and no block yet. -/
def idleMachine : State := { m0 with blocks := [], waves := [], vfiles := [], gangs := [], jobs := [job0] }

/-- A bin of the block with one thread. -/
def bin0 : Bin := ⟨0, 0x400000, 0, [9], 0, false⟩

theorem witness_DealingEvents :
    ((m0.updCore 4 (fun c => { c with bins := some bin0 :: List.replicate 7 none })).core 4).bins[0]? = some (some bin0)
    ∧ (after (.binTimerExpiry 4 0) { m0.updCore 4 (fun c => { c with bins := some bin0 :: List.replicate 7 none }) with time := 2000 }).cores.map (fun c => c.launches.length)
        = [0, 0, 0, 0, 1, 0, 0, 0]
    ∧ m0.fits 4 ((m0.obj 0).kernel 0) 1 = true ∧ m0.pinAllows 0 4 = true
    ∧ (after (.binBlockLaunch 4) (m0.updCore 4 (fun c => { c with launches := [bin0] }))).waves.map (fun w => (w.block, w.vl)) = [(0, 64), (1, 1)]
    ∧ idleMachine.serves job0 = true ∧ 1 ∈ idleMachine.jobClusters job0 ∧ 4 ∈ idleMachine.coresFor (idleMachine.jobKernel job0) 1
    ∧ idleMachine.reservedFrom 0 1 1 = false ∧ idleMachine.binsFirst 4 0 = false
    ∧ (after (.chunkDeal 0 4) { idleMachine with jobs := [{ job0 with asked := [4] }] }).cores.map (fun c => c.chunk) = [[], [], [], [], [(0, 0, 0), (0, 1, 0), (0, 2, 0), (0, 3, 0)], [], [], []]
    ∧ (after (.pointLaunch 4) (after (.chunkDeal 0 4) { idleMachine with jobs := [{ job0 with asked := [4] }] })).blocks.map (fun b => (b.core, b.ident, b.pidx)) = [(4, 0, #v[0, 0, 0, 0])]
    ∧ (after (.blockEnd 0) (m0.updBlock 0 (fun b => { b with phase := .ending }))).blocks.map (·.phase) = [.done]
    ∧ (after (.continuationStart 0) ((m0.updBlock 0 (fun b => { b with phase := .waiting, next := some (0, 0, 0x400000, 5) })))).blocks.map (·.phase) = [.running]
    ∧ (after (.gangScratchRelease 0) (m0.updBlock 0 (fun b => { b with phase := .done }))).gangs.map (·.released) = [true]
    ∧ (after (.clusterGate 1) { m0 with blocks := [], waves := [], time := 20000 }).clusters.map (·.gated) = [true, true]
    ∧ (after (.clusterGate 1) { m0 with blocks := [], waves := [], time := 19999 }).clusters.map (·.gated) = [true, false] := by decide +kernel

theorem witness_gangs :
    ({ idleMachine with queues := [{ Queue.blank with mode := .opened, deleted := false, line := [(0, 0)] }] } : State).gangCluster
        { Queue.blank with mode := .opened, deleted := false, line := [(0, 0)] } 0 { job0 with gang := 2 } = some 1
    ∧ (after (.gangPlace 0) { idleMachine with
        jobs := [{ job0 with gang := 2, dealt := 8 }], queues := [{ Queue.blank with mode := .opened, deleted := false, line := [(0, 0)] }] }).blocks.map
          (fun b => (b.member, b.core)) = [(0, 4), (1, 5)]
    ∧ (after (.gangAgeingExpiry 0) { idleMachine with
        time := 1000000, queues := [{ Queue.blank with mode := .opened, deleted := false, line := [(0, 0)] }] }).queues.map (·.aged) = [true] := by
  decide +kernel

/-- The machine with its context in a pre-emption state entered at time 0, at a time. -/
def preempted (st : Preempt) (time : Word) : State := { m0.updCtx 0 (fun c => { c with st := st }) with time := time }

theorem witness_PreemptionEvents :
    m0.restartable 0 = false ∧ ({ m0 with jobs := [job0] } : State).restartable 0 = true
    ∧ (after (.softError (.scalar 0 9)) m0).waves.map (fun w => w.sIsPois 9) = [true]
    ∧ (after (.softError (.scalar 0 9)) { m0 with jobs := [job0] }).jobs.map (·.returned) = [[(0, 0)]]
    ∧ (after (.softError (.slot 4 0)) m0).cores.map (fun c => c.slots.map (·.st)) ≠ m0.cores.map (fun c => c.slots.map (·.st))
    ∧ (after (.softError (.accumulator 0 1)) m0).blocks.map (·.dmg) = [2]
    ∧ (after (.softError (.scratch 0 64)) m0).pois = [spot / 8]
    ∧ (after (.preemptRequest 0 false) m0).ctxs.map (·.st) = [.soft] ∧ (after (.preemptRequest 0 true) m0).ctxs.map (·.st) = [.hard]
    ∧ (after (.softDeadlineExpiry 0) (preempted .soft 200000)).ctxs.map (·.st) = [.hard]
    ∧ (after (.softDeadlineExpiry 0) (preempted .soft 199999)).ctxs.map (·.st) = [.soft]
    ∧ (preempted .hard 0).imageReady 0 = true
    ∧ (after (.imageComplete 0) (preempted .hard 0)).ctxs.map (·.st) = [.saved]
    ∧ (after (.copyGraceExpiry 0) { preempted .hard 10000 with copies := [copy1] }).copies.map (·.cancelled) = [true]
    ∧ (after (.hardLimitExpiry 0) (preempted .hard 2000000)).ctxs.map (·.st) = [.reset]
    ∧ (after (.hardLimitExpiry 0) (preempted .hard 1999999)).ctxs.map (·.st) = [.hard]
    ∧ (after (.resumeRequest 0 []) (preempted .soft 0)).ctxs.map (·.st) = [.running] := by decide +kernel

/-- The context saved with its block, which may stand on core 5. -/
def savedMachine : State := match execImageComplete 0 (preempted .hard 0) with
  | .next t => t
  | _ => m0

theorem witness_resume :
    savedMachine.placesOk 0 [(0, 5)] = true ∧ savedMachine.mayResume 0 5 = true
    ∧ (after (.resumeRequest 0 [(0, 5)]) savedMachine).blocks.map (fun b => (b.core, b.saved.isSome, b.classchg)) = [(5, false, 0)] := by decide +kernel

/-! ### Power and the die -/

/-- The machine with a lease held by wave 0, from time 0 for 50 µs. -/
def leased : State := mapped waveS |>.updCtx 0 (fun c => { c with lease := some ⟨2, 50, 0, 0, 800⟩ })

/-- The machine whose context asks for a lease of 1000 µs at level 1, its partition with an allotment of 1 J. -/
def asking : State :=
  { mapped waveS with
    parts := [⟨1, [1], 64, 128, 1000, 1000000000, [7], true, none, 0, 0, [(5, 3)], [(5, [0])], []⟩]
    ctxs := [{ Ctx.blank with opened := true, part := 1, st := .running, asks := [⟨0, 9, 1000, 1, 0⟩] }] }

theorem witness_PowerEvents :
    (after (.capLower 1) (m0.updCluster 1 (fun c => { c with withheld := 64 }))).cores.map (fun c => (c.vlcap, c.power))
        = [(64, 64), (64, 64), (64, 64), (64, 64), (56, 32), (56, 32), (56, 32), (56, 32)]
    ∧ (after (.capLower 1) (m0.updCluster 1 (fun c => { c with withheld := 63 }))).cores.map (·.vlcap) = m0.cores.map (·.vlcap)
    ∧ (after (.capRaise 1) { m0.updCore 4 (fun c => { c with vlcap := 8, power := 8 }) with time := 1000000 }).cores.map (fun c => (c.vlcap, c.power))
        = [(64, 64), (64, 64), (64, 64), (64, 64), (16, 16), (64, 64), (64, 64), (64, 64)]
    ∧ asking.evalLease 0 ⟨0, 9, 1000, 1, 0⟩ = .ok 1000 ∧ asking.evalLease 0 ⟨0, 9, 0, 1, 0⟩ = .error 1
    ∧ ({ asking with melt := 58982 } : State).evalLease 0 ⟨0, 9, 1000, 1, 0⟩ = .error 2 ∧ ({ asking with rfz := true } : State).evalLease 0 ⟨0, 9, 1000, 1, 0⟩ = .error 3
    ∧ (after (.leaseDecision 0) asking).waves.map (fun w => w.rd 9) = [1000]
    ∧ (after (.leaseExpiry 0) { leased with time := 50000 }).waves.map (·.lease) = [some 50]
    ∧ (after (.leaseExpiry 0) { leased with time := 49999 }).waves.map (·.lease) = [none]
    ∧ (after (.meltfUpdate 58982) leased).ctxs.map (·.lease) = [none] ∧ (after (.meltfUpdate 13107) { m0 with rfz := true }).rfz = false
    ∧ (after (.energyIntervalEnd [(1, 6000)]) ((m0.updCtx 0 (fun c => { c with equota := 3 })).updCluster 1 (fun c => { c with slots := [(0, 5), (7, 1)] }))).waves.map
        (·.quota) = [some 2]
    ∧ (after (.clockChange 1 1400) (leased.updCluster 1 (fun c => { c with gated := false }))).clusters.map (·.mhz) = [1050, 1400]
    ∧ (after (.clockChange 1 1400) m0).clusters.map (·.mhz) = [1050, 1050] := by
  refine ⟨?_, ?_, ?_, ?_, ?_, ?_, ?_, ?_, ?_, ?_, ?_, ?_, ?_, ?_, ?_⟩ <;> decide +kernel

theorem witness_MemoryEvents :
    ((mapped wave0).parts.filter (fun p => (((mapped wave0).ctxs.filter (fun c => c.opened && c.pasid == 0)).map (·.part)).contains p.id)).flatMap (·.clusters) = [1]
    ∧ (after (.shootdownRequest 0 0 4096) (mapped wave0)).shoots = [⟨0, 0, 4096, [1], [1], false, 0, []⟩]
    ∧ (after (.shootdownArrival 0 1) { m0 with shoots := [⟨0, 0, 4096, [1], [1], false, 0, []⟩] }).shoots.map (·.toReach) = [[]]
    ∧ (after (.shootdownAck 0 1) { m0 with shoots := [⟨0, 0, 4096, [], [1], false, 0, [(1, 0)]⟩] }).shoots.map (·.done) = [true] ∧ m0.remoteAt 1 0 = false
    ∧ m0.placeKey (.hbm 1 64) = some (hbmKey [1] 64) ∧ (after (.memoryError (.hbm 1 64) false) m0).pois = [hbmKey [1] 64 / 8]
    ∧ ((after (.memoryError (.hbm 1 64) true) m0).pois.length) = 16
    ∧ (after (.hostAccess (.writeHbm 1 64 [1, 2] false)) m0).readN (hbmKey [1] 64) 2 = 0x201 ∧ m0.hbmSize 1 = 6442450944
    ∧ (State.reset.clusters.length = 128 ∧ State.reset.cores.length = 512 ∧ rectOn [1, 2] 0 = true ∧ rectOn [1, 2] 1 = true
      ∧ (after (.partitionForm ⟨3, [1, 2], 32, 0, 5, [4]⟩) State.reset).parts.map (·.clusters) = [[1, 2]])
    ∧ ({ m0 with blocks := [], waves := [] } : State).clusterFree 1 = true ∧ m0.clusterFree 1 = false
    ∧ (after (.clusterMove 1 none) { m0 with blocks := [], waves := [] }).clusters.map (·.part) = [none, none]
    ∧ (after .reset (mapped wave0)).mem = [] := by
  refine ⟨?_, ?_, ?_, ?_, ?_, ?_, ?_, ?_, ?_, ?_, ?_, ?_, ?_, ?_, ?_⟩ <;> decide +kernel

/-! ### Queues and packets -/

/-- A packet of a type for sequence number 0, with words of its body. -/
def packet (type w1 w2 w3 : Nat) : List Byte :=
  leBytes 8 (type * 2 ^ 16) ++ leBytes 8 w1 ++ leBytes 8 w2 ++ leBytes 8 w3 ++ leBytes 8 0 ++ leBytes 8 0 ++ leBytes 8 0 ++ leBytes 8 0

/-- The machine with a ring of 64 slots in the second gigapage and one packet rung for. -/
def queued (l : List Byte) : State :=
  { (mapped wave0).writeBytes (hbmKey [1] 0x40000000) l with
    queues := [{ Queue.blank with mode := .opened, deleted := false, ring := 0x40000000, bell := 1, svc := 0x40001000, prog := 0 }] }

/-- The machine with a packet next to start. -/
def ready' (l : List Byte) : State :=
  { mapped wave0 with
    jobs := [job0]
    queues := [{ Queue.blank with mode := .opened, deleted := false, bell := 1, prog := 0, head := some (Packet.make 0 l) }] }

/-- A context descriptor and a queue descriptor. -/
def ctxDesc : List Byte := leBytes 8 0 ++ leBytes 4 7 ++ leBytes 1 1 ++ leBytes 3 0 ++ leBytes 4 200 ++ leBytes 12 0
def queueDesc : List Byte :=
  leBytes 8 0x40000000 ++ leBytes 1 6 ++ leBytes 1 0 ++ leBytes 2 0 ++ leBytes 2 2000 ++ leBytes 2 0xFFFF ++ leBytes 8 0x40002000 ++ leBytes 8 0x500003
    ++ leBytes 8 0x40003000 ++ leBytes 4 4096 ++ leBytes 4 100 ++ leBytes 8 0x40001000 ++ leBytes 8 0

theorem witness_QueueEvents :
    (mapped wave0).ctxDescOk 1 ctxDesc = true ∧ ((mapped wave0).ctx 1).opened = false ∧ queueDescOk queueDesc = true
    ∧ (after (.contextCreate 1 1 ctxDesc) (mapped wave0)).ctxs.map (fun c => (c.opened, c.pasid, c.soft)) = [(true, 0, 200), (true, 7, 200)]
    ∧ (after (.queueCreate 5 0 queueDesc) (mapped wave0)).queues.map (fun q => (q.num, q.slots, q.handler)) = [(0, 6, 0), (5, 6, 0x500000)]
    ∧ (after (.doorbell 0 64) (queued (packet 7 0 0 0))).queues.map (·.bell) = [64] ∧ (after (.doorbell 0 65) (queued (packet 7 0 0 0))).queues.map (·.bell) = [1]
    ∧ (queued (packet 7 0 0 0)).packetOk 0 (packet 7 0 0 0) = true ∧ (queued (packet 7 0 0 0)).packetOk 0 (packet 8 0 0 0) = false
    ∧ (after (.packetFetch 0) (queued (packet 7 0 0 0))).queues.map (fun q => (q.head.map (·.type), q.mode)) = [(some 7, .opened)]
    ∧ (after (.packetFetch 0) (queued (packet 8 0 0 0))).queues.map (fun q => (q.head.isSome, q.fault)) = [(false, some (2, 0, 0, 0))]
    ∧ (after (.packetFetch 0) (queued (1 :: packet 7 0 0 0))).queues.map (·.retries) = [1]
    ∧ (after (.queueClear 0 9) (queued [] |>.updQueue 0 (fun q => { q with mode := .faulted }))).queues.map (fun q => (q.nextSeq, q.mode)) = [(9, .opened)]
    ∧ (after (.servicePost 0) (queued [] |>.updWave 0 (fun w => { w with sysc := some (9, none) }))).waves.map (·.sysc) = [some (9, some 0)]
    ∧ plumbOk [0xA000] = true ∧ (after (.plumbProgramLoad 0 [0xA000]) m0).trust.progs = [(0, [0xA000])] := by
  refine ⟨?_, ?_, ?_, ?_, ?_, ?_, ?_, ?_, ?_, ?_, ?_, ?_, ?_, ?_, ?_, ?_⟩ <;> decide +kernel

/-- The service answered: its doorbell delivers the two result words. -/
theorem witness_serviceDoorbell :
    (after (.serviceDoorbell 0 0) { queued [] with
        mem := memWriteBytes (queued []).mem (hbmKey [1] 0x40001048) (leBytes 8 55 ++ leBytes 8 66)
        waves := [{ wave0 with sysc := some (9, some 0) }]
        queues := [{ Queue.blank with mode := .opened, deleted := false, svc := 0x40001000, services := 1, outstanding := [(0, 0)] }] }).waves.map
          (fun w => (w.sysc, w.rd 1, w.rd 2)) = [(none, 55, 66)] := by decide +kernel

/-- A card for the kernel at 0x400000 of one point. -/
def card : List Byte :=
  leBytes 8 0x400000 ++ leBytes 8 0x600000 ++ leBytes 4 1 ++ leBytes 4 1 ++ leBytes 4 1 ++ leBytes 4 1 ++ leBytes 2 1 ++ leBytes 1 1 ++ leBytes 1 0 ++ leBytes 4 0
    ++ leBytes 8 1 ++ leBytes 8 0 ++ leBytes 8 0

theorem witness_PacketEvents :
    (ready' (packet 7 0 0 0)).nextPacket 0 = some (Packet.make 0 (packet 7 0 0 0)) ∧ (Packet.make 0 (packet 7 0 0 0)).type = 7
    ∧ (after (.packetNop 0) (ready' (packet 7 0 0 0))).queues.map (fun q => (q.head.isSome, q.nextSeq)) = [(false, 1)]
    ∧ (after (.packetFence 0) (ready' (packet 6 0 0 0))).queues.map (·.nextSeq) = [1]
    ∧ (after (.packetTlset 0) (ready' (packet 4 0 9 0))).queues.map (fun q => q.flight.map (·.sig)) = [[some 9]]
    ∧ (after (.timelineSignal 0) (after (.packetTlset 0) (ready' (packet 4 0 9 0)))).queues.map (·.tl) = [9]
    ∧ (after (.packetTlwait 0) (ready' (packet 3 0 9 0))).queues.map (·.nextSeq) = [0]
    ∧ (after (.packetTlwait 0) (ready' (packet 3 0 0 0))).queues.map (·.nextSeq) = [1]
    ∧ (after (.packetCopy 0) (ready' (packet 2 64 128 4))).copies.map (fun c => (c.src, c.dst, c.rowBytes)) = [(.mem 64 0, .mem 128 0, 4)]
    ∧ (after (.packetPlumb 0) { ready' (packet 5 1 2 3) with trust := { m0.trust with progs := [(0, [0xA000])] } }).runs.map (fun r => (r.words, r.p[1])) = [([0xA000], 2)]
    ∧ (after (.packetPlumb 0) (ready' (packet 5 1 2 3))).queues.map (·.mode) = [.faulted]
    ∧ cardForm card = true ∧ (ready' card).entryOf 1 0x400000 = some (0, 0) ∧ (ready' card).cardPlaces 1 ((m0.obj 0).kernel 0) 1 1 = true
    ∧ (after (.packetJob 0) { ready' (packet 1 0x40000000 0 0) with mem := memWriteBytes tables (hbmKey [1] 0x40000000) card }).jobs.map (fun j => (j.entry, j.finished))
        = [(0x400000, false), (0x400000, false)]
    ∧ (after (.jobComplete 0) { idleMachine with jobs := [{ job0 with dealt := 8 }] }).jobs.map (·.finished) = [true]
    ∧ (after (.jobComplete 0) idleMachine).jobs.map (·.finished) = [false]
    ∧ (after (.copyPacketComplete 0) { mapped wave0 with
        copies := [{ copy1 with wave := none, block := none, src := .mem 0x40000000 0, dst := .mem 0x40000100 0, srcLocal := false, dstLocal := false, target := .packet 0 0 }] }).copies.map
          (·.finished) = [true] := by
  refine ⟨?_, ?_, ?_, ?_, ?_, ?_, ?_, ?_, ?_, ?_, ?_, ?_, ?_, ?_, ?_, ?_, ?_, ?_⟩ <;> decide +kernel

/-! ### Trust, the fabric -/

/-- An object of one word of text and one kernel, measured. -/
def objectText : List Byte := leBytes 4 0x6C000000
def objectMeta : List Byte :=
  leBytes 4 1 ++ leBytes 4 1 ++ (leBytes 4 32 ++ leBytes 1 1 ++ leBytes 1 0 ++ leBytes 1 0 ++ leBytes 1 1 ++ leBytes 16 0 ++ leBytes 8 0) ++ leBytes 4 0 ++ leBytes 1 0
def object : List Byte :=
  let entry (type align off size : Nat) : List Byte := leBytes 4 type ++ leBytes 4 align ++ leBytes 8 off ++ leBytes 8 size ++ leBytes 8 0
  leBytes 4 0x43594C7F ++ leBytes 2 1 ++ leBytes 2 0 ++ leBytes 2 4 ++ leBytes 2 0 ++ leBytes 4 3 ++ leBytes 8 64 ++ leBytes 8 280 ++ leBytes 32 0
    ++ entry 1 4 160 4 ++ entry 4 8 168 45 ++ entry 6 8 216 64
    ++ objectText ++ leBytes 4 0 ++ objectMeta ++ leBytes 3 0
    ++ (leBytes 4 1 ++ leBytes 4 0 ++ (leBytes 48 (sha384 (objectText ++ objectMeta)).toNat).reverse ++ leBytes 8 0)

/-- The responder in a secure session, partition 1 with key slot 7. -/
def secure : State := { mapped wave0 with trust := { m0.trust with spdm := [(0, ⟨true, true, true, 2, 0, 0, none, none, []⟩)] } }

/-- A key request for a slot. -/
def keyRequest (slot : Nat) : List Byte := leBytes 1 slot ++ leBytes 1 1 ++ leBytes 6 0 ++ leBytes 8 3 ++ leBytes 48 0 ++ leBytes 32 5 ++ leBytes 12 6 ++ leBytes 4 0

theorem witness_TrustEvents :
    ((after .getVersion m0).spdm 0).version = true ∧ ((after .getCapabilities m0).spdm 0).reply = 255 ∧ ((after .heartbeat secure).spdm 0).reply = 0xE8
    ∧ ((after .getVersion { secure with cur := ⟨0, 0, 0, 1⟩ }).spdm 0).session = 2 ∧ ((after .endSession secure).spdm 0).session = 0
    ∧ secure.trust.spdm.Pairwise (fun a b => a.1 < b.1)
    ∧ secure.trust.keys.length = 256 ∧ 7 ∈ (secure.partD 1).keySlots ∧ (keyRequest 7).length = 112
    ∧ (after (.keyinst true (keyRequest 7)) secure).trust.keyStatus = some 0 ∧ (after (.keyinst true (keyRequest 6)) secure).trust.keyStatus = some 1
    ∧ (after (.keyinst true [1]) secure).trust.keyStatus = some 3 ∧ (after (.keydel true 7 1) secure).trust.keyStatus = some 0
    ∧ secure.ctxsWith (fun c => c.pasid == 0) = [0]
    ∧ (after (.pasidTeardown 0) secure).ctxs.map (fun c => (c.tearing, c.opened)) = [(true, true)]
    ∧ (after (.teardownComplete 0) (secure.updCtx 0 (fun c => { c with tearing := true }))).ctxs.map (·.opened) = [false]
    ∧ (after (.tdiStop 1) secure).parts.map (·.run) = [false] ∧ (after (.hostLinkTrain 32 16) m0).host.speed = 32
    ∧ (after (.ideKmRequest 3 false) m0).host.ideReady = [3] := by
  refine ⟨?_, ?_, ?_, ?_, ?_, ?_, ?_, ?_, ?_, ?_, ?_, ?_, ?_, ?_, ?_, ?_, ?_, ?_⟩ <;> decide +kernel

theorem witness_codeObject : objectOk object = true ∧ objectOk (object.drop 1) = false ∧ alignOf object 1 = 4 ∧ alignOf object 2 = 1 := by decide +kernel

/-- A request of device 5's partition 3, and the machine that has taken the one before it. -/
def request (op : RemoteOp) : RemoteIn := ⟨5, 3, 8, op, 8⟩
def seventh (s : State) : State := { s with fabric := { s.fabric with performed := [(5, 7)] } }

theorem witness_FabricEvents :
    ((mapped wave0).parts.find? (fun p => p.bindings.contains (5, 3))).map (·.id) = some 1 ∧ (5, 8) ∉ (mapped wave0).fabric.performed
    ∧ (after (.deviceNumberAssign 9) m0).fabric.devid = 9 ∧ (after (.deviceNumberAssign 9) (mapped wave0)).fabric.devid = 2
    ∧ (after (.bindingInstall 1 6 0) (mapped wave0)).parts.map (·.bindings) = [[(5, 3), (6, 0)]]
    ∧ (after (.routeTableWrite 1 6 [0]) (mapped wave0)).parts.map (·.routes) = [[(5, [0]), (6, [0])]]
    ∧ ((after (.portRetrain 0) (mapped wave0)).fabric.ports.map (·.lanes)).head? = some 4 ∧ ((after (.portTrain 3) (mapped wave0)).fabric.ports.map (·.lanes))[3]? = some 8
    ∧ (after (.remoteRequest (request (.write 64 [7, 8] false))) (seventh (mapped wave0))).readN (hbmKey [1] 64) 2 = 0x807
    ∧ (after (.remoteRequest (request (.amo 0 false 64 5))) (seventh ((mapped wave0).writeN (hbmKey [1] 64) 8 9))).readN (hbmKey [1] 64) 8 = 14
    ∧ (after (.remoteRequest (request (.rsig 64 5))) (seventh (mapped wave0))).fabric.arrived = [request (.rsig 64 5)]
    ∧ (after (.remoteRequest (request (.rsig 64 5))) (mapped wave0)).fabric.early = [(request (.rsig 64 5), 0)]
    ∧ (after (.rsigApply 0) { mapped wave0 with fabric := { (mapped wave0).fabric with arrived := [request (.rsig 64 5)] } }).readN (hbmKey [1] 64) 8 = 5
    ∧ (after (.rredApply 0 0) { mapped wave0 with fabric := { (mapped wave0).fabric with arrived := [request (.rred 0 0 64 0x3F800000 0)] } }).readN (hbmKey [1] 64) 4 = 0x3F800000
    ∧ ((after (.remoteResponse 0 ⟨leBytes 8 1, List.replicate 8 false, none⟩) { answered0 with fabric := { answered0.fabric with out := [⟨1, [(5, 1, .read 64 8)], .access 0, 0, none, 4⟩] } }).fabric.out.map
        (fun o => o.answer.isSome)) = [true]
    ∧ ((after (.remoteRequestTimeout 0) { answered0 with
        time := 200000, fabric := { answered0.fabric with out := [⟨1, [(5, 1, .read 64 8)], .access 0, 0, none, 4⟩] } }).fabric.out.map (·.answer)) = [some ⟨[], [], some 0⟩] := by
  refine ⟨?_, ?_, ?_, ?_, ?_, ?_, ?_, ?_, ?_, ?_, ?_, ?_, ?_, ?_, ?_, ?_⟩ <;> decide +kernel

/-! ### Decoding and steps -/

/-- The word of ADD in the fetch buffer of the wave that core 4's turn picks. -/
def stepping : State := { machine { wave0 with splits := [{ split0 with fbase := 0x400000, fbuf := [0x04642800#32] }] } with agenda := [.core 4] }

theorem witness_StepRunsDecoded :
    (match stepping.begin.nextTurn exec with
      | .turn u t => t == .core 4 && u.pick exec 4 == some 0 && !u.withholds exec 4
      | _ => false) = true
    ∧ decodeWord 0x04642800#32 = .instr (.add 3 4 5 0)
    ∧ (match step stepping with
      | .next t => t.waves.map (fun w => (w.rd 3, w.splits.map (·.pc)))
      | _ => []) = [(107, [0x400004])]
    ∧ (match ({ stepping with agenda := [.wave 0] } : State).begin.nextTurn exec with
      | .turn u t => t == .wave 0 && u.ready 0 && u.homeOf 0 == 4 && u.allowed exec 4 (u.levelOf 0)
      | _ => false) = true
    ∧ (match step { stepping with agenda := [.wave 0] } with
      | .next t => t.waves.map (fun w => (w.rd 3, w.splits.map (·.pc)))
      | _ => []) = [(107, [0x400004])]
    ∧ (match ({ stepping with agenda := [.message 3 .getVersion] } : State).begin.nextTurn exec with
      | .turn _ t => t == .message 3 .getVersion
      | _ => false) = true
    ∧ (match step { stepping with agenda := [.message 3 .getVersion] } with
      | .next t => ((t.spdm 3).version, (t.spdm 0).version)
      | _ => (false, false)) = (true, false) := by decide +kernel

/-- A word placed where the reset state fetches next runs as the first instruction. -/
theorem test_first_instruction :
    (match step (State.reset.withFetchWord 32 0x25200051) with
      | .next t => t.waves.map (fun w => w.rd 9)
      | _ => []) = [81] := by decide +kernel

theorem witness_StepKeepsVectorLength : Good stepping :=
  ⟨by decide +kernel, by decide +kernel, by decide +kernel, by decide +kernel, by simp [stepping, machine, Queue.blank]⟩

theorem witness_MemoryReadAfterWrite :
    Memory.wf tables = true ∧ Memory.wf (memWrite tables 5 7) = true ∧ memRead (memWrite tables 5 7) 5 = 7 ∧ memWrite (memWrite tables 5 7) 5 0 = tables
    ∧ Apart 64 80 16 := by
  refine ⟨by decide +kernel, by decide +kernel, by decide +kernel, by decide +kernel, ?_⟩
  unfold Apart
  omega

theorem witness_StepKeepsStorage : Memory.wf stepping.mem = true ∧ assocWf 0#32 none stepping.accs = true ∧ Memory.wf tables = true := by
  decide +kernel

theorem witness_WordsRoundTrip :
    encodeWord (.add 3 4 5 0) = some 0x04642800 ∧ wf (.add 3 4 5 0) = true ∧ encodePlumb (.plumbLoopn 2 3) = some [0x6810, 0x0003]
    ∧ decodePlumb ([0x6810, 0x0003] ++ [0xA000]) = some (.plumbLoopn 2 3) := by decide

theorem witness_DecodedAndRejectedWords :
    26 ≤ (26#5).toNat ∧ (28#5).extractLsb' 2 3 = 7#3 ∧ 4095 < (4096#16).toNat ∧ 16 ≤ (16#5).toNat ∧ 2 < (3#3).toNat ∧ 21 ≤ (21#5).toNat ∧ 4 ≤ (4#5).toNat := by decide

theorem witness_IntegerElementValues : (BitVec.ofNat 32 (vopElem 3 10 0 false false 7 0).val) = BitVec.allOnes 32 := by decide

/-! ### Further states that meet hypotheses -/

/-- A write stream whose take to the bytes from s2 is due. -/
def stream1 : Stream := { stream0 with reg := 16, kind := 2, base := 0x0100000000000040, due := true }

/-- A wave with it, one with fabric failures, and one whose s2 is in the page of class device here. -/
def waveTake : Wave := { wave0 with streams := [stream1] }
def waveFail : Wave := { wave0 with fabFail := [(7, 0x88), (3, 0x99)] }
def waveDev : Wave := { wave0 with s := sregs [(2, 0x100000040), (4, 100), (5, 7)], ahead := true }

/-- Accesses with their paths clear, held back by another path (spec/06 R147), and held back by an access before its fault point (spec/02 R63). -/
theorem witness_paths :
    PathsClear m0 0 wave0 [(0, spot, 8)] true ∧ PathsClear m0 0 wave0 [(0, spot, 8)] false ∧ NoBarrier m0 spot 8 ∧ m0.noClaim spot = false
    ∧ PathsClear (machine waveTake) 0 waveTake [(0, spot + 32, 8)] false ∧ (machine waveTake).pathWait 0 waveTake [(0, spot, 8)] false = true
    ∧ (machine waveTake).pathWait 0 waveTake [(0, spot, 8)] true = true
    ∧ (after (.ldsS64 9 2 0) (machine waveTake)).waves.map (fun w => w.splits.map (·.stalls)) = [[true]]
    ∧ (after (.sts64 4 2 0) (machine waveTake)).waves.map (fun w => w.splits.map (·.stalls)) = [[true]]
    ∧ (mapped waveDev).resolve 0 waveDev 0x100000040 8 8 .read = .ok (.here (hbmKey [1] 0x80000040) true)
    ∧ (after (.ldsS64 9 2 0) (mapped waveDev)).waves.map (fun w => w.splits.map (·.stalls)) = [[true]] := by
  unfold PathsClear NoBarrier
  decide +kernel

/-- A fence of the stream path with a take due, and one of the fabric path after two failures, the oldest of which it reports. -/
theorem witness_fenceOfStreams :
    (∃ t ∈ waveTake.streams, t.err = none ∧ t.kind = 2 ∧ t.due = true) ∧ ((3, 0x99) ∈ waveFail.fabFail ∧ ∀ x ∈ waveFail.fabFail, x = (3, 0x99) ∨ 3 < x.1) ∧ CutClosed waveFail
    ∧ (after (.fenceX 0x20 1) (machine waveTake)).waves.map (fun w => w.splits.map (·.stalls)) = [[true]]
    ∧ (after (.fenceX 0x10 1) (machine waveFail)).frameWord 0 1 272 = 0x99 := by
  unfold CutClosed
  refine ⟨⟨stream1, by simp [waveTake], rfl, rfl, rfl⟩, ?_⟩
  decide +kernel

/-- An answered store, and the frame of a level that nothing has claimed. -/
theorem witness_answeredStore :
    (after (.remoteResponse 0 ⟨[], [], none⟩) { answered0 with
      waves := [{ waveAsk with ask := some ⟨0, none, 0, [split0], 0, [], .store 0x80000040, 0⟩ }]
      fabric := { answered0.fabric with out := [⟨1, [(5, 1, .write 0x40 (leBytes 8 5) false)], .access 0, 0, none, 4⟩] } }).waves.map (fun w => (w.ask.isNone, w.pend)) = [(true, [])]
    ∧ m0.noClaim (frameKey 0 1 + 1024) = true ∧ (machine { wave0 with claims := 2 }).noClaim (frameKey 0 1 + 1024) = false := by decide +kernel

/-- The reports of a translation fault on a page of the host and on one here (spec/16 R316). -/
theorem witness_faultReports :
    bit (0xC0000040#64).toNat 56 = false ∧ highBits (0xC0000040#64) = false
    ∧ ((mapped wave0).leaf ((mapped wave0).ctxOf wave0) 4 0xC0000040).map (bits · 8 7) = some 2
    ∧ ((mapped wave0).leaf ((mapped wave0).ctxOf wave0) 4 0x40000040).map (bits · 8 7) = some 0
    ∧ ((mapped wave0).reportFault ((mapped wave0).ctxOf wave0) 4 0xC0000040 true 8 2 0 1 0).host.pri = [⟨0, 0, 0xC0000, true⟩]
    ∧ ((mapped wave0).reportFault ((mapped wave0).ctxOf wave0) 4 0x40000040 true 8 2 0 1 0).records.length = 1 := by decide +kernel

/-- SETTILE goes on as it waits (R233). -/
def waveTile : Wave := { waveT with tile := some ⟨0x400000, BitVec.allOnes 64, 9, 0x0008000800030002, grant8, 0, 0⟩ }

theorem witness_settileWaits :
    waveTile.legacy = false ∧ split0.pc = 0x400000 ∧ split0.mask = BitVec.allOnes 64 ∧ (machine waveTile).tileQuiet 0 0 = true
    ∧ (after (.settile 9 8) (machine waveTile)).blocks.map (·.grant) = [grant8]
    ∧ ((machine waveTile).updCore 4 (fun c => { c with qlo := [{ multiply with grant := ⟨1, 1, 8, 8, 0⟩ }] })).tileQuiet 0 1 = false
    ∧ (after (.settile 9 8) (tiled.updCore 4 (fun c => { c with qlo := [multiply] }))).waves.map (fun w => w.tile.isSome) = [false]
    ∧ (after (.settile 9 8) ((machine waveT).updCore 4 (fun c => { c with slots := ⟨2, 0, 0, grant8, 1⟩ :: List.replicate 15 Slot.free }))).waves.map (fun w => w.tile.map (·.grant))
        = [some grant8] := by decide +kernel

/-- Streams: a fence of SBIND that waits, one that fails, and SQRY of a register inside a group. -/
theorem witness_streamBinding :
    (machine waveTake).copiesOut 0 = false ∧ (machine waveTake).fabricOut 0 = false ∧ waveTake.streamsOut = true
    ∧ (after (.sbind 8 2) ((machine waveTake).writeBytes spot streamBytes)).waves.map (fun w => w.splits.map (·.stalls)) = [[true]]
    ∧ (after (.sbind 8 2) (machine { wave0 with fabFail := [(7, 0x88)] })).frameWord 0 1 272 = 0x88
    ∧ (∃ t ∈ ({ wave0 with streams := [{ stream0 with g := 2 }] } : Wave).streams, t.reg < (9#5).toNat ∧ (9#5).toNat < t.reg + t.g)
    ∧ encodeWord (.sqry 3 9) ≠ none
    ∧ (after (.sqry 3 9) (machine { wave0 with streams := [{ stream0 with g := 2 }] })).frameWord 0 1 264 = 3 + 256 * 6
    ∧ (∀ g, g < 8 → m0.poisoned (spot + 8 * g) 8 = false ∧ m0.noClaim (spot + 8 * g) = false)
    ∧ m0.olderTake 0 wave0 stream0 = false ∧ waveTake.olderStream stream1 = false ∧ waveTake.groupPending stream1 = false := by
  refine ⟨by decide +kernel, by decide +kernel, by decide +kernel, by decide +kernel, by decide +kernel, ⟨{ stream0 with g := 2 }, by simp, by decide, by decide⟩, ?_⟩
  decide +kernel

/-- A stale slot filled in part, and a multiply whose operand was being filled as it issued. -/
def staleSlot : State := tiled.updCore 4 (fun c => { c with slots := updAt c.slots 0 (fun x => { x with st := 3 }) })

theorem witness_staleSlot :
    ((staleSlot.core 4).slots[0]?).map (fun x => (x.st, x.owner)) = some (3, 0) ∧ (after (.ofill 8 6) staleSlot).waves.map (fun w => w.splits.map (·.pc)) = [[0x400004]]
    ∧ multiply.mixA = false ∧ multiply.mixB = false
    ∧ (after (.orls 4) (tiled.updCore 4 (fun c => { c with qlo := [multiply] }))).waves.map (fun w => w.splits.map (·.stalls)) = [[true]] := by decide +kernel

/-- A copy from the scratchpad to another place of it, one into a slot, and one whose checks failed at its reissue. -/
def copy2 : Copy := { copy1 with dst := .slot 1 }
def copy3 : Copy := { copy1 with reissueError := true }

theorem witness_plainCopies :
    PlainCopy { m0 with copies := [copy1] } 0 copy1 [spot, spot + 1, spot + 2, spot + 3] [spot + 192, spot + 193, spot + 194, spot + 195]
    ∧ PlainSource { m0 with copies := [copy2] } 0 copy2 [spot, spot + 1, spot + 2, spot + 3] ∧ copy2.rows * copy2.rowBytes = 4
    ∧ (∀ x ∈ ({ m0 with copies := [copy2] } : State).sharedSpans 0 copy2 ++ m0.endSpans copy2 copy2.src copy2.srcLocal .read,
        ∀ i, i < 4 → x.meets (0, slotKey copy2.core 1 + i, 1) = false)
    ∧ copy3.reissueError = true ∧ copy3.moving = true ∧ copy3.block ≠ none ∧ copy3.dstLocal = true
    ∧ m0.dstPlaces copy3 = [spot + 192, spot + 193, spot + 194, spot + 195].map .at ∧ NoBarrier m0 (spot + 192) 1
    ∧ ((after (.copyCompletion 0) { m0.writeN (spot + 192) 4 5 with copies := [copy3] }).readN (spot + 192) 4,
        (after (.copyCompletion 0) { m0.writeN (spot + 192) 4 5 with copies := [copy3] }).pois) = (0, [(spot + 192) / 8])
    ∧ ((after (.copyCompletion 0) { m0.writeN spot 4 0xAABBCCDD with copies := [copy2] }).readN (slotKey 4 1) 4) = 0xAABBCCDD
    ∧ (after (.copyFaultAnswer 0 true) { m0 with copies := [{ copy1 with fault := some (0x40000000, false) }] }).copies.map (·.fault) = [none]
    ∧ ({ m0 with host := { m0.host with pri := List.replicate 513 ⟨0, 0, 7, false⟩ } } : State).priWaits (m0.ctxOf wave0) 0x9000 = false
    ∧ ({ m0 with host := { m0.host with pri := List.replicate 512 ⟨0, 0, 7, false⟩ ++ [⟨0, 0, 9, false⟩] } } : State).priWaits (m0.ctxOf wave0) 0x9000 = true := by
  unfold PlainCopy PlainSource NoBarrier
  refine ⟨⟨⟨⟨_, _, rfl⟩, by decide +kernel⟩, ⟨_, _, rfl⟩, by decide +kernel⟩, ⟨⟨_, _, rfl⟩, by decide +kernel⟩, ?_⟩
  decide +kernel

/-- LREL of a lease that has run out and of one that has not, and the word of LQRY with no older LEASE unanswered. -/
theorem witness_leaseEnds :
    (m0.updCtx 0 (fun c => { c with lease := some ⟨2, 50, 0, 0, 800⟩ })).part? 1 ≠ none
    ∧ (after .lrel { m0.updCtx 0 (fun c => { c with lease := some ⟨2, 50, 0, 0, 800⟩ }) with time := 50000 }).waves.map (·.lease) = [some 50]
    ∧ (after .lrel { m0.updCtx 0 (fun c => { c with lease := some ⟨2, 50, 0, 0, 800⟩ }) with time := 49999 }).waves.map (·.lease) = [none]
    ∧ (m0.ctx 0).asks = [] ∧ (after (.lqry 9) m0).waves.map (fun w => w.splits.map (·.pc)) = [[0x400004]] := by decide +kernel

/-- An RSIG and an RRED held back by a take of the wave's stream to the same bytes, and an RRED with no active element. -/
def stream5 : Stream := { stream1 with base := 0x80000040 }

theorem witness_fabricPaths :
    (mapped { waveF with streams := [stream5] }).streamPathWait 0 { waveF with streams := [stream5] } [(6, 0x40, 8)] true = true
    ∧ (mapped waveF).streamPathWait 0 waveF [(6, 0x40, 8)] true = false ∧ (mapped waveF).copyPathWait 0 [(6, 0x40, 8)] true = false
    ∧ (after (.rsig 2 5) (mapped { waveF with streams := [stream5] })).waves.map (fun w => w.splits.map (·.stalls)) = [[true]]
    ∧ (after (.rredAdd 8 2 0 0) (mapped { waveF with streams := [stream5] })).waves.map (fun w => w.splits.map (·.stalls)) = [[true]]
    ∧ ({ waveF with vl := 0 } : Wave).actives split0 = [] ∧ VecReady (mapped { waveF with vl := 0 }) 0 { waveF with vl := 0 }
        { reads := [groupRead { waveF with vl := 0 } 8 2 1 32 []], ss := [(2, 0)], typeOk := true }
    ∧ (after (.rredAdd 8 2 0 0) (mapped { waveF with vl := 0 })).fabric.out = [] := by
  refine ⟨by decide +kernel, by decide +kernel, by decide +kernel, by decide +kernel, by decide +kernel, by decide +kernel, vecReady_of_ready (by decide +kernel), ?_⟩
  decide +kernel

/-- A write of a younger result goes into the history; a full history holds it back; an access passes its fault point. -/
theorem witness_history :
    (after (.longLatencyWrite 0 0) { answered0 with waves := [{ waveAsk with hist := [], pend := [.scalar 5 9 false] }] }).waves.map (fun w => (w.rd 5, w.hist))
        = [(9, [.reg 5 7 false])]
    ∧ (after (.longLatencyWrite 0 0) { answered0 with waves := [{ waveAsk with hist := List.replicate 16 (.reg 5 6 false), pend := [.scalar 5 9 false] }] }).waves.map (fun w => w.rd 5)
        = [7]
    ∧ (after (.vectorFaultPoint 0) (machine { wave0 with ahead := true })).waves.map (·.ahead) = [false]
    ∧ (after (.vectorFaultPoint 0) answered0).waves.map (·.ahead) = [true]
    ∧ ¬ CutClosed waveAsk ∧ (after (.debugHaltRequest 0) answered0).waves.map (·.halted) = [false] := by
  unfold CutClosed
  decide +kernel

/-- A second bin that may start while the first does not fit, and a core with a continuation waiting. -/
def bin1 : Bin := ⟨0, 0x400000, 0, [9, 8], 0, true⟩

theorem witness_binOrder :
    bin0.held = false ∧ bin1.held = true ∧ m0.contFirst 4 = false
    ∧ (after (.binBlockLaunch 4) (m0.updCore 4 (fun c => { c with launches := [bin0, bin1] }))).waves.map (·.vl) = [64, 2]
    ∧ (m0.updBlock 0 (fun b => { b with phase := .waiting, next := some (0, 0, 0x400000, 5) })).contFirst 4 = true
    ∧ (after (.binBlockLaunch 4) ((m0.updBlock 0 (fun b => { b with phase := .waiting, next := some (0, 0, 0x400000, 5) })).updCore 4 (fun c =>
        { c with launches := [bin0] }))).blocks.length = 1
    ∧ ([4].head? = some 4) ∧ (after (.chunkDeal 0 5) { idleMachine with jobs := [{ job0 with asked := [4, 5] }] }).cores.map (fun c => c.chunk.length) = List.replicate 8 0
    ∧ (after (.binTimerExpiry 4 0) { (m0.updCore 4 (fun c => { c with bins := some bin0 :: List.replicate 7 none })).updCtx 0 (fun c => { c with st := .soft }) with
        time := 2000 }).cores.map (fun c => c.bins.map (fun b => b.map (·.held))) =
        [List.replicate 8 none, List.replicate 8 none, List.replicate 8 none, List.replicate 8 none, some true :: List.replicate 7 none, List.replicate 8 none,
          List.replicate 8 none, List.replicate 8 none] := by decide +kernel

/-- A block that can be stopped and one that waits for an answer of another device; a corrected error is counted. -/
theorem witness_stops :
    m0.stoppable 0 = true ∧ answered0.stoppable 0 = false ∧ ({ answered0 with jobs := [{ job0 with idem := true }] } : State).stoppable 0 = true ∧ (after (.softError (.scalar 0 9)) answered0).waves.map (fun w => w.sIsPois 9) = [false]
    ∧ ((after (.softError (.corrected 4)) m0).part? 1).map (·.corrected) = some 1 ∧ (m0.cluster 1).part = some 1 := by decide +kernel

/-- A cluster of a rectangle moves, one whose going would split the partition's does not. -/
theorem witness_clusterShapes :
    rectOn [] 0 = true ∧ rectOn [1, 2] 0 = true ∧ rectOn [1, 3] 0 = false ∧ ({ m0 with blocks := [], waves := [] } : State).clusterFree 1 = true
    ∧ (after (.clusterMove 1 none) { m0 with blocks := [], waves := [] }).clusters.map (·.part) = [none, none] := by decide +kernel

/-- A job with a coverage record of one rung, one point, and a map in memory here; the point skipped, its tile still to be written, its byte to be written, or in fault. -/
def covBytes : List Byte := leBytes 1 1 ++ leBytes 6 0 ++ leBytes 1 1 ++ leBytes 72 0 ++ leBytes 8 0x40000000 ++ leBytes 40 0
def skipped0 : Skipped := ⟨0, 0, false, none, none, none, none, 0, 0, false⟩
def infilling0 (x : Skipped) : State :=
  { mapped wave0 with jobs := [{ job0 with n := #v[1, 1, 1, 1], dealt := 1, cov := covBytes, skipped := [x] }] }
def jobOf (s : State) : Job := (s.job? 0).getD job0

theorem witness_infill :
    (infilling0 skipped0).infilling (jobOf (infilling0 skipped0)) = true ∧ (infilling0 skipped0).infillReady 0 (jobOf (infilling0 skipped0)) 0 = true
    ∧ ((jobOf (infilling0 skipped0)).used 0).all (·.isNone) = true
    ∧ (after (.infill 0 0) (infilling0 skipped0)).jobs.map (fun j => j.skipped.map (fun x => (x.step, x.stat))) = [[(1, 3)]]
    ∧ (infilling0 skipped0).cplace (Copy.device 0 0) false .write 0x40000000 = .at (hbmKey [1] 0x40000000)
    ∧ (after (.infill 0 0) (infilling0 { skipped0 with step := 1, stat := 3, rung := 2 })).readN (hbmKey [1] 0x40000000) 1 = 0x23
    ∧ (after (.infillFaultAnswer 0 0 true) (infilling0 { skipped0 with fault := some (0x40000000, true) })).jobs.map (fun j => j.skipped.map (·.fault)) = [[none]]
    ∧ (after (.infillFaultAnswer 0 0 false) (infilling0 { skipped0 with fault := some (0x40000000, true) })).jobs.map (·.covError) = [true] := by decide +kernel

/-- A torn fetch past its 2 µs, the signals a clear keeps, and a repeat of a request. -/
theorem witness_queueCorners :
    (after (.packetFetch 0) { (queued (packet 7 0 0 0)).updQueue 0 (fun q => { q with retries := 1, retrySince := 5 }) with time := 2006 }).queues.map (·.fault) = [some (1, 0, 0, 0)]
    ∧ m0.keptFlight [{ Packet.make 0 (packet 4 0 9 0) with sig := some 9, done := true }] = [{ Packet.make 0 (packet 4 0 9 0) with sig := some 9, done := true }]
    ∧ (m0.keptFlight [{ Packet.make 0 (packet 1 0 9 0) with sig := some 9 }]).map (·.sig) = [some 9]
    ∧ (({ m0 with jobs := [{ job0 with stopped := true }] } : State).keptFlight [{ Packet.make 0 (packet 1 0 9 0) with sig := some 9 }]).map (·.sig) = [none]
    ∧ QueueReads (queued (packet 7 0 0 0)) 0 0x40000000 64 (packet 7 0 0 0) := by
  refine ⟨by decide +kernel, by decide +kernel, by decide +kernel, by decide +kernel, by decide +kernel, by unfold NotAsked; decide +kernel, fun i => hbmKey [1] (0x40000000 + i), ?_⟩
  decide +kernel

/-- A torn-down context that owes a job its record (spec/18 R363). -/
def tearing : State :=
  { mapped wave0 with
    jobs := [{ job0 with compl := 0x40002000 }]
    queues := [{ Queue.blank with mode := .closed, deleted := false }]
    ctxs := [{ Ctx.blank with opened := true, part := 1, st := .running, tearing := true }]
    time := 50000 }

theorem witness_teardownRecord :
    tearing.owedRecords 0 = [(0, 0x40002000)] ∧ (tearing.partD 1).ring = none ∧ QueueWrites tearing 0 0x40002000 32 (fun i => hbmKey [1] (0x40002000 + i))
    ∧ (after (.teardownComplete 0) tearing).readN (hbmKey [1] 0x40002000) 4 = 1 := by
  refine ⟨by decide +kernel, by decide +kernel, ⟨by unfold NotAsked; decide +kernel, by unfold NoBarrier; decide +kernel, by decide +kernel, ?_⟩, by decide +kernel⟩
  have h : ∀ i, i < 32 → ∀ j, j < 32 → hbmKey [1] (0x40002000 + i) = hbmKey [1] (0x40002000 + j) → i = j := by decide +kernel
  exact fun i j hi hj => h i hi j hj

/-- A second element of one source and target waits for the first; a request of a partition that no binding names is refused in its response. -/
theorem witness_fabricOrder :
    (mapped wave0).goesBefore { request (.rred 0 0 64 1 0) with packet := 1 } (request (.rred 0 0 64 2 0)) = true
    ∧ (mapped wave0).goesBefore (request (.rred 0 0 64 1 0)) (request (.rred 0 0 68 2 0)) = false
    ∧ (after (.rredApply 0 1) { mapped wave0 with fabric := { (mapped wave0).fabric with arrived := [{ request (.rred 0 0 64 1 0) with packet := 1 }, request (.rred 0 0 64 2 0)] } }).fabric.arrived.length = 2
    ∧ (after (.rredApply 0 0) { mapped wave0 with fabric := { (mapped wave0).fabric with arrived := [request (.rred 0 0 64 1 0), request (.rred 0 0 64 2 0)] } }).fabric.arrived.length = 1
    ∧ (after (.remoteRequest ⟨5, 4, 8, .read 64 8, 8⟩) (seventh (mapped wave0))).fabric.replies = [(5, 8, ⟨[], [], some 0⟩)]
    ∧ (mapped wave0).hbmSize 1 = 6442450944
    ∧ (after (.remoteRequest (request (.read 6442450940 8))) (seventh (mapped wave0))).fabric.replies = [(5, 8, ⟨[], [], some 0⟩)]
    ∧ (after (.remoteRequest (request (.read 64 2))) (seventh ((mapped wave0).writeN (hbmKey [1] 64) 2 0x807))).fabric.replies = [(5, 8, ⟨[7, 8], [false, false], none⟩)] := by
  decide +kernel

/-- A wave with an energy trap pending that a LEASE keeps from being taken issues nothing (spec/19 R390); an instruction that may not go ahead of an access
before its fault point is held (spec/02 R63). -/
theorem witness_heldAtIssue :
    ({ wave0 with quota := some 3, leaseDst := some 9 } : Wave).asyncPends = true ∧ wave0.asyncPends = false
    ∧ waveAsk.mayIssue (.add 3 4 5 0) = true ∧ waveAsk.mayIssue (.sts64 3 4 0) = false ∧ wave0.mayIssue (.sts64 3 4 0) = true := by decide +kernel

/-- Three over one binary place in f32: the multiple of 2^-22 at it, its rounding, and the patterns' values (spec/03 R68). -/
theorem witness_FloatElementValues :
    2 ^ fracBits 1 ≤ 12582912 ∧ 12582912 < 2 ^ (fracBits 1 + 1) ∧ Floor (.of 3) (-22) 12582912 ∧ (-22 : Int) = max (-22) (leastExp 1 - fracBits 1)
    ∧ rounded 0 false (.of 3) (-22) 12582912 = 12582912 ∧ (0x40400000 : Nat) < 2 ^ sewOf 1 ∧ (vopElem 0 1 0 false false 0x3F800000 0x40000000).val = 0x40400000 := by
  unfold Floor
  decide +kernel

theorem witness_ConversionElementValues :
    taperedMag 7 0x40 = 1 ∧ taperedMag 7 0x41 = 17 / 16 ∧ (1 : Rat) ≤ two 12 ∧ taperedMag 7 0x40 ≤ 1 ∧ (1 : Rat) < taperedMag 7 0x41 ∧ scaleOf 0x78 = 1
    ∧ (convert 1 6 0 false false 0x3F800000).val = 0x40 ∧ 0 < 0x78 / 8 ∧ 0x78 / 8 < 31 ∧ Floor (.of (5 / 2)) 0 2
    ∧ (match operandOf 2 0x3C00 with
      | .fin neg m => !neg && m == 1
      | _ => false) = true
    ∧ (match groupOf [(.fin false 1, .fin false 2), (.fin true 1, .fin false 2)] with
      | .fin neg m => !neg && m == 0
      | _ => false) = true := by
  unfold Floor
  decide +kernel

theorem witness_ResetState : (State.reset.cores[0]?).map (·.hcol) = some 16 ∧ State.reset.waves = [] := by decide +kernel

/-! ### Results, accesses and events that hold an instruction back -/

/-- A handler that has claimed level 1 and waits for a vector result. -/
def waveP : Wave := { waveH with claims := 2, pend := [.vector 3 [5] [true] [false]] }

/-- RSTV waits for the result (spec/02 R56) and, without one, reloads what the claim saved. -/
theorem witness_restoreVectors :
    waveP.vectorOut = true ∧ ({ waveH with claims := 2 } : Wave).vectorOut = false ∧ ({ handling with waves := [waveP] } : State).vectorWordsOk 0 waveP 1 = true
    ∧ (after .rstv { handling with waves := [waveP] }).waves.map (fun w => w.splits.map (·.stalls)) = [[true]]
    ∧ (after .rstv { handling with waves := [{ waveH with claims := 2 }] }).waves.map (fun w => (w.claims, w.rdK 0)) = [(0, BitVec.allOnes 64)] := by decide +kernel

/-- The debugger's handler with s4 = `v`. -/
def debuggingWith (v : Word) : State := machine { wave0 with lvl := 3, s := sregs [(4, v)] }

/-- Loop, comparator and trace registers written, and values that are refused (spec/04 R108, R119, spec/21 R395, Table 21.2). -/
theorem witness_registerValues :
    (after (.loopRegisterWrite 4 0x008) (debuggingWith 5)).waves.map (fun w => w.splits.map (fun x => x.loops.cnt)) = [[5]]
    ∧ (after (.loopRegisterWrite 4 0x009) (debuggingWith 0x400000)).waves.map (fun w => w.splits.map (fun x => x.loops.beg)) = [[0x400000]]
    ∧ (after (.loopRegisterWrite 4 0x00A) (debuggingWith 0xC000000000400000)).waves.map (fun w => w.splits.map (fun x => x.loops.fin)) = [[0x400000]]
    ∧ encodeWord (.srw 4 0x009) ≠ none ∧ (after (.loopRegisterWrite 4 0x009) (debuggingWith 0x0200000000000000)).waves.map (·.stopped) = [some .doubleFault]
    ∧ (after (.comparatorRegisterWrite 4 0x081) (debuggingWith 0x105)).cores.map (fun c => c.dcCtl[0]) = [0, 0, 0, 0, 0x105, 0, 0, 0]
    ∧ (after (.comparatorRegisterWrite 4 0x081) (debuggingWith 0x10D)).waves.map (·.stopped) = [some .doubleFault]
    ∧ (after (.traceRegisterWrite 4 0x091) (debuggingWith 0x30C)).cores.map (·.trcCtl) = (m0.cores.map (·.trcCtl)).set 4 0x30C
    ∧ (after (.traceRegisterWrite 4 0x092) ((debuggingWith 64).updCore 4 (fun c => { c with trcCtl := 12 }))).cores.map (·.trcPos) = [0, 0, 0, 0, 64, 0, 0, 0] := by
  decide +kernel

/-- A VLDF that awaits an answer. -/
def askF : RemoteAsk := ⟨0, none, 0, [split0], 0, [], .vector ⟨.load, 8, 4, false, [], [], [], none, some (0, none), 8⟩, 0⟩

/-- A load behind a remote load (spec/06 R146), SETVL behind a VLDF (spec/05 R131), and SETVL in run-ahead, which notes the old VL. -/
theorem witness_programOrder :
    waveAsk.scalarOut = true
    ∧ (after (.ldsS64 9 2 0) { answered0 with waves := [{ waveAsk with s := sregs [(2, 0x0100000000000040)], sFull := 0xFFFFFFFF }] }).waves.map (fun w => w.splits.map (·.stalls)) = [[true]]
    ∧ ({ wave0 with ask := some askF } : Wave).lengthOut = true
    ∧ (after (.setvli 9 5) { answered0 with waves := [{ wave0 with ask := some askF, ahead := true }] }).waves.map (fun w => w.splits.map (·.stalls)) = [[true]]
    ∧ (after (.setvli 10 5) { answered0 with waves := [{ waveAsk with hist := [] }] }).waves.map (·.hist) = [[.reg 10 0 false, .vl 64 64]] := by decide +kernel

/-- Two read streams: the younger one fills after the older (spec/06 R146). -/
def stream2 : Stream := { stream0 with reg := 12, since := 1 }

theorem witness_olderFill :
    ({ wave0 with streams := [stream0, stream2] } : Wave).olderFill stream2 = true ∧ ({ wave0 with streams := [stream0, stream2] } : Wave).olderFill stream0 = false
    ∧ (after (.streamFill 0 12) (machine { wave0 with streams := [stream0, stream2] })).waves.map (fun w => w.streams.map (·.full)) = [[false, false]] := by decide +kernel

/-- BRD in a handler (spec/07 R189), and WAIT on a phase that ended in error. -/
theorem witness_trapsOfSplitsAndBarriers :
    (after (.brd 2 4) (handling.updWave 0 (fun w => { w with k := w.k.set 2 0xF }))).waves.map (·.stopped) = [some .divergence]
    ∧ (after (.barWait 2 3) (barred.putBar spot ⟨0, 0, 2, 2⟩)).frameWord 0 1 264 = 9 + 256 * 2 := by decide +kernel

/-- Reports of faults met with no leaf (spec/16 R316, spec/18 R362). -/
theorem witness_reportsWithoutLeaf :
    (mapped wave0).leaf ((mapped wave0).ctxOf wave0) 4 0x80000000000 = none
    ∧ ((mapped wave0).reportFault ((mapped wave0).ctxOf wave0) 4 0x80000000000 true 8 2 0 1 0).records.length = 1
    ∧ ((mapped wave0).reportFault ((mapped wave0).ctxOf wave0) 4 0x0200000000000000 true 8 2 0 1 0).records.length = 1 := by decide +kernel

/-- A multiply that issued beside a fill of its first slot (spec/11 R241). -/
def mixing : State := { tiled with copies := [{ copy1 with dst := .slot 0 }] }

theorem witness_mixedOperand :
    (mixing.fillsOf 4 0).map List.length = [4] ∧ ({ multiply with mixA := true } : MmaOp).mixB = false := by decide +kernel

/-! ### Events: the debugger, dealing, pre-emption, leases -/

/-- A trace record of core 4 on its way to device 5. -/
def tracing (s : State) : State := { s with fabric := { s.fabric with out := [⟨1, [(5, 1, .write 0x40 [1] false)], .trace 4, 0, none, 4⟩] } }

theorem witness_tracing :
    (tracing (machine { wave0 with lvl := 3 })).issuing { wave0 with lvl := 3 } = none
    ∧ (tracing (machine { wave0 with halted := true })).haltSeen { wave0 with halted := true } = false
    ∧ (machine { wave0 with halted := true }).haltSeen { wave0 with halted := true } = true
    ∧ (after (.debugResume 0) (tracing (machine { wave0 with halted := true }))).waves.map (·.halted) = [true] := by decide +kernel

/-- The machine with a thread in a bin, its context in a state, at a time. -/
def binned (st : Preempt) (time : Word) : State :=
  { (m0.updCore 4 (fun c => { c with bins := some bin0 :: List.replicate 7 none })).updCtx 0 (fun c => { c with st := st }) with time := time }

theorem witness_ripen :
    (((binned .running 2000000).ripen 4).core 4).bins[0]? = some none
    ∧ ((((binned .soft 2000000).ripen 4).core 4).bins[0]?).getD none = some { bin0 with held := true }
    ∧ ((((binned .running 0).ripen 4).core 4).bins[0]?).getD none = some bin0
    ∧ ((m0.setIdle 1 1000).cluster 1).idleLimit = 1000 ∧ ((m0.setIdle 1 999).cluster 1).idleLimit = 20000 ∧ ((m0.setIdle 1 10000001).cluster 1).idleLimit = 20000 := by
  decide +kernel

/-- A block with a register, bytes of its scratchpad and an element of its set 1, saved. -/
def savedFull : State :=
  let s := ((m0.writeN (memKey .scratch 4 64) 8 77).setAcc 4 1 3 5 99).updWave 0 (fun w => { w with s := w.s.set 9 123 })
  match execImageComplete 0 (s.updCtx 0 (fun c => { c with st := .hard })) with
  | .next t => t
  | _ => m0

theorem good_savedFull : Good savedFull :=
  ⟨by decide +kernel, by decide +kernel, by decide +kernel, by decide +kernel, by
    have h : savedFull.queues = [{ Queue.blank with mode := .opened, deleted := false }] := by decide +kernel
    rw [h]
    simp [Queue.blank]⟩

theorem witness_imageAndResumption :
    (preempted .hard 0).heldOf 0 = [0] ∧ savedFull.placesOk 0 [(0, 5)] = true ∧ savedFull.mayResume 0 5 = true
    ∧ savedFull.readN (memKey .image 0 64) 8 = 77 ∧ savedFull.acc (imageCore 0) 1 3 5 = 99
    ∧ (after (.resumeRequest 0 [(0, 5)]) savedFull).waves.map (fun w => (w.rd 9, w.latch, w.suspended)) = [(123, true, false)]
    ∧ (after (.resumeRequest 0 [(0, 5)]) savedFull).readN (memKey .scratch 5 64) 8 = 77 := by decide +kernel

/-- The machine that asks for a lease with what is left of the allotment. -/
def allotted (n : Nat) : State := asking.updPart 1 (fun p => { p with allotLeft := n })

/-- Level 1 on one of 128 clusters costs 3.125 W above the share: 1,562,500 nJ last 500 µs (spec/19 R385). -/
theorem witness_leaseCapacity :
    ({ leased with time := 49999 } : State).leaseHeld (leased.ctx 0) ≠ none ∧ ({ leased with time := 50000 } : State).leaseHeld (leased.ctx 0) = none
    ∧ ({ leased with time := 49999 } : State).evalLease 0 ⟨0, 9, 1000, 1, 0⟩ = .error 5 ∧ (({ leased with time := 50000 } : State).expireDue.ctx 0).lease = none
    ∧ (allotted 0).evalLease 0 ⟨0, 9, 1000, 1, 0⟩ = .error 6 ∧ (allotted 1562500).evalLease 0 ⟨0, 9, 1000, 1, 1⟩ = .error 4
    ∧ (allotted 1562500).evalLease 0 ⟨0, 9, 1000, 1, 0⟩ = .ok 500 ∧ (allotted 1562499).evalLease 0 ⟨0, 9, 1000, 1, 0⟩ = .ok 499
    ∧ (after (.leaseDecision 0) (asking.updWave 0 (fun w => { w with ended := true }))).ctxs.map (fun c => (c.lease.isSome, c.asks.length)) = [(true, 0)]
    ∧ (after (.leaseDecision 0) (asking.updBlock 0 (fun b => { b with phase := .done }))).ctxs.map (fun c => (c.lease.isSome, c.asks.length)) = [(false, 0)] := by
  decide +kernel

theorem witness_leaseQuotient :
    (500 : Nat) * (1000 * ((400 * 1 * 1 : Nat) / (128 : Nat) : Rat)) ≤ (1562500 : Nat)
    ∧ ((1562500 : Nat) : Rat) < (500 + 1 : Nat) * (1000 * ((400 * 1 * 1 : Nat) / (128 : Nat) : Rat)) := by norm_num

/-! ### Events: shootdowns, queues, the fabric -/

/-- A shootdown of one cluster, at `n` requests when it arrived there. -/
def shot (reach : List Nat) (marks : List (Nat × Nat)) : Shootdown := ⟨0, 0, 4096, reach, [1], false, 0, marks⟩

theorem witness_looksAndMoves :
    (after (.shootdownArrival 0 1) { machine { wave0 with look := some (0, 0x400000, false) } with shoots := [shot [1] []] }).waves.map (·.look) = [none]
    ∧ (after (.shootdownArrival 0 1) { machine { wave0 with look := some (0, 0x400000, true) } with shoots := [shot [1] []] }).waves.map (·.look) = [some (0, 0x400000, true)]
    ∧ answered0.remoteAt 1 1 = true ∧ (after (.shootdownAck 0 1) { answered0 with shoots := [shot [] [(1, 1)]] }).shoots.map (·.done) = [false]
    ∧ keyIn 1 (hbmKey [1] 64) = true ∧ ({ m0 with
        blocks := [], waves := [], copies := [{ copy1 with wave := none, block := none, core := 1024, placed := some ([.at (hbmKey [1] 64)], []) }] } : State).clusterFree 1 = false
    ∧ rectOn ((m0.partD 1).clusters.filter (· != 1)) 0 = true := by decide +kernel

/-- A queue whose next packet, a job, waits for its card. -/
def qCard : Queue :=
  { Queue.blank with
    mode := .opened, deleted := false, bell := 1, prog := 0, head := some (Packet.make 0 (packet 1 0x40000000 0 0)), memFault := some (0x40000000, false, true) }

theorem witness_declinedCard :
    ({ ready' card with queues := [qCard] } : State).priWaits (m0.ctx 0) 0x40000000 = false
    ∧ (after (.queueMemoryFaultAnswer 0 false) { ready' card with queues := [qCard] }).queues.map (·.mode) = [.faulted]
    ∧ (after (.queueMemoryFaultAnswer 0 false) { ready' card with queues := [qCard] }).jobs.length = 2
    ∧ (after (.queueMemoryFaultAnswer 0 false) { ready' card with queues := [{ qCard with mode := .closed }] }).queues.map (·.mode) = [.closed] := by decide +kernel

/-- A write of word `i` of a mirror area on device 5, sent. -/
def mirrored (i : Nat) (flight : List Packet) : State :=
  let s := mapped wave0
  { s with
    queues := [{ Queue.blank with
      mode := .opened, deleted := false, tladdr := 0x80000000, mirror := [(i, 7)], flight := flight
      asks := [(0x80000000 + word (8 * i), true, 0, (List.range 8).map (fun n => .away 5 (8 * i + n)))] }]
    fabric := { s.fabric with out := [⟨1, [(5, 1, .write (8 * i) (leBytes 8 7) false)], .queue 0, 0, none, 1024⟩] } }

/-- A packet that has ended and signals 9. -/
def signals9 : Packet := { Packet.make 0 (packet 4 0 9 0) with sig := some 9, done := true }

theorem witness_mirrors :
    ((mirrored 1 []).queue 0).asked 0x80000008 true = some (0, (List.range 8).map (fun n => .away 5 (8 + n)))
    ∧ (mirrored 1 []).lostAt ⟨1, [(5, 1, .write 8 (leBytes 8 7) false)], .queue 0, 0, none, 1024⟩ = none
    ∧ (after (.remoteResponse 0 ⟨[], [], none⟩) (mirrored 1 [])).queues.map (fun q => (q.mirror, q.retired)) = [([], 7)]
    ∧ (after (.timelineSignal 0) (mirrored 0 [signals9])).queues.map (·.tl) = [0]
    ∧ (after (.timelineSignal 0) (mirrored 1 [signals9])).queues.map (·.tl) = [9] := by decide +kernel

/-- The machine with one arrived operation, and with bindings of its partition. -/
def arrivedOne (op : RemoteOp) : State := { mapped wave0 with fabric := { (mapped wave0).fabric with arrived := [request op] } }
def unbound (op : RemoteOp) : State := { arrivedOne op with parts := [⟨1, [1], 64, 128, 0, 0, [7], true, none, 0, 0, [], [(5, [0])], []⟩] }

/-- An early request, and the machine with every port down. -/
def earlyOne : State := { mapped wave0 with fabric := { (mapped wave0).fabric with early := [(request (.rsig 64 5), 0)] } }
def cutOff : State := { answered0 with fabric := { answered0.fabric with ports := List.replicate 18 ⟨0, 0, none⟩ } }

theorem witness_fabricEnds :
    (after (.bindingRemove 1 5) (arrivedOne (.rsig 64 5))).fabric.arrived = []
    ∧ (after (.bindingRemove 1 5) (arrivedOne (.rsig 64 5))).fabric.replies = [(5, 8, ⟨[], [], some 0⟩)]
    ∧ (unbound (.rsig 64 5)).inKey (request (.rsig 64 5)) 64 8 = none ∧ (after (.rsigApply 0) (unbound (.rsig 64 5))).fabric.replies = [(5, 8, ⟨[], [], some 0⟩)]
    ∧ (after (.rredApply 0 0) (unbound (.rred 0 0 64 1 0))).fabric.replies = [(5, 8, ⟨[], [], some 0⟩)]
    ∧ ({ earlyOne with time := 199999 } : State).overdue.fabric.early.length = 1 ∧ ({ earlyOne with time := 200000 } : State).overdue.fabric.performed = [(5, 8)]
    ∧ (after (.remoteRequest { request (.read 64 2) with seq := 7 }) { earlyOne with fabric := { earlyOne.fabric with performed := [(5, 6)] } }).fabric.performed = [(5, 6), (5, 7), (5, 8)]
    ∧ cutOff.reaches 1 5 = false ∧ (after (.remoteResponse 0 ⟨leBytes 8 77, List.replicate 8 false, none⟩) cutOff).waves.map (·.ask.isSome) = [true]
    ∧ (after (.remoteRequestTimeout 0) cutOff).waves.map (fun w => (w.lvl, w.ask.isSome)) = [(1, false)] := by decide +kernel

/-! ### Infill with a source -/

/-- A coverage record of one nest level, tiles of one s8 element from 0x40000100, and a job whose point 0 is kept and holds 5; the computed tile of point 1 holds 7. -/
def covTile : List Byte :=
  leBytes 1 1 ++ leBytes 1 0 ++ leBytes 1 0 ++ leBytes 1 0 ++ leBytes 1 1 ++ leBytes 1 8 ++ leBytes 1 0 ++ leBytes 1 1 ++ leBytes 16 0 ++ leBytes 12 0
    ++ leBytes 4 1 ++ leBytes 2 1 ++ leBytes 2 1 ++ leBytes 4 0 ++ leBytes 8 0x40000100 ++ leBytes 8 0 ++ leBytes 8 1 ++ leBytes 8 0 ++ leBytes 8 0x40000000 ++ leBytes 40 0
def tileJob (check : Bool) : Job :=
  { job0 with n := #v[2, 1, 1, 1], dealt := 2, cov := covTile, kept := [0], skipped := [{ skipped0 with point := 1, check := check }] }
def tileMachine (check : Bool) : State :=
  let s := { mapped wave0 with jobs := [tileJob check] }
  let s := s.updBlock 0 (fun b => { b with point := 0, phase := .done })
  let s := { s with blocks := s.blocks ++ (if check then [{ s.block 0 with point := 1 }] else []) }
  (s.writeN (hbmKey [1] 0x40000100) 1 5).writeN (hbmKey [1] 0x40000101) 1 7

/-- The kept neighbour's 5 is the infill; at a check point that computed 7 the misclosure is 2/7, beyond TOLHI 0, so the controller of rung 0 turns full mode on
(spec/17 R341 to R344). -/
theorem witness_infillOfTile :
    (tileJob false).used 1 = [none, none, some (1, 0), none] ∧ (tileMachine false).infillReady 0 (tileJob false) 1 = true ∧ (tileJob false).tile 1 = [0x40000101]
    ∧ (after (.infill 0 1) (tileMachine false)).readN (hbmKey [1] 0x40000101) 1 = 5
    ∧ (after (.infill 0 1) (tileMachine false)).jobs.map (fun j => j.skipped.map (fun x => (x.step, x.stat))) = [[(1, 1)]]
    ∧ (tileMachine true).infillReady 0 (tileJob true) 1 = true
    ∧ (after (.infill 0 1) (tileMachine true)).jobs.map (fun j => (j.compared, j.miss, j.skipped.map (fun x => (x.step, x.stat)))) = [(true, 0x3FD2492492492492, [(1, 2)])]
    ∧ ((after (.infill 0 1) (tileMachine true)).closure 0).queues.map (fun q => (q.covFull, q.covRung)) = [(true, 0)]
    ∧ (match meaning 1 (field covTile 32 4) with
      | .fin false m => m == 0
      | _ => false) = true
    ∧ (match meanOf (lineOf none none) (lineOf (some (1, elementOf 8 5 false)) none) with
      | some (.fin false m) => m == 5
      | _ => false) = true := by decide +kernel

/-! ### What comes before the instruction of a slot -/

/-- A split that owes an empty read; a split at a comparator's address with its instruction's operand full, and empty. -/
def dueState : State :=
  { machine { wave0 with splits := [{ split0 with due := some ⟨4, 0, 0⟩, fbase := 0x400000, fbuf := [0x04642800#32] }] } with agenda := [.core 4] }
def hitState : State := { (compared 1).updWave 0 (fun w => { w with splits := [{ split0 with fbase := 0x400000, fbuf := [0x04642800#32] }] }) with agenda := [.core 4] }
def hitEmpty : State := hitState.updWave 0 (fun w => { w with sFull := 0xFFFFFFEF, pend := [.scalar 4 1 false] })

theorem witness_beforeTheInstruction :
    (match dueState.begin.nextTurn exec with
      | .turn u t => t == .core 4 && u.pick exec 4 == some 0
      | _ => false) = true
    ∧ (match step dueState with
      | .next t => t.waves.map (·.lvl)
      | _ => []) = [1]
    ∧ (match step hitState with
      | .next t => t.waves.map (·.halted)
      | _ => []) = [true]
    ∧ (match hitEmpty.begin.nextTurn exec with
      | .turn u _ => (u.waves[0]?).any (fun w => u.found 0 0 ((u.issueSplit 0 0 w ((w.splits[0]?).getD split0)).out exec))
      | _ => false) = true
    ∧ (match step hitEmpty with
      | .next t => t.waves.map (fun w => (w.halted, w.splits.map (fun x => x.held.isSome)))
      | _ => []) = [(false, [true])]
    ∧ (match step { m0 with agenda := [.idle 1 5000] } with
      | .next t => t.clusters.map (·.idleLimit)
      | _ => []) = [20000, 5000]
    ∧ ({ wave0 with lease := some 50, look := some (0, 0x400000, true) } : Wave).asyncPends = true
    ∧ ({ wave0 with lease := some 50, look := some (0, 0x400000, true) } : Wave).lookHeld = true := by decide +kernel

end Sys2Proof.Tests
end

section
/-! SUPPORT. The canonical forms of memory and accumulators (log entry 1) as a predicate that operations keep: closed under changes of other fields, choices and
folds; and what it means for the answers that carry a state. -/

namespace Sys2Proof.Machine

-- One proof after another, here and below: many waiting threads' stacks are more memory than the check allows.
set_option Elab.async false

variable {s : State}

/-! ### Closure -/

/-- A state with the memory and the accumulators of one in canonical form is in canonical form. -/
theorem State.Stored.same {t : State} (h : s.Stored) (hm : t.mem = s.mem := by rfl) (ha : t.accs = s.accs := by rfl) : t.Stored :=
  Stored_of_eq hm ha h

/-- A change made on a condition. -/
theorem State.Stored.when {t : State} {c : Prop} {_ : Decidable c} (h : s.Stored) (k : s.Stored → t.Stored) : (if c then t else s).Stored :=
  Stored_ite (k h) h

/-- A change not made on a condition. -/
theorem State.Stored.unless {t : State} {c : Prop} {_ : Decidable c} (h : s.Stored) (k : s.Stored → t.Stored) : (if c then s else t).Stored :=
  Stored_ite h (k h)

/-- A fold of an operation that keeps the forms. -/
theorem State.Stored.foldl {α : Type} {f : State → α → State} {l : List α} (h : s.Stored) (hf : ∀ (s : State) (x : α), s.Stored → (f s x).Stored) :
    (l.foldl f s).Stored := by
  induction l generalizing s with
  | nil => exact h
  | cons x l ih => exact ih (hf s x h)

/-! ### Answers that carry a state -/

/-- The next state, where there is one, is in canonical form. -/
inductive Kept : Out State → Prop
  | next {s : State} (h : s.Stored) : Kept (.next s)
  | fault {r : Fault} : Kept (.fault r)
  | refused {r : Refusal} : Kept (.refused r)

theorem Kept.of_all {o : Out State} (h : ∀ t, o = .next t → t.Stored) : Kept o := by
  cases o with
  | next t => exact .next (h t rfl)
  | fault => exact .fault
  | refused => exact .refused

theorem Kept.of_next {o : Out State} {t : State} (h : Kept o) (e : o = .next t) : t.Stored := by
  subst e
  cases h
  assumption

theorem Kept.ite {c : Prop} {_ : Decidable c} {o o' : Out State} (h : Kept o) (h' : Kept o') : Kept (if c then o else o') := by
  split
  · exact h
  · exact h'

/-- An event with an effect, and one without. -/
theorem State.Stored.effect (h : s.Stored) : Kept (ok s) := .next h
theorem State.Stored.noEffect (h : s.Stored) : Kept (idle s) := .next h

/-- The state that an instruction's body answers with, where it has one, is in canonical form. -/
inductive Res.Keeps : Res → Prop
  | done {s : State} (h : s.Stored) : Keeps (.done s)
  | goto {s : State} {next pc : Word} {taken : Bool} (h : s.Stored) : Keeps (.goto s next pc taken)
  | trap {t : Trap} : Keeps (.trap t)
  | trapIn {s : State} {t : Trap} {write : Bool} (h : s.Stored) : Keeps (.trapIn s t write)
  | after {s : State} {t : Trap} (h : s.Stored) : Keeps (.after s t)
  | wait : Keeps .wait
  | waitIn {s : State} (h : s.Stored) : Keeps (.waitIn s)
  | stall : Keeps .stall
  | stallIn {s : State} (h : s.Stored) : Keeps (.stallIn s)
  | left {s : State} (h : s.Stored) : Keeps (.left s)

theorem Res.keeps_iff {r : Res} : r.Keeps ↔ r.All State.Stored := by
  constructor
  · intro h
    cases h <;> trivial
  · intro h
    cases r <;> constructor <;> exact h

theorem Res.Keeps.ite {c : Prop} {_ : Decidable c} {r r' : Res} (h : r.Keeps) (h' : r'.Keeps) : (if c then r else r').Keeps := by
  split
  · exact h
  · exact h'

/-- An instruction that may have to wait or to trap first. -/
theorem Res.Keeps.unless {c : Prop} {_ : Decidable c} {r r' : Res} (h : r'.Keeps) (h' : r.Keeps := by constructor) :
    (if c then r else r').Keeps := .ite h' h

/-- A gate that opens to a body. -/
theorem Res.Keeps.gate {w : Wave} {u : Uses} {k : Unit → Res} (h : (k ()).Keeps) : (w.gate u k).Keeps :=
  keeps_iff.2 (Wave.gate_all _ _ _ _ (keeps_iff.1 h))

/-- A request to another device leaves from a state in canonical form. -/
inductive Remote.Keeps : Remote → Prop
  | ready {a : RemoteAnswer} : Keeps (.ready a)
  | pending : Keeps .pending
  | sent {s : State} (h : s.Stored) : Keeps (.sent s)

theorem Remote.Keeps.of_sent {r : Remote} {t : State} (h : r.Keeps) (e : r = .sent t) : t.Stored := by
  subst e
  cases h
  assumption

theorem Remote.Keeps.ite {c : Prop} {_ : Decidable c} {r r' : Remote} (h : r.Keeps) (h' : r'.Keeps) : (if c then r else r').Keeps := by
  split
  · exact h
  · exact h'

/-- A copy's movement ends in a state in canonical form. -/
inductive Moved.Keeps : Moved → Prop
  | waits : Keeps .waits
  | later {s : State} (h : s.Stored) : Keeps (.later s)
  | done {s : State} {err pois : Bool} (h : s.Stored) : Keeps (.done s err pois)

theorem Moved.Keeps.of_later {r : Moved} {t : State} (h : r.Keeps) (e : r = .later t) : t.Stored := by
  subst e
  cases h
  assumption

theorem Moved.Keeps.of_done {r : Moved} {t : State} {err pois : Bool} (h : r.Keeps) (e : r = .done t err pois) : t.Stored := by
  subst e
  cases h
  assumption

/-- An access of a queue ends in a state in canonical form. -/
inductive Dev.Keeps : Dev → Prop
  | waits : Keeps .waits
  | later {s : State} (h : s.Stored) : Keeps (.later s)
  | bad {s : State} {a : Word} (h : s.Stored) : Keeps (.bad s a)
  | got {s : State} {l : List Byte} (h : s.Stored) : Keeps (.got s l)

theorem Dev.Keeps.of_later {r : Dev} {t : State} (h : r.Keeps) (e : r = .later t) : t.Stored := by
  subst e
  cases h
  assumption

theorem Dev.Keeps.of_bad {r : Dev} {t : State} {a : Word} (h : r.Keeps) (e : r = .bad t a) : t.Stored := by
  subst e
  cases h
  assumption

theorem Dev.Keeps.of_got {r : Dev} {t : State} {l : List Byte} (h : r.Keeps) (e : r = .got t l) : t.Stored := by
  subst e
  cases h
  assumption

/-- A plumb operation ends in a state in canonical form. -/
inductive PRes.Keeps : PRes → Prop
  | next {s : State} {r : PlumbRun} {pc : Nat} (h : s.Stored) : Keeps (.next s r pc)
  | wait : Keeps .wait
  | waitIn {s : State} (h : s.Stored) : Keeps (.waitIn s)
  | fault {sub : Nat} : Keeps (.fault sub)
  | memory {s : State} {a : Word} (h : s.Stored) : Keeps (.memory s a)
  | fin : Keeps .fin

theorem PRes.Keeps.ite {c : Prop} {_ : Decidable c} {r r' : PRes} (h : r.Keeps) (h' : r'.Keeps) : (if c then r else r').Keeps := by
  split
  · exact h
  · exact h'

/-- An instruction fetch ends in a state in canonical form. -/
inductive Fetch.Keeps : Fetch → Prop
  | word {s : State} {x : IWord} (h : s.Stored) : Keeps (.word s x)
  | pending : Keeps .pending
  | sent {s : State} (h : s.Stored) : Keeps (.sent s)
  | trap {s : State} {t : Trap} (h : s.Stored) : Keeps (.trap s t)

/-- A write of a special register that is accepted ends in a state in canonical form. -/
inductive WroteKeeps : Wrote → Prop
  | refused : WroteKeeps none
  | some {s : State} (h : s.Stored) : WroteKeeps (some s)

theorem WroteKeeps.ite {c : Prop} {_ : Decidable c} {r r' : Wrote} (h : WroteKeeps r) (h' : WroteKeeps r') : WroteKeeps (if c then r else r') := by
  split
  · exact h
  · exact h'

/-- An issue slot comes to an instruction in a state in canonical form, or to an outcome that keeps the forms. -/
inductive Slotful.Keeps : Slotful → Prop
  | run {s : State} {wi : Nat} {i : Instr} (h : s.Stored) : Keeps (.run s wi i)
  | outcome {wi : Option Nat} {o : Out State} (h : Kept o) : Keeps (.over wi o)

theorem Slotful.Keeps.ite {c : Prop} {_ : Decidable c} {r r' : Slotful} (h : r.Keeps) (h' : r'.Keeps) : (if c then r else r').Keeps := by
  split
  · exact h
  · exact h'

/-- The choice of a turn leaves a state in canonical form. -/
inductive Next.Keeps : Next → Prop
  | turn {s : State} {t : Turn} (h : s.Stored) : Keeps (.turn s t)
  | own {s : State} (h : s.Stored) : Keeps (.own s)

/-! ### Changes of other fields -/

theorem State.Stored.updWave {i : Nat} {f : Wave → Wave} (h : s.Stored) : (s.updWave i f).Stored := h
theorem State.Stored.updBlock {i : Nat} {f : Block → Block} (h : s.Stored) : (s.updBlock i f).Stored := h
theorem State.Stored.updCore {i : Nat} {f : CoreSt → CoreSt} (h : s.Stored) : (s.updCore i f).Stored := h
theorem State.Stored.updCluster {i : Nat} {f : ClusterSt → ClusterSt} (h : s.Stored) : (s.updCluster i f).Stored := h
theorem State.Stored.updCtx {i : Nat} {f : Ctx → Ctx} (h : s.Stored) : (s.updCtx i f).Stored := h
theorem State.Stored.updQueue {i : Nat} {f : Queue → Queue} (h : s.Stored) : (s.updQueue i f).Stored := h
theorem State.Stored.updJob {i : Nat} {f : Job → Job} (h : s.Stored) : (s.updJob i f).Stored := h
theorem State.Stored.updCopy {i : Nat} {f : Copy → Copy} (h : s.Stored) : (s.updCopy i f).Stored := h
theorem State.Stored.updGang {i : Nat} {f : Gang → Gang} (h : s.Stored) : (s.updGang i f).Stored := h
theorem State.Stored.updVFile {i : Nat} {f : VFile → VFile} (h : s.Stored) : (s.updVFile i f).Stored := h
theorem State.Stored.updPart {p : Nat} {f : Part → Part} (h : s.Stored) : (s.updPart p f).Stored := h
theorem State.Stored.updRun {n : Nat} {f : PlumbRun → PlumbRun} (h : s.Stored) : (s.updRun n f).Stored := h
theorem State.Stored.updSlot {core n : Nat} {f : Slot → Slot} (h : s.Stored) : (s.updSlot core n f).Stored := h
theorem State.Stored.updPort {g n : Nat} {f : Port → Port} (h : s.Stored) : (s.updPort g n f).Stored := h
theorem State.Stored.updSide {key : Nat} {f : BarSide → BarSide} (h : s.Stored) : (s.updSide key f).Stored := h
theorem State.Stored.updFabPort {n : Nat} {f : FabPort → FabPort} (h : s.Stored) : (s.updFabPort n f).Stored := h
theorem State.Stored.updPoint {ji p : Nat} {f : Skipped → Skipped} (h : s.Stored) : (s.updPoint ji p f).Stored := h
theorem State.Stored.updSpdm {fn : Nat} {f : Spdm → Spdm} (h : s.Stored) : (s.updSpdm fn f).Stored := h

end Sys2Proof.Machine
end

section
/-! SUPPORT. The operations of a wave keep the canonical forms: its registers, the marks its accesses leave, its reads ahead and its splits. -/

namespace Sys2Proof.Machine

set_option Elab.async false

variable {s : State}

/-! ### Registers, poison and translations -/

theorem State.Stored.setReg {wi : Nat} {d : Reg} {v : Word} (h : s.Stored) : (s.setReg wi d v).Stored := h

theorem State.Stored.heal {l : List (Nat × Nat)} (h : s.Stored) : (s.heal l).Stored := h

theorem State.Stored.poison {a : Nat} (h : s.Stored) : (s.poison a).Stored := h

theorem State.Stored.putRegs {wi : Nat} {w : Wave} {n : Nat} {regs : List VReg} {whole bad : List Bool} (h : s.Stored) :
    (s.putRegs wi w n regs whole bad).Stored := h.updVFile.updWave

theorem State.Stored.makeWrite {wi : Nat} {w : Wave} {p : LongWrite} {young : Bool} (h : s.Stored) : (s.makeWrite wi w p young).Stored := by
  cases p with
  | scalar => exact h.updWave
  | vector => exact h.putRegs.updWave

theorem State.Stored.drain {wi : Nat} (h : s.Stored) : (s.drain wi).Stored := h.same (State.drain_mem ..) (State.drain_accs ..)

theorem State.Stored.stopMate {w : Wave} {b : Bool} (h : s.Stored) : (s.stopMate w b).Stored :=
  h.same (State.stopMate_mem ..) (State.stopMate_accs ..)

theorem State.Stored.stall {wi si : Nat} (h : s.Stored) : (s.stall wi si).Stored := h.updWave

/-- The definition is unfolded as a function and its walk put aside, so that the kernel does not evaluate the walk's bounds. -/
theorem State.Stored.fillTlb {c : Ctx} {core va : Nat} (h : s.Stored) : (s.fillTlb c core va).Stored := by
  generalize e : @State.fillTlb = fill
  delta State.fillTlb at e
  subst e
  beta_reduce
  generalize s.walk c va = o
  cases o with
  | none => exact h
  | some => exact h.same

theorem State.Stored.touched {w : Wave} {a : Word} (h : s.Stored) : (s.touched w a).Stored := h.unless (·.fillTlb)

theorem State.Stored.addLanes {w : Wave} {u m b st sl : Nat} (h : s.Stored) : (s.addLanes w u m b st sl).Stored := h.updVFile

theorem State.Stored.beats {w : Wave} {sp : Split} {regs : Nat} {arith : Bool} (h : s.Stored) : (s.beats w sp regs arith).Stored := h.addLanes

theorem State.Stored.writeElems {wi : Nat} {w : Wave} {base sew : Nat} {l : List (Nat × Nat)} (h : s.Stored) :
    (s.writeElems wi w base sew l).Stored := h.same (State.writeElems_mem ..) (State.writeElems_accs ..)

theorem State.Stored.rstv {wi : Nat} {w : Wave} {lvl : Nat} {keepBound : Bool} (h : s.Stored) : (s.rstv wi w lvl keepBound).Stored :=
  h.updVFile.updWave

theorem State.Stored.returnFrom {wi : Nat} {w : Wave} (h : s.Stored) : (s.returnFrom wi w).Stored := (h.when (·.rstv)).updWave.when (·.stopMate)

theorem State.Stored.looked {wi : Nat} (h : s.Stored) : (s.looked wi).Stored :=
  h.updWave

/-! ### The side-effect latch and the notes of stores -/

theorem State.Stored.sideEffect {w : Wave} (h : s.Stored) : (s.sideEffect w).Stored := h.updBlock

theorem State.Stored.noteStores {w : Wave} {l : List (Word × Nat)} (h : s.Stored) : (s.noteStores w l).Stored := by
  unfold State.noteStores
  split
  · exact h.unless (·.updBlock)
  · exact h

theorem State.Stored.latched {w : Wave} {a : Word} (h : s.Stored) : (s.latched w a).Stored := h.when (·.sideEffect)

theorem State.Stored.stored {w : Wave} {a : Word} {n : Nat} (h : s.Stored) : (s.stored w a n).Stored :=
  h.when (·.sideEffect.noteStores)

/-! ### Requests to other devices -/

theorem State.Stored.sendRemote {part : Nat} {ops : List (Nat × RemoteOp)} {use : RemoteUse} (h : s.Stored) : (s.sendRemote part ops use).Stored :=
  h.same

theorem State.Stored.lookRemote {wi : Nat} {w : Wave} {pc : Word} {op : Nat × RemoteOp} {dev : Bool} (h : s.Stored) :
    (s.lookRemote wi w pc op dev).Keeps := by
  have send : ∀ part, Remote.Keeps (if s.reaches part op.1 then
      .sent ((s.sendRemote part [op] (.look wi)).updWave wi (fun w => { w with look := some (s.fabric.out.length, pc, dev) }))
      else .ready ⟨[], [], some 0⟩) := fun _ => .ite (.sent h.sendRemote.updWave) .ready
  unfold State.lookRemote
  split
  · exact send _
  · split
    · split
      · split
        · exact .ready
        · exact .pending
      · exact send _
    · exact send _

theorem State.Stored.startAsk {wi si : Nat} {w : Wave} {kind : AskKind} {ops : List (Nat × RemoteOp)} (h : s.Stored) :
    (s.startAsk wi si w kind ops).Keeps := .unless (.done h.sendRemote.updWave)

theorem State.answerTo_keeps (s : State) (r : Nat) (ops : List (Nat × RemoteOp)) : (s.answerTo r ops).Keeps := by
  unfold State.answerTo
  split
  · exact .pending
  · split
    · exact .ready
    · exact .pending

theorem State.Stored.fenced {wi : Nat} {w : Wave} {frm : BitVec 6} {k : Unit → Res} (h : s.Stored) (hk : (k ()).Keeps) :
    (s.fenced wi w frm k).Keeps := by
  refine .unless ?_
  split
  · exact .trapIn h.updWave
  · exact hk

theorem State.Stored.readAhead {wi : Nat} {w : Wave} {sp : Split} {a : Word} {n : Nat} {k : State → List Byte → Res}
    (h : s.Stored) (hk : ∀ s l, State.Stored s → (k s l).Keeps) :
    (s.readAhead wi w sp a n k).Keeps := by
  unfold State.readAhead
  split
  · exact .trap
  · exact hk _ _ h.looked.touched
  · split
    · exact .stall
    · exact .stallIn (h.lookRemote.of_sent ‹_›)
    · exact .ite (.trapIn h.looked) (hk _ _ h.looked.touched)

/-! ### Instructions of a wave -/

theorem State.Stored.runWave {k : Nat → Nat → Wave → Split → Res} (h : s.Stored) (hk : ∀ wi si w sp, (k wi si w sp).Keeps) :
    Kept (s.runWave k) := .of_all fun _ e => State.runWave_stored h (fun wi si w sp _ _ => Res.keeps_iff.1 (hk wi si w sp)) e

theorem State.Stored.scalar {ss : List (Reg × Nat)} {sd : List Reg} {k : Nat → Nat → Wave → Split → Res} (h : s.Stored)
    (hk : ∀ wi si w sp, (k wi si w sp).Keeps) : Kept (s.scalar ss sd k) := h.runWave fun _ _ _ _ => .gate (hk _ _ _ _)

theorem State.Stored.compute {ss : List (Reg × Nat)} {d : Reg} {f : Wave → Word} (h : s.Stored) : Kept (s.compute ss d f) :=
  h.scalar fun _ _ _ _ => .done h.setReg

theorem State.Stored.vec {i : Instr} {plan : Wave → Split → VPlan} {k : Nat → Nat → Wave → Split → Res} (h : s.Stored)
    (hk : ∀ wi si w sp, (k wi si w sp).Keeps) : Kept (s.vec i plan k) := .of_all fun _ e => State.vec_stored h (fun _ _ _ _ => Res.keeps_iff.1 (hk _ _ _ _)) e

theorem State.Stored.vctl {i : Instr} {ss : List (Reg × Nat)} {sd : List Reg} {k : Nat → Wave → Split → Res} (h : s.Stored)
    (hk : ∀ wi w sp, (k wi w sp).Keeps) : Kept (s.vctl i ss sd k) := .of_all fun _ e => State.vctl_stored h (fun _ _ _ => Res.keeps_iff.1 (hk _ _ _)) e

/-- A matrix word in legacy mode traps; in native mode it is what it is. -/
theorem State.Stored.matLegacy {i : Instr} {k : Out State} (h : s.Stored) (hk : Kept k) : Kept (s.matLegacy i k) := by
  unfold State.matLegacy
  split
  · exact .ite (h.runWave fun _ _ _ _ => .trap) hk
  · exact hk

theorem State.Stored.matScalar {i : Instr} {ss : List (Reg × Nat)} {sd : List Reg} {k : Nat → Nat → Wave → Split → Res} (h : s.Stored)
    (hk : ∀ wi si w sp, (k wi si w sp).Keeps) : Kept (s.matScalar i ss sd k) := h.matLegacy (h.scalar hk)

theorem State.Stored.handlerOnly {i : Instr} {k : Nat → Nat → Wave → Split → Res} (h : s.Stored)
    (hk : ∀ wi si w sp, (k wi si w sp).Keeps) : Kept (s.handlerOnly i k) := h.scalar fun _ _ _ _ => .unless (hk _ _ _ _)

theorem State.Stored.iop {d a b : Reg} {x : BitVec 1} {f : IopIn → Int} (h : s.Stored) : Kept (s.iop d a b x f) := h.compute

theorem State.Stored.iop1 {d a : Reg} {x : BitVec 1} {f : IopIn → Int} (h : s.Stored) : Kept (s.iop1 d a x f) := h.compute

theorem State.Stored.fencePaths {frm : BitVec 6} (h : s.Stored) : Kept (s.fencePaths frm) := h.scalar fun _ _ _ _ => h.fenced (.done h)

theorem State.Stored.branch {a b : Reg} {off : BitVec 16} {cond : Word → Word → Bool} (h : s.Stored) : Kept (s.branch a b off cond) :=
  h.scalar fun _ _ _ _ => .ite (.goto h) (.done h)

/-! ### Scalar accesses -/

theorem State.Stored.lds {d a : Reg} {off : BitVec 13} {n : Nat} {signed : Bool} (h : s.Stored) : Kept (s.lds d a off n signed) := by
  refine h.scalar fun wi si w _ => ?_
  dsimp only
  split
  · exact .trap
  · refine .unless ?_
    split
    · exact .unless (.done h.touched.updWave)
    · exact .unless h.touched.startAsk

theorem State.Stored.sts {d a : Reg} {off : BitVec 13} {n : Nat} (h : s.Stored) : Kept (s.sts d a off n) := by
  refine h.scalar fun wi si w _ => ?_
  dsimp only
  split
  · exact .trapIn h
  · refine .unless ?_
    split
    · exact .done (State.storeN_stored _ _ _ h.touched.stored)
    · exact .ite (.trapIn h) h.touched.stored.startAsk

theorem State.Stored.atomic {d a : Reg} {n : Nat} {ss : List (Reg × Nat)} {f : Wave → Nat → Option Nat} {op : Wave → Nat → RemoteOp} (h : s.Stored) :
    Kept (s.atomic d a n ss f op) := by
  refine h.scalar fun wi si w _ => ?_
  dsimp only
  split
  · exact .trapIn h
  · refine .unless ?_
    split
    · refine .unless (.done (State.Stored.updWave ?_))
      split
      · exact State.storeN_stored _ _ _ h.touched.stored
      · exact h.touched.latched
    · exact .ite (.trapIn h) h.touched.latched.startAsk

theorem State.Stored.amo {fn : Nat} {d a b : Reg} {x : BitVec 1} (h : s.Stored) : Kept (s.amo fn d a b x) := by
  unfold State.amo
  exact h.atomic

theorem execCas_kept {d a b : Reg} {x : BitVec 1} {_c : Reg} (h : s.Stored) : Kept (execCas d a b x _c s) := by
  unfold execCas
  exact h.atomic

end Sys2Proof.Machine
end

section
/-! SUPPORT. The scalar, control, special-register and vector instructions keep the canonical forms. -/

namespace Sys2Proof.Machine

set_option Elab.async false

variable {s : State}

/-! ### Control -/

theorem execJal_kept {off : BitVec 26} (h : s.Stored) : Kept (execJal off s) := h.scalar fun _ _ _ _ => .goto h.setReg

theorem execJalr_kept {d a : Reg} {imm : BitVec 16} (h : s.Stored) : Kept (execJalr d a imm s) := h.scalar fun _ _ _ _ => .goto h.setReg

theorem execLoop_kept {a : Reg} {imm : BitVec 16} (h : s.Stored) : Kept (execLoop a imm s) :=
  h.scalar fun _ _ _ _ => .unless (.unless (.ite (.goto h) (.left h.updWave)))

theorem execBrd_kept {a : BitVec 3} {off : BitVec 16} (h : s.Stored) : Kept (execBrd a off s) :=
  h.scalar fun _ _ _ _ => .unless (.ite (.done h) (.ite (.goto h) (.unless (.unless (.left h.updWave)))))

theorem execJoin_kept (h : s.Stored) : Kept (execJoin s) := h.scalar fun _ _ _ _ => .unless (.done h)

theorem execYield_kept (h : s.Stored) : Kept (execYield s) := h.scalar fun _ _ _ _ => .ite (.done h) (.unless (.left h.updWave))

theorem execNop_kept (h : s.Stored) : Kept (execNop s) := h.scalar fun _ _ _ _ => .done h

theorem execTrap_kept {n : BitVec 12} (h : s.Stored) : Kept (execTrap n s) := h.scalar fun _ _ _ _ => .after h

theorem execBrk_kept {n : BitVec 12} (h : s.Stored) : Kept (execBrk n s) := h.scalar fun _ _ _ _ => .trap

theorem execSysc_kept {n : BitVec 12} (h : s.Stored) : Kept (execSysc n s) := h.scalar fun _ _ _ _ => .unless (.done h.sideEffect.drain.updWave)

theorem execRte_kept (h : s.Stored) : Kept (execRte s) := h.handlerOnly fun _ _ _ _ => .unless (.ite (.left h.returnFrom) .trap)

theorem execHalt_kept (h : s.Stored) : Kept (execHalt s) :=
  h.handlerOnly fun _ _ _ _ => .left (State.queueFault_stored _ _ _ _ _ _ _ _ h.drain.updWave)

theorem execWfe_kept (h : s.Stored) : Kept (execWfe s) := h.scalar fun _ _ _ _ => .ite (.left h.updWave) (.waitIn h.updWave)

theorem execClaimv_kept (h : s.Stored) : Kept (execClaimv s) :=
  h.handlerOnly fun _ _ _ _ => .unless (.ite (.done h)
    (.done (State.Stored.updWave (Stored_writeN _ _ _ (Stored_writeBytes _ _ (Stored_writeBytes _ _ h))))))

theorem execRstv_kept (h : s.Stored) : Kept (execRstv s) := h.handlerOnly fun _ _ _ _ => .unless (.ite (.done h) (.ite (.done h.rstv) .trap))

theorem execIllegalInstructionWord_kept {w : IWord} (h : s.Stored) : Kept (execIllegalInstructionWord w s) := by
  unfold execIllegalInstructionWord
  split
  · exact h.noEffect
  · exact h.runWave fun _ _ _ _ => .unless .trap

/-! ### Special registers -/

theorem State.Stored.readSpecial {d : Reg} {n : BitVec 12} {i : Instr} (h : s.Stored) : Kept (s.readSpecial d n i) := by
  refine h.runWave fun wi _ w sp => .unless ?_
  split
  · exact .trap
  · exact .unless (.gate (.ite (.done (h.when (·.updVFile)).updWave) (.done (h.when (·.updVFile)).setReg)))

theorem writeIf_keeps {c : Bool} (h : s.Stored) : WroteKeeps (writeIf c s) := by
  cases c with
  | true => exact .some h
  | false => exact .refused

theorem State.Stored.writeLoop {wi si k : Nat} {v : Word} (h : s.Stored) : WroteKeeps (s.writeLoop wi si k v) :=
  .ite (.some h.updWave) (.ite (writeIf_keeps h.updWave) (writeIf_keeps h.updWave))

theorem State.Stored.writeComparator {core k : Nat} {v : Word} (h : s.Stored) : WroteKeeps (s.writeComparator core k v) :=
  .ite (writeIf_keeps h.updCore) (writeIf_keeps h.updCore)

theorem State.Stored.writeTrace {core k : Nat} {v : Word} (h : s.Stored) : WroteKeeps (s.writeTrace core k v) :=
  .ite (writeIf_keeps h.updCore) (.ite (writeIf_keeps h.updCore) (writeIf_keeps h.updCore))

theorem State.Stored.writeOther {wi : Nat} {w : Wave} {k : Nat} {v : Word} (h : s.Stored) : WroteKeeps (s.writeOther wi w k v) := by
  have frame : ∀ off, (if w.lvl = 0 then s else s.writeN (frameKey wi w.lvl + off) 8 v.toNat).Stored := fun _ => h.unless (Stored_writeN _ _ _)
  unfold State.writeOther
  dsimp only
  split
  iterate 4 exact writeIf_keeps h.updWave
  iterate 2 exact writeIf_keeps (frame _)
  · exact .some (frame _)
  · exact writeIf_keeps h.updWave
  · exact .some h

theorem State.Stored.writeSpecial {wi si : Nat} {w : Wave} {k : Nat} {v : Word} (h : s.Stored) : WroteKeeps (s.writeSpecial wi si w k v) := by
  refine .ite (writeIf_keeps h.updWave) (.ite (.some h.updWave) (.ite (.some h.updBlock) (.ite (.some h.updVFile) ?_)))
  exact .ite h.writeLoop (.ite h.writeComparator (.ite h.writeTrace h.writeOther))

theorem State.Stored.srw {a : Reg} {n : BitVec 12} {i : Instr} (h : s.Stored) : Kept (s.srw a n i) := by
  refine h.runWave fun wi si w sp => .unless (.unless (.gate ?_))
  have k := h.writeSpecial (wi := wi) (si := si) (w := w) (k := n.toNat) (v := w.rd a)
  generalize s.writeSpecial wi si w n.toNat (w.rd a) = r at k
  cases k with
  | refused => exact .trap
  | some h =>
    refine .ite ?_ (.done h)
    split
    · exact .done h
    · split
      · exact .done h
      · exact .left (State.complete_stored _ _ _ _ _ _ h h)

theorem execLoopRegisterWrite_kept {a : Reg} {n : BitVec 12} (h : s.Stored) : Kept (execLoopRegisterWrite a n s) := .ite h.srw h.noEffect

theorem execComparatorRegisterWrite_kept {a : Reg} {n : BitVec 12} (h : s.Stored) : Kept (execComparatorRegisterWrite a n s) := .ite h.srw h.noEffect

theorem execTraceRegisterWrite_kept {a : Reg} {n : BitVec 12} (h : s.Stored) : Kept (execTraceRegisterWrite a n s) :=
  .ite h.srw h.noEffect

/-! ### Vector length and mode -/

theorem State.Stored.grantRecordOf {w : Wave} {sp : Split} {num req result caps : Nat} (h : s.Stored) :
    (s.grantRecordOf w sp num req result caps).Stored := h.when (State.traceRecord_stored _ _ _ _ _ _ _ _)

theorem State.Stored.grantRecord {w : Wave} {sp : Split} {num req result : Nat} (h : s.Stored) : (s.grantRecord w sp num req result).Stored :=
  h.grantRecordOf

theorem State.Stored.grantVl {wi : Nat} {w : Wave} {sp : Split} {d : Reg} {req : Nat} (h : s.Stored) : (s.grantVl wi w sp d req).Keeps :=
  .unless (.done h.grantRecord.updWave)

theorem execSetvl_kept {d a : Reg} (h : s.Stored) : Kept (execSetvl d a s) := h.vctl fun _ _ _ => h.grantVl

theorem execSetvli_kept {d : Reg} {n : BitVec 12} (h : s.Stored) : Kept (execSetvli d n s) := h.vctl fun _ _ _ => h.grantVl

theorem execMode_kept {d a : Reg} (h : s.Stored) : Kept (execMode d a s) := h.vctl fun _ _ _ => .ite (.done h.updWave) .trap

theorem execSpace_kept {d a : Reg} (h : s.Stored) : Kept (execSpace d a s) :=
  h.vctl fun _ _ _ => .ite (.done h.updWave) .trap

/-! ### Masks -/

theorem State.Stored.maskOp {i : Instr} {d : BitVec 3} {f : Wave → Word} (h : s.Stored) : Kept (s.maskOp i d f) := h.vctl fun _ _ _ => .done h.updWave

theorem State.Stored.maskElems {i : Instr} {d : BitVec 3} {f : Wave → Nat} (h : s.Stored) : Kept (s.maskElems i d f) :=
  h.vctl fun _ _ _ => .unless (.done h.updWave)

theorem execMcnt_kept {d : Reg} {a : BitVec 3} (h : s.Stored) : Kept (execMcnt d a s) := h.vctl fun _ _ _ => .done h.setReg

theorem execMfirst_kept {d : Reg} {a : BitVec 3} (h : s.Stored) : Kept (execMfirst d a s) := h.vctl fun _ _ _ => .done h.setReg

theorem execMmovs_kept {d : Reg} {a : BitVec 3} (h : s.Stored) : Kept (execMmovs d a s) := h.vctl fun _ _ _ => .done h.setReg

theorem execMmovk_kept {d : BitVec 3} {a : Reg} (h : s.Stored) : Kept (execMmovk d a s) :=
  h.vctl fun _ _ _ => .done h.updWave

/-! ### Element functions, conversions, permutes and reductions -/

theorem State.Stored.raiseFlags {wi : Nat} {w : Wave} {sp : Split} {f : BitVec 8} (h : s.Stored) : (s.raiseFlags wi w sp f).Keeps :=
  Res.keeps_iff.2 (State.raiseFlags_all wi w sp f h)

theorem State.Stored.deliver {wi : Nat} {w : Wave} {sp : Split} {base fmt : Nat} {l : List (Nat × FRes)} (h : s.Stored) :
    (s.deliver wi w sp base fmt l).Keeps := h.writeElems.raiseFlags

theorem State.Stored.vop {i : Instr} {fn : Nat} {d a b : Reg} {x : BitVec 1} (h : s.Stored) : Kept (s.vop i fn d a b x) :=
  h.vec fun _ _ _ _ => h.beats.deliver

theorem State.Stored.vfmaOp {i : Instr} {fn : Nat} {d a b : Reg} {x : BitVec 1} {c : Reg} (h : s.Stored) : Kept (s.vfmaOp i fn d a b x c) :=
  h.vec fun _ _ _ _ => h.beats.deliver

theorem State.Stored.vun {i : Instr} {fn : Nat} {d a : Reg} (h : s.Stored) : Kept (s.vun i fn d a) := h.vec fun _ _ _ _ => h.beats.deliver

theorem execVbcast_kept {d a : Reg} (h : s.Stored) : Kept (execVbcast d a s) := h.vec fun _ _ _ _ => h.beats.deliver

theorem execViota_kept {d : Reg} {a : BitVec 3} (h : s.Stored) : Kept (execViota d a s) := h.vec fun _ _ _ _ => h.beats.deliver

theorem execVcvt_kept {d a b c : Reg} (h : s.Stored) : Kept (execVcvt d a b c s) := h.vec fun _ _ _ _ => h.beats.deliver

theorem execVcvtq_kept {d a b : Reg} {fm : BitVec 2} {sat : BitVec 1} {bsel : BitVec 2} (h : s.Stored) : Kept (execVcvtq d a b fm sat bsel s) :=
  h.vec fun _ _ _ _ => h.beats.deliver

theorem execVcvtd_kept {d a b : Reg} {fm bsel : BitVec 2} (h : s.Stored) : Kept (execVcvtd d a b fm bsel s) := h.vec fun _ _ _ _ => h.beats.deliver

theorem State.Stored.vcmp {i : Instr} {fn : Nat} {d : BitVec 3} {a b : Reg} {x : BitVec 1} (h : s.Stored) : Kept (s.vcmp i fn d a b x) :=
  h.vec fun _ _ _ _ => h.beats.updWave.raiseFlags

theorem State.Stored.vred {i : Instr} {fn : Nat} {d a b : Reg} (h : s.Stored) : Kept (s.vred i fn d a b) :=
  h.vec fun _ _ _ _ => h.beats.updWave.raiseFlags

theorem State.Stored.move {wi : Nat} {w : Wave} {sp : Split} {base : Nat} {l : List (Nat × Nat)} {lovr : Bool} (h : s.Stored) :
    (s.move wi w sp base l lovr).Keeps := .done h.beats.writeElems.updWave

theorem execVshfl_kept {d a b : Reg} (h : s.Stored) : Kept (execVshfl d a b s) := h.vec fun _ _ _ _ => h.move

theorem execVslup_kept {d a b : Reg} (h : s.Stored) : Kept (execVslup d a b s) := by
  unfold execVslup
  exact h.vec fun _ _ _ _ => h.move

theorem execVsldn_kept {d a b : Reg} (h : s.Stored) : Kept (execVsldn d a b s) := by
  unfold execVsldn
  exact h.vec fun _ _ _ _ => h.move

theorem execVcompr_kept {d a : Reg} {c : BitVec 3} (h : s.Stored) : Kept (execVcompr d a c s) := h.vec fun _ _ _ _ => h.move

theorem execVexpnd_kept {d a : Reg} {c : BitVec 3} (h : s.Stored) : Kept (execVexpnd d a c s) := h.vec fun _ _ _ _ => h.move

theorem execVextr_kept {d a b : Reg} (h : s.Stored) : Kept (execVextr d a b s) := h.vec fun _ _ _ _ => .done h.beats.updWave

theorem execVins_kept {d a b : Reg} (h : s.Stored) : Kept (execVins d a b s) := h.vec fun _ _ _ _ => h.move

theorem execVsel_kept {d a b : Reg} {c : BitVec 3} (h : s.Stored) : Kept (execVsel d a b c s) := h.vec fun _ _ _ _ => h.move

end Sys2Proof.Machine
end

section
/-! SUPPORT. Vector accesses, streams and the answers of other devices keep the canonical forms. -/

namespace Sys2Proof.Machine

set_option Elab.async false

variable {s : State}

/-! ### Vector accesses -/

theorem State.Stored.touchAll {w : Wave} {l : List VAcc} (h : s.Stored) : (s.touchAll w l).Stored := h.foldl fun _ _ h => h.when (·.touched)

/-- A choice between two states with something else beside them. -/
theorem State.Stored.fst_ite {α : Type} {c : Prop} {_ : Decidable c} {x y : State × α} (h : x.1.Stored) (h' : y.1.Stored) :
    (if c then x else y).1.Stored := by
  split
  · exact h
  · exact h'

theorem State.Stored.elemHere {w : Wave} {x : VecAccess} {y : VAcc} {key : Nat} (h : s.Stored) : (s.elemHere w x y key).1.Stored := by
  unfold State.elemHere
  split
  · exact h
  · exact State.storeN_stored _ _ _ h.stored
  · exact .fst_ite h (State.storeN_stored _ _ _ h.stored)

theorem State.Stored.elemAway {w : Wave} {x : VecAccess} {y : VAcc} {r : Read} (h : s.Stored) : (s.elemAway w x y r).1.Stored := by
  unfold State.elemAway
  split
  · exact h
  · exact h.stored
  · exact .fst_ite h h.stored

theorem State.Stored.perform {w : Wave} {x : VecAccess} {ans : RemoteAnswer} {l : List VAcc} {k : Nat} (h : s.Stored) :
    (s.perform w x ans l k).1.Stored := by
  induction l generalizing s x k with
  | nil => exact h
  | cons y ys ih =>
    unfold State.perform
    split
    · exact h
    · exact .fst_ite h.elemHere (ih h.elemHere)
    · exact .fst_ite h (.fst_ite h (.fst_ite h.elemAway (ih h.elemAway)))

theorem State.Stored.performOn {w : Wave} {x : VecAccess} {ans : RemoteAnswer} {k : Nat} (h : s.Stored) : (s.performOn w x ans k).1.Stored :=
  .fst_ite h.perform.perform h.perform

theorem State.Stored.vecDone {wi : Nat} {w : Wave} {x : VecAccess} (h : s.Stored) : (s.vecDone wi w x).Stored := h.heal.updWave

theorem State.Stored.vecCut {wi : Nat} {w : Wave} {x : VecAccess} {i : Nat} (h : s.Stored) : (s.vecCut wi w x i).Stored :=
  (h.heal.unless (·.putRegs)).updWave

theorem State.Stored.vecAccess {wi si : Nat} {w : Wave} {sp : Split} {op : ElemOp} {d : Reg} {todo : List VAcc} {ldf : Option (Nat × Option Nat)}
    (h : s.Stored) :
    (s.vecAccess wi si w sp op d todo ldf).Keeps := by
  refine .unless ?_
  refine .ite ?_ (State.Stored.startAsk (State.Stored.when (.fst_ite h.beats.touchAll h.beats.touchAll.performOn) fun k => k.foldl fun _ _ h => h.stored))
  split
  · exact .done (State.Stored.vecDone (.fst_ite h.beats.touchAll h.beats.touchAll.performOn))
  · exact .trapIn (State.Stored.vecCut (.fst_ite h.beats.touchAll h.beats.touchAll.performOn))

theorem State.Stored.vload {i : Instr} {d : Reg} {ss : List (Reg × Nat)} {idx : Option Reg} {sum : Wave → Nat → Word} (h : s.Stored) :
    Kept (s.vload i d ss idx sum) := h.vec fun _ _ _ _ => h.vecAccess

theorem execVldf_kept {d a : Reg} (h : s.Stored) : Kept (execVldf d a s) := h.vec fun _ _ _ _ => h.vecAccess

theorem State.Stored.vstore {i : Instr} {d : Reg} {ss : List (Reg × Nat)} {idx : Option Reg} {sum : Wave → Nat → Word} (h : s.Stored) :
    Kept (s.vstore i d ss idx sum) := h.vec fun _ _ _ _ => h.vecAccess

theorem State.Stored.vamo {i : Instr} {fn : Nat} {d a b : Reg} {x : BitVec 1} (h : s.Stored) : Kept (s.vamo i fn d a b x) :=
  h.vec fun _ _ _ _ => h.vecAccess

/-! ### The answer to the access of a wave -/

theorem State.Stored.askFailed {wi : Nat} {w : Wave} {q : RemoteAsk} {t : Trap} {write : Bool} {stops : Bool} (h : s.Stored) :
    (s.askFailed wi w q t write stops).Stored := by
  unfold State.askFailed
  split
  · exact h.updWave
  · exact Stored_ite h.updWave.updWave (State.takeTrap_stored _ _ _ _ _ _ h.updWave)

theorem State.Stored.vecAnswer {wi : Nat} {w : Wave} {q : RemoteAsk} {x : VecAccess} {ans : RemoteAnswer} {stops : Bool} (h : s.Stored) :
    (s.vecAnswer wi w q x ans stops).Stored := by
  unfold State.vecAnswer
  have k := h.performOn (w := w) (x := x) (ans := ans) (k := 0)
  generalize s.performOn w x ans 0 = r at k ⊢
  dsimp only
  split
  · split
    · exact k.updWave
    · split
      · exact k.updWave.vecCut
      · exact k.updWave.vecCut.unless (State.takeTrap_stored _ _ _ _ _ _)
  · exact Stored_ite k.vecDone.updWave k.sendRemote.updWave

theorem State.Stored.accessAnswer {wi : Nat} {ans : RemoteAnswer} {stops : Bool} (h : s.Stored) : (s.accessAnswer wi ans stops).Stored := by
  unfold State.accessAnswer
  split
  · exact h
  split
  · exact h
  dsimp only
  split
  · exact h.vecAnswer
  · exact Stored_ite h.askFailed h.updWave
  · exact Stored_ite h.askFailed h.updWave
  · exact Stored_ite h.askFailed (Stored_ite h.askFailed (h.when (·.noteStores)).updWave)

/-! ### Streams -/

theorem State.Stored.bind {wi : Nat} {w : Wave} {t : Stream} {a : Word} (h : s.Stored) : (s.bind wi w t a).Keeps :=
  .ite (.unless (.unless (.done h.updPort.updWave))) (.done h.updWave)

theorem execSbind_kept {d a : Reg} (h : s.Stored) : Kept (execSbind d a s) := by
  refine h.runWave fun wi _ w sp => .unless (.unless (.unless (.gate (h.fenced (h.readAhead fun s l h => ?_)))))
  split
  · exact .trap
  split
  · exact .trap
  · exact h.bind

theorem State.Stored.unbindStream {wi : Nat} {w : Wave} {t : Stream} (h : s.Stored) : (s.unbindStream wi w t).Stored := h.updWave.when (·.updPort)

theorem execSunb_kept {d : Reg} (h : s.Stored) : Kept (execSunb d s) := by
  refine h.runWave fun wi _ w _ => .unless (.unless (.unless ?_))
  split
  · exact .done h
  · split
    · exact .ite (.done h.unbindStream) (.trapIn h.updWave)
    · exact .unless (.done h.unbindStream)

theorem execSqry_kept {d a : Reg} (h : s.Stored) : Kept (execSqry d a s) := h.runWave fun _ _ _ _ => .unless (.gate (.done h.setReg))

theorem State.Stored.fillDone {wi : Nat} {w : Wave} {t : Stream} {l : List (Nat × Bool)} (h : s.Stored) : (s.fillDone wi w t l).Stored :=
  h.putRegs.updWave

theorem State.Stored.streamFault {wi : Nat} {t : Stream} {part : List (Nat × Bool)} {c sub : Nat} {a : Word} (h : s.Stored) :
    (s.streamFault wi t part c sub a).Stored := h.updWave

theorem State.Stored.streamAsk {wi : Nat} {w : Wave} {t : Stream} {l : List VAcc} {ops : List (Nat × RemoteOp)} (h : s.Stored) :
    (s.streamAsk wi w t l ops).Keeps := by
  unfold State.streamAsk
  split
  · exact s.answerTo_keeps _ _
  · exact .ite .ready (.sent h.sendRemote.updWave)

theorem State.Stored.fillMem {wi : Nat} {w : Wave} {t : Stream} (h : s.Stored) : Kept (s.fillMem wi w t) := by
  refine .ite h.noEffect ?_
  split
  · exact h.noEffect
  · exact (h.streamAsk.of_sent ‹_›).effect
  · dsimp only
    split
    · exact h.touchAll.perform.fillDone.effect
    · exact h.touchAll.perform.streamFault.effect

theorem State.Stored.fillPort {wi : Nat} {w : Wave} {t : Stream} (h : s.Stored) : Kept (s.fillPort wi w t) :=
  .ite h.noEffect h.updPort.fillDone.effect

theorem execStreamFill_kept {wi : Nat} {v : Reg} (h : s.Stored) : Kept (execStreamFill wi v s) := by
  unfold execStreamFill
  split
  · exact h.noEffect
  split
  · exact h.noEffect
  · exact .ite (.ite h.fillPort h.fillMem) h.noEffect

theorem State.Stored.takeDone {wi : Nat} {w : Wave} {t : Stream} {sent : Nat} (h : s.Stored) : (s.takeDone wi w t sent).Stored :=
  h.updWave.when (·.updPort)

theorem State.Stored.takeMem {wi : Nat} {w : Wave} {t : Stream} (h : s.Stored) : Kept (s.takeMem wi w t) := by
  refine .ite h.noEffect ?_
  split
  · exact h.noEffect
  · exact ((h.when fun h => h.foldl fun _ _ h => h.stored).streamAsk.of_sent ‹_›).effect
  · dsimp only
    split
    · exact h.touchAll.perform.heal.takeDone.effect
    · exact h.touchAll.perform.heal.streamFault.updWave.effect

theorem State.Stored.takePort {wi : Nat} {w : Wave} {t : Stream} (h : s.Stored) : Kept (s.takePort wi w t) :=
  .ite h.noEffect h.updPort.takeDone.effect

theorem execStreamTake_kept {wi : Nat} {v : Reg} (h : s.Stored) : Kept (execStreamTake wi v s) := by
  unfold execStreamTake
  split
  · exact h.noEffect
  split
  · exact h.noEffect
  refine .ite ?_ h.noEffect
  split
  · exact h.streamFault.effect
  · exact .ite h.takePort h.takeMem

/-! ### Fabric instructions -/

theorem State.Stored.sendFabric {wi : Nat} {w : Wave} {a : Word} {ops : List (Nat × RemoteOp)} (h : s.Stored) : (s.sendFabric wi w a ops).Stored := by
  unfold State.sendFabric
  dsimp only
  refine (h.sideEffect.unless (·.sendRemote)).unless fun h => ?_
  split
  · exact h.sendRemote
  · exact h.same

theorem State.Stored.rred {i : Instr} {op : Nat} {d a b : Reg} {fm : BitVec 2} (h : s.Stored) : Kept (s.rred i op d a b fm) := by
  refine h.vec fun wi _ w sp => ?_
  dsimp only
  split
  · exact .trapIn h
  · refine .unless (.ite (.trapIn h) ?_)
    split
    · exact .trapIn h
    · exact .ite (.done h.beats.touchAll.sideEffect) (.ite (.done h.beats.touchAll.sideEffect) (.done h.beats.touchAll.noteStores.sendFabric))

theorem execRsig_kept {a b : Reg} (h : s.Stored) : Kept (execRsig a b s) := by
  refine h.scalar fun wi _ w _ => ?_
  dsimp only
  split
  · exact .trapIn h
  · split
    · exact .trapIn h
    · exact .unless (.done h.touched.noteStores.sendFabric)

/-! ### Requests of other devices -/

theorem State.Stored.reply {r : RemoteIn} {x : RemoteAnswer} (h : s.Stored) : (s.reply r x).Stored := h.unless (·.same)

theorem State.Stored.ackLocal (h : s.Stored) : (s.ackLocal).Stored := h.same

theorem State.Stored.dropArrived {n : Nat} {r : RemoteIn} {done : Bool} (h : s.Stored) : (s.dropArrived n r done).Stored := h.same.ackLocal.reply

theorem State.Stored.flaggedWrite {key : Nat} {l : List Byte} {flag : Bool} (h : s.Stored) : (s.flaggedWrite key l flag).Stored := by
  have k : (s.writeBytes key l).Stored := Stored_writeBytes _ _ h
  exact k.when fun k => k.foldl fun _ _ h => h.poison

theorem State.Stored.performRemote {r : RemoteIn} {key : Nat} (h : s.Stored) : (s.performRemote r key).Stored := by
  unfold State.performRemote
  split
  · exact h.reply
  · exact h.flaggedWrite.reply
  · exact (h.unless (Stored_writeN _ _ _)).reply
  · exact (h.unless (Stored_writeN _ _ _)).reply
  · exact h.same
  · exact h.same

theorem State.Stored.takeUp {r : RemoteIn} (h : s.Stored) : (s.takeUp r).Stored := by
  have k : ({ s with fabric := { s.fabric with performed := s.fabric.performed ++ [(r.dev, r.seq)] } } : State).Stored := h.same
  unfold State.takeUp
  dsimp only
  split
  · exact k.reply
  · exact Stored_ite k.reply k.performRemote

theorem State.Stored.takeTurns {dev fuel : Nat} (h : s.Stored) : (s.takeTurns dev fuel).Stored := by
  induction fuel generalizing s with
  | zero => exact h
  | succ n ih =>
    unfold State.takeTurns
    split
    · exact h
    · exact Stored_ite (ih h.same.takeUp) h

theorem State.Stored.overdue (h : s.Stored) : (s.overdue).Stored := h.foldl fun _ _ h => h.takeTurns

theorem execRemoteRequest_kept {r : RemoteIn} (h : s.Stored) : Kept (execRemoteRequest r s) :=
  .ite h.noEffect (.ite h.takeUp.takeTurns.effect h.same.takeTurns.effect)

theorem execRredApply_kept {req n : Nat} (h : s.Stored) : Kept (execRredApply req n s) := by
  unfold execRredApply
  split
  · exact h.noEffect
  split
  · refine .ite h.noEffect ?_
    dsimp only
    split
    · exact h.dropArrived.effect
    · exact (h.unless (Stored_writeN _ _ _)).dropArrived.effect
  · exact h.noEffect

theorem execRsigApply_kept {req : Nat} (h : s.Stored) : Kept (execRsigApply req s) := by
  unfold execRsigApply
  split
  · exact h.noEffect
  split
  · refine .ite h.noEffect ?_
    split
    · exact h.dropArrived.effect
    · exact (h.unless (Stored_writeN _ _ _)).dropArrived.effect
  · exact h.noEffect

theorem State.Stored.fabricFailure {req wi bi : Nat} {a : Word} (h : s.Stored) : (s.fabricFailure req wi bi a).Stored := by
  unfold State.fabricFailure
  split
  · exact h
  refine Stored_ite h.updWave ?_
  split
  · exact h
  · exact h.updJob

theorem State.Stored.answered {req : Nat} {a : RemoteAnswer} (h : s.Stored) : (s.answered req a).Stored := by
  unfold State.answered
  split
  · exact h
  dsimp only
  split
  · exact h.same.when fun h => h.fabricFailure
  · exact h.same.accessAnswer
  · exact h.same

end Sys2Proof.Machine
end

section
/-! SUPPORT. Operand slots, matrix instructions and accumulators keep the canonical forms. -/

namespace Sys2Proof.Machine

set_option Elab.async false

variable {s : State}

/-! ### Grants -/

theorem State.Stored.applyGrant {bi : Nat} {g : Grant} (h : s.Stored) : (s.applyGrant bi g).Stored := h.updBlock.updCore

theorem State.Stored.settileEnd {wi : Nat} {w : Wave} {sp : Split} {d : Reg} {req : Word} {st : Nat} {g : Grant} {caps : Nat} (h : s.Stored) :
    (s.settileEnd wi w sp d req st g caps).Keeps := .done h.grantRecordOf.updWave.setReg

theorem State.Stored.settileWait {wi : Nat} {w : Wave} {sp : Split} {t : TileWait} (h : s.Stored) : (s.settileWait wi w sp t).Keeps :=
  .ite h.applyGrant.settileEnd .stall

theorem State.Stored.settile {wi : Nat} {w : Wave} {sp : Split} {d a : Reg} (h : s.Stored) : (s.settile wi w sp d a).Keeps :=
  .ite h.settileEnd (.ite h.applyGrant.settileEnd (.stallIn h.updWave))

theorem execSettile_kept {d a : Reg} (h : s.Stored) : Kept (execSettile d a s) := by
  refine h.matLegacy (h.runWave fun _ _ _ _ => ?_)
  split
  · exact .ite h.settileWait .stall
  · exact .gate h.settile

theorem execTileq_kept {d a : Reg} (h : s.Stored) : Kept (execTileq d a s) := h.matScalar fun _ _ _ _ => .done h.grantRecord.setReg

theorem execTileGrantApply_kept {wi : Nat} (h : s.Stored) : Kept (execTileGrantApply wi s) := by
  unfold execTileGrantApply
  split
  · exact h.noEffect
  split
  · exact h.noEffect
  split
  · exact h.noEffect
  split
  · exact h.noEffect
  · exact .ite (.next (State.retire_stored _ _ _ _ h (Res.keeps_iff.1 h.settileWait))) h.noEffect

/-! ### Operand slots -/

theorem execOclaim_kept {d : Reg} {nw role : BitVec 1} (h : s.Stored) : Kept (execOclaim d nw role s) := by
  refine h.matScalar fun wi _ w sp => ?_
  dsimp only
  split
  · exact .done (Stored_clearBytes _ _ h.updCore.updSlot).setReg
  · exact .ite (.done h.setReg) (.waitIn h.updCore)

theorem execOrls_kept {a : Reg} (h : s.Stored) : Kept (execOrls a s) := by
  refine h.matScalar fun _ _ w _ => ?_
  dsimp only
  split
  · exact .trap
  · exact .unless (.unless (.done h.updSlot))

theorem State.Stored.freeSlot {core n count : Nat} (h : s.Stored) : (s.freeSlot core n count).Stored := Stored_writeBytes _ _ h

theorem State.Stored.freshSlot {core n : Nat} (h : s.Stored) : (s.freshSlot core n).Stored := by
  unfold State.freshSlot
  split
  · exact h.when (·.freeSlot)
  · exact h

theorem State.Stored.ofill {w : Wave} {d : Reg} {v : Word} (h : s.Stored) : (s.ofill w d v).Keeps := by
  unfold State.ofill
  dsimp only
  split
  · exact .trap
  refine .unless (.unless ?_)
  split
  · exact .trap
  · exact .unless (.unless (.done (Stored_writeBytes _ _ h.freshSlot).updSlot))

theorem execOfill_kept {d a : Reg} (h : s.Stored) : Kept (execOfill d a s) := h.matLegacy (h.vec fun _ _ _ _ => h.ofill)

theorem execOqry_kept {d a : Reg} (h : s.Stored) : Kept (execOqry d a s) := h.matScalar fun _ _ _ _ => .done h.setReg

theorem State.Stored.keepOld {core n : Nat} (h : s.Stored) : (s.keepOld core n).Stored :=
  h.updCore

/-! ### Multiplies -/

theorem State.Stored.multiply {i : Instr} {fn : Nat} {d : BitVec 2} {a b : Reg} {hi : BitVec 1} (h : s.Stored) : Kept (s.multiply i fn d a b hi) := by
  refine h.matLegacy (h.runWave fun _ _ w _ => .unless (.gate (.unless ?_)))
  split
  · exact .trap
  · exact .unless (.done (State.Stored.updBlock h.updCore))

theorem execMmaDispatch_kept {core : Nat} (h : s.Stored) : Kept (execMmaDispatch core s) := by
  unfold execMmaDispatch
  dsimp only
  split
  · exact h.noEffect
  split
  · refine .ite h.updCore.effect ?_
    split
    · exact .ite h.updCore.effect h.noEffect
    · exact h.noEffect
  · exact .ite h.updCore.effect h.noEffect
  · exact h.noEffect

/-! ### Accumulators -/

theorem State.withSet_keeps {w : Wave} {a : BitVec 2} {k : Nat → Res} (hk : ∀ set, (k set).Keeps) : (s.withSet w a k).Keeps := by
  unfold State.withSet
  dsimp only
  split
  · exact .trap
  · exact .unless (hk _)

theorem State.Stored.setLive {bi : Nat} {a : BitVec 2} {live mend : Bool} (h : s.Stored) : (s.setLive bi a live mend).Stored := h.updBlock

theorem execAzero_kept {a : BitVec 2} (h : s.Stored) : Kept (execAzero a s) :=
  h.matScalar fun _ _ _ _ => State.withSet_keeps fun _ => .done (State.zeroSet_stored _ _ h).setLive

theorem State.Stored.deliverLater {wi : Nat} {w : Wave} {sp : Split} {d : Reg} {fmt : Nat} {l : List (Nat × FRes)} (h : s.Stored) :
    (s.deliverLater wi w sp d fmt l).Keeps := h.updWave.raiseFlags

theorem execAxt_kept {d : Reg} {a : BitVec 2} {b : Reg} (h : s.Stored) : Kept (execAxt d a b s) :=
  h.matLegacy (h.vec fun _ _ _ _ => .unless (State.withSet_keeps fun _ => h.beats.deliverLater))

theorem execAxts_kept {d : Reg} {a : BitVec 2} {b : Reg} {fm : BitVec 2} {sat : BitVec 1} {bsel : BitVec 2} (h : s.Stored) :
    Kept (execAxts d a b fm sat bsel s) := h.matLegacy (h.vec fun _ _ _ _ => .unless (State.withSet_keeps fun _ => h.beats.deliverLater))

theorem execAins_kept {d : Reg} {a : BitVec 2} {b : Reg} (h : s.Stored) : Kept (execAins d a b s) :=
  h.matLegacy (h.vec fun _ _ _ _ => State.withSet_keeps fun _ => (h.beats.foldl fun _ _ h => State.setAcc_stored _ _ _ _ _ h).setLive.raiseFlags)

theorem State.Stored.imageOp {i : Instr} {d : Reg} {a : BitVec 2} {b : Reg} {writes : Bool} {k : Wave → Nat → List (Nat × Nat × Nat) → State}
    (h : s.Stored) (hk : ∀ w set l, (k w set l).Stored) :
    Kept (s.imageOp i d a b writes k) := by
  refine h.matScalar fun wi _ w _ => .unless (State.withSet_keeps fun set => .unless (.unless ?_))
  dsimp only
  split
  · exact .trap
  · exact .unless (.done (hk _ _ _))

theorem execAsave_kept {d : Reg} {a : BitVec 2} {b : Reg} (h : s.Stored) : Kept (execAsave d a b s) :=
  h.imageOp fun _ _ _ => ((h.foldl fun _ _ h => State.storeN_stored _ _ _ h).when (·.sideEffect)).heal.setLive

theorem execAload_kept {d : Reg} {a : BitVec 2} {b : Reg} (h : s.Stored) : Kept (execAload d a b s) :=
  h.imageOp fun _ _ _ => (h.foldl fun _ _ h => State.setAcc_stored _ _ _ _ _ h).setLive

/-! ### The completion of a multiply -/

theorem State.Stored.applyMma {core : Nat} {o : MmaOp} (h : s.Stored) : (s.applyMma core o).Stored :=
  (h.when (State.zeroSet_stored _ _)).foldl fun _ _ h => h.foldl fun _ _ h => State.setAcc_stored _ _ _ _ _ h

theorem execMmaComplete_kept {core : Nat} (h : s.Stored) : Kept (execMmaComplete core s) := by
  unfold execMmaComplete
  split
  · exact h.noEffect
  · exact h.applyMma.updCore.effect

end Sys2Proof.Machine
end

section
/-! SUPPORT. Blocks, bins, barriers and copies keep the canonical forms. -/

namespace Sys2Proof.Machine

set_option Elab.async false

variable {s : State}

/-! ### Blocks and their bins -/

theorem State.Stored.holdPin {core : Nat} (h : s.Stored) : (s.holdPin core).Stored := by
  unfold State.holdPin
  split
  · exact h
  · exact h.updCore

theorem State.Stored.launchWaves {bi n : Nat} {legacy : Bool} {entry handler s1 : Word} (h : s.Stored) :
    (s.launchWaves bi legacy entry handler s1 n).Stored := by
  induction n with
  | zero => exact h
  | succ n ih => exact State.Stored.updBlock ih.same

theorem State.Stored.launchBlock {b : Block} {entry : Word} {waves : Nat} {s1 : Word} (h : s.Stored) : (s.launchBlock b entry waves s1).Stored := by
  unfold State.launchBlock
  dsimp only
  refine State.Stored.holdPin (State.Stored.launchWaves ?_)
  have k {c : Nat} {l : List Nat} {b : Block} {a n : Nat} :
      (l.foldl (fun s n => s.zeroSet c n) (({ s with blocks := s.blocks ++ [b] } : State).clearBytes a n)).Stored :=
    (Stored_clearBytes _ _ h.same).foldl fun _ _ => State.zeroSet_stored _ _
  split
  · exact k.updCluster
  · exact k.updCluster.updJob

theorem State.Stored.latchBlock {bi : Nat} (h : s.Stored) : (s.latchBlock bi).Stored := h.foldl fun _ _ h => h.updWave

theorem State.Stored.latchGang {gi : Nat} (h : s.Stored) : (s.latchGang gi).Stored := h.foldl fun _ _ h => h.latchBlock

theorem State.Stored.launchBin {core n : Nat} {b : Bin} (h : s.Stored) : (s.launchBin core n b).Stored := Stored_ite h.updCore h.updCore

theorem State.Stored.ripen {core : Nat} (h : s.Stored) : (s.ripen core).Stored := by
  refine h.foldl fun s n h => ?_
  split
  · exact h.when (·.launchBin)
  · exact h

theorem State.Stored.placeThread {core bi : Nat} {entry : Word} {arg : BitVec 32} {flush : Bool} (h : s.Stored) :
    (s.placeThread core bi entry arg flush).1.Stored := by
  unfold State.placeThread
  extract_lets s1 obj c
  have h1 : s1.Stored := h.ripen
  clear_value s1
  split
  · exact h1
  extract_lets old b s2
  have h2 : s2.Stored := h1.updCore
  clear_value s2
  split
  · exact .fst_ite h2.launchBin h2.launchBin
  · exact h2

theorem State.Stored.placed {t : State} {core bi n : Nat} {entry : Word} {arg : BitVec 32} {flush : Bool} (h : s.Stored)
    (e : s.placeThread core bi entry arg flush = (t, n)) : t.Stored := by
  have k := h.placeThread (core := core) (bi := bi) (entry := entry) (arg := arg) (flush := flush)
  rwa [e] at k

theorem State.Stored.spawn {i : Instr} {d a b : Reg} {flush : Bool} (h : s.Stored) : Kept (s.spawn i d a b flush) := by
  refine h.matScalar fun wi _ w _ => ?_
  extract_lets t
  have h : t.Stored := h.sideEffect
  split
  · exact .done h.setReg
  split
  next e => exact .done (h.placed e).setReg

theorem execBinTimerExpiry_kept {core bin : Nat} (h : s.Stored) : Kept (execBinTimerExpiry core bin s) := by
  unfold execBinTimerExpiry
  split
  · exact h.noEffect
  · exact .ite h.launchBin.effect h.noEffect

theorem execBinBlockLaunch_kept {core : Nat} (h : s.Stored) : Kept (execBinBlockLaunch core s) := by
  unfold execBinBlockLaunch
  split
  · exact h.noEffect
  split
  · exact h.noEffect
  · refine .ite h.noEffect (State.Stored.effect (State.Stored.foldl (State.Stored.launchBlock (State.Stored.same h)) fun s wi h => ?_))
    split
    · exact h
    · exact h.updVFile.updWave

theorem State.Stored.endWave {wi : Nat} {w : Wave} (h : s.Stored) : (s.endWave wi w).Stored := h.drain.updWave.stopMate.when (·.updBlock)

theorem State.Stored.endSplit {wi si : Nat} {w : Wave} {sp : Split} (h : s.Stored) : (s.endSplit wi si w sp).Stored := Stored_ite h.endWave h.updWave

theorem execExit_kept (h : s.Stored) : Kept (execExit s) := h.scalar fun _ _ _ _ => .left h.endSplit

theorem execCont_kept {d a : Reg} (h : s.Stored) : Kept (execCont d a s) := by
  refine h.scalar fun wi si w sp => ?_
  dsimp only
  split
  · exact .trap
  · exact .unless (.left h.updWave.endSplit)

/-! ### Barriers -/

theorem State.Stored.putBar {key : Nat} {b : Bar} (h : s.Stored) : (s.putBar key b).Stored := State.Stored.same (Stored_writeBytes _ _ h)

theorem State.Stored.freshSide {key : Nat} (h : s.Stored) : (s.freshSide key).Stored := h.updSide

theorem State.Stored.placeFired {core fuel i : Nat} (h : s.Stored) : (s.placeFired core fuel i).Stored := by
  induction fuel generalizing s i with
  | zero => exact h
  | succ n ih =>
    unfold State.placeFired
    split
    · exact h
    refine Stored_ite ?_ (ih h)
    split
    next e => exact Stored_ite (ih h) (ih (h.placed e).updCore)

theorem State.Stored.fireTriggers {key : Nat} (h : s.Stored) : (s.fireTriggers key).Stored := h.updCore.placeFired

theorem execTriggerRetry_kept {core : Nat} (h : s.Stored) : Kept (execTriggerRetry core s) := .ite h.placeFired.effect h.noEffect

theorem State.Stored.settleBar {key : Nat} {b : Bar} (h : s.Stored) : (s.settleBar key b).Stored :=
  Stored_ite (h.freshSide.putBar.foldl fun _ _ h => h.latchBlock).fireTriggers h.putBar

theorem State.Stored.copyOntoBar {key n : Nat} {err pois : Bool} (h : s.Stored) : (s.copyOntoBar key n err pois).Stored :=
  (h.when (·.updSide)).settleBar

theorem State.Stored.onBar {a : Reg} {ss : List (Reg × Nat)} {sd : List Reg} {k : Nat → Wave → Nat → Bar → Res}
    (h : s.Stored) (hk : ∀ wi w key b, (k wi w key b).Keeps) :
    Kept (s.onBar a ss sd k) := by
  refine h.scalar fun wi _ w _ => ?_
  split
  · exact .trap
  · exact hk _ _ _ _

theorem State.Stored.onMadeBar {a : Reg} {ss : List (Reg × Nat)} {sd : List Reg} {k : Nat → Wave → Nat → Bar → Res}
    (h : s.Stored) (hk : ∀ wi w key b, (k wi w key b).Keeps) :
    Kept (s.onMadeBar a ss sd k) := h.onBar fun _ _ _ _ => .ite (hk _ _ _ _) .trap

theorem execBarInit_kept {a b : Reg} (h : s.Stored) : Kept (execBarInit a b s) := h.onBar fun _ _ _ _ => .unless (.done h.freshSide.putBar)

theorem State.Stored.arrive {w : Wave} {key : Nat} {b : Bar} {add : Nat} (h : s.Stored) : (s.arrive w key b add).Keeps :=
  .unless (.done h.updSide.settleBar)

theorem execBarWait_kept {a b : Reg} (h : s.Stored) : Kept (execBarWait a b s) := h.onMadeBar fun _ _ _ _ => .unless (.unless (.done h))

theorem execBarTry_kept {d a : Reg} (h : s.Stored) : Kept (execBarTry d a s) := h.onMadeBar fun _ _ _ _ => .done h.updWave

theorem execBarTrig_kept {d a b : Reg} (h : s.Stored) : Kept (execBarTrig d a b s) :=
  h.onMadeBar fun _ _ _ _ => .unless (.unless (.done h.sideEffect.updCore))

theorem State.Stored.waitWord {a b : Reg} {c : Nat → Nat → Bool} (h : s.Stored) : Kept (s.waitWord a b c) := by
  refine h.scalar fun wi _ w _ => ?_
  split
  · exact .trap
  · exact .ite (.done h) .wait

theorem execNotify_kept {a : Reg} (h : s.Stored) : Kept (execNotify a s) := by
  refine h.scalar fun wi _ w _ => ?_
  split
  · exact .trap
  · exact .done h.latchGang

/-! ### The issue of a copy -/

theorem State.Stored.startCopy {wi : Nat} {w : Wave} {x : BitVec 1} {c : Reg} {cp : Copy} {al : Nat} (h : s.Stored) :
    (s.startCopy wi w x c cp al).Keeps := by
  unfold State.startCopy
  split
  · exact .trap
  split
  · exact .trap
  refine .unless (.done (State.Stored.when ?_ (·.sideEffect.noteStores)))
  split
  · exact State.Stored.updSlot h.same
  · exact h.same

theorem State.Stored.cpy {d a b : Reg} {x : BitVec 1} {c : Reg} {k : Nat → Wave → Split → Res} (h : s.Stored) (hk : ∀ wi w sp, (k wi w sp).Keeps) :
    Kept (s.cpy d a b x c k) := h.scalar fun _ _ _ _ => .unless (hk _ _ _)

theorem State.Stored.cpyTile {d a b : Reg} {x : BitVec 1} {c : Reg} {store : Bool} {shape : Wave → Grant → Nat × Nat × Nat} (h : s.Stored) :
    Kept (s.cpyTile d a b x c store shape) := h.cpy fun _ _ _ => .unless h.startCopy

theorem execCpyO_kept {d a b : Reg} {x : BitVec 1} {c : Reg} (h : s.Stored) : Kept (execCpyO d a b x c s) := by
  refine h.cpy fun wi w _ => .unless (.unless ?_)
  split
  · exact .trap
  · exact .unless h.startCopy

theorem State.Stored.withDesc {wi : Nat} {w : Wave} {sp : Split} {a : Word} {n : Nat} {k : State → List Byte → Res}
    (h : s.Stored) (hk : ∀ s l, State.Stored s → (k s l).Keeps) :
    (s.withDesc wi w sp a n k).Keeps := .unless (h.readAhead hk)

theorem execCpyBox_kept {d a b : Reg} {x : BitVec 1} {c : Reg} (h : s.Stored) : Kept (execCpyBox d a b x c s) :=
  h.cpy fun _ _ _ => h.withDesc fun _ _ h => .unless h.startCopy

theorem execCpySeal_kept {d a b : Reg} {x : BitVec 1} {c : Reg} (h : s.Stored) : Kept (execCpySeal d a b x c s) := by
  refine h.cpy fun wi w sp => h.withDesc fun s l h => .unless (.unless ?_)
  split
  · exact .trap
  split
  · exact .trap
  refine .unless ?_
  split
  · exact .trap
  · exact .unless h.startCopy

/-! ### The movement of a copy -/

theorem State.Stored.land {l : List (Nat × CByte)} (h : s.Stored) : (s.land l).Stored :=
  (State.Stored.heal ((h.foldl fun _ _ => State.spoil_stored _ _).foldl fun _ _ => Stored_writeBytes _ _)).foldl fun _ _ h => h.unless (·.poison)

theorem State.Stored.copyAsk {n part : Nat} {ops : List (Nat × RemoteOp)} {sent : Option Nat} {set : Nat → Copy → Copy} (h : s.Stored) :
    (s.copyAsk n part ops sent set).Keeps := by
  unfold State.copyAsk
  split
  · exact s.answerTo_keeps _ _
  · exact .ite .ready (.sent h.sendRemote.updCopy)

theorem State.Stored.deliverCopy {c : Copy} {data : List CByte} {places : List CPlace} {failed bad : Bool} (h : s.Stored) :
    (s.deliverCopy c data places failed bad).Keeps := by
  unfold State.deliverCopy
  split
  · split
    · exact .done h.keepOld
    · exact .done (Stored_writeBytes _ _ h.keepOld.freshSlot)
  · exact .done h.land

theorem State.Stored.shareCopy {n : Nat} {c : Copy} (h : s.Stored) : (s.shareCopy n c).Stored := h.same

theorem State.Stored.moveCopy {n : Nat} {c : Copy} (h : s.Stored) : (s.moveCopy n c).Keeps := by
  unfold State.moveCopy
  dsimp only
  split
  · exact .later (State.reportFault_stored _ _ _ _ _ _ _ _ _ h.updCopy)
  split
  · exact .later (State.reportFault_stored _ _ _ _ _ _ _ _ _ h.updCopy)
  split
  · exact .waits
  · exact .later (h.copyAsk.of_sent ‹_›)
  split
  · exact .waits
  · exact .later (h.copyAsk.of_sent ‹_›)
  split
  · exact .done (h.deliverCopy.of_done ‹_›).shareCopy
  · exact h.deliverCopy

/-! ### The end of a copy -/

theorem State.Stored.fillEnd {core n : Nat} {g : Grant} {err : Bool} (h : s.Stored) : (s.fillEnd core n g err).Stored :=
  (h.when (Stored_clearBytes _ _)).updSlot

theorem State.Stored.endCopy {n : Nat} {c : Copy} {err pois : Bool} (h : s.Stored) : (s.endCopy n c err pois).Stored := by
  unfold State.endCopy
  extract_lets b s1 s2 s3
  have h2 : s2.Stored := by
    unfold s2
    split
    · exact State.Stored.fillEnd h.updCopy
    · exact h.updCopy
  clear_value s2
  have h3 : s3.Stored := by
    unfold s3
    split
    · split
      · exact h2.copyOntoBar
      · exact h2
    · split
      · exact State.storeN_stored _ _ _ h2
      · exact h2
    · exact h2
  clear_value s3
  split
  · exact h3.latchBlock
  · exact h3

theorem State.Stored.priAnswered {c : Ctx} {a : Word} (h : s.Stored) : (s.priAnswered c a).Stored := by
  unfold State.priAnswered
  split
  · exact h
  · exact h.same

theorem execCopyCompletion_kept {n : Nat} (h : s.Stored) : Kept (execCopyCompletion n s) := by
  unfold execCopyCompletion
  split
  · exact h.noEffect
  refine .ite h.noEffect (.ite ?_ ?_)
  · split
    · exact (h.deliverCopy.of_done ‹_›).endCopy.effect
    · exact h.noEffect
  · split
    · exact h.noEffect
    · exact (h.moveCopy.of_later ‹_›).effect
    · exact (h.moveCopy.of_done ‹_›).endCopy.effect

theorem execCopyFaultAnswer_kept {n : Nat} {resolved : Bool} (h : s.Stored) : Kept (execCopyFaultAnswer n resolved s) := by
  unfold execCopyFaultAnswer
  split
  · exact h.noEffect
  split
  · exact h.noEffect
  · exact .ite h.noEffect h.priAnswered.updCopy.effect

end Sys2Proof.Machine
end

section
/-! SUPPORT. Gangs, points, block ends and soft errors keep the canonical forms. -/

namespace Sys2Proof.Machine

set_option Elab.async false

variable {s : State}

/-! ### Deals and launches -/

theorem State.Stored.closure {ji : Nat} (h : s.Stored) : (s.closure ji).Stored := by
  unfold State.closure
  split
  · exact h
  · exact h.unless fun h => State.Stored.updQueue h.updJob

theorem State.Stored.chunkDone {ji ch : Nat} (h : s.Stored) : (s.chunkDone ji ch).Stored := by
  unfold State.chunkDone
  split
  · exact h
  refine h.unless fun h => ?_
  extract_lets t
  have h : t.Stored := h.updJob
  split
  · exact h.when (·.closure)
  · exact h

theorem State.Stored.joinLine {q ji p : Nat} (h : s.Stored) : (s.joinLine q ji p).Stored := h.updQueue

theorem State.Stored.dealGang {ji : Nat} (h : s.Stored) : (s.dealGang ji).Stored := by
  unfold State.dealGang
  split
  · exact h
  · exact h.unless fun h => h.updJob.foldl fun _ _ h => h.joinLine

theorem State.Stored.reserve {qi : Nat} (h : s.Stored) : (s.reserve qi).Stored := by
  unfold State.reserve
  dsimp only
  split
  · split
    · exact h
    · split
      · exact h.updQueue
      · exact h
  · exact h

theorem execGangAgeingExpiry_kept {qi : Nat} (h : s.Stored) : Kept (execGangAgeingExpiry qi s) := .ite h.noEffect h.updQueue.reserve.effect

theorem State.Stored.launchGang {ji p gi m : Nat} {j : Job} {l : List Nat} (h : s.Stored) : (s.launchGang ji j p gi l m).Stored := by
  induction l generalizing s m with
  | nil => exact h
  | cons c cs ih => exact ih h.launchBlock.updGang

theorem execGangPlace_kept {qi : Nat} (h : s.Stored) : Kept (execGangPlace qi s) := by
  unfold execGangPlace
  dsimp only
  split
  · exact h.noEffect
  split
  · exact h.noEffect
  refine .ite h.noEffect ?_
  split
  · exact h.noEffect
  · exact .ite h.noEffect (State.Stored.effect (State.Stored.dealGang (State.Stored.updQueue (State.Stored.launchGang h.same))))

theorem State.Stored.listen (h : s.Stored) : (s.listen).Stored := h.same

theorem execChunkDeal_kept {ji core : Nat} (h : s.Stored) : Kept (execChunkDeal ji core s) := by
  unfold execChunkDeal
  split
  · exact h.noEffect
  refine .ite h.noEffect (.ite (.ite h.noEffect h.dealGang.effect) (.ite h.noEffect (.ite h.updJob.updCore.effect (.ite h.noEffect ?_))))
  have k {n t f} : ((if n = 0 then s.updQueue t f else s) : State).Stored := h.when (·.updQueue)
  exact .next (State.Stored.when k.updJob.updCore (·.closure))

theorem execPointLaunch_kept {core : Nat} (h : s.Stored) : Kept (execPointLaunch core s) := by
  unfold execPointLaunch
  split
  · exact h.noEffect
  split
  · exact h.noEffect
  · exact (State.Stored.launchBlock (State.Stored.same h)).effect

/-! ### Leases -/

theorem State.Stored.endLease {ci : Nat} (h : s.Stored) : (s.endLease ci).Stored := by
  unfold State.endLease
  dsimp only
  split
  · exact h
  · exact h.same

theorem State.Stored.endBlockLease {bi : Nat} (h : s.Stored) : (s.endBlockLease bi).Stored := by
  unfold State.endBlockLease
  dsimp only
  split
  · exact h.when (·.endLease)
  · exact h

/-! ### The end of a block -/

theorem State.Stored.freeCore {bi : Nat} (h : s.Stored) : (s.freeCore bi).Stored := h.updCore.updBlock

theorem State.Stored.unbindAll {wi : Nat} (h : s.Stored) : (s.unbindAll wi).Stored := by
  unfold State.unbindAll
  split
  · exact h
  · exact h.foldl fun _ _ h => h.unbindStream

theorem State.Stored.saveFront {ci : Nat} (h : s.Stored) : (s.saveFront ci).Stored := h.same

theorem State.Stored.softDone {ci : Nat} (h : s.Stored) : (s.softDone ci).Stored := h.when (·.saveFront)

theorem State.Stored.blockGone {bi : Nat} (h : s.Stored) : (s.blockGone bi).Stored := by
  unfold State.blockGone
  extract_lets b t
  have h : t.Stored := by
    unfold t
    split
    · exact h.unless (·.chunkDone)
    · exact h
  exact (h.foldl fun _ _ h => h.when (·.reserve)).softDone

theorem execBlockEnd_kept {bi : Nat} (h : s.Stored) : Kept (execBlockEnd bi s) := by
  unfold execBlockEnd
  extract_lets b fab s1 s2 s3
  refine .ite h.noEffect ?_
  have h1 : s1.Stored := h.foldl fun _ _ h => h.unbindAll
  have h2 : s2.Stored := by
    unfold s2
    split
    · split
      · exact h1.updJob
      · exact h1
    · exact h1
  have h3 : s3.Stored := h2.endBlockLease
  clear_value s3
  split
  · exact h3.updBlock.effect
  · exact h3.freeCore.updBlock.holdPin.blockGone.effect

theorem execContinuationStart_kept {bi : Nat} (h : s.Stored) : Kept (execContinuationStart bi s) := by
  unfold execContinuationStart
  extract_lets b going
  split
  · exact h.noEffect
  refine .ite h.noEffect ?_
  extract_lets k s1 s2
  have h1 : s1.Stored := h.updBlock
  have h2 : s2.Stored := by
    unfold s2
    split
    · exact h1
    · exact h1.updJob
  exact h2.launchWaves.effect

theorem State.Stored.dropAlloc {core base n : Nat} (h : s.Stored) : (s.dropAlloc core base n).Stored := State.Stored.updCore h.same

theorem execGangScratchRelease_kept {gi : Nat} (h : s.Stored) : Kept (execGangScratchRelease gi s) :=
  .ite h.noEffect (State.Stored.effect (State.Stored.updGang (h.foldl fun _ _ h => h.when (·.dropAlloc))))

theorem State.Stored.setIdle {cl ns : Nat} (h : s.Stored) : (s.setIdle cl ns).Stored := h.when (·.updCluster)

theorem execClusterGate_kept {cl : Nat} (h : s.Stored) : Kept (execClusterGate cl s) :=
  .ite h.noEffect h.updCluster.effect

/-! ### Blocks discarded and flushed -/

theorem State.Stored.discardBlock {bi : Nat} (h : s.Stored) : (s.discardBlock bi).Stored := by
  unfold State.discardBlock
  extract_lets b s1 s2 s3 s4 s5 s6
  refine h.unless fun h => ?_
  have h3 : s3.Stored := State.Stored.when (h.foldl fun _ _ h => h.unbindAll).endBlockLease (·.dropAlloc)
  have h5 : s5.Stored := h3.same
  have h6 : s6.Stored := h5.when (·.freeCore)
  exact h6.updBlock.holdPin

theorem State.Stored.discardEnded {bi : Nat} (h : s.Stored) : (s.discardEnded bi).Stored := (h.when (·.dropAlloc)).same

theorem State.Stored.flush {bi : Nat} (h : s.Stored) : (s.flush bi).Stored := by
  unfold State.flush
  extract_lets b g first s1 s2 s3
  have h2 : s2.Stored := State.Stored.updGang (h.foldl fun _ _ h => Stored_ite h.discardEnded h.discardBlock)
  clear_value s2
  have h3 : s3.Stored := by
    unfold s3
    split
    · exact h2
    · exact Stored_ite h2.updJob h2.updQueue
  exact h3.softDone

/-! ### Waves cut, and soft errors -/

theorem State.Stored.formCut {wi : Nat} (h : s.Stored) : (s.formCut wi).Stored := by
  unfold State.formCut
  extract_lets t
  have h : t.Stored := h.drain.updWave
  clear_value t
  split
  · exact h
  split
  · exact h
  · exact State.traceRecord_stored _ _ _ _ _ _ _ _ h

theorem State.Stored.cutWave {wi : Nat} (h : s.Stored) : (s.cutWave wi).Stored := by
  unfold State.cutWave
  extract_lets still t
  have h : t.Stored := h.updWave
  clear_value t
  split
  · exact h
  · exact h.updCore.unless (·.formCut)

theorem State.Stored.finishOps {bi : Nat} (h : s.Stored) : (s.finishOps bi).Stored := State.Stored.updCore (h.foldl fun _ _ h => h.applyMma)

theorem State.Stored.recover {bi : Nat} {mark : State → State} (h : s.Stored) (hmark : ∀ s, State.Stored s → (mark s).Stored) :
    (s.recover bi mark).Stored := by
  unfold State.recover
  extract_lets b t
  have h : t.Stored := h.updPart
  clear_value t
  refine h.unless fun h => Stored_ite h.flush (Stored_ite (hmark _ h.finishOps) ?_)
  exact (hmark _ ((h.foldl fun _ _ h => h.cutWave).finishOps.foldl fun _ _ h => h.updWave)).latchBlock

theorem State.Stored.damageSet {core set : Nat} {g : Grant} (h : s.Stored) : (s.damageSet core set g).Stored :=
  h.foldl fun _ _ => State.setAcc_stored _ _ _ _ _

/-- The mark that a soft error leaves. -/
theorem State.softSite_stored {site : SoftSite} {bi : Nat} {mark : State → State} (e : s.softSite site = some (bi, mark)) (t : State) (h : t.Stored) :
    (mark t).Stored := by
  cases site with
  | scalar wi n =>
    simp only [State.softSite] at e
    split at e
    · cases e
      exact h.updWave
    · cases e
  | vector wi n =>
    simp only [State.softSite] at e
    split at e
    · cases e
      exact h.updWave
    · cases e
  | slot core n =>
    simp only [State.softSite] at e
    split at e
    · split at e
      · cases e
      · cases e
        exact h.updSlot
    · cases e
  | accumulator bi n =>
    simp only [State.softSite] at e
    split at e
    · cases e
      exact h.damageSet.updBlock
    · cases e
  | scratch bi off =>
    simp only [State.softSite] at e
    split at e
    · cases e
      exact h.poison
    · cases e
  | corrected => cases e

theorem execSoftError_kept {site : SoftSite} (h : s.Stored) : Kept (execSoftError site s) := by
  unfold execSoftError
  split
  · exact h.updPart.effect
  split
  · exact h.noEffect
  · next e => exact .ite (h.recover (State.softSite_stored e)).effect h.noEffect

end Sys2Proof.Machine
end

section
/-! SUPPORT. Pre-emption, leases, energy and debugging keep the canonical forms. -/

namespace Sys2Proof.Machine

set_option Elab.async false

variable {s : State}

/-! ### Pre-emption -/

theorem State.Stored.dropInfills {ci : Nat} (h : s.Stored) : (s.dropInfills ci).Stored := h.same

theorem State.Stored.hardEntry {ci : Nat} (h : s.Stored) : (s.hardEntry ci).Stored :=
  h.updCtx.dropInfills.foldl fun _ _ h => h.unless fun h => Stored_ite h.flush (h.foldl fun _ _ h => h.cutWave)

theorem execPreemptRequest_kept {ci : Nat} {hard : Bool} (h : s.Stored) : Kept (execPreemptRequest ci hard s) := by
  unfold execPreemptRequest
  split
  · exact h.noEffect
  · exact .ite h.noEffect (.ite h.hardEntry.effect h.updCtx.softDone.effect)

theorem execSoftDeadlineExpiry_kept {ci : Nat} (h : s.Stored) : Kept (execSoftDeadlineExpiry ci s) := .ite h.hardEntry.effect h.noEffect

theorem State.Stored.scramble {n : Nat} {c : Copy} (h : s.Stored) : (s.scramble n c).Stored := by
  refine h.foldl fun s x h => ?_
  split
  · exact Stored_writeBytes _ _ (State.spoil_stored _ _ h)
  · exact h

theorem execCopyGraceExpiry_kept {ci : Nat} (h : s.Stored) : Kept (execCopyGraceExpiry ci s) := by
  unfold execCopyGraceExpiry
  dsimp only
  refine .ite (.ite h.noEffect (State.Stored.effect (State.Stored.updCtx (h.foldl fun s n h => ?_)))) h.noEffect
  split
  · exact h.scramble.updCopy
  · exact h

theorem State.Stored.saveBlock {bi : Nat} (h : s.Stored) : (s.saveBlock bi).Stored := by
  unfold State.saveBlock
  extract_lets b s1 c slots base inside trigs bars onE s2 s3 s4 s5 s6
  refine h.unless fun h => ?_
  have h2 : s2.Stored := (h.foldl fun _ _ h => h.when (·.formCut)).dropAlloc
  have h4 : s4.Stored := (Stored_moveBytes _ _ _ h2).foldl fun _ _ => Stored_moveBytes _ _ _
  have h5 : s5.Stored := h4.foldl fun _ _ => State.moveSet_stored _ _ _ _
  exact h5.updCore.updBlock.holdPin

/-! ### Resumption -/

theorem State.Stored.restoreBlock {bi core : Nat} (h : s.Stored) : (s.restoreBlock bi core).Stored := by
  unfold State.restoreBlock
  extract_lets b base sets change s1
  have h1 : s1.Stored := Stored_moveBytes _ _ _ h
  split
  · exact h
  extract_lets s2 s3 s4 s5 s6 s7 s8
  have h2 : s2.Stored := h1.foldl fun _ _ h => (Stored_moveBytes _ _ _ h).updSlot
  have h3 : s3.Stored := h2.foldl fun _ _ h => State.Stored.when (State.moveSet_stored _ _ _ _ h) (State.shrinkSet_stored _ _)
  have h4 : s4.Stored := h3.updCore
  have h5 : s5.Stored := h4.same
  have h8 : s8.Stored := h5.updCluster.updGang.updBlock
  exact (h8.foldl fun _ _ h => h.updWave).holdPin

theorem State.Stored.restoreAll {t : State} {l : List (Nat × Nat)} (h : s.Stored) (e : s.restoreAll l = some t) : t.Stored := by
  induction l generalizing s with
  | nil =>
    cases e
    exact h
  | cons x l ih =>
    unfold State.restoreAll at e
    split at e
    · exact ih h.restoreBlock e
    · cases e

theorem State.Stored.reissue {ci : Nat} (h : s.Stored) : (s.reissue ci).Stored := by
  refine State.Stored.updCtx (h.foldl fun s n h => ?_)
  split
  · exact h
  · exact h.updCopy

theorem State.Stored.binBack {ci : Nat} {x : Nat × Bin} (h : s.Stored) : (s.binBack ci x).Stored := by
  refine Stored_ite h.updCore ?_
  split
  · exact h.updCore
  · exact h.updCtx

theorem State.Stored.binsBack {ci : Nat} (h : s.Stored) : (s.binsBack ci).Stored := h.unless fun h => h.updCtx.foldl fun _ _ h => h.binBack

theorem State.Stored.rebin (h : s.Stored) : (s.rebin).Stored := h.when fun h => h.foldl fun _ _ h => h.binsBack

theorem State.Stored.pointsBack {part core : Nat} {x : Nat × Nat × Nat} (h : s.Stored) : (s.pointsBack part core x).Stored :=
  Stored_ite h.updCore h.updJob

theorem State.Stored.ripenAll (h : s.Stored) : (s.ripenAll).Stored := h.foldl fun _ _ h => h.ripen

theorem State.Stored.resumeFront {ci : Nat} {moves : List (Nat × Nat)} (h : s.Stored) : (s.resumeFront ci moves).Stored :=
  State.Stored.same (State.Stored.binsBack (State.Stored.foldl h.ripenAll.updCtx fun _ _ h => h.pointsBack))

theorem State.Stored.resumeAt {t : State} {ci : Nat} {place : List (Nat × Nat)} (h : s.Stored) (e : s.resumeAt ci place = some t) : t.Stored := by
  unfold State.resumeAt at e
  split at e
  · split at e
    · cases e
    · next r =>
      cases e
      exact ((h.restoreAll r).unless (·.resumeFront)).reissue
  · cases e

theorem execResumeRequest_kept {ci : Nat} {place : List (Nat × Nat)} (h : s.Stored) : Kept (execResumeRequest ci place s) := by
  unfold execResumeRequest
  split
  · exact h.noEffect
  split
  · exact h.resumeFront.effect
  · exact h.updCtx.effect
  · split
    · next e => exact (h.resumeAt e).effect
    · exact h.noEffect
  · refine .ite h.noEffect ?_
    split
    · next e => exact (h.resumeAt e).effect
    · exact h.noEffect
  · exact h.noEffect

theorem execImageComplete_kept {ci : Nat} (h : s.Stored) : Kept (execImageComplete ci s) := by
  unfold execImageComplete
  extract_lets c s1 s2
  refine .ite ?_ h.noEffect
  have h2 : s2.Stored := State.Stored.saveFront (h.foldl fun _ _ h => h.saveBlock)
  clear_value s2
  split
  · exact h2.effect
  · split
    · next e => exact (h2.resumeAt e).effect
    · exact h2.resumeFront.effect

/-! ### Contexts reset -/

theorem State.Stored.discardCtx {ci : Nat} (h : s.Stored) : (s.discardCtx ci).Stored := by
  unfold State.discardCtx
  extract_lets s1 mineOp s2 s3 mine ofJob s4
  have h2 : s2.Stored := h.endLease.same
  have h3 : s3.Stored := h2.foldl fun s x h => by
    extract_lets bi b t1 t2 t3
    have k : t3.Stored := h.when fun h =>
      Stored_clearBytes _ _ ((h.foldl fun _ _ h => h.when (Stored_clearBytes _ _)).foldl fun _ _ => State.zeroSet_stored _ _)
    exact Stored_ite k.discardBlock k.discardEnded
  exact State.Stored.updCtx h3.same

theorem State.Stored.faultAll {ci code : Nat} {value : Word} {closed : Bool} (h : s.Stored) : (s.faultAll ci code value closed).Stored :=
  h.foldl fun _ _ h => h.when (State.queueFault_stored _ _ _ _ _ _ _ _)

theorem execHardLimitExpiry_kept {ci : Nat} (h : s.Stored) : Kept (execHardLimitExpiry ci s) :=
  .ite h.discardCtx.faultAll.updCtx.effect h.noEffect

/-! ### Leases, energy and clocks -/

theorem execLease_kept {d a : Reg} {mn : BitVec 10} {lv : BitVec 2} (h : s.Stored) : Kept (execLease d a mn lv s) :=
  h.scalar fun _ _ _ _ => .done h.updCtx.updWave

theorem State.Stored.expireLease {ci : Nat} (h : s.Stored) : (s.expireLease ci).Stored := by
  unfold State.expireLease
  split
  · exact h
  · exact h.endLease.updWave

theorem State.Stored.expireDue (h : s.Stored) : (s.expireDue).Stored := h.foldl fun _ _ h => h.when (·.expireLease)

theorem execLeaseDecision_kept {ci : Nat} (h : s.Stored) : Kept (execLeaseDecision ci s) := by
  unfold execLeaseDecision
  split
  · exact h.noEffect
  extract_lets s1 c r s2 share s3
  have h2 : s2.Stored := h.expireDue.updCtx
  refine .ite h2.effect ?_
  have h3 : s3.Stored := by
    clear_value r
    unfold s3
    split
    · exact h2.updCtx
    · exact h2.updCtx.updPart
  clear_value s3
  split
  · exact h3.effect
  · exact .ite h3.effect h3.makeWrite.updWave.effect

theorem execLqry_kept {d : Reg} (h : s.Stored) : Kept (execLqry d s) := h.scalar fun _ _ _ _ => .ite (.done h.setReg) .stall

theorem execLeaseExpiry_kept {ci : Nat} (h : s.Stored) : Kept (execLeaseExpiry ci s) := .ite h.expireLease.effect h.noEffect

theorem execLrel_kept (h : s.Stored) : Kept (execLrel s) := h.scalar fun _ _ _ _ => .done (Stored_ite h.expireLease h.endLease)

theorem execMeltfUpdate_kept {melt : BitVec 16} (h : s.Stored) : Kept (execMeltfUpdate melt s) := by
  refine .ite (State.Stored.effect (State.Stored.foldl (State.Stored.same h) fun _ _ h => h.expireLease)) (.ite ?_ ?_)
  · exact State.Stored.effect h.same
  · exact State.Stored.effect h.same

theorem State.Stored.postQuota {ci : Nat} (h : s.Stored) : (s.postQuota ci).Stored := h.when (·.same)

theorem State.Stored.chargeCluster {cl energy : Nat} (h : s.Stored) : (s.chargeCluster cl energy).Stored := h.same

theorem execEnergyIntervalEnd_kept {energies : List (Nat × Nat)} (h : s.Stored) : Kept (execEnergyIntervalEnd energies s) := by
  unfold execEnergyIntervalEnd
  extract_lets s1 s2 s3
  have h1 : s1.Stored := h.same
  have h2 : s2.Stored := h1.foldl fun _ _ h => h.chargeCluster
  have h3 : s3.Stored := h2.same
  exact (h3.foldl fun _ _ h => h.postQuota).effect

theorem execEquotaSet_kept {ci : Nat} {quota : Word} (h : s.Stored) : Kept (execEquotaSet ci quota s) := by
  unfold execEquotaSet
  split
  · exact h.noEffect
  · exact h.updCtx.effect

theorem execClockChange_kept {cl mhz : Nat} (h : s.Stored) : Kept (execClockChange cl mhz s) := .ite h.noEffect h.updCluster.effect

theorem execCapLower_kept {cl : Nat} (h : s.Stored) : Kept (execCapLower cl s) :=
  .ite h.noEffect (State.Stored.effect (h.updCluster.foldl fun _ _ h => h.unless (·.updCore)))

theorem execCapRaise_kept {cl : Nat} (h : s.Stored) : Kept (execCapRaise cl s) :=
  .ite h.noEffect (State.Stored.effect (h.updCluster.foldl fun _ _ h => h.unless (·.updCore)))

/-! ### Debugging -/

theorem State.Stored.enterDebug {wi si : Nat} {w : Wave} {sp : Split} {n : Nat} {entry : Word} (h : s.Stored) :
    (s.enterDebug wi si w sp n entry).Stored :=
  State.traceRecord_stored _ _ _ _ _ _ _ _ (State.Stored.stopMate (State.Stored.updWave (State.writeFrame_stored _ _ _ _ _ _ h)))

theorem State.Stored.haltWave {wi si n : Nat} (h : s.Stored) : (s.haltWave wi si n).Stored := by
  unfold State.haltWave
  extract_lets t
  have h : t.Stored := h.drain
  clear_value t
  split
  · exact h
  split
  · exact h
  · exact State.traceRecord_stored _ _ _ _ _ _ _ _ h.updWave

theorem execComparatorHit_kept {wi : Nat} (h : s.Stored) : Kept (execComparatorHit wi s) := by
  unfold execComparatorHit
  split
  · exact h.noEffect
  split
  · exact h.noEffect
  split
  · exact h.noEffect
  extract_lets l t
  refine .ite h.noEffect ?_
  have h : t.Stored := h.foldl fun _ _ => State.traceRecord_stored _ _ _ _ _ _ _ _
  clear_value t
  split
  · exact h.updWave.effect
  split
  · exact h.haltWave.effect
  split
  · exact h.drain.noEffect
  · exact h.drain.enterDebug.effect

theorem execDebugHaltRequest_kept {wi : Nat} (h : s.Stored) : Kept (execDebugHaltRequest wi s) := by
  unfold execDebugHaltRequest
  split
  · exact h.noEffect
  refine .ite h.noEffect ?_
  split
  · exact h.noEffect
  · exact h.haltWave.effect

theorem execDebugResume_kept {wi : Nat} (h : s.Stored) : Kept (execDebugResume wi s) := by
  unfold execDebugResume
  split
  · exact h.noEffect
  · exact .ite h.updWave.effect h.noEffect

theorem State.Stored.portDone {bound : Bool} (h : s.Stored) : (s.portDone bound).Stored := h.same

theorem execDebugPortWrite_kept {wi : Nat} {r : DebugReg} (h : s.Stored) : Kept (execDebugPortWrite wi r s) := by
  unfold execDebugPortWrite
  split
  · exact h.noEffect
  refine .ite h.noEffect ?_
  split
  · exact h.portDone.updWave.effect
  · exact .ite h.portDone.effect h.portDone.putRegs.updWave.effect
  · exact h.portDone.updWave.effect
  · split
    · exact h.noEffect
    · exact h.portDone.updWave.effect

theorem execDebugArm_kept {q : Nat} {entry : Option Word} (h : s.Stored) : Kept (execDebugArm q entry s) := .ite h.updQueue.effect h.noEffect

theorem execDebugPin_kept {q : Nat} {pin : Option Pin} (h : s.Stored) : Kept (execDebugPin q pin s) :=
  .ite (State.Stored.effect (h.updQueue.foldl fun _ _ h => h.when (·.holdPin))) h.noEffect

end Sys2Proof.Machine
end

section
/-! SUPPORT. The events of a wave, ports and queues keep the canonical forms. -/

namespace Sys2Proof.Machine

set_option Elab.async false

variable {s : State}

/-! ### Events of a wave -/

theorem execLongLatencyWrite_kept {wi n : Nat} (h : s.Stored) : Kept (execLongLatencyWrite wi n s) := by
  unfold execLongLatencyWrite
  split
  · exact h.noEffect
  split
  · exact h.noEffect
  · exact .ite h.noEffect h.makeWrite.updWave.effect

theorem execVectorFaultPoint_kept {wi : Nat} (h : s.Stored) : Kept (execVectorFaultPoint wi s) := by
  unfold execVectorFaultPoint
  split
  · exact h.noEffect
  · exact .ite h.updWave.effect h.noEffect

theorem execAsyncTrapTake_kept {wi : Nat} (h : s.Stored) : Kept (execAsyncTrapTake wi s) := by
  unfold execAsyncTrapTake
  split
  · exact h.noEffect
  refine .ite h.noEffect ?_
  split
  · exact h.noEffect
  split
  · exact h.noEffect
  split
  · exact (State.takeTrap_stored _ _ _ _ _ _ h.updWave).effect
  · exact (State.takeTrap_stored _ _ _ _ _ _ h.updWave).effect
  · exact h.noEffect

theorem execParkedFaultResolve_kept {wi : Nat} (h : s.Stored) : Kept (execParkedFaultResolve wi s) := by
  unfold execParkedFaultResolve
  split
  · exact h.noEffect
  split
  · exact h.noEffect
  · exact .ite h.noEffect h.priAnswered.updWave.stopMate.effect

theorem execParkedFaultDecline_kept {wi : Nat} (h : s.Stored) : Kept (execParkedFaultDecline wi s) := by
  unfold execParkedFaultDecline
  split
  · exact h.noEffect
  split
  · exact h.noEffect
  split
  · exact h.noEffect
  · exact .ite h.noEffect (State.takeHandler_stored _ _ _ _ _ _ _ h.priAnswered.updWave).effect

/-! ### Bindings, routes and ports -/

theorem execDeviceNumberAssign_kept {n : BitVec 9} (h : s.Stored) : Kept (execDeviceNumberAssign n s) := .ite h.noEffect (State.Stored.effect h.same)

theorem execBindingInstall_kept {part dev rpart : Nat} (h : s.Stored) : Kept (execBindingInstall part dev rpart s) := by
  unfold execBindingInstall
  split
  · exact h.noEffect
  · exact .ite h.noEffect h.updPart.effect

theorem execBindingRemove_kept {part dev : Nat} (h : s.Stored) : Kept (execBindingRemove part dev s) :=
  State.Stored.effect (State.Stored.foldl (State.Stored.same h) fun _ _ h => h.reply)

theorem execRouteTableWrite_kept {part dev : Nat} {ports : List Nat} (h : s.Stored) : Kept (execRouteTableWrite part dev ports s) :=
  .ite h.noEffect h.updPart.effect

theorem execFlitCrcError_kept {port : Nat} (h : s.Stored) : Kept (execFlitCrcError port s) := h.updFabPort.effect

theorem execPortRetrain_kept {port : Nat} (h : s.Stored) : Kept (execPortRetrain port s) := h.updFabPort.effect

theorem execPortDown_kept {port : Nat} (h : s.Stored) : Kept (execPortDown port s) := h.updFabPort.effect

theorem execPortTrain_kept {port : Nat} (h : s.Stored) : Kept (execPortTrain port s) := .ite h.updFabPort.effect h.noEffect

theorem execPortAssign_kept {port : Nat} {part : Option Nat} (h : s.Stored) : Kept (execPortAssign port part s) :=
  .ite h.noEffect h.updFabPort.effect

/-! ### Accesses of a queue -/

theorem State.Stored.reportQueue {qi : Nat} {a : Word} {sub : Nat} {write card : Bool}
    (h : s.Stored) : (s.reportQueue qi a sub write card).Keeps := by
  unfold State.reportQueue
  dsimp only
  split
  · exact .waits
  · exact .later (State.reportFault_stored _ _ _ _ _ _ _ _ _ h.updQueue)

theorem State.Stored.queueAsk {qi : Nat} {a : Word} {write : Bool} {ps : List CPlace} {ops : List (Nat × RemoteOp)} (h : s.Stored) :
    (s.queueAsk qi a write ps ops).Keeps := by
  unfold State.queueAsk
  dsimp only
  refine .ite .ready ?_
  split
  · split
    · exact .ready
    · exact .pending
  · split
    · exact .ready
    · exact .sent h.sendRemote.updQueue

theorem State.Stored.queueAsked {qi : Nat} {a : Word} {write : Bool} (h : s.Stored) : (s.queueAsked qi a write).Stored := h.updQueue

theorem State.Stored.queueRead {qi : Nat} {a : Word} {n : Nat} {card : Bool} (h : s.Stored) : (s.queueRead qi a n card).Keeps := by
  unfold State.queueRead
  dsimp only
  split
  · exact h.reportQueue
  split
  · exact .bad h
  split
  · exact .waits
  · exact .later (h.queueAsk.of_sent ‹_›)
  · split
    · exact .bad h.queueAsked
    · exact .got h.queueAsked

theorem State.Stored.queueWrite {qi : Nat} {a : Word} {l : List Byte} (h : s.Stored) : (s.queueWrite qi a l).Keeps := by
  unfold State.queueWrite
  dsimp only
  split
  · exact h.reportQueue
  split
  · exact .bad h
  split
  · exact .waits
  · exact .later (h.queueAsk.of_sent ‹_›)
  · split
    · exact .bad h.queueAsked
    · exact .got h.queueAsked.land

theorem State.Stored.memoryFault {qi : Nat} {a : Word} (h : s.Stored) : (s.memoryFault qi a).Stored :=
  State.queueFault_stored _ _ _ _ _ _ _ _ h.updQueue

/-! ### The mirror area -/

theorem State.Stored.flushMirror {qi n : Nat} (h : s.Stored) : (s.flushMirror qi n).Stored := by
  induction n generalizing s with
  | zero => exact h
  | succ n ih =>
    unfold State.flushMirror
    dsimp only
    split
    · exact h
    split
    · exact h
    · exact h.queueWrite.of_later ‹_›
    · next e => exact Stored_ite (h.queueWrite.of_bad e).memoryFault (h.queueWrite.of_bad e).updQueue
    · next e => exact ih (h.queueWrite.of_got e).updQueue

theorem State.Stored.mirrorWrite {qi i : Nat} {v : Word} (h : s.Stored) : (s.mirrorWrite qi i v).Stored := h.updQueue.flushMirror

theorem State.Stored.resumeMirror {qi : Nat} (h : s.Stored) : (s.resumeMirror qi).Stored := h.flushMirror

theorem State.Stored.mirrorGoes {req : Nat} (h : s.Stored) : (s.mirrorGoes req).Stored := by
  unfold State.mirrorGoes
  split
  · split
    · exact h.resumeMirror
    · exact h
  · exact h

/-! ### Answers of other devices -/

theorem execRemoteResponse_kept {req : Nat} {a : RemoteAnswer} (h : s.Stored) : Kept (execRemoteResponse req a s) := by
  unfold execRemoteResponse
  split
  · exact h.noEffect
  · exact .ite h.noEffect h.answered.mirrorGoes.effect

theorem execRemoteRequestTimeout_kept {req : Nat} (h : s.Stored) : Kept (execRemoteRequestTimeout req s) := by
  unfold execRemoteRequestTimeout
  split
  · exact h.noEffect
  · exact .ite h.noEffect h.answered.mirrorGoes.effect

/-! ### Contexts, queues and doorbells -/

theorem execContextCreate_kept {ci fn : Nat} {d : List Byte} (h : s.Stored) : Kept (execContextCreate ci fn d s) :=
  .ite h.noEffect (State.Stored.effect h.same)

theorem execQueueCreate_kept {num fn : Nat} {d : List Byte} (h : s.Stored) : Kept (execQueueCreate num fn d s) := by
  unfold execQueueCreate
  exact .ite h.noEffect (State.Stored.effect (State.Stored.mirrorWrite (State.Stored.mirrorWrite (State.Stored.same h))))

theorem execQueueDelete_kept {qi : Nat} (h : s.Stored) : Kept (execQueueDelete qi s) := .ite h.noEffect h.updQueue.effect

theorem execDoorbell_kept {qi : Nat} {w : Word} (h : s.Stored) : Kept (execDoorbell qi w s) :=
  .ite h.noEffect h.updQueue.effect

/-! ### Packets -/

theorem State.Stored.torn {qi : Nat} (h : s.Stored) : (s.torn qi).Stored := State.queueFault_stored _ _ _ _ _ _ _ _ h.updQueue

theorem execPacketFetch_kept {qi : Nat} (h : s.Stored) : Kept (execPacketFetch qi s) := by
  unfold execPacketFetch
  extract_lets q a mark
  refine .ite h.noEffect (.ite h.torn.effect ?_)
  split
  · exact h.noEffect
  · exact (h.queueRead.of_later ‹_›).effect
  · exact (h.queueRead.of_bad ‹_›).memoryFault.effect
  · next e =>
    have h := h.queueRead.of_got e
    exact .ite (.ite h.torn.effect h.updQueue.effect)
      (.ite h.updQueue.updQueue.effect (State.queueFault_stored _ _ _ _ _ _ _ _ h.updQueue).effect)

theorem State.Stored.started {qi : Nat} {p : Packet} (h : s.Stored) : (s.started qi p).Stored := h.updQueue.mirrorWrite

theorem execPacketTlwait_kept {qi : Nat} (h : s.Stored) : Kept (execPacketTlwait qi s) := by
  unfold execPacketTlwait
  split
  · exact h.noEffect
  split
  · exact h.noEffect
  · exact .ite h.started.effect h.noEffect

theorem execPacketTlset_kept {qi : Nat} (h : s.Stored) : Kept (execPacketTlset qi s) := by
  unfold execPacketTlset
  split
  · exact h.noEffect
  · exact h.started.effect

theorem execPacketFence_kept {qi : Nat} (h : s.Stored) : Kept (execPacketFence qi s) := by
  unfold execPacketFence
  split
  · exact h.noEffect
  · exact .ite h.started.effect h.noEffect

theorem execPacketNop_kept {qi : Nat} (h : s.Stored) : Kept (execPacketNop qi s) := by
  unfold execPacketNop
  split
  · exact h.noEffect
  · exact h.started.effect

theorem execPacketCopy_kept {qi : Nat} (h : s.Stored) : Kept (execPacketCopy qi s) := by
  unfold execPacketCopy
  split
  · exact h.noEffect
  · exact State.Stored.effect (State.Stored.started h.same)

theorem State.Stored.refuseCard {qi : Nat} {p : Packet} (h : s.Stored) : (s.refuseCard qi p).Stored :=
  State.queueFault_stored _ _ _ _ _ _ _ _ (State.Stored.started (State.Stored.same h))

theorem State.Stored.startJob {qi : Nat} {p : Packet} {l cov : List Byte} {obj ker : Nat} (h : s.Stored) : (s.startJob qi p l cov obj ker).Stored :=
  State.Stored.started h.same

theorem State.Stored.readCard {qi : Nat} {p : Packet} {k : State → List Byte → List Byte → State}
    (h : s.Stored) (hk : ∀ s l cov, State.Stored s → (k s l cov).Stored) :
    Kept (s.readCard qi p k) := by
  unfold State.readCard
  split
  · exact h.noEffect
  · exact (h.queueRead.of_later ‹_›).effect
  · exact (h.queueRead.of_bad ‹_›).refuseCard.effect
  next e =>
  have h := h.queueRead.of_got e
  refine .ite (hk _ _ _ h).effect ?_
  split
  · exact h.noEffect
  · exact (h.queueRead.of_later ‹_›).effect
  · exact (h.queueRead.of_bad ‹_›).refuseCard.effect
  · exact (hk _ _ _ (h.queueRead.of_got ‹_›)).effect

theorem execPacketJob_kept {qi : Nat} (h : s.Stored) : Kept (execPacketJob qi s) := by
  unfold execPacketJob
  split
  · exact h.noEffect
  refine .ite h.refuseCard.effect (h.readCard fun s l cov h => ?_)
  dsimp only
  split
  · exact h.refuseCard
  · exact Stored_ite h.startJob h.refuseCard

theorem State.Stored.packetDone {qi t carrier : Nat} (h : s.Stored) : (s.packetDone qi t carrier).Stored := h.updQueue

theorem State.Stored.recordThen {qi : Nat} {compl : Word} {bytes : List Byte} {k : State → State}
    (h : s.Stored) (hk : ∀ s, State.Stored s → (k s).Stored) :
    Kept (s.recordThen qi compl bytes k) := by
  refine .ite (hk _ h).effect ?_
  split
  · exact h.noEffect
  · exact (h.queueWrite.of_later ‹_›).effect
  · exact (hk _ ((h.queueWrite.of_bad ‹_›).when (·.memoryFault))).effect
  · exact (hk _ (h.queueWrite.of_got ‹_›)).effect

theorem State.Stored.raceTiles {ji : Nat} {j : Job} (h : s.Stored) : (s.raceTiles ji j).Stored := by
  refine h.foldl fun s x h => ?_
  split
  · exact Stored_writeBytes _ _ (State.spoil_stored _ _ h)
  · exact h

theorem execJobComplete_kept {ji : Nat} (h : s.Stored) : Kept (execJobComplete ji s) := by
  unfold execJobComplete
  split
  · exact h.noEffect
  extract_lets s1 s2 s3 status filled finish
  have h3 : s3.Stored := ((h.unless (·.raceTiles)).unless (·.closure)).updJob
  have done (t : State) (h : t.Stored) : (finish t).Stored := h.updJob.packetDone
  exact .ite h.noEffect (.ite (done _ h3).effect (h3.recordThen done))

theorem execCopyPacketComplete_kept {n : Nat} (h : s.Stored) : Kept (execCopyPacketComplete n s) := by
  unfold execCopyPacketComplete
  split
  · exact h.noEffect
  extract_lets record
  have done (t : State) (err : Bool) (h : t.Stored) : Kept (record t err) := h.recordThen fun _ h => h.updCopy.packetDone
  refine .ite h.noEffect (.ite (done _ _ h) ?_)
  split
  · exact done _ _ h
  split
  · exact h.noEffect
  · exact (h.moveCopy.of_later ‹_›).effect
  · exact done _ _ (h.moveCopy.of_done ‹_›).updCopy

theorem execTimelineSignal_kept {qi : Nat} (h : s.Stored) : Kept (execTimelineSignal qi s) := by
  unfold execTimelineSignal
  refine .ite h.noEffect ?_
  split
  · exact h.noEffect
  · exact .ite h.noEffect h.updQueue.mirrorWrite.effect

/-! ### Faults and services of a queue -/

theorem execQueueMemoryFaultAnswer_kept {qi : Nat} {resolved : Bool} (h : s.Stored) : Kept (execQueueMemoryFaultAnswer qi resolved s) := by
  unfold execQueueMemoryFaultAnswer
  split
  · exact h.noEffect
  extract_lets t covers t'
  have h1 : t.Stored := h.priAnswered.updQueue
  refine .ite h.noEffect (.ite h1.resumeMirror.effect (.ite ?_ ?_))
  · split
    · exact h1.refuseCard.effect
    · exact h1.resumeMirror.effect
  · have h2 : t'.Stored := h1.same
    exact .ite h2.memoryFault.effect h2.resumeMirror.effect

theorem execServicePost_kept {wi : Nat} (h : s.Stored) : Kept (execServicePost wi s) := by
  unfold execServicePost
  split
  · exact h.noEffect
  split
  · refine .ite h.noEffect ?_
    dsimp only
    split
    · exact h.noEffect
    · exact (h.queueWrite.of_later ‹_›).effect
    · exact ((h.queueWrite.of_bad ‹_›).when (·.memoryFault)).effect
    · exact (h.queueWrite.of_got ‹_›).updQueue.updPart.updWave.effect
  · exact h.noEffect

theorem execServiceDoorbell_kept {qi : Nat} {k : Word} (h : s.Stored) : Kept (execServiceDoorbell qi k s) := by
  unfold execServiceDoorbell
  dsimp only
  split
  · exact h.noEffect
  split
  · exact h.noEffect
  · exact (h.queueRead.of_later ‹_›).effect
  · exact ((h.queueRead.of_bad ‹_›).when (·.memoryFault)).effect
  · exact (h.queueRead.of_got ‹_›).updQueue.updWave.effect

theorem State.Stored.discardQueue {qi : Nat} (h : s.Stored) : (s.discardQueue qi).Stored :=
  State.Stored.softDone (State.Stored.same (h.foldl fun _ _ h => h.discardBlock))

theorem State.Stored.dropRead {qi : Nat} (h : s.Stored) : (s.dropRead qi).Stored := by
  unfold State.dropRead
  split
  · exact h.priAnswered.updQueue
  · exact h

theorem execQueueClear_kept {qi : Nat} {next : Word} (h : s.Stored) : Kept (execQueueClear qi next s) :=
  .ite h.noEffect (State.Stored.effect ((h.discardQueue.dropRead.updQueue.when (·.updCtx)).mirrorWrite))

end Sys2Proof.Machine
end

section
/-! SUPPORT. Plumb programs, trust, the host, partitions and coverage keep the canonical forms. -/

namespace Sys2Proof.Machine

set_option Elab.async false

variable {s : State}

/-! ### Plumb programs -/

theorem execPlumbProgramLoad_kept {prog : Nat} {ws : List (BitVec 16)} (h : s.Stored) : Kept (execPlumbProgramLoad prog ws s) :=
  .ite h.noEffect (State.Stored.effect h.same)

theorem execPacketPlumb_kept {qi : Nat} (h : s.Stored) : Kept (execPacketPlumb qi s) := by
  unfold execPacketPlumb
  split
  · exact h.noEffect
  split
  · exact (State.queueFault_stored _ _ _ _ _ _ _ _ h).effect
  · exact State.Stored.effect (State.Stored.same h.started)

theorem State.Stored.plumbFault {n : Nat} {r : PlumbRun} {sub : Nat} (h : s.Stored) : (s.plumbFault n r sub).Stored :=
  State.queueFault_stored _ _ _ _ _ _ _ _ h.updRun

theorem State.Stored.plumbEnd {n : Nat} {r : PlumbRun} (h : s.Stored) : (s.plumbEnd n r).Stored := h.updRun.updQueue.packetDone

theorem State.Stored.plumb {k : PlumbRun → PRes} (h : s.Stored) (hk : ∀ r, (k r).Keeps) : Kept (s.plumb k) := by
  unfold State.plumb
  split
  · exact h.noEffect
  next r _ =>
  refine .ite h.noEffect (.ite h.plumbFault.effect ?_)
  have e := hk r
  generalize k r = x at e ⊢
  cases e with
  | next h => exact h.updRun.effect
  | wait => exact h.noEffect
  | waitIn h => exact h.effect
  | fault => exact h.plumbFault.effect
  | memory h => exact h.updRun.memoryFault.effect
  | fin => exact h.plumbEnd.effect

theorem State.Stored.plumbSet {d : BitVec 3} {f : PlumbRun → Word} (h : s.Stored) : Kept (s.plumbSet d f) := h.plumb fun _ => .next h

theorem execPlumbBrf_kept {a : BitVec 3} {off : BitVec 8} (h : s.Stored) : Kept (execPlumbBrf a off s) := h.plumb fun _ => .next h

theorem execPlumbLoopn_kept {n : BitVec 8} {l : BitVec 16} (h : s.Stored) : Kept (execPlumbLoopn n l s) := h.plumb fun _ => .ite (.next h) (.next h)

theorem execPlumbRdtl_kept {d a : BitVec 3} (h : s.Stored) : Kept (execPlumbRdtl d a s) := by
  refine h.plumb fun r => ?_
  split
  · exact .fault
  · exact .next h

theorem execPlumbWrtl_kept {a : BitVec 3} (h : s.Stored) : Kept (execPlumbWrtl a s) := h.plumb fun _ => .next h.updQueue

theorem execPlumbWaittl_kept {a b : BitVec 3} (h : s.Stored) : Kept (execPlumbWaittl a b s) := by
  refine h.plumb fun r => ?_
  split
  · exact .fault
  · exact .ite (.next h) .wait

theorem execPlumbRdm_kept {d a : BitVec 3} {off : BitVec 5} (h : s.Stored) : Kept (execPlumbRdm d a off s) := by
  refine h.plumb fun r => ?_
  split
  · exact .fault
  split
  · exact .wait
  · exact .waitIn (h.queueRead.of_later ‹_›)
  · exact .memory (h.queueRead.of_bad ‹_›)
  · exact .next (h.queueRead.of_got ‹_›)

theorem execPlumbWrm_kept {d a : BitVec 3} {off : BitVec 5} (h : s.Stored) : Kept (execPlumbWrm d a off s) := by
  refine h.plumb fun r => ?_
  split
  · exact .fault
  split
  · exact .wait
  · exact .waitIn (h.queueWrite.of_later ‹_›)
  · exact .memory (h.queueWrite.of_bad ‹_›)
  · exact .next (h.queueWrite.of_got ‹_›)

theorem execPlumbEmit_kept {a : BitVec 3} (h : s.Stored) : Kept (execPlumbEmit a s) := by
  refine h.plumb fun r => ?_
  split
  · exact .fault
  refine .ite .fault ?_
  split
  · exact .wait
  · exact .waitIn (h.queueRead.of_later ‹_›)
  · exact .memory (h.queueRead.of_bad ‹_›)
  · exact .ite .fault (.next (h.queueRead.of_got ‹_›))

theorem execPlumbEnd_kept (h : s.Stored) : Kept (execPlumbEnd s) :=
  h.plumb fun _ => .fin

/-! ### Code objects, attestation and keys -/

theorem execCodeObjectLoad_kept {o : ObjectLoad} (h : s.Stored) : Kept (execCodeObjectLoad o s) := by
  unfold execCodeObjectLoad
  dsimp only
  refine .ite h.noEffect ?_
  split
  · exact State.Stored.effect (State.Stored.same h.land.land)
  · exact h.noEffect

theorem State.Stored.spdmReply {can : Bool} {code : Nat} {f : Spdm → Spdm} (h : s.Stored) : Kept (s.spdmReply can code f) := h.updSpdm.effect

theorem execGetMeasurements_kept {part block : Nat} (h : s.Stored) : Kept (execGetMeasurements part block s) := by
  unfold execGetMeasurements
  exact h.spdmReply

theorem State.Stored.setKey {n : Nat} {k : Option KeySlot} (h : s.Stored) : (s.setKey n k).Stored := h.same

theorem State.Stored.emptyKeys {l : List Nat} (h : s.Stored) : (s.emptyKeys l).Stored := h.foldl fun _ _ h => h.setKey

theorem State.Stored.keyReply {status : Nat} (h : s.Stored) : (s.keyReply status).Stored := State.Stored.updSpdm h.same

theorem execKeyinst_kept {secure : Bool} {l : List Byte} (h : s.Stored) : Kept (execKeyinst secure l s) :=
  .ite h.spdmReply (.ite h.keyReply.effect (.ite h.keyReply.effect (.ite h.keyReply.effect h.setKey.keyReply.effect)))

theorem execKeydel_kept {secure : Bool} {slot part : Nat} (h : s.Stored) : Kept (execKeydel secure slot part s) :=
  .ite h.spdmReply (.ite h.keyReply.effect h.setKey.keyReply.effect)

theorem execDatumFirmwareUpdate_kept (h : s.Stored) : Kept (execDatumFirmwareUpdate s) :=
  State.Stored.effect h.same

/-! ### Teardown -/

theorem State.Stored.tear {ci code : Nat} {value : Word} (h : s.Stored) : (s.tear ci code value).Stored :=
  State.Stored.updCtx (State.Stored.same h.discardCtx.faultAll)

theorem execPasidTeardown_kept {pasid : Nat} (h : s.Stored) : Kept (execPasidTeardown pasid s) := by
  unfold execPasidTeardown
  split
  · exact h.noEffect
  · exact State.Stored.effect (h.foldl fun _ _ h => h.tear)

theorem State.Stored.writeOwed {x : Nat × Word} (h : s.Stored) : (s.writeOwed x).Stored := by
  unfold State.writeOwed
  split
  · exact h.queueWrite.of_got ‹_›
  · exact h

theorem execTeardownComplete_kept {ci : Nat} (h : s.Stored) : Kept (execTeardownComplete ci s) := by
  unfold execTeardownComplete
  extract_lets c owed due mine s1 fab0 fab s2 s3
  have h1 : s1.Stored := h.foldl fun _ _ h => h.writeOwed
  have h2 : s2.Stored := h1.same
  exact .ite h.noEffect (State.Stored.effect (State.Stored.updCtx (State.faultRecord_stored _ _ _ _ _ _ _ _ _ h2)))

theorem execTdiStop_kept {p : Nat} (h : s.Stored) : Kept (execTdiStop p s) := by
  unfold execTdiStop
  split
  · exact h.noEffect
  · exact .ite h.noEffect (State.Stored.effect (State.Stored.updPart (State.Stored.emptyKeys (h.foldl fun _ _ h => h.tear))))

theorem execTdiEnterRun_kept {p : Nat} (h : s.Stored) : Kept (execTdiEnterRun p s) := .ite h.noEffect h.updPart.effect

theorem execFaultRingSetup_kept {p addr slots : Nat} (h : s.Stored) : Kept (execFaultRingSetup p addr slots s) :=
  .ite h.noEffect h.updPart.effect

/-! ### The host and its shootdowns -/

theorem execHostLinkTrain_kept {speed width : Nat} (h : s.Stored) : Kept (execHostLinkTrain speed width s) :=
  .ite (State.Stored.effect h.same) h.noEffect

theorem execIdeKmRequest_kept {stream : Nat} {switch : Bool} (h : s.Stored) : Kept (execIdeKmRequest stream switch s) :=
  .ite h.noEffect (.ite (.ite (State.Stored.effect h.same) h.noEffect) (State.Stored.effect h.same))

theorem execShootdownRequest_kept {pasid lo hi : Nat} (h : s.Stored) : Kept (execShootdownRequest pasid lo hi s) := by
  unfold execShootdownRequest
  dsimp only
  split
  · exact h.noEffect
  · exact State.Stored.effect h.same

theorem execShootdownArrival_kept {n cl : Nat} (h : s.Stored) : Kept (execShootdownArrival n cl s) := by
  unfold execShootdownArrival
  split
  · exact h.noEffect
  · exact .ite h.noEffect (State.Stored.effect (State.Stored.same h))

theorem execShootdownAck_kept {n cl : Nat} (h : s.Stored) : Kept (execShootdownAck n cl s) := by
  unfold execShootdownAck
  split
  · exact h.noEffect
  · exact .ite h.noEffect (State.Stored.effect h.same)

theorem execNearCopyInvalidate_kept {_die _part _line : Nat} (h : s.Stored) : Kept (execNearCopyInvalidate _die _part _line s) := h.effect

theorem execMemoryError_kept {place : MemPlace} {dirty : Bool} (h : s.Stored) : Kept (execMemoryError place dirty s) := by
  unfold execMemoryError
  split
  · exact h.noEffect
  split
  · exact State.Stored.effect (h.foldl fun _ _ h => h.poison)
  · exact h.noEffect
  · exact h.poison.effect

theorem execHostAccess_kept {x : HostIn} (h : s.Stored) : Kept (execHostAccess x s) := by
  cases x with
  | readHbm => exact h.effect
  | writeHbm => exact .ite h.land.effect h.noEffect
  | writeHost => exact h.land.effect

/-! ### Partitions and reset -/

theorem State.Stored.wipe {cl : Nat} (h : s.Stored) : (s.wipe cl).Stored := by
  unfold State.wipe
  extract_lets s1 s2
  have h1 : s1.Stored := h.foldl fun s i h =>
    ((Stored_clearBytes _ _ h).foldl fun _ _ => Stored_clearBytes _ _).foldl fun _ _ => State.zeroSet_stored _ _
  clear_value s1
  have h2 : s2.Stored := Stored_clearBytes _ _ (Stored_clearBytes _ _ h1)
  clear_value s2
  exact h2.same

theorem execPartitionForm_kept {p : PartSpec} (h : s.Stored) : Kept (execPartitionForm p s) := by
  unfold execPartitionForm
  extract_lets cs old others legal new0 new s1 s2
  have h1 : s1.Stored := by
    clear_value old
    unfold s1
    split
    · exact h.emptyKeys
    · exact h
  have h2 : s2.Stored := h1.foldl fun _ _ h => h.wipe.updCluster
  exact .ite h.noEffect (State.Stored.effect h2.same)

theorem execClusterMove_kept {cl : Nat} {dest : Option Nat} (h : s.Stored) : Kept (execClusterMove cl dest s) := by
  unfold execClusterMove
  extract_lets c known shape fits s1 gone s2 parts s3 s4
  have h3 : s3.Stored := State.Stored.same h.wipe.emptyKeys
  have h4 : s4.Stored := by
    clear_value s3
    unfold s4
    split
    · exact h3
    · exact h3.same
  exact .ite h.noEffect h4.updCluster.effect

theorem execReset_kept (h : s.Stored) : Kept (execReset s) := by
  obtain ⟨hm, _⟩ := h
  exact .next ⟨assocWf_filter _ hm, rfl⟩

/-! ### Coverage -/

theorem State.Stored.infillAsk {ji p part : Nat} {ops : List (Nat × RemoteOp)} {sent : Option Nat} {set : Nat → Skipped → Skipped} (h : s.Stored) :
    (s.infillAsk ji p part ops sent set).Keeps := by
  unfold State.infillAsk
  refine .ite .ready ?_
  split
  · split
    · exact .ready
    · exact .pending
  · split
    · exact .ready
    · exact .sent h.sendRemote.updPoint

theorem State.Stored.reportInfill {ji p : Nat} {j : Job} {a : Word} {sub : Nat} {write : Bool} (h : s.Stored) :
    (s.reportInfill ji p j a sub write).Stored := State.reportFault_stored _ _ _ _ _ _ _ _ _ h.updPoint

theorem State.Stored.coverageError {ji : Nat} {x : Skipped} (h : s.Stored) : (s.coverageError ji x).Stored := h.updPoint.updJob

theorem State.Stored.infillTile {ji : Nat} {j : Job} {x : Skipped} (h : s.Stored) : Kept (s.infillTile ji j x) := by
  unfold State.infillTile
  dsimp only
  refine .ite h.updPoint.effect ?_
  split
  · exact h.reportInfill.effect
  · exact h.reportInfill.effect
  refine .ite h.coverageError.effect ?_
  split
  · exact h.noEffect
  · exact (h.infillAsk.of_sent ‹_›).effect
  refine .ite h.coverageError.effect (.ite (State.Stored.effect (State.Stored.updPoint h.updJob)) ?_)
  split
  · exact h.noEffect
  · exact (h.infillAsk.of_sent ‹_›).effect
  · exact .ite h.coverageError.effect h.land.updPoint.effect

theorem State.Stored.mapWrite {ji : Nat} {j : Job} {x : Skipped} (h : s.Stored) : Kept (s.mapWrite ji j x) := by
  unfold State.mapWrite
  dsimp only
  split
  · exact h.reportInfill.effect
  refine .ite h.coverageError.effect ?_
  split
  · exact h.noEffect
  · exact (h.infillAsk.of_sent ‹_›).effect
  · exact .ite h.coverageError.effect h.land.updPoint.effect

theorem execInfill_kept {ji p : Nat} (h : s.Stored) : Kept (execInfill ji p s) := by
  unfold execInfill
  split
  · exact h.noEffect
  refine .ite h.noEffect ?_
  split
  · exact .ite h.noEffect (.ite (.ite h.infillTile h.noEffect) (.ite h.mapWrite h.noEffect))
  split
  · exact .ite h.mapWrite h.noEffect
  · exact h.noEffect

theorem execInfillFaultAnswer_kept {ji p : Nat} {resolved : Bool} (h : s.Stored) : Kept (execInfillFaultAnswer ji p resolved s) := by
  unfold execInfillFaultAnswer
  split
  · exact h.noEffect
  split
  · exact h.noEffect
  · exact .ite h.noEffect (State.Stored.effect (Stored_ite h.priAnswered.updPoint h.priAnswered.coverageError))

end Sys2Proof.Machine
end

section
/-! SUPPORT. Every instruction and event keeps the canonical forms. -/

namespace Sys2Proof.Machine

set_option Elab.async false

variable {s : State}

/-- By the instruction or event: an arm of `exec` is either a call of a shared operation or an operation with a lemma of its own. -/
theorem exec_kept {i : Instr} (h : s.Stored) : Kept (exec i s) := by
  unfold exec
  cases i with dsimp only
  | add | sub | mul | mulh | mulhn | div | divn | rem | remn | and | or | xor | shl | shr | sha | slt | sltn | min | max | minn | maxn => exact h.iop
  | clz | ctz | popc => exact h.iop1
  | sext | zext | addi | andi | ori | xori | shli | shri | shai | slti | sltni | li | lih | covq => exact h.compute
  | ldsS8 | ldsS16 | ldsS32 | ldsS64 | ldsN8 | ldsN16 | ldsN32 => exact h.lds
  | sts8 | sts16 | sts32 | sts64 => exact h.sts
  | amoAdd | amoAnd | amoOr | amoXor | amoMin | amoMax | amoMinn | amoMaxn | amoSwap | amoFadd => exact h.amo
  | cas => exact execCas_kept h
  | fence | fenceX => exact h.fencePaths
  | beq | bne | blt | bge | bltn | bgen => exact h.branch
  | jal => exact execJal_kept h
  | jalr => exact execJalr_kept h
  | loop => exact execLoop_kept h
  | brd => exact execBrd_kept h
  | join => exact execJoin_kept h
  | yield => exact execYield_kept h
  | nop => exact execNop_kept h
  | trap => exact execTrap_kept h
  | sysc => exact execSysc_kept h
  | brk => exact execBrk_kept h
  | rte => exact execRte_kept h
  | halt => exact execHalt_kept h
  | wfe => exact execWfe_kept h
  | claimv => exact execClaimv_kept h
  | rstv => exact execRstv_kept h
  | srr | lcuseSample => exact h.readSpecial
  | srw | lcmaskClear | wstatClear | classchgClear | wmodeWrite | specialRegisterWrite => exact h.srw
  | spawn | spawnf => exact h.spawn
  | exit => exact execExit_kept h
  | cont => exact execCont_kept h
  | lease => exact execLease_kept h
  | lrel => exact execLrel_kept h
  | lqry => exact execLqry_kept h
  | setvl => exact execSetvl_kept h
  | setvli => exact execSetvli_kept h
  | mode => exact execMode_kept h
  | space => exact execSpace_kept h
  | vadd | vsub | vmul | vdiv | vmin | vmax | vand | vor | vxor | vshl | vshr | vsha | vmulh | vabsd => exact h.vop
  | vfma | vfms | vfnma | vfnms => exact h.vfmaOp
  | vsqrt | vrcp | vrsq | vexp2 | vlog2 | vabs | vneg | vnot | vclass | vmov => exact h.vun
  | vbcast => exact execVbcast_kept h
  | viota => exact execViota_kept h
  | vcmpEq | vcmpNe | vcmpLt | vcmpLe | vcmpGt | vcmpGe | vcmpLtn | vcmpGen | vcmpUnord => exact h.vcmp
  | vcvt => exact execVcvt_kept h
  | vcvtq => exact execVcvtq_kept h
  | vcvtd => exact execVcvtd_kept h
  | vshfl => exact execVshfl_kept h
  | vslup => exact execVslup_kept h
  | vsldn => exact execVsldn_kept h
  | vcompr => exact execVcompr_kept h
  | vexpnd => exact execVexpnd_kept h
  | vextr => exact execVextr_kept h
  | vins => exact execVins_kept h
  | vsel => exact execVsel_kept h
  | vredSum | vredMax | vredMin | vredAnd | vredOr | vredXor | vredSumo => exact h.vred
  | mand | mor | mxor | mandn | mnot | mclr => exact h.maskOp
  | mcnt => exact execMcnt_kept h
  | mfirst => exact execMfirst_kept h
  | mtil | mtili | mset => exact h.maskElems
  | mmovs => exact execMmovs_kept h
  | mmovk => exact execMmovk_kept h
  | vld | vlds | vldx => exact h.vload
  | vldf => exact execVldf_kept h
  | vst | vsts | vstx => exact h.vstore
  | vamoAdd | vamoAnd | vamoOr | vamoXor | vamoMin | vamoMax | vamoMinn | vamoMaxn | vamoSwap | vamoFadd => exact h.vamo
  | sbind => exact execSbind_kept h
  | sunb => exact execSunb_kept h
  | sqry => exact execSqry_kept h
  | settile => exact execSettile_kept h
  | tileq => exact execTileq_kept h
  | oclaim => exact execOclaim_kept h
  | orls => exact execOrls_kept h
  | ofill => exact execOfill_kept h
  | oqry => exact execOqry_kept h
  | mma | mmas | mmaz => exact h.multiply
  | azero => exact execAzero_kept h
  | axt => exact execAxt_kept h
  | axts => exact execAxts_kept h
  | ains => exact execAins_kept h
  | asave => exact execAsave_kept h
  | aload => exact execAload_kept h
  | cpyA | cpyB | cpySt => exact h.cpyTile
  | cpyBox => exact execCpyBox_kept h
  | cpyO => exact execCpyO_kept h
  | cpySeal => exact execCpySeal_kept h
  | barInit => exact execBarInit_kept h
  | barArv | barExp => exact h.onMadeBar fun _ _ _ _ => h.arrive
  | barWait => exact execBarWait_kept h
  | barTry => exact execBarTry_kept h
  | barTrig => exact execBarTrig_kept h
  | waita | waitge => exact h.waitWord
  | notify => exact execNotify_kept h
  | rredAdd | rredMax | rredMin => exact h.rred
  | rsig => exact execRsig_kept h
  | plumbLdi | plumbMov | plumbAdd | plumbSub | plumbAnd | plumbOr | plumbXor | plumbShl | plumbShr | plumbCmpEq | plumbCmpNe | plumbCmpLtn
  | plumbCmpLt | plumbSel =>
    exact h.plumbSet
  | plumbBrf => exact execPlumbBrf_kept h
  | plumbLoopn => exact execPlumbLoopn_kept h
  | plumbRdtl => exact execPlumbRdtl_kept h
  | plumbWrtl => exact execPlumbWrtl_kept h
  | plumbWaittl => exact execPlumbWaittl_kept h
  | plumbRdm => exact execPlumbRdm_kept h
  | plumbWrm => exact execPlumbWrm_kept h
  | plumbEmit => exact execPlumbEmit_kept h
  | plumbEnd => exact execPlumbEnd_kept h
  | illegalInstructionWord => exact execIllegalInstructionWord_kept h
  | longLatencyWrite => exact execLongLatencyWrite_kept h
  | vectorFaultPoint => exact execVectorFaultPoint_kept h
  | asyncTrapTake => exact execAsyncTrapTake_kept h
  | parkedFaultResolve => exact execParkedFaultResolve_kept h
  | parkedFaultDecline => exact execParkedFaultDecline_kept h
  | streamFill => exact execStreamFill_kept h
  | streamTake => exact execStreamTake_kept h
  | tileGrantApply => exact execTileGrantApply_kept h
  | mmaDispatch => exact execMmaDispatch_kept h
  | mmaComplete => exact execMmaComplete_kept h
  | copyCompletion => exact execCopyCompletion_kept h
  | copyFaultAnswer => exact execCopyFaultAnswer_kept h
  | triggerRetry => exact execTriggerRetry_kept h
  | binTimerExpiry => exact execBinTimerExpiry_kept h
  | binBlockLaunch => exact execBinBlockLaunch_kept h
  | chunkDeal => exact execChunkDeal_kept h
  | pointLaunch => exact execPointLaunch_kept h
  | gangPlace => exact execGangPlace_kept h
  | gangAgeingExpiry => exact execGangAgeingExpiry_kept h
  | blockEnd => exact execBlockEnd_kept h
  | continuationStart => exact execContinuationStart_kept h
  | gangScratchRelease => exact execGangScratchRelease_kept h
  | clusterGate => exact execClusterGate_kept h
  | softError => exact execSoftError_kept h
  | preemptRequest => exact execPreemptRequest_kept h
  | resumeRequest => exact execResumeRequest_kept h
  | softDeadlineExpiry => exact execSoftDeadlineExpiry_kept h
  | copyGraceExpiry => exact execCopyGraceExpiry_kept h
  | imageComplete => exact execImageComplete_kept h
  | hardLimitExpiry => exact execHardLimitExpiry_kept h
  | capLower => exact execCapLower_kept h
  | capRaise => exact execCapRaise_kept h
  | leaseDecision => exact execLeaseDecision_kept h
  | leaseExpiry => exact execLeaseExpiry_kept h
  | meltfUpdate => exact execMeltfUpdate_kept h
  | energyIntervalEnd => exact execEnergyIntervalEnd_kept h
  | equotaSet => exact execEquotaSet_kept h
  | shootdownRequest => exact execShootdownRequest_kept h
  | shootdownArrival => exact execShootdownArrival_kept h
  | shootdownAck => exact execShootdownAck_kept h
  | nearCopyInvalidate => exact execNearCopyInvalidate_kept h
  | memoryError => exact execMemoryError_kept h
  | partitionForm => exact execPartitionForm_kept h
  | clusterMove => exact execClusterMove_kept h
  | codeObjectLoad => exact execCodeObjectLoad_kept h
  | contextCreate => exact execContextCreate_kept h
  | queueCreate => exact execQueueCreate_kept h
  | queueDelete => exact execQueueDelete_kept h
  | queueClear => exact execQueueClear_kept h
  | plumbProgramLoad => exact execPlumbProgramLoad_kept h
  | doorbell => exact execDoorbell_kept h
  | packetFetch => exact execPacketFetch_kept h
  | queueMemoryFaultAnswer => exact execQueueMemoryFaultAnswer_kept h
  | packetJob => exact execPacketJob_kept h
  | packetCopy => exact execPacketCopy_kept h
  | packetTlwait => exact execPacketTlwait_kept h
  | packetTlset => exact execPacketTlset_kept h
  | packetPlumb => exact execPacketPlumb_kept h
  | packetFence => exact execPacketFence_kept h
  | packetNop => exact execPacketNop_kept h
  | jobComplete => exact execJobComplete_kept h
  | copyPacketComplete => exact execCopyPacketComplete_kept h
  | timelineSignal => exact execTimelineSignal_kept h
  | servicePost => exact execServicePost_kept h
  | serviceDoorbell => exact execServiceDoorbell_kept h
  | getVersion | getCapabilities | negotiateAlgorithms | getDigests | getCertificate | challenge | keyExchange | finish | keyUpdate | heartbeat
  | endSession =>
    exact h.spdmReply
  | getMeasurements => exact execGetMeasurements_kept h
  | keyinst => exact execKeyinst_kept h
  | keydel => exact execKeydel_kept h
  | pasidTeardown => exact execPasidTeardown_kept h
  | teardownComplete => exact execTeardownComplete_kept h
  | tdiStop => exact execTdiStop_kept h
  | deviceNumberAssign => exact execDeviceNumberAssign_kept h
  | bindingInstall => exact execBindingInstall_kept h
  | routeTableWrite => exact execRouteTableWrite_kept h
  | flitCrcError => exact execFlitCrcError_kept h
  | portRetrain => exact execPortRetrain_kept h
  | portDown => exact execPortDown_kept h
  | remoteRequestTimeout => exact execRemoteRequestTimeout_kept h
  | remoteRequest => exact execRemoteRequest_kept h
  | rredApply => exact execRredApply_kept h
  | rsigApply => exact execRsigApply_kept h
  | remoteResponse => exact execRemoteResponse_kept h
  | infill => exact execInfill_kept h
  | infillFaultAnswer => exact execInfillFaultAnswer_kept h
  | comparatorHit => exact execComparatorHit_kept h
  | debugHaltRequest => exact execDebugHaltRequest_kept h
  | debugResume => exact execDebugResume_kept h
  | debugPortWrite => exact execDebugPortWrite_kept h
  | debugArm => exact execDebugArm_kept h
  | debugPin => exact execDebugPin_kept h
  | loopRegisterWrite => exact execLoopRegisterWrite_kept h
  | comparatorRegisterWrite => exact execComparatorRegisterWrite_kept h
  | traceRegisterWrite => exact execTraceRegisterWrite_kept h
  | reset => exact execReset_kept h
  | hostAccess => exact execHostAccess_kept h
  | clockChange => exact execClockChange_kept h
  | hostLinkTrain => exact execHostLinkTrain_kept h
  | portTrain => exact execPortTrain_kept h
  | portAssign => exact execPortAssign_kept h
  | bindingRemove => exact execBindingRemove_kept h
  | datumFirmwareUpdate => exact execDatumFirmwareUpdate_kept h
  | tdiEnterRun => exact execTdiEnterRun_kept h
  | ideKmRequest => exact execIdeKmRequest_kept h
  | faultRingSetup => exact execFaultRingSetup_kept h

end Sys2Proof.Machine
end

section
/-! SUPPORT. Fetches, issue slots, the device's own events and turns keep the canonical forms, and so does every step. -/

namespace Sys2Proof.Machine

set_option Elab.async false

variable {s : State}

/-! ### Fetches and issue slots -/

theorem State.Stored.dropLine {cl key : Nat} (h : s.Stored) : (s.dropLine cl key).Stored := h.updCluster

theorem State.Stored.keepCode {cl key : Nat} {l : List IWord} (h : s.Stored) : (s.keepCode cl key l).Stored := h.updCluster

theorem State.Stored.buffer {wi si : Nat} {pc : Word} {l : List IWord} (h : s.Stored) : (s.buffer wi si pc l).Stored := h.updWave

theorem State.Stored.fetch {wi si : Nat} {w : Wave} {sp : Split} (h : s.Stored) : (s.fetch wi si w sp).Keeps := by
  unfold State.fetch
  split
  · exact .word h.buffer
  dsimp only
  split
  · exact .trap h
  split
  · exact .trap h
  split
  · exact .trap h
  · split
    · exact .trap h.dropLine
    · exact .word h.dropLine.fillTlb.keepCode.buffer
  split
  · exact .pending
  · exact .sent (h.lookRemote.of_sent ‹_›)
  split
  · exact .trap h.looked
  split
  · exact .trap h.looked
  · exact .word h.looked.buffer

theorem State.Stored.serve {w : Wave} (h : s.Stored) : (s.serve w).Stored := h.unless (·.updVFile)

theorem State.Stored.issueSplit {wi si : Nat} {w : Wave} {sp : Split} (h : s.Stored) : (s.issueSplit wi si w sp).Keeps := by
  unfold State.issueSplit
  refine .ite (.outcome (execAsyncTrapTake_kept h)) (.ite (.outcome (.next h.stall)) ?_)
  extract_lets t
  have h : t.Stored := State.Stored.serve h.same
  have k := h.fetch (wi := wi) (si := si) (w := w) (sp := sp)
  generalize t.fetch wi si w sp = r at k ⊢
  cases k with
  | pending => exact .outcome (.next h.stall)
  | sent h => exact .outcome (.next h.stall)
  | trap h' => exact .outcome (.next (State.trapOr_stored _ _ _ _ _ _ h h'))
  | word h =>
    dsimp only
    split
    · exact .ite (.run h) (.outcome (.next h.stall))
    · exact .outcome (execIllegalInstructionWord_kept h)

theorem State.Stored.issueWave {run : Instr → State → Out State} {wi : Nat} {w : Wave} (h : s.Stored) : (s.issueWave run wi w).Keeps := by
  unfold State.issueWave
  split
  · exact .outcome (.ite (execAsyncTrapTake_kept h) (.next h))
  split
  · exact .outcome (.next (State.trapOr_stored _ _ _ _ _ _ h h))
  · exact .ite h.issueSplit (.outcome (execComparatorHit_kept h))

theorem State.Stored.issueCore {run : Instr → State → Out State} {core : Nat} (h : s.Stored) : (s.issueCore run core).Keeps := by
  unfold State.issueCore
  split
  · exact .outcome (.next h)
  split
  · exact .outcome (.next h)
  · exact h.issueWave

theorem State.Stored.issueOne {run : Instr → State → Out State} {wi : Nat} (h : s.Stored) : (s.issueOne run wi).Keeps := by
  unfold State.issueOne
  split
  · exact .outcome (.next h)
  · exact .ite h.issueWave (.outcome (.next h))

/-! ### The device's own events -/

theorem State.Stored.startPacket {qi : Nat} (h : s.Stored) : Kept (s.startPacket qi) := by
  unfold State.startPacket
  split
  · exact h.noEffect
  split
  · exact execPacketJob_kept h
  · exact execPacketCopy_kept h
  · exact execPacketTlwait_kept h
  · exact execPacketTlset_kept h
  · exact execPacketPlumb_kept h
  · exact execPacketFence_kept h
  · exact execPacketNop_kept h

/-- Every meaning in a list keeps the canonical forms. -/
def AllKeep (l : List (State → Out State)) : Prop := ∀ f ∈ l, ∀ s : State, s.Stored → Kept (f s)

theorem AllKeep.append {l r : List (State → Out State)} : AllKeep (l ++ r) ↔ AllKeep l ∧ AllKeep r := List.forall_mem_append

theorem AllKeep.map {α : Type} {l : List α} {f : α → State → Out State} (h : ∀ (x : α) (s : State), s.Stored → Kept (f x s)) : AllKeep (l.map f) :=
  List.forall_mem_map.2 fun x _ => h x

theorem AllKeep.flatMap {α : Type} {l : List α} {f : α → List (State → Out State)} (h : ∀ x, AllKeep (f x)) : AllKeep (l.flatMap f) :=
  List.forall_mem_flatMap.2 fun x _ => h x

theorem AllKeep.firstOf {l : List (State → Out State)} (hl : AllKeep l) (h : s.Stored) : Kept (firstOf s l) := by
  induction l with
  | nil => exact .next h
  | cons f r ih =>
    have k := hl f List.mem_cons_self s h
    have ih := ih fun g hg => hl g (List.mem_cons_of_mem f hg)
    unfold Machine.firstOf
    generalize f s = o at k ⊢
    cases k with
    | next h => exact .ite ih (.next h)
    | fault => exact .fault
    | refused => exact .refused

theorem State.ownEvents_keep (s : State) : AllKeep s.ownEvents := by
  unfold State.ownEvents
  simp only [AllKeep.append, and_assoc]
  exact ⟨.map fun _ _ => execLongLatencyWrite_kept, .map fun _ _ => execVectorFaultPoint_kept,
    .flatMap fun _ => .flatMap fun _ => List.forall_mem_cons.2 ⟨fun _ => execStreamTake_kept, List.forall_mem_singleton.2 fun _ => execStreamFill_kept⟩,
    .map fun _ _ => execTileGrantApply_kept, .map fun _ _ => execMmaComplete_kept, .map fun _ _ => execMmaDispatch_kept,
    .map fun _ _ => execRredApply_kept, .map fun _ _ => execRsigApply_kept, .map fun _ _ => execCopyCompletion_kept,
    .map fun _ _ => execCopyPacketComplete_kept, .map fun _ _ => execLeaseDecision_kept, .map fun _ _ => execLeaseExpiry_kept,
    .map fun _ _ => execImageComplete_kept, .map fun _ _ => execCopyGraceExpiry_kept, .map fun _ _ => execSoftDeadlineExpiry_kept,
    .map fun _ _ => execHardLimitExpiry_kept, .map fun _ _ => execTeardownComplete_kept, .map fun _ _ => execServicePost_kept,
    .map fun _ _ => execBlockEnd_kept, .map fun _ _ => execContinuationStart_kept, .map fun _ _ => execGangScratchRelease_kept,
    .map fun _ _ => execTriggerRetry_kept, .flatMap fun _ => .map fun _ _ => execBinTimerExpiry_kept, .map fun _ _ => execBinBlockLaunch_kept,
    .map fun _ _ => execPointLaunch_kept, .map fun _ _ => execGangPlace_kept, .map fun _ _ => execGangAgeingExpiry_kept,
    .flatMap fun _ => .map fun _ _ => execChunkDeal_kept, .flatMap fun _ => .map fun _ _ => execInfill_kept,
    .flatMap fun _ => .map fun _ _ => execInfill_kept, .map fun _ _ => execJobComplete_kept, .map fun _ _ => execTimelineSignal_kept,
    .map fun _ _ => State.Stored.startPacket, .map fun _ _ => execPacketFetch_kept, .flatMap fun _ => .map fun _ _ => execShootdownArrival_kept,
    .flatMap fun _ => .map fun _ _ => execShootdownAck_kept, .map fun _ _ => execRemoteRequestTimeout_kept⟩

theorem State.Stored.ownEvent (h : s.Stored) : Kept (s.ownEvent) :=
  s.ownEvents_keep.firstOf h

/-! ### Turns and time -/

theorem State.Stored.begin (h : s.Stored) : (s.begin).Stored := State.Stored.same h.listen.rebin.overdue

theorem State.Stored.pass {ns : Nat} {withheld : Nat → Bool} (h : s.Stored) : (s.pass ns withheld).Stored := h.same

theorem State.Stored.nextTurn {run : Instr → State → Out State} (h : s.Stored) : (s.nextTurn run).Keeps := by
  unfold State.nextTurn
  split
  · exact .turn h.same
  split
  · exact .turn h.same
  split
  · exact .own h.same
  split
  · exact .turn h.same
  · exact .own h.same

theorem Kept.timed {run : Instr → State → Out State} {o : Out State} (h : Kept o) : Kept (s.timed run o) := by
  cases h with
  | next h => exact .next h.pass
  | fault => exact .fault
  | refused => exact .refused

theorem State.Stored.debit {t : State} {core wi : Nat} {mem : Bool} (h : s.Stored) : (t.debit s core wi mem).Stored := h.unless (·.updCluster)

theorem State.Stored.countLanes {t : State} {run : Instr → State → Out State} {core : Nat} {ran : Option Nat} {clears : Bool} (h : s.Stored) :
    (t.countLanes s run core ran clears).Stored := by
  refine h.foldl fun _ _ h => ?_
  split
  · exact h
  · exact h.unless fun h => h.unless fun h => Stored_ite h.addLanes h.addLanes

theorem Kept.slotDone {run : Instr → State → Out State} {core : Nat} {ran : Option Nat} {i : Option Instr} {o : Out State} (h : Kept o) :
    Kept (s.slotDone run core ran i o) := by
  cases h with
  | next h =>
    unfold State.slotDone
    refine Kept.timed (.next (State.Stored.countLanes ?_))
    split
    · exact h.debit
    · exact h
  | fault => exact .fault
  | refused => exact .refused

/-! ### A step -/

/-- The instruction in an issue slot is carried out and accounted for, or the slot's outcome is. -/
theorem step_kept (h : s.Stored) : Kept (step s) := by
  unfold step
  have k := h.begin.nextTurn (run := exec)
  generalize s.begin.nextTurn exec = n at k ⊢
  cases k with
  | own h => exact h.ownEvent.timed
  | @turn s t h =>
    cases t with
    | event i => exact (exec_kept h).timed
    | message fn i => exact Kept.timed (exec_kept h.same)
    | idle cl ns => exact Kept.timed (.next h.setIdle)
    | core n =>
      have k := h.issueCore (run := exec) (core := n)
      dsimp only
      generalize s.issueCore exec n = r at k ⊢
      cases k with
      | run h => exact (exec_kept h).slotDone
      | outcome h => exact h.slotDone
    | wave n =>
      have k := h.issueOne (run := exec) (wi := n)
      dsimp only
      generalize s.issueOne exec n = r at k ⊢
      cases k with
      | run h => exact (exec_kept h).slotDone
      | outcome h => exact h.slotDone
    | plumb n =>
      dsimp only
      split
      · exact Kept.timed (.next h)
      · exact Kept.timed (exec_kept h.same)

/-- Settles O58: memory and accumulators are written by few operations, each of which keeps the canonical forms (`Stored_writeBytes`, `State.zeroSet_stored`
and their like), and everything else that a step does leaves both alone. -/
theorem stepKeepsStorage : Obligations.StepKeepsStorage := by
  unfold Obligations.StepKeepsStorage
  intro s s' hm ha e
  exact (step_kept ⟨hm, ha⟩).of_next e

end Sys2Proof.Machine
end

section
/-! SUPPORT. The converse of the round trip (spec/01 R15 to R23, spec/18 R367): a word that decodes is the word of its instruction. A word is compared with what the
encoder writes as a number, field by field from the low end. -/

namespace Sys2Proof.Laws.RoundTrip

open Sys2Proof

set_option Elab.async false

/-! ### Words as numbers -/

theorem toNat_append {m n : Nat} (x : BitVec m) (y : BitVec n) : (x ++ y).toNat = 2 ^ n * x.toNat + y.toNat := by
  rw [BitVec.toNat_append, ← Nat.shiftLeft_add_eq_or_of_lt y.isLt, Nat.shiftLeft_eq, Nat.mul_comm]

/-- An appended word is a number from bit `lo` up when its lower part is the field there and its upper part is the number above that field. -/
theorem toNat_append_eq_iff {m k : Nat} {x : BitVec m} {y : BitVec k} {n lo : Nat} :
    (x ++ y).toNat = n / 2 ^ lo ↔ x.toNat = n / 2 ^ (lo + k) ∧ y.toNat = n / 2 ^ lo % 2 ^ k := by
  rw [toNat_append, Nat.pow_add, ← Nat.div_div_eq_div_mul]
  constructor
  · intro e
    rw [← e, Nat.mul_add_div (Nat.two_pow_pos k), Nat.div_eq_of_lt y.isLt, Nat.mul_add_mod, Nat.mod_eq_of_lt y.isLt]
    exact ⟨rfl, rfl⟩
  · rintro ⟨hx, hy⟩
    rw [hx, hy, Nat.div_add_mod]

theorem toNat_field {n : Nat} (lo k : Nat) (z : BitVec n) : (z.extractLsb' lo k).toNat = z.toNat / 2 ^ lo % 2 ^ k := by
  rw [BitVec.extractLsb'_toNat, Nat.shiftRight_eq_div_pow]

theorem field_eq_zero_iff {w : Nat} (z : BitVec w) (lo n : Nat) : (z.extractLsb' lo n == 0#n) = true ↔ z.toNat / 2 ^ lo % 2 ^ n = 0 := by
  rw [beq_iff_eq, ← BitVec.toNat_inj, toNat_field, BitVec.toNat_ofNat, Nat.zero_mod]

theorem mbz_iff (z : IWord) (lo n : Nat) : mbz z lo n = true ↔ z.toNat / 2 ^ lo % 2 ^ n = 0 := field_eq_zero_iff z lo n

theorem mbzP_iff (z : BitVec 16) (lo n : Nat) : mbzP z lo n = true ↔ z.toNat / 2 ^ lo % 2 ^ n = 0 := field_eq_zero_iff z lo n

/-- A word is another whose number from bit 0 up it is. -/
theorem eq_of_toNat_eq_div {n : Nat} {e z : BitVec n} (h : e.toNat = z.toNat / 2 ^ 0) : e = z := BitVec.eq_of_toNat_eq (h.trans (Nat.div_one _))

/-! ### Wave instruction words -/

/-- What the decoder answers for `z`, if an instruction, is a well-formed one whose word is `z`. -/
def Own (z : IWord) (r : Decoded) : Prop := ∀ i, r = .instr i → encodeWord i = some z ∧ wf i = true

theorem own_illegal {z : IWord} {why : Reject} {need : Priv} : Own z (.illegal why need) := fun _ h => nomatch h

/-- The last check of R23 (at any level) answers with the word's own instruction: the fields of the word the encoder writes are those the decoder read, and the constant
ones are the major, the function value and the must-be-zero fields, which are linear facts about the number of the word. -/
theorem own_legalS {z e : IWord} {need : Priv} {zeros : Bool} {i : Instr} (he : encodeWord i = some e := by rfl)
    (h : zeros = true → e.toNat = z.toNat / 2 ^ 0 := by
      intro
      simp only [toNat_append_eq_iff, fd, fa, fb, fx, fc, imm16, n12, off13, BitVec.toNat_ofNat]
      simp only [toNat_field, mbz_iff, Bool.and_eq_true, Nat.reduceAdd, and_true, true_and] at *
      omega) :
    Own z (legalS need zeros i) := by
  intro j hj
  unfold legalS at hj
  split at hj
  case isTrue hc =>
    obtain ⟨hz, hw⟩ := Bool.and_eq_true_iff.1 hc
    cases hj
    exact ⟨he.trans (congrArg some (eq_of_toNat_eq_div (h hz))), hw⟩
  case isFalse => cases hj

/-- The scalar and control groups. -/
theorem own_of_scalarMajor {z : IWord} {n : Nat} (m : z.toNat / 2 ^ 26 = n) (h : n ≤ 31) : Own z (decodeMajor z n) := by
  unfold decodeMajor
  split
  any_goals
    delta decodeMajor01 decodeMajor06 decodeMajor0B decodeMajor0C decodeMajor0D decodeMajor0E decodeMajor0F decodeMajor1A decodeMajor1B decodeMajor1C decodeMajor1D decodeMajor1E decodeMajor1F
    split
  any_goals split
  any_goals split
  any_goals exact own_illegal
  any_goals exact own_legalS
  all_goals omega

/-- The groups of vector arithmetic, masks and vector loads, and the leases. -/
theorem own_of_vectorMajor {z : IWord} {n : Nat} (m : z.toNat / 2 ^ 26 = n) (h : 32 ≤ n) (h' : n ≤ 42) : Own z (decodeMajor z n) := by
  unfold decodeMajor
  split
  any_goals
    delta decodeMajor20 decodeMajor21 decodeMajor22 decodeMajor23 decodeMajor24 decodeMajor25 decodeMajor26 decodeMajor27 decodeMajor28 decodeMajor29 decodeMajor2A
    split
  any_goals split
  any_goals split
  any_goals exact own_illegal
  any_goals exact own_legalS
  all_goals omega

/-- The groups of vector stores and atomics, streams, the matrix unit, copies, barriers and the fabric, and the majors that hold no instruction. -/
theorem own_of_matrixMajor {z : IWord} {n : Nat} (m : z.toNat / 2 ^ 26 = n) (h : 43 ≤ n) : Own z (decodeMajor z n) := by
  unfold decodeMajor
  split
  any_goals
    delta decodeMajor2B decodeMajor2C decodeMajor2D decodeMajor30 decodeMajor31 decodeMajor32 decodeMajor33 decodeMajor34 decodeMajor35 decodeMajor36 decodeMajor37 decodeMajor38
    split
  any_goals split
  any_goals split
  any_goals exact own_illegal
  any_goals exact own_legalS
  all_goals omega

theorem decodeWord_own (z : IWord) : Own z (decodeWord z) := by
  have m : z.toNat / 2 ^ 26 = (z.extractLsb' 26 6).toNat := by
    rw [toNat_field, Nat.mod_eq_of_lt]
    omega
  rcases Nat.lt_or_ge (z.extractLsb' 26 6).toNat 32 with h | h
  · exact own_of_scalarMajor m (by omega)
  rcases Nat.lt_or_ge (z.extractLsb' 26 6).toNat 43 with h' | h'
  · exact own_of_vectorMajor m h (by omega)
  · exact own_of_matrixMajor m h'

/-- Decoding inverts encoding, constructor by constructor. -/
theorem decodeWord_of_encodeWord (i : Instr) : Statement i :=
  @Instr.rec Statement
    add sub mul mulh mulhn div divn rem remn and or xor shl shr sha slt sltn min max minn maxn clz ctz popc sext zext addi andi ori xori shli shri
    shai slti sltni li lih ldsS8 ldsS16 ldsS32 ldsS64 ldsN8 ldsN16 ldsN32 sts8 sts16 sts32 sts64 amoAdd amoAnd amoOr amoXor amoMin amoMax amoMinn
    amoMaxn amoSwap amoFadd cas fence fenceX beq bne blt bge bltn bgen jal jalr loop brd join yield nop trap sysc brk rte halt wfe claimv rstv srr srw
    spawn spawnf exit cont lease lrel lqry setvl setvli mode space vadd vsub vmul vdiv vmin vmax vand vor vxor vshl vshr vsha vmulh vabsd vfma vfms
    vfnma vfnms vsqrt vrcp vrsq vexp2 vlog2 vabs vneg vnot vclass vmov vbcast viota vcmpEq vcmpNe vcmpLt vcmpLe vcmpGt vcmpGe vcmpLtn vcmpGen
    vcmpUnord vcvt vcvtq vcvtd vshfl vslup vsldn vcompr vexpnd vextr vins vsel vredSum vredMax vredMin vredAnd vredOr vredXor vredSumo mand mor mxor
    mandn mnot mcnt mfirst mtil mtili mset mclr mmovs mmovk vld vlds vldx vldf vst vsts vstx vamoAdd vamoAnd vamoOr vamoXor vamoMin vamoMax vamoMinn
    vamoMaxn vamoSwap vamoFadd sbind sunb sqry settile tileq oclaim orls ofill oqry mma mmas mmaz azero axt axts ains asave aload cpyA cpyB cpySt
    cpyBox cpyO cpySeal barInit barArv barExp barWait barTry barTrig waita waitge notify rredAdd rredMax rredMin rsig covq plumbLdi plumbMov plumbAdd
    plumbSub plumbAnd plumbOr plumbXor plumbShl plumbShr plumbCmpEq plumbCmpNe plumbCmpLtn plumbCmpLt plumbSel plumbBrf plumbLoopn plumbRdtl plumbWrtl
    plumbWaittl plumbRdm plumbWrm plumbEmit plumbEnd illegalInstructionWord longLatencyWrite vectorFaultPoint asyncTrapTake parkedFaultResolve
    parkedFaultDecline streamFill streamTake tileGrantApply mmaDispatch mmaComplete copyCompletion copyFaultAnswer triggerRetry binTimerExpiry
    binBlockLaunch chunkDeal pointLaunch gangPlace gangAgeingExpiry blockEnd continuationStart gangScratchRelease clusterGate softError preemptRequest
    resumeRequest softDeadlineExpiry copyGraceExpiry imageComplete hardLimitExpiry capLower capRaise leaseDecision leaseExpiry meltfUpdate
    energyIntervalEnd equotaSet shootdownRequest shootdownArrival shootdownAck nearCopyInvalidate memoryError partitionForm clusterMove codeObjectLoad
    contextCreate queueCreate queueDelete queueClear plumbProgramLoad doorbell packetFetch queueMemoryFaultAnswer packetJob packetCopy packetTlwait
    packetTlset packetPlumb packetFence packetNop jobComplete copyPacketComplete timelineSignal servicePost serviceDoorbell getVersion getCapabilities
    negotiateAlgorithms getDigests getCertificate challenge getMeasurements keyExchange finish keyUpdate heartbeat endSession keyinst keydel
    pasidTeardown teardownComplete tdiStop deviceNumberAssign bindingInstall routeTableWrite flitCrcError portRetrain portDown remoteRequestTimeout
    remoteRequest rredApply rsigApply remoteResponse infill infillFaultAnswer comparatorHit debugHaltRequest debugResume debugPortWrite debugArm
    debugPin lcuseSample lcmaskClear wstatClear classchgClear wmodeWrite loopRegisterWrite comparatorRegisterWrite traceRegisterWrite
    specialRegisterWrite reset hostAccess clockChange hostLinkTrain portTrain portAssign bindingRemove datumFirmwareUpdate tdiEnterRun ideKmRequest
    faultRingSetup i

/-! ### Plumb words -/

section
variable {z : BitVec 16} {op f5 : BitVec 5} {a b c : BitVec 3} {f2 : BitVec 2} {n : BitVec 8}

theorem fields_5_3_8 (h : op ++ a ++ n = z) : z.extractLsb' 11 5 = op ∧ z.extractLsb' 8 3 = a ∧ z.extractLsb' 0 8 = n := by
  subst h
  simp (disch := decide) only [BitVec.extractLsb'_append_eq_of_le, BitVec.extractLsb'_append_eq_of_add_le, Nat.reduceSub, BitVec.extractLsb'_eq_self, and_self]
theorem fields_5_8_3 (h : op ++ n ++ a = z) : z.extractLsb' 11 5 = op ∧ z.extractLsb' 3 8 = n ∧ z.extractLsb' 0 3 = a := by
  subst h
  simp (disch := decide) only [BitVec.extractLsb'_append_eq_of_le, BitVec.extractLsb'_append_eq_of_add_le, Nat.reduceSub, BitVec.extractLsb'_eq_self, and_self]
theorem fields_5_3_3_5 (h : op ++ a ++ b ++ f5 = z) :
    z.extractLsb' 11 5 = op ∧ z.extractLsb' 8 3 = a ∧ z.extractLsb' 5 3 = b ∧ z.extractLsb' 0 5 = f5 := by
  subst h
  simp (disch := decide) only [BitVec.extractLsb'_append_eq_of_le, BitVec.extractLsb'_append_eq_of_add_le, Nat.reduceSub, BitVec.extractLsb'_eq_self, and_self]
theorem fields_5_3_3_3_2 (h : op ++ a ++ b ++ c ++ f2 = z) :
    z.extractLsb' 11 5 = op ∧ z.extractLsb' 8 3 = a ∧ z.extractLsb' 5 3 = b ∧ z.extractLsb' 2 3 = c ∧ z.extractLsb' 0 2 = f2 := by
  subst h
  simp (disch := decide) only [BitVec.extractLsb'_append_eq_of_le, BitVec.extractLsb'_append_eq_of_add_le, Nat.reduceSub, BitVec.extractLsb'_eq_self, and_self]

end

/-- What the decoder answers for the plumb word `w`, if an instruction, is the one whose word is `w`. -/
def OwnPlumb (w : BitVec 16) (r : Option Instr) : Prop := ∀ i, r = some i → encodePlumb i = some [w]

/-- The check of the reserved bits of a plumb word answers with the word's own instruction. -/
theorem ownPlumb_legalP {w e : BitVec 16} {zeros : Bool} {i : Instr} (he : encodePlumb i = some [e] := by rfl)
    (h : zeros = true → e.toNat = w.toNat / 2 ^ 0 := by
      intro
      simp only [toNat_append_eq_iff, BitVec.toNat_ofNat]
      simp only [toNat_field, mbzP_iff, Bool.and_eq_true, Nat.reduceAdd, and_true, true_and, imp_false] at *
      omega) :
    OwnPlumb w (legalP zeros i) := by
  intro j hj
  unfold legalP at hj
  split at hj
  case isTrue hz =>
    cases hj
    exact he.trans (congrArg (fun z => some [z]) (eq_of_toNat_eq_div (h hz)))
  case isFalse => cases hj

theorem plumbOne_own (w : BitVec 16) : OwnPlumb w (decodePlumb.plumbOne w) := by
  unfold decodePlumb.plumbOne
  split
  any_goals split
  any_goals exact ownPlumb_legalP
  exact fun _ h => nomatch h

/-- The first word of a LOOPN that decodes. -/
theorem loopn_word {w : BitVec 16} (hop : (w.extractLsb' 11 5).toNat = 13) (hz : mbzP w 0 3 = true) : 13#5 ++ w.extractLsb' 3 8 ++ 0#3 = w := by
  refine eq_of_toNat_eq_div ?_
  simp only [toNat_append_eq_iff, BitVec.toNat_ofNat]
  simp only [toNat_field, mbzP_iff, Nat.reduceAdd, and_true] at *
  omega

theorem encodePlumb_of_decodePlumb {i : Instr} {ws : List (BitVec 16)} (h : decodePlumb ws = some i) :
    ∃ e rest, encodePlumb i = some e ∧ ws = e ++ rest := by
  unfold decodePlumb at h
  split at h
  case h_1 => cases h
  case h_2 w rest =>
    split at h
    case isFalse => exact ⟨[w], rest, plumbOne_own w i h, rfl⟩
    case isTrue hop =>
      split at h
      case h_1 => cases h
      case h_2 l rest =>
        unfold legalP at h
        split at h
        case isFalse => cases h
        case isTrue hz =>
          cases h
          exact ⟨[w, l], rest, congrArg (fun w => some [w, l]) (loopn_word hop hz), rfl⟩

/-- The words of a plumb instruction decode to it: the fields of its layout, then the row of its operation. -/
theorem decodePlumb_of_encodePlumb {i : Instr} {z : BitVec 16} {l : List (BitVec 16)} (h : encodePlumb i = some (z :: l)) (rest : List (BitVec 16)) :
    decodePlumb (z :: (l ++ rest)) = some i := by
  cases i
  any_goals
    cases h
    done
  all_goals obtain ⟨hz, rfl⟩ := List.cons.inj (Option.some.inj h)
  case plumbEnd =>
    subst hz
    rfl
  case plumbLdi | plumbBrf =>
    obtain ⟨f0, f1, f2⟩ := fields_5_3_8 hz
    simp [decodePlumb, decodePlumb.plumbOne, legalP, f0, f1, f2]
  case plumbLoopn =>
    obtain ⟨f0, f1, f2⟩ := fields_5_8_3 hz
    simp [decodePlumb, legalP, mbzP, f0, f1, f2]
  case plumbMov | plumbRdtl | plumbRdm | plumbWrm =>
    obtain ⟨f0, f1, f2, f3⟩ := fields_5_3_3_5 hz
    simp [decodePlumb, decodePlumb.plumbOne, legalP, mbzP, f0, f1, f2, f3]
  case plumbWrtl =>
    obtain ⟨f0, f1, f2, f3⟩ := fields_5_3_3_5 (op := 15#5) (a := 0#3) hz
    simp [decodePlumb, decodePlumb.plumbOne, legalP, mbzP, f0, f1, f2, f3]
  case plumbEmit =>
    obtain ⟨f0, f1, f2, f3⟩ := fields_5_3_3_5 (op := 19#5) (a := 0#3) hz
    simp [decodePlumb, decodePlumb.plumbOne, legalP, mbzP, f0, f1, f2, f3]
  case plumbWaittl =>
    obtain ⟨f0, f1, f2, f3, f4⟩ := fields_5_3_3_3_2 (op := 16#5) (a := 0#3) hz
    simp [decodePlumb, decodePlumb.plumbOne, legalP, mbzP, f0, f1, f2, f3, f4]
  all_goals
    obtain ⟨f0, f1, f2, f3, f4⟩ := fields_5_3_3_3_2 hz
    simp [decodePlumb, decodePlumb.plumbOne, legalP, mbzP, f0, f1, f2, f3, f4]

theorem encodePlumb_ne_nil {i : Instr} : encodePlumb i ≠ some [] := by
  cases i <;> exact fun h => nomatch h

/-- Settles O55: one direction by a lemma for each constructor, the other by comparing a word with what the encoder writes, field by field. -/
theorem wordsRoundTrip : Obligations.WordsRoundTrip := by
  unfold Obligations.WordsRoundTrip
  refine ⟨decodeWord_of_encodeWord, fun i z => decodeWord_own z i, fun i ws rest h => ?_, fun i ws => encodePlumb_of_decodePlumb⟩
  cases ws with
  | nil => exact absurd h encodePlumb_ne_nil
  | cons z l => exact decodePlumb_of_encodePlumb h rest

end Sys2Proof.Laws.RoundTrip
end

section
/-! SUPPORT. Words written out, and words that are no instruction (spec/01 R15 to R23, spec/18 R367). -/

namespace Sys2Proof.Laws.RoundTrip

open Sys2Proof

/-! ### Words of instructions -/

/-- A word with the number of an instruction's word decodes to it. -/
theorem decodeWord_of_toNat {i : Instr} {e z : IWord} (hd : Statement i) (he : encodeWord i = some e) (h : e.toNat = z.toNat) (hw : wf i = true) : decodeWord z = .instr i :=
  hd z (he.trans (congrArg some (BitVec.eq_of_toNat_eq h))) hw

/-- A word of each group, its fields written one by one. -/
theorem words_decode (d a b c : Reg) (x : BitVec 1) (k : BitVec 3) (q : BitVec 2) (i : BitVec 16) (u : BitVec 21) (o : BitVec 13) (n : BitVec 12) (j : BitVec 26) :
     decodeWord (0x01#6 ++ d ++ a ++ b ++ x ++ 1#5 ++ 0#5) = .instr (.sub d a b x)
     ∧ decodeWord (0x02#6 ++ d ++ a ++ i) = .instr (.addi d a i)
     ∧ decodeWord (0x0A#6 ++ d ++ u) = .instr (.lih d u)
     ∧ decodeWord (0x0B#6 ++ d ++ a ++ 5#3 ++ o) = .instr (.ldsN16 d a o)
     ∧ decodeWord (0x0C#6 ++ d ++ a ++ 3#3 ++ o) = .instr (.sts64 d a o)
     ∧ decodeWord (0x13#6 ++ a ++ b ++ i) = .instr (.bge a b i)
     ∧ decodeWord (0x16#6 ++ j) = .instr (.jal j)
     ∧ decodeWord (0x19#6 ++ 0#2 ++ k ++ 0#5 ++ i) = .instr (.brd k i)
     ∧ decodeWord (0x1C#6 ++ d ++ 0#5 ++ 0#4 ++ n) = .instr (.srr d n)
     ∧ decodeWord (0x22#6 ++ d ++ a ++ b ++ x ++ 13#5 ++ 0#5) = .instr (.vabsd d a b x)
     ∧ decodeWord (0x23#6 ++ d ++ a ++ b ++ x ++ 3#5 ++ c) = .instr (.vfnms d a b x c)
     ∧ decodeWord (0x29#6 ++ 0#2 ++ k ++ 0#2 ++ k ++ 0#2 ++ k ++ 0#1 ++ 3#5 ++ 0#5) = .instr (.mandn k k k)
     ∧ decodeWord (0x2A#6 ++ d ++ a ++ b ++ 0#1 ++ 2#5 ++ 0#5) = .instr (.vldx d a b)
     ∧ decodeWord (0x2D#6 ++ d ++ a ++ 0#4 ++ 0#12) = .instr (.sbind d a)
     ∧ decodeWord (0x32#6 ++ 0#3 ++ q ++ a ++ b ++ x ++ 2#5 ++ 0#5) = .instr (.mmaz q a b x)
     ∧ decodeWord (0x34#6 ++ d ++ a ++ b ++ 0#1 ++ 3#5 ++ c) = .instr (.cpyBox d a b 0 c)
     ∧ decodeWord (0x35#6 ++ 0#5 ++ a ++ b ++ 0#1 ++ 3#5 ++ 0#5) = .instr (.barWait a b)
     ∧ decodeWord (0x37#6 ++ 0#5 ++ a ++ b ++ 0#1 ++ 1#5 ++ 0#5) = .instr (.rsig a b) := by
  refine ⟨decodeWord_of_toNat (sub d a b x) rfl ?_ rfl, addi d a i _ rfl rfl, lih d u _ rfl rfl, ldsN16 d a o _ rfl rfl, sts64 d a o _ rfl rfl, bge a b i _ rfl rfl,
    jal j _ rfl rfl, brd k i _ rfl rfl, decodeWord_of_toNat (srr d n) rfl ?_ rfl, decodeWord_of_toNat (vabsd d a b x) rfl ?_ rfl, vfnms d a b x c _ rfl rfl,
    decodeWord_of_toNat (mandn k k k) rfl ?_ rfl, decodeWord_of_toNat (vldx d a b) rfl ?_ rfl, decodeWord_of_toNat (sbind d a) rfl ?_ rfl,
    decodeWord_of_toNat (mmaz q a b x) rfl ?_ rfl, cpyBox d a b 0 c _ rfl rfl, decodeWord_of_toNat (barWait a b) rfl ?_ rfl,
    decodeWord_of_toNat (rsig a b) rfl ?_ rfl⟩
  all_goals
    simp only [toNat_append, BitVec.toNat_ofNat]
    omega

/-- The manual's own words (spec/01 R31, spec/18). -/
theorem manual_words_decode : decodeWord 0x25200051#32 = .instr (.li 9 81) ∧ decodeWord 0x84092000#32 = .instr (.mode 0 9)
   ∧ decodePlumb [0x8004] = some (.plumbWaittl 0 1) ∧ decodePlumb [0x9840] = some (.plumbEmit 2) ∧ decodePlumb [0x6301] = some (.plumbBrf 3 1)
   ∧ decodePlumb [0xA000] = some .plumbEnd := by decide

/-! ### Fields of the layouts that hold illegal values -/

section
variable {z : IWord}
theorem fields_6_10_4_12 {m : BitVec 6} {y : BitVec 10} {f : BitVec 4} {n : BitVec 12} (h : m ++ y ++ f ++ n = z) :
    z.extractLsb' 26 6 = m ∧ z.extractLsb' 16 10 = y ∧ z.extractLsb' 12 4 = f ∧ z.extractLsb' 0 12 = n := by
  subst h
  simp (disch := decide) only [BitVec.extractLsb'_append_eq_of_le, BitVec.extractLsb'_append_eq_of_add_le, Nat.reduceSub, BitVec.extractLsb'_eq_self, and_self]
theorem fields_6_5_5_2_14 {m : BitVec 6} {d a : Reg} {f : BitVec 2} {v : BitVec 14} (h : m ++ d ++ a ++ f ++ v = z) :
    z.extractLsb' 26 6 = m ∧ z.extractLsb' 14 2 = f := by
  subst h
  simp (disch := decide) only [BitVec.extractLsb'_append_eq_of_le, BitVec.extractLsb'_append_eq_of_add_le, Nat.reduceSub, BitVec.extractLsb'_eq_self, and_self]
theorem fields_6_10_4_6_1_2_3 {m : BitVec 6} {y : BitVec 10} {f : BitVec 4} {v : BitVec 6} {sq : BitVec 1} {od : BitVec 2} {scp : BitVec 3}
    (h : m ++ y ++ f ++ v ++ sq ++ od ++ scp = z) :
    z.extractLsb' 26 6 = m ∧ z.extractLsb' 12 4 = f ∧ z.extractLsb' 5 1 = sq ∧ z.extractLsb' 3 2 = od ∧ z.extractLsb' 0 3 = scp := by
  subst h
  simp (disch := decide) only [BitVec.extractLsb'_append_eq_of_le, BitVec.extractLsb'_append_eq_of_add_le, Nat.reduceSub, BitVec.extractLsb'_eq_self, and_self]
theorem fields_6_10_4_6_6 {m : BitVec 6} {y : BitVec 10} {f : BitVec 4} {v v' : BitVec 6} (h : m ++ y ++ f ++ v ++ v' = z) :
    z.extractLsb' 26 6 = m ∧ z.extractLsb' 12 4 = f ∧ z.extractLsb' 6 6 = v ∧ z.extractLsb' 0 6 = v' := by
  subst h
  simp (disch := decide) only [BitVec.extractLsb'_append_eq_of_le, BitVec.extractLsb'_append_eq_of_add_le, Nat.reduceSub, BitVec.extractLsb'_eq_self, and_self]
theorem fields_6_5_5_5_1_5_2_3 {m : BitVec 6} {d a b fn : Reg} {x : BitVec 1} {fm : BitVec 2} {op : BitVec 3} (h : m ++ d ++ a ++ b ++ x ++ fn ++ fm ++ op = z) :
    z.extractLsb' 26 6 = m ∧ z.extractLsb' 5 5 = fn ∧ z.extractLsb' 0 3 = op := by
  subst h
  simp (disch := decide) only [BitVec.extractLsb'_append_eq_of_le, BitVec.extractLsb'_append_eq_of_add_le, Nat.reduceSub, BitVec.extractLsb'_eq_self, and_self]
end

/-- What a word written out is rejected as is what any word with its fields is. -/
theorem of_word {e : IWord} {r : Decoded} (h : ∀ z, e = z → decodeWord z = r) : decodeWord e = r := h e rfl

/-! ### Rejected words -/

theorem decodeWord_append {m : BitVec 6} {low : BitVec 26} : decodeWord (m ++ low) = decodeMajor (m ++ low) m.toNat := by
  obtain ⟨f, -⟩ := fields_6_26 (m ++ low) rfl
  rw [decodeWord, f]

/-- R23: the major comes first. -/
theorem majors_rejected (low : BitVec 26) :
     decodeWord (0x00#6 ++ low) = .illegal .illegalWord .k
     ∧ (∀ m ∈ [0x2E#6, 0x2F#6, 0x39#6, 0x3A#6, 0x3B#6], decodeWord (m ++ low) = .illegal .unassignedMajor .k)
     ∧ ∀ m ∈ [0x3C#6, 0x3D#6, 0x3E#6, 0x3F#6], decodeWord (m ++ low) = .illegal .laterGeneration .k := by
  simp only [List.forall_mem_cons, decodeWord_append]
  refine ⟨rfl, ⟨rfl, rfl, rfl, rfl, rfl, fun _ h => ?_⟩, rfl, rfl, rfl, rfl, fun _ h => ?_⟩ <;> cases h


/-- R23: then the function value, then privilege and the must-be-zero fields. -/
theorem functions_rejected (d a b c : Reg) (x : BitVec 1) (fn : BitVec 5) (n : BitVec 12) :
     (26 ≤ fn.toNat → decodeWord (0x01#6 ++ d ++ a ++ b ++ x ++ fn ++ c) = .illegal .reservedFunction .k)
     ∧ (c ≠ 0 → decodeWord (0x01#6 ++ d ++ a ++ b ++ x ++ 0#5 ++ c) = .illegal .reservedField .k)
     ∧ (n ≠ 0 → decodeWord (0x1B#6 ++ 0#10 ++ 0#4 ++ n) = .illegal .reservedField .k)
     ∧ (n ≠ 0 → decodeWord (0x1B#6 ++ 0#10 ++ 4#4 ++ n) = .illegal .reservedField .h)
     ∧ (4 ≤ fn.toNat → decodeWord (0x2A#6 ++ d ++ a ++ b ++ x ++ fn ++ c) = .illegal .reservedFunction .k) := by
  refine ⟨fun h => of_word fun z hz => ?_, fun h => of_word fun z hz => ?_, fun h => of_word fun z hz => ?_, fun h => of_word fun z hz => ?_,
    fun h => of_word fun z hz => ?_⟩
  · obtain ⟨f0, -, -, -, -, f5, -⟩ := fields_6_5_5_5_1_5_5 z hz
    simp only [decodeWord, f0, BitVec.reduceToNat, decodeMajor, f5]
    unfold decodeMajor01
    split
    any_goals omega
    rfl
  · obtain ⟨f0, -, -, -, -, f5, f6⟩ := fields_6_5_5_5_1_5_5 z hz
    have hc : mbz z 0 5 = false := (congrArg (· == 0#5) f6).trans (beq_false_of_ne h)
    simp [decodeWord, f0, decodeMajor, f5, decodeMajor01, legal, hc]
  · obtain ⟨f0, -, f2, f3⟩ := fields_6_10_4_12 hz
    have hn : mbz z 0 12 = false := (congrArg (· == 0#12) f3).trans (beq_false_of_ne h)
    simp [decodeWord, f0, decodeMajor, f2, decodeMajor1B, legal, hn]
  · obtain ⟨f0, -, f2, f3⟩ := fields_6_10_4_12 hz
    have hn : mbz z 0 12 = false := (congrArg (· == 0#12) f3).trans (beq_false_of_ne h)
    simp [decodeWord, f0, decodeMajor, f2, decodeMajor1B, legalH, hn]
  · obtain ⟨f0, -, -, -, -, f5, -⟩ := fields_6_5_5_5_1_5_5 z hz
    simp only [decodeWord, f0, BitVec.reduceToNat, decodeMajor, f5]
    unfold decodeMajor2A
    split
    any_goals omega
    rfl

/-- R21: scope code 7. -/
theorem atomics_rejected (d a b c : Reg) (x : BitVec 1) (fn : BitVec 5) (h : c.extractLsb' 2 3 = 7#3) :
    (fn.toNat < 10 → decodeWord (0x0D#6 ++ d ++ a ++ b ++ x ++ fn ++ c) = .illegal .reservedField .k
       ∧ decodeWord (0x2C#6 ++ d ++ a ++ b ++ x ++ fn ++ c) = .illegal .reservedField .k)
     ∧ decodeWord (0x0E#6 ++ d ++ a ++ b ++ x ++ 0#5 ++ c) = .illegal .reservedField .k := by
  refine ⟨fun h' => ⟨of_word fun z hz => ?_, of_word fun z hz => ?_⟩, of_word fun z hz => ?_⟩
  all_goals obtain ⟨f0, -, -, -, -, f5, f6⟩ := fields_6_5_5_5_1_5_5 z hz
  · simp only [decodeWord, f0, BitVec.reduceToNat, decodeMajor, f5]
    generalize fn.toNat = n at h'
    interval_cases n <;> simp [decodeMajor0D, legal, wf, scopeOk, fc, f6, h]
  · simp only [decodeWord, f0, BitVec.reduceToNat, decodeMajor, f5]
    generalize fn.toNat = n at h'
    interval_cases n <;> simp [decodeMajor2C, legal, wf, scopeOk, fc, f6, h]
  · simp [decodeWord, f0, decodeMajor, f5, decodeMajor0E, legal, wf, scopeOk, fc, f6, h]

/-- R21: the other illegal values. -/
theorem fields_rejected (d a b c : Reg) (fn : BitVec 5) (v : BitVec 14) (imm : BitVec 16) (sq : BitVec 1) (od : BitVec 2) (scp : BitVec 3)
       (frm tgt : BitVec 6) (ms : BitVec 10) (fm : BitVec 2) (op : BitVec 3) :
     let bad (z : IWord) : Prop := decodeWord z = .illegal .reservedField .k
     bad (0x0F#6 ++ 0#10 ++ 0#4 ++ 0#6 ++ sq ++ od ++ 7#3)
     ∧ (16 ≤ b.toNat ∨ 16 ≤ c.toNat → bad (0x26#6 ++ d ++ a ++ b ++ 0#1 ++ 0#5 ++ c))
     ∧ bad (0x06#6 ++ d ++ a ++ 3#2 ++ v)
     ∧ (imm = 0 ∨ 4095 < imm.toNat → bad (0x18#6 ++ 0#5 ++ a ++ imm))
     ∧ bad (0x0F#6 ++ 0#10 ++ 0#4 ++ 0#6 ++ sq ++ 0#2 ++ scp)
     ∧ (od ≠ 3 → bad (0x0F#6 ++ 0#10 ++ 0#4 ++ 0#6 ++ 1#1 ++ od ++ scp))
     ∧ (frm = 0 ∨ tgt = 0 → bad (0x0F#6 ++ 0#10 ++ 1#4 ++ frm ++ tgt))
     ∧ bad (0x20#6 ++ d ++ a ++ 0#4 ++ ms ++ 0#2)
     ∧ (fn.toNat < 6 → bad (0x34#6 ++ d ++ a ++ b ++ 1#1 ++ fn ++ 31#5))
     ∧ (3 ≤ b.toNat → bad (0x01#6 ++ d ++ a ++ b ++ 0#1 ++ 24#5 ++ 0#5) ∧ bad (0x01#6 ++ d ++ a ++ b ++ 0#1 ++ 25#5 ++ 0#5))
     ∧ (2 < op.toNat → bad (0x37#6 ++ d ++ a ++ b ++ 0#1 ++ 0#5 ++ fm ++ op)) := by
  refine ⟨of_word fun z hz => ?_, fun h => of_word fun z hz => ?_, of_word fun z hz => ?_, fun h => of_word fun z hz => ?_, of_word fun z hz => ?_,
    fun h => of_word fun z hz => ?_, fun h => of_word fun z hz => ?_, of_word fun z hz => ?_, fun h => of_word fun z hz => ?_,
    fun h => ⟨of_word fun z hz => ?_, of_word fun z hz => ?_⟩, fun h => of_word fun z hz => ?_⟩
  · obtain ⟨f0, f1, f2, f3, f4⟩ := fields_6_10_4_6_1_2_3 hz
    simp [decodeWord, f0, decodeMajor, f1, decodeMajor0F, legal, wf, f4]
  · obtain ⟨f0, -, -, f3, -, f5, f6⟩ := fields_6_5_5_5_1_5_5 z hz
    simp [decodeWord, f0, decodeMajor, f5, decodeMajor26, legal, wf, fb, fc, f3, f6]
    omega
  · obtain ⟨f0, f1⟩ := fields_6_5_5_2_14 hz
    simp [decodeWord, f0, decodeMajor, f1, decodeMajor06]
  · obtain ⟨f0, -, -, f3⟩ := fields_6_5_5_16 z hz
    rcases h with rfl | h
    · simp [decodeWord, f0, decodeMajor, legal, wf, imm16, f3]
    · simp [decodeWord, f0, decodeMajor, legal, wf, imm16, f3, Nat.not_le_of_lt h]
  · obtain ⟨f0, f1, f2, f3, f4⟩ := fields_6_10_4_6_1_2_3 hz
    simp [decodeWord, f0, decodeMajor, f1, decodeMajor0F, legal, wf, f3]
  · obtain ⟨f0, f1, f2, f3, f4⟩ := fields_6_10_4_6_1_2_3 hz
    simp [decodeWord, f0, decodeMajor, f1, decodeMajor0F, legal, wf, f2, f3, show od ≠ 3#2 from h]
  · obtain ⟨f0, f1, f2, f3⟩ := fields_6_10_4_6_6 hz
    rcases h with rfl | rfl <;> simp [decodeWord, f0, decodeMajor, f1, decodeMajor0F, legal, wf, f2, f3]
  · obtain ⟨f0, f1, f2, f3, f4, f5⟩ := fields_6_5_5_4_10_2 z hz
    simp [decodeWord, f0, decodeMajor, f3, decodeMajor20, legal, wf, f5]
  · obtain ⟨f0, -, -, -, f4, f5, f6⟩ := fields_6_5_5_5_1_5_5 z hz
    simp only [decodeWord, f0, BitVec.reduceToNat, decodeMajor, f5]
    generalize fn.toNat = n at h
    interval_cases n <;> simp [decodeMajor34, legal, wf, fx, fc, f4, f6]
  · obtain ⟨f0, -, -, f3, -, f5, f6⟩ := fields_6_5_5_5_1_5_5 z hz
    simp [decodeWord, f0, decodeMajor, f5, decodeMajor01, legal, wf, fb, f3]
    omega
  · obtain ⟨f0, -, -, f3, -, f5, f6⟩ := fields_6_5_5_5_1_5_5 z hz
    simp [decodeWord, f0, decodeMajor, f5, decodeMajor01, legal, wf, fb, f3]
    omega
  · obtain ⟨f0, f1, f2⟩ := fields_6_5_5_5_1_5_2_3 hz
    simp only [decodeWord, f0, BitVec.reduceToNat, decodeMajor, f1, decodeMajor37, f2]
    split
    any_goals omega
    rfl

/-- R367: operations that name nothing, and an unused bit set. -/
theorem plumb_words_rejected (op : BitVec 5) (v : BitVec 11) (rest : List (BitVec 16)) :
     (op = 0 ∨ 21 ≤ op.toNat → decodePlumb ((op ++ v) :: rest) = none) ∧ (v ≠ 0 → decodePlumb ((20#5 ++ v) :: rest) = none) := by
  have hop (o : BitVec 5) : (o ++ v).extractLsb' 11 5 = o := (field_hi 11 5 (by decide)).trans BitVec.extractLsb'_eq_self
  constructor
  · intro h
    have hn : op.toNat = 0 ∨ 21 ≤ op.toNat := h.imp_left fun h => by rw [h]; rfl
    have h13 : op.toNat ≠ 13 := by omega
    simp only [decodePlumb, hop, h13, if_false]
    unfold decodePlumb.plumbOne
    rw [hop]
    split
    any_goals omega
    rfl
  · intro h
    have hv : mbzP (20#5 ++ v) 0 11 = false := by
      rw [mbzP, field_lo]
      exact beq_false_of_ne h
    simp [decodePlumb, decodePlumb.plumbOne, hop, legalP, hv]

/-- Settles O54: the words of instructions by the round trip, the others by what their fields are in the table of their major. -/
theorem decodedAndRejectedWords : Obligations.DecodedAndRejectedWords := by
  unfold Obligations.DecodedAndRejectedWords
  obtain ⟨hli, hmode, hwait, hemit, hbrf, hend⟩ := manual_words_decode
  exact ⟨⟨words_decode, hli, hmode, hwait, hemit, hbrf, hend, fun n l rest => decodePlumb_of_encodePlumb (i := .plumbLoopn n (0#8 ++ l)) rfl rest⟩,
    majors_rejected, functions_rejected,
    fun d a b c x fn v imm sq od scp frm tgt ms fm op =>
      ⟨fun h => atomics_rejected d a b c x fn h, fields_rejected d a b c fn v imm sq od scp frm tgt ms fm op⟩,
    plumb_words_rejected⟩

end Sys2Proof.Laws.RoundTrip
end

section
/-! SUPPORT. Events of a wave (spec/01 R22, spec/02 R56 and R64, spec/07 R178 to R188, spec/11 R233, spec/12 R270): what each leaves, and the statement O44. -/

namespace Sys2Proof.Machine
open Sys2Proof Sys2Proof.Claims Sys2Proof.Laws

/-! ### What the shared operations leave of the waves -/

@[simp] theorem traceRecord_waves (s : State) (w : Wave) (type num : Nat) (pc : Word) (a b c d : Nat) :
    (s.traceRecord w type num pc a b c d).waves = s.waves := (congrArg State.waves (s.traceRecord_only w type num pc a b c d) :)

@[simp] theorem queueFault_waves (s : State) (q code cause sub info : Nat) (value : Word) (who : Nat) (closed : Bool) :
    (s.queueFault q code cause sub info value who closed).waves = s.waves := (congrArg State.waves (s.queueFault_only q code cause sub info value who closed) :)

/-- An answered page request changes what the host is asked. -/
theorem State.priAnswered_only (s : State) (c : Ctx) (a : Word) : { s.priAnswered c a with host := s.host } = s := by
  unfold State.priAnswered
  split <;> rfl

@[simp] theorem priAnswered_waves (s : State) (c : Ctx) (a : Word) : (s.priAnswered c a).waves = s.waves :=
  (congrArg State.waves (s.priAnswered_only c a) :)

/-- The other half stops or goes on; this is all that any wave sees of it. -/
theorem stopMate_wave {s : State} {j : Nat} {x : Wave} (w : Wave) (b : Bool) (h : s.waves[j]? = some x) :
    ∃ b', (s.stopMate w b).waves[j]? = some { x with mateTrap := b' } := by
  unfold State.stopMate
  split
  · exact ⟨x.mateTrap, h⟩
  · rename_i m _
    by_cases hj : j = m
    · subst hj
      exact ⟨b, by simp [h]⟩
    · exact ⟨x.mateTrap, by simp [updAt_get_other _ _ hj, h]⟩

/-! ### An illegal word -/

theorem trapOr_closed {s : State} {wi : Nat} {w : Wave} (s' : State) (si : Nat) (pc : Word) (t : Trap) (write fetch : Bool) (hw : s.waves[wi]? = some w)
    (hc : CutClosed w) : s.trapOr s' wi si pc t write fetch = (s'.takeTrap wi si pc t write fetch).bump := by
  obtain ⟨hl, ha⟩ := hc
  simp [State.trapOr, State.cutOpen, hw, Wave.cutOpen, hl, ha]

theorem above_iff (need : Priv) (lvl : Nat) : need.above lvl = true ↔ (need = .h ∧ lvl = 0) ∨ (need = .d ∧ lvl ≠ 3) := by
  cases need <;> simp [Priv.above]

theorem illegalWord_traps {s : State} {wi si : Nat} {w : Wave} {sp : Split} {x : IWord} {why : Reject} {need : Priv} (hi : Issues s wi si w sp)
    (hx : decodeWord x = .illegal why need) (hc : CutClosed w) :
    exec (.illegalInstructionWord x) s = .next (s.takeTrap wi si sp.pc
      (if need.above w.lvl then ⟨2, 0, x.setWidth 64⟩ else ⟨1, why.sub, x.setWidth 64⟩) false false).bump := by
  change execIllegalInstructionWord x s = _
  rw [execIllegalInstructionWord, hx]
  dsimp only
  rw [runWave_eq hi, ← trapOr_closed s si sp.pc _ false false hi.wave hc]
  split <;> rfl

/-! ### Results in flight -/

theorem setBit32_get (x : BitVec 32) (n : Nat) (b : Bool) {m : Nat} (hm : m < 32) :
    (setBit32 x n b).getLsbD m = if n = m then b else x.getLsbD m := by
  have h : (BitVec.ofNat 32 (2 ^ n)).getLsbD m = decide (n = m) := by
    rw [BitVec.getLsbD_ofNat, Nat.testBit_two_pow, decide_eq_true hm, Bool.true_and]
  cases b with
  | false =>
    rw [setBit32, if_neg (by decide), BitVec.getLsbD_and, BitVec.getLsbD_not, h, decide_eq_true hm]
    by_cases e : n = m <;> simp [e]
  | true =>
    rw [setBit32, if_pos rfl, BitVec.getLsbD_or, h]
    by_cases e : n = m <;> simp [e]

theorem fullRegs_get (f : BitVec 32) (n count : Nat) {m : Nat} (hm : m < 32) :
    (fullRegs f n count true).getLsbD m = (decide (n ≤ m ∧ m < n + count) || f.getLsbD m) := by
  induction count generalizing f n with
  | zero => simp [fullRegs]
  | succ count ih =>
    rw [fullRegs, ih, setBit32_get _ _ _ hm]
    by_cases e : n = m
    · simp [e]
    · have : (n + 1 ≤ m ∧ m < n + 1 + count) ↔ (n ≤ m ∧ m < n + (count + 1)) := by omega
      rw [if_neg e, decide_eq_decide.2 this]

theorem writeRegs_get (v : Vector VReg 32) (n : Nat) (l : List VReg) {m : Nat} (hm : m < 32) :
    (writeRegs v n l)[m] = (if n ≤ m then l[m - n]? else none).getD v[m] := by
  induction l generalizing v n with
  | nil => simp [writeRegs]
  | cons x l ih =>
    rw [writeRegs, ih]
    rcases Nat.lt_trichotomy n m with h | rfl | h
    · have e : m - n = m - (n + 1) + 1 := by omega
      have h32 : n < 32 := by omega
      simp [h.le, Nat.succ_le_of_lt h, e, h32, h.ne]
    · simp [hm]
    · rw [if_neg (by omega), if_neg (by omega)]
      split <;> simp [h.ne']

/-! ### Scalar registers -/

theorem rd_wr_same (w : Wave) (d : Reg) (v : Word) : (w.wr d v).rd d = if d = 0 then 0 else v := by
  unfold Wave.wr Wave.rd
  split <;> simp

theorem wr_of_ne (w : Wave) {d : Reg} (v : Word) (hd : d ≠ 0) : w.wr d v = { w with
    s := w.s.set d.toNat v d.isLt
    sPois := w.sPois &&& ~~~(BitVec.ofNat 32 (2 ^ d.toNat))
    hist := if w.ahead then .reg d (w.s[d.toNat]'(d.isLt)) (w.sPois.getLsbD d.toNat) :: w.hist else w.hist } := if_neg hd

/-- A wave with a scalar result in flight written, by an instruction that is younger than an access before its fault point or not. -/
def Wave.receive (w : Wave) (d : Reg) (v : Word) (bad young : Bool) : Wave :=
  let x := w.wr d v
  { x with
    sFull := setBit32 x.sFull d.toNat true
    sPois := if bad then setBit32 x.sPois d.toNat true else x.sPois
    hist := if young then x.hist else w.hist }

theorem makeWrite_scalar (s : State) (wi : Nat) (w : Wave) (d : Reg) (v : Word) (bad young : Bool) :
    s.makeWrite wi w (.scalar d v bad) young = s.updWave wi (fun w => w.receive d v bad young) := rfl

theorem receive_full (w : Wave) (d : Reg) (v : Word) (bad young : Bool) : (w.receive d v bad young).sIsFull d = true := by
  simp [Wave.receive, Wave.sIsFull, setBit32_get _ _ _ d.isLt]

theorem receive_pois (w : Wave) {d : Reg} (v : Word) (bad young : Bool) (hd : d ≠ 0) : (w.receive d v bad young).sIsPois d = bad := by
  have h : (w.wr d v).sPois = setBit32 w.sPois d.toNat false := by
    rw [wr_of_ne w v hd]
    rfl
  have hd' : d ≠ 0#5 := hd
  cases bad <;> simp [Wave.receive, Wave.sIsPois, h, hd', setBit32_get _ _ _ d.isLt]

theorem receive_rd (w : Wave) (d : Reg) (v : Word) (bad young : Bool) : (w.receive d v bad young).rd d = if d = 0 then 0 else v :=
  rd_wr_same w d v

theorem receive_pend (w : Wave) (d : Reg) (v : Word) (bad young : Bool) : (w.receive d v bad young).pend = w.pend := by
  unfold Wave.receive Wave.wr
  split <;> rfl

theorem receive_hist_young (w : Wave) {d : Reg} (v : Word) (bad : Bool) (hd : d ≠ 0) (ha : w.ahead = true) :
    (w.receive d v bad true).hist = .reg d (w.rd d) (w.sIsPois d) :: w.hist := by
  simp only [Wave.receive, wr_of_ne w v hd, Wave.rd, if_neg hd, Wave.sIsPois, bne_iff_ne.2 hd, ha, if_true, Bool.true_and]

/-- The result numbered `n` of those in flight is younger than the access before its fault point. -/
def Wave.youngWrite (w : Wave) (n : Nat) : Bool := w.ask.any (fun q => decide (q.older ≤ n))

/-- A wave whose result numbered `n` has been written. -/
def Wave.written (w : Wave) (n : Nat) : Wave := { w with pend := w.pend.eraseIdx n, ask := w.ask.map (fun q => q.wrote n) }

theorem longLatencyWrite_eq {s : State} {wi n : Nat} {w : Wave} {p : LongWrite} (hw : s.waves[wi]? = some w) (hp : w.pend[n]? = some p) :
    exec (.longLatencyWrite wi n) s = if w.youngWrite n && decide (16 ≤ w.hist.length) && p.isScalar then idle s
      else ok ((s.makeWrite wi w p (w.youngWrite n)).updWave wi (fun w => w.written n)) := by
  change execLongLatencyWrite wi n s = _
  rcases hq : w.ask with _ | q <;> simp [execLongLatencyWrite, hw, hp, hq, Wave.youngWrite, Wave.written]

theorem sameWaves_updWave (s : State) (wi : Nat) (f : Wave → Wave) : SameWaves s (s.updWave wi f) wi :=
  fun _ h => updAt_get_other s.waves f h

theorem scalarResult_arrives {s : State} {wi n : Nat} {w : Wave} {d : Reg} {v : Word} {bad : Bool} (hw : s.waves[wi]? = some w)
    (hp : w.pend[n]? = some (.scalar d v bad)) (h : w.ask = none ∨ w.hist.length < 16) :
    ∃ t w', Makes (.longLatencyWrite wi n) s t ∧ t.waves[wi]? = some w'
        ∧ w'.rd d = (if d = 0 then 0 else v) ∧ w'.sIsFull d = true ∧ (d ≠ 0 → w'.sIsPois d = bad) ∧ w'.pend = w.pend.eraseIdx n ∧ SameWaves s t wi ∧ SameMemory s t
        ∧ (w.ask = none → w'.hist = w.hist)
        ∧ (∀ q, w.ask = some q → q.older ≤ n → w.ahead = true → d ≠ 0 → w'.hist = .reg d (w.rd d) (w.sIsPois d) :: w.hist) := by
  have room : (w.youngWrite n && decide (16 ≤ w.hist.length)) = false := by
    rcases h with h | h
    · simp [Wave.youngWrite, h]
    · simp [Nat.not_le_of_lt h]
  refine ⟨(s.makeWrite wi w (.scalar d v bad) (w.youngWrite n)).updWave wi (fun w => w.written n), (w.receive d v bad (w.youngWrite n)).written n, ?_, ?_,
    receive_rd w d v bad (w.youngWrite n), receive_full w d v bad (w.youngWrite n), receive_pois w v bad (w.youngWrite n),
    congrArg (List.eraseIdx · n) (receive_pend w d v bad (w.youngWrite n)), fun j hj => ?_, ⟨fun _ => rfl, rfl⟩, fun ha => ?_, fun q hq hn ha hd => ?_⟩
  · rw [Makes, longLatencyWrite_eq hw hp, room]
    rfl
  · simp [makeWrite_scalar, hw]
  · simp [makeWrite_scalar, updAt_get_other _ _ hj]
  · simp [Wave.written, Wave.receive, Wave.youngWrite, ha]
  · have young : w.youngWrite n = true := by simp [Wave.youngWrite, hq, hn]
    rw [young]
    exact receive_hist_young w v bad hd ha

theorem scalarResult_waits {s : State} {wi n : Nat} {w : Wave} {d : Reg} {v : Word} {bad : Bool} {q : RemoteAsk} (hw : s.waves[wi]? = some w)
    (hp : w.pend[n]? = some (.scalar d v bad)) (hq : w.ask = some q) (hn : q.older ≤ n) (hl : 16 ≤ w.hist.length) : NotDue (.longLatencyWrite wi n) s := by
  rw [NotDue, longLatencyWrite_eq hw hp]
  simp [Wave.youngWrite, hq, hn, hl, LongWrite.isScalar, idle]

theorem updAt_getD_self {α : Type} (l : List α) (i : Nat) (f : α → α) (d : α) (h : i < l.length) : (updAt l i f).getD i d = f (l.getD i d) := by
  rw [List.getD_eq_getElem?_getD, List.getD_eq_getElem?_getD, updAt_get_self, List.getElem?_eq_getElem h]
  rfl

/-- A field that a change keeps is the same at every place. -/
theorem updAt_getD_keeps {α β : Type} (g : α → β) (l : List α) (i j : Nat) (f : α → α) (d : α) (h : ∀ x, g (f x) = g x) :
    g ((updAt l i f).getD j d) = g (l.getD j d) := by
  rw [List.getD_eq_getElem?_getD, List.getD_eq_getElem?_getD, updAt_get]
  split
  · cases l[j]? with
    | none => rfl
    | some x => exact h x
  · rfl

theorem putRegs_get {s : State} {wi : Nat} {w : Wave} {n i : Nat} {regs : List VReg} {x : VReg} (whole bad : List Bool) (hl : w.legacy = false)
    (hf : w.vfile < s.vfiles.length) (hx : regs[i]? = some x) (hn : n + i < 32) : ((s.putRegs wi w n regs whole bad).vfile w.vfile).reg (n + i) = x := by
  simp only [State.putRegs, State.vfile, State.updWave_vfiles, State.updVFile, updAt_getD_self _ _ _ _ hf]
  simp [VFile.reg, hn, writeRegs_get, hx, Wave.ownLanes, hl]

/-- A wave whose group of registers from `n` has received a vector result. -/
def Wave.receiveV (w : Wave) (n : Nat) (regs : List VReg) (whole bad : List Bool) : Wave :=
  let x := { w with vPois := poisonRegs w.vPois n whole bad }
  if x.takeDue n then x else { x with vFull := fullRegs x.vFull n regs.length true }

theorem makeWrite_vector {s : State} {wi : Nat} {w : Wave} {d : Reg} {regs : List VReg} {whole bad : List Bool} (young : Bool) (hw : s.waves[wi]? = some w) :
    (s.makeWrite wi w (.vector d regs whole bad) young).waves[wi]? = some (w.receiveV d.toNat regs whole bad) := by
  simp [State.makeWrite, State.putRegs, State.updVFile, hw, Wave.receiveV]

theorem receiveV_pend (w : Wave) (n : Nat) (regs : List VReg) (whole bad : List Bool) : (w.receiveV n regs whole bad).pend = w.pend := by
  simp only [Wave.receiveV]
  split <;> rfl

theorem receiveV_full {w : Wave} {n i : Nat} {regs : List VReg} {whole bad : List Bool} (hd : w.takeDue n = false) (hi : i < regs.length) (hn : n + i < 32) :
    (w.receiveV n regs whole bad).vIsFull (n + i) = true := by
  have h : Wave.takeDue { w with vPois := poisonRegs w.vPois n whole bad } n = false := hd
  simp [Wave.receiveV, h, Wave.vIsFull, fullRegs_get _ _ _ hn, hi]

theorem vectorResult_arrives {s : State} {wi n : Nat} {w : Wave} {d : Reg} {regs : List VReg} {whole bad : List Bool} (hw : s.waves[wi]? = some w)
    (hp : w.pend[n]? = some (.vector d regs whole bad)) (hl : w.legacy = false) (hf : w.vfile < s.vfiles.length) :
    ∃ t w', Makes (.longLatencyWrite wi n) s t ∧ t.waves[wi]? = some w' ∧ w'.pend = w.pend.eraseIdx n ∧ SameWaves s t wi
          ∧ ∀ i x, regs[i]? = some x → d.toNat + i < 32 → (t.vfile w.vfile).reg (d.toNat + i) = x
            ∧ (w.takeDue d.toNat = false → w'.vIsFull (d.toNat + i) = true) := by
  refine ⟨(s.makeWrite wi w (.vector d regs whole bad) (w.youngWrite n)).updWave wi (fun w => w.written n), (w.receiveV d.toNat regs whole bad).written n, ?_, ?_,
    congrArg (List.eraseIdx · n) (receiveV_pend w d.toNat regs whole bad), fun j hj => ?_,
    fun i x hx hn => ⟨putRegs_get (wi := wi) whole bad hl hf hx hn, fun ht => receiveV_full ht (List.getElem?_eq_some_iff.1 hx).1 hn⟩⟩
  · rw [Makes, longLatencyWrite_eq hw hp]
    simp [LongWrite.isScalar, ok]
  · simp [makeWrite_vector _ hw]
  · simp [State.makeWrite, State.putRegs, State.updVFile, updAt_get_other _ _ hj]

theorem faultPoint_passes {s : State} {wi : Nat} {w : Wave} (hw : s.waves[wi]? = some w) (ha : w.ahead = true) (hq : w.ask = none) (hs : w.suspended = false) :
    exec (.vectorFaultPoint wi) s = .next (s.updWave wi (fun w => { w with ahead := false, hist := [] })).bump := by
  change execVectorFaultPoint wi s = _
  simp [execVectorFaultPoint, hw, ha, hq, hs, ok]

theorem faultPoint_waits {s : State} {wi : Nat} {w : Wave} (hw : s.waves[wi]? = some w) (h : w.ahead = false ∨ w.ask ≠ none ∨ w.suspended = true) :
    NotDue (.vectorFaultPoint wi) s := by
  change execVectorFaultPoint wi s = _
  rcases h with h | h | h
  · simp [execVectorFaultPoint, hw, h, idle]
  · simp [execVectorFaultPoint, hw, h, idle, Option.isNone_iff_eq_none]
  · simp [execVectorFaultPoint, hw, h, idle]

/-! ### Async traps -/

theorem asyncTrap_lease {s : State} {wi si : Nat} {w : Wave} {sp : Split} {v : Word} (hw : s.waves[wi]? = some w) (hd : s.asyncDue w = true)
    (hc : w.cutSplit = some si) (hs : w.splits[si]? = some sp) (hv : w.lease = some v) :
    Makes (.asyncTrapTake wi) s ((s.updWave wi (fun w => { w with lease := none })).takeTrap wi si sp.pc ⟨18, 0, v⟩ false false) := by
  change execAsyncTrapTake wi s = _
  simp [execAsyncTrapTake, hw, hd, hc, hs, hv, ok]

theorem asyncTrap_quota {s : State} {wi si : Nat} {w : Wave} {sp : Split} {v : Word} (hw : s.waves[wi]? = some w) (hd : s.asyncDue w = true)
    (hc : w.cutSplit = some si) (hs : w.splits[si]? = some sp) (hl : w.lease = none) (hv : w.quota = some v) :
    Makes (.asyncTrapTake wi) s ((s.updWave wi (fun w => { w with quota := none })).takeTrap wi si sp.pc ⟨19, 0, v⟩ false false) := by
  change execAsyncTrapTake wi s = _
  simp [execAsyncTrapTake, hw, hd, hc, hs, hl, hv, ok]

theorem asyncTrap_waits {s : State} {wi : Nat} {w : Wave} (hw : s.waves[wi]? = some w) (h : w.lvl ≠ 0) : NotDue (.asyncTrapTake wi) s := by
  change execAsyncTrapTake wi s = _
  simp [execAsyncTrapTake, hw, State.asyncDue, Wave.asyncPends, h, idle]

/-! ### Parked waves -/

theorem parkedResolve_waits {s : State} {wi : Nat} {w : Wave} {p : Park} (hw : s.waves[wi]? = some w) (hp : w.park = some p)
    (h : s.priWaits (s.ctxOf w) p.addr = true) : NotDue (.parkedFaultResolve wi) s := by
  change execParkedFaultResolve wi s = _
  simp [execParkedFaultResolve, hw, hp, h, idle]

/-- A parked wave whose fault is resolved: it is to repeat the access. -/
def Wave.unparked (w : Wave) : Wave := { w with
  park := none
  splits := w.splits.map (fun x => { x with fbuf := [] })
  streams := w.streams.map (fun t => match t.err with
    | some (_, _, _, true) => { t with err := none, told := false }
    | _ => t) }

theorem unparked_laneAt (w : Wave) (b : Bool) (lane : Nat) (pc : Word) : LaneAt { w.unparked with mateTrap := b } lane pc ↔ LaneAt w lane pc := by
  simp [LaneAt, Wave.unparked]

theorem parkedResolve_goesOn {s : State} {wi : Nat} {w : Wave} {p : Park} (hw : s.waves[wi]? = some w) (hp : w.park = some p)
    (h : s.priWaits (s.ctxOf w) p.addr = false) :
    ∃ t w', Makes (.parkedFaultResolve wi) s t ∧ t.waves[wi]? = some w' ∧ w'.park = none ∧ w'.lvl = w.lvl ∧ w'.s = w.s ∧ w'.frozen = w.frozen
      ∧ ∀ lane pc, LaneAt w' lane pc ↔ LaneAt w lane pc := by
  have ht : ((s.priAnswered (s.ctxOf w) p.addr).updWave wi Wave.unparked).waves[wi]? = some w.unparked := by simp [hw]
  obtain ⟨b, hb⟩ := stopMate_wave w (w.lvl != 0) ht
  refine ⟨_, _, ?_, hb, rfl, rfl, rfl, rfl, unparked_laneAt w b⟩
  change execParkedFaultResolve wi s = _
  simp only [execParkedFaultResolve, hw, hp, h]
  rfl

theorem claim_cleared (x : BitVec 4) {n : Nat} (hn : n < 4) : (x &&& ~~~(BitVec.ofNat 4 (2 ^ n))).getLsbD n = false := by
  have h : (BitVec.ofNat 4 (2 ^ n)).getLsbD n = true := by rw [BitVec.getLsbD_ofNat, Nat.testBit_two_pow_self, decide_eq_true hn, Bool.true_and]
  rw [BitVec.getLsbD_and, BitVec.getLsbD_not, h, Bool.not_true, Bool.and_false, Bool.and_false]

/-- The state in which a parked wave whose fault is declined takes its trap. -/
def State.declined (s : State) (wi : Nat) (w : Wave) (p : Park) : State :=
  (s.priAnswered (s.ctxOf w) p.addr).updWave wi (fun w => { w with park := none })

theorem parkedDecline_eq {s : State} {wi : Nat} {w : Wave} {p : Park} {sp : Split} (hw : s.waves[wi]? = some w) (hp : w.park = some p)
    (h : s.priWaits (s.ctxOf w) p.addr = false) (hs : w.splits[p.split]? = some sp) :
    Makes (.parkedFaultDecline wi) s
      ((s.declined wi w p).takeHandler wi p.split { w with park := none } sp sp.pc ⟨p.cause, p.sub, p.addr⟩ (p.frame != 0)) := by
  change execParkedFaultDecline wi s = _
  simp [execParkedFaultDecline, hw, hp, h, hs, ok, State.declined]

theorem declined_wave {s : State} {wi : Nat} {w : Wave} (p : Park) (hw : s.waves[wi]? = some w) :
    (s.declined wi w p).waves[wi]? = some { w with park := none } := by
  simp [State.declined, hw]

/-- The wave that has entered the handler of the next level. -/
theorem enter_eq {w : Wave} {si new : Nat} {sp : Split} (entry : Word) (hs : w.splits[si]? = some sp) : w.enter si new entry =
    { w with
      splits := [{ Split.start w.allLanes entry sp.idx with skipHit := false }]
      frozen := if w.lvl = 0 then { sp with due := none } :: w.splits.eraseIdx si else w.frozen
      sPois := 0
      heldLevel := if new = 3 then w.lvl else w.heldLevel
      lvl := new
      claims := w.claims &&& ~~~(BitVec.ofNat 4 (2 ^ new))
      tile := none
      park := none } := by
  simp [Wave.enter, hs]

theorem writeFrame_waves (s : State) (wi : Nat) (w : Wave) (sp : Split) (lvl : Nat) (pc : Word) (t : Trap) : (s.writeFrame wi w sp lvl pc t).waves = s.waves := by
  rw [State.writeFrame, State.writeBytes_waves]

/-- The state in which a wave below level 2 has entered its next level. -/
theorem takeHandler_next {s : State} {wi si : Nat} {w : Wave} {sp : Split} (pc : Word) {t : Trap} (framed : Bool) (hl : w.lvl < 2) (hb : w.trapbase ≠ 0)
    (hc : t.cause ≠ 13) : s.takeHandler wi si w sp pc t framed =
      (((bif framed then s else s.writeFrame wi w sp (w.lvl + 1) pc t).updWave wi (fun x => x.enter si (w.lvl + 1) w.trapbase)).stopMate w true).traceRecord
        w 2 0xFF pc w.esr w.esv.toNat sp.mask.toNat (t.sub * 256 + t.cause) := by
  unfold State.takeHandler
  simp only [hc, hb, decide_false, Bool.false_and, Bool.false_eq_true, ge_iff_le, Nat.not_le.2 hl, if_false]
  cases framed <;> rfl

/-- A wave below level 2 with a handler enters the next level for every trap but a breakpoint, whether its frame stands already or not. -/
theorem takeHandler_enters {s : State} {wi si : Nat} {w : Wave} {sp : Split} (pc : Word) {t : Trap} (framed : Bool) (hw : s.waves[wi]? = some w)
    (hl : w.lvl < 2) (hb : w.trapbase ≠ 0) (hc : t.cause ≠ 13) : ∃ b, (s.takeHandler wi si w sp pc t framed).waves[wi]? = some { w.enter si (w.lvl + 1) w.trapbase with mateTrap := b } := by
  have h : ∀ u : State, u.waves[wi]? = some w → (u.updWave wi (fun x => x.enter si (w.lvl + 1) w.trapbase)).waves[wi]?
      = some (w.enter si (w.lvl + 1) w.trapbase) := fun u hu => by simp [hu]
  rw [takeHandler_next pc framed hl hb hc, traceRecord_waves]
  cases framed with
  | true => exact stopMate_wave w true (h s hw)
  | false => exact stopMate_wave w true (h _ (by rw [cond_false, writeFrame_waves, hw]))

theorem parkedDecline_enters {s : State} {wi : Nat} {w : Wave} {p : Park} {sp : Split} (hw : s.waves[wi]? = some w) (hp : w.park = some p)
    (h : s.priWaits (s.ctxOf w) p.addr = false) (hs : w.splits[p.split]? = some sp) (hl : w.lvl < 2) (hb : w.trapbase ≠ 0) (hc : p.cause ≠ 13) :
    ∃ t, Makes (.parkedFaultDecline wi) s t ∧ Entered t wi p.split w sp true (w.lvl + 1) w.trapbase := by
  obtain ⟨b, hb⟩ := takeHandler_enters (w := { w with park := none }) sp.pc (t := ⟨p.cause, p.sub, p.addr⟩) (p.frame != 0) (declined_wave p hw) hl hb hc
  rw [enter_eq w.trapbase (w := { w with park := none }) hs] at hb
  refine ⟨_, parkedDecline_eq hw hp h hs, _, _, _, hb, rfl, rfl, rfl, rfl, rfl, rfl, fun h0 => ?_, fun h0 => if_neg h0, rfl, claim_cleared _ (show w.lvl + 1 < 4 by omega), rfl,
    .inr rfl, rfl, rfl⟩
  simp [h0]

theorem stopWave_wave {s : State} {wi : Nat} {w : Wave} (why : StopWhy) (t : Trap) (hw : s.waves[wi]? = some w) :
    ∃ w', (s.stopWave wi w why t).waves[wi]? = some w' ∧ w'.stopped = some why ∧ w'.splits = [] := by
  have h : (s.updWave wi (fun w => { w with stopped := some why, splits := [], frozen := [], park := none })).waves[wi]?
      = some { w with stopped := some why, splits := [], frozen := [], park := none } := by simp [hw]
  obtain ⟨b, hb⟩ := stopMate_wave w true h
  exact ⟨_, (congrArg (·[wi]?) (queueFault_waves ..)).trans hb, rfl, rfl⟩

theorem parkedDecline_stops {s : State} {wi : Nat} {w : Wave} {p : Park} {sp : Split} (hw : s.waves[wi]? = some w) (hp : w.park = some p)
    (h : s.priWaits (s.ctxOf w) p.addr = false) (hs : w.splits[p.split]? = some sp) (hl : 2 ≤ w.lvl) (hc : p.cause ≠ 13) :
    ∃ t w', Makes (.parkedFaultDecline wi) s t ∧ t.waves[wi]? = some w' ∧ w'.stopped = some .doubleFault ∧ w'.splits = [] := by
  obtain ⟨w', hw', rest⟩ := stopWave_wave (w := { w with park := none }) .doubleFault ⟨p.cause, p.sub, p.addr⟩ (declined_wave p hw)
  refine ⟨_, w', parkedDecline_eq hw hp h hs, ?_, rest⟩
  simpa [State.takeHandler, hc, hl] using hw'

/-! ### A SETTILE that waits -/

theorem applyGrant_trcCtl (s : State) (bi : Nat) (g : Grant) (w : Wave) :
    ((s.applyGrant bi g).core ((s.applyGrant bi g).coreOf w)).trcCtl = (s.core (s.coreOf w)).trcCtl := by
  have hc : (s.applyGrant bi g).coreOf w = s.coreOf w := updAt_getD_keeps Block.core s.blocks bi w.block _ _ fun _ => rfl
  rw [hc]
  exact updAt_getD_keeps CoreSt.trcCtl s.cores (s.block bi).core (s.coreOf w) _ _ fun _ => rfl

theorem tileGrant_applies {s : State} {wi si : Nat} {w : Wave} {sp : Split} {t : TileWait} (hw : s.waves[wi]? = some w) (ht : w.tile = some t)
    (hf : findIdx t.ofSplit w.splits 0 = some si) (hs : w.splits[si]? = some sp) (hst : Straight sp)
    (hg : (s.core (s.coreOf w)).trcCtl.getLsbD 9 = false) (hr : s.running w = true) (hq : s.tileQuiet w.block t.since = true) :
    exec (.tileGrantApply wi) s =
      .next (stepped (((s.applyGrant w.block t.grant).updWave wi (fun w => { w with tile := none })).setReg wi t.d 0) wi si sp) := by
  have hn : ((s.applyGrant w.block t.grant).core ((s.applyGrant w.block t.grant).coreOf w)).trcCtl.getLsbD 9 = false := by
    rw [applyGrant_trcCtl, hg]
  change execTileGrantApply wi s = _
  simp only [execTileGrantApply, hw, ht, hf, hs, hr, hq, Bool.and_self, if_true, State.settileWait, State.settileEnd, State.grantRecordOf, hn, Bool.false_eq_true,
    if_false, retire_done hst]
  rfl

theorem tileGrant_waits {s : State} {wi si : Nat} {w : Wave} {sp : Split} {t : TileWait} (hw : s.waves[wi]? = some w) (ht : w.tile = some t)
    (hf : findIdx t.ofSplit w.splits 0 = some si) (hs : w.splits[si]? = some sp) (h : s.running w = false ∨ s.tileQuiet w.block t.since = false) :
    NotDue (.tileGrantApply wi) s := by
  change execTileGrantApply wi s = _
  rcases h with h | h <;> simp [execTileGrantApply, hw, ht, hf, hs, h, idle]

/-! ### Triggers that have fired -/

/-- What launching bins leaves as it was. -/
structure BinsOnly (s t : State) : Prop where
  blocks : t.blocks = s.blocks
  time : t.time = s.time
  length : t.cores.length = s.cores.length
  triggers (c : Nat) : (t.core c).triggers = (s.core c).triggers

theorem BinsOnly.updCore {s t : State} (h : BinsOnly s t) (i : Nat) (f : CoreSt → CoreSt) (hf : ∀ x, (f x).triggers = x.triggers) :
    BinsOnly s (t.updCore i f) where
  blocks := h.blocks
  time := h.time
  length := (updAt_length ..).trans h.length
  triggers c := (updAt_getD_keeps CoreSt.triggers t.cores i c f _ hf).trans (h.triggers c)

theorem BinsOnly.launchBin {s t : State} (h : BinsOnly s t) (core n : Nat) (b : Bin) : BinsOnly s (t.launchBin core n b) := by
  unfold State.launchBin
  split
  · exact h.updCore core _ fun _ => rfl
  · exact h.updCore core _ fun _ => rfl

theorem ripen_bins (s : State) (core : Nat) : BinsOnly s (s.ripen core) := by
  refine List.foldlRecOn (motive := BinsOnly s) _ _ ⟨rfl, rfl, rfl, fun _ => rfl⟩ fun u hu n _ => ?_
  split
  · split
    · exact hu.launchBin core n _
    · exact hu
  · exact hu

theorem updAt_congr {α : Type} {l : List α} {i : Nat} {f g : α → α} (h : ∀ x, l[i]? = some x → f x = g x) : updAt l i f = updAt l i g := by
  refine List.ext_getElem? fun j => ?_
  rw [updAt_get, updAt_get]
  split
  · next hj =>
    subst hj
    exact Option.map_congr fun x hx => h x hx
  · rfl

theorem placeFired_end {s : State} {core : Nat} (fuel : Nat) {i : Nat} (h : (s.core core).triggers[i]? = none) : s.placeFired core fuel i = s := by
  cases fuel with
  | zero => rfl
  | succ n => simp only [State.placeFired, h]

theorem placeFired_skips {s : State} {core : Nat} (fuel : Nat) {i : Nat} {t : Trigger} (h : (s.core core).triggers[i]? = some t) (hf : t.fired = false) :
    s.placeFired core (fuel + 1) i = s.placeFired core fuel (i + 1) := by
  simp only [State.placeFired, h, hf, Bool.false_eq_true, if_false]

theorem placeFired_takes {s u : State} {core : Nat} (fuel : Nat) {i st : Nat} {t : Trigger} (h : (s.core core).triggers[i]? = some t) (hf : t.fired = true)
    (hp : s.placeThread core t.block t.entry t.arg false = (u, st)) (hst : st % 256 ≠ 2) :
    s.placeFired core (fuel + 1) i = (u.updCore core (fun c => { c with triggers := c.triggers.eraseIdx i })).placeFired core fuel i := by
  simp only [State.placeFired, h, hf, if_true, hp, hst, if_false]

theorem triggerRetry_waits {s : State} {core : Nat} {t : Trigger} (ht : (s.core core).triggers = [t]) (hf : t.fired = false) : NotDue (.triggerRetry core) s := by
  have h : s.placeFired core 16 0 = s := by
    rw [placeFired_skips 15 (by rw [ht]; rfl) hf, placeFired_end 15 (by rw [ht]; rfl)]
  change execTriggerRetry core s = _
  simp [execTriggerRetry, h, idle]

/-- A thread that finds an empty bin is its first one. -/
theorem placeThread_empty {s : State} {core bi n : Nat} {entry : Word} (arg : BitVec 32)
    (hn : ((s.ripen core).core core).binFor (s.block bi).obj entry = some n) (he : ((s.ripen core).core core).bins[n]? = some none) :
    s.placeThread core bi entry arg false = ((s.ripen core).updCore core (fun c => { c with
      bins := updAt c.bins n (fun _ => some ⟨(s.block bi).obj, entry, bi, [arg], s.time.toNat, false⟩) }), n * 256 + 65536) := by
  have hb : (s.ripen core).block bi = s.block bi := by rw [State.block, State.block, (ripen_bins s core).blocks]
  have ht := (ripen_bins s core).time
  unfold State.placeThread
  generalize s.ripen core = u at hn he hb ht ⊢
  simp [hb, ht, hn, he]
theorem core_updCore_self {s : State} {core : Nat} (f : CoreSt → CoreSt) (h : core < s.cores.length) : (s.updCore core f).core core = f (s.core core) :=
  updAt_getD_self s.cores core f _ h

/-- A trigger's thread put in bin `n` of a core whose only trigger it is, and the trigger gone. -/
theorem updCore_placed {s : State} {core n : Nat} {t : Trigger} (b : Bin) (ht : (s.core core).triggers = [t]) :
    (s.updCore core (fun c => { c with bins := updAt c.bins n (fun _ => some b) })).updCore core (fun c => { c with triggers := c.triggers.eraseIdx 0 })
      = s.updCore core (fun c => { c with triggers := [], bins := updAt c.bins n (fun _ => some b) }) := by
  have key : updAt (updAt s.cores core (fun c => { c with bins := updAt c.bins n (fun _ => some b) })) core (fun c => { c with triggers := c.triggers.eraseIdx 0 })
      = updAt s.cores core (fun c => { c with triggers := [], bins := updAt c.bins n (fun _ => some b) }) := by
    rw [updAt_updAt]
    refine updAt_congr fun c hc => ?_
    have hc' : c.triggers = [t] := by
      rw [← ht, State.core, List.getD_eq_getElem?_getD, hc, Option.getD_some]
    simp [hc']
  exact congrArg (fun l => { s with cores := l }) key

theorem triggerRetry_places {s : State} {core n : Nat} {t : Trigger} (ht : (s.core core).triggers = [t]) (hc : core < s.cores.length) (hf : t.fired = true)
    (hn : ((s.ripen core).core core).binFor (s.block t.block).obj t.entry = some n) (he : ((s.ripen core).core core).bins[n]? = some none) :
    Makes (.triggerRetry core) s ((s.ripen core).updCore core (fun c => { c with
      triggers := []
      bins := updAt c.bins n (fun _ => some ⟨(s.block t.block).obj, t.entry, t.block, [t.arg], s.time.toNat, false⟩) })) := by
  have hr : ((s.ripen core).core core).triggers = [t] := ((ripen_bins s core).triggers core).trans ht
  have hl : core < (s.ripen core).cores.length := Nat.lt_of_lt_of_eq hc (ripen_bins s core).length.symm
  have hp := placeThread_empty t.arg hn he
  generalize s.ripen core = u at hp hr hl ⊢
  have h := placeFired_takes 15 (i := 0) (by rw [ht]; rfl) hf hp (by omega)
  rw [updCore_placed _ hr, placeFired_end 15 (by rw [core_updCore_self _ hl]; rfl)] at h
  change execTriggerRetry core s = _
  simp only [execTriggerRetry, h, core_updCore_self _ hl, ht]
  rfl

/-- Settles O44: each event's answer, by the lemma about it above. -/
theorem waveEvents : Obligations.WaveEvents := by
  unfold Obligations.WaveEvents
  refine ⟨fun s wi si w sp x why need hi hx hc => ?_, fun s wi n w hw => ?_,
    fun s core n t ht hc => ⟨fun hf => triggerRetry_waits ht hf, fun hf hn he => triggerRetry_places ht hc hf hn he⟩⟩
  · dsimp only
    rw [illegalWord_traps hi hx hc, ← above_iff]
    exact ⟨fun h => by rw [if_pos h], fun h => by rw [if_neg h]⟩
  · exact ⟨fun d v bad hp h => scalarResult_arrives hw hp h,
      fun d v bad q hp hq hn hl => scalarResult_waits hw hp hq hn hl,
      fun d regs whole bad hp hl hf => vectorResult_arrives hw hp hl hf,
      faultPoint_passes hw,
      faultPoint_waits hw,
      fun si sp hd hc hs => ⟨fun v hv => asyncTrap_lease hw hd hc hs hv, fun v hl hv => asyncTrap_quota hw hd hc hs hl hv⟩,
      asyncTrap_waits hw,
      fun p hp h => parkedResolve_waits hw hp h,
      fun p hp h => ⟨parkedResolve_goesOn hw hp h, fun sp hs hl hb hc => parkedDecline_enters hw hp h hs hl hb hc,
        fun sp hs hl hc => parkedDecline_stops hw hp h hs hl hc⟩,
      fun si sp t ht hf hs hst hg => ⟨tileGrant_applies hw ht hf hs hst hg, tileGrant_waits hw ht hf hs⟩⟩

end Sys2Proof.Machine
end

section
/-! SUPPORT. The responder's list of mailboxes (spec/18 R373), and the statement O52: its first clause on the exchange names a state's own entry after any change, whatever the list
holds. A change back to the blank entry takes one entry of the function out; a list in which a second one follows shows that one. -/

namespace Sys2Proof.Machine

open Sys2Proof

/-- A mailbox that has been asked for its version, as GET_VERSION leaves a blank one. -/
def askedVersion : Spdm := { Spdm.blank with version := true, reply := 0x84 }

/-- A state whose responder list holds two entries for function 0, the function of its message. -/
def twoMailboxes : State := { State.reset with trust := { State.reset.trust with spdm := [(0, askedVersion), (0, askedVersion)] } }

/-- The first of the two entries is taken out, and the second is found. -/
theorem twoMailboxes_cleared : (twoMailboxes.updSpdm 0 (fun _ => Spdm.blank)).spdm 0 = askedVersion := rfl

/-- Refutes O52: with two entries for one function in the responder's list, a mailbox set to the blank entry reads as the second one. -/
theorem not_trustEvents : ¬ Obligations.TrustEvents := by
  unfold Obligations.TrustEvents
  rintro ⟨-, exchange, -⟩
  obtain ⟨mailbox, -⟩ := exchange twoMailboxes 0 0 0 true
  have own : (twoMailboxes.updSpdm 0 (fun _ => Spdm.blank)).spdm 0 = Spdm.blank := (mailbox fun _ => Spdm.blank).1
  rw [twoMailboxes_cleared] at own
  exact absurd own (by decide)

end Sys2Proof.Machine
end

section
/-! SUPPORT. VL within VLMAX, the vector files and halves of waves, and the lane caps (spec/02 R42, spec/05 R129, spec/10 R224) as a predicate that operations keep:
closed under changes of other fields, choices and folds; and what it means for the answers that carry a state. -/

namespace Sys2Proof.Machine

set_option Elab.async false

/-! ### The limits of a wave and of a state -/

/-- What the limits speak of in a wave: VL, WMODE, the vector file and the half. -/
def Wave.dims (w : Wave) : Nat × BitVec 32 × Nat × Nat := (w.vl, w.wmode, w.vfile, w.half)

/-- VL is within VLMAX, the vector file is one of the first `n`, and the half is 0 or 1. -/
def Wave.Fits (n : Nat) (w : Wave) : Prop := w.vl ≤ w.vlmax ∧ w.vfile < n ∧ w.half < 2

theorem Wave.Fits.of_dims {n : Nat} {w w' : Wave} (h : w.Fits n) (e : w'.dims = w.dims) : w'.Fits n := by
  simp only [Wave.dims, Prod.mk.injEq] at e
  obtain ⟨hl, hm, hf, hh⟩ := e
  simpa only [Wave.Fits, Wave.vlmax, hl, hm, hf, hh] using h

theorem Wave.Fits.mono {n m : Nat} {w : Wave} (h : w.Fits n) (le : n ≤ m) : w.Fits m := ⟨h.1, Nat.lt_of_lt_of_le h.2.1 le, h.2.2⟩

/-- Every wave fits, and no lane cap of a core or a pin exceeds 64. -/
def State.Bounded (s : State) : Prop :=
  (∀ w ∈ s.waves, w.Fits s.vfiles.length) ∧ (∀ c ∈ s.cores, c.vlcap ≤ 64) ∧ ∀ q ∈ s.queues, ∀ p, q.pin = some p → p.vlcap ≤ 64

theorem good_iff {s : State} : Claims.Good s ↔ s.Stored ∧ s.Bounded := by
  simp only [Claims.Good, State.Stored, State.Bounded, Wave.Fits, and_assoc]

variable {s : State}

/-! ### Closure -/

/-- A state with the waves, vector files, cores and queues of one within the limits is within them. -/
theorem State.Bounded.same {t : State} (h : s.Bounded) (hw : t.waves = s.waves := by rfl) (hv : t.vfiles.length = s.vfiles.length := by rfl)
    (hc : t.cores = s.cores := by rfl) (hq : t.queues = s.queues := by rfl) : t.Bounded := by
  unfold State.Bounded
  rw [hw, hv, hc, hq]
  exact h

/-- A change made on a condition. -/
theorem State.Bounded.when {t : State} {c : Prop} {_ : Decidable c} (h : s.Bounded) (k : s.Bounded → t.Bounded) : (if c then t else s).Bounded := by
  split
  · exact k h
  · exact h

/-- A change not made on a condition. -/
theorem State.Bounded.unless {t : State} {c : Prop} {_ : Decidable c} (h : s.Bounded) (k : s.Bounded → t.Bounded) : (if c then s else t).Bounded := by
  split
  · exact h
  · exact k h

/-- A choice between two states within the limits. -/
theorem State.Bounded.ite {t : State} {c : Prop} {_ : Decidable c} (h : s.Bounded) (h' : t.Bounded) : (if c then s else t).Bounded := h.unless fun _ => h'

/-- A fold of an operation that keeps the limits. -/
theorem State.Bounded.foldl {α : Type} {f : State → α → State} {l : List α} (h : s.Bounded) (hf : ∀ (s : State) (x : α), s.Bounded → (f s x).Bounded) :
    (l.foldl f s).Bounded := by
  induction l generalizing s with
  | nil => exact h
  | cons x l ih => exact ih (hf s x h)

/-! ### Answers that carry a state -/

/-- The next state, where there is one, is within the limits. -/
inductive BoundedOut : Out State → Prop
  | next {s : State} (h : s.Bounded) : BoundedOut (.next s)
  | fault {r : Fault} : BoundedOut (.fault r)
  | refused {r : Refusal} : BoundedOut (.refused r)

theorem BoundedOut.of_all {o : Out State} (h : ∀ t, o = .next t → t.Bounded) : BoundedOut o := by
  cases o with
  | next t => exact .next (h t rfl)
  | fault => exact .fault
  | refused => exact .refused

theorem BoundedOut.of_next {o : Out State} {t : State} (h : BoundedOut o) (e : o = .next t) : t.Bounded := by
  subst e
  cases h
  assumption

theorem BoundedOut.ite {c : Prop} {_ : Decidable c} {o o' : Out State} (h : BoundedOut o) (h' : BoundedOut o') : BoundedOut (if c then o else o') := by
  split
  · exact h
  · exact h'

/-- An event with an effect, and one without. -/
theorem State.Bounded.effect (h : s.Bounded) : BoundedOut (ok s) := .next h
theorem State.Bounded.noEffect (h : s.Bounded) : BoundedOut (idle s) := .next h

/-- The state that an instruction's body answers with, where it has one, is within the limits. -/
inductive Res.Bounded : Res → Prop
  | done {s : State} (h : s.Bounded) : Bounded (.done s)
  | goto {s : State} {next pc : Word} {taken : Bool} (h : s.Bounded) : Bounded (.goto s next pc taken)
  | trap {t : Trap} : Bounded (.trap t)
  | trapIn {s : State} {t : Trap} {write : Bool} (h : s.Bounded) : Bounded (.trapIn s t write)
  | after {s : State} {t : Trap} (h : s.Bounded) : Bounded (.after s t)
  | wait : Bounded .wait
  | waitIn {s : State} (h : s.Bounded) : Bounded (.waitIn s)
  | stall : Bounded .stall
  | stallIn {s : State} (h : s.Bounded) : Bounded (.stallIn s)
  | left {s : State} (h : s.Bounded) : Bounded (.left s)

theorem Res.bounded_iff {r : Res} : r.Bounded ↔ r.All State.Bounded := by
  constructor
  · intro h
    cases h <;> trivial
  · intro h
    cases r <;> constructor <;> exact h

theorem Res.Bounded.ite {c : Prop} {_ : Decidable c} {r r' : Res} (h : r.Bounded) (h' : r'.Bounded) : (if c then r else r').Bounded := by
  split
  · exact h
  · exact h'

/-- An instruction that may have to wait or to trap first. -/
theorem Res.Bounded.unless {c : Prop} {_ : Decidable c} {r r' : Res} (h : r'.Bounded) (h' : r.Bounded := by constructor) :
    (if c then r else r').Bounded := .ite h' h

/-- A gate that opens to a body. -/
theorem Res.Bounded.gate {w : Wave} {u : Uses} {k : Unit → Res} (h : (k ()).Bounded) : (w.gate u k).Bounded :=
  bounded_iff.2 (Wave.gate_all _ _ _ _ (bounded_iff.1 h))

/-- A request to another device leaves from a state within the limits. -/
inductive Remote.Bounded : Remote → Prop
  | ready {a : RemoteAnswer} : Bounded (.ready a)
  | pending : Bounded .pending
  | sent {s : State} (h : s.Bounded) : Bounded (.sent s)

theorem Remote.Bounded.of_sent {r : Remote} {t : State} (h : r.Bounded) (e : r = .sent t) : t.Bounded := by
  subst e
  cases h
  assumption

theorem Remote.Bounded.ite {c : Prop} {_ : Decidable c} {r r' : Remote} (h : r.Bounded) (h' : r'.Bounded) : (if c then r else r').Bounded := by
  split
  · exact h
  · exact h'

/-- A copy's movement ends in a state within the limits. -/
inductive Moved.Bounded : Moved → Prop
  | waits : Bounded .waits
  | later {s : State} (h : s.Bounded) : Bounded (.later s)
  | done {s : State} {err pois : Bool} (h : s.Bounded) : Bounded (.done s err pois)

theorem Moved.Bounded.of_later {r : Moved} {t : State} (h : r.Bounded) (e : r = .later t) : t.Bounded := by
  subst e
  cases h
  assumption

theorem Moved.Bounded.of_done {r : Moved} {t : State} {err pois : Bool} (h : r.Bounded) (e : r = .done t err pois) : t.Bounded := by
  subst e
  cases h
  assumption

/-- An access of a queue ends in a state within the limits. -/
inductive Dev.Bounded : Dev → Prop
  | waits : Bounded .waits
  | later {s : State} (h : s.Bounded) : Bounded (.later s)
  | bad {s : State} {a : Word} (h : s.Bounded) : Bounded (.bad s a)
  | got {s : State} {l : List Byte} (h : s.Bounded) : Bounded (.got s l)

theorem Dev.Bounded.of_later {r : Dev} {t : State} (h : r.Bounded) (e : r = .later t) : t.Bounded := by
  subst e
  cases h
  assumption

theorem Dev.Bounded.of_bad {r : Dev} {t : State} {a : Word} (h : r.Bounded) (e : r = .bad t a) : t.Bounded := by
  subst e
  cases h
  assumption

theorem Dev.Bounded.of_got {r : Dev} {t : State} {l : List Byte} (h : r.Bounded) (e : r = .got t l) : t.Bounded := by
  subst e
  cases h
  assumption

/-- A plumb operation ends in a state within the limits. -/
inductive PRes.Bounded : PRes → Prop
  | next {s : State} {r : PlumbRun} {pc : Nat} (h : s.Bounded) : Bounded (.next s r pc)
  | wait : Bounded .wait
  | waitIn {s : State} (h : s.Bounded) : Bounded (.waitIn s)
  | fault {sub : Nat} : Bounded (.fault sub)
  | memory {s : State} {a : Word} (h : s.Bounded) : Bounded (.memory s a)
  | fin : Bounded .fin

theorem PRes.Bounded.ite {c : Prop} {_ : Decidable c} {r r' : PRes} (h : r.Bounded) (h' : r'.Bounded) : (if c then r else r').Bounded := by
  split
  · exact h
  · exact h'

/-- An instruction fetch ends in a state within the limits. -/
inductive Fetch.Bounded : Fetch → Prop
  | word {s : State} {x : IWord} (h : s.Bounded) : Bounded (.word s x)
  | pending : Bounded .pending
  | sent {s : State} (h : s.Bounded) : Bounded (.sent s)
  | trap {s : State} {t : Trap} (h : s.Bounded) : Bounded (.trap s t)

/-- A write of a special register that is accepted ends in a state within the limits. -/
inductive WroteBounded : Wrote → Prop
  | refused : WroteBounded none
  | some {s : State} (h : s.Bounded) : WroteBounded (some s)

theorem WroteBounded.ite {c : Prop} {_ : Decidable c} {r r' : Wrote} (h : WroteBounded r) (h' : WroteBounded r') : WroteBounded (if c then r else r') := by
  split
  · exact h
  · exact h'

/-- An issue slot comes to an instruction in a state within the limits, or to an outcome that keeps the limits. -/
inductive Slotful.Bounded : Slotful → Prop
  | run {s : State} {wi : Nat} {i : Instr} (h : s.Bounded) : Bounded (.run s wi i)
  | outcome {wi : Option Nat} {o : Out State} (h : BoundedOut o) : Bounded (.over wi o)

theorem Slotful.Bounded.ite {c : Prop} {_ : Decidable c} {r r' : Slotful} (h : r.Bounded) (h' : r'.Bounded) : (if c then r else r').Bounded := by
  split
  · exact h
  · exact h'

/-- The choice of a turn leaves a state within the limits. -/
inductive Next.Bounded : Next → Prop
  | turn {s : State} {t : Turn} (h : s.Bounded) : Bounded (.turn s t)
  | own {s : State} (h : s.Bounded) : Bounded (.own s)
/-! ### Changes of one record -/

/-- A change of a wave that leaves its dimensions. -/
theorem State.Bounded.updWave {i : Nat} {f : Wave → Wave} (h : s.Bounded) (hf : ∀ w : Wave, (f w).dims = w.dims := by exact fun _ => rfl) :
    (s.updWave i f).Bounded :=
  ⟨fun w hw => by
    rw [State.updWave_waves] at hw
    exact updAt_forall i h.1 (fun x _ hx => hx.of_dims (hf x)) w hw, h.2⟩

/-- A change of every wave at a place that keeps it within the limits. -/
theorem State.Bounded.updFits {i : Nat} {f : Wave → Wave} (h : s.Bounded) (hf : ∀ (n : Nat) (w : Wave), w.Fits n → (f w).Fits n) :
    (s.updWave i f).Bounded :=
  ⟨fun w hw => by
    rw [State.updWave_waves] at hw
    exact updAt_forall i h.1 (fun x _ => hf _ x) w hw, h.2⟩

/-- A change of the wave at a place that keeps that one within the limits. -/
theorem State.Bounded.updWaveAt {i : Nat} {w : Wave} {f : Wave → Wave} (h : s.Bounded) (hw : s.waves[i]? = some w)
    (hf : w.Fits s.vfiles.length → (f w).Fits s.vfiles.length) : (s.updWave i f).Bounded :=
  ⟨fun x hx => by
    obtain ⟨j, hj⟩ := List.mem_iff_getElem?.1 hx
    rw [State.updWave_waves, updAt_get] at hj
    split at hj
    next e =>
      subst e
      rw [hw] at hj
      cases hj
      exact hf (h.1 w (List.mem_of_getElem? hw))
    next => exact h.1 x (List.mem_of_getElem? hj), h.2⟩

/-- A change that beside other fields is one of waves. -/
theorem State.Bounded.waves {t : State} (h : s.Bounded) (hw : ∀ w ∈ t.waves, w.Fits t.vfiles.length) (hc : t.cores = s.cores := by rfl)
    (hq : t.queues = s.queues := by rfl) : t.Bounded :=
  ⟨hw, hc ▸ h.2.1, hq ▸ h.2.2⟩

/-- A change that beside other fields is one of cores. -/
theorem State.Bounded.cores {t : State} (h : s.Bounded) (hc : ∀ c ∈ t.cores, c.vlcap ≤ 64) (hw : t.waves = s.waves := by rfl)
    (hv : t.vfiles.length = s.vfiles.length := by rfl) (hq : t.queues = s.queues := by rfl) : t.Bounded :=
  ⟨by rw [hw, hv]; exact h.1, hc, hq ▸ h.2.2⟩

/-- A change that beside other fields is one of queues. -/
theorem State.Bounded.queues {t : State} (h : s.Bounded) (hq : ∀ q ∈ t.queues, ∀ p, q.pin = some p → p.vlcap ≤ 64) (hw : t.waves = s.waves := by rfl)
    (hv : t.vfiles.length = s.vfiles.length := by rfl) (hc : t.cores = s.cores := by rfl) : t.Bounded :=
  ⟨by rw [hw, hv]; exact h.1, hc ▸ h.2.1, hq⟩

/-- A change of a core that keeps its lane cap within 64. -/
theorem State.Bounded.updCap {i : Nat} {f : CoreSt → CoreSt} (h : s.Bounded) (hf : ∀ c : CoreSt, c.vlcap ≤ 64 → (f c).vlcap ≤ 64) :
    (s.updCore i f).Bounded :=
  h.cores (by
    rw [State.updCore_cores]
    exact updAt_forall i h.2.1 fun x _ => hf x)

/-- A change of a core that leaves its lane cap. -/
theorem State.Bounded.updCore {i : Nat} {f : CoreSt → CoreSt} (h : s.Bounded) (hf : ∀ c : CoreSt, (f c).vlcap = c.vlcap := by exact fun _ => rfl) :
    (s.updCore i f).Bounded := h.updCap fun c hc => (hf c).symm ▸ hc

/-- A change of a queue that keeps its pinned lane cap within 64. -/
theorem State.Bounded.updPin {i : Nat} {f : Queue → Queue} (h : s.Bounded)
    (hf : ∀ q : Queue, (∀ p, q.pin = some p → p.vlcap ≤ 64) → ∀ p, (f q).pin = some p → p.vlcap ≤ 64) : (s.updQueue i f).Bounded :=
  h.queues (by
    rw [State.updQueue_queues]
    exact updAt_forall i h.2.2 fun x _ => hf x)

/-- A change of a queue that leaves its pin. -/
theorem State.Bounded.updQueue {i : Nat} {f : Queue → Queue} (h : s.Bounded) (hf : ∀ q : Queue, (f q).pin = q.pin := by exact fun _ => rfl) :
    (s.updQueue i f).Bounded := h.updPin fun q hq p e => hq p (hf q ▸ e)

theorem State.Bounded.updVFile {i : Nat} {f : VFile → VFile} (h : s.Bounded) : (s.updVFile i f).Bounded := h.same rfl (updAt_length ..)

theorem State.Bounded.updBlock {i : Nat} {f : Block → Block} (h : s.Bounded) : (s.updBlock i f).Bounded := h
theorem State.Bounded.updCluster {i : Nat} {f : ClusterSt → ClusterSt} (h : s.Bounded) : (s.updCluster i f).Bounded := h
theorem State.Bounded.updCtx {i : Nat} {f : Ctx → Ctx} (h : s.Bounded) : (s.updCtx i f).Bounded := h
theorem State.Bounded.updJob {i : Nat} {f : Job → Job} (h : s.Bounded) : (s.updJob i f).Bounded := h
theorem State.Bounded.updCopy {i : Nat} {f : Copy → Copy} (h : s.Bounded) : (s.updCopy i f).Bounded := h
theorem State.Bounded.updGang {i : Nat} {f : Gang → Gang} (h : s.Bounded) : (s.updGang i f).Bounded := h
theorem State.Bounded.updPart {p : Nat} {f : Part → Part} (h : s.Bounded) : (s.updPart p f).Bounded := h
theorem State.Bounded.updRun {n : Nat} {f : PlumbRun → PlumbRun} (h : s.Bounded) : (s.updRun n f).Bounded := h
theorem State.Bounded.updSlot {core n : Nat} {f : Slot → Slot} (h : s.Bounded) : (s.updSlot core n f).Bounded := h.updCore
theorem State.Bounded.updPort {g n : Nat} {f : Port → Port} (h : s.Bounded) : (s.updPort g n f).Bounded := h
theorem State.Bounded.updSide {key : Nat} {f : BarSide → BarSide} (h : s.Bounded) : (s.updSide key f).Bounded := h
theorem State.Bounded.updFabPort {n : Nat} {f : FabPort → FabPort} (h : s.Bounded) : (s.updFabPort n f).Bounded := h
theorem State.Bounded.updPoint {ji p : Nat} {f : Skipped → Skipped} (h : s.Bounded) : (s.updPoint ji p f).Bounded := h
theorem State.Bounded.updSpdm {fn : Nat} {f : Spdm → Spdm} (h : s.Bounded) : (s.updSpdm fn f).Bounded := h

/-! ### Memory and accumulators -/

theorem State.Bounded.writeBytes {a : Nat} {l : List Byte} (h : s.Bounded) : (s.writeBytes a l).Bounded := h
theorem State.Bounded.writeN {a n v : Nat} (h : s.Bounded) : (s.writeN a n v).Bounded := h
theorem State.Bounded.clearBytes {a n : Nat} (h : s.Bounded) : (s.clearBytes a n).Bounded := h
theorem State.Bounded.moveBytes {a b n : Nat} (h : s.Bounded) : (s.moveBytes a b n).Bounded := h
theorem State.Bounded.setAcc {core set i j v : Nat} (h : s.Bounded) : (s.setAcc core set i j v).Bounded := h
theorem State.Bounded.zeroSet {core set : Nat} (h : s.Bounded) : (s.zeroSet core set).Bounded := h
theorem State.Bounded.shrinkSet {core set : Nat} (h : s.Bounded) : (s.shrinkSet core set).Bounded := h
theorem State.Bounded.moveSet {core set core' set' : Nat} (h : s.Bounded) : (s.moveSet core set core' set').Bounded := h
theorem State.Bounded.spoil {a n : Nat} (h : s.Bounded) : (s.spoil a n).Bounded := by
  have e := s.spoil_only a n
  exact h.same (congrArg State.waves e :) (congrArg (·.vfiles.length) e :) (congrArg State.cores e :) (congrArg State.queues e :)
theorem State.Bounded.storeN {a n v : Nat} (h : s.Bounded) : (s.storeN a n v).Bounded := h.spoil.writeN

/-! ### The dimensions of a wave that its operations leave -/

@[simp] theorem Wave.dims_wr (w : Wave) (d : Reg) (v : Word) : (w.wr d v).dims = w.dims := by
  unfold Wave.wr
  split <;> rfl

@[simp] theorem Wave.dims_wrK (w : Wave) (d : BitVec 3) (v : Word) : (w.wrK d v).dims = w.dims := by
  unfold Wave.wrK
  split <;> rfl

@[simp] theorem Wave.dims_note (w : Wave) (x : Hist) : (w.note x).dims = w.dims := by
  unfold Wave.note
  split <;> rfl

@[simp] theorem Wave.dims_later (w : Wave) (d : Reg) (v : Word) (p : Bool) : (w.later d v p).dims = w.dims := by
  unfold Wave.later
  split <;> rfl

@[simp] theorem Wave.dims_advance (w : Wave) (si : Nat) (sp : Split) (next : Word) (l : Loops) : (w.advance si sp next l).dims = w.dims := by
  unfold Wave.advance
  rfl

@[simp] theorem Wave.dims_enter (w : Wave) (si new : Nat) (entry : Word) : (w.enter si new entry).dims = w.dims := by
  unfold Wave.enter
  split <;> rfl

@[simp] theorem Wave.dims_leave (w : Wave) (back : Nat) (pc : Word) (l : Loops) (skip : Bool) : (w.leave back pc l skip).dims = w.dims := by
  unfold Wave.leave
  split
  · rfl
  · split
    · split <;> rfl
    · rfl

@[simp] theorem Wave.dims_arrives (w : Wave) (d : Reg) (v : Word) (bad : Bool) : (w.arrives d v bad).dims = w.dims := by
  unfold Wave.arrives
  split <;> rfl

theorem Wave.dims_foldl {α : Type} (l : List α) (f : Wave → α → Wave) (hf : ∀ w x, (f w x).dims = w.dims) (w : Wave) : (l.foldl f w).dims = w.dims := by
  induction l generalizing w with
  | nil => rfl
  | cons x l ih => rw [List.foldl_cons, ih, hf]

/-- Undoing an access brings VL back within VLMAX; the file and the half stay. -/
theorem Wave.Fits.unwind {n : Nat} {w : Wave} (h : w.Fits n) (q : RemoteAsk) : (w.unwind q).Fits n := by
  have undone (l : List Hist) (w : Wave) : (l.foldl Wave.undo w).vfile = w.vfile ∧ (l.foldl Wave.undo w).half = w.half := by
    induction l generalizing w with
    | nil => exact ⟨rfl, rfl⟩
    | cons x l ih => cases x <;> exact ih _
  obtain ⟨hf, hh⟩ := undone w.hist w
  exact ⟨Nat.min_le_right .., (congrArg (· < n) hf).mpr h.2.1, (congrArg (· < 2) hh).mpr h.2.2⟩

/-! ### Reports -/

theorem State.Bounded.faultRecord {p kind code cause sub queue info : Nat} {value : Word} {who : Nat} (h : s.Bounded) :
    (s.faultRecord p kind code cause sub queue info value who).Bounded := by
  have e := s.faultRecord_only p kind code cause sub queue info value who
  exact h.same (congrArg State.waves e :) (congrArg (·.vfiles.length) e :) (congrArg State.cores e :) (congrArg State.queues e :)

theorem State.Bounded.queueFault {q code cause sub info : Nat} {value : Word} {who : Nat} {closed : Bool} (h : s.Bounded) :
    (s.queueFault q code cause sub info value who closed).Bounded := by
  unfold State.queueFault
  extract_lets s1 ofQueue s2
  have h1 : s1.Bounded := h.updQueue
  have h2 : s2.Bounded := h1.cores (List.forall_mem_map.2 h1.2.1)
  exact h2.faultRecord

theorem State.Bounded.reportFault {c : Ctx} {core : Nat} {a : Word} {write : Bool} {cause sub queue info who : Nat} (h : s.Bounded) :
    (s.reportFault c core a write cause sub queue info who).Bounded := by
  have e := s.reportFault_only c core a write cause sub queue info who
  exact h.same (congrArg State.waves e :) (congrArg (·.vfiles.length) e :) (congrArg State.cores e :) (congrArg State.queues e :)

theorem State.Bounded.sendRemote {part : Nat} {ops : List (Nat × RemoteOp)} {use : RemoteUse} (h : s.Bounded) : (s.sendRemote part ops use).Bounded :=
  h.same

theorem State.Bounded.traceRecord {w : Wave} {type num : Nat} {pc : Word} {a b c d : Nat} (h : s.Bounded) :
    (s.traceRecord w type num pc a b c d).Bounded := by
  unfold State.traceRecord
  extract_lets c core size a bytes next moved lost
  have hl : lost.Bounded := h.updCore
  have hm {t : State} (h : t.Bounded) : (moved t).Bounded := h.updCore fun c => by
    split
    · rfl
    · split <;> rfl
  refine h.unless fun h => .ite hl ?_
  split
  · exact hm h.writeBytes
  · exact .ite (hm h.sendRemote) hl
  · exact hl

/-! ### Results in flight and traps -/

theorem State.Bounded.putRegs {wi : Nat} {w : Wave} {n : Nat} {regs : List VReg} {whole bad : List Bool} (h : s.Bounded) :
    (s.putRegs wi w n regs whole bad).Bounded := h.updVFile.updWave

theorem State.Bounded.makeWrite {wi : Nat} {w : Wave} {p : LongWrite} {young : Bool} (h : s.Bounded) : (s.makeWrite wi w p young).Bounded := by
  cases p with
  | scalar d v bad => exact h.updWave fun w => w.dims_wr d v
  | vector => exact h.putRegs.updWave fun w => by split <;> rfl

theorem State.Bounded.drain {wi : Nat} (h : s.Bounded) : (s.drain wi).Bounded := by
  unfold State.drain
  split
  · exact h
  · exact State.Bounded.updWave (h.foldl fun _ _ h => h.makeWrite)

theorem State.Bounded.stopMate {w : Wave} {b : Bool} (h : s.Bounded) : (s.stopMate w b).Bounded := by
  unfold State.stopMate
  split
  · exact h
  · exact h.updWave

theorem State.Bounded.writeFrame {wi : Nat} {w : Wave} {sp : Split} {lvl : Nat} {pc : Word} {t : Trap} (h : s.Bounded) :
    (s.writeFrame wi w sp lvl pc t).Bounded := h.writeBytes

theorem State.Bounded.stopWave {wi : Nat} {w : Wave} {why : StopWhy} {t : Trap} (h : s.Bounded) : (s.stopWave wi w why t).Bounded :=
  h.updWave.stopMate.queueFault

theorem State.Bounded.takeHandler {wi si : Nat} {w : Wave} {sp : Split} {pc : Word} {t : Trap} {framed : Bool} (h : s.Bounded) :
    (s.takeHandler wi si w sp pc t framed).Bounded := by
  unfold State.takeHandler
  extract_lets enter
  have he (new : Nat) (entry : Word) : (enter new entry).Bounded :=
    ((h.unless (·.writeFrame)).updWave fun w => w.dims_enter si new entry).stopMate.traceRecord
  split
  · exact he _ _
  · exact .ite h.stopWave (.ite h.stopWave (he _ _))

theorem State.Bounded.takeTrap {wi si : Nat} {pc : Word} {t : Trap} {write fetch : Bool} (h : s.Bounded) :
    (s.takeTrap wi si pc t write fetch).Bounded := by
  unfold State.takeTrap
  extract_lets s1
  have h1 : s1.Bounded := h.drain.updWave
  split
  · exact h1
  split
  · exact h1
  exact .ite h1.stopWave (.ite (State.Bounded.stopMate (State.Bounded.updWave (h1.unless (·.writeFrame)))).reportFault h1.takeHandler)

theorem State.Bounded.hold {wi si : Nat} (h : s.Bounded) : (s.hold wi si).Bounded := h.updWave

theorem State.Bounded.stall {wi si : Nat} (h : s.Bounded) : (s.stall wi si).Bounded := h.updWave

theorem State.Bounded.trapOr {s' : State} {wi si : Nat} {pc : Word} {t : Trap} {write fetch : Bool} (h : s.Bounded) (h' : s'.Bounded) :
    (s.trapOr s' wi si pc t write fetch).Bounded := .ite h.stall.updWave h'.takeTrap.same

/-! ### Completion -/

theorem State.Bounded.complete {s' : State} {wi si : Nat} {sp : Split} {next stepPc : Word} {taken : Bool} (h : s.Bounded) (h' : s'.Bounded) :
    (s.complete s' wi si sp next stepPc taken).Bounded :=
  .ite (h.trapOr h) (State.Bounded.same (h'.updWave fun w => w.dims_advance ..))

theorem State.Bounded.completeTrap {s' : State} {wi si : Nat} {sp : Split} {t : Trap} (h : s.Bounded) (h' : s'.Bounded) :
    (s.completeTrap s' wi si sp t).Bounded := .ite (h.trapOr h) (h.trapOr h'.updWave)

theorem State.Bounded.retire {wi si : Nat} {sp : Split} {r : Res} (h : s.Bounded) (hr : r.Bounded) : (s.retire wi si sp r).Bounded := by
  cases hr with
  | done h' => exact h.complete h'
  | goto h' => exact h.complete h'
  | trap => exact h.trapOr h
  | trapIn h' => exact h.trapOr h'
  | after h' => exact h.completeTrap h'
  | wait => exact h.hold
  | waitIn h' => exact h'.hold
  | stall => exact h.stall
  | stallIn h' => exact h'.stall
  | left h' => exact h'.same

/-- An instruction of the wave that issues keeps the limits if its body does. -/
theorem State.Bounded.runWaveAt {k : Nat → Nat → Wave → Split → Res} (h : s.Bounded)
    (hk : ∀ wi si w sp, s.waves[wi]? = some w → (k wi si w sp).Bounded) : BoundedOut (s.runWave k) := by
  unfold State.runWave
  split
  · exact .next h
  · split
    · exact .next h
    · exact .next (h.retire (hk _ _ _ _ ‹_›))

theorem State.Bounded.runWave {k : Nat → Nat → Wave → Split → Res} (h : s.Bounded) (hk : ∀ wi si w sp, (k wi si w sp).Bounded) :
    BoundedOut (s.runWave k) := h.runWaveAt fun wi si w sp _ => hk wi si w sp

/-- A trap that the gates of an instruction find comes before its body. -/
theorem Res.Bounded.gateWith {w : Wave} {u : Uses} {early : Trap → Bool} {meets : Nat × Bool → Bool} {k : Unit → Res} (h : (k ()).Bounded) :
    (w.gateWith u early meets k).Bounded := Res.bounded_iff.2 (Wave.gateWith_all _ _ _ _ _ _ (Res.bounded_iff.1 h))

theorem State.Bounded.raiseFlags {wi : Nat} {w : Wave} {sp : Split} {f : BitVec 8} (h : s.Bounded) : (s.raiseFlags wi w sp f).Bounded := by
  unfold State.raiseFlags
  extract_lets s1
  have h1 : s1.Bounded := h.updWave
  split
  · exact .after h1
  · exact .done h1

@[simp] theorem Wave.dims_streamsMoved (w : Wave) (used : List Nat) (now : Nat) : (w.streamsMoved used now).dims = w.dims := by
  unfold Wave.streamsMoved
  refine Wave.dims_foldl _ _ (fun w t => ?_) w
  split
  · rfl
  · dsimp only
    split
    · split <;> rfl
    · rfl

theorem State.Bounded.streamsAfter {wi : Nat} {used : List Nat} (h : s.Bounded) : (s.streamsAfter wi used).Bounded :=
  h.unless fun h => h.updWave fun w => by
    split
    · rfl
    · exact w.dims_streamsMoved ..

theorem State.Bounded.vec {i : Instr} {plan : Wave → Split → VPlan} {k : Nat → Nat → Wave → Split → Res} (h : s.Bounded)
    (hk : ∀ wi si w sp, (k wi si w sp).Bounded) : BoundedOut (s.vec i plan k) := by
  refine h.runWave fun wi si w sp => ?_
  dsimp only
  iterate 6 (split; · constructor)
  split
  · refine Res.bounded_iff.2 (Wave.emptyGate_all _ _ _ _ (Res.bounded_iff.1 ?_))
    split
    · exact .trapIn h.updWave
    · exact .wait
  refine .gateWith ?_
  have a := hk wi si w sp
  generalize k wi si w sp = r at a ⊢
  refine .unless ?_
  cases a with
  | done h => exact .done h.streamsAfter
  | after h => exact .after h.streamsAfter
  | goto h => exact .goto h
  | trapIn h => exact .trapIn h
  | waitIn h => exact .waitIn h
  | stallIn h => exact .stallIn h
  | left h => exact .left h
  | _ => constructor

theorem State.Bounded.vctlAt {i : Instr} {ss : List (Reg × Nat)} {sd : List Reg} {k : Nat → Wave → Split → Res} (h : s.Bounded)
    (hk : ∀ wi w sp, s.waves[wi]? = some w → (k wi w sp).Bounded) : BoundedOut (s.vctl i ss sd k) :=
  h.runWaveAt fun _ _ _ _ e => .unless (.gate (.unless (hk _ _ _ e)))

end Sys2Proof.Machine
end

section
/-! SUPPORT. The operations of a wave keep the limits: its registers, the marks its accesses leave, its reads ahead and its splits. -/

namespace Sys2Proof.Machine

set_option Elab.async false

variable {s : State}

/-! ### Registers, poison and translations -/

theorem State.Bounded.setReg {wi : Nat} {d : Reg} {v : Word} (h : s.Bounded) : (s.setReg wi d v).Bounded :=
  h.updWave fun w => w.dims_wr d v

theorem State.Bounded.heal {l : List (Nat × Nat)} (h : s.Bounded) : (s.heal l).Bounded := h

theorem State.Bounded.poison {a : Nat} (h : s.Bounded) : (s.poison a).Bounded := h

/-- The definition is unfolded as a function and its walk put aside, so that the kernel does not evaluate the walk's bounds. -/
theorem State.Bounded.fillTlb {c : Ctx} {core va : Nat} (h : s.Bounded) : (s.fillTlb c core va).Bounded := by
  generalize e : @State.fillTlb = fill
  delta State.fillTlb at e
  subst e
  beta_reduce
  generalize s.walk c va = o
  cases o with
  | none => exact h
  | some =>
    refine h.cores ?_
    dsimp only
    split
    · exact h.2.1
    · exact updAt_forall _ h.2.1 fun _ _ h => h

theorem State.Bounded.touched {w : Wave} {a : Word} (h : s.Bounded) : (s.touched w a).Bounded := h.unless (·.fillTlb)

theorem State.Bounded.addLanes {w : Wave} {u m b st sl : Nat} (h : s.Bounded) : (s.addLanes w u m b st sl).Bounded := h.updVFile

theorem State.Bounded.beats {w : Wave} {sp : Split} {regs : Nat} {arith : Bool} (h : s.Bounded) : (s.beats w sp regs arith).Bounded := h.addLanes

theorem State.Bounded.writeElems {wi : Nat} {w : Wave} {base sew : Nat} {l : List (Nat × Nat)} (h : s.Bounded) :
    (s.writeElems wi w base sew l).Bounded := h.updVFile.unless (·.updWave)

theorem keepLegacy_keepLegacy (m : BitVec 32) (u v : Nat) : keepLegacy (keepLegacy m u) v = keepLegacy m v := by
  unfold keepLegacy
  ext i
  simp only [BitVec.getElem_or, BitVec.getElem_and, BitVec.getElem_not]
  cases (0x80000#32)[i] <;> simp

/-- The frame's VL is within the VLMAX of the frame's mode. -/
theorem State.vectorWordsOk_vl {wi lvl : Nat} {w : Wave} (ok : s.vectorWordsOk wi w lvl = true) :
    s.frameWord wi lvl 288 ≤ vlmaxOf (keepLegacy w.wmode (s.frameWord wi lvl 280)) := by
  simp only [State.vectorWordsOk, Bool.and_eq_true, decide_eq_true_eq] at ok
  obtain ⟨⟨⟨⟨⟨-, hvl⟩, -⟩, -⟩, -⟩, -⟩ := ok
  exact hvl

/-- A wave with its file and half, the frame's mode and the frame's VL fits. -/
theorem Wave.Fits.framed {n wi lvl : Nat} {w w' : Wave} (h : w.Fits n) (ok : s.vectorWordsOk wi w lvl = true)
    (e : w'.dims = (s.frameWord wi lvl 288, keepLegacy w.wmode (s.frameWord wi lvl 280), w.vfile, w.half)) : w'.Fits n := by
  simp only [Wave.dims, Prod.mk.injEq] at e
  obtain ⟨hl, hm, hf, hh⟩ := e
  simp only [Wave.Fits, Wave.vlmax, hl, hm, hf, hh]
  exact ⟨State.vectorWordsOk_vl ok, h.2⟩

/-- The wave that RSTV leaves has the frame's VL and mode. -/
theorem State.rstv_wave {wi lvl : Nat} {w : Wave} {keepBound : Bool} (hw : s.waves[wi]? = some w) : ∃ w', (s.rstv wi w lvl keepBound).waves[wi]? = some w'
    ∧ w'.dims = (s.frameWord wi lvl 288, keepLegacy w.wmode (s.frameWord wi lvl 280), w.vfile, w.half) := by
  unfold State.rstv
  simp only [State.updWave_waves, State.updVFile_waves, updAt_get_self, hw, Option.map_some]
  refine ⟨_, rfl, ?_⟩
  have e := Wave.dims_foldl (List.range 8) (fun w n => w.wrK (BitVec.ofNat 3 n) (word (s.frameWord wi lvl (512 + 8 * n)))) (fun w n => w.dims_wrK _ _) w
  exact congrArg (fun x => (s.frameWord wi lvl 288, keepLegacy x.2.1 (s.frameWord wi lvl 280), x.2.2)) e

theorem State.Bounded.rstv {wi : Nat} {w : Wave} {lvl : Nat} {keepBound : Bool} (h : s.Bounded) (hw : s.waves[wi]? = some w)
    (ok : s.vectorWordsOk wi w lvl = true) : (s.rstv wi w lvl keepBound).Bounded := by
  obtain ⟨w', hw', e⟩ := State.rstv_wave (lvl := lvl) (keepBound := keepBound) hw
  refine h.updVFile.updWaveAt hw fun hf => ?_
  simp only [State.rstv, State.updWave_waves, State.updVFile_waves, updAt_get_self, hw, Option.map_some, Option.some.injEq] at hw'
  subst hw'
  exact hf.framed ok e

theorem State.Bounded.returnFrom {wi : Nat} {w : Wave} (h : s.Bounded) (hw : s.waves[wi]? = some w) (ok : s.rteOk wi w w.lvl = true) :
    (s.returnFrom wi w).Bounded := by
  unfold State.returnFrom
  extract_lets lvl back s1 f loops s2
  have ok : s.vectorWordsOk wi w w.lvl = true := by
    simp only [State.rteOk, Bool.and_eq_true] at ok
    exact ok.1.1.2
  have h1 : s1.Bounded ∧ s1.mem = s.mem ∧ ∃ w1, s1.waves[wi]? = some w1 ∧ keepLegacy w1.wmode (f 280) = keepLegacy w.wmode (f 280)
      ∧ w1.vfile = w.vfile ∧ w1.half = w.half := by
    unfold s1
    split
    · obtain ⟨w1, hw1, e⟩ := State.rstv_wave (lvl := lvl) (keepBound := true) hw
      simp only [Wave.dims, Prod.mk.injEq] at e
      obtain ⟨-, hm, hf, hh⟩ := e
      exact ⟨h.rstv hw ok, rfl, w1, hw1, by rw [hm, keepLegacy_keepLegacy], hf, hh⟩
    · exact ⟨h, rfl, w, hw, rfl, rfl, rfl⟩
  obtain ⟨h1, hmem, w1, hw1, hm1, hf1, hh1⟩ := h1
  have hf : f = s.frameWord wi lvl := by
    funext off
    exact congrArg (fun m => leValue (memReadBytes m (frameKey wi lvl + off) 8)) hmem
  refine State.Bounded.when ?_ (·.stopMate)
  refine h1.updWaveAt hw1 fun hfit => ?_
  have e := Wave.dims_foldl (List.range 31) (fun w i => w.wr (BitVec.ofNat 5 (i + 1)) (word (f (8 * (i + 1))))) (fun w i => w.dims_wr _ _) w1
  simp only [Wave.dims, Prod.mk.injEq] at e
  obtain ⟨-, em, ef, eh⟩ := e
  have fit : w.Fits s1.vfiles.length := ⟨(h.1 w (List.mem_of_getElem? hw)).1, hf1 ▸ hfit.2.1, hh1 ▸ hfit.2.2⟩
  refine fit.framed ok ((Wave.dims_leave ..).trans ?_)
  simp only [Wave.dims, Prod.mk.injEq]
  exact ⟨congrFun hf 288, by rw [em, hm1, hf], ef.trans hf1, eh.trans hh1⟩

theorem State.Bounded.looked {wi : Nat} (h : s.Bounded) : (s.looked wi).Bounded :=
  h.updWave

/-! ### The side-effect latch and the notes of stores -/

theorem State.Bounded.sideEffect {w : Wave} (h : s.Bounded) : (s.sideEffect w).Bounded := h.updBlock

theorem State.Bounded.noteStores {w : Wave} {l : List (Word × Nat)} (h : s.Bounded) : (s.noteStores w l).Bounded := by
  unfold State.noteStores
  split
  · exact h.unless (·.updBlock)
  · exact h

theorem State.Bounded.latched {w : Wave} {a : Word} (h : s.Bounded) : (s.latched w a).Bounded := h.when (·.sideEffect)

theorem State.Bounded.stored {w : Wave} {a : Word} {n : Nat} (h : s.Bounded) : (s.stored w a n).Bounded :=
  h.when (·.sideEffect.noteStores)

/-! ### Requests to other devices -/

theorem State.Bounded.lookRemote {wi : Nat} {w : Wave} {pc : Word} {op : Nat × RemoteOp} {dev : Bool} (h : s.Bounded) :
    (s.lookRemote wi w pc op dev).Bounded := by
  have send : ∀ part, Remote.Bounded (if s.reaches part op.1 then
      .sent ((s.sendRemote part [op] (.look wi)).updWave wi (fun w => { w with look := some (s.fabric.out.length, pc, dev) }))
      else .ready ⟨[], [], some 0⟩) := fun _ => .ite (.sent h.sendRemote.updWave) .ready
  unfold State.lookRemote
  split
  · exact send _
  · split
    · split
      · split
        · exact .ready
        · exact .pending
      · exact send _
    · exact send _

theorem State.Bounded.startAsk {wi si : Nat} {w : Wave} {kind : AskKind} {ops : List (Nat × RemoteOp)} (h : s.Bounded) :
    (s.startAsk wi si w kind ops).Bounded := .unless (.done h.sendRemote.updWave)

theorem State.answerTo_bounded (s : State) (r : Nat) (ops : List (Nat × RemoteOp)) : (s.answerTo r ops).Bounded := by
  unfold State.answerTo
  split
  · exact .pending
  · split
    · exact .ready
    · exact .pending

theorem State.Bounded.fenced {wi : Nat} {w : Wave} {frm : BitVec 6} {k : Unit → Res} (h : s.Bounded) (hk : (k ()).Bounded) :
    (s.fenced wi w frm k).Bounded := by
  refine .unless ?_
  split
  · exact .trapIn h.updWave
  · exact hk

theorem State.Bounded.readAhead {wi : Nat} {w : Wave} {sp : Split} {a : Word} {n : Nat} {k : State → List Byte → Res}
    (h : s.Bounded) (hk : ∀ s l, State.Bounded s → (k s l).Bounded) :
    (s.readAhead wi w sp a n k).Bounded := by
  unfold State.readAhead
  split
  · exact .trap
  · exact hk _ _ h.looked.touched
  · split
    · exact .stall
    · exact .stallIn (h.lookRemote.of_sent ‹_›)
    · exact .ite (.trapIn h.looked) (hk _ _ h.looked.touched)

/-! ### Instructions of a wave -/

theorem State.Bounded.scalarAt {ss : List (Reg × Nat)} {sd : List Reg} {k : Nat → Nat → Wave → Split → Res} (h : s.Bounded)
    (hk : ∀ wi si w sp, s.waves[wi]? = some w → (k wi si w sp).Bounded) : BoundedOut (s.scalar ss sd k) :=
  h.runWaveAt fun _ _ _ _ e => .gate (hk _ _ _ _ e)

theorem State.Bounded.scalar {ss : List (Reg × Nat)} {sd : List Reg} {k : Nat → Nat → Wave → Split → Res} (h : s.Bounded)
    (hk : ∀ wi si w sp, (k wi si w sp).Bounded) : BoundedOut (s.scalar ss sd k) := h.scalarAt fun wi si w sp _ => hk wi si w sp

theorem State.Bounded.compute {ss : List (Reg × Nat)} {d : Reg} {f : Wave → Word} (h : s.Bounded) : BoundedOut (s.compute ss d f) :=
  h.scalar fun _ _ _ _ => .done h.setReg

/-- A new mode brings VL within its VLMAX. -/
theorem Wave.Fits.setMode {n : Nat} {w : Wave} (h : w.Fits n) (v : Nat) : (w.setMode v).Fits n := ⟨Nat.min_le_right .., h.2⟩

theorem State.Bounded.vctl {i : Instr} {ss : List (Reg × Nat)} {sd : List Reg} {k : Nat → Wave → Split → Res} (h : s.Bounded)
    (hk : ∀ wi w sp, (k wi w sp).Bounded) : BoundedOut (s.vctl i ss sd k) := h.vctlAt fun wi w sp _ => hk wi w sp

/-- A matrix word in legacy mode traps; in native mode it is what it is. -/
theorem State.Bounded.matLegacy {i : Instr} {k : Out State} (h : s.Bounded) (hk : BoundedOut k) : BoundedOut (s.matLegacy i k) := by
  unfold State.matLegacy
  split
  · exact .ite (h.runWave fun _ _ _ _ => .trap) hk
  · exact hk

theorem State.Bounded.matScalar {i : Instr} {ss : List (Reg × Nat)} {sd : List Reg} {k : Nat → Nat → Wave → Split → Res} (h : s.Bounded)
    (hk : ∀ wi si w sp, (k wi si w sp).Bounded) : BoundedOut (s.matScalar i ss sd k) := h.matLegacy (h.scalar hk)

theorem State.Bounded.handlerOnlyAt {i : Instr} {k : Nat → Nat → Wave → Split → Res} (h : s.Bounded)
    (hk : ∀ wi si w sp, s.waves[wi]? = some w → (k wi si w sp).Bounded) : BoundedOut (s.handlerOnly i k) :=
  h.scalarAt fun _ _ _ _ e => .unless (hk _ _ _ _ e)

theorem State.Bounded.handlerOnly {i : Instr} {k : Nat → Nat → Wave → Split → Res} (h : s.Bounded)
    (hk : ∀ wi si w sp, (k wi si w sp).Bounded) : BoundedOut (s.handlerOnly i k) := h.handlerOnlyAt fun wi si w sp _ => hk wi si w sp

theorem State.Bounded.iop {d a b : Reg} {x : BitVec 1} {f : IopIn → Int} (h : s.Bounded) : BoundedOut (s.iop d a b x f) := h.compute

theorem State.Bounded.iop1 {d a : Reg} {x : BitVec 1} {f : IopIn → Int} (h : s.Bounded) : BoundedOut (s.iop1 d a x f) := h.compute

theorem State.Bounded.fencePaths {frm : BitVec 6} (h : s.Bounded) : BoundedOut (s.fencePaths frm) := h.scalar fun _ _ _ _ => h.fenced (.done h)

theorem State.Bounded.branch {a b : Reg} {off : BitVec 16} {cond : Word → Word → Bool} (h : s.Bounded) : BoundedOut (s.branch a b off cond) :=
  h.scalar fun _ _ _ _ => .ite (.goto h) (.done h)

/-! ### Scalar accesses -/

theorem State.Bounded.lds {d a : Reg} {off : BitVec 13} {n : Nat} {signed : Bool} (h : s.Bounded) : BoundedOut (s.lds d a off n signed) := by
  refine h.scalar fun wi si w _ => ?_
  dsimp only
  split
  · exact .trap
  · refine .unless ?_
    split
    · exact .unless (.done (h.touched.updWave fun w => w.dims_later ..))
    · exact .unless h.touched.startAsk

theorem State.Bounded.sts {d a : Reg} {off : BitVec 13} {n : Nat} (h : s.Bounded) : BoundedOut (s.sts d a off n) := by
  refine h.scalar fun wi si w _ => ?_
  dsimp only
  split
  · exact .trapIn h
  · refine .unless ?_
    split
    · exact .done (h.touched.stored.storeN)
    · exact .ite (.trapIn h) h.touched.stored.startAsk

theorem State.Bounded.atomic {d a : Reg} {n : Nat} {ss : List (Reg × Nat)} {f : Wave → Nat → Option Nat} {op : Wave → Nat → RemoteOp} (h : s.Bounded) :
    BoundedOut (s.atomic d a n ss f op) := by
  refine h.scalar fun wi si w _ => ?_
  dsimp only
  split
  · exact .trapIn h
  · refine .unless ?_
    split
    · refine .unless (.done (State.Bounded.updWave ?_ fun w => w.dims_later ..))
      split
      · exact h.touched.stored.storeN
      · exact h.touched.latched
    · exact .ite (.trapIn h) h.touched.latched.startAsk

theorem State.Bounded.amo {fn : Nat} {d a b : Reg} {x : BitVec 1} (h : s.Bounded) : BoundedOut (s.amo fn d a b x) := by
  unfold State.amo
  exact h.atomic

theorem execCas_bounded {d a b : Reg} {x : BitVec 1} {_c : Reg} (h : s.Bounded) : BoundedOut (execCas d a b x _c s) := by
  unfold execCas
  exact h.atomic

end Sys2Proof.Machine
end

section
/-! SUPPORT. The scalar, control, special-register and vector instructions keep the limits. -/

namespace Sys2Proof.Machine

set_option Elab.async false

variable {s : State}

/-! ### Control -/

theorem execJal_bounded {off : BitVec 26} (h : s.Bounded) : BoundedOut (execJal off s) := h.scalar fun _ _ _ _ => .goto h.setReg

theorem execJalr_bounded {d a : Reg} {imm : BitVec 16} (h : s.Bounded) : BoundedOut (execJalr d a imm s) := h.scalar fun _ _ _ _ => .goto h.setReg

theorem execLoop_bounded {a : Reg} {imm : BitVec 16} (h : s.Bounded) : BoundedOut (execLoop a imm s) :=
  h.scalar fun _ _ _ _ => .unless (.unless (.ite (.goto h) (.left h.updWave)))

theorem execBrd_bounded {a : BitVec 3} {off : BitVec 16} (h : s.Bounded) : BoundedOut (execBrd a off s) :=
  h.scalar fun _ _ _ _ => .unless (.ite (.done h) (.ite (.goto h) (.unless (.unless (.left h.updWave)))))

theorem execJoin_bounded (h : s.Bounded) : BoundedOut (execJoin s) := h.scalar fun _ _ _ _ => .unless (.done h)

theorem execYield_bounded (h : s.Bounded) : BoundedOut (execYield s) := h.scalar fun _ _ _ _ => .ite (.done h) (.unless (.left h.updWave))

theorem execNop_bounded (h : s.Bounded) : BoundedOut (execNop s) := h.scalar fun _ _ _ _ => .done h

theorem execTrap_bounded {n : BitVec 12} (h : s.Bounded) : BoundedOut (execTrap n s) := h.scalar fun _ _ _ _ => .after h

theorem execBrk_bounded {n : BitVec 12} (h : s.Bounded) : BoundedOut (execBrk n s) := h.scalar fun _ _ _ _ => .trap

theorem execSysc_bounded {n : BitVec 12} (h : s.Bounded) : BoundedOut (execSysc n s) := h.scalar fun _ _ _ _ => .unless (.done h.sideEffect.drain.updWave)

theorem execRte_bounded (h : s.Bounded) : BoundedOut (execRte s) := h.handlerOnlyAt fun wi _ w _ hw => .unless (by
  split
  next ok => exact .left (h.returnFrom hw ok)
  next => exact .trap)

theorem execHalt_bounded (h : s.Bounded) : BoundedOut (execHalt s) :=
  h.handlerOnly fun _ _ _ _ => .left (h.drain.updWave.queueFault)

theorem execWfe_bounded (h : s.Bounded) : BoundedOut (execWfe s) := h.scalar fun _ _ _ _ => .ite (.left h.updWave) (.waitIn h.updWave)

theorem execClaimv_bounded (h : s.Bounded) : BoundedOut (execClaimv s) :=
  h.handlerOnly fun _ _ _ _ => .unless (.ite (.done h)
    (.done (h.writeBytes.writeBytes.writeN.updFits fun _ _ h => ⟨Nat.le_refl _, h.2⟩)))

theorem execRstv_bounded (h : s.Bounded) : BoundedOut (execRstv s) := h.handlerOnlyAt fun wi _ w _ hw => .unless (.unless (by
  split
  next ok => exact .done (h.rstv hw ok)
  next => exact .trap) (.done h))

theorem execIllegalInstructionWord_bounded {w : IWord} (h : s.Bounded) : BoundedOut (execIllegalInstructionWord w s) := by
  unfold execIllegalInstructionWord
  split
  · exact h.noEffect
  · exact h.runWave fun _ _ _ _ => .unless .trap

/-! ### Special registers -/

theorem State.Bounded.readSpecial {d : Reg} {n : BitVec 12} {i : Instr} (h : s.Bounded) : BoundedOut (s.readSpecial d n i) := by
  refine h.runWave fun wi _ w sp => .unless ?_
  split
  · exact .trap
  · exact .unless (.gate (.ite (.done ((h.when (·.updVFile)).updWave fun w => w.dims_later ..)) (.done (h.when (·.updVFile)).setReg)))

theorem writeIf_bounded {c : Bool} (h : c = true → s.Bounded) : WroteBounded (writeIf c s) := by
  cases c with
  | true => exact .some (h rfl)
  | false => exact .refused

theorem State.Bounded.writeLoop {wi si k : Nat} {v : Word} (h : s.Bounded) : WroteBounded (s.writeLoop wi si k v) :=
  .ite (.some h.updWave) (.ite (writeIf_bounded fun _ => h.updWave) (writeIf_bounded fun _ => h.updWave))

theorem State.Bounded.writeComparator {core k : Nat} {v : Word} (h : s.Bounded) : WroteBounded (s.writeComparator core k v) :=
  .ite (writeIf_bounded fun _ => h.updCore) (writeIf_bounded fun _ => h.updCore)

theorem State.Bounded.writeTrace {core k : Nat} {v : Word} (h : s.Bounded) : WroteBounded (s.writeTrace core k v) :=
  .ite (writeIf_bounded fun _ => h.updCore) (.ite (writeIf_bounded fun _ => h.updCore) (writeIf_bounded fun _ => h.updCore))

theorem State.Bounded.writeOther {wi : Nat} {w : Wave} {k : Nat} {v : Word} (h : s.Bounded) (hw : s.waves[wi]? = some w) :
    WroteBounded (s.writeOther wi w k v) := by
  have frame : ∀ off, (if w.lvl = 0 then s else s.writeN (frameKey wi w.lvl + off) 8 v.toNat).Bounded := fun _ => h.unless (·.writeN)
  unfold State.writeOther
  dsimp only
  split
  · exact writeIf_bounded fun e => h.updWaveAt hw fun hf => ⟨of_decide_eq_true e, hf.2⟩
  iterate 3 exact writeIf_bounded fun _ => h.updWave
  iterate 2 exact writeIf_bounded fun _ => frame _
  · exact .some (frame _)
  · exact writeIf_bounded fun _ => h.updWave
  · exact .some h

theorem State.Bounded.writeMode {wi : Nat} {v : Word} (h : s.Bounded) : WroteBounded (s.writeMode wi v) :=
  writeIf_bounded fun _ => h.updFits fun _ _ hf => hf.setMode _

theorem State.Bounded.writeSpecial {wi si : Nat} {w : Wave} {k : Nat} {v : Word} (h : s.Bounded) (hw : s.waves[wi]? = some w) :
    WroteBounded (s.writeSpecial wi si w k v) := by
  refine .ite h.writeMode (.ite (.some h.updWave) (.ite (.some h.updBlock) (.ite (.some h.updVFile) ?_)))
  exact .ite h.writeLoop (.ite h.writeComparator (.ite h.writeTrace (h.writeOther hw)))

theorem State.Bounded.srw {a : Reg} {n : BitVec 12} {i : Instr} (h : s.Bounded) : BoundedOut (s.srw a n i) := by
  refine h.runWaveAt fun wi si w sp hw => .unless (.unless (.gate ?_))
  have k := h.writeSpecial (si := si) (k := n.toNat) (v := w.rd a) hw
  generalize s.writeSpecial wi si w n.toNat (w.rd a) = r at k
  cases k with
  | refused => exact .trap
  | some h =>
    refine .ite ?_ (.done h)
    split
    · exact .done h
    · split
      · exact .done h
      · exact .left (h.complete h)

theorem execLoopRegisterWrite_bounded {a : Reg} {n : BitVec 12} (h : s.Bounded) : BoundedOut (execLoopRegisterWrite a n s) := .ite h.srw h.noEffect

theorem execComparatorRegisterWrite_bounded {a : Reg} {n : BitVec 12} (h : s.Bounded) : BoundedOut (execComparatorRegisterWrite a n s) := .ite h.srw h.noEffect

theorem execTraceRegisterWrite_bounded {a : Reg} {n : BitVec 12} (h : s.Bounded) : BoundedOut (execTraceRegisterWrite a n s) :=
  .ite h.srw h.noEffect

/-! ### Vector length and mode -/

theorem State.Bounded.grantRecordOf {w : Wave} {sp : Split} {num req result caps : Nat} (h : s.Bounded) :
    (s.grantRecordOf w sp num req result caps).Bounded := h.when (·.traceRecord)

theorem State.Bounded.grantRecord {w : Wave} {sp : Split} {num req result : Nat} (h : s.Bounded) : (s.grantRecord w sp num req result).Bounded :=
  h.grantRecordOf

theorem State.grantRecordOf_waves (s : State) (w : Wave) (sp : Split) (num req result caps : Nat) :
    (s.grantRecordOf w sp num req result caps).waves = s.waves := by
  unfold State.grantRecordOf
  split
  · exact (congrArg State.waves (s.traceRecord_only ..) :)
  · rfl

theorem State.Bounded.core (h : s.Bounded) (n : Nat) : (s.core n).vlcap ≤ 64 := by
  unfold State.core
  rw [List.getD_eq_getElem?_getD]
  cases e : s.cores[n]? with
  | none => exact Nat.le_refl 64
  | some c => exact h.2.1 c (List.mem_of_getElem? e)

/-- The lane cap, at most 64 of 64 lanes, grants no more than VLMAX (R129). -/
theorem State.Bounded.grantVl {wi : Nat} {w : Wave} {sp : Split} {d : Reg} {req : Nat} (h : s.Bounded) (hw : s.waves[wi]? = some w) :
    (s.grantVl wi w sp d req).Bounded := by
  have hcap : w.vlmax * (s.core (s.coreOf w)).vlcap / 64 ≤ w.vlmax :=
    Nat.div_le_of_le_mul (Nat.mul_comm 64 _ ▸ Nat.mul_le_mul_left _ (h.core _))
  refine .unless (.done (h.grantRecord.updWaveAt (by rw [State.grantRecord, State.grantRecordOf_waves]; exact hw) fun hf => ?_))
  have e := Wave.dims_note w (.vl w.vl w.cap)
  simp only [Wave.dims, Prod.mk.injEq] at e
  obtain ⟨-, em, ef, eh⟩ := e
  refine Wave.Fits.of_dims ?_ (Wave.dims_wr ..)
  simp only [Wave.Fits, Wave.vlmax, em, ef, eh]
  exact ⟨Nat.le_trans (Nat.min_le_right ..) hcap, hf.2⟩

theorem execSetvl_bounded {d a : Reg} (h : s.Bounded) : BoundedOut (execSetvl d a s) := h.vctlAt fun _ _ _ => h.grantVl

theorem execSetvli_bounded {d : Reg} {n : BitVec 12} (h : s.Bounded) : BoundedOut (execSetvli d n s) := h.vctlAt fun _ _ _ => h.grantVl

theorem execMode_bounded {d a : Reg} (h : s.Bounded) : BoundedOut (execMode d a s) :=
  h.vctl fun _ _ _ => .ite (.done (h.updFits fun _ w hf => ((hf.of_dims (w.dims_note _)).setMode _).of_dims (Wave.dims_wr ..))) .trap

theorem execSpace_bounded {d a : Reg} (h : s.Bounded) : BoundedOut (execSpace d a s) :=
  h.vctl fun _ _ _ => .ite (.done (h.updWave fun w => (Wave.dims_wr ..).trans (w.dims_note _))) .trap

/-! ### Masks -/

theorem State.Bounded.maskOp {i : Instr} {d : BitVec 3} {f : Wave → Word} (h : s.Bounded) : BoundedOut (s.maskOp i d f) :=
  h.vctl fun _ _ _ => .done (h.updWave fun w => w.dims_wrK ..)

theorem State.Bounded.maskElems {i : Instr} {d : BitVec 3} {f : Wave → Nat} (h : s.Bounded) : BoundedOut (s.maskElems i d f) :=
  h.vctl fun _ _ _ => .unless (.done (h.updWave fun w => w.dims_wrK ..))

theorem execMcnt_bounded {d : Reg} {a : BitVec 3} (h : s.Bounded) : BoundedOut (execMcnt d a s) := h.vctl fun _ _ _ => .done h.setReg

theorem execMfirst_bounded {d : Reg} {a : BitVec 3} (h : s.Bounded) : BoundedOut (execMfirst d a s) := h.vctl fun _ _ _ => .done h.setReg

theorem execMmovs_bounded {d : Reg} {a : BitVec 3} (h : s.Bounded) : BoundedOut (execMmovs d a s) := h.vctl fun _ _ _ => .done h.setReg

theorem execMmovk_bounded {d : BitVec 3} {a : Reg} (h : s.Bounded) : BoundedOut (execMmovk d a s) :=
  h.vctl fun _ _ _ => .done (h.updWave fun w => w.dims_wrK ..)

/-! ### Element functions, conversions, permutes and reductions -/

theorem State.Bounded.deliver {wi : Nat} {w : Wave} {sp : Split} {base fmt : Nat} {l : List (Nat × FRes)} (h : s.Bounded) :
    (s.deliver wi w sp base fmt l).Bounded := h.writeElems.raiseFlags

theorem State.Bounded.vop {i : Instr} {fn : Nat} {d a b : Reg} {x : BitVec 1} (h : s.Bounded) : BoundedOut (s.vop i fn d a b x) :=
  h.vec fun _ _ _ _ => h.beats.deliver

theorem State.Bounded.vfmaOp {i : Instr} {fn : Nat} {d a b : Reg} {x : BitVec 1} {c : Reg} (h : s.Bounded) : BoundedOut (s.vfmaOp i fn d a b x c) :=
  h.vec fun _ _ _ _ => h.beats.deliver

theorem State.Bounded.vun {i : Instr} {fn : Nat} {d a : Reg} (h : s.Bounded) : BoundedOut (s.vun i fn d a) := h.vec fun _ _ _ _ => h.beats.deliver

theorem execVbcast_bounded {d a : Reg} (h : s.Bounded) : BoundedOut (execVbcast d a s) := h.vec fun _ _ _ _ => h.beats.deliver

theorem execViota_bounded {d : Reg} {a : BitVec 3} (h : s.Bounded) : BoundedOut (execViota d a s) := h.vec fun _ _ _ _ => h.beats.deliver

theorem execVcvt_bounded {d a b c : Reg} (h : s.Bounded) : BoundedOut (execVcvt d a b c s) := h.vec fun _ _ _ _ => h.beats.deliver

theorem execVcvtq_bounded {d a b : Reg} {fm : BitVec 2} {sat : BitVec 1} {bsel : BitVec 2} (h : s.Bounded) : BoundedOut (execVcvtq d a b fm sat bsel s) :=
  h.vec fun _ _ _ _ => h.beats.deliver

theorem execVcvtd_bounded {d a b : Reg} {fm bsel : BitVec 2} (h : s.Bounded) : BoundedOut (execVcvtd d a b fm bsel s) := h.vec fun _ _ _ _ => h.beats.deliver

theorem State.Bounded.vcmp {i : Instr} {fn : Nat} {d : BitVec 3} {a b : Reg} {x : BitVec 1} (h : s.Bounded) : BoundedOut (s.vcmp i fn d a b x) :=
  h.vec fun _ _ _ _ => (h.beats.updWave fun w => w.dims_wrK ..).raiseFlags

theorem State.Bounded.vred {i : Instr} {fn : Nat} {d a b : Reg} (h : s.Bounded) : BoundedOut (s.vred i fn d a b) :=
  h.vec fun _ _ _ _ => (h.beats.updWave fun w => w.dims_later ..).raiseFlags

theorem State.Bounded.move {wi : Nat} {w : Wave} {sp : Split} {base : Nat} {l : List (Nat × Nat)} {lovr : Bool} (h : s.Bounded) :
    (s.move wi w sp base l lovr).Bounded := .done h.beats.writeElems.updWave

theorem execVshfl_bounded {d a b : Reg} (h : s.Bounded) : BoundedOut (execVshfl d a b s) := h.vec fun _ _ _ _ => h.move

theorem execVslup_bounded {d a b : Reg} (h : s.Bounded) : BoundedOut (execVslup d a b s) := by
  unfold execVslup
  exact h.vec fun _ _ _ _ => h.move

theorem execVsldn_bounded {d a b : Reg} (h : s.Bounded) : BoundedOut (execVsldn d a b s) := by
  unfold execVsldn
  exact h.vec fun _ _ _ _ => h.move

theorem execVcompr_bounded {d a : Reg} {c : BitVec 3} (h : s.Bounded) : BoundedOut (execVcompr d a c s) := h.vec fun _ _ _ _ => h.move

theorem execVexpnd_bounded {d a : Reg} {c : BitVec 3} (h : s.Bounded) : BoundedOut (execVexpnd d a c s) := h.vec fun _ _ _ _ => h.move

theorem execVextr_bounded {d a b : Reg} (h : s.Bounded) : BoundedOut (execVextr d a b s) :=
  h.vec fun _ _ _ _ => .done (h.beats.updWave fun w => w.dims_wr ..)

theorem execVins_bounded {d a b : Reg} (h : s.Bounded) : BoundedOut (execVins d a b s) := h.vec fun _ _ _ _ => h.move

theorem execVsel_bounded {d a b : Reg} {c : BitVec 3} (h : s.Bounded) : BoundedOut (execVsel d a b c s) := h.vec fun _ _ _ _ => h.move

end Sys2Proof.Machine
end

section
/-! SUPPORT. Vector accesses, streams and the answers of other devices keep the limits. -/

namespace Sys2Proof.Machine

set_option Elab.async false

variable {s : State}

/-! ### Vector accesses -/

theorem State.Bounded.touchAll {w : Wave} {l : List VAcc} (h : s.Bounded) : (s.touchAll w l).Bounded := h.foldl fun _ _ h => h.when (·.touched)

/-- A choice between two states with something else beside them. -/
theorem State.Bounded.fst_ite {α : Type} {c : Prop} {_ : Decidable c} {x y : State × α} (h : x.1.Bounded) (h' : y.1.Bounded) :
    (if c then x else y).1.Bounded := by
  split
  · exact h
  · exact h'

theorem State.Bounded.elemHere {w : Wave} {x : VecAccess} {y : VAcc} {key : Nat} (h : s.Bounded) : (s.elemHere w x y key).1.Bounded := by
  unfold State.elemHere
  split
  · exact h
  · exact h.stored.storeN
  · exact .fst_ite h (h.stored.storeN)

theorem State.Bounded.elemAway {w : Wave} {x : VecAccess} {y : VAcc} {r : Read} (h : s.Bounded) : (s.elemAway w x y r).1.Bounded := by
  unfold State.elemAway
  split
  · exact h
  · exact h.stored
  · exact .fst_ite h h.stored

theorem State.Bounded.perform {w : Wave} {x : VecAccess} {ans : RemoteAnswer} {l : List VAcc} {k : Nat} (h : s.Bounded) :
    (s.perform w x ans l k).1.Bounded := by
  induction l generalizing s x k with
  | nil => exact h
  | cons y ys ih =>
    unfold State.perform
    split
    · exact h
    · exact .fst_ite h.elemHere (ih h.elemHere)
    · exact .fst_ite h (.fst_ite h (.fst_ite h.elemAway (ih h.elemAway)))

theorem State.Bounded.performOn {w : Wave} {x : VecAccess} {ans : RemoteAnswer} {k : Nat} (h : s.Bounded) : (s.performOn w x ans k).1.Bounded :=
  .fst_ite h.perform.perform h.perform

theorem State.Bounded.vecDone {wi : Nat} {w : Wave} {x : VecAccess} (h : s.Bounded) : (s.vecDone wi w x).Bounded :=
  h.heal.updFits fun n w hf => by
    dsimp only
    split <;> exact ⟨Nat.le_trans (Nat.min_le_left ..) hf.1, hf.2⟩

theorem State.Bounded.vecCut {wi : Nat} {w : Wave} {x : VecAccess} {i : Nat} (h : s.Bounded) : (s.vecCut wi w x i).Bounded :=
  (h.heal.unless (·.putRegs)).updWave

theorem State.Bounded.vecAccess {wi si : Nat} {w : Wave} {sp : Split} {op : ElemOp} {d : Reg} {todo : List VAcc} {ldf : Option (Nat × Option Nat)}
    (h : s.Bounded) :
    (s.vecAccess wi si w sp op d todo ldf).Bounded := by
  refine .unless ?_
  refine .ite ?_ (State.Bounded.startAsk (State.Bounded.when (.fst_ite h.beats.touchAll h.beats.touchAll.performOn) fun k => k.foldl fun _ _ h => h.stored))
  split
  · exact .done (State.Bounded.vecDone (.fst_ite h.beats.touchAll h.beats.touchAll.performOn))
  · exact .trapIn (State.Bounded.vecCut (.fst_ite h.beats.touchAll h.beats.touchAll.performOn))

theorem State.Bounded.vload {i : Instr} {d : Reg} {ss : List (Reg × Nat)} {idx : Option Reg} {sum : Wave → Nat → Word} (h : s.Bounded) :
    BoundedOut (s.vload i d ss idx sum) := h.vec fun _ _ _ _ => h.vecAccess

theorem execVldf_bounded {d a : Reg} (h : s.Bounded) : BoundedOut (execVldf d a s) := h.vec fun _ _ _ _ => h.vecAccess

theorem State.Bounded.vstore {i : Instr} {d : Reg} {ss : List (Reg × Nat)} {idx : Option Reg} {sum : Wave → Nat → Word} (h : s.Bounded) :
    BoundedOut (s.vstore i d ss idx sum) := h.vec fun _ _ _ _ => h.vecAccess

theorem State.Bounded.vamo {i : Instr} {fn : Nat} {d a b : Reg} {x : BitVec 1} (h : s.Bounded) : BoundedOut (s.vamo i fn d a b x) :=
  h.vec fun _ _ _ _ => h.vecAccess

/-! ### The answer to the access of a wave -/

theorem State.Bounded.unwind {wi : Nat} {q : RemoteAsk} (h : s.Bounded) : (s.updWave wi (fun w => w.unwind q)).Bounded :=
  h.updFits fun _ _ hf => hf.unwind q

theorem State.Bounded.askFailed {wi : Nat} {w : Wave} {q : RemoteAsk} {t : Trap} {write : Bool} {stops : Bool} (h : s.Bounded) :
    (s.askFailed wi w q t write stops).Bounded := by
  unfold State.askFailed
  split
  · exact h.unwind
  · exact State.Bounded.ite h.unwind.updWave h.unwind.takeTrap

theorem State.Bounded.vecAnswer {wi : Nat} {w : Wave} {q : RemoteAsk} {x : VecAccess} {ans : RemoteAnswer} {stops : Bool} (h : s.Bounded) :
    (s.vecAnswer wi w q x ans stops).Bounded := by
  unfold State.vecAnswer
  have k := h.performOn (w := w) (x := x) (ans := ans) (k := 0)
  generalize s.performOn w x ans 0 = r at k ⊢
  dsimp only
  split
  · split
    · exact k.unwind
    · split
      · exact k.unwind.vecCut
      · exact k.unwind.vecCut.unless (·.takeTrap)
  · exact State.Bounded.ite (k.vecDone.updWave fun w => w.answered.dims_streamsMoved ..) k.sendRemote.updWave

theorem State.Bounded.accessAnswer {wi : Nat} {ans : RemoteAnswer} {stops : Bool} (h : s.Bounded) : (s.accessAnswer wi ans stops).Bounded := by
  unfold State.accessAnswer
  split
  · exact h
  split
  · exact h
  dsimp only
  split
  · exact h.vecAnswer
  · exact State.Bounded.ite h.askFailed h.updWave
  · exact State.Bounded.ite h.askFailed (h.updWave fun w => w.dims_arrives ..)
  · exact State.Bounded.ite h.askFailed (State.Bounded.ite h.askFailed ((h.when (·.noteStores)).updWave fun w => w.dims_arrives ..))

/-! ### Streams -/

theorem State.Bounded.bind {wi : Nat} {w : Wave} {t : Stream} {a : Word} (h : s.Bounded) : (s.bind wi w t a).Bounded :=
  .ite (.unless (.unless (.done h.updPort.updWave))) (.done h.updWave)

theorem execSbind_bounded {d a : Reg} (h : s.Bounded) : BoundedOut (execSbind d a s) := by
  refine h.runWave fun wi _ w sp => .unless (.unless (.unless (.gate (h.fenced (h.readAhead fun s l h => ?_)))))
  split
  · exact .trap
  split
  · exact .trap
  · exact h.bind

theorem State.Bounded.unbindStream {wi : Nat} {w : Wave} {t : Stream} (h : s.Bounded) : (s.unbindStream wi w t).Bounded := h.updWave.when (·.updPort)

theorem execSunb_bounded {d : Reg} (h : s.Bounded) : BoundedOut (execSunb d s) := by
  refine h.runWave fun wi _ w _ => .unless (.unless (.unless ?_))
  split
  · exact .done h
  · split
    · exact .ite (.done h.unbindStream) (.trapIn h.updWave)
    · exact .unless (.done h.unbindStream)

theorem execSqry_bounded {d a : Reg} (h : s.Bounded) : BoundedOut (execSqry d a s) := h.runWave fun _ _ _ _ => .unless (.gate (.done h.setReg))

theorem State.Bounded.fillDone {wi : Nat} {w : Wave} {t : Stream} {l : List (Nat × Bool)} (h : s.Bounded) : (s.fillDone wi w t l).Bounded :=
  h.putRegs.updWave

theorem State.Bounded.streamFault {wi : Nat} {t : Stream} {part : List (Nat × Bool)} {c sub : Nat} {a : Word} (h : s.Bounded) :
    (s.streamFault wi t part c sub a).Bounded := h.updWave

theorem State.Bounded.streamAsk {wi : Nat} {w : Wave} {t : Stream} {l : List VAcc} {ops : List (Nat × RemoteOp)} (h : s.Bounded) :
    (s.streamAsk wi w t l ops).Bounded := by
  unfold State.streamAsk
  split
  · exact s.answerTo_bounded _ _
  · exact .ite .ready (.sent h.sendRemote.updWave)

theorem State.Bounded.fillMem {wi : Nat} {w : Wave} {t : Stream} (h : s.Bounded) : BoundedOut (s.fillMem wi w t) := by
  refine .ite h.noEffect ?_
  split
  · exact h.noEffect
  · exact (h.streamAsk.of_sent ‹_›).effect
  · dsimp only
    split
    · exact h.touchAll.perform.fillDone.effect
    · exact h.touchAll.perform.streamFault.effect

theorem State.Bounded.fillPort {wi : Nat} {w : Wave} {t : Stream} (h : s.Bounded) : BoundedOut (s.fillPort wi w t) :=
  .ite h.noEffect h.updPort.fillDone.effect

theorem execStreamFill_bounded {wi : Nat} {v : Reg} (h : s.Bounded) : BoundedOut (execStreamFill wi v s) := by
  unfold execStreamFill
  split
  · exact h.noEffect
  split
  · exact h.noEffect
  · exact .ite (.ite h.fillPort h.fillMem) h.noEffect

theorem State.Bounded.takeDone {wi : Nat} {w : Wave} {t : Stream} {sent : Nat} (h : s.Bounded) : (s.takeDone wi w t sent).Bounded :=
  h.updWave.when (·.updPort)

theorem State.Bounded.takeMem {wi : Nat} {w : Wave} {t : Stream} (h : s.Bounded) : BoundedOut (s.takeMem wi w t) := by
  refine .ite h.noEffect ?_
  split
  · exact h.noEffect
  · exact ((h.when fun h => h.foldl fun _ _ h => h.stored).streamAsk.of_sent ‹_›).effect
  · dsimp only
    split
    · exact h.touchAll.perform.heal.takeDone.effect
    · exact h.touchAll.perform.heal.streamFault.updWave.effect

theorem State.Bounded.takePort {wi : Nat} {w : Wave} {t : Stream} (h : s.Bounded) : BoundedOut (s.takePort wi w t) :=
  .ite h.noEffect h.updPort.takeDone.effect

theorem execStreamTake_bounded {wi : Nat} {v : Reg} (h : s.Bounded) : BoundedOut (execStreamTake wi v s) := by
  unfold execStreamTake
  split
  · exact h.noEffect
  split
  · exact h.noEffect
  refine .ite ?_ h.noEffect
  split
  · exact h.streamFault.effect
  · exact .ite h.takePort h.takeMem

/-! ### Fabric instructions -/

theorem State.Bounded.sendFabric {wi : Nat} {w : Wave} {a : Word} {ops : List (Nat × RemoteOp)} (h : s.Bounded) : (s.sendFabric wi w a ops).Bounded := by
  unfold State.sendFabric
  dsimp only
  refine (h.sideEffect.unless (·.sendRemote)).unless fun h => ?_
  split
  · exact h.sendRemote
  · exact h.same

theorem State.Bounded.rred {i : Instr} {op : Nat} {d a b : Reg} {fm : BitVec 2} (h : s.Bounded) : BoundedOut (s.rred i op d a b fm) := by
  refine h.vec fun wi _ w sp => ?_
  dsimp only
  split
  · exact .trapIn h
  · refine .unless (.ite (.trapIn h) ?_)
    split
    · exact .trapIn h
    · exact .ite (.done h.beats.touchAll.sideEffect) (.ite (.done h.beats.touchAll.sideEffect) (.done h.beats.touchAll.noteStores.sendFabric))

theorem execRsig_bounded {a b : Reg} (h : s.Bounded) : BoundedOut (execRsig a b s) := by
  refine h.scalar fun wi _ w _ => ?_
  dsimp only
  split
  · exact .trapIn h
  · split
    · exact .trapIn h
    · exact .unless (.done h.touched.noteStores.sendFabric)

/-! ### Requests of other devices -/

theorem State.Bounded.reply {r : RemoteIn} {x : RemoteAnswer} (h : s.Bounded) : (s.reply r x).Bounded := h.unless (·.same)

theorem State.Bounded.ackLocal (h : s.Bounded) : (s.ackLocal).Bounded := h.same

theorem State.Bounded.dropArrived {n : Nat} {r : RemoteIn} {done : Bool} (h : s.Bounded) : (s.dropArrived n r done).Bounded := h.same.ackLocal.reply

theorem State.Bounded.flaggedWrite {key : Nat} {l : List Byte} {flag : Bool} (h : s.Bounded) : (s.flaggedWrite key l flag).Bounded := by
  have k : (s.writeBytes key l).Bounded := h.writeBytes
  exact k.when fun k => k.foldl fun _ _ h => h.poison

theorem State.Bounded.performRemote {r : RemoteIn} {key : Nat} (h : s.Bounded) : (s.performRemote r key).Bounded := by
  unfold State.performRemote
  split
  · exact h.reply
  · exact h.flaggedWrite.reply
  · exact (h.unless (·.writeN)).reply
  · exact (h.unless (·.writeN)).reply
  · exact h.same
  · exact h.same

theorem State.Bounded.takeUp {r : RemoteIn} (h : s.Bounded) : (s.takeUp r).Bounded := by
  have k : ({ s with fabric := { s.fabric with performed := s.fabric.performed ++ [(r.dev, r.seq)] } } : State).Bounded := h.same
  unfold State.takeUp
  dsimp only
  split
  · exact k.reply
  · exact State.Bounded.ite k.reply k.performRemote

theorem State.Bounded.takeTurns {dev fuel : Nat} (h : s.Bounded) : (s.takeTurns dev fuel).Bounded := by
  induction fuel generalizing s with
  | zero => exact h
  | succ n ih =>
    unfold State.takeTurns
    split
    · exact h
    · exact State.Bounded.ite (ih h.same.takeUp) h

theorem State.Bounded.overdue (h : s.Bounded) : (s.overdue).Bounded := h.foldl fun _ _ h => h.takeTurns

theorem execRemoteRequest_bounded {r : RemoteIn} (h : s.Bounded) : BoundedOut (execRemoteRequest r s) :=
  .ite h.noEffect (.ite h.takeUp.takeTurns.effect h.same.takeTurns.effect)

theorem execRredApply_bounded {req n : Nat} (h : s.Bounded) : BoundedOut (execRredApply req n s) := by
  unfold execRredApply
  split
  · exact h.noEffect
  split
  · refine .ite h.noEffect ?_
    dsimp only
    split
    · exact h.dropArrived.effect
    · exact (h.unless (·.writeN)).dropArrived.effect
  · exact h.noEffect

theorem execRsigApply_bounded {req : Nat} (h : s.Bounded) : BoundedOut (execRsigApply req s) := by
  unfold execRsigApply
  split
  · exact h.noEffect
  split
  · refine .ite h.noEffect ?_
    split
    · exact h.dropArrived.effect
    · exact (h.unless (·.writeN)).dropArrived.effect
  · exact h.noEffect

theorem State.Bounded.fabricFailure {req wi bi : Nat} {a : Word} (h : s.Bounded) : (s.fabricFailure req wi bi a).Bounded := by
  unfold State.fabricFailure
  split
  · exact h
  refine State.Bounded.ite h.updWave ?_
  split
  · exact h
  · exact h.updJob

theorem State.Bounded.answered {req : Nat} {a : RemoteAnswer} (h : s.Bounded) : (s.answered req a).Bounded := by
  unfold State.answered
  split
  · exact h
  dsimp only
  split
  · exact h.same.when fun h => h.fabricFailure
  · exact h.same.accessAnswer
  · exact h.same

end Sys2Proof.Machine
end

section
/-! SUPPORT. Operand slots, matrix instructions and accumulators keep the limits. -/

namespace Sys2Proof.Machine

set_option Elab.async false

variable {s : State}

/-! ### Grants -/

theorem State.Bounded.applyGrant {bi : Nat} {g : Grant} (h : s.Bounded) : (s.applyGrant bi g).Bounded := h.updBlock.updCore

theorem State.Bounded.settileEnd {wi : Nat} {w : Wave} {sp : Split} {d : Reg} {req : Word} {st : Nat} {g : Grant} {caps : Nat} (h : s.Bounded) :
    (s.settileEnd wi w sp d req st g caps).Bounded := .done h.grantRecordOf.updWave.setReg

theorem State.Bounded.settileWait {wi : Nat} {w : Wave} {sp : Split} {t : TileWait} (h : s.Bounded) : (s.settileWait wi w sp t).Bounded :=
  .ite h.applyGrant.settileEnd .stall

theorem State.Bounded.settile {wi : Nat} {w : Wave} {sp : Split} {d a : Reg} (h : s.Bounded) : (s.settile wi w sp d a).Bounded :=
  .ite h.settileEnd (.ite h.applyGrant.settileEnd (.stallIn h.updWave))

theorem execSettile_bounded {d a : Reg} (h : s.Bounded) : BoundedOut (execSettile d a s) := by
  refine h.matLegacy (h.runWave fun _ _ _ _ => ?_)
  split
  · exact .ite h.settileWait .stall
  · exact .gate h.settile

theorem execTileq_bounded {d a : Reg} (h : s.Bounded) : BoundedOut (execTileq d a s) := h.matScalar fun _ _ _ _ => .done h.grantRecord.setReg

theorem execTileGrantApply_bounded {wi : Nat} (h : s.Bounded) : BoundedOut (execTileGrantApply wi s) := by
  unfold execTileGrantApply
  split
  · exact h.noEffect
  split
  · exact h.noEffect
  split
  · exact h.noEffect
  split
  · exact h.noEffect
  · exact .ite (.next (h.retire h.settileWait)) h.noEffect

/-! ### Operand slots -/

theorem execOclaim_bounded {d : Reg} {nw role : BitVec 1} (h : s.Bounded) : BoundedOut (execOclaim d nw role s) := by
  refine h.matScalar fun wi _ w sp => ?_
  dsimp only
  split
  · exact .done (h.updCore.updSlot.clearBytes).setReg
  · exact .ite (.done h.setReg) (.waitIn h.updCore)

theorem execOrls_bounded {a : Reg} (h : s.Bounded) : BoundedOut (execOrls a s) := by
  refine h.matScalar fun _ _ w _ => ?_
  dsimp only
  split
  · exact .trap
  · exact .unless (.unless (.done h.updSlot))

theorem State.Bounded.freeSlot {core n count : Nat} (h : s.Bounded) : (s.freeSlot core n count).Bounded := h.writeBytes

theorem State.Bounded.freshSlot {core n : Nat} (h : s.Bounded) : (s.freshSlot core n).Bounded := by
  unfold State.freshSlot
  split
  · exact h.when (·.freeSlot)
  · exact h

theorem State.Bounded.ofill {w : Wave} {d : Reg} {v : Word} (h : s.Bounded) : (s.ofill w d v).Bounded := by
  unfold State.ofill
  dsimp only
  split
  · exact .trap
  refine .unless (.unless ?_)
  split
  · exact .trap
  · exact .unless (.unless (.done (h.freshSlot.writeBytes).updSlot))

theorem execOfill_bounded {d a : Reg} (h : s.Bounded) : BoundedOut (execOfill d a s) := h.matLegacy (h.vec fun _ _ _ _ => h.ofill)

theorem execOqry_bounded {d a : Reg} (h : s.Bounded) : BoundedOut (execOqry d a s) := h.matScalar fun _ _ _ _ => .done h.setReg

theorem State.Bounded.keepOld {core n : Nat} (h : s.Bounded) : (s.keepOld core n).Bounded :=
  h.updCore

/-! ### Multiplies -/

theorem State.Bounded.multiply {i : Instr} {fn : Nat} {d : BitVec 2} {a b : Reg} {hi : BitVec 1} (h : s.Bounded) : BoundedOut (s.multiply i fn d a b hi) := by
  refine h.matLegacy (h.runWave fun _ _ w _ => .unless (.gate (.unless ?_)))
  split
  · exact .trap
  · exact .unless (.done (State.Bounded.updBlock (h.updCore fun c => by split <;> rfl)))

theorem execMmaDispatch_bounded {core : Nat} (h : s.Bounded) : BoundedOut (execMmaDispatch core s) := by
  unfold execMmaDispatch
  dsimp only
  split
  · exact h.noEffect
  split
  · refine .ite h.updCore.effect ?_
    split
    · exact .ite h.updCore.effect h.noEffect
    · exact h.noEffect
  · exact .ite h.updCore.effect h.noEffect
  · exact h.noEffect

/-! ### Accumulators -/

theorem State.withSet_bounded {w : Wave} {a : BitVec 2} {k : Nat → Res} (hk : ∀ set, (k set).Bounded) : (s.withSet w a k).Bounded := by
  unfold State.withSet
  dsimp only
  split
  · exact .trap
  · exact .unless (hk _)

theorem State.Bounded.setLive {bi : Nat} {a : BitVec 2} {live mend : Bool} (h : s.Bounded) : (s.setLive bi a live mend).Bounded := h.updBlock

theorem execAzero_bounded {a : BitVec 2} (h : s.Bounded) : BoundedOut (execAzero a s) :=
  h.matScalar fun _ _ _ _ => State.withSet_bounded fun _ => .done (h.zeroSet).setLive

theorem State.Bounded.deliverLater {wi : Nat} {w : Wave} {sp : Split} {d : Reg} {fmt : Nat} {l : List (Nat × FRes)} (h : s.Bounded) :
    (s.deliverLater wi w sp d fmt l).Bounded := h.updWave.raiseFlags

theorem execAxt_bounded {d : Reg} {a : BitVec 2} {b : Reg} (h : s.Bounded) : BoundedOut (execAxt d a b s) :=
  h.matLegacy (h.vec fun _ _ _ _ => .unless (State.withSet_bounded fun _ => h.beats.deliverLater))

theorem execAxts_bounded {d : Reg} {a : BitVec 2} {b : Reg} {fm : BitVec 2} {sat : BitVec 1} {bsel : BitVec 2} (h : s.Bounded) :
    BoundedOut (execAxts d a b fm sat bsel s) := h.matLegacy (h.vec fun _ _ _ _ => .unless (State.withSet_bounded fun _ => h.beats.deliverLater))

theorem execAins_bounded {d : Reg} {a : BitVec 2} {b : Reg} (h : s.Bounded) : BoundedOut (execAins d a b s) :=
  h.matLegacy (h.vec fun _ _ _ _ => State.withSet_bounded fun _ => (h.beats.foldl fun _ _ h => h.setAcc).setLive.raiseFlags)

theorem State.Bounded.imageOp {i : Instr} {d : Reg} {a : BitVec 2} {b : Reg} {writes : Bool} {k : Wave → Nat → List (Nat × Nat × Nat) → State}
    (h : s.Bounded) (hk : ∀ w set l, (k w set l).Bounded) :
    BoundedOut (s.imageOp i d a b writes k) := by
  refine h.matScalar fun wi _ w _ => .unless (State.withSet_bounded fun set => .unless (.unless ?_))
  dsimp only
  split
  · exact .trap
  · exact .unless (.done (hk _ _ _))

theorem execAsave_bounded {d : Reg} {a : BitVec 2} {b : Reg} (h : s.Bounded) : BoundedOut (execAsave d a b s) :=
  h.imageOp fun _ _ _ => ((h.foldl fun _ _ h => h.storeN).when (·.sideEffect)).heal.setLive

theorem execAload_bounded {d : Reg} {a : BitVec 2} {b : Reg} (h : s.Bounded) : BoundedOut (execAload d a b s) :=
  h.imageOp fun _ _ _ => (h.foldl fun _ _ h => h.setAcc).setLive

/-! ### The completion of a multiply -/

theorem State.Bounded.applyMma {core : Nat} {o : MmaOp} (h : s.Bounded) : (s.applyMma core o).Bounded :=
  (h.when (·.zeroSet)).foldl fun _ _ h => h.foldl fun _ _ h => h.setAcc

theorem execMmaComplete_bounded {core : Nat} (h : s.Bounded) : BoundedOut (execMmaComplete core s) := by
  unfold execMmaComplete
  split
  · exact h.noEffect
  · exact h.applyMma.updCore.effect

end Sys2Proof.Machine
end

section
/-! SUPPORT. Blocks, bins, barriers and copies keep the limits. -/

namespace Sys2Proof.Machine

set_option Elab.async false

variable {s : State}

/-! ### Blocks and their bins -/

theorem State.Bounded.pinOn {core : Nat} {p : Pin} (h : s.Bounded) (e : s.pinOn core = some p) : p.vlcap ≤ 64 := by
  unfold State.pinOn at e
  split at e
  · cases e
  next x _ =>
    rw [State.queue, List.getD_eq_getElem?_getD] at e
    cases eq : s.queues[x.1.queue]? with
    | none =>
      rw [eq] at e
      cases e
    | some q =>
      rw [eq] at e
      exact h.2.2 q (List.mem_of_getElem? eq) p e

theorem State.Bounded.setGangs {g : List Gang} (h : s.Bounded) : ({ s with gangs := g } : State).Bounded := h

theorem State.Bounded.holdPin {core : Nat} (h : s.Bounded) : (s.holdPin core).Bounded := by
  unfold State.holdPin
  split
  · exact h
  next p e => exact h.updCap fun _ _ => h.pinOn e

/-- A launched wave has the VLMAX of its mode as VL, its own file and the half it is given. -/
theorem Wave.launch_fits {n bi i half vi : Nat} {mate : Option Nat} {legacy : Bool} {entry handler s1 : Word} (hv : vi < n) (hh : half < 2) :
    (Wave.launch bi i half mate vi legacy entry handler s1).Fits n := by
  refine Wave.Fits.of_dims (w := (Wave.launch bi i half mate vi legacy entry handler s1)) ?_ rfl
  unfold Wave.launch
  exact Wave.Fits.of_dims ⟨Nat.le_refl _, hv, hh⟩ (Wave.dims_wr ..)

theorem State.Bounded.launchWaves {bi n : Nat} {legacy : Bool} {entry handler s1 : Word} (h : s.Bounded) :
    (s.launchWaves bi legacy entry handler s1 n).Bounded := by
  induction n with
  | zero => exact h
  | succ n ih =>
    refine State.Bounded.updBlock (ih.waves (List.forall_mem_append.2 ⟨fun w hw => ?_, fun w hw => ?_⟩))
    · exact (ih.1 w hw).mono (by simp)
    · have hv : (s.launchWaves bi legacy entry handler s1 n).vfiles.length
          < ((s.launchWaves bi legacy entry handler s1 n).vfiles ++ [VFile.blank]).length := by simp
      split at hw
      · obtain rfl | rfl : w = _ ∨ w = _ := by simpa using hw
        · exact Wave.launch_fits hv (by decide)
        · exact Wave.launch_fits hv (by decide)
      · obtain rfl : w = _ := by simpa using hw
        exact Wave.launch_fits hv (by decide)

theorem State.Bounded.launchBlock {b : Block} {entry : Word} {waves : Nat} {s1 : Word} (h : s.Bounded) : (s.launchBlock b entry waves s1).Bounded := by
  unfold State.launchBlock
  dsimp only
  refine State.Bounded.holdPin (State.Bounded.launchWaves ?_)
  have k {c : Nat} {l : List Nat} {b : Block} {a n : Nat} :
      (l.foldl (fun s n => s.zeroSet c n) (({ s with blocks := s.blocks ++ [b] } : State).clearBytes a n)).Bounded :=
    (h.same.clearBytes).foldl fun _ _ h => h.zeroSet
  split
  · exact k.updCluster
  · exact k.updCluster.updJob

theorem State.Bounded.latchBlock {bi : Nat} (h : s.Bounded) : (s.latchBlock bi).Bounded := h.foldl fun _ _ h => h.updWave

theorem State.Bounded.latchGang {gi : Nat} (h : s.Bounded) : (s.latchGang gi).Bounded := h.foldl fun _ _ h => h.latchBlock

theorem State.Bounded.launchBin {core n : Nat} {b : Bin} (h : s.Bounded) : (s.launchBin core n b).Bounded := State.Bounded.ite h.updCore h.updCore

theorem State.Bounded.ripen {core : Nat} (h : s.Bounded) : (s.ripen core).Bounded := by
  refine h.foldl fun s n h => ?_
  split
  · exact h.when (·.launchBin)
  · exact h

theorem State.Bounded.placeThread {core bi : Nat} {entry : Word} {arg : BitVec 32} {flush : Bool} (h : s.Bounded) :
    (s.placeThread core bi entry arg flush).1.Bounded := by
  unfold State.placeThread
  extract_lets s1 obj c
  have h1 : s1.Bounded := h.ripen
  clear_value s1
  split
  · exact h1
  extract_lets old b s2
  have h2 : s2.Bounded := h1.updCore
  clear_value s2
  split
  · exact .fst_ite h2.launchBin h2.launchBin
  · exact h2

theorem State.Bounded.placed {t : State} {core bi n : Nat} {entry : Word} {arg : BitVec 32} {flush : Bool} (h : s.Bounded)
    (e : s.placeThread core bi entry arg flush = (t, n)) : t.Bounded := by
  have k := h.placeThread (core := core) (bi := bi) (entry := entry) (arg := arg) (flush := flush)
  rwa [e] at k

theorem State.Bounded.spawn {i : Instr} {d a b : Reg} {flush : Bool} (h : s.Bounded) : BoundedOut (s.spawn i d a b flush) := by
  refine h.matScalar fun wi _ w _ => ?_
  extract_lets t
  have h : t.Bounded := h.sideEffect
  split
  · exact .done h.setReg
  split
  next e => exact .done (h.placed e).setReg

theorem execBinTimerExpiry_bounded {core bin : Nat} (h : s.Bounded) : BoundedOut (execBinTimerExpiry core bin s) := by
  unfold execBinTimerExpiry
  split
  · exact h.noEffect
  · exact .ite h.launchBin.effect h.noEffect

theorem execBinBlockLaunch_bounded {core : Nat} (h : s.Bounded) : BoundedOut (execBinBlockLaunch core s) := by
  unfold execBinBlockLaunch
  split
  · exact h.noEffect
  split
  · exact h.noEffect
  · refine .ite h.noEffect (State.Bounded.effect (State.Bounded.foldl (State.Bounded.launchBlock (State.Bounded.setGangs h.updCore)) fun s wi h => ?_))
    split
    · exact h
    · exact h.updVFile.updFits fun _ _ hf => ⟨Nat.min_le_right .., hf.2⟩

theorem State.Bounded.endWave {wi : Nat} {w : Wave} (h : s.Bounded) : (s.endWave wi w).Bounded := h.drain.updWave.stopMate.when (·.updBlock)

theorem State.Bounded.endSplit {wi si : Nat} {w : Wave} {sp : Split} (h : s.Bounded) : (s.endSplit wi si w sp).Bounded := State.Bounded.ite h.endWave h.updWave

theorem execExit_bounded (h : s.Bounded) : BoundedOut (execExit s) := h.scalar fun _ _ _ _ => .left h.endSplit

theorem execCont_bounded {d a : Reg} (h : s.Bounded) : BoundedOut (execCont d a s) := by
  refine h.scalar fun wi si w sp => ?_
  dsimp only
  split
  · exact .trap
  · exact .unless (.left h.updWave.endSplit)

/-! ### Barriers -/

theorem State.Bounded.putBar {key : Nat} {b : Bar} (h : s.Bounded) : (s.putBar key b).Bounded := by
  have hw := h.writeBytes (a := key) (l := leBytes 4 b.pend ++ leBytes 4 b.arrived ++ leBytes 4 b.expect ++ leBytes 4 b.st)
  unfold State.putBar
  generalize s.writeBytes key (leBytes 4 b.pend ++ leBytes 4 b.arrived ++ leBytes 4 b.expect ++ leBytes 4 b.st) = t at hw
  exact hw.same

theorem State.Bounded.freshSide {key : Nat} (h : s.Bounded) : (s.freshSide key).Bounded := h.updSide

theorem State.Bounded.placeFired {core fuel i : Nat} (h : s.Bounded) : (s.placeFired core fuel i).Bounded := by
  induction fuel generalizing s i with
  | zero => exact h
  | succ n ih =>
    unfold State.placeFired
    split
    · exact h
    refine State.Bounded.ite ?_ (ih h)
    split
    next e => exact State.Bounded.ite (ih h) (ih (h.placed e).updCore)

theorem State.Bounded.fireTriggers {key : Nat} (h : s.Bounded) : (s.fireTriggers key).Bounded := h.updCore.placeFired

theorem execTriggerRetry_bounded {core : Nat} (h : s.Bounded) : BoundedOut (execTriggerRetry core s) := .ite h.placeFired.effect h.noEffect

theorem State.Bounded.settleBar {key : Nat} {b : Bar} (h : s.Bounded) : (s.settleBar key b).Bounded :=
  State.Bounded.ite (h.freshSide.putBar.foldl fun _ _ h => h.latchBlock).fireTriggers h.putBar

theorem State.Bounded.copyOntoBar {key n : Nat} {err pois : Bool} (h : s.Bounded) : (s.copyOntoBar key n err pois).Bounded :=
  (h.when (·.updSide)).settleBar

theorem State.Bounded.onBar {a : Reg} {ss : List (Reg × Nat)} {sd : List Reg} {k : Nat → Wave → Nat → Bar → Res}
    (h : s.Bounded) (hk : ∀ wi w key b, (k wi w key b).Bounded) :
    BoundedOut (s.onBar a ss sd k) := by
  refine h.scalar fun wi _ w _ => ?_
  split
  · exact .trap
  · exact hk _ _ _ _

theorem State.Bounded.onMadeBar {a : Reg} {ss : List (Reg × Nat)} {sd : List Reg} {k : Nat → Wave → Nat → Bar → Res}
    (h : s.Bounded) (hk : ∀ wi w key b, (k wi w key b).Bounded) :
    BoundedOut (s.onMadeBar a ss sd k) := h.onBar fun _ _ _ _ => .ite (hk _ _ _ _) .trap

theorem execBarInit_bounded {a b : Reg} (h : s.Bounded) : BoundedOut (execBarInit a b s) := h.onBar fun _ _ _ _ => .unless (.done h.freshSide.putBar)

theorem State.Bounded.arrive {w : Wave} {key : Nat} {b : Bar} {add : Nat} (h : s.Bounded) : (s.arrive w key b add).Bounded :=
  .unless (.done h.updSide.settleBar)

theorem execBarWait_bounded {a b : Reg} (h : s.Bounded) : BoundedOut (execBarWait a b s) := h.onMadeBar fun _ _ _ _ => .unless (.unless (.done h))

theorem execBarTry_bounded {d a : Reg} (h : s.Bounded) : BoundedOut (execBarTry d a s) := 
  h.onMadeBar fun _ _ _ _ => .done (h.updWave fun w => w.dims_later ..)

theorem execBarTrig_bounded {d a b : Reg} (h : s.Bounded) : BoundedOut (execBarTrig d a b s) :=
  h.onMadeBar fun _ _ _ _ => .unless (.unless (.done h.sideEffect.updCore))

theorem State.Bounded.waitWord {a b : Reg} {c : Nat → Nat → Bool} (h : s.Bounded) : BoundedOut (s.waitWord a b c) := by
  refine h.scalar fun wi _ w _ => ?_
  split
  · exact .trap
  · exact .ite (.done h) .wait

theorem execNotify_bounded {a : Reg} (h : s.Bounded) : BoundedOut (execNotify a s) := by
  refine h.scalar fun wi _ w _ => ?_
  split
  · exact .trap
  · exact .done h.latchGang

/-! ### The issue of a copy -/

theorem State.Bounded.startCopy {wi : Nat} {w : Wave} {x : BitVec 1} {c : Reg} {cp : Copy} {al : Nat} (h : s.Bounded) :
    (s.startCopy wi w x c cp al).Bounded := by
  unfold State.startCopy
  split
  · exact .trap
  split
  · exact .trap
  refine .unless (.done (State.Bounded.when ?_ (·.sideEffect.noteStores)))
  split
  · exact State.Bounded.updSlot h.same
  · exact h.same

theorem State.Bounded.cpy {d a b : Reg} {x : BitVec 1} {c : Reg} {k : Nat → Wave → Split → Res} (h : s.Bounded) (hk : ∀ wi w sp, (k wi w sp).Bounded) :
    BoundedOut (s.cpy d a b x c k) := h.scalar fun _ _ _ _ => .unless (hk _ _ _)

theorem State.Bounded.cpyTile {d a b : Reg} {x : BitVec 1} {c : Reg} {store : Bool} {shape : Wave → Grant → Nat × Nat × Nat} (h : s.Bounded) :
    BoundedOut (s.cpyTile d a b x c store shape) := h.cpy fun _ _ _ => .unless h.startCopy

theorem execCpyO_bounded {d a b : Reg} {x : BitVec 1} {c : Reg} (h : s.Bounded) : BoundedOut (execCpyO d a b x c s) := by
  refine h.cpy fun wi w _ => .unless (.unless ?_)
  split
  · exact .trap
  · exact .unless h.startCopy

theorem State.Bounded.withDesc {wi : Nat} {w : Wave} {sp : Split} {a : Word} {n : Nat} {k : State → List Byte → Res}
    (h : s.Bounded) (hk : ∀ s l, State.Bounded s → (k s l).Bounded) :
    (s.withDesc wi w sp a n k).Bounded := .unless (h.readAhead hk)

theorem execCpyBox_bounded {d a b : Reg} {x : BitVec 1} {c : Reg} (h : s.Bounded) : BoundedOut (execCpyBox d a b x c s) :=
  h.cpy fun _ _ _ => h.withDesc fun _ _ h => .unless h.startCopy

theorem execCpySeal_bounded {d a b : Reg} {x : BitVec 1} {c : Reg} (h : s.Bounded) : BoundedOut (execCpySeal d a b x c s) := by
  refine h.cpy fun wi w sp => h.withDesc fun s l h => .unless (.unless ?_)
  split
  · exact .trap
  split
  · exact .trap
  refine .unless ?_
  split
  · exact .trap
  · exact .unless h.startCopy

/-! ### The movement of a copy -/

theorem State.Bounded.land {l : List (Nat × CByte)} (h : s.Bounded) : (s.land l).Bounded :=
  (State.Bounded.heal ((h.foldl fun _ _ h => h.spoil).foldl fun _ _ h => h.writeBytes)).foldl fun _ _ h => h.unless (·.poison)

theorem State.Bounded.copyAsk {n part : Nat} {ops : List (Nat × RemoteOp)} {sent : Option Nat} {set : Nat → Copy → Copy} (h : s.Bounded) :
    (s.copyAsk n part ops sent set).Bounded := by
  unfold State.copyAsk
  split
  · exact s.answerTo_bounded _ _
  · exact .ite .ready (.sent h.sendRemote.updCopy)

theorem State.Bounded.deliverCopy {c : Copy} {data : List CByte} {places : List CPlace} {failed bad : Bool} (h : s.Bounded) :
    (s.deliverCopy c data places failed bad).Bounded := by
  unfold State.deliverCopy
  split
  · split
    · exact .done h.keepOld
    · exact .done (h.keepOld.freshSlot.writeBytes)
  · exact .done h.land

theorem State.Bounded.shareCopy {n : Nat} {c : Copy} (h : s.Bounded) : (s.shareCopy n c).Bounded := h.same

theorem State.Bounded.moveCopy {n : Nat} {c : Copy} (h : s.Bounded) : (s.moveCopy n c).Bounded := by
  unfold State.moveCopy
  dsimp only
  split
  · exact .later (h.updCopy.reportFault)
  split
  · exact .later (h.updCopy.reportFault)
  split
  · exact .waits
  · exact .later (h.copyAsk.of_sent ‹_›)
  split
  · exact .waits
  · exact .later (h.copyAsk.of_sent ‹_›)
  split
  · exact .done (h.deliverCopy.of_done ‹_›).shareCopy
  · exact h.deliverCopy

/-! ### The end of a copy -/

theorem State.Bounded.fillEnd {core n : Nat} {g : Grant} {err : Bool} (h : s.Bounded) : (s.fillEnd core n g err).Bounded :=
  (h.when (·.clearBytes)).updSlot

theorem State.Bounded.endCopy {n : Nat} {c : Copy} {err pois : Bool} (h : s.Bounded) : (s.endCopy n c err pois).Bounded := by
  unfold State.endCopy
  extract_lets b s1 s2 s3
  have h2 : s2.Bounded := by
    unfold s2
    split
    · exact State.Bounded.fillEnd h.updCopy
    · exact h.updCopy
  clear_value s2
  have h3 : s3.Bounded := by
    unfold s3
    split
    · split
      · exact h2.copyOntoBar
      · exact h2
    · split
      · exact h2.storeN
      · exact h2
    · exact h2
  clear_value s3
  split
  · exact h3.latchBlock
  · exact h3

theorem State.Bounded.priAnswered {c : Ctx} {a : Word} (h : s.Bounded) : (s.priAnswered c a).Bounded := by
  unfold State.priAnswered
  split
  · exact h
  · exact h.same

theorem execCopyCompletion_bounded {n : Nat} (h : s.Bounded) : BoundedOut (execCopyCompletion n s) := by
  unfold execCopyCompletion
  split
  · exact h.noEffect
  refine .ite h.noEffect (.ite ?_ ?_)
  · split
    · exact (h.deliverCopy.of_done ‹_›).endCopy.effect
    · exact h.noEffect
  · split
    · exact h.noEffect
    · exact (h.moveCopy.of_later ‹_›).effect
    · exact (h.moveCopy.of_done ‹_›).endCopy.effect

theorem execCopyFaultAnswer_bounded {n : Nat} {resolved : Bool} (h : s.Bounded) : BoundedOut (execCopyFaultAnswer n resolved s) := by
  unfold execCopyFaultAnswer
  split
  · exact h.noEffect
  split
  · exact h.noEffect
  · exact .ite h.noEffect h.priAnswered.updCopy.effect

end Sys2Proof.Machine
end

section
/-! SUPPORT. Gangs, points, block ends and soft errors keep the limits. -/

namespace Sys2Proof.Machine

set_option Elab.async false

variable {s : State}

/-! ### Deals and launches -/

theorem State.Bounded.closure {ji : Nat} (h : s.Bounded) : (s.closure ji).Bounded := by
  unfold State.closure
  split
  · exact h
  · exact h.unless fun h => State.Bounded.updQueue h.updJob fun q => by simp only [apply_ite Queue.pin, ite_self]

theorem State.Bounded.chunkDone {ji ch : Nat} (h : s.Bounded) : (s.chunkDone ji ch).Bounded := by
  unfold State.chunkDone
  split
  · exact h
  refine h.unless fun h => ?_
  extract_lets t
  have h : t.Bounded := h.updJob
  split
  · exact h.when (·.closure)
  · exact h

theorem State.Bounded.joinLine {q ji p : Nat} (h : s.Bounded) : (s.joinLine q ji p).Bounded :=
  h.updQueue fun x => by split <;> rfl

theorem State.Bounded.dealGang {ji : Nat} (h : s.Bounded) : (s.dealGang ji).Bounded := by
  unfold State.dealGang
  split
  · exact h
  · exact h.unless fun h => h.updJob.foldl fun _ _ h => h.joinLine

theorem State.Bounded.reserve {qi : Nat} (h : s.Bounded) : (s.reserve qi).Bounded := by
  unfold State.reserve
  dsimp only
  split
  · split
    · exact h
    · split
      · exact h.updQueue
      · exact h
  · exact h

theorem execGangAgeingExpiry_bounded {qi : Nat} (h : s.Bounded) : BoundedOut (execGangAgeingExpiry qi s) := .ite h.noEffect h.updQueue.reserve.effect

theorem State.Bounded.launchGang {ji p gi m : Nat} {j : Job} {l : List Nat} (h : s.Bounded) : (s.launchGang ji j p gi l m).Bounded := by
  induction l generalizing s m with
  | nil => exact h
  | cons c cs ih => exact ih h.launchBlock.updGang

theorem execGangPlace_bounded {qi : Nat} (h : s.Bounded) : BoundedOut (execGangPlace qi s) := by
  unfold execGangPlace
  dsimp only
  split
  · exact h.noEffect
  split
  · exact h.noEffect
  refine .ite h.noEffect ?_
  split
  · exact h.noEffect
  · exact .ite h.noEffect (State.Bounded.effect (State.Bounded.dealGang (State.Bounded.updQueue (State.Bounded.launchGang h.same))))

theorem State.Bounded.listen (h : s.Bounded) : (s.listen).Bounded := h.same

theorem execChunkDeal_bounded {ji core : Nat} (h : s.Bounded) : BoundedOut (execChunkDeal ji core s) := by
  unfold execChunkDeal
  split
  · exact h.noEffect
  refine .ite h.noEffect (.ite (.ite h.noEffect h.dealGang.effect) (.ite h.noEffect (.ite h.updJob.updCore.effect (.ite h.noEffect ?_))))
  have k {n t c l} : ((if n = 0 then s.updQueue t (fun q => q.startCov c l) else s) : State).Bounded :=
    h.when (·.updQueue fun q => by simp only [Queue.startCov, apply_ite Queue.pin, ite_self])
  exact .next (State.Bounded.when k.updJob.updCore (·.closure))

theorem execPointLaunch_bounded {core : Nat} (h : s.Bounded) : BoundedOut (execPointLaunch core s) := by
  unfold execPointLaunch
  split
  · exact h.noEffect
  split
  · exact h.noEffect
  · exact (State.Bounded.launchBlock (State.Bounded.setGangs h.updCore)).effect

/-! ### Leases -/

theorem State.Bounded.endLease {ci : Nat} (h : s.Bounded) : (s.endLease ci).Bounded := by
  unfold State.endLease
  dsimp only
  split
  · exact h
  · exact h.same

theorem State.Bounded.endBlockLease {bi : Nat} (h : s.Bounded) : (s.endBlockLease bi).Bounded := by
  unfold State.endBlockLease
  dsimp only
  split
  · exact h.when (·.endLease)
  · exact h

/-! ### The end of a block -/

theorem State.Bounded.freeCore {bi : Nat} (h : s.Bounded) : (s.freeCore bi).Bounded := h.updCore.updBlock

theorem State.Bounded.unbindAll {wi : Nat} (h : s.Bounded) : (s.unbindAll wi).Bounded := by
  unfold State.unbindAll
  split
  · exact h
  · exact h.foldl fun _ _ h => h.unbindStream

theorem State.Bounded.saveFront {ci : Nat} (h : s.Bounded) : (s.saveFront ci).Bounded :=
  State.Bounded.updCtx (h.cores (List.forall_mem_map.2 h.2.1))

theorem State.Bounded.softDone {ci : Nat} (h : s.Bounded) : (s.softDone ci).Bounded := h.when (·.saveFront)

theorem State.Bounded.blockGone {bi : Nat} (h : s.Bounded) : (s.blockGone bi).Bounded := by
  unfold State.blockGone
  extract_lets b t
  have h : t.Bounded := by
    unfold t
    split
    · exact h.unless (·.chunkDone)
    · exact h
  exact (h.foldl fun _ _ h => h.when (·.reserve)).softDone

theorem execBlockEnd_bounded {bi : Nat} (h : s.Bounded) : BoundedOut (execBlockEnd bi s) := by
  unfold execBlockEnd
  extract_lets b fab s1 s2 s3
  refine .ite h.noEffect ?_
  have h1 : s1.Bounded := h.foldl fun _ _ h => h.unbindAll
  have h2 : s2.Bounded := by
    unfold s2
    split
    · split
      · exact h1.updJob
      · exact h1
    · exact h1
  have h3 : s3.Bounded := h2.endBlockLease
  clear_value s3
  split
  · exact h3.updBlock.effect
  · exact h3.freeCore.updBlock.holdPin.blockGone.effect

theorem execContinuationStart_bounded {bi : Nat} (h : s.Bounded) : BoundedOut (execContinuationStart bi s) := by
  unfold execContinuationStart
  extract_lets b going
  split
  · exact h.noEffect
  refine .ite h.noEffect ?_
  extract_lets k s1 s2
  have h1 : s1.Bounded := h.updBlock
  have h2 : s2.Bounded := by
    unfold s2
    split
    · exact h1
    · exact h1.updJob
  exact h2.launchWaves.effect

theorem State.Bounded.dropAlloc {core base n : Nat} (h : s.Bounded) : (s.dropAlloc core base n).Bounded := State.Bounded.updCore h.same

theorem execGangScratchRelease_bounded {gi : Nat} (h : s.Bounded) : BoundedOut (execGangScratchRelease gi s) :=
  .ite h.noEffect (State.Bounded.effect (State.Bounded.updGang (h.foldl fun _ _ h => h.when (·.dropAlloc))))

theorem State.Bounded.setIdle {cl ns : Nat} (h : s.Bounded) : (s.setIdle cl ns).Bounded := h.when (·.updCluster)

theorem execClusterGate_bounded {cl : Nat} (h : s.Bounded) : BoundedOut (execClusterGate cl s) :=
  .ite h.noEffect h.updCluster.effect

/-! ### Blocks discarded and flushed -/

theorem State.Bounded.discardBlock {bi : Nat} (h : s.Bounded) : (s.discardBlock bi).Bounded := by
  unfold State.discardBlock
  extract_lets b s1 s2 s3 s4 s5 s6
  refine h.unless fun h => ?_
  have h3 : s3.Bounded := State.Bounded.when (h.foldl fun _ _ h => h.unbindAll).endBlockLease (·.dropAlloc)
  have h5 : s5.Bounded := State.Bounded.updCore (h3.waves (List.forall_mem_map.2 fun w hw => (h3.1 w hw).of_dims (by split <;> rfl)))
  have h6 : s6.Bounded := h5.when (·.freeCore)
  exact h6.updBlock.holdPin

theorem State.Bounded.discardEnded {bi : Nat} (h : s.Bounded) : (s.discardEnded bi).Bounded := (h.when (·.dropAlloc)).same

theorem State.Bounded.flush {bi : Nat} (h : s.Bounded) : (s.flush bi).Bounded := by
  unfold State.flush
  extract_lets b g first s1 s2 s3
  have h2 : s2.Bounded := State.Bounded.updGang (h.foldl fun _ _ h => State.Bounded.ite h.discardEnded h.discardBlock)
  clear_value s2
  have h3 : s3.Bounded := by
    unfold s3
    split
    · exact h2
    · exact State.Bounded.ite h2.updJob h2.updQueue
  exact h3.softDone

/-! ### Waves cut, and soft errors -/

theorem State.Bounded.formCut {wi : Nat} (h : s.Bounded) : (s.formCut wi).Bounded := by
  unfold State.formCut
  extract_lets t
  have h : t.Bounded := h.drain.updWave
  clear_value t
  split
  · exact h
  split
  · exact h
  · exact h.traceRecord

theorem State.Bounded.cutWave {wi : Nat} (h : s.Bounded) : (s.cutWave wi).Bounded := by
  unfold State.cutWave
  extract_lets still t
  have h : t.Bounded := h.updWave
  clear_value t
  split
  · exact h
  · exact h.updCore.unless (·.formCut)

theorem State.Bounded.finishOps {bi : Nat} (h : s.Bounded) : (s.finishOps bi).Bounded := State.Bounded.updCore (h.foldl fun _ _ h => h.applyMma)

theorem State.Bounded.recover {bi : Nat} {mark : State → State} (h : s.Bounded) (hmark : ∀ s, State.Bounded s → (mark s).Bounded) :
    (s.recover bi mark).Bounded := by
  unfold State.recover
  extract_lets b t
  have h : t.Bounded := h.updPart
  clear_value t
  refine h.unless fun h => State.Bounded.ite h.flush (State.Bounded.ite (hmark _ h.finishOps) ?_)
  exact (hmark _ ((h.foldl fun _ _ h => h.cutWave).finishOps.foldl fun _ _ h => h.updWave)).latchBlock

theorem State.Bounded.damageSet {core set : Nat} {g : Grant} (h : s.Bounded) : (s.damageSet core set g).Bounded :=
  h.foldl fun _ _ h => h.setAcc

/-- The mark that a soft error leaves. -/
theorem State.softSite_bounded {site : SoftSite} {bi : Nat} {mark : State → State} (e : s.softSite site = some (bi, mark)) (t : State) (h : t.Bounded) :
    (mark t).Bounded := by
  cases site with
  | scalar wi n =>
    simp only [State.softSite] at e
    split at e
    · cases e
      exact h.updWave fun w => by split <;> rfl
    · cases e
  | vector wi n =>
    simp only [State.softSite] at e
    split at e
    · cases e
      exact h.updWave
    · cases e
  | slot core n =>
    simp only [State.softSite] at e
    split at e
    · split at e
      · cases e
      · cases e
        exact h.updSlot
    · cases e
  | accumulator bi n =>
    simp only [State.softSite] at e
    split at e
    · cases e
      exact h.damageSet.updBlock
    · cases e
  | scratch bi off =>
    simp only [State.softSite] at e
    split at e
    · cases e
      exact h.poison
    · cases e
  | corrected => cases e

theorem execSoftError_bounded {site : SoftSite} (h : s.Bounded) : BoundedOut (execSoftError site s) := by
  unfold execSoftError
  split
  · exact h.updPart.effect
  split
  · exact h.noEffect
  · next e => exact .ite (h.recover (State.softSite_bounded e)).effect h.noEffect

end Sys2Proof.Machine
end

section
/-! SUPPORT. Pre-emption, leases, energy and debugging keep the limits. -/

namespace Sys2Proof.Machine

set_option Elab.async false

variable {s : State}

/-! ### Pre-emption -/

theorem State.Bounded.dropInfills {ci : Nat} (h : s.Bounded) : (s.dropInfills ci).Bounded := h.same

theorem State.Bounded.hardEntry {ci : Nat} (h : s.Bounded) : (s.hardEntry ci).Bounded :=
  h.updCtx.dropInfills.foldl fun _ _ h => h.unless fun h => State.Bounded.ite h.flush (h.foldl fun _ _ h => h.cutWave)

theorem execPreemptRequest_bounded {ci : Nat} {hard : Bool} (h : s.Bounded) : BoundedOut (execPreemptRequest ci hard s) := by
  unfold execPreemptRequest
  split
  · exact h.noEffect
  · exact .ite h.noEffect (.ite h.hardEntry.effect h.updCtx.softDone.effect)

theorem execSoftDeadlineExpiry_bounded {ci : Nat} (h : s.Bounded) : BoundedOut (execSoftDeadlineExpiry ci s) := .ite h.hardEntry.effect h.noEffect

theorem State.Bounded.scramble {n : Nat} {c : Copy} (h : s.Bounded) : (s.scramble n c).Bounded := by
  refine h.foldl fun s x h => ?_
  split
  · exact (h.spoil).writeBytes
  · exact h

theorem execCopyGraceExpiry_bounded {ci : Nat} (h : s.Bounded) : BoundedOut (execCopyGraceExpiry ci s) := by
  unfold execCopyGraceExpiry
  dsimp only
  refine .ite (.ite h.noEffect (State.Bounded.effect (State.Bounded.updCtx (h.foldl fun s n h => ?_)))) h.noEffect
  split
  · exact h.scramble.updCopy
  · exact h

theorem State.Bounded.saveBlock {bi : Nat} (h : s.Bounded) : (s.saveBlock bi).Bounded := by
  unfold State.saveBlock
  extract_lets b s1 c slots base inside trigs bars onE s2 s3 s4 s5 s6
  refine h.unless fun h => ?_
  have h2 : s2.Bounded := (h.foldl fun _ _ h => h.when (·.formCut)).dropAlloc
  have h4 : s4.Bounded := (h2.moveBytes).foldl fun _ _ h => h.moveBytes
  have h5 : s5.Bounded := h4.foldl fun _ _ h => h.moveSet
  exact h5.updCore.updBlock.holdPin

/-! ### Resumption -/

theorem State.Bounded.restoreBlock {bi core : Nat} (h : s.Bounded) : (s.restoreBlock bi core).Bounded := by
  unfold State.restoreBlock
  extract_lets b base sets change s1
  have h1 : s1.Bounded := h.moveBytes
  split
  · exact h
  extract_lets s2 s3 s4 s5 s6 s7 s8
  have h2 : s2.Bounded := h1.foldl fun _ _ h => (h.moveBytes).updSlot
  have h3 : s3.Bounded := h2.foldl fun _ _ h => State.Bounded.when (h.moveSet) (·.shrinkSet)
  have h4 : s4.Bounded := h3.updCore
  have h5 : s5.Bounded := h4.same
  have h8 : s8.Bounded := h5.updCluster.updGang.updBlock
  exact (h8.foldl fun _ _ h => h.updWave).holdPin

theorem State.Bounded.restoreAll {t : State} {l : List (Nat × Nat)} (h : s.Bounded) (e : s.restoreAll l = some t) : t.Bounded := by
  induction l generalizing s with
  | nil =>
    cases e
    exact h
  | cons x l ih =>
    unfold State.restoreAll at e
    split at e
    · exact ih h.restoreBlock e
    · cases e

theorem State.Bounded.reissue {ci : Nat} (h : s.Bounded) : (s.reissue ci).Bounded := by
  refine State.Bounded.updCtx (h.foldl fun s n h => ?_)
  split
  · exact h
  · exact h.updCopy

theorem State.Bounded.binBack {ci : Nat} {x : Nat × Bin} (h : s.Bounded) : (s.binBack ci x).Bounded := by
  refine State.Bounded.ite h.updCore ?_
  split
  · exact h.updCore
  · exact h.updCtx

theorem State.Bounded.binsBack {ci : Nat} (h : s.Bounded) : (s.binsBack ci).Bounded := h.unless fun h => h.updCtx.foldl fun _ _ h => h.binBack

theorem State.Bounded.rebin (h : s.Bounded) : (s.rebin).Bounded := h.when fun h => h.foldl fun _ _ h => h.binsBack

theorem State.Bounded.pointsBack {part core : Nat} {x : Nat × Nat × Nat} (h : s.Bounded) : (s.pointsBack part core x).Bounded :=
  State.Bounded.ite h.updCore h.updJob

theorem State.Bounded.ripenAll (h : s.Bounded) : (s.ripenAll).Bounded := h.foldl fun _ _ h => h.ripen

theorem State.Bounded.resumeFront {ci : Nat} {moves : List (Nat × Nat)} (h : s.Bounded) : (s.resumeFront ci moves).Bounded :=
  have h : (State.binsBack _ ci).Bounded := State.Bounded.binsBack (State.Bounded.foldl h.ripenAll.updCtx fun _ _ h => h.pointsBack)
  h.cores (List.forall_mem_map.2 h.2.1)

theorem State.Bounded.resumeAt {t : State} {ci : Nat} {place : List (Nat × Nat)} (h : s.Bounded) (e : s.resumeAt ci place = some t) : t.Bounded := by
  unfold State.resumeAt at e
  split at e
  · split at e
    · cases e
    · next r =>
      cases e
      exact ((h.restoreAll r).unless (·.resumeFront)).reissue
  · cases e

theorem execResumeRequest_bounded {ci : Nat} {place : List (Nat × Nat)} (h : s.Bounded) : BoundedOut (execResumeRequest ci place s) := by
  unfold execResumeRequest
  split
  · exact h.noEffect
  split
  · exact h.resumeFront.effect
  · exact h.updCtx.effect
  · split
    · next e => exact (h.resumeAt e).effect
    · exact h.noEffect
  · refine .ite h.noEffect ?_
    split
    · next e => exact (h.resumeAt e).effect
    · exact h.noEffect
  · exact h.noEffect

theorem execImageComplete_bounded {ci : Nat} (h : s.Bounded) : BoundedOut (execImageComplete ci s) := by
  unfold execImageComplete
  extract_lets c s1 s2
  refine .ite ?_ h.noEffect
  have h2 : s2.Bounded := State.Bounded.saveFront (h.foldl fun _ _ h => h.saveBlock)
  clear_value s2
  split
  · exact h2.effect
  · split
    · next e => exact (h2.resumeAt e).effect
    · exact h2.resumeFront.effect

/-! ### Contexts reset -/

theorem State.Bounded.discardCtx {ci : Nat} (h : s.Bounded) : (s.discardCtx ci).Bounded := by
  unfold State.discardCtx
  extract_lets s1 mineOp s2 s3 mine ofJob s4
  have h2 : s2.Bounded := h.endLease.cores (List.forall_mem_map.2 h.endLease.2.1)
  have h3 : s3.Bounded := h2.foldl fun s x h => by
    extract_lets bi b t1 t2 t3
    have k : t3.Bounded := h.when fun h =>
      ((h.foldl fun _ _ h => h.when (·.clearBytes)).foldl fun _ _ h => h.zeroSet).clearBytes
    exact State.Bounded.ite k.discardBlock k.discardEnded
  exact State.Bounded.updCtx ⟨h3.1, List.forall_mem_map.2 h3.2.1, List.forall_mem_map.2 fun q hq => by
    split <;> exact h3.2.2 q hq⟩

theorem State.Bounded.faultAll {ci code : Nat} {value : Word} {closed : Bool} (h : s.Bounded) : (s.faultAll ci code value closed).Bounded :=
  h.foldl fun _ _ h => h.when (·.queueFault)

theorem execHardLimitExpiry_bounded {ci : Nat} (h : s.Bounded) : BoundedOut (execHardLimitExpiry ci s) :=
  .ite h.discardCtx.faultAll.updCtx.effect h.noEffect

/-! ### Leases, energy and clocks -/

theorem execLease_bounded {d a : Reg} {mn : BitVec 10} {lv : BitVec 2} (h : s.Bounded) : BoundedOut (execLease d a mn lv s) :=
  h.scalar fun _ _ _ _ => .done h.updCtx.updWave

theorem State.Bounded.expireLease {ci : Nat} (h : s.Bounded) : (s.expireLease ci).Bounded := by
  unfold State.expireLease
  split
  · exact h
  · exact h.endLease.updWave fun w => by split <;> rfl

theorem State.Bounded.expireDue (h : s.Bounded) : (s.expireDue).Bounded := h.foldl fun _ _ h => h.when (·.expireLease)

theorem execLeaseDecision_bounded {ci : Nat} (h : s.Bounded) : BoundedOut (execLeaseDecision ci s) := by
  unfold execLeaseDecision
  split
  · exact h.noEffect
  extract_lets s1 c r s2 share s3
  have h2 : s2.Bounded := h.expireDue.updCtx
  refine .ite h2.effect ?_
  have h3 : s3.Bounded := by
    clear_value r
    unfold s3
    split
    · exact h2.updCtx
    · exact h2.updCtx.updPart
  clear_value s3
  split
  · exact h3.effect
  · exact .ite h3.effect h3.makeWrite.updWave.effect

theorem execLqry_bounded {d : Reg} (h : s.Bounded) : BoundedOut (execLqry d s) := h.scalar fun _ _ _ _ => .ite (.done h.setReg) .stall

theorem execLeaseExpiry_bounded {ci : Nat} (h : s.Bounded) : BoundedOut (execLeaseExpiry ci s) := .ite h.expireLease.effect h.noEffect

theorem execLrel_bounded (h : s.Bounded) : BoundedOut (execLrel s) := h.scalar fun _ _ _ _ => .done (State.Bounded.ite h.expireLease h.endLease)

theorem execMeltfUpdate_bounded {melt : BitVec 16} (h : s.Bounded) : BoundedOut (execMeltfUpdate melt s) := by
  refine .ite (State.Bounded.effect (State.Bounded.foldl (State.Bounded.same h) fun _ _ h => h.expireLease)) (.ite ?_ ?_)
  · exact State.Bounded.effect h.same
  · exact State.Bounded.effect h.same

theorem State.Bounded.postQuota {ci : Nat} (h : s.Bounded) : (s.postQuota ci).Bounded :=
  h.when fun h => h.waves (List.forall_mem_map.2 fun w hw => (h.1 w hw).of_dims (by split <;> rfl))

theorem State.Bounded.chargeCluster {cl energy : Nat} (h : s.Bounded) : (s.chargeCluster cl energy).Bounded := h.same

theorem execEnergyIntervalEnd_bounded {energies : List (Nat × Nat)} (h : s.Bounded) : BoundedOut (execEnergyIntervalEnd energies s) := by
  unfold execEnergyIntervalEnd
  extract_lets s1 s2 s3
  have h1 : s1.Bounded := h.same
  have h2 : s2.Bounded := h1.foldl fun _ _ h => h.chargeCluster
  have h3 : s3.Bounded := h2.same
  exact (h3.foldl fun _ _ h => h.postQuota).effect

theorem execEquotaSet_bounded {ci : Nat} {quota : Word} (h : s.Bounded) : BoundedOut (execEquotaSet ci quota s) := by
  unfold execEquotaSet
  split
  · exact h.noEffect
  · exact h.updCtx.effect

theorem execClockChange_bounded {cl mhz : Nat} (h : s.Bounded) : BoundedOut (execClockChange cl mhz s) := .ite h.noEffect h.updCluster.effect

theorem execCapLower_bounded {cl : Nat} (h : s.Bounded) : BoundedOut (execCapLower cl s) :=
  .ite h.noEffect (State.Bounded.effect (h.updCluster.foldl fun _ _ h => h.unless fun h => h.updCap fun c hc => by dsimp only; omega))

theorem execCapRaise_bounded {cl : Nat} (h : s.Bounded) : BoundedOut (execCapRaise cl s) :=
  .ite h.noEffect (State.Bounded.effect (h.updCluster.foldl fun _ _ h => h.unless fun h => h.updCap fun _ _ => Nat.min_le_left ..))

/-! ### Debugging -/

theorem State.Bounded.enterDebug {wi si : Nat} {w : Wave} {sp : Split} {n : Nat} {entry : Word} (h : s.Bounded) :
    (s.enterDebug wi si w sp n entry).Bounded :=
  (State.Bounded.stopMate (h.writeFrame.updWave fun w => w.dims_enter ..)).traceRecord

theorem State.Bounded.haltWave {wi si n : Nat} (h : s.Bounded) : (s.haltWave wi si n).Bounded := by
  unfold State.haltWave
  extract_lets t
  have h : t.Bounded := h.drain
  clear_value t
  split
  · exact h
  split
  · exact h
  · exact h.updWave.traceRecord

theorem execComparatorHit_bounded {wi : Nat} (h : s.Bounded) : BoundedOut (execComparatorHit wi s) := by
  unfold execComparatorHit
  split
  · exact h.noEffect
  split
  · exact h.noEffect
  split
  · exact h.noEffect
  extract_lets l t
  refine .ite h.noEffect ?_
  have h : t.Bounded := h.foldl fun _ _ h => h.traceRecord
  clear_value t
  split
  · exact h.updWave.effect
  split
  · exact h.haltWave.effect
  split
  · exact h.drain.noEffect
  · exact h.drain.enterDebug.effect

theorem execDebugHaltRequest_bounded {wi : Nat} (h : s.Bounded) : BoundedOut (execDebugHaltRequest wi s) := by
  unfold execDebugHaltRequest
  split
  · exact h.noEffect
  refine .ite h.noEffect ?_
  split
  · exact h.noEffect
  · exact h.haltWave.effect

theorem execDebugResume_bounded {wi : Nat} (h : s.Bounded) : BoundedOut (execDebugResume wi s) := by
  unfold execDebugResume
  split
  · exact h.noEffect
  · exact .ite h.updWave.effect h.noEffect

theorem State.Bounded.portDone {bound : Bool} (h : s.Bounded) : (s.portDone bound).Bounded := h.same

theorem execDebugPortWrite_bounded {wi : Nat} {r : DebugReg} (h : s.Bounded) : BoundedOut (execDebugPortWrite wi r s) := by
  unfold execDebugPortWrite
  split
  · exact h.noEffect
  refine .ite h.noEffect ?_
  split
  · next n v =>
    have hd (w : Wave) : ({ w.wr n v with sFull := setBit32 w.sFull n.toNat true } : Wave).dims = w.dims := w.dims_wr n v
    exact (h.portDone.updWave hd).effect
  · exact .ite h.portDone.effect h.portDone.putRegs.updWave.effect
  · exact (h.portDone.updWave fun w => w.dims_wrK ..).effect
  · split
    · exact h.noEffect
    · exact h.portDone.updWave.effect

theorem execDebugArm_bounded {q : Nat} {entry : Option Word} (h : s.Bounded) : BoundedOut (execDebugArm q entry s) := .ite h.updQueue.effect h.noEffect

theorem pinOk_vlcap {p : Pin} (h : pinOk (some p) = true) : p.vlcap ≤ 64 := by
  simp only [pinOk, Bool.and_eq_true, decide_eq_true_eq] at h
  obtain ⟨⟨⟨-, hcap⟩, -⟩, -⟩ := h
  exact hcap

theorem execDebugPin_bounded {q : Nat} {pin : Option Pin} (h : s.Bounded) : BoundedOut (execDebugPin q pin s) := by
  unfold execDebugPin
  split
  next c =>
    have hp : ∀ p, pin = some p → p.vlcap ≤ 64 := fun p e => pinOk_vlcap (e ▸ (Bool.and_eq_true _ _ ▸ c).1)
    exact State.Bounded.effect (State.Bounded.foldl (h.updPin fun _ _ => hp) fun _ _ h => h.when (·.holdPin))
  next => exact h.noEffect

end Sys2Proof.Machine
end

section
/-! SUPPORT. The events of a wave, ports and queues keep the limits. -/

namespace Sys2Proof.Machine

set_option Elab.async false

variable {s : State}

/-! ### Events of a wave -/

theorem execLongLatencyWrite_bounded {wi n : Nat} (h : s.Bounded) : BoundedOut (execLongLatencyWrite wi n s) := by
  unfold execLongLatencyWrite
  split
  · exact h.noEffect
  split
  · exact h.noEffect
  · exact .ite h.noEffect h.makeWrite.updWave.effect

theorem execVectorFaultPoint_bounded {wi : Nat} (h : s.Bounded) : BoundedOut (execVectorFaultPoint wi s) := by
  unfold execVectorFaultPoint
  split
  · exact h.noEffect
  · exact .ite h.updWave.effect h.noEffect

theorem execAsyncTrapTake_bounded {wi : Nat} (h : s.Bounded) : BoundedOut (execAsyncTrapTake wi s) := by
  unfold execAsyncTrapTake
  split
  · exact h.noEffect
  refine .ite h.noEffect ?_
  split
  · exact h.noEffect
  split
  · exact h.noEffect
  split
  · exact (h.updWave.takeTrap).effect
  · exact (h.updWave.takeTrap).effect
  · exact h.noEffect

theorem execParkedFaultResolve_bounded {wi : Nat} (h : s.Bounded) : BoundedOut (execParkedFaultResolve wi s) := by
  unfold execParkedFaultResolve
  split
  · exact h.noEffect
  split
  · exact h.noEffect
  · exact .ite h.noEffect h.priAnswered.updWave.stopMate.effect

theorem execParkedFaultDecline_bounded {wi : Nat} (h : s.Bounded) : BoundedOut (execParkedFaultDecline wi s) := by
  unfold execParkedFaultDecline
  split
  · exact h.noEffect
  split
  · exact h.noEffect
  split
  · exact h.noEffect
  · exact .ite h.noEffect (h.priAnswered.updWave.takeHandler).effect

/-! ### Bindings, routes and ports -/

theorem execDeviceNumberAssign_bounded {n : BitVec 9} (h : s.Bounded) : BoundedOut (execDeviceNumberAssign n s) := .ite h.noEffect (State.Bounded.effect h.same)

theorem execBindingInstall_bounded {part dev rpart : Nat} (h : s.Bounded) : BoundedOut (execBindingInstall part dev rpart s) := by
  unfold execBindingInstall
  split
  · exact h.noEffect
  · exact .ite h.noEffect h.updPart.effect

theorem execBindingRemove_bounded {part dev : Nat} (h : s.Bounded) : BoundedOut (execBindingRemove part dev s) :=
  State.Bounded.effect (State.Bounded.foldl (State.Bounded.same h) fun _ _ h => h.reply)

theorem execRouteTableWrite_bounded {part dev : Nat} {ports : List Nat} (h : s.Bounded) : BoundedOut (execRouteTableWrite part dev ports s) :=
  .ite h.noEffect h.updPart.effect

theorem execFlitCrcError_bounded {port : Nat} (h : s.Bounded) : BoundedOut (execFlitCrcError port s) := h.updFabPort.effect

theorem execPortRetrain_bounded {port : Nat} (h : s.Bounded) : BoundedOut (execPortRetrain port s) := h.updFabPort.effect

theorem execPortDown_bounded {port : Nat} (h : s.Bounded) : BoundedOut (execPortDown port s) := h.updFabPort.effect

theorem execPortTrain_bounded {port : Nat} (h : s.Bounded) : BoundedOut (execPortTrain port s) := .ite h.updFabPort.effect h.noEffect

theorem execPortAssign_bounded {port : Nat} {part : Option Nat} (h : s.Bounded) : BoundedOut (execPortAssign port part s) :=
  .ite h.noEffect h.updFabPort.effect

/-! ### Accesses of a queue -/

theorem State.Bounded.reportQueue {qi : Nat} {a : Word} {sub : Nat} {write card : Bool}
    (h : s.Bounded) : (s.reportQueue qi a sub write card).Bounded := by
  unfold State.reportQueue
  dsimp only
  split
  · exact .waits
  · exact .later (h.updQueue.reportFault)

theorem State.Bounded.queueAsk {qi : Nat} {a : Word} {write : Bool} {ps : List CPlace} {ops : List (Nat × RemoteOp)} (h : s.Bounded) :
    (s.queueAsk qi a write ps ops).Bounded := by
  unfold State.queueAsk
  dsimp only
  refine .ite .ready ?_
  split
  · split
    · exact .ready
    · exact .pending
  · split
    · exact .ready
    · exact .sent h.sendRemote.updQueue

theorem State.Bounded.queueAsked {qi : Nat} {a : Word} {write : Bool} (h : s.Bounded) : (s.queueAsked qi a write).Bounded := h.updQueue

theorem State.Bounded.queueRead {qi : Nat} {a : Word} {n : Nat} {card : Bool} (h : s.Bounded) : (s.queueRead qi a n card).Bounded := by
  unfold State.queueRead
  dsimp only
  split
  · exact h.reportQueue
  split
  · exact .bad h
  split
  · exact .waits
  · exact .later (h.queueAsk.of_sent ‹_›)
  · split
    · exact .bad h.queueAsked
    · exact .got h.queueAsked

theorem State.Bounded.queueWrite {qi : Nat} {a : Word} {l : List Byte} (h : s.Bounded) : (s.queueWrite qi a l).Bounded := by
  unfold State.queueWrite
  dsimp only
  split
  · exact h.reportQueue
  split
  · exact .bad h
  split
  · exact .waits
  · exact .later (h.queueAsk.of_sent ‹_›)
  · split
    · exact .bad h.queueAsked
    · exact .got h.queueAsked.land

theorem State.Bounded.memoryFault {qi : Nat} {a : Word} (h : s.Bounded) : (s.memoryFault qi a).Bounded :=
  h.updQueue.queueFault

/-! ### The mirror area -/

theorem State.Bounded.flushMirror {qi n : Nat} (h : s.Bounded) : (s.flushMirror qi n).Bounded := by
  induction n generalizing s with
  | zero => exact h
  | succ n ih =>
    unfold State.flushMirror
    dsimp only
    split
    · exact h
    split
    · exact h
    · exact h.queueWrite.of_later ‹_›
    · next e => exact State.Bounded.ite (h.queueWrite.of_bad e).memoryFault (h.queueWrite.of_bad e).updQueue
    · next e => exact ih (h.queueWrite.of_got e).updQueue

theorem State.Bounded.mirrorWrite {qi i : Nat} {v : Word} (h : s.Bounded) : (s.mirrorWrite qi i v).Bounded := h.updQueue.flushMirror

theorem State.Bounded.resumeMirror {qi : Nat} (h : s.Bounded) : (s.resumeMirror qi).Bounded := h.flushMirror

theorem State.Bounded.mirrorGoes {req : Nat} (h : s.Bounded) : (s.mirrorGoes req).Bounded := by
  unfold State.mirrorGoes
  split
  · split
    · exact h.resumeMirror
    · exact h
  · exact h

/-! ### Answers of other devices -/

theorem execRemoteResponse_bounded {req : Nat} {a : RemoteAnswer} (h : s.Bounded) : BoundedOut (execRemoteResponse req a s) := by
  unfold execRemoteResponse
  split
  · exact h.noEffect
  · exact .ite h.noEffect h.answered.mirrorGoes.effect

theorem execRemoteRequestTimeout_bounded {req : Nat} (h : s.Bounded) : BoundedOut (execRemoteRequestTimeout req s) := by
  unfold execRemoteRequestTimeout
  split
  · exact h.noEffect
  · exact .ite h.noEffect h.answered.mirrorGoes.effect

/-! ### Contexts, queues and doorbells -/

theorem execContextCreate_bounded {ci fn : Nat} {d : List Byte} (h : s.Bounded) : BoundedOut (execContextCreate ci fn d s) :=
  .ite h.noEffect (State.Bounded.effect h.same)

theorem execQueueCreate_bounded {num fn : Nat} {d : List Byte} (h : s.Bounded) : BoundedOut (execQueueCreate num fn d s) := by
  unfold execQueueCreate
  exact .ite h.noEffect (State.Bounded.effect (State.Bounded.mirrorWrite (State.Bounded.mirrorWrite (h.queues (List.forall_mem_append.2 ⟨h.2.2, by simp [Queue.blank]⟩)))))

theorem execQueueDelete_bounded {qi : Nat} (h : s.Bounded) : BoundedOut (execQueueDelete qi s) :=
  .ite h.noEffect (h.updPin fun _ _ _ e => by cases e).effect

theorem execDoorbell_bounded {qi : Nat} {w : Word} (h : s.Bounded) : BoundedOut (execDoorbell qi w s) :=
  .ite h.noEffect h.updQueue.effect

/-! ### Packets -/

theorem State.Bounded.torn {qi : Nat} (h : s.Bounded) : (s.torn qi).Bounded := h.updQueue.queueFault

theorem execPacketFetch_bounded {qi : Nat} (h : s.Bounded) : BoundedOut (execPacketFetch qi s) := by
  unfold execPacketFetch
  extract_lets q a mark
  refine .ite h.noEffect (.ite h.torn.effect ?_)
  split
  · exact h.noEffect
  · exact (h.queueRead.of_later ‹_›).effect
  · exact (h.queueRead.of_bad ‹_›).memoryFault.effect
  · next e =>
    have h := h.queueRead.of_got e
    exact .ite (.ite h.torn.effect h.updQueue.effect)
      (.ite h.updQueue.updQueue.effect (h.updQueue.queueFault).effect)

theorem State.Bounded.started {qi : Nat} {p : Packet} (h : s.Bounded) : (s.started qi p).Bounded :=
  (h.updQueue fun q => by dsimp only; split <;> rfl).mirrorWrite

theorem execPacketTlwait_bounded {qi : Nat} (h : s.Bounded) : BoundedOut (execPacketTlwait qi s) := by
  unfold execPacketTlwait
  split
  · exact h.noEffect
  split
  · exact h.noEffect
  · exact .ite h.started.effect h.noEffect

theorem execPacketTlset_bounded {qi : Nat} (h : s.Bounded) : BoundedOut (execPacketTlset qi s) := by
  unfold execPacketTlset
  split
  · exact h.noEffect
  · exact h.started.effect

theorem execPacketFence_bounded {qi : Nat} (h : s.Bounded) : BoundedOut (execPacketFence qi s) := by
  unfold execPacketFence
  split
  · exact h.noEffect
  · exact .ite h.started.effect h.noEffect

theorem execPacketNop_bounded {qi : Nat} (h : s.Bounded) : BoundedOut (execPacketNop qi s) := by
  unfold execPacketNop
  split
  · exact h.noEffect
  · exact h.started.effect

theorem execPacketCopy_bounded {qi : Nat} (h : s.Bounded) : BoundedOut (execPacketCopy qi s) := by
  unfold execPacketCopy
  split
  · exact h.noEffect
  · exact State.Bounded.effect (State.Bounded.started h.same)

theorem State.Bounded.refuseCard {qi : Nat} {p : Packet} (h : s.Bounded) : (s.refuseCard qi p).Bounded :=
  (State.Bounded.started (State.Bounded.same h)).queueFault

theorem State.Bounded.startJob {qi : Nat} {p : Packet} {l cov : List Byte} {obj ker : Nat} (h : s.Bounded) : (s.startJob qi p l cov obj ker).Bounded :=
  State.Bounded.started h.same

theorem State.Bounded.readCard {qi : Nat} {p : Packet} {k : State → List Byte → List Byte → State}
    (h : s.Bounded) (hk : ∀ s l cov, State.Bounded s → (k s l cov).Bounded) :
    BoundedOut (s.readCard qi p k) := by
  unfold State.readCard
  split
  · exact h.noEffect
  · exact (h.queueRead.of_later ‹_›).effect
  · exact (h.queueRead.of_bad ‹_›).refuseCard.effect
  next e =>
  have h := h.queueRead.of_got e
  refine .ite (hk _ _ _ h).effect ?_
  split
  · exact h.noEffect
  · exact (h.queueRead.of_later ‹_›).effect
  · exact (h.queueRead.of_bad ‹_›).refuseCard.effect
  · exact (hk _ _ _ (h.queueRead.of_got ‹_›)).effect

theorem execPacketJob_bounded {qi : Nat} (h : s.Bounded) : BoundedOut (execPacketJob qi s) := by
  unfold execPacketJob
  split
  · exact h.noEffect
  refine .ite h.refuseCard.effect (h.readCard fun s l cov h => ?_)
  dsimp only
  split
  · exact h.refuseCard
  · exact State.Bounded.ite h.startJob h.refuseCard

theorem State.Bounded.packetDone {qi t carrier : Nat} (h : s.Bounded) : (s.packetDone qi t carrier).Bounded := h.updQueue

theorem State.Bounded.recordThen {qi : Nat} {compl : Word} {bytes : List Byte} {k : State → State}
    (h : s.Bounded) (hk : ∀ s, State.Bounded s → (k s).Bounded) :
    BoundedOut (s.recordThen qi compl bytes k) := by
  refine .ite (hk _ h).effect ?_
  split
  · exact h.noEffect
  · exact (h.queueWrite.of_later ‹_›).effect
  · exact (hk _ ((h.queueWrite.of_bad ‹_›).when (·.memoryFault))).effect
  · exact (hk _ (h.queueWrite.of_got ‹_›)).effect

theorem State.Bounded.raceTiles {ji : Nat} {j : Job} (h : s.Bounded) : (s.raceTiles ji j).Bounded := by
  refine h.foldl fun s x h => ?_
  split
  · exact (h.spoil).writeBytes
  · exact h

theorem execJobComplete_bounded {ji : Nat} (h : s.Bounded) : BoundedOut (execJobComplete ji s) := by
  unfold execJobComplete
  split
  · exact h.noEffect
  extract_lets s1 s2 s3 status filled finish
  have h3 : s3.Bounded := ((h.unless (·.raceTiles)).unless (·.closure)).updJob
  have done (t : State) (h : t.Bounded) : (finish t).Bounded := h.updJob.packetDone
  exact .ite h.noEffect (.ite (done _ h3).effect (h3.recordThen done))

theorem execCopyPacketComplete_bounded {n : Nat} (h : s.Bounded) : BoundedOut (execCopyPacketComplete n s) := by
  unfold execCopyPacketComplete
  split
  · exact h.noEffect
  extract_lets record
  have done (t : State) (err : Bool) (h : t.Bounded) : BoundedOut (record t err) := h.recordThen fun _ h => h.updCopy.packetDone
  refine .ite h.noEffect (.ite (done _ _ h) ?_)
  split
  · exact done _ _ h
  split
  · exact h.noEffect
  · exact (h.moveCopy.of_later ‹_›).effect
  · exact done _ _ (h.moveCopy.of_done ‹_›).updCopy

theorem execTimelineSignal_bounded {qi : Nat} (h : s.Bounded) : BoundedOut (execTimelineSignal qi s) := by
  unfold execTimelineSignal
  refine .ite h.noEffect ?_
  split
  · exact h.noEffect
  · exact .ite h.noEffect h.updQueue.mirrorWrite.effect

/-! ### Faults and services of a queue -/

theorem execQueueMemoryFaultAnswer_bounded {qi : Nat} {resolved : Bool} (h : s.Bounded) : BoundedOut (execQueueMemoryFaultAnswer qi resolved s) := by
  unfold execQueueMemoryFaultAnswer
  split
  · exact h.noEffect
  extract_lets t covers t'
  have h1 : t.Bounded := h.priAnswered.updQueue
  refine .ite h.noEffect (.ite h1.resumeMirror.effect (.ite ?_ ?_))
  · split
    · exact h1.refuseCard.effect
    · exact h1.resumeMirror.effect
  · have h2 : t'.Bounded := h1.same
    exact .ite h2.memoryFault.effect h2.resumeMirror.effect

theorem execServicePost_bounded {wi : Nat} (h : s.Bounded) : BoundedOut (execServicePost wi s) := by
  unfold execServicePost
  split
  · exact h.noEffect
  split
  · refine .ite h.noEffect ?_
    dsimp only
    split
    · exact h.noEffect
    · exact (h.queueWrite.of_later ‹_›).effect
    · exact ((h.queueWrite.of_bad ‹_›).when (·.memoryFault)).effect
    · exact (h.queueWrite.of_got ‹_›).updQueue.updPart.updWave.effect
  · exact h.noEffect

theorem execServiceDoorbell_bounded {qi : Nat} {k : Word} (h : s.Bounded) : BoundedOut (execServiceDoorbell qi k s) := by
  unfold execServiceDoorbell
  dsimp only
  split
  · exact h.noEffect
  split
  · exact h.noEffect
  · exact (h.queueRead.of_later ‹_›).effect
  · exact ((h.queueRead.of_bad ‹_›).when (·.memoryFault)).effect
  · exact (h.queueRead.of_got ‹_›).updQueue.updWave.effect

theorem State.Bounded.discardQueue {qi : Nat} (h : s.Bounded) : (s.discardQueue qi).Bounded :=
  have h : (List.foldl (fun s bi => s.discardBlock bi) s _).Bounded := h.foldl fun _ _ h => h.discardBlock
  State.Bounded.softDone (h.cores (List.forall_mem_map.2 h.2.1))

theorem State.Bounded.dropRead {qi : Nat} (h : s.Bounded) : (s.dropRead qi).Bounded := by
  unfold State.dropRead
  split
  · exact h.priAnswered.updQueue
  · exact h

theorem execQueueClear_bounded {qi : Nat} {next : Word} (h : s.Bounded) : BoundedOut (execQueueClear qi next s) :=
  .ite h.noEffect (State.Bounded.effect ((h.discardQueue.dropRead.updQueue.when (·.updCtx)).mirrorWrite))

end Sys2Proof.Machine
end

section
/-! SUPPORT. Plumb programs, trust, the host, partitions and coverage keep the limits. -/

namespace Sys2Proof.Machine

set_option Elab.async false

variable {s : State}

/-! ### Plumb programs -/

theorem execPlumbProgramLoad_bounded {prog : Nat} {ws : List (BitVec 16)} (h : s.Bounded) : BoundedOut (execPlumbProgramLoad prog ws s) :=
  .ite h.noEffect (State.Bounded.effect h.same)

theorem execPacketPlumb_bounded {qi : Nat} (h : s.Bounded) : BoundedOut (execPacketPlumb qi s) := by
  unfold execPacketPlumb
  split
  · exact h.noEffect
  split
  · exact (h.queueFault).effect
  · exact State.Bounded.effect (State.Bounded.same h.started)

theorem State.Bounded.plumbFault {n : Nat} {r : PlumbRun} {sub : Nat} (h : s.Bounded) : (s.plumbFault n r sub).Bounded :=
  h.updRun.queueFault

theorem State.Bounded.plumbEnd {n : Nat} {r : PlumbRun} (h : s.Bounded) : (s.plumbEnd n r).Bounded := h.updRun.updQueue.packetDone

theorem State.Bounded.plumb {k : PlumbRun → PRes} (h : s.Bounded) (hk : ∀ r, (k r).Bounded) : BoundedOut (s.plumb k) := by
  unfold State.plumb
  split
  · exact h.noEffect
  next r _ =>
  refine .ite h.noEffect (.ite h.plumbFault.effect ?_)
  have e := hk r
  generalize k r = x at e ⊢
  cases e with
  | next h => exact h.updRun.effect
  | wait => exact h.noEffect
  | waitIn h => exact h.effect
  | fault => exact h.plumbFault.effect
  | memory h => exact h.updRun.memoryFault.effect
  | fin => exact h.plumbEnd.effect

theorem State.Bounded.plumbSet {d : BitVec 3} {f : PlumbRun → Word} (h : s.Bounded) : BoundedOut (s.plumbSet d f) := h.plumb fun _ => .next h

theorem execPlumbBrf_bounded {a : BitVec 3} {off : BitVec 8} (h : s.Bounded) : BoundedOut (execPlumbBrf a off s) := h.plumb fun _ => .next h

theorem execPlumbLoopn_bounded {n : BitVec 8} {l : BitVec 16} (h : s.Bounded) : BoundedOut (execPlumbLoopn n l s) := h.plumb fun _ => .ite (.next h) (.next h)

theorem execPlumbRdtl_bounded {d a : BitVec 3} (h : s.Bounded) : BoundedOut (execPlumbRdtl d a s) := by
  refine h.plumb fun r => ?_
  split
  · exact .fault
  · exact .next h

theorem execPlumbWrtl_bounded {a : BitVec 3} (h : s.Bounded) : BoundedOut (execPlumbWrtl a s) := h.plumb fun _ => .next h.updQueue

theorem execPlumbWaittl_bounded {a b : BitVec 3} (h : s.Bounded) : BoundedOut (execPlumbWaittl a b s) := by
  refine h.plumb fun r => ?_
  split
  · exact .fault
  · exact .ite (.next h) .wait

theorem execPlumbRdm_bounded {d a : BitVec 3} {off : BitVec 5} (h : s.Bounded) : BoundedOut (execPlumbRdm d a off s) := by
  refine h.plumb fun r => ?_
  split
  · exact .fault
  split
  · exact .wait
  · exact .waitIn (h.queueRead.of_later ‹_›)
  · exact .memory (h.queueRead.of_bad ‹_›)
  · exact .next (h.queueRead.of_got ‹_›)

theorem execPlumbWrm_bounded {d a : BitVec 3} {off : BitVec 5} (h : s.Bounded) : BoundedOut (execPlumbWrm d a off s) := by
  refine h.plumb fun r => ?_
  split
  · exact .fault
  split
  · exact .wait
  · exact .waitIn (h.queueWrite.of_later ‹_›)
  · exact .memory (h.queueWrite.of_bad ‹_›)
  · exact .next (h.queueWrite.of_got ‹_›)

theorem execPlumbEmit_bounded {a : BitVec 3} (h : s.Bounded) : BoundedOut (execPlumbEmit a s) := by
  refine h.plumb fun r => ?_
  split
  · exact .fault
  refine .ite .fault ?_
  split
  · exact .wait
  · exact .waitIn (h.queueRead.of_later ‹_›)
  · exact .memory (h.queueRead.of_bad ‹_›)
  · exact .ite .fault (.next (h.queueRead.of_got ‹_›))

theorem execPlumbEnd_bounded (h : s.Bounded) : BoundedOut (execPlumbEnd s) :=
  h.plumb fun _ => .fin

/-! ### Code objects, attestation and keys -/

theorem execCodeObjectLoad_bounded {o : ObjectLoad} (h : s.Bounded) : BoundedOut (execCodeObjectLoad o s) := by
  unfold execCodeObjectLoad
  dsimp only
  refine .ite h.noEffect ?_
  split
  · exact State.Bounded.effect (State.Bounded.same h.land.land)
  · exact h.noEffect

theorem State.Bounded.spdmReply {can : Bool} {code : Nat} {f : Spdm → Spdm} (h : s.Bounded) : BoundedOut (s.spdmReply can code f) := h.updSpdm.effect

theorem execGetMeasurements_bounded {part block : Nat} (h : s.Bounded) : BoundedOut (execGetMeasurements part block s) := by
  unfold execGetMeasurements
  exact h.spdmReply

theorem State.Bounded.setKey {n : Nat} {k : Option KeySlot} (h : s.Bounded) : (s.setKey n k).Bounded := h.same

theorem State.Bounded.emptyKeys {l : List Nat} (h : s.Bounded) : (s.emptyKeys l).Bounded := h.foldl fun _ _ h => h.setKey

theorem State.Bounded.keyReply {status : Nat} (h : s.Bounded) : (s.keyReply status).Bounded := State.Bounded.updSpdm h.same

theorem execKeyinst_bounded {secure : Bool} {l : List Byte} (h : s.Bounded) : BoundedOut (execKeyinst secure l s) :=
  .ite h.spdmReply (.ite h.keyReply.effect (.ite h.keyReply.effect (.ite h.keyReply.effect h.setKey.keyReply.effect)))

theorem execKeydel_bounded {secure : Bool} {slot part : Nat} (h : s.Bounded) : BoundedOut (execKeydel secure slot part s) :=
  .ite h.spdmReply (.ite h.keyReply.effect h.setKey.keyReply.effect)

theorem execDatumFirmwareUpdate_bounded (h : s.Bounded) : BoundedOut (execDatumFirmwareUpdate s) :=
  State.Bounded.effect h.same

/-! ### Teardown -/

theorem State.Bounded.tear {ci code : Nat} {value : Word} (h : s.Bounded) : (s.tear ci code value).Bounded :=
  have h : ((s.discardCtx ci).faultAll ci code value true).Bounded := h.discardCtx.faultAll
  State.Bounded.updCtx (h.queues (List.forall_mem_map.2 fun q hq => by split <;> exact h.2.2 q hq))

theorem execPasidTeardown_bounded {pasid : Nat} (h : s.Bounded) : BoundedOut (execPasidTeardown pasid s) := by
  unfold execPasidTeardown
  split
  · exact h.noEffect
  · exact State.Bounded.effect (h.foldl fun _ _ h => h.tear)

theorem State.Bounded.writeOwed {x : Nat × Word} (h : s.Bounded) : (s.writeOwed x).Bounded := by
  unfold State.writeOwed
  split
  · exact h.queueWrite.of_got ‹_›
  · exact h

theorem execTeardownComplete_bounded {ci : Nat} (h : s.Bounded) : BoundedOut (execTeardownComplete ci s) := by
  unfold execTeardownComplete
  extract_lets c owed due mine s1 fab0 fab s2 s3
  have h1 : s1.Bounded := h.foldl fun _ _ h => h.writeOwed
  have h2 : s2.Bounded := h1.queues (List.forall_mem_map.2 fun q hq => by split <;> exact h1.2.2 q hq)
  exact .ite h.noEffect (State.Bounded.effect (State.Bounded.updCtx (h2.faultRecord)))

theorem execTdiStop_bounded {p : Nat} (h : s.Bounded) : BoundedOut (execTdiStop p s) := by
  unfold execTdiStop
  split
  · exact h.noEffect
  · exact .ite h.noEffect (State.Bounded.effect (State.Bounded.updPart (State.Bounded.emptyKeys (h.foldl fun _ _ h => h.tear))))

theorem execTdiEnterRun_bounded {p : Nat} (h : s.Bounded) : BoundedOut (execTdiEnterRun p s) := .ite h.noEffect h.updPart.effect

theorem execFaultRingSetup_bounded {p addr slots : Nat} (h : s.Bounded) : BoundedOut (execFaultRingSetup p addr slots s) :=
  .ite h.noEffect h.updPart.effect

/-! ### The host and its shootdowns -/

theorem execHostLinkTrain_bounded {speed width : Nat} (h : s.Bounded) : BoundedOut (execHostLinkTrain speed width s) :=
  .ite (State.Bounded.effect h.same) h.noEffect

theorem execIdeKmRequest_bounded {stream : Nat} {switch : Bool} (h : s.Bounded) : BoundedOut (execIdeKmRequest stream switch s) :=
  .ite h.noEffect (.ite (.ite (State.Bounded.effect h.same) h.noEffect) (State.Bounded.effect h.same))

theorem execShootdownRequest_bounded {pasid lo hi : Nat} (h : s.Bounded) : BoundedOut (execShootdownRequest pasid lo hi s) := by
  unfold execShootdownRequest
  dsimp only
  split
  · exact h.noEffect
  · exact State.Bounded.effect h.same

theorem execShootdownArrival_bounded {n cl : Nat} (h : s.Bounded) : BoundedOut (execShootdownArrival n cl s) := by
  unfold execShootdownArrival
  split
  · exact h.noEffect
  · exact .ite h.noEffect (State.Bounded.effect ⟨List.forall_mem_map.2 fun w hw => (h.1 w hw).of_dims (by split <;> rfl),
      List.forall_mem_map.2 fun x hx => by
        have hc : x.1.vlcap ≤ 64 := h.2.1 x.1 (List.fst_mem_of_mem_zipIdx hx)
        split <;> exact hc, h.2.2⟩)

theorem execShootdownAck_bounded {n cl : Nat} (h : s.Bounded) : BoundedOut (execShootdownAck n cl s) := by
  unfold execShootdownAck
  split
  · exact h.noEffect
  · exact .ite h.noEffect (State.Bounded.effect h.same)

theorem execNearCopyInvalidate_bounded {_die _part _line : Nat} (h : s.Bounded) : BoundedOut (execNearCopyInvalidate _die _part _line s) := h.effect

theorem execMemoryError_bounded {place : MemPlace} {dirty : Bool} (h : s.Bounded) : BoundedOut (execMemoryError place dirty s) := by
  unfold execMemoryError
  split
  · exact h.noEffect
  split
  · exact State.Bounded.effect (h.foldl fun _ _ h => h.poison)
  · exact h.noEffect
  · exact h.poison.effect

theorem execHostAccess_bounded {x : HostIn} (h : s.Bounded) : BoundedOut (execHostAccess x s) := by
  cases x with
  | readHbm => exact h.effect
  | writeHbm => exact .ite h.land.effect h.noEffect
  | writeHost => exact h.land.effect

/-! ### Partitions and reset -/

theorem State.Bounded.wipe {cl : Nat} (h : s.Bounded) : (s.wipe cl).Bounded := by
  unfold State.wipe
  extract_lets s1 s2
  have h1 : s1.Bounded := h.foldl fun s i h =>
    ((h.clearBytes).foldl fun _ _ h => h.clearBytes).foldl fun _ _ h => h.zeroSet
  clear_value s1
  have h2 : s2.Bounded := (h1.clearBytes).clearBytes
  clear_value s2
  exact h2.cores (List.forall_mem_map.2 fun x hx => by
    split
    · exact Nat.le_refl 64
    · exact h2.2.1 _ (List.fst_mem_of_mem_zipIdx hx))

theorem execPartitionForm_bounded {p : PartSpec} (h : s.Bounded) : BoundedOut (execPartitionForm p s) := by
  unfold execPartitionForm
  extract_lets cs old others legal new0 new s1 s2
  have h1 : s1.Bounded := by
    clear_value old
    unfold s1
    split
    · exact h.emptyKeys
    · exact h
  have h2 : s2.Bounded := h1.foldl fun _ _ h => h.wipe.updCluster
  exact .ite h.noEffect (State.Bounded.effect (h2.cores (List.forall_mem_map.2 fun x hx => by
    have hc : x.1.vlcap ≤ 64 := h2.2.1 x.1 (List.fst_mem_of_mem_zipIdx hx)
    split <;> exact hc)))

theorem execClusterMove_bounded {cl : Nat} {dest : Option Nat} (h : s.Bounded) : BoundedOut (execClusterMove cl dest s) := by
  unfold execClusterMove
  extract_lets c known shape fits s1 gone s2 parts s3 s4
  have h3 : s3.Bounded := State.Bounded.same h.wipe.emptyKeys
  have h4 : s4.Bounded := by
    clear_value s3
    unfold s4
    split
    · exact h3
    · exact h3.cores (List.forall_mem_map.2 fun x hx => by
        have hc : x.1.vlcap ≤ 64 := h3.2.1 x.1 (List.fst_mem_of_mem_zipIdx hx)
        split <;> exact hc)
  exact .ite h.noEffect h4.updCluster.effect

theorem CoreSt.reset_vlcap (i : Nat) : (CoreSt.reset i).vlcap = 64 := rfl

theorem State.reset_bounded : State.reset.Bounded := by
  refine ⟨List.forall_mem_nil _, fun c hc => ?_, List.forall_mem_nil _⟩
  simp only [State.reset, List.mem_map] at hc
  obtain ⟨i, -, rfl⟩ := hc
  exact (CoreSt.reset_vlcap i).le

theorem execReset_bounded : BoundedOut (execReset s) := by
  have h := State.reset_bounded
  unfold execReset
  generalize State.reset = r at h
  exact State.Bounded.effect h.same

/-! ### Coverage -/

theorem State.Bounded.infillAsk {ji p part : Nat} {ops : List (Nat × RemoteOp)} {sent : Option Nat} {set : Nat → Skipped → Skipped} (h : s.Bounded) :
    (s.infillAsk ji p part ops sent set).Bounded := by
  unfold State.infillAsk
  refine .ite .ready ?_
  split
  · split
    · exact .ready
    · exact .pending
  · split
    · exact .ready
    · exact .sent h.sendRemote.updPoint

theorem State.Bounded.reportInfill {ji p : Nat} {j : Job} {a : Word} {sub : Nat} {write : Bool} (h : s.Bounded) :
    (s.reportInfill ji p j a sub write).Bounded := h.updPoint.reportFault

theorem State.Bounded.coverageError {ji : Nat} {x : Skipped} (h : s.Bounded) : (s.coverageError ji x).Bounded := h.updPoint.updJob

theorem State.Bounded.infillTile {ji : Nat} {j : Job} {x : Skipped} (h : s.Bounded) : BoundedOut (s.infillTile ji j x) := by
  unfold State.infillTile
  dsimp only
  refine .ite h.updPoint.effect ?_
  split
  · exact h.reportInfill.effect
  · exact h.reportInfill.effect
  refine .ite h.coverageError.effect ?_
  split
  · exact h.noEffect
  · exact (h.infillAsk.of_sent ‹_›).effect
  refine .ite h.coverageError.effect (.ite (State.Bounded.effect (State.Bounded.updPoint h.updJob)) ?_)
  split
  · exact h.noEffect
  · exact (h.infillAsk.of_sent ‹_›).effect
  · exact .ite h.coverageError.effect h.land.updPoint.effect

theorem State.Bounded.mapWrite {ji : Nat} {j : Job} {x : Skipped} (h : s.Bounded) : BoundedOut (s.mapWrite ji j x) := by
  unfold State.mapWrite
  dsimp only
  split
  · exact h.reportInfill.effect
  refine .ite h.coverageError.effect ?_
  split
  · exact h.noEffect
  · exact (h.infillAsk.of_sent ‹_›).effect
  · exact .ite h.coverageError.effect h.land.updPoint.effect

theorem execInfill_bounded {ji p : Nat} (h : s.Bounded) : BoundedOut (execInfill ji p s) := by
  unfold execInfill
  split
  · exact h.noEffect
  refine .ite h.noEffect ?_
  split
  · exact .ite h.noEffect (.ite (.ite h.infillTile h.noEffect) (.ite h.mapWrite h.noEffect))
  split
  · exact .ite h.mapWrite h.noEffect
  · exact h.noEffect

theorem execInfillFaultAnswer_bounded {ji p : Nat} {resolved : Bool} (h : s.Bounded) : BoundedOut (execInfillFaultAnswer ji p resolved s) := by
  unfold execInfillFaultAnswer
  split
  · exact h.noEffect
  split
  · exact h.noEffect
  · exact .ite h.noEffect (State.Bounded.effect (State.Bounded.ite h.priAnswered.updPoint h.priAnswered.coverageError))

end Sys2Proof.Machine
end

section
/-! SUPPORT. Every instruction and event keeps the limits. -/

namespace Sys2Proof.Machine

set_option Elab.async false

variable {s : State}

/-- By the instruction or event: an arm of `exec` is either a call of a shared operation or an operation with a lemma of its own. -/
theorem exec_bounded {i : Instr} (h : s.Bounded) : BoundedOut (exec i s) := by
  unfold exec
  cases i with dsimp only
  | add | sub | mul | mulh | mulhn | div | divn | rem | remn | and | or | xor | shl | shr | sha | slt | sltn | min | max | minn | maxn => exact h.iop
  | clz | ctz | popc => exact h.iop1
  | sext | zext | addi | andi | ori | xori | shli | shri | shai | slti | sltni | li | lih | covq => exact h.compute
  | ldsS8 | ldsS16 | ldsS32 | ldsS64 | ldsN8 | ldsN16 | ldsN32 => exact h.lds
  | sts8 | sts16 | sts32 | sts64 => exact h.sts
  | amoAdd | amoAnd | amoOr | amoXor | amoMin | amoMax | amoMinn | amoMaxn | amoSwap | amoFadd => exact h.amo
  | cas => exact execCas_bounded h
  | fence | fenceX => exact h.fencePaths
  | beq | bne | blt | bge | bltn | bgen => exact h.branch
  | jal => exact execJal_bounded h
  | jalr => exact execJalr_bounded h
  | loop => exact execLoop_bounded h
  | brd => exact execBrd_bounded h
  | join => exact execJoin_bounded h
  | yield => exact execYield_bounded h
  | nop => exact execNop_bounded h
  | trap => exact execTrap_bounded h
  | sysc => exact execSysc_bounded h
  | brk => exact execBrk_bounded h
  | rte => exact execRte_bounded h
  | halt => exact execHalt_bounded h
  | wfe => exact execWfe_bounded h
  | claimv => exact execClaimv_bounded h
  | rstv => exact execRstv_bounded h
  | srr | lcuseSample => exact h.readSpecial
  | srw | lcmaskClear | wstatClear | classchgClear | wmodeWrite | specialRegisterWrite => exact h.srw
  | spawn | spawnf => exact h.spawn
  | exit => exact execExit_bounded h
  | cont => exact execCont_bounded h
  | lease => exact execLease_bounded h
  | lrel => exact execLrel_bounded h
  | lqry => exact execLqry_bounded h
  | setvl => exact execSetvl_bounded h
  | setvli => exact execSetvli_bounded h
  | mode => exact execMode_bounded h
  | space => exact execSpace_bounded h
  | vadd | vsub | vmul | vdiv | vmin | vmax | vand | vor | vxor | vshl | vshr | vsha | vmulh | vabsd => exact h.vop
  | vfma | vfms | vfnma | vfnms => exact h.vfmaOp
  | vsqrt | vrcp | vrsq | vexp2 | vlog2 | vabs | vneg | vnot | vclass | vmov => exact h.vun
  | vbcast => exact execVbcast_bounded h
  | viota => exact execViota_bounded h
  | vcmpEq | vcmpNe | vcmpLt | vcmpLe | vcmpGt | vcmpGe | vcmpLtn | vcmpGen | vcmpUnord => exact h.vcmp
  | vcvt => exact execVcvt_bounded h
  | vcvtq => exact execVcvtq_bounded h
  | vcvtd => exact execVcvtd_bounded h
  | vshfl => exact execVshfl_bounded h
  | vslup => exact execVslup_bounded h
  | vsldn => exact execVsldn_bounded h
  | vcompr => exact execVcompr_bounded h
  | vexpnd => exact execVexpnd_bounded h
  | vextr => exact execVextr_bounded h
  | vins => exact execVins_bounded h
  | vsel => exact execVsel_bounded h
  | vredSum | vredMax | vredMin | vredAnd | vredOr | vredXor | vredSumo => exact h.vred
  | mand | mor | mxor | mandn | mnot | mclr => exact h.maskOp
  | mcnt => exact execMcnt_bounded h
  | mfirst => exact execMfirst_bounded h
  | mtil | mtili | mset => exact h.maskElems
  | mmovs => exact execMmovs_bounded h
  | mmovk => exact execMmovk_bounded h
  | vld | vlds | vldx => exact h.vload
  | vldf => exact execVldf_bounded h
  | vst | vsts | vstx => exact h.vstore
  | vamoAdd | vamoAnd | vamoOr | vamoXor | vamoMin | vamoMax | vamoMinn | vamoMaxn | vamoSwap | vamoFadd => exact h.vamo
  | sbind => exact execSbind_bounded h
  | sunb => exact execSunb_bounded h
  | sqry => exact execSqry_bounded h
  | settile => exact execSettile_bounded h
  | tileq => exact execTileq_bounded h
  | oclaim => exact execOclaim_bounded h
  | orls => exact execOrls_bounded h
  | ofill => exact execOfill_bounded h
  | oqry => exact execOqry_bounded h
  | mma | mmas | mmaz => exact h.multiply
  | azero => exact execAzero_bounded h
  | axt => exact execAxt_bounded h
  | axts => exact execAxts_bounded h
  | ains => exact execAins_bounded h
  | asave => exact execAsave_bounded h
  | aload => exact execAload_bounded h
  | cpyA | cpyB | cpySt => exact h.cpyTile
  | cpyBox => exact execCpyBox_bounded h
  | cpyO => exact execCpyO_bounded h
  | cpySeal => exact execCpySeal_bounded h
  | barInit => exact execBarInit_bounded h
  | barArv | barExp => exact h.onMadeBar fun _ _ _ _ => h.arrive
  | barWait => exact execBarWait_bounded h
  | barTry => exact execBarTry_bounded h
  | barTrig => exact execBarTrig_bounded h
  | waita | waitge => exact h.waitWord
  | notify => exact execNotify_bounded h
  | rredAdd | rredMax | rredMin => exact h.rred
  | rsig => exact execRsig_bounded h
  | plumbLdi | plumbMov | plumbAdd | plumbSub | plumbAnd | plumbOr | plumbXor | plumbShl | plumbShr | plumbCmpEq | plumbCmpNe | plumbCmpLtn
  | plumbCmpLt | plumbSel =>
    exact h.plumbSet
  | plumbBrf => exact execPlumbBrf_bounded h
  | plumbLoopn => exact execPlumbLoopn_bounded h
  | plumbRdtl => exact execPlumbRdtl_bounded h
  | plumbWrtl => exact execPlumbWrtl_bounded h
  | plumbWaittl => exact execPlumbWaittl_bounded h
  | plumbRdm => exact execPlumbRdm_bounded h
  | plumbWrm => exact execPlumbWrm_bounded h
  | plumbEmit => exact execPlumbEmit_bounded h
  | plumbEnd => exact execPlumbEnd_bounded h
  | illegalInstructionWord => exact execIllegalInstructionWord_bounded h
  | longLatencyWrite => exact execLongLatencyWrite_bounded h
  | vectorFaultPoint => exact execVectorFaultPoint_bounded h
  | asyncTrapTake => exact execAsyncTrapTake_bounded h
  | parkedFaultResolve => exact execParkedFaultResolve_bounded h
  | parkedFaultDecline => exact execParkedFaultDecline_bounded h
  | streamFill => exact execStreamFill_bounded h
  | streamTake => exact execStreamTake_bounded h
  | tileGrantApply => exact execTileGrantApply_bounded h
  | mmaDispatch => exact execMmaDispatch_bounded h
  | mmaComplete => exact execMmaComplete_bounded h
  | copyCompletion => exact execCopyCompletion_bounded h
  | copyFaultAnswer => exact execCopyFaultAnswer_bounded h
  | triggerRetry => exact execTriggerRetry_bounded h
  | binTimerExpiry => exact execBinTimerExpiry_bounded h
  | binBlockLaunch => exact execBinBlockLaunch_bounded h
  | chunkDeal => exact execChunkDeal_bounded h
  | pointLaunch => exact execPointLaunch_bounded h
  | gangPlace => exact execGangPlace_bounded h
  | gangAgeingExpiry => exact execGangAgeingExpiry_bounded h
  | blockEnd => exact execBlockEnd_bounded h
  | continuationStart => exact execContinuationStart_bounded h
  | gangScratchRelease => exact execGangScratchRelease_bounded h
  | clusterGate => exact execClusterGate_bounded h
  | softError => exact execSoftError_bounded h
  | preemptRequest => exact execPreemptRequest_bounded h
  | resumeRequest => exact execResumeRequest_bounded h
  | softDeadlineExpiry => exact execSoftDeadlineExpiry_bounded h
  | copyGraceExpiry => exact execCopyGraceExpiry_bounded h
  | imageComplete => exact execImageComplete_bounded h
  | hardLimitExpiry => exact execHardLimitExpiry_bounded h
  | capLower => exact execCapLower_bounded h
  | capRaise => exact execCapRaise_bounded h
  | leaseDecision => exact execLeaseDecision_bounded h
  | leaseExpiry => exact execLeaseExpiry_bounded h
  | meltfUpdate => exact execMeltfUpdate_bounded h
  | energyIntervalEnd => exact execEnergyIntervalEnd_bounded h
  | equotaSet => exact execEquotaSet_bounded h
  | shootdownRequest => exact execShootdownRequest_bounded h
  | shootdownArrival => exact execShootdownArrival_bounded h
  | shootdownAck => exact execShootdownAck_bounded h
  | nearCopyInvalidate => exact execNearCopyInvalidate_bounded h
  | memoryError => exact execMemoryError_bounded h
  | partitionForm => exact execPartitionForm_bounded h
  | clusterMove => exact execClusterMove_bounded h
  | codeObjectLoad => exact execCodeObjectLoad_bounded h
  | contextCreate => exact execContextCreate_bounded h
  | queueCreate => exact execQueueCreate_bounded h
  | queueDelete => exact execQueueDelete_bounded h
  | queueClear => exact execQueueClear_bounded h
  | plumbProgramLoad => exact execPlumbProgramLoad_bounded h
  | doorbell => exact execDoorbell_bounded h
  | packetFetch => exact execPacketFetch_bounded h
  | queueMemoryFaultAnswer => exact execQueueMemoryFaultAnswer_bounded h
  | packetJob => exact execPacketJob_bounded h
  | packetCopy => exact execPacketCopy_bounded h
  | packetTlwait => exact execPacketTlwait_bounded h
  | packetTlset => exact execPacketTlset_bounded h
  | packetPlumb => exact execPacketPlumb_bounded h
  | packetFence => exact execPacketFence_bounded h
  | packetNop => exact execPacketNop_bounded h
  | jobComplete => exact execJobComplete_bounded h
  | copyPacketComplete => exact execCopyPacketComplete_bounded h
  | timelineSignal => exact execTimelineSignal_bounded h
  | servicePost => exact execServicePost_bounded h
  | serviceDoorbell => exact execServiceDoorbell_bounded h
  | getVersion | getCapabilities | negotiateAlgorithms | getDigests | getCertificate | challenge | keyExchange | finish | keyUpdate | heartbeat
  | endSession =>
    exact h.spdmReply
  | getMeasurements => exact execGetMeasurements_bounded h
  | keyinst => exact execKeyinst_bounded h
  | keydel => exact execKeydel_bounded h
  | pasidTeardown => exact execPasidTeardown_bounded h
  | teardownComplete => exact execTeardownComplete_bounded h
  | tdiStop => exact execTdiStop_bounded h
  | deviceNumberAssign => exact execDeviceNumberAssign_bounded h
  | bindingInstall => exact execBindingInstall_bounded h
  | routeTableWrite => exact execRouteTableWrite_bounded h
  | flitCrcError => exact execFlitCrcError_bounded h
  | portRetrain => exact execPortRetrain_bounded h
  | portDown => exact execPortDown_bounded h
  | remoteRequestTimeout => exact execRemoteRequestTimeout_bounded h
  | remoteRequest => exact execRemoteRequest_bounded h
  | rredApply => exact execRredApply_bounded h
  | rsigApply => exact execRsigApply_bounded h
  | remoteResponse => exact execRemoteResponse_bounded h
  | infill => exact execInfill_bounded h
  | infillFaultAnswer => exact execInfillFaultAnswer_bounded h
  | comparatorHit => exact execComparatorHit_bounded h
  | debugHaltRequest => exact execDebugHaltRequest_bounded h
  | debugResume => exact execDebugResume_bounded h
  | debugPortWrite => exact execDebugPortWrite_bounded h
  | debugArm => exact execDebugArm_bounded h
  | debugPin => exact execDebugPin_bounded h
  | loopRegisterWrite => exact execLoopRegisterWrite_bounded h
  | comparatorRegisterWrite => exact execComparatorRegisterWrite_bounded h
  | traceRegisterWrite => exact execTraceRegisterWrite_bounded h
  | reset => exact execReset_bounded
  | hostAccess => exact execHostAccess_bounded h
  | clockChange => exact execClockChange_bounded h
  | hostLinkTrain => exact execHostLinkTrain_bounded h
  | portTrain => exact execPortTrain_bounded h
  | portAssign => exact execPortAssign_bounded h
  | bindingRemove => exact execBindingRemove_bounded h
  | datumFirmwareUpdate => exact execDatumFirmwareUpdate_bounded h
  | tdiEnterRun => exact execTdiEnterRun_bounded h
  | ideKmRequest => exact execIdeKmRequest_bounded h
  | faultRingSetup => exact execFaultRingSetup_bounded h

end Sys2Proof.Machine
end

section
/-! SUPPORT. Fetches, issue slots, the device's own events and turns keep the limits, and so does every step. -/

namespace Sys2Proof.Machine

set_option Elab.async false

variable {s : State}

/-! ### Fetches and issue slots -/

theorem State.Bounded.dropLine {cl key : Nat} (h : s.Bounded) : (s.dropLine cl key).Bounded := h.updCluster

theorem State.Bounded.keepCode {cl key : Nat} {l : List IWord} (h : s.Bounded) : (s.keepCode cl key l).Bounded := h.updCluster

theorem State.Bounded.buffer {wi si : Nat} {pc : Word} {l : List IWord} (h : s.Bounded) : (s.buffer wi si pc l).Bounded := h.updWave

theorem State.Bounded.fetch {wi si : Nat} {w : Wave} {sp : Split} (h : s.Bounded) : (s.fetch wi si w sp).Bounded := by
  unfold State.fetch
  split
  · exact .word h.buffer
  dsimp only
  split
  · exact .trap h
  split
  · exact .trap h
  split
  · exact .trap h
  · split
    · exact .trap h.dropLine
    · exact .word h.dropLine.fillTlb.keepCode.buffer
  split
  · exact .pending
  · exact .sent (h.lookRemote.of_sent ‹_›)
  split
  · exact .trap h.looked
  split
  · exact .trap h.looked
  · exact .word h.looked.buffer

theorem State.Bounded.serve {w : Wave} (h : s.Bounded) : (s.serve w).Bounded := h.unless (·.updVFile)

theorem State.Bounded.issueSplit {wi si : Nat} {w : Wave} {sp : Split} (h : s.Bounded) : (s.issueSplit wi si w sp).Bounded := by
  unfold State.issueSplit
  refine .ite (.outcome (execAsyncTrapTake_bounded h)) (.ite (.outcome (.next h.stall)) ?_)
  extract_lets t
  have h : t.Bounded := State.Bounded.serve h.same
  have k := h.fetch (wi := wi) (si := si) (w := w) (sp := sp)
  generalize t.fetch wi si w sp = r at k ⊢
  cases k with
  | pending => exact .outcome (.next h.stall)
  | sent h => exact .outcome (.next h.stall)
  | trap h' => exact .outcome (.next (h.trapOr h'))
  | word h =>
    dsimp only
    split
    · exact .ite (.run h) (.outcome (.next h.stall))
    · exact .outcome (execIllegalInstructionWord_bounded h)

theorem State.Bounded.issueWave {run : Instr → State → Out State} {wi : Nat} {w : Wave} (h : s.Bounded) : (s.issueWave run wi w).Bounded := by
  unfold State.issueWave
  split
  · exact .outcome (.ite (execAsyncTrapTake_bounded h) (.next h))
  split
  · exact .outcome (.next (h.trapOr h))
  · exact .ite h.issueSplit (.outcome (execComparatorHit_bounded h))

theorem State.Bounded.issueCore {run : Instr → State → Out State} {core : Nat} (h : s.Bounded) : (s.issueCore run core).Bounded := by
  unfold State.issueCore
  split
  · exact .outcome (.next h)
  split
  · exact .outcome (.next h)
  · exact h.issueWave

theorem State.Bounded.issueOne {run : Instr → State → Out State} {wi : Nat} (h : s.Bounded) : (s.issueOne run wi).Bounded := by
  unfold State.issueOne
  split
  · exact .outcome (.next h)
  · exact .ite h.issueWave (.outcome (.next h))

/-! ### The device's own events -/

theorem State.Bounded.startPacket {qi : Nat} (h : s.Bounded) : BoundedOut (s.startPacket qi) := by
  unfold State.startPacket
  split
  · exact h.noEffect
  split
  · exact execPacketJob_bounded h
  · exact execPacketCopy_bounded h
  · exact execPacketTlwait_bounded h
  · exact execPacketTlset_bounded h
  · exact execPacketPlumb_bounded h
  · exact execPacketFence_bounded h
  · exact execPacketNop_bounded h

/-- Every meaning in a list keeps the limits. -/
def AllBounded (l : List (State → Out State)) : Prop := ∀ f ∈ l, ∀ s : State, s.Bounded → BoundedOut (f s)

theorem AllBounded.append {l r : List (State → Out State)} : AllBounded (l ++ r) ↔ AllBounded l ∧ AllBounded r := List.forall_mem_append

theorem AllBounded.map {α : Type} {l : List α} {f : α → State → Out State} (h : ∀ (x : α) (s : State), s.Bounded → BoundedOut (f x s)) : AllBounded (l.map f) :=
  List.forall_mem_map.2 fun x _ => h x

theorem AllBounded.flatMap {α : Type} {l : List α} {f : α → List (State → Out State)} (h : ∀ x, AllBounded (f x)) : AllBounded (l.flatMap f) :=
  List.forall_mem_flatMap.2 fun x _ => h x

theorem AllBounded.firstOf {l : List (State → Out State)} (hl : AllBounded l) (h : s.Bounded) : BoundedOut (firstOf s l) := by
  induction l with
  | nil => exact .next h
  | cons f r ih =>
    have k := hl f List.mem_cons_self s h
    have ih := ih fun g hg => hl g (List.mem_cons_of_mem f hg)
    unfold Machine.firstOf
    generalize f s = o at k ⊢
    cases k with
    | next h => exact .ite ih (.next h)
    | fault => exact .fault
    | refused => exact .refused

theorem State.ownEvents_bounded (s : State) : AllBounded s.ownEvents := by
  unfold State.ownEvents
  simp only [AllBounded.append, and_assoc]
  exact ⟨.map fun _ _ => execLongLatencyWrite_bounded, .map fun _ _ => execVectorFaultPoint_bounded,
    .flatMap fun _ => .flatMap fun _ => List.forall_mem_cons.2 ⟨fun _ => execStreamTake_bounded, List.forall_mem_singleton.2 fun _ => execStreamFill_bounded⟩,
    .map fun _ _ => execTileGrantApply_bounded, .map fun _ _ => execMmaComplete_bounded, .map fun _ _ => execMmaDispatch_bounded,
    .map fun _ _ => execRredApply_bounded, .map fun _ _ => execRsigApply_bounded, .map fun _ _ => execCopyCompletion_bounded,
    .map fun _ _ => execCopyPacketComplete_bounded, .map fun _ _ => execLeaseDecision_bounded, .map fun _ _ => execLeaseExpiry_bounded,
    .map fun _ _ => execImageComplete_bounded, .map fun _ _ => execCopyGraceExpiry_bounded, .map fun _ _ => execSoftDeadlineExpiry_bounded,
    .map fun _ _ => execHardLimitExpiry_bounded, .map fun _ _ => execTeardownComplete_bounded, .map fun _ _ => execServicePost_bounded,
    .map fun _ _ => execBlockEnd_bounded, .map fun _ _ => execContinuationStart_bounded, .map fun _ _ => execGangScratchRelease_bounded,
    .map fun _ _ => execTriggerRetry_bounded, .flatMap fun _ => .map fun _ _ => execBinTimerExpiry_bounded, .map fun _ _ => execBinBlockLaunch_bounded,
    .map fun _ _ => execPointLaunch_bounded, .map fun _ _ => execGangPlace_bounded, .map fun _ _ => execGangAgeingExpiry_bounded,
    .flatMap fun _ => .map fun _ _ => execChunkDeal_bounded, .flatMap fun _ => .map fun _ _ => execInfill_bounded,
    .flatMap fun _ => .map fun _ _ => execInfill_bounded, .map fun _ _ => execJobComplete_bounded, .map fun _ _ => execTimelineSignal_bounded,
    .map fun _ _ => State.Bounded.startPacket, .map fun _ _ => execPacketFetch_bounded, .flatMap fun _ => .map fun _ _ => execShootdownArrival_bounded,
    .flatMap fun _ => .map fun _ _ => execShootdownAck_bounded, .map fun _ _ => execRemoteRequestTimeout_bounded⟩

theorem State.Bounded.ownEvent (h : s.Bounded) : BoundedOut (s.ownEvent) :=
  s.ownEvents_bounded.firstOf h

/-! ### Turns and time -/

theorem State.Bounded.begin (h : s.Bounded) : (s.begin).Bounded := State.Bounded.same h.listen.rebin.overdue

theorem State.Bounded.pass {ns : Nat} {withheld : Nat → Bool} (h : s.Bounded) : (s.pass ns withheld).Bounded :=
  h.cores (List.forall_mem_map.2 fun x hx => (h.2.1 x.1 (List.fst_mem_of_mem_zipIdx hx) : x.1.vlcap ≤ 64))

theorem State.Bounded.nextTurn {run : Instr → State → Out State} (h : s.Bounded) : (s.nextTurn run).Bounded := by
  unfold State.nextTurn
  split
  · exact .turn h.same
  split
  · exact .turn h.same
  split
  · exact .own h.same
  split
  · exact .turn h.same
  · exact .own h.same

theorem BoundedOut.timed {run : Instr → State → Out State} {o : Out State} (h : BoundedOut o) : BoundedOut (s.timed run o) := by
  cases h with
  | next h => exact .next h.pass
  | fault => exact .fault
  | refused => exact .refused

theorem State.Bounded.debit {t : State} {core wi : Nat} {mem : Bool} (h : s.Bounded) : (t.debit s core wi mem).Bounded := h.unless (·.updCluster)

theorem State.Bounded.countLanes {t : State} {run : Instr → State → Out State} {core : Nat} {ran : Option Nat} {clears : Bool} (h : s.Bounded) :
    (t.countLanes s run core ran clears).Bounded := by
  refine h.foldl fun _ _ h => ?_
  split
  · exact h
  · exact h.unless fun h => h.unless fun h => State.Bounded.ite h.addLanes h.addLanes

theorem BoundedOut.slotDone {run : Instr → State → Out State} {core : Nat} {ran : Option Nat} {i : Option Instr} {o : Out State} (h : BoundedOut o) :
    BoundedOut (s.slotDone run core ran i o) := by
  cases h with
  | next h =>
    unfold State.slotDone
    refine BoundedOut.timed (.next (State.Bounded.countLanes ?_))
    split
    · exact h.debit
    · exact h
  | fault => exact .fault
  | refused => exact .refused

/-! ### A step -/

/-- The instruction in an issue slot is carried out and accounted for, or the slot's outcome is. -/
theorem step_bounded (h : s.Bounded) : BoundedOut (step s) := by
  unfold step
  have k := h.begin.nextTurn (run := exec)
  generalize s.begin.nextTurn exec = n at k ⊢
  cases k with
  | own h => exact h.ownEvent.timed
  | @turn s t h =>
    cases t with
    | event i => exact (exec_bounded h).timed
    | message fn i => exact BoundedOut.timed (exec_bounded h.same)
    | idle cl ns => exact BoundedOut.timed (.next h.setIdle)
    | core n =>
      have k := h.issueCore (run := exec) (core := n)
      dsimp only
      generalize s.issueCore exec n = r at k ⊢
      cases k with
      | run h => exact (exec_bounded h).slotDone
      | outcome h => exact h.slotDone
    | wave n =>
      have k := h.issueOne (run := exec) (wi := n)
      dsimp only
      generalize s.issueOne exec n = r at k ⊢
      cases k with
      | run h => exact (exec_bounded h).slotDone
      | outcome h => exact h.slotDone
    | plumb n =>
      dsimp only
      split
      · exact BoundedOut.timed (.next h)
      · exact BoundedOut.timed (exec_bounded h.same)

/-- Settles O59: beside the canonical forms (`step_kept`), few operations touch what the limits speak of. A change of mode lowers VL with VLMAX (`Wave.setMode`), SETVL
grants no more than the lane cap allows (`State.Bounded.grantVl`), RTE and RSTV check the frame (`State.Bounded.rstv`), an undone access brings VL back
(`Wave.Fits.unwind`), a launched wave comes with its file, and caps and pins are bounded where they are set. -/
theorem stepKeepsVectorLength : Obligations.StepKeepsVectorLength := by
  unfold Obligations.StepKeepsVectorLength
  intro s s' h e
  obtain ⟨hs, hb⟩ := good_iff.1 h
  exact good_iff.2 ⟨(step_kept hs).of_next e, (step_bounded hb).of_next e⟩

end Sys2Proof.Machine
end

section
/-! SUPPORT. The integer, immediate and constant instructions (spec/04 R97 to R99): the bit vector that an IOP's integer stands for, what a scalar result leaves of a
wave and of the machine, and the statement O1. -/

namespace Sys2Proof.Machine
open Sys2Proof Sys2Proof.Claims Sys2Proof.Laws

set_option Elab.async false

/-! ### The results of IOPs -/

theorem sextN_toInt (n : Nat) (v : Word) : sextN n v.toNat = (v.setWidth n).toInt := by
  rcases Nat.eq_zero_or_pos n with rfl | hn
  · simp [sextN, Nat.mod_one]
  · have hp : 2 ^ n = 2 * 2 ^ (n - 1) := by rw [← Nat.pow_succ']; congr; omega
    simp only [sextN, BitVec.toInt_eq_toNat_cond, BitVec.toNat_setWidth, ne_eq, hn.ne', not_false_eq_true, decide_true, Bool.true_and, decide_eq_true_eq]
    split <;> split <;> omega

theorem ofInt_natCast_mod (n : Nat) (r : Int) : (r % (2 ^ n : Nat)).toNat = (BitVec.ofInt n r).toNat := by
  simp [BitVec.toNat_ofInt]

theorem iopOut_eq {n : Nat} (hn : n ≤ 64) (r : Int) : iopOut n r = (BitVec.ofInt n r).signExtend 64 := by
  rw [iopOut, ofInt_natCast_mod]
  have h : (BitVec.ofInt n r).toNat = ((BitVec.ofInt n r).setWidth 64).toNat := by
    rw [BitVec.toNat_setWidth, Nat.mod_eq_of_lt]
    exact Nat.lt_of_lt_of_le (BitVec.ofInt n r).isLt (Nat.pow_le_pow_right (by decide) hn)
  rw [h, sextN_toInt, wordI, BitVec.signExtend, BitVec.setWidth_setWidth_of_le _ hn, BitVec.setWidth_eq]

/-- The operands of an IOP of width `n`, as bit vectors. -/
def IopIn.of {n : Nat} (u v : BitVec n) : IopIn := ⟨n, u.toNat, v.toNat, u.toInt, v.toInt⟩

theorem iopIn_eq (x : BitVec 1) (a b : Word) : iopIn x a b = .of (a.setWidth (iopWidth x)) (b.setWidth (iopWidth x)) := by
  simp only [iopIn, IopIn.of, BitVec.toNat_setWidth, sextN_toInt]

theorem iopOut_iopIn {f : IopIn → Int} {g : (n : Nat) → BitVec n → BitVec n → BitVec n}
    (hf : ∀ (n : Nat) (u v : BitVec n), 0 < n → BitVec.ofInt n (f (.of u v)) = g n u v) (x : BitVec 1) (a b : Word) :
    iopOut (iopWidth x) (f (iopIn x a b)) = Claims.iop x a b g := by
  have h (n : Nat) (h0 : 0 < n) (hn : n ≤ 64) : iopOut n (f (.of (a.setWidth n) (b.setWidth n))) = (g n (a.setWidth n) (b.setWidth n)).signExtend 64 := by
    rw [iopOut_eq hn, hf _ _ _ h0]
  rw [iopIn_eq]
  rcases BitVec.eq_zero_or_eq_one x with rfl | rfl
  · have h64 := h 64 (by decide) (by decide)
    rwa [BitVec.setWidth_eq, BitVec.setWidth_eq, BitVec.signExtend_eq] at h64
  · exact h 32 (by decide) (by decide)

theorem ofInt_shl {n : Nat} (u : BitVec n) (k : Nat) : BitVec.ofInt n ((u.toNat * 2 ^ k : Nat) : Int) = u <<< k := by
  rw [BitVec.ofInt_natCast]
  apply BitVec.eq_of_toNat_eq
  rw [BitVec.toNat_ofNat, BitVec.toNat_shiftLeft, Nat.shiftLeft_eq]

theorem ofInt_shr {n : Nat} (u : BitVec n) (k : Nat) : BitVec.ofInt n ((u.toNat / 2 ^ k : Nat) : Int) = u >>> k := by
  rw [BitVec.ofInt_natCast]
  apply BitVec.eq_of_toNat_eq
  rw [BitVec.toNat_ofNat, BitVec.toNat_ushiftRight, Nat.shiftRight_eq_div_pow, Nat.mod_eq_of_lt]
  exact Nat.lt_of_le_of_lt (Nat.div_le_self _ _) u.isLt

theorem ofInt_sha {n : Nat} (u : BitVec n) (k : Nat) : BitVec.ofInt n (u.toInt.fdiv (2 ^ k : Nat)) = u.sshiftRight k := by
  rw [BitVec.sshiftRight, Int.shiftRight_eq_div_pow, Int.fdiv_eq_ediv_of_nonneg _ (by positivity)]

/-- The high half of a product is that of the product modulo the square of the range. -/
theorem extract_high (n : Nat) (r : Int) : (BitVec.ofInt (2 * n) r).extractLsb' n n = BitVec.ofInt n (r / (2 ^ n : Nat)) := by
  obtain ⟨k, e⟩ : ∃ k, r % (2 ^ (2 * n) : Nat) = r + 2 ^ n * k * (2 ^ n : Nat) := ⟨-(r / (2 ^ (2 * n) : Nat)), by
    rw [Int.emod_def, two_mul, pow_add]; push_cast; ring⟩
  have hp : (0 : Int) < (2 ^ n : Nat) := by positivity
  have h : ((BitVec.ofInt (2 * n) r).toNat : Int) / (2 ^ n : Nat) = r / (2 ^ n : Nat) + 2 ^ n * k := by
    rw [BitVec.toNat_ofInt, Int.toNat_of_nonneg (Int.emod_nonneg _ (by positivity)), e, Int.add_mul_ediv_right _ _ hp.ne']
  apply BitVec.eq_of_toNat_eq
  apply Int.natCast_inj.1
  rw [BitVec.extractLsb'_toNat, Nat.shiftRight_eq_div_pow, BitVec.toNat_ofInt (i := r / (2 ^ n : Nat)), Int.toNat_of_nonneg (Int.emod_nonneg _ hp.ne'), Int.natCast_mod,
    Int.natCast_div, h]
  push_cast
  exact Int.add_mul_emod_self_left _ _ _

theorem ofInt_mulh {n : Nat} (u v : BitVec n) :
    BitVec.ofInt n ((u.toInt * v.toInt).fdiv (2 ^ n : Nat)) = (u.signExtend (2 * n) * v.signExtend (2 * n)).extractLsb' n n := by
  have h : u.signExtend (2 * n) * v.signExtend (2 * n) = BitVec.ofInt (2 * n) (u.toInt * v.toInt) := by
    rw [BitVec.ofInt_mul]; rfl
  rw [h, extract_high, Int.fdiv_eq_ediv_of_nonneg _ (by positivity)]

theorem ofInt_mulhn {n : Nat} (u v : BitVec n) :
    BitVec.ofInt n ((u.toNat * v.toNat / 2 ^ n : Nat) : Int) = (u.setWidth (2 * n) * v.setWidth (2 * n)).extractLsb' n n := by
  have h : u.setWidth (2 * n) * v.setWidth (2 * n) = BitVec.ofInt (2 * n) ((u.toNat * v.toNat : Nat) : Int) := by
    rw [BitVec.ofInt_natCast, BitVec.ofNat_mul, BitVec.ofNat_toNat, BitVec.ofNat_toNat]
  rw [h, extract_high]
  norm_cast

theorem ofInt_divS {n : Nat} (u v : BitVec n) (hn : 0 < n) : BitVec.ofInt n (divS (.of u v)) = if v = 0 then BitVec.allOnes n else u.sdiv v := by
  have h0 : v.toNat = 0 ↔ v = 0 := BitVec.toNat_inj (y := 0)
  have e : divS (.of u v) = if v.toNat = 0 then -1 else if u.toInt = -(2 ^ (n - 1) : Nat) ∧ v.toInt = -1 then u.toInt else u.toInt.tdiv v.toInt := rfl
  simp only [e, h0]
  by_cases hv : v = 0
  · rw [if_pos hv, if_pos hv, ← BitVec.neg_one_eq_allOnes, BitVec.ofInt_neg]
    rfl
  rw [if_neg hv, if_neg hv]
  by_cases h : u.toInt = -(2 ^ (n - 1) : Nat) ∧ v.toInt = -1
  · obtain ⟨hu, hv⟩ := h
    have eu : u = BitVec.intMin n := BitVec.eq_of_toInt_eq (by rw [hu, BitVec.toInt_intMin_of_pos hn]; norm_cast)
    have ev : v = -1#n := BitVec.eq_of_toInt_eq (by rw [hv, BitVec.neg_one_eq_allOnes, BitVec.toInt_allOnes, if_pos hn])
    rw [if_pos ⟨hu, hv⟩, BitVec.ofInt_toInt, eu, ev, BitVec.intMin_sdiv_neg_one]
  · rw [if_neg h]
    apply BitVec.eq_of_toInt_eq
    rw [BitVec.toInt_sdiv, BitVec.toInt_ofInt]

theorem ofInt_remS {n : Nat} (u v : BitVec n) : BitVec.ofInt n (remS (.of u v)) = u.srem v := by
  have h0 : v.toNat = 0 ↔ v = 0 := BitVec.toNat_inj (y := 0)
  have e : remS (.of u v) = (u.srem v).toInt := by
    have e : remS (.of u v) = if v.toNat = 0 then u.toInt else if v.toInt = -1 then 0 else u.toInt - v.toInt * u.toInt.tdiv v.toInt := rfl
    rw [e, BitVec.toInt_srem]
    simp only [h0]
    by_cases hv : v = 0
    · simp [hv]
    by_cases h1 : v.toInt = -1
    · rw [if_neg hv, if_pos h1, h1, Int.tmod_neg, Int.tmod_one]
    · rw [if_neg hv, if_neg h1, Int.tmod_def]
  rw [e, BitVec.ofInt_toInt]

theorem ofInt_add {n : Nat} (u v : BitVec n) : BitVec.ofInt n (u.toInt + v.toInt) = u + v := by
  rw [BitVec.ofInt_add, BitVec.ofInt_toInt, BitVec.ofInt_toInt]

theorem ofInt_sub {n : Nat} (u v : BitVec n) : BitVec.ofInt n (u.toInt - v.toInt) = u - v := by
  rw [Int.sub_eq_add_neg, BitVec.ofInt_add, BitVec.ofInt_neg, BitVec.ofInt_toInt, BitVec.ofInt_toInt, BitVec.sub_eq_add_neg]

theorem ofInt_mul {n : Nat} (u v : BitVec n) : BitVec.ofInt n (u.toInt * v.toInt) = u * v := by
  rw [BitVec.ofInt_mul, BitVec.ofInt_toInt, BitVec.ofInt_toInt]

/-- The natural number of a bit vector is that bit vector. -/
theorem ofInt_toNat {n k : Nat} {u : BitVec n} (h : k = u.toNat) : BitVec.ofInt n (k : Int) = u := by
  rw [BitVec.ofInt_natCast, h, BitVec.ofNat_toNat, BitVec.setWidth_eq]

theorem ofInt_divn {n : Nat} (u v : BitVec n) :
    BitVec.ofInt n (if v.toNat = 0 then ((2 ^ n - 1 : Nat) : Int) else ((u.toNat / v.toNat : Nat) : Int)) = if v = 0 then BitVec.allOnes n else u / v := by
  have h0 : v.toNat = 0 ↔ v = 0 := BitVec.toNat_inj (y := 0)
  simp only [h0]
  split
  · exact ofInt_toNat BitVec.toNat_allOnes.symm
  · exact ofInt_toNat BitVec.toNat_udiv.symm

theorem ofInt_remn {n : Nat} (u v : BitVec n) :
    BitVec.ofInt n (if v.toNat = 0 then (u.toNat : Int) else ((u.toNat % v.toNat : Nat) : Int)) = u % v := by
  split
  · next h => exact ofInt_toNat (by rw [BitVec.toNat_umod, h, Nat.mod_zero])
  · exact ofInt_toNat BitVec.toNat_umod.symm

theorem ofInt_slt {n : Nat} (u v : BitVec n) : BitVec.ofInt n (if u.toInt < v.toInt then 1 else 0) = if u.slt v then 1 else 0 := by
  simp only [← BitVec.slt_iff_toInt_lt]
  split <;> rfl

theorem ofInt_sltn {n : Nat} (u v : BitVec n) : BitVec.ofInt n (if u.toNat < v.toNat then 1 else 0) = if u < v then 1 else 0 := by
  simp only [← BitVec.lt_def]
  split <;> rfl

theorem ofInt_min {n : Nat} (u v : BitVec n) : BitVec.ofInt n (min u.toInt v.toInt) = if u.slt v then u else v := by
  simp only [min_def_lt, ← BitVec.slt_iff_toInt_lt]
  split <;> exact BitVec.ofInt_toInt

theorem ofInt_max {n : Nat} (u v : BitVec n) : BitVec.ofInt n (max u.toInt v.toInt) = if u.slt v then v else u := by
  simp only [max_def_lt, ← BitVec.slt_iff_toInt_lt]
  split <;> exact BitVec.ofInt_toInt

theorem ofInt_minn {n : Nat} (u v : BitVec n) : BitVec.ofInt n ((min u.toNat v.toNat : Nat) : Int) = if u < v then u else v := by
  simp only [min_def_lt, ← BitVec.lt_def]
  split <;> exact ofInt_toNat rfl

theorem ofInt_maxn {n : Nat} (u v : BitVec n) : BitVec.ofInt n ((max u.toNat v.toNat : Nat) : Int) = if u < v then v else u := by
  simp only [max_def_lt, ← BitVec.lt_def]
  split <;> exact ofInt_toNat rfl

/-! ### Bits counted -/

theorem testBit_iff (v i : Nat) : v / 2 ^ i % 2 = 1 ↔ v.testBit i = true := by
  rw [Nat.testBit_eq_decide_div_mod_eq, decide_eq_true_eq]

theorem clzAuxRec_eq {n : Nat} (x : BitVec n) {m : Nat} (hm : m < n) : x.clzAuxRec m = BitVec.ofNat n (n - 1 - m + clzN (m + 1) x.toNat) := by
  induction m with
  | zero =>
    simp only [BitVec.clzAuxRec, clzN, testBit_iff, BitVec.testBit_toNat]
    split
    · rfl
    · congr 1; omega
  | succ m ih =>
    rw [BitVec.clzAuxRec_succ, clzN]
    simp only [testBit_iff, BitVec.testBit_toNat]
    split
    · rfl
    · rw [ih (by omega)]; congr 1; omega

theorem ofInt_clz {n : Nat} (u : BitVec n) (hn : 0 < n) : BitVec.ofInt n (clzN n u.toNat : Int) = u.clz := by
  rw [BitVec.clz, clzAuxRec_eq u (by omega), BitVec.ofInt_natCast]
  congr 1
  rw [Nat.sub_add_cancel hn]; omega

theorem clzAuxRec_reverse {n : Nat} (x : BitVec n) {m : Nat} (hm : m < n) :
    x.reverse.clzAuxRec m = BitVec.ofNat n (n - 1 - m + ctzN (m + 1) (x.toNat / 2 ^ (n - 1 - m))) := by
  induction m with
  | zero =>
    simp only [BitVec.clzAuxRec, ctzN, BitVec.getLsbD_reverse, BitVec.getMsbD, hm, testBit_iff, BitVec.testBit_toNat, decide_true, Bool.true_and]
    split
    · rfl
    · congr 1; omega
  | succ m ih =>
    rw [BitVec.clzAuxRec_succ, ctzN, Nat.div_div_eq_div_mul, ← Nat.pow_succ]
    simp only [BitVec.getLsbD_reverse, BitVec.getMsbD, hm, testBit_iff, BitVec.testBit_toNat, decide_true, Bool.true_and]
    have e : n - 1 - (m + 1) + 1 = n - 1 - m := by omega
    split
    · rfl
    · rw [ih (by omega), Nat.succ_eq_add_one, e]; congr 1; omega

theorem ofInt_ctz {n : Nat} (u : BitVec n) (hn : 0 < n) : BitVec.ofInt n (ctzN n u.toNat : Int) = u.ctz := by
  rw [BitVec.ctz, BitVec.clz, clzAuxRec_reverse u (by omega), BitVec.ofInt_natCast, Nat.sub_self, Nat.pow_zero, Nat.div_one, Nat.zero_add, Nat.sub_add_cancel hn]

theorem popcount_succ (n v : Nat) : popcount (n + 1) v = popcount n v + v / 2 ^ n % 2 := by
  induction n generalizing v with
  | zero => simp [popcount]
  | succ n ih => rw [popcount, ih, popcount, Nat.div_div_eq_div_mul, ← Nat.pow_succ', Nat.add_assoc]

theorem cpopNatRec_eq {n : Nat} (x : BitVec n) (m acc : Nat) : x.cpopNatRec m acc = acc + popcount m x.toNat := by
  induction m generalizing acc with
  | zero => rfl
  | succ m ih =>
    rw [BitVec.cpopNatRec_succ, ih, popcount_succ, BitVec.getLsbD, Nat.toNat_testBit]
    omega

theorem ofInt_cpop {n : Nat} (u : BitVec n) : BitVec.ofInt n (popcount n u.toNat : Int) = u.cpop := by
  rw [BitVec.cpop, cpopNatRec_eq, BitVec.ofInt_natCast, Nat.zero_add]


/-! ### Immediates -/

theorem slt_ite {n : Nat} {α : Type} (u v : BitVec n) (x y : α) : (if u.slt v then x else y) = if u.toInt < v.toInt then x else y :=
  if_congr BitVec.slt_iff_toInt_lt rfl rfl

theorem sext_word (v : Word) (b : Reg) : wordI (sextN (extWidth b) v.toNat) = (v.setWidth (8 * 2 ^ b.toNat)).signExtend 64 := by
  rw [sextN_toInt]
  rfl

theorem zext_word (v : Word) (b : Reg) : word (v.toNat % 2 ^ extWidth b) = (v.setWidth (8 * 2 ^ b.toNat)).setWidth 64 := by
  rw [word, ← BitVec.toNat_setWidth, BitVec.ofNat_toNat]
  rfl

theorem lih_word (v : Word) (i : BitVec 21) : v <<< 21 ||| i.setWidth 64 = v.extractLsb' 0 43 ++ i := by
  apply BitVec.eq_of_getLsbD_eq
  intro k hk
  rw [BitVec.getLsbD_or, BitVec.getLsbD_shiftLeft, BitVec.getLsbD_setWidth, BitVec.getLsbD_append, BitVec.getLsbD_extractLsb']
  by_cases h : k < 21
  · simp [h, hk]
  · have h43 : k - 21 < 43 := by omega
    simp [h, hk, h43, BitVec.getLsbD_of_ge i k (by omega)]

/-! ### What a result leaves -/

theorem stepped_waves (s : State) (wi si : Nat) (sp : Split) : (stepped s wi si sp).waves
    = updAt s.waves wi (fun w => w.advance si sp (goes sp (sp.pc + 4) sp.pc false).1 (goes sp (sp.pc + 4) sp.pc false).2) := rfl

theorem stepped_wave {s : State} {wi : Nat} {w : Wave} (si : Nat) (sp : Split) (h : s.waves[wi]? = some w) : (stepped s wi si sp).waves[wi]?
    = some (w.advance si sp (goes sp (sp.pc + 4) sp.pc false).1 (goes sp (sp.pc + 4) sp.pc false).2) := by
  rw [stepped_waves, updAt_get_self, h]
  rfl

theorem stepped_only (s : State) (wi si : Nat) (sp : Split) : { stepped s wi si sp with waves := s.waves, now := s.now } = s := rfl

/-- A step on changes the splits of a wave. -/
theorem Wave.advance_only (w : Wave) (si : Nat) (sp : Split) (next : Word) (l : Loops) : { w.advance si sp next l with splits := w.splits } = w := rfl

theorem Wave.rd_wr_other (w : Wave) {d r : Reg} (v : Word) (h : r ≠ d) : (w.wr d v).rd r = w.rd r := by
  have hn : d.toNat ≠ r.toNat := fun e => h (BitVec.eq_of_toNat_eq e.symm)
  by_cases hd : d = 0
  · rw [Wave.wr, if_pos hd]
  · rw [wr_of_ne w v hd, Wave.rd, Wave.rd]
    simp only [Vector.getElem_set_ne _ _ hn]

theorem Wave.sIsFull_wr (w : Wave) (d r : Reg) (v : Word) : (w.wr d v).sIsFull r = w.sIsFull r := by
  unfold Wave.wr Wave.sIsFull
  split <;> rfl

theorem Wave.sIsPois_wr_other (w : Wave) {d r : Reg} (v : Word) (h : r ≠ d) : (w.wr d v).sIsPois r = w.sIsPois r := by
  have hn : d.toNat ≠ r.toNat := fun e => h (BitVec.eq_of_toNat_eq e.symm)
  by_cases hd : d = 0
  · rw [Wave.wr, if_pos hd]
  · have hs : (w.wr d v).sPois = setBit32 w.sPois d.toNat false := by rw [wr_of_ne w v hd]; rfl
    rw [Wave.sIsPois, Wave.sIsPois, hs, setBit32_get _ _ _ r.isLt, if_neg hn]

theorem Wave.wr_pend (w : Wave) (d : Reg) (v : Word) : (w.wr d v).pend = w.pend := by
  unfold Wave.wr
  split <;> rfl

theorem Wave.wr_only (w : Wave) (d : Reg) (v : Word) : { w.wr d v with s := w.s, sPois := w.sPois, hist := w.hist } = w := by
  unfold Wave.wr
  split <;> rfl

theorem sameRest_of_waves {s t : State} (h : { t with waves := s.waves, now := s.now } = s) : SameRest s t := by
  have hb : t.blocks = s.blocks := (congrArg State.blocks h :)
  have hc : t.cores = s.cores := (congrArg State.cores h :)
  have hl : t.clusters = s.clusters := (congrArg State.clusters h :)
  refine ⟨?_, by rw [hb], by rw [hc], by rw [hl]⟩
  exact congrArg (fun x : State => { x with mem := s.mem, pois := s.pois, cores := s.cores, clusters := s.clusters, blocks := s.blocks }) h

theorem setReg_stepped_sameWaves {s : State} {wi : Nat} (si : Nat) (sp : Split) (d : Reg) (v : Word) :
    SameWaves s (stepped (s.setReg wi d v) wi si sp) wi := fun j hj => by
  rw [stepped_waves, updAt_get_other _ _ hj]
  exact updAt_get_other _ _ hj

theorem setReg_stepped_sameWave {s : State} {wi : Nat} {w : Wave} (si : Nat) (sp : Split) (d : Reg) (v : Word) (h : s.waves[wi]? = some w) :
    SameWave (stepped (s.setReg wi d v) wi si sp) wi w [d] [] := by
  refine ⟨(w.wr d v).advance si sp (goes sp (sp.pc + 4) sp.pc false).1 (goes sp (sp.pc + 4) sp.pc false).2, stepped_wave si sp (by simp [State.setReg, h]),
    fun r hr => ?_, ?_, ?_⟩
  · have hne : r ≠ d := fun e => hr (List.mem_singleton.2 e)
    exact ⟨w.rd_wr_other v hne, w.sIsFull_wr d r v, w.sIsPois_wr_other v hne⟩
  · rw [List.append_nil]
    exact w.wr_pend d v
  · exact congrArg (fun x : Wave => { x with sFull := w.sFull, splits := w.splits, pend := w.pend }) (w.wr_only d v)

/-! ### The instructions -/

theorem iop_gives {s : State} {wi si : Nat} {w : Wave} {sp : Split} {d a b : Reg} {x : BitVec 1} {i : Instr} {f : IopIn → Int}
    {g : (n : Nat) → BitVec n → BitVec n → BitVec n} (hi : Issues s wi si w sp) (hst : Straight sp) (hr : Reads w [a, b]) (hd : Writes w [d])
    (hf : ∀ (n : Nat) (u v : BitVec n), 0 < n → BitVec.ofInt n (f (.of u v)) = g n u v) (he : exec i s = s.iop d a b x f) :
    Gives i s wi si sp (s.setReg wi d (Claims.iop x (w.rd a) (w.rd b) g)) := by
  rw [Gives, he, State.iop, compute_eq hi hst (ss := [(a, 0), (b, 1)]) hr hd, iopOut_iopIn hf]

theorem iop1_gives {s : State} {wi si : Nat} {w : Wave} {sp : Split} {d a : Reg} {x : BitVec 1} {i : Instr} {f : IopIn → Int}
    {g : (n : Nat) → BitVec n → BitVec n → BitVec n} (hi : Issues s wi si w sp) (hst : Straight sp) (hr : Reads w [a]) (hd : Writes w [d])
    (hf : ∀ (n : Nat) (u v : BitVec n), 0 < n → BitVec.ofInt n (f (.of u v)) = g n u v) (he : exec i s = s.iop1 d a x f) :
    Gives i s wi si sp (s.setReg wi d (Claims.iop x (w.rd a) 0 g)) := by
  rw [Gives, he, State.iop1, compute_eq hi hst (ss := [(a, 0)]) hr hd, iopOut_iopIn hf]

theorem compute_gives {s : State} {wi si : Nat} {w : Wave} {sp : Split} {d : Reg} {ss : List (Reg × Nat)} {i : Instr} {f : Wave → Word} {v : Word}
    (hi : Issues s wi si w sp) (hst : Straight sp) (hr : Reads w (ss.map (·.1))) (hd : Writes w [d]) (he : exec i s = s.compute ss d f) (hv : f w = v) :
    Gives i s wi si sp (s.setReg wi d v) := by
  rw [Gives, he, compute_eq hi hst hr hd, hv]

/-- An instruction of the integer, immediate and constant groups computes one result from its sources. -/
theorem scalarResult_compute {i : Instr} {d : Reg} (h : scalarResult i = some d) (s : State) :
    ∃ (ss : List (Reg × Nat)) (f : Wave → Word), ss.map (·.1) = scalarSources i ∧ exec i s = s.compute ss d f := by
  unfold scalarResult at h
  split at h
  case h_38 => cases h
  all_goals
    cases h
    exact ⟨_, _, rfl, rfl⟩

/-- Settles O1: every instruction of the groups is one computed result (`scalarResult_compute`), and the integer that an IOP computes is, modulo the width, the bit
vector's own operation (`ofInt_add` to `ofInt_cpop`, by `iopOut_iopIn`). -/
theorem scalarArithmeticResults : Obligations.ScalarArithmeticResults := by
  unfold Obligations.ScalarArithmeticResults
  refine ⟨⟨fun s wi si w sp d a b x hi hst hr hd => ?_, fun s wi si w sp d a b x imm m i21 hi hst hd => ?_⟩, fun i s wi si w sp d hs _ hi hst hr hd => ?_⟩
  · have op {i : Instr} {g : (n : Nat) → BitVec n → BitVec n → BitVec n} (f : IopIn → Int) (he : exec i s = s.iop d a b x f)
        (hf : ∀ (n : Nat) (u v : BitVec n), 0 < n → BitVec.ofInt n (f (.of u v)) = g n u v) :
        Gives i s wi si sp (s.setReg wi d (Claims.iop x (w.rd a) (w.rd b) g)) := iop_gives hi hst hr hd hf he
    exact ⟨op (fun o => o.ia + o.ib) rfl fun _ u v _ => ofInt_add u v,
      op (fun o => o.ia - o.ib) rfl fun _ u v _ => ofInt_sub u v,
      op (fun o => o.ia * o.ib) rfl fun _ u v _ => ofInt_mul u v,
      op (fun o => (o.ia * o.ib).fdiv (2 ^ o.n : Nat)) rfl fun _ u v _ => ofInt_mulh u v,
      op (fun o => ((o.ua * o.ub / 2 ^ o.n : Nat) : Int)) rfl fun _ u v hn => ofInt_mulhn u v,
      op divS rfl fun _ u v hn => ofInt_divS u v hn,
      op (fun o => if o.ub = 0 then ((2 ^ o.n - 1 : Nat) : Int) else ((o.ua / o.ub : Nat) : Int)) rfl fun _ u v _ => ofInt_divn u v,
      op remS rfl fun _ u v _ => ofInt_remS u v,
      op (fun o => if o.ub = 0 then (o.ua : Int) else ((o.ua % o.ub : Nat) : Int)) rfl fun _ u v _ => ofInt_remn u v,
      op (fun o => ((o.ua &&& o.ub : Nat) : Int)) rfl fun _ _ _ _ => ofInt_toNat (BitVec.toNat_and ..).symm,
      op (fun o => ((o.ua ||| o.ub : Nat) : Int)) rfl fun _ _ _ _ => ofInt_toNat (BitVec.toNat_or ..).symm,
      op (fun o => ((o.ua ^^^ o.ub : Nat) : Int)) rfl fun _ _ _ _ => ofInt_toNat (BitVec.toNat_xor ..).symm,
      op (fun o => ((o.ua * 2 ^ o.sh : Nat) : Int)) rfl fun _ u _ _ => ofInt_shl u _,
      op (fun o => ((o.ua / 2 ^ o.sh : Nat) : Int)) rfl fun _ u _ _ => ofInt_shr u _,
      op (fun o => o.ia.fdiv (2 ^ o.sh : Nat)) rfl fun _ u _ _ => ofInt_sha u _,
      op (fun o => if o.ia < o.ib then 1 else 0) rfl fun _ u v _ => ofInt_slt u v,
      op (fun o => if o.ua < o.ub then 1 else 0) rfl fun _ u v _ => ofInt_sltn u v,
      op (fun o => min o.ia o.ib) rfl fun _ u v _ => ofInt_min u v,
      op (fun o => max o.ia o.ib) rfl fun _ u v _ => ofInt_max u v,
      op (fun o => ((min o.ua o.ub : Nat) : Int)) rfl fun _ u v _ => ofInt_minn u v,
      op (fun o => ((max o.ua o.ub : Nat) : Int)) rfl fun _ u v _ => ofInt_maxn u v⟩
  · have put {i : Instr} {ss : List (Reg × Nat)} {f : Wave → Word} {v : Word} (hr : Reads w (ss.map (·.1))) (he : exec i s = s.compute ss d f) (hv : f w = v) :
        Gives i s wi si sp (s.setReg wi d v) := compute_gives hi hst hr hd he hv
    refine ⟨put (ss := []) (List.forall_mem_nil _) rfl rfl, fun hr => put (ss := [(d, 2)]) hr rfl (lih_word _ _), fun hr => ?_⟩
    have count {i : Instr} {g : (n : Nat) → BitVec n → BitVec n → BitVec n} (f : IopIn → Int) (he : exec i s = s.iop1 d a x f)
        (hf : ∀ (n : Nat) (u v : BitVec n), 0 < n → BitVec.ofInt n (f (.of u v)) = g n u v) :
        Gives i s wi si sp (s.setReg wi d (Claims.iop x (w.rd a) 0 g)) := iop1_gives hi hst hr hd hf he
    have one {i : Instr} {f : Wave → Word} {v : Word} (he : exec i s = s.compute [(a, 0)] d f) (hv : f w = v) :
        Gives i s wi si sp (s.setReg wi d v) := put (ss := [(a, 0)]) hr he hv
    exact ⟨count (fun o => (clzN o.n o.ua : Int)) rfl fun _ u _ hn => ofInt_clz u hn, count (fun o => (ctzN o.n o.ua : Int)) rfl fun _ u _ hn => ofInt_ctz u hn,
      count (fun o => (popcount o.n o.ua : Int)) rfl fun _ u _ _ => ofInt_cpop u, fun _ => one rfl (sext_word _ _), fun _ => one rfl (zext_word _ _), one rfl rfl, one rfl rfl,
      one rfl rfl, one rfl rfl, one rfl rfl, one rfl rfl, one rfl rfl, one rfl (slt_ite _ _ _ _).symm, one rfl rfl⟩
  · obtain ⟨ss, f, hss, he⟩ := scalarResult_compute hs s
    have e : exec i s = .next (stepped (s.setReg wi d (f w)) wi si sp) := compute_gives hi hst (hss ▸ hr) hd he rfl
    exact ⟨_, e, ⟨fun _ => rfl, rfl⟩, sameRest_of_waves rfl, rfl, rfl, rfl, setReg_stepped_sameWaves si sp d (f w), setReg_stepped_sameWave si sp d (f w) hi.wave⟩

end Sys2Proof.Machine
end

section
/-! SUPPORT. Splits (spec/02 R51 to R54, spec/04 R109 to R111): merging, filling and dividing keep every lane where it is, and the statement O4. -/

namespace Sys2Proof.Machine
open Sys2Proof Sys2Proof.Claims Sys2Proof.Laws

set_option Elab.async false

/-! ### Lanes of a list of splits -/

/-- A lane is in a split of the list at an address. -/
def LaneIn (l : List Split) (lane : Nat) (pc : Word) : Prop := ∃ x ∈ l, x.mask.getLsbD lane = true ∧ x.pc = pc

variable {l : List Split} {lane : Nat} {pc : Word}

theorem laneIn_nil : ¬ LaneIn [] lane pc := by simp [LaneIn]

theorem laneIn_cons {x : Split} : LaneIn (x :: l) lane pc ↔ (x.mask.getLsbD lane = true ∧ x.pc = pc) ∨ LaneIn l lane pc := by simp [LaneIn]

theorem laneIn_append {l' : List Split} : LaneIn (l ++ l') lane pc ↔ LaneIn l lane pc ∨ LaneIn l' lane pc := by
  simp only [LaneIn, List.mem_append, or_and_right, exists_or]

theorem laneIn_map {f : Split → Split} (hf : ∀ x, (f x).mask = x.mask ∧ (f x).pc = x.pc) : LaneIn (l.map f) lane pc ↔ LaneIn l lane pc := by
  simp [LaneIn, hf]

theorem laneIn_of_getElem? {i : Nat} {x : Split} (h : l[i]? = some x) (hm : x.mask.getLsbD lane = true) : LaneIn l lane x.pc :=
  ⟨x, List.mem_of_getElem? h, hm, rfl⟩

theorem laneIn_iff_getElem? : LaneIn l lane pc ↔ ∃ (j : Nat) (y : Split), l[j]? = some y ∧ y.mask.getLsbD lane = true ∧ pc = y.pc := by
  constructor
  · rintro ⟨x, hx, hm, rfl⟩
    obtain ⟨j, hj⟩ := List.mem_iff_getElem?.1 hx
    exact ⟨j, x, hj, hm, rfl⟩
  · rintro ⟨j, y, hj, hm, rfl⟩
    exact laneIn_of_getElem? hj hm

/-- The split at a place has gone to `next`; the others are where they are. -/
theorem laneIn_updAt_moved {si : Nat} {sp : Split} {f : Split → Split} (h : l[si]? = some sp) (hf : (f sp).mask = sp.mask) :
    LaneIn (updAt l si f) lane pc ↔
      (sp.mask.getLsbD lane = true ∧ pc = (f sp).pc) ∨ ∃ j y, j ≠ si ∧ l[j]? = some y ∧ y.mask.getLsbD lane = true ∧ pc = y.pc := by
  rw [laneIn_iff_getElem?]
  constructor
  · rintro ⟨j, y, hj, hm, rfl⟩
    by_cases e : j = si
    · subst e
      rw [updAt_get_self, h] at hj
      cases hj
      exact .inl ⟨hf ▸ hm, rfl⟩
    · rw [updAt_get_other _ _ e] at hj
      exact .inr ⟨j, y, e, hj, hm, rfl⟩
  · rintro (⟨hm, rfl⟩ | ⟨j, y, e, hj, hm, rfl⟩)
    · exact ⟨si, f sp, by rw [updAt_get_self, h]; rfl, hf.symm ▸ hm, rfl⟩
    · exact ⟨j, y, by rw [updAt_get_other _ _ e, hj], hm, rfl⟩

theorem laneIn_updAt {i : Nat} {f : Split → Split} (hf : ∀ x, (f x).mask = x.mask ∧ (f x).pc = x.pc) : LaneIn (updAt l i f) lane pc ↔ LaneIn l lane pc := by
  induction l generalizing i with
  | nil => cases i <;> rfl
  | cons x l ih =>
    cases i with
    | zero => simp only [updAt, laneIn_cons, hf]
    | succ i => simp only [updAt, laneIn_cons, ih]

/-! ### Merging and filling -/

theorem laneIn_mergeIn {x : Split} : LaneIn (mergeIn l x) lane pc ↔ LaneIn l lane pc ∨ (x.mask.getLsbD lane = true ∧ x.pc = pc) := by
  induction l with
  | nil => simp [mergeIn, LaneIn]
  | cons y l ih =>
    unfold mergeIn
    split
    · next h =>
      obtain ⟨hpc, -⟩ := Bool.and_eq_true_iff.1 h
      simp only [laneIn_cons, BitVec.getLsbD_or, Bool.or_eq_true, beq_iff_eq.1 hpc]
      tauto
    · simp only [laneIn_cons, ih, or_assoc]

theorem laneIn_mergeAll : LaneIn (mergeAll l) lane pc ↔ LaneIn l lane pc := by
  have fold (m : List Split) : LaneIn (l.foldl mergeIn m) lane pc ↔ LaneIn m lane pc ∨ LaneIn l lane pc := by
    induction l generalizing m with
    | nil => simp [laneIn_nil]
    | cons x l ih => rw [List.foldl_cons, ih, laneIn_mergeIn, laneIn_cons, or_assoc]
  rw [mergeAll, fold, or_iff_right laneIn_nil]

theorem laneIn_fillSplits (limit fuel : Nat) : LaneIn (fillSplits limit fuel l) lane pc ↔ LaneIn l lane pc := by
  induction fuel generalizing l with
  | zero => rfl
  | succ fuel ih =>
    unfold fillSplits
    split
    · split
      · rfl
      · rw [ih]
        exact laneIn_updAt fun _ => ⟨rfl, rfl⟩
    · rfl

theorem laneAt_settle (w : Wave) : LaneAt (w.settle l) lane pc ↔ LaneIn l lane pc := (laneIn_fillSplits _ _).trans laneIn_mergeAll

/-- A split that has gone on takes its lanes along, and no lane of another. -/
theorem laneAt_advance {w : Wave} {si : Nat} {sp : Split} {next : Word} {loops : Loops} (h : w.splits[si]? = some sp) :
    LaneAt (w.advance si sp next loops) lane pc ↔
      (sp.mask.getLsbD lane = true ∧ pc = next) ∨ ∃ j y, j ≠ si ∧ w.splits[j]? = some y ∧ y.mask.getLsbD lane = true ∧ pc = y.pc := by
  unfold Wave.advance
  dsimp only
  rw [laneAt_settle]
  generalize hf : (fun x : Split => { x with pc := next, loops := loops, held := none, yields := [], wfe := false, skipHit := false, stalls := false, due := none }) = f
  have hm : (f sp).mask = sp.mask := by rw [← hf]
  have hp : (f sp).pc = next := by rw [← hf]
  refine Iff.trans ?_ (hp ▸ laneIn_updAt_moved h hm)
  split
  · rfl
  · exact laneIn_map fun _ => ⟨rfl, rfl⟩

/-- The end of an earlier yield leaves every lane where it is. -/
theorem laneIn_release {s : State} {w : Wave} {i : Option Nat} : LaneIn (s.release w i) lane pc ↔ LaneIn w.splits lane pc := by
  refine laneIn_map fun y => ?_
  split
  · exact ⟨rfl, rfl⟩
  · exact ⟨rfl, rfl⟩

/-! ### Division -/

theorem laneIn_divideSplit {limit : Nat} {idx : Option Nat} {f t : Split} (h : (f.mask.getLsbD lane = true ∧ f.pc = pc) ∨ (t.mask.getLsbD lane = true ∧ t.pc = pc)) :
    LaneIn (divideSplit limit l idx f t) lane pc := by
  have parts (m : List Split) (i j : Option Nat) : LaneIn (m ++ [{ f with idx := i }, { t with idx := j }]) lane pc :=
    laneIn_append.2 (.inr (laneIn_cons.2 (h.imp_right fun ht => laneIn_cons.2 (.inl ht))))
  have choice {c : Prop} [Decidable c] {m m' : List Split} (hm : LaneIn m lane pc) (hm' : LaneIn m' lane pc) : LaneIn (if c then m else m') lane pc := by
    split
    · exact hm
    · exact hm'
  exact choice (parts _ _ _) (choice (parts _ _ _) (choice (parts _ _ _) (parts _ _ _)))

/-- The lanes of a split that do not take the branch. -/
theorem restLanes_zero_iff (m r : Word) : m &&& ~~~(m &&& r) = 0 ↔ m &&& r = m := by
  constructor
  · intro h
    apply BitVec.eq_of_getLsbD_eq
    intro i hi
    have hb := congrArg (BitVec.getLsbD · i) h
    simp only [BitVec.getLsbD_and, BitVec.getLsbD_not, hi, decide_true, Bool.true_and, BitVec.ofNat_eq_ofNat, BitVec.getLsbD_zero] at hb ⊢
    revert hb
    cases m.getLsbD i <;> cases r.getLsbD i <;> decide
  · intro h
    rw [h]
    exact BitVec.and_not_self m

theorem restLanes_getLsbD {m t : Word} (hm : m.getLsbD lane = true) (ht : t.getLsbD lane = false) : (m &&& ~~~t).getLsbD lane = true := by
  rw [BitVec.getLsbD_and, BitVec.getLsbD_not, hm, ht, decide_eq_true (BitVec.lt_of_getLsbD hm)]
  rfl

/-! ### A wave changed at its place -/

theorem updWave_at {s : State} {wi : Nat} {w : Wave} (f : Wave → Wave) (h : s.waves[wi]? = some w) : s.updWave wi f = s.updWave wi fun _ => f w := by
  have e : updAt s.waves wi f = updAt s.waves wi fun _ => f w := by
    apply List.ext_getElem?
    intro j
    rw [updAt_get, updAt_get]
    split
    · next e => rw [e, h]; rfl
    · rfl
  simp only [State.updWave, e]

section
variable {s : State} {wi si : Nat} {w : Wave} {sp : Split}

theorem free_eq (h : Issues s wi si w sp) (k : Nat → Nat → Wave → Split → Res) : s.scalar [] [] k = .next (s.retire wi si sp (k wi si w sp)) :=
  scalar_eq h (ss := []) (List.forall_mem_nil _) (List.forall_mem_nil _) k

theorem free_done (h : Issues s wi si w sp) (hst : Straight sp) {k : Nat → Nat → Wave → Split → Res} (hk : k wi si w sp = .done s) :
    s.scalar [] [] k = .next (stepped s wi si sp) := by
  rw [free_eq h, hk, retire_done hst]

theorem free_trap (h : Issues s wi si w sp) (hc : CutClosed w) {k : Nat → Nat → Wave → Split → Res} {t : Trap} (hk : k wi si w sp = .trap t) :
    s.scalar [] [] k = .next (s.takeTrap wi si sp.pc t false false).bump := by
  rw [free_eq h, hk, ← trapOr_closed s si sp.pc t false false h.wave hc]
  rfl

theorem straight_inRange (h : Straight sp) : (highBits (goes sp (sp.pc + 4) sp.pc false).1 && (goes sp (sp.pc + 4) sp.pc false).1 != sp.pc + 4) = false := by
  cases hb : highBits (goes sp (sp.pc + 4) sp.pc false).1
  · rfl
  · rw [(h hb).2, bne_self_eq_false, Bool.and_false]

theorem others_lower_iff (p : Split → Bool) : (w.splits.eraseIdx si).any p = true ↔ ∃ j y, j ≠ si ∧ w.splits[j]? = some y ∧ p y = true := by
  simp only [List.any_eq_true, List.mem_eraseIdx_iff_getElem?]
  constructor
  · rintro ⟨y, ⟨j, hj, hy⟩, hp⟩
    exact ⟨j, y, hj, hy, hp⟩
  · rintro ⟨j, y, hj, hy, hp⟩
    exact ⟨y, ⟨j, hj, hy⟩, hp⟩

/-! ### BRD, JOIN and YIELD -/

theorem exec_brd (k : BitVec 3) (off : BitVec 16) (s : State) : exec (.brd k off) s = execBrd k off s := rfl

theorem exec_join (s : State) : exec .join s = execJoin s := rfl

theorem exec_yield (s : State) : exec .yield s = execYield s := rfl

theorem brd_stays {k : BitVec 3} {off : BitVec 16} (h : Issues s wi si w sp) (hl : w.lvl = 0) (ht : sp.mask &&& (w.rdK k <<< w.laneBase) = 0)
    (hst : Straight sp) : exec (.brd k off) s = .next (stepped s wi si sp) := by
  rw [exec_brd, execBrd, free_done h hst]
  simp only [hl, ht, if_true, ne_eq, not_true_eq_false, if_false]

theorem brd_all {k : BitVec 3} {off : BitVec 16} (h : Issues s wi si w sp) (hl : w.lvl = 0) (ht : sp.mask &&& (w.rdK k <<< w.laneBase) = sp.mask)
    (h0 : sp.mask &&& (w.rdK k <<< w.laneBase) ≠ 0) (hr : InRange sp (target16 sp.pc off) sp.pc true) :
    exec (.brd k off) s = .next (moved s wi si sp (target16 sp.pc off) sp.pc true) := by
  rw [exec_brd, execBrd, free_eq h, ← retire_goto (s := s) hr]
  have hf := (restLanes_zero_iff sp.mask (w.rdK k <<< w.laneBase)).2 ht
  simp only [hl, h0, hf, if_true, ne_eq, not_true_eq_false, if_false]

theorem brd_handler {k : BitVec 3} {off : BitVec 16} (h : Issues s wi si w sp) (hl : w.lvl ≠ 0) (hc : CutClosed w) :
    exec (.brd k off) s = .next (s.takeTrap wi si sp.pc ⟨20, 0, 0⟩ false false).bump := by
  rw [exec_brd, execBrd, free_trap h hc]
  simp only [hl, ne_eq, not_false_eq_true, if_true]

theorem brd_divides {k : BitVec 3} {off : BitVec 16} (h : Issues s wi si w sp) (hl : w.lvl = 0) (ht : sp.mask &&& (w.rdK k <<< w.laneBase) ≠ sp.mask)
    (h0 : sp.mask &&& (w.rdK k <<< w.laneBase) ≠ 0) (hb : highBits (target16 sp.pc off) = false) (hst : Straight sp) :
    ∃ w', exec (.brd k off) s = .next (s.updWave wi (fun _ => w')).bump ∧ ∀ lane, sp.mask.getLsbD lane = true →
      LaneAt w' lane (if (sp.mask &&& (w.rdK k <<< w.laneBase)).getLsbD lane then (goes sp (target16 sp.pc off) sp.pc true).1
        else (goes sp (sp.pc + 4) sp.pc false).1) := by
  have hf := mt (restLanes_zero_iff sp.mask (w.rdK k <<< w.laneBase)).1 ht
  rw [exec_brd, execBrd, free_eq h]
  have hs := straight_inRange hst
  simp only [goes] at hs
  simp only [hl, h0, hf, hb, hs, ne_eq, not_true_eq_false, if_false, Bool.false_eq_true, State.retire]
  rw [updWave_at _ h.wave]
  refine ⟨_, rfl, fun lane hm => ?_⟩
  rw [laneAt_settle]
  apply laneIn_divideSplit
  by_cases ht : (sp.mask &&& (w.rdK k <<< w.laneBase)).getLsbD lane = true
  · rw [if_pos ht]
    exact .inr ⟨ht, rfl⟩
  · rw [if_neg ht]
    exact .inl ⟨restLanes_getLsbD hm (Bool.eq_false_iff.2 ht), rfl⟩

theorem join_goes {s : State} (h : Issues s wi si w sp) (hst : Straight sp) (hj : ∀ j y, j ≠ si → w.splits[j]? = some y → sp.pc ≤ y.pc) :
    exec .join s = .next (stepped s wi si sp) := by
  rw [exec_join, execJoin, free_done h hst]
  have hn : ¬ (w.splits.eraseIdx si).any (fun x => decide (x.pc < sp.pc)) = true := by
    rw [others_lower_iff]
    rintro ⟨j, y, hj', hy, hlt⟩
    exact absurd (of_decide_eq_true hlt) (BitVec.not_lt.2 (hj j y hj' hy))
  rw [if_neg hn]

theorem join_waits {s : State} (h : Issues s wi si w sp) (hj : ∃ j y, j ≠ si ∧ w.splits[j]? = some y ∧ y.pc < sp.pc) :
    exec .join s = .next (s.hold wi si) := by
  obtain ⟨j, y, hj, hy, hlt⟩ := hj
  rw [exec_join, execJoin, free_eq h, if_pos ((others_lower_iff _).2 ⟨j, y, hj, hy, decide_eq_true hlt⟩)]
  rfl

theorem yield_alone {s : State} (h : Issues s wi si w sp) (hst : Straight sp) (hw : w.splits = [sp]) : exec .yield s = .next (stepped s wi si sp) := by
  rw [exec_yield, execYield, free_done h hst]
  simp only [hw, List.length_singleton, le_refl, if_true]

theorem yield_goes {s : State} (h : Issues s wi si w sp) (hst : Straight sp) (hw : w.splits ≠ [sp]) :
    ∃ w', exec .yield s = .next (s.updWave wi (fun _ => w')).bump ∧
      ∀ lane, sp.mask.getLsbD lane = true → LaneAt w' lane (goes sp (sp.pc + 4) sp.pc false).1 := by
  have hlen : ¬ w.splits.length ≤ 1 := by
    intro hle
    have hsp := h.split
    rcases hl : w.splits with _ | ⟨x, _ | _⟩
    · simp [hl] at hsp
    · obtain rfl | si := si
      · simp_all
      · simp [hl] at hsp
    · simp [hl] at hle
  have hs := straight_inRange hst
  simp only [goes] at hs
  rw [exec_yield, execYield, free_eq h]
  simp only [hlen, hs, if_false, Bool.false_eq_true, State.retire]
  rw [updWave_at _ h.wave]
  refine ⟨_, rfl, fun lane hm => ?_⟩
  rw [laneAt_settle, laneIn_release]
  dsimp only
  have hgo (y : List Nat) : LaneIn (updAt w.splits si fun x => { x with
      pc := (goes sp (sp.pc + 4) sp.pc false).1, loops := (goes sp (sp.pc + 4) sp.pc false).2, yields := y, held := none }) lane
      (goes sp (sp.pc + 4) sp.pc false).1 := (laneIn_updAt_moved h.split rfl).2 (.inl ⟨hm, rfl⟩)
  split
  · refine (laneIn_map ?_).2 ((laneIn_updAt ?_).2 ((laneIn_updAt ?_).2 (hgo _))) <;> exact fun _ => ⟨rfl, rfl⟩
  · refine (laneIn_map ?_).2 (hgo _)
    exact fun _ => ⟨rfl, rfl⟩
  · exact hgo _

/-- Settles O4: merging, filling and dividing a list of splits keep every lane where it is (`laneIn_mergeAll`, `laneIn_fillSplits`, `laneIn_divideSplit`), so what
BRD, JOIN and YIELD do to lanes is what they do to the issuing split. -/
theorem splitResults : Obligations.SplitResults := by
  unfold Obligations.SplitResults
  refine ⟨fun w si sp next l lane pc h => laneAt_advance h, fun s wi si w sp k off hi => ?_⟩
  exact ⟨fun hl ht hst => brd_stays hi hl ht hst, fun hl ht h0 hr => brd_all hi hl ht h0 hr, fun hl ht h0 hb hst => brd_divides hi hl ht h0 hb hst,
    fun hl hc => brd_handler hi hl hc, fun hst hj => join_goes hi hst hj, fun hj => join_waits hi hj, fun hst hw => yield_alone hi hst hw,
    fun hst hw => yield_goes hi hst hw⟩

end

end Sys2Proof.Machine
end

section
/-! SUPPORT. Reading memory after a write (spec/00 R9): the bytes written, the bytes left alone, and values of several bytes. -/

namespace Sys2Proof.Machine
open Sys2Proof Sys2Proof.Claims Sys2Proof.Laws

set_option Elab.async false

/-! ### Values of bytes -/

@[simp] theorem leBytes_length (n v : Nat) : (leBytes n v).length = n := by
  induction n generalizing v with
  | zero => rfl
  | succ n ih => simp [leBytes, ih]

theorem leValue_leBytes (n v : Nat) : leValue (leBytes n v) = v % 256 ^ n := by
  induction n generalizing v with
  | zero => simp [leBytes, leValue, Nat.mod_one]
  | succ n ih => rw [leBytes, leValue, ih, BitVec.toNat_ofNat, Nat.pow_succ' (m := 256), Nat.mod_mul (x := v) (a := 256)]

theorem leValue_leBytes_of_lt {n v : Nat} (h : v < 256 ^ n) : leValue (leBytes n v) = v := by
  rw [leValue_leBytes, Nat.mod_eq_of_lt h]

/-- Pieces of one length, laid end to end. -/
theorem flatMap_piece {α β : Type} {l : List α} {f : α → List β} {n : Nat} (hf : ∀ x ∈ l, (f x).length = n) {i : Nat} {x : α} (hx : l[i]? = some x) :
    ((l.flatMap f).drop (n * i)).take n = f x := by
  induction l generalizing i with
  | nil => simp at hx
  | cons y l ih =>
    have hy := hf y List.mem_cons_self
    cases i with
    | zero =>
      obtain rfl : y = x := by simpa using hx
      rw [Nat.mul_zero, List.drop_zero, List.flatMap_cons, ← hy, List.take_left]
    | succ i =>
      rw [List.flatMap_cons, Nat.mul_succ, List.drop_append, List.drop_eq_nil_of_le (by omega), List.nil_append,
        show n * i + n - (f y).length = n * i by omega]
      exact ih (fun x hx => hf x (List.mem_cons_of_mem _ hx)) (by simpa using hx)

/-! ### Bytes -/

variable {m : List Host.Cell}

theorem memRead_memWrite (hm : Memory.wf m = true) (a b : Nat) (v : Byte) : memRead (memWrite m a v) b = if b = a then v else memRead m b :=
  assocGet_set a b v hm

theorem memRead_memWriteBytes (hm : Memory.wf m = true) (a b : Nat) (l : List Byte) :
    memRead (memWriteBytes m a l) b = if a ≤ b ∧ b < a + l.length then l.getD (b - a) 0 else memRead m b := by
  induction l generalizing m a with
  | nil => simp only [memWriteBytes, List.length_nil]; rw [if_neg (by omega)]
  | cons x l ih =>
    rw [memWriteBytes, ih (memWrite_wf a x hm), memRead_memWrite hm, List.length_cons]
    rcases Nat.lt_trichotomy b a with h | rfl | h
    · rw [if_neg (by omega), if_neg (by omega), if_neg (by omega)]
    · rw [if_neg (by omega), if_pos rfl, if_pos (by omega), Nat.sub_self]
      rfl
    · have e : b - a = b - (a + 1) + 1 := by omega
      by_cases hb : b < a + (l.length + 1)
      · rw [if_pos (by omega), if_pos (by omega), e, List.getD_cons_succ]
      · rw [if_neg (by omega), if_neg (by omega), if_neg (by omega)]

@[simp] theorem memReadBytes_length (m : List Host.Cell) (a n : Nat) : (memReadBytes m a n).length = n := by
  induction n generalizing a with
  | zero => rfl
  | succ n ih => rw [memReadBytes, List.length_cons, ih]

theorem memReadBytes_congr {m' : List Host.Cell} {a n : Nat} (h : ∀ b, a ≤ b → b < a + n → memRead m' b = memRead m b) :
    memReadBytes m' a n = memReadBytes m a n := by
  induction n generalizing a with
  | zero => rfl
  | succ n ih => rw [memReadBytes, memReadBytes, h a (by omega) (by omega), ih fun b h1 h2 => h b (by omega) (by omega)]

theorem memReadBytes_getElem? (m : List Host.Cell) (a : Nat) {n i : Nat} (h : i < n) : (memReadBytes m a n)[i]? = some (memRead m (a + i)) := by
  induction n generalizing a i with
  | zero => omega
  | succ n ih =>
    cases i with
    | zero => rfl
    | succ i =>
      rw [memReadBytes, List.getElem?_cons_succ, ih (a + 1) (by omega)]
      congr 2
      omega

/-- Bytes that a write does not reach. -/
theorem memReadBytes_apart (hm : Memory.wf m = true) {a b n : Nat} {l : List Byte} (h : b + n ≤ a ∨ a + l.length ≤ b) :
    memReadBytes (memWriteBytes m a l) b n = memReadBytes m b n :=
  memReadBytes_congr fun c h1 h2 => by rw [memRead_memWriteBytes hm, if_neg (by omega)]

/-- Bytes of a write. -/
theorem memReadBytes_within (hm : Memory.wf m = true) (a : Nat) {o n : Nat} {l : List Byte} (h : o + n ≤ l.length) :
    memReadBytes (memWriteBytes m a l) (a + o) n = (l.drop o).take n := by
  apply List.ext_getElem?
  intro i
  by_cases hi : i < n
  · rw [memReadBytes_getElem? _ _ hi, memRead_memWriteBytes hm, if_pos (by omega), List.getElem?_take_of_lt hi, List.getElem?_drop, List.getD_eq_getElem?_getD,
      show a + o + i - a = o + i by omega, List.getElem?_eq_getElem (by omega)]
    rfl
  · rw [List.getElem?_eq_none (by simpa using Nat.le_of_not_lt hi), List.getElem?_eq_none (by simp only [List.length_take, List.length_drop]; omega)]

/-! ### Values in a state -/

theorem State.readN_writeBytes_apart {s : State} (hm : Memory.wf s.mem = true) {a b n : Nat} {l : List Byte} (h : b + n ≤ a ∨ a + l.length ≤ b) :
    (s.writeBytes a l).readN b n = s.readN b n := congrArg leValue (memReadBytes_apart hm h)

theorem State.readN_writeN_apart {s : State} (hm : Memory.wf s.mem = true) {a b n k v : Nat} (h : b + n ≤ a ∨ a + k ≤ b) :
    (s.writeN a k v).readN b n = s.readN b n := State.readN_writeBytes_apart hm (by rwa [leBytes_length])

theorem State.readN_writeN_same {s : State} (hm : Memory.wf s.mem = true) (a : Nat) {n v : Nat} (h : v < 256 ^ n) : (s.writeN a n v).readN a n = v := by
  have e := memReadBytes_within hm a (o := 0) (l := leBytes n v) (n := n) (by simp)
  rw [Nat.add_zero, List.drop_zero, List.take_of_length_le (by simp)] at e
  exact (congrArg leValue e).trans (leValue_leBytes_of_lt h)

/-- A value among those that a write lays end to end. -/
theorem State.readN_writeBytes_piece {s : State} (hm : Memory.wf s.mem = true) (a n : Nat) {k i : Nat} (f : Nat → Nat) (hi : i < k) (h : f i < 256 ^ n) :
    (s.writeBytes a ((List.range k).flatMap fun j => leBytes n (f j))).readN (a + n * i) n = f i := by
  have hl : ((List.range k).flatMap fun j => leBytes n (f j)).length = k * n := by
    rw [List.length_flatMap]
    simp
  have hk : n * i + n ≤ k * n := by
    rw [Nat.mul_comm k n, ← Nat.mul_succ]
    exact Nat.mul_le_mul_left n hi
  have e := memReadBytes_within hm a (o := n * i) (n := n) (hl ▸ hk)
  rw [flatMap_piece (fun x _ => leBytes_length n (f x)) (x := i) (List.getElem?_range hi)] at e
  exact (congrArg leValue e).trans (leValue_leBytes_of_lt h)

end Sys2Proof.Machine
end

section
/-! SUPPORT. CLAIMV and RSTV (spec/04 R117, spec/07 R185): the frame's vector area written and reloaded, and the statement O14. -/

namespace Sys2Proof.Machine
open Sys2Proof Sys2Proof.Claims Sys2Proof.Laws

set_option Elab.async false

/-! ### Mask registers and WMODE -/

theorem Wave.legacy_wrK (w : Wave) (n : BitVec 3) (v : Word) : (w.wrK n v).legacy = w.legacy := by
  unfold Wave.wrK Wave.legacy
  split <;> rfl

theorem Wave.rdK_wrK_other (w : Wave) {n k : BitVec 3} (v : Word) (h : k ≠ n) : (w.wrK n v).rdK k = w.rdK k := by
  have hn : n.toNat ≠ k.toNat := fun e => h (BitVec.eq_of_toNat_eq e.symm)
  by_cases h0 : n = 0
  · rw [Wave.wrK, if_pos h0]
  · have hk : (w.wrK n v).k[k.toNat]'(k.isLt) = w.k[k.toNat]'(k.isLt) := by
      simp only [Wave.wrK, if_neg h0]
      exact Vector.getElem_set_ne _ _ hn
    rw [Wave.rdK, Wave.rdK, hk, Wave.legacy_wrK]

theorem Wave.rdK_wrK_same (w : Wave) (n : BitVec 3) (v : Word) :
    (w.wrK n v).rdK n = let x := if n = 0 then BitVec.allOnes 64 else v
      if w.legacy then x &&& 0xFFFFFFFF#64 else x := by
  by_cases h0 : n = 0
  · rw [Wave.wrK, if_pos h0, Wave.rdK, if_pos h0, if_pos h0]
  · have hk : (w.wrK n v).k[n.toNat]'(n.isLt) = if w.legacy then v &&& 0xFFFFFFFF#64 else v := by
      simp only [Wave.wrK, if_neg h0]
      exact Vector.getElem_set_self _
    rw [Wave.rdK, if_neg h0, if_neg h0, hk, Wave.legacy_wrK]
    cases w.legacy
    · rfl
    · exact (BitVec.and_assoc _ _ _).trans (congrArg (v &&& ·) (BitVec.and_self))

/-- The mask registers below a number written in order. -/
def Wave.wrMasks (w : Wave) (f : Nat → Word) (n : Nat) : Wave := (List.range n).foldl (fun w n => w.wrK (BitVec.ofNat 3 n) (f n)) w

theorem Wave.wrMasks_succ (w : Wave) (f : Nat → Word) (n : Nat) : w.wrMasks f (n + 1) = (w.wrMasks f n).wrK (BitVec.ofNat 3 n) (f n) := by
  rw [Wave.wrMasks, List.range_succ, List.foldl_append]
  rfl

theorem Wave.wrK_only (w : Wave) (n : BitVec 3) (v : Word) : { w.wrK n v with k := w.k } = w := by
  unfold Wave.wrK
  split <;> rfl

theorem Wave.wrMasks_only (w : Wave) (f : Nat → Word) (n : Nat) : { w.wrMasks f n with k := w.k } = w := by
  induction n with
  | zero => rfl
  | succ n ih =>
    rw [Wave.wrMasks_succ]
    exact (congrArg (fun x : Wave => { x with k := w.k }) (Wave.wrK_only _ _ _)).trans ih

theorem Wave.legacy_wrMasks (w : Wave) (f : Nat → Word) (n : Nat) : (w.wrMasks f n).legacy = w.legacy := by
  have h : (w.wrMasks f n).wmode = w.wmode := (congrArg Wave.wmode (w.wrMasks_only f n) :)
  rw [Wave.legacy, Wave.legacy, h]

theorem Wave.rdK_wrMasks (w : Wave) (f : Nat → Word) {n : Nat} (hn : n ≤ 8) (k : BitVec 3) (hk : k.toNat < n) :
    (w.wrMasks f n).rdK k = let x := if k = 0 then BitVec.allOnes 64 else f k.toNat
      if w.legacy then x &&& 0xFFFFFFFF#64 else x := by
  induction n with
  | zero => omega
  | succ n ih =>
    have hl := w.legacy_wrMasks f n
    rw [Wave.wrMasks_succ]
    by_cases e : k = BitVec.ofNat 3 n
    · have en : k.toNat = n := by rw [e, BitVec.toNat_ofNat, Nat.mod_eq_of_lt (by omega)]
      rw [← e, Wave.rdK_wrK_same, hl, en]
    · have en : k.toNat ≠ n := fun h => e (by rw [← h, BitVec.ofNat_toNat, BitVec.setWidth_eq])
      rw [Wave.rdK_wrK_other _ _ e, ih (by omega) (by omega)]

theorem keepLegacy_bit (old : BitVec 32) (v : Nat) : (keepLegacy old v).getLsbD 19 = old.getLsbD 19 := by
  simp [keepLegacy]

/-! ### Claims -/

theorem claims_set {c : BitVec 4} {l : Nat} (h : l < 4) : (c ||| BitVec.ofNat 4 (2 ^ l)).getLsbD l = true := by
  rw [BitVec.getLsbD_or, BitVec.getLsbD_ofNat, Nat.testBit_two_pow_self, decide_eq_true h, Bool.and_self, Bool.or_true]

theorem claims_clear {c : BitVec 4} {l : Nat} (h : l < 4) : (c &&& ~~~(BitVec.ofNat 4 (2 ^ l))).getLsbD l = false := by
  rw [BitVec.getLsbD_and, BitVec.getLsbD_not, BitVec.getLsbD_ofNat, Nat.testBit_two_pow_self, decide_eq_true h, Bool.and_self, Bool.not_true, Bool.and_false,
    Bool.and_false]

/-! ### The two instructions -/

variable {s : State} {wi si : Nat} {w : Wave} {sp : Split}

theorem handlerOnly_eq {i : Instr} (h : Issues s wi si w sp) (hl : w.lvl ≠ 0) (k : Nat → Nat → Wave → Split → Res) :
    s.handlerOnly i k = .next (s.retire wi si sp (k wi si w sp)) := by
  rw [State.handlerOnly, free_eq h, if_neg hl]

theorem exec_claimv (s : State) : exec .claimv s = execClaimv s := rfl

theorem exec_rstv (s : State) : exec .rstv s = execRstv s := rfl

/-- The memory that CLAIMV leaves: the frame with the vector and mask registers and the claim in it. -/
def State.claimFrame (s : State) (wi : Nat) (w : Wave) : State :=
  let s' := s.writeBytes (frameKey wi w.lvl + 1024) ((List.range 32).flatMap fun n => leBytes 256 (w.ownLanes ((s.vfile w.vfile).reg n) 0).toNat)
  (s'.writeBytes (frameKey wi w.lvl + 512) w.maskBytes).writeN (frameKey wi w.lvl + 392) 8 1

/-- The launch vector state that CLAIMV gives a handler. -/
def Wave.claimed (w : Wave) : Wave :=
  { w with
    vPois := 0
    wmode := keepLegacy w.wmode 8
    vl := vlmaxOf (keepLegacy w.wmode 8)
    space := 0
    esr := 0
    esv := 0
    claims := w.claims ||| BitVec.ofNat 4 (2 ^ w.lvl) }

theorem claimv_claims (h : Issues s wi si w sp) (hst : Straight sp) (hl : w.lvl ≠ 0) (hv : w.vectorOut = false) (hc : w.claims.getLsbD w.lvl = false) :
    Gives .claimv s wi si sp ((s.claimFrame wi w).updWave wi Wave.claimed) := by
  rw [Gives, exec_claimv, execClaimv, handlerOnly_eq h hl, ← retire_done (s := s) hst]
  simp only [hv, hc, Bool.false_eq_true, if_false]
  rfl

theorem claimv_again (h : Issues s wi si w sp) (hst : Straight sp) (hl : w.lvl ≠ 0) (hv : w.vectorOut = false) (hc : w.claims.getLsbD w.lvl = true) :
    Gives .claimv s wi si sp s := by
  rw [Gives, exec_claimv, execClaimv, handlerOnly_eq h hl, ← retire_done (s := s) hst]
  simp only [hv, hc, Bool.false_eq_true, if_false, if_true]

theorem claimv_waits (h : Issues s wi si w sp) (hl : w.lvl ≠ 0) (hv : w.vectorOut = true) : exec .claimv s = .next (s.stall wi si) := by
  rw [exec_claimv, execClaimv, handlerOnly_eq h hl]
  simp only [hv, if_true]
  rfl

theorem rstv_unclaimed (h : Issues s wi si w sp) (hst : Straight sp) (hl : w.lvl ≠ 0) (hv : w.vectorOut = false) (hc : w.claims.getLsbD w.lvl = false) :
    Gives .rstv s wi si sp s := by
  rw [Gives, exec_rstv, execRstv, handlerOnly_eq h hl, ← retire_done (s := s) hst]
  simp only [hv, hc, Bool.false_eq_true, if_false, Bool.not_false, if_true]

theorem rstv_waits (h : Issues s wi si w sp) (hl : w.lvl ≠ 0) (hv : w.vectorOut = true) : exec .rstv s = .next (s.stall wi si) := by
  rw [exec_rstv, execRstv, handlerOnly_eq h hl]
  simp only [hv, if_true]
  rfl

theorem rstv_reloads (h : Issues s wi si w sp) (hst : Straight sp) (hl : w.lvl ≠ 0) (hv : w.vectorOut = false) (hc : w.claims.getLsbD w.lvl = true)
    (hok : s.vectorWordsOk wi w w.lvl = true) : Gives .rstv s wi si sp (s.rstv wi w w.lvl false) := by
  rw [Gives, exec_rstv, execRstv, handlerOnly_eq h hl, ← retire_done (s := s) hst]
  simp only [hv, hc, hok, Bool.false_eq_true, if_false, Bool.not_true, if_true]

/-! ### The frame after CLAIMV -/

theorem State.readN_updWave (s : State) (i a n : Nat) (f : Wave → Wave) : (s.updWave i f).readN a n = s.readN a n := rfl

theorem State.frameWord_updWave (s : State) (i wi lvl off : Nat) (f : Wave → Wave) : (s.updWave i f).frameWord wi lvl off = s.frameWord wi lvl off := rfl

theorem toNat_lt_bytes {n : Nat} (x : BitVec (8 * n)) : x.toNat < 256 ^ n := by
  have h := x.isLt
  rwa [Nat.pow_mul] at h

theorem maskBytes_length (w : Wave) : w.maskBytes.length = 64 := by
  rw [Wave.maskBytes, List.length_flatMap]
  simp

theorem claimFrame_waves : (s.claimFrame wi w).waves = s.waves := by
  rw [State.claimFrame, State.writeN, State.writeBytes_waves, State.writeBytes_waves, State.writeBytes_waves]

theorem claimv_wave (h : s.waves[wi]? = some w) : ((s.claimFrame wi w).updWave wi Wave.claimed).waves[wi]? = some w.claimed := by
  rw [State.updWave_waves, updAt_get_self, claimFrame_waves, h]
  rfl

section
variable (hm : Memory.wf s.mem = true)
include hm

theorem claimFrame_claim : (s.claimFrame wi w).frameWord wi w.lvl 392 = 1 :=
  State.readN_writeN_same (State.writeBytes_wf _ _ (State.writeBytes_wf _ _ hm)) _ (by decide)

theorem claimFrame_mask (k : BitVec 3) : (s.claimFrame wi w).frameWord wi w.lvl (512 + 8 * k.toNat) = (w.rdK k).toNat := by
  have hk : k.toNat < 8 := k.isLt
  have hw := State.writeBytes_wf (frameKey wi w.lvl + 1024)
    ((List.range 32).flatMap fun n => leBytes 256 (w.ownLanes ((s.vfile w.vfile).reg n) 0).toNat) hm
  rw [State.claimFrame, State.frameWord, State.readN_writeN_apart (State.writeBytes_wf _ _ hw) (by omega), ← Nat.add_assoc, Wave.maskBytes,
    State.readN_writeBytes_piece hw _ 8 (fun n => (w.rdK (BitVec.ofNat 3 n)).toNat) hk (toNat_lt_bytes (n := 8) _), BitVec.ofNat_toNat, BitVec.setWidth_eq]

theorem claimFrame_reg {r : Nat} (hr : r < 32) :
    (s.claimFrame wi w).readN (frameKey wi w.lvl + 1024 + 256 * r) 256 = (w.ownLanes ((s.vfile w.vfile).reg r) 0).toNat := by
  have hw := State.writeBytes_wf (frameKey wi w.lvl + 1024)
    ((List.range 32).flatMap fun n => leBytes 256 (w.ownLanes ((s.vfile w.vfile).reg n) 0).toNat) hm
  rw [State.claimFrame, State.readN_writeN_apart (State.writeBytes_wf _ _ hw) (by omega),
    State.readN_writeBytes_apart hw (by rw [maskBytes_length]; omega),
    State.readN_writeBytes_piece hm _ 256 (fun n => (w.ownLanes ((s.vfile w.vfile).reg n) 0).toNat) hr (toNat_lt_bytes (n := 256) _)]

end

/-! ### The reload -/

/-- The wave that RSTV leaves. -/
def Wave.reloaded (w : Wave) (lvl : Nat) (f : Nat → Nat) : Wave :=
  { w.wrMasks (fun n => word (f (512 + 8 * n))) 8 with
    vPois := BitVec.ofNat 32 (f 384)
    wmode := keepLegacy w.wmode (f 280)
    vl := f 288
    space := BitVec.ofNat 2 (f 296)
    esr := f 304
    esv := word (f 312)
    claims := w.claims &&& ~~~(BitVec.ofNat 4 (2 ^ lvl)) }

theorem rstv_wave {lvl : Nat} {keep : Bool} (h : s.waves[wi]? = some w) : (s.rstv wi w lvl keep).waves[wi]? = some (w.reloaded lvl (s.frameWord wi lvl)) := by
  have e := w.wrMasks_only (fun n => word (s.frameWord wi lvl (512 + 8 * n))) 8
  have hm : (w.wrMasks (fun n => word (s.frameWord wi lvl (512 + 8 * n))) 8).wmode = w.wmode := (congrArg Wave.wmode e :)
  have hc : (w.wrMasks (fun n => word (s.frameWord wi lvl (512 + 8 * n))) 8).claims = w.claims := (congrArg Wave.claims e :)
  simp only [State.rstv, State.updWave_waves, State.updVFile, updAt_get_self, h, Option.map_some, Wave.reloaded]
  rw [← hm, ← hc]
  rfl

theorem rstv_reg {lvl r : Nat} (hf : w.vfile < s.vfiles.length) (hr : r < 32) : ((s.rstv wi w lvl false).vfile w.vfile).reg r
    = w.ownLanes (BitVec.ofNat 2048 (s.readN (frameKey wi lvl + 1024 + 256 * r) 256)) ((s.vfile w.vfile).reg r) := by
  simp only [State.rstv, State.vfile, State.updWave_vfiles, State.updVFile, updAt_getD_self _ _ _ _ hf]
  simp only [VFile.reg, hr, dif_pos, Vector.getElem_ofFn, Bool.false_and, Bool.false_eq_true, if_false, List.getD_eq_getElem?_getD, List.getElem?_map,
    List.getElem?_range, Option.map_some, Option.getD_some]

theorem reloaded_rdK (w : Wave) (lvl : Nat) (f : Nat → Nat) (k : BitVec 3) :
    (w.reloaded lvl f).rdK k = let v := if k = 0 then BitVec.allOnes 64 else word (f (512 + 8 * k.toNat))
      if w.legacy then v &&& 0xFFFFFFFF#64 else v := by
  rw [← Wave.rdK_wrMasks w (fun n => word (f (512 + 8 * n))) (le_refl 8) k k.isLt]
  have hl : (w.reloaded lvl f).legacy = (w.wrMasks (fun n => word (f (512 + 8 * n))) 8).legacy := by
    rw [Wave.legacy_wrMasks]
    exact keepLegacy_bit _ _
  rw [Wave.rdK, Wave.rdK, hl]
  rfl

theorem reloaded_s (w : Wave) (lvl : Nat) (f : Nat → Nat) : (w.reloaded lvl f).s = w.s := (congrArg Wave.s (w.wrMasks_only (fun n => word (f (512 + 8 * n))) 8) :)

/-- Settles O14: CLAIMV's writes to the frame do not meet (`claimFrame_reg`, `claimFrame_mask`, `claimFrame_claim`), and RSTV's mask registers are written one after
another (`Wave.rdK_wrMasks`) under a LEGACY bit that stays. -/
theorem vectorClaim : Obligations.VectorClaim := by
  unfold Obligations.VectorClaim
  intro s wi si w sp ⟨hm, _⟩ hi hst hl
  refine ⟨fun hv hc h4 => ?_, claimv_again hi hst hl, rstv_unclaimed hi hst hl, fun hv => ⟨claimv_waits hi hl hv, rstv_waits hi hl hv⟩, fun hv hc h4 hok => ?_⟩
  · exact ⟨_, w.claimed, claimv_claims hi hst hl hv hc, claimv_wave hi.wave,
      fun r hr => (State.readN_updWave ..).trans (claimFrame_reg hm hr), fun k => (State.frameWord_updWave ..).trans (claimFrame_mask hm k),
      (State.frameWord_updWave ..).trans (claimFrame_claim hm), claims_set h4, rfl, rfl, rfl, rfl, rfl, rfl, rfl⟩
  · exact ⟨_, _, rstv_reloads hi hst hl hv hc hok, rstv_wave hi.wave, rfl, fun hf r hr => rstv_reg hf hr, claims_clear h4, rfl, rfl, reloaded_rdK w w.lvl _,
      rfl, rfl, rfl, rfl, reloaded_s w w.lvl _⟩

end Sys2Proof.Machine
end

section
/-! SUPPORT. SRW and SRR of the special registers (spec/02 R46 to R49 and R62, spec/04 R118 to R121): the checks, the values admitted, and the statements O16 and O17. -/

namespace Sys2Proof.Machine
open Sys2Proof Sys2Proof.Claims Sys2Proof.Laws

set_option Elab.async false

/-! ### Fields of a value -/

theorem bits_toNat {x : Word} (lo n hi : Nat) (h : hi + 1 - lo = n) : bits x.toNat hi lo = (x.extractLsb' lo n).toNat := by
  rw [BitVec.extractLsb'_toNat, Nat.shiftRight_eq_div_pow, bits, h]

theorem bits_eq_zero {x : Word} (lo n hi : Nat) (h : hi + 1 - lo = n) : bits x.toNat hi lo = 0 ↔ x.extractLsb' lo n = 0 := by
  rw [bits_toNat lo n hi h]
  exact BitVec.toNat_inj (y := 0#n)

theorem zeroBits_iff {x : Word} (lo n hi : Nat) (h : hi + 1 - lo = n) : zeroBits x.toNat hi lo = true ↔ x.extractLsb' lo n = 0 := by
  rw [zeroBits, beq_iff_eq, bits_eq_zero lo n hi h]

theorem highBits_eq_false {x : Word} : highBits x = false ↔ x.extractLsb' 57 7 = 0 := by
  rw [highBits, bne_eq_false_iff_eq]
  rfl

theorem mod_four_iff {x : Word} : (x.toNat % 4 == 0) = true ↔ x.extractLsb' 0 2 = 0 := by
  rw [← bits_eq_zero 0 2 1 rfl, bits, pow_zero, Nat.div_one, beq_iff_eq]
  rfl

/-- An instruction address: in range and a multiple of 4. -/
theorem codeAddress_iff {x : Word} : (!highBits x && x.toNat % 4 == 0) = true ↔ x.extractLsb' 57 7 = 0 ∧ x.extractLsb' 0 2 = 0 := by
  rw [Bool.and_eq_true, Bool.not_eq_true', highBits_eq_false, mod_four_iff]

theorem wmodeOk_iff {x : Word} : wmodeOk x.toNat = true ↔ bits x.toNat 63 21 = 0 ∧ bits x.toNat 10 8 ≤ 4 ∧ bits x.toNat 7 3 < 16 := by
  have h : x.toNat < 2 ^ 21 ↔ bits x.toNat 63 21 = 0 := by
    have := x.isLt
    unfold bits
    omega
  simp only [wmodeOk, Bool.and_eq_true, decide_eq_true_eq, h, and_assoc]

theorem esvOk_iff {x : Nat} : esvOk x = true ↔ ∀ c, c < 8 → x / 2 ^ (8 * c) % 256 ≤ 8 := by
  simp only [esvOk, List.all_eq_true, List.mem_range, decide_eq_true_eq]

theorem updWave_congr {s : State} {wi : Nat} {w : Wave} {f g : Wave → Wave} (h : s.waves[wi]? = some w) (e : f w = g w) : s.updWave wi f = s.updWave wi g := by
  rw [updWave_at f h, updWave_at g h, e]

theorem writeIf_true {c : Bool} (s : State) (h : c = true) : writeIf c s = some s := if_pos h

theorem writeIf_false {c : Bool} (s : State) (h : ¬ c = true) : writeIf c s = none := if_neg h

/-- WMODE takes an admitted value but for LEGACY, and VL falls to a lower VLMAX. -/
theorem writeMode_admits {s : State} {wi : Nat} {w : Wave} {v : Word} (h : s.waves[wi]? = some w)
    (hv : bits v.toNat 63 21 = 0 ∧ bits v.toNat 10 8 ≤ 4 ∧ bits v.toNat 7 3 < 16) :
    let m : BitVec 32 := (v.setWidth 32 &&& ~~~0x80000#32) ||| (w.wmode &&& 0x80000#32)
    s.writeMode wi v = some (s.updWave wi fun w => { w with wmode := m, vl := min w.vl (vlmaxOf m) }) := by
  refine (writeIf_true _ (wmodeOk_iff.2 hv)).trans (congrArg some (updWave_congr h ?_))
  simp only [Wave.setMode, keepLegacy, BitVec.ofNat_toNat]

/-! ### The checks of SRW -/

variable {s : State} {wi si : Nat} {w : Wave} {sp : Split} {a d : Reg}

theorem exec_srw (a : Reg) (n : BitVec 12) (s : State) : exec (.srw a n) s = s.srw a n (.srw a n) := rfl

/-- The level and the number of an SRW are admitted. -/
def SrwLegal (s : State) (wi : Nat) (w : Wave) (sp : Split) (n : BitVec 12) : Prop :=
  (srwNeed n).above w.lvl = false ∧ (s.special wi w sp n.toNat).isNone = false

theorem not_above_of_handler {need : Priv} {lvl : Nat} (h : need ≠ .d) (hl : lvl ≠ 0) : need.above lvl = false := by
  cases need with
  | k => rfl
  | h => exact beq_eq_false_iff_ne.2 hl
  | d => exact absurd rfl h

/-- What follows the checks of SRW. -/
def srwBody (wi si : Nat) (sp : Split) (k : Nat) (i : Instr) (o : Wrote) : Res :=
  match o with
  | none => reservedField i
  | some s' =>
    if 8 ≤ k && k ≤ 0xA then
      match s'.waves[wi]? with
      | none => .done s'
      | some w' => match w'.splits[si]? with
        | none => .done s'
        | some sp' => .left (s'.complete s' wi si sp' (sp.pc + 4) sp.pc false)
    else .done s'

theorem srw_eq {n : BitVec 12} {i : Instr} (h : Issues s wi si w sp) (hr : Reads w [a]) (hn : SrwLegal s wi w sp n) :
    s.srw a n i = .next (s.retire wi si sp (srwBody wi si sp n.toNat i (s.writeSpecial wi si w n.toNat (w.rd a)))) := by
  obtain ⟨hl, hs⟩ := hn
  rw [State.srw, runWave_eq h]
  dsimp only
  rw [hl, hs, gate_open w { ss := [(a, 0)] } _ (fun r hm => hr r.1 (List.mem_map_of_mem (f := Prod.fst) hm)) (by simp) (by simp) (by simp) (by simp)]
  cases s.writeSpecial wi si w n.toNat (w.rd a) <;> rfl

theorem srw_writes {n : BitVec 12} {i : Instr} {s' : State} (h : Issues s wi si w sp) (hst : Straight sp) (hr : Reads w [a]) (hn : SrwLegal s wi w sp n)
    (hk : (decide (8 ≤ n.toNat) && decide (n.toNat ≤ 0xA)) = false) (hw : s.writeSpecial wi si w n.toNat (w.rd a) = some s') :
    s.srw a n i = .next (stepped s' wi si sp) := by
  rw [srw_eq h hr hn, hw, ← retire_done (s := s) hst, srwBody, hk]
  rfl

theorem reservedField_traps {n : BitVec 12} {z : IWord} (h : Issues s wi si w sp) (hc : CutClosed w) (hz : encodeWord (.srw a n) = some z) :
    s.retire wi si sp (reservedField (.srw a n)) = (s.takeTrap wi si sp.pc ⟨1, 5, z.setWidth 64⟩ false false).bump := by
  rw [← trapOr_closed s si sp.pc _ false false h.wave hc, reservedField, wordOf, hz]
  rfl

theorem srw_refuses {n : BitVec 12} {z : IWord} (h : Issues s wi si w sp) (hr : Reads w [a]) (hn : SrwLegal s wi w sp n)
    (hw : s.writeSpecial wi si w n.toNat (w.rd a) = none) (hc : CutClosed w) (hz : encodeWord (.srw a n) = some z) :
    s.srw a n (.srw a n) = .next (s.takeTrap wi si sp.pc ⟨1, 5, z.setWidth 64⟩ false false).bump := by
  rw [srw_eq h hr hn, hw, srwBody, reservedField_traps h hc hz]

theorem srw_unassigned {n : BitVec 12} {z : IWord} (h : Issues s wi si w sp) (hl : (srwNeed n).above w.lvl = false)
    (hs : (s.special wi w sp n.toNat).isNone = true) (hc : CutClosed w) (hz : encodeWord (.srw a n) = some z) :
    s.srw a n (.srw a n) = .next (s.takeTrap wi si sp.pc ⟨1, 5, z.setWidth 64⟩ false false).bump := by
  rw [State.srw, runWave_eq h]
  dsimp only
  rw [hl, hs, ← reservedField_traps h hc hz]
  rfl

/-- Settles O16: every clause is one of three outcomes of SRW, a write (`srw_writes`), a value refused (`srw_refuses`) and a number without a register
(`srw_unassigned`); what is left is to read the condition of each register. -/
theorem specialRegisterWrites : Obligations.SpecialRegisterWrites := by
  unfold Obligations.SpecialRegisterWrites
  intro s wi si w sp a hi hst hr hl
  have sets (n : BitVec 12) {s' : State} (hd : srwNeed n ≠ .d) (hs : (s.special wi w sp n.toNat).isNone = false)
      (hk : (decide (8 ≤ n.toNat) && decide (n.toNat ≤ 0xA)) = false) (hw : s.writeSpecial wi si w n.toNat (w.rd a) = some s') :
      Gives (.srw a n) s wi si sp s' := srw_writes hi hst hr ⟨not_above_of_handler hd hl, hs⟩ hk hw
  have refused (n : BitVec 12) (hd : srwNeed n ≠ .d) (hs : (s.special wi w sp n.toNat).isNone = false)
      (hw : s.writeSpecial wi si w n.toNat (w.rd a) = none) (hc : CutClosed w) (z : IWord) (hz : encodeWord (.srw a n) = some z) :
      exec (.srw a n) s = .next (s.takeTrap wi si sp.pc ⟨1, 5, z.setWidth 64⟩ false false).bump :=
    srw_refuses hi hr ⟨not_above_of_handler hd hl, hs⟩ hw hc hz
  have unassigned (n : BitVec 12) (hd : srwNeed n ≠ .d) (hs : (s.special wi w sp n.toNat).isNone = true) (hc : CutClosed w) (z : IWord)
      (hz : encodeWord (.srw a n) = some z) : exec (.srw a n) s = .next (s.takeTrap wi si sp.pc ⟨1, 5, z.setWidth 64⟩ false false).bump :=
    srw_unassigned hi (not_above_of_handler hd hl) hs hc hz
  refine ⟨fun h => sets 0x000 (by decide) rfl rfl (writeIf_true _ (decide_eq_true h)),
    fun h => refused 0x000 (by decide) rfl (writeIf_false _ (mt of_decide_eq_true (Nat.not_le.2 h))),
    fun h => sets 0x002 (by decide) rfl rfl (writeMode_admits hi.wave h),
    fun h => refused 0x002 (by decide) rfl (writeIf_false _ (mt wmodeOk_iff.1 h)),
    sets 0x003 (by decide) rfl rfl rfl,
    fun h => sets 0x004 (by decide) rfl rfl (writeIf_true _ (decide_eq_true h)),
    fun h => refused 0x004 (by decide) rfl (writeIf_false _ (mt of_decide_eq_true (Nat.not_le.2 h))),
    fun h => sets 0x005 (by decide) rfl rfl (writeIf_true _ (decide_eq_true h)),
    fun h => refused 0x005 (by decide) rfl (writeIf_false _ (mt of_decide_eq_true (Nat.not_le.2 h))),
    fun h => sets 0x006 (by decide) rfl rfl (writeIf_true _ (esvOk_iff.2 h)),
    fun h => sets 0x044 (by decide) rfl rfl (writeIf_true _ (codeAddress_iff.2 h)),
    fun h => refused 0x044 (by decide) rfl (writeIf_false _ (mt codeAddress_iff.1 h)), fun n hn => ?_, fun n hn => ?_⟩
  · simp only [List.mem_cons, List.not_mem_nil, or_false] at hn
    rcases hn with rfl | rfl | rfl | rfl | rfl | rfl | rfl | rfl | rfl | rfl | rfl | rfl | rfl | rfl | rfl <;> exact sets _ (by decide) rfl rfl rfl
  · simp only [List.mem_cons, List.not_mem_nil, or_false] at hn
    rcases hn with rfl | rfl | rfl | rfl | rfl | rfl | rfl <;> exact unassigned _ (by decide) rfl

/-! ### The register-write forms -/

theorem exec_wstatClear (a : Reg) (s : State) : exec (.wstatClear a) s = s.srw a 0x003 (.srw a 0x003) := rfl

theorem exec_classchgClear (a : Reg) (s : State) : exec (.classchgClear a) s = s.srw a 0x018 (.srw a 0x018) := rfl

theorem exec_wmodeWrite (a : Reg) (s : State) : exec (.wmodeWrite a) s = s.srw a 0x002 (.srw a 0x002) := rfl

theorem exec_lcmaskClear (a : Reg) (s : State) : exec (.lcmaskClear a) s = s.srw a 0x061 (.srw a 0x061) := rfl

theorem exec_specialRegisterWrite (a : Reg) (n : BitVec 12) (s : State) : exec (.specialRegisterWrite a n) s = s.srw a n (.srw a n) := rfl

theorem exec_lcuseSample (d : Reg) (s : State) : exec (.lcuseSample d) s = s.readSpecial d 0x060 (.srr d 0x060) := rfl

theorem exec_loopRegisterWrite {n : BitVec 12} (a : Reg) (s : State) (h : 8 ≤ n.toNat ∧ n.toNat ≤ 0xA) :
    exec (.loopRegisterWrite a n) s = s.srw a n (.srw a n) := if_pos (by simpa using h)

theorem exec_comparatorRegisterWrite {n : BitVec 12} (a : Reg) (s : State) (h : 0x080 ≤ n.toNat ∧ n.toNat < 0x090) :
    exec (.comparatorRegisterWrite a n) s = s.srw a n (.srw a n) := if_pos (by simpa using h)

theorem exec_traceRegisterWrite {n : BitVec 12} (a : Reg) (s : State) (h : 0x090 ≤ n.toNat ∧ n.toNat ≤ 0x092) :
    exec (.traceRegisterWrite a n) s = s.srw a n (.srw a n) := if_pos (by simpa using h)

/-- At D every level is admitted. -/
theorem not_above_of_debug (need : Priv) {lvl : Nat} (h : lvl = 3) : need.above lvl = false := by
  subst h
  cases need <;> rfl

theorem special_debug {n : BitVec 12} (s : State) (wi : Nat) (w : Wave) (sp : Split) (h : 0x080 ≤ n.toNat ∧ n.toNat ≤ 0x092) :
    (s.special wi w sp n.toNat).isNone = false := by
  obtain ⟨hl, hu⟩ := h
  generalize n.toNat = k at hl hu
  interval_cases k <;> rfl

/-! ### Loop registers -/

/-- The issuing split's loop state set. -/
def Wave.setLoops (w : Wave) (si : Nat) (l : Loops) : Wave := { w with splits := updAt w.splits si fun x => { x with loops := l } }

theorem setLoops_split {l : Loops} (h : w.splits[si]? = some sp) : (w.setLoops si l).splits[si]? = some { sp with loops := l } := by
  rw [Wave.setLoops, updAt_get_self, h]
  rfl

/-- A write of a loop register is one of the issuing split's loop state, after which the loop step uses the values written. -/
theorem srw_loop {n : BitVec 12} {i : Instr} {l : Loops} (h : Issues s wi si w sp) (hr : Reads w [a]) (hn : SrwLegal s wi w sp n)
    (hk : (decide (8 ≤ n.toNat) && decide (n.toNat ≤ 0xA)) = true) (hw : s.writeSpecial wi si w n.toNat (w.rd a) = some (s.updWave wi fun w => w.setLoops si l))
    (hst : Straight { sp with loops := l }) :
    s.srw a n i = .next (stepped (s.updWave wi fun w => w.setLoops si l) wi si { sp with loops := l }).bump := by
  have hx : (s.updWave wi fun w => w.setLoops si l).waves[wi]? = some (w.setLoops si l) := by
    rw [State.updWave_waves, updAt_get_self, h.wave]
    rfl
  rw [srw_eq h hr hn, hw, srwBody, hk, if_pos rfl, hx]
  dsimp only
  rw [setLoops_split h.split, ← retire_done hst]
  rfl

/-- The write of a loop register changes the loop state that the split has. -/
theorem writeLoop_eq (f : Loops → Loops) (h : Issues s wi si w sp) :
    (s.updWave wi fun w => { w with splits := updAt w.splits si fun x => { x with loops := f x.loops } }) = s.updWave wi fun w => w.setLoops si (f sp.loops) := by
  refine updWave_congr h.wave ?_
  rw [Wave.setLoops, updAt_congr fun x hx => ?_]
  obtain rfl := Option.some_inj.1 (hx.symm.trans h.split)
  rfl

theorem mem_fillSplits {limit fuel : Nat} {l : List Split} {x : Split} (h : x ∈ l) : ∃ i, { x with idx := i } ∈ fillSplits limit fuel l := by
  induction fuel generalizing l x with
  | zero => exact ⟨x.idx, h⟩
  | succ fuel ih =>
    unfold fillSplits
    split
    · split
      · exact ⟨x.idx, h⟩
      · next j _ =>
        obtain ⟨k, hk⟩ := List.mem_iff_getElem?.1 h
        by_cases e : k = j
        · subst e
          have hy : { x with idx := some (freeIdx l limit 0) } ∈ updAt l k fun x => { x with idx := some (freeIdx l limit 0) } :=
            List.mem_of_getElem? (i := k) (by rw [updAt_get_self, hk]; rfl)
          obtain ⟨i, hi⟩ := ih hy
          exact ⟨i, hi⟩
        · exact ih (List.mem_of_getElem? (i := k) (by rw [updAt_get_other _ _ e, hk]))
    · exact ⟨x.idx, h⟩

/-- The only split of a wave goes on alone. -/
theorem advance_single {next : Word} {l : Loops} (h : w.splits = [sp]) : ∃ x ∈ (w.advance 0 sp next l).splits, x.loops = l ∧ x.pc = next := by
  have settled {w : Wave} {x : Split} (hx : x.loops = l ∧ x.pc = next) : ∃ y ∈ (w.settle [x]).splits, y.loops = l ∧ y.pc = next := by
    obtain ⟨i, hi⟩ := mem_fillSplits (limit := w.residents) (fuel := w.residents) (List.mem_singleton_self x)
    exact ⟨_, hi, hx⟩
  rw [Wave.advance, h]
  cases sp.idx with
  | none => exact settled ⟨rfl, rfl⟩
  | some i => exact settled ⟨rfl, rfl⟩

theorem straight_noLoop (h : sp.loops.depth = 0) : Straight sp := by
  have e : goes sp (sp.pc + 4) sp.pc false = (sp.pc + 4, sp.loops) := if_pos h
  intro _
  rw [e]
  exact ⟨rfl, rfl⟩

theorem loopCount_single {t : State} {l : Loops} (h : Issues s wi si w sp) (hw : w.splits = [sp]) (hd : l.depth = 0)
    (ht : t = stepped (s.updWave wi fun w => w.setLoops si l) wi si { sp with loops := l }) :
    ∃ w' x, t = (s.updWave wi fun _ => w').bump ∧ x ∈ w'.splits ∧ x.loops = l ∧ x.pc = sp.pc + 4 := by
  have e : goes { sp with loops := l } (sp.pc + 4) sp.pc false = (sp.pc + 4, l) := if_pos hd
  obtain rfl : si = 0 := by
    have hs := h.split
    rw [hw] at hs
    cases si with
    | zero => rfl
    | succ n => simp at hs
  have hs : (w.setLoops 0 l).splits = [{ sp with loops := l }] := by rw [Wave.setLoops, hw]; rfl
  obtain ⟨x, hx, hl, hp⟩ := advance_single (next := sp.pc + 4) (l := l) hs
  refine ⟨_, x, ?_, hx, hl, hp⟩
  rw [ht, stepped, moved]
  dsimp only
  rw [e]
  simp only [State.updWave, updAt_updAt]
  exact congrArg State.bump (updWave_at _ h.wave)

/-! ### Comparator and trace registers -/

theorem getLsbD_eq_false_iff {x : Word} {i : Nat} : x.getLsbD i = false ↔ x.extractLsb' i 1 = 0 := by
  rw [← BitVec.toNat_inj, BitVec.extractLsb'_toNat, BitVec.getLsbD, Nat.testBit_eq_decide_div_mod_eq, Nat.shiftRight_eq_div_pow, decide_eq_false_iff_not,
    Nat.mod_two_not_eq_one]
  rfl

theorem comparatorCtl_iff {x : Word} :
    (zeroBits x.toNat 63 32 && zeroBits x.toNat 18 16 && zeroBits x.toNat 7 4 && zeroBits x.toNat 1 1 && bits x.toNat 3 2 != 3) = true ↔
      x.extractLsb' 32 32 = 0 ∧ x.extractLsb' 16 3 = 0 ∧ x.extractLsb' 4 4 = 0 ∧ x.getLsbD 1 = false ∧ x.extractLsb' 2 2 ≠ 3 := by
  rw [Bool.and_eq_true, Bool.and_eq_true, Bool.and_eq_true, Bool.and_eq_true, zeroBits_iff 32 32 63 rfl, zeroBits_iff 16 3 18 rfl, zeroBits_iff 4 4 7 rfl,
    zeroBits_iff 1 1 1 rfl, bits_toNat 2 2 3 rfl, getLsbD_eq_false_iff, bne_iff_ne, and_assoc, and_assoc, and_assoc]
  refine and_congr_right' (and_congr_right' (and_congr_right' (and_congr_right' (not_congr ?_))))
  exact BitVec.toNat_inj (y := 3#2)

theorem traceCtl_ok {x : Word} (h1 : x.extractLsb' 12 52 = 0) (h2 : x.extractLsb' 5 3 = 0) (h3 : 12 ≤ (x.extractLsb' 0 5).toNat)
    (h4 : (x.extractLsb' 0 5).toNat ≤ 24) :
    (zeroBits x.toNat 63 12 && zeroBits x.toNat 7 5 && decide (12 ≤ bits x.toNat 4 0) && decide (bits x.toNat 4 0 ≤ 24)) = true := by
  rw [(zeroBits_iff 12 52 63 rfl).2 h1, (zeroBits_iff 5 3 7 rfl).2 h2, bits_toNat 0 5 4 rfl, decide_eq_true h3, decide_eq_true h4]
  rfl

theorem tracePos_ok {x c : Word} (h1 : x.toNat % 64 = 0) (h2 : x.toNat < 2 ^ 25) (h3 : x.toNat < 2 ^ (c.extractLsb' 0 5).toNat) :
    (zeroBits x.toNat 63 25 && x.toNat % 64 == 0 && decide (x.toNat < 2 ^ bits c.toNat 4 0)) = true := by
  have h : zeroBits x.toNat 63 25 = true := by
    unfold zeroBits bits
    rw [Nat.div_eq_of_lt h2]
    rfl
  rw [h, h1, bits_toNat 0 5 4 rfl, decide_eq_true h3]
  rfl

theorem setIfInBounds_eq_set {α : Type} {n : Nat} (x : Vector α n) {i : Nat} (v : α) (h : i < n) : x.setIfInBounds i v = x.set i v h := by
  ext j hj
  rw [Vector.getElem_setIfInBounds, Vector.getElem_set]

theorem comparatorAddr_number (n : BitVec 3) : (0x080 + n.setWidth 12 * 2 : BitVec 12).toNat = 0x080 + 2 * n.toNat := by bv_omega

theorem comparatorCtl_number (n : BitVec 3) : (0x081 + n.setWidth 12 * 2 : BitVec 12).toNat = 0x081 + 2 * n.toNat := by bv_omega

theorem writeSpecial_comparator {k : Nat} (s : State) (wi si : Nat) (w : Wave) (v : Word) (h : 0x080 ≤ k ∧ k < 0x090) :
    s.writeSpecial wi si w k v = s.writeComparator (s.coreOf w) k v := by
  obtain ⟨hl, hu⟩ := h
  interval_cases k <;> rfl

theorem writeComparator_addr (s : State) (core : Nat) (v : Word) {n : Nat} (h : n < 8) : s.writeComparator core (0x080 + 2 * n) v
    = writeIf (!highBits v && v.toNat % 4 == 0) (s.updCore core fun c => { c with dcAddr := c.dcAddr.set n v h }) := by
  have e : (0x080 + 2 * n - 0x080) / 2 = n := by omega
  have m : (0x080 + 2 * n) % 2 = 0 := by omega
  simp only [State.writeComparator, e, m, if_true, setIfInBounds_eq_set _ _ h]

theorem writeComparator_ctl (s : State) (core : Nat) (v : Word) {n : Nat} (h : n < 8) : s.writeComparator core (0x081 + 2 * n) v
    = writeIf (zeroBits v.toNat 63 32 && zeroBits v.toNat 18 16 && zeroBits v.toNat 7 4 && zeroBits v.toNat 1 1 && bits v.toNat 3 2 != 3)
      (s.updCore core fun c => { c with dcCtl := c.dcCtl.set n v h }) := by
  have e : (0x081 + 2 * n - 0x080) / 2 = n := by omega
  have m : ¬ (0x081 + 2 * n) % 2 = 0 := by omega
  simp only [State.writeComparator, e, m, if_false, setIfInBounds_eq_set _ _ h]

theorem srw_comparatorAddr (s : State) (wi si : Nat) (w : Wave) (v : Word) (n : BitVec 3) : s.writeSpecial wi si w (0x080 + n.setWidth 12 * 2 : BitVec 12).toNat v
    = writeIf (!highBits v && v.toNat % 4 == 0) (s.updCore (s.coreOf w) fun c => { c with dcAddr := c.dcAddr.set n.toNat v n.isLt }) := by
  have hn := n.isLt
  rw [comparatorAddr_number, writeSpecial_comparator s wi si w v (by omega), writeComparator_addr s _ v n.isLt]

theorem srw_comparatorCtl (s : State) (wi si : Nat) (w : Wave) (v : Word) (n : BitVec 3) : s.writeSpecial wi si w (0x081 + n.setWidth 12 * 2 : BitVec 12).toNat v
    = writeIf (zeroBits v.toNat 63 32 && zeroBits v.toNat 18 16 && zeroBits v.toNat 7 4 && zeroBits v.toNat 1 1 && bits v.toNat 3 2 != 3)
      (s.updCore (s.coreOf w) fun c => { c with dcCtl := c.dcCtl.set n.toNat v n.isLt }) := by
  have hn := n.isLt
  rw [comparatorCtl_number, writeSpecial_comparator s wi si w v (by omega), writeComparator_ctl s _ v n.isLt]

theorem updCore_congr {s : State} {i : Nat} {f g : CoreSt → CoreSt} (h : f (s.core i) = g (s.core i)) : s.updCore i f = s.updCore i g := by
  have e : updAt s.cores i f = updAt s.cores i g := updAt_congr fun x hx => by
    have hc : s.core i = x := by rw [State.core, List.getD_eq_getElem?_getD, hx]; rfl
    rwa [hc] at h
  simp only [State.updCore, e]

/-! ### The samples of the counters -/

/-- A special register that arrives later. -/
theorem readSpecial_later {n : BitVec 12} {i : Instr} {v : Word} (h : Issues s wi si w sp) (hst : Straight sp) (hd : Writes w [d])
    (hl : (srrNeed n).above w.lvl = false) (hs : s.special wi w sp n.toNat = some v) (hw : w.writerWaits n.toNat = false) (hc : counterNumber n.toNat = true) :
    s.readSpecial d n i = .next (stepped
      ((if n.toNat = 0x060 then s.updVFile w.vfile fun f => { f with sample := f.lc } else s).updWave wi fun w => w.later d v false) wi si sp) := by
  rw [State.readSpecial, runWave_eq h, ← retire_done (s := s) hst]
  dsimp only
  rw [hl, hs]
  dsimp only
  rw [hw, hc, gate_open w { sd := [d] } _ (by simp) (by simp) (by simp) hd (by simp)]
  rfl

theorem lcuse_gives (h : Issues s wi si w sp) (hst : Straight sp) (hd : Writes w [d]) : Gives (.lcuseSample d) s wi si sp
    ((s.updVFile w.vfile fun f => { f with sample := f.lc }).updWave wi fun w => w.later d (s.vfile w.vfile).lc[0] false) := by
  have hw : w.writerWaits 0x060 = false := by simp [Wave.writerWaits]
  have e := readSpecial_later (n := 0x060) (i := .srr d 0x060) h hst hd rfl rfl hw rfl
  rw [if_pos (c := (0x060 : BitVec 12).toNat = 0x060) rfl] at e
  rw [Gives, exec_lcuseSample, e]
  exact congrArg (fun t => Host.Outcome.next (stepped t wi si sp)) (updWave_congr h.wave rfl)

/-- Settles O17: each form is an SRW of its number, so a write, a refusal or a change of the loop state (`srw_writes`, `srw_refuses`, `srw_loop`); the numbers of the
comparators are computed from the comparator (`comparatorAddr_number`, `comparatorCtl_number`). -/
theorem registerWriteEvents : Obligations.RegisterWriteEvents := by
  unfold Obligations.RegisterWriteEvents
  intro s wi si w sp a d hi hst v core
  have sets (n : BitVec 12) {s' : State} (hr : Reads w [a]) (hl : (srwNeed n).above w.lvl = false) (hs : (s.special wi w sp n.toNat).isNone = false)
      (hk : (decide (8 ≤ n.toNat) && decide (n.toNat ≤ 0xA)) = false) (hw : s.writeSpecial wi si w n.toNat (w.rd a) = some s') :
      s.srw a n (.srw a n) = .next (stepped s' wi si sp) := srw_writes hi hst hr ⟨hl, hs⟩ hk hw
  have refused (n : BitVec 12) (hs : (s.special wi w sp n.toNat).isNone = false)
      (hw : s.writeSpecial wi si w n.toNat (w.rd a) = none) (hr : Reads w [a]) (hc : CutClosed w) (hl : w.lvl = 3) (z : IWord)
      (hz : encodeWord (.srw a n) = some z) : s.srw a n (.srw a n) = .next (s.takeTrap wi si sp.pc ⟨1, 5, z.setWidth 64⟩ false false).bump :=
    srw_refuses hi hr ⟨not_above_of_debug _ hl, hs⟩ hw hc hz
  have puts (n : BitVec 12) (f : Loops → Loops) (hk : 8 ≤ n.toNat ∧ n.toNat ≤ 0xA) (hn : srwNeed n ≠ .d) (hs : (s.special wi w sp n.toNat).isNone = false)
      (hw : s.writeSpecial wi si w n.toNat (w.rd a) = some (s.updWave wi fun w => { w with splits := updAt w.splits si fun x => { x with loops := f x.loops } }))
      (hr : Reads w [a]) (hl : w.lvl ≠ 0) (hst : Straight { sp with loops := f sp.loops }) :
      exec (.loopRegisterWrite a n) s = .next (stepped (s.updWave wi fun w => w.setLoops si (f sp.loops)) wi si { sp with loops := f sp.loops }).bump := by
    rw [exec_loopRegisterWrite a s hk]
    exact srw_loop hi hr ⟨not_above_of_handler hn hl, hs⟩ (by simpa using hk) (hw.trans (congrArg some (writeLoop_eq f hi))) hst
  have addr (n : BitVec 3) : 0x080 ≤ (0x080 + n.setWidth 12 * 2 : BitVec 12).toNat ∧ (0x080 + n.setWidth 12 * 2 : BitVec 12).toNat < 0x090 := by
    rw [comparatorAddr_number]; omega
  have ctl (n : BitVec 3) : 0x080 ≤ (0x081 + n.setWidth 12 * 2 : BitVec 12).toNat ∧ (0x081 + n.setWidth 12 * 2 : BitVec 12).toNat < 0x090 := by
    rw [comparatorCtl_number]; omega
  refine ⟨fun hr => sets 0x003 hr rfl rfl rfl rfl, fun hr => sets 0x018 hr rfl rfl rfl rfl,
    fun hr h1 h2 h3 => sets 0x002 hr rfl rfl rfl (writeMode_admits hi.wave ⟨h1, h2, h3⟩),
    fun hr hl => sets 0x061 hr (not_above_of_debug _ hl) rfl rfl rfl, lcuse_gives hi hst, fun hr hl hd hw => ?_,
    ⟨puts 0x008 (fun l => { l with cnt := v }) ⟨by decide, by decide⟩ (by decide) rfl rfl,
      fun h => puts 0x009 (fun l => { l with beg := v }) ⟨by decide, by decide⟩ (by decide) rfl (writeIf_true _ (by rw [highBits_eq_false.2 h]; rfl)),
      fun h => puts 0x00A (fun l => { l with fin := v &&& 0x01FFFFFFFFFFFFFF#64 }) ⟨by decide, by decide⟩ (by decide) rfl
        (writeIf_true _ ((zeroBits_iff 57 5 61 rfl).2 h))⟩,
    ?_, fun hr hl h1 h2 h3 h4 h5 n => ?_, fun hr hl h1 h2 h3 h4 => ?_, fun hr hl h1 h2 h3 => ?_, fun hr hl h1 h2 n => ?_, fun hr hl h1 h2 => ?_,
    fun hr h => sets 0x004 hr rfl rfl rfl (writeIf_true _ (decide_eq_true h))⟩
  · obtain ⟨w', x, e, hx, hc, hp⟩ := loopCount_single (l := { sp.loops with cnt := v }) hi hw hd rfl
    refine ⟨w', x, ?_, hx, congrArg Loops.cnt hc, hp⟩
    rw [← e]
    exact puts 0x008 (fun l => { l with cnt := v }) ⟨by decide, by decide⟩ (by decide) rfl rfl hr hl (straight_noLoop hd)
  · refine ⟨fun h hr hc hl z hz => ?_, fun h hr hc hl z hz => ?_, fun n h hr hc hl z hz => ?_, fun n h hr hc hl z hz => ?_, fun h hr hc hl z hz => ?_⟩
    · rw [exec_loopRegisterWrite a s ⟨by decide, by decide⟩]
      exact refused 0x009 rfl (writeIf_false _ (by rw [Bool.not_eq_true', highBits_eq_false]; exact h)) hr hc hl z hz
    · rw [exec_loopRegisterWrite a s ⟨by decide, by decide⟩]
      exact refused 0x00A rfl (writeIf_false _ (mt (zeroBits_iff 57 5 61 rfl).1 h)) hr hc hl z hz
    · rw [exec_comparatorRegisterWrite a s (addr n)]
      refine refused _ (special_debug s wi w sp ⟨(addr n).1, (addr n).2.le.trans (by decide)⟩) ?_ hr hc hl z hz
      rw [srw_comparatorAddr]
      exact writeIf_false _ (mt codeAddress_iff.1 (not_and_or.2 h))
    · rw [exec_comparatorRegisterWrite a s (ctl n)]
      refine refused _ (special_debug s wi w sp ⟨(ctl n).1, (ctl n).2.le.trans (by decide)⟩) ?_ hr hc hl z hz
      rw [srw_comparatorCtl]
      refine writeIf_false _ (mt comparatorCtl_iff.1 ?_)
      rintro ⟨h1, h2, h3, h4, h5⟩
      rcases h with h | h | h | h | h
      · exact h h1
      · exact h h2
      · exact h h3
      · exact Bool.false_ne_true (h4.symm.trans h)
      · exact h5 h
    · rw [exec_traceRegisterWrite a s ⟨by decide, by decide⟩]
      refine refused 0x090 rfl (writeIf_false _ ?_) hr hc hl z hz
      rw [Bool.and_eq_true, Bool.not_eq_true', highBits_eq_false, zeroBits_iff 0 12 11 rfl]
      exact not_and_or.2 h
  · rw [Gives, exec_comparatorRegisterWrite a s (ctl n)]
    refine sets _ hr (not_above_of_debug _ hl) (special_debug s wi w sp ⟨(ctl n).1, (ctl n).2.le.trans (by decide)⟩) ?_ ?_
    · exact Bool.and_eq_false_imp.2 fun _ => decide_eq_false (by have := (ctl n).1; omega)
    · rw [srw_comparatorCtl]
      exact writeIf_true _ (comparatorCtl_iff.2 ⟨h1, h2, h3, h4, h5⟩)
  · rw [Gives, exec_traceRegisterWrite a s ⟨by decide, by decide⟩]
    exact sets 0x091 hr (not_above_of_debug _ hl) rfl rfl ((writeIf_true _ (traceCtl_ok h1 h2 h3 h4)).trans (congrArg some (updCore_congr rfl)))
  · rw [Gives, exec_traceRegisterWrite a s ⟨by decide, by decide⟩]
    exact sets 0x092 hr (not_above_of_debug _ hl) rfl rfl (writeIf_true _ (tracePos_ok h1 h2 h3))
  · rw [Gives, exec_comparatorRegisterWrite a s (addr n)]
    refine sets _ hr (not_above_of_debug _ hl) (special_debug s wi w sp ⟨(addr n).1, (addr n).2.le.trans (by decide)⟩) ?_ ?_
    · exact Bool.and_eq_false_imp.2 fun _ => decide_eq_false (by have := (addr n).1; omega)
    · rw [srw_comparatorAddr]
      exact writeIf_true _ (codeAddress_iff.2 ⟨h1, h2⟩)
  · rw [Gives, exec_traceRegisterWrite a s ⟨by decide, by decide⟩]
    refine sets 0x090 hr (not_above_of_debug _ hl) rfl rfl (writeIf_true _ ?_)
    rw [Bool.and_eq_true, Bool.not_eq_true', highBits_eq_false, zeroBits_iff 0 12 11 rfl]
    exact ⟨h1, h2⟩

end Sys2Proof.Machine
end

section
/-! SUPPORT. An access of another device (spec/22 R409, spec/02 R63, R64): its request, its answer and its undoing, and the statement O8. -/

namespace Sys2Proof.Machine
open Sys2Proof Sys2Proof.Claims Sys2Proof.Laws

set_option Elab.async false

/-! ### What an access notes beside its data -/

/-- A state that differs in the translations held and in what blocks note of their accesses. -/
def Quiet (s u : State) : Prop :=
  { u with blocks := s.blocks, cores := s.cores, clusters := s.clusters } = s
    ∧ ∀ i, (u.block i).core = (s.block i).core ∧ (u.block i).ctx = (s.block i).ctx

theorem Quiet.refl (s : State) : Quiet s s := ⟨rfl, fun _ => ⟨rfl, rfl⟩⟩

theorem Quiet.trans {s u v : State} (h : Quiet s u) (h' : Quiet u v) : Quiet s v := by
  obtain ⟨e, hb⟩ := h
  obtain ⟨e', hb'⟩ := h'
  refine ⟨?_, fun i => ⟨(hb' i).1.trans (hb i).1, (hb' i).2.trans (hb i).2⟩⟩
  have k := congrArg (fun x : State => { x with blocks := s.blocks, cores := s.cores, clusters := s.clusters }) e'
  exact k.trans e

theorem Quiet.updBlock (s : State) (i : Nat) {f : Block → Block} (hf : ∀ b, (f b).core = b.core ∧ (f b).ctx = b.ctx) : Quiet s (s.updBlock i f) :=
  ⟨rfl, fun j => ⟨updAt_getD_keeps Block.core s.blocks i j f .blank fun b => (hf b).1, updAt_getD_keeps Block.ctx s.blocks i j f .blank fun b => (hf b).2⟩⟩

theorem Quiet.of_blocks {s u : State} (h : { u with blocks := s.blocks, cores := s.cores, clusters := s.clusters } = s) (hb : u.blocks = s.blocks) : Quiet s u :=
  ⟨h, fun i => by rw [State.block, State.block, hb]; exact ⟨rfl, rfl⟩⟩

theorem Quiet.sideEffect (s : State) (w : Wave) : Quiet s (s.sideEffect w) := .updBlock s _ fun _ => ⟨rfl, rfl⟩

theorem Quiet.noteStores (s : State) (w : Wave) (l : List (Word × Nat)) : Quiet s (s.noteStores w l) := by
  unfold State.noteStores
  split
  · split
    · exact .refl s
    · exact .updBlock s _ fun _ => ⟨rfl, rfl⟩
  · exact .refl s

theorem Quiet.latched (s : State) (w : Wave) (a : Word) : Quiet s (s.latched w a) := by
  unfold State.latched
  split
  · exact .sideEffect s w
  · exact .refl s

theorem Quiet.stored (s : State) (w : Wave) (a : Word) (n : Nat) : Quiet s (s.stored w a n) := by
  unfold State.stored
  split
  · exact (Quiet.sideEffect s w).trans (.noteStores _ w _)
  · exact .refl s

/-- The definition is unfolded as a function and its walk put aside, so that the kernel does not evaluate the walk's bounds. -/
theorem Quiet.fillTlb (s : State) (c : Ctx) (core va : Nat) : Quiet s (s.fillTlb c core va) := by
  generalize e : @State.fillTlb = fill
  delta State.fillTlb at e
  subst e
  beta_reduce
  generalize s.walk c va = o
  cases o with
  | none => exact .refl s
  | some => exact .of_blocks rfl rfl

theorem Quiet.touched (s : State) (w : Wave) (a : Word) : Quiet s (s.touched w a) := by
  unfold State.touched
  split
  · exact .refl s
  · exact .fillTlb s _ _ _

section
variable {s u : State} (h : Quiet s u)
include h

theorem Quiet.waves : u.waves = s.waves := (congrArg State.waves h.1 :)
theorem Quiet.vfiles : u.vfiles = s.vfiles := (congrArg State.vfiles h.1 :)
theorem Quiet.mem : u.mem = s.mem := (congrArg State.mem h.1 :)
theorem Quiet.pois : u.pois = s.pois := (congrArg State.pois h.1 :)
theorem Quiet.fabric : u.fabric = s.fabric := (congrArg State.fabric h.1 :)
theorem Quiet.parts : u.parts = s.parts := (congrArg State.parts h.1 :)
theorem Quiet.ctxs : u.ctxs = s.ctxs := (congrArg State.ctxs h.1 :)
theorem Quiet.time : u.time = s.time := (congrArg State.time h.1 :)

theorem Quiet.coreOf (w : Wave) : u.coreOf w = s.coreOf w := (h.2 w.block).1

theorem Quiet.ctxOf (w : Wave) : u.ctxOf w = s.ctxOf w := by
  rw [State.ctxOf, State.ctxOf, (h.2 w.block).2, State.ctx, State.ctx, h.ctxs]

theorem Quiet.reaches (part dev : Nat) : u.reaches part dev = s.reaches part dev := by
  simp only [State.reaches, State.partD, State.part?, h.fabric, h.parts]

theorem Quiet.sameMemory : SameMemory s u := ⟨fun a => by rw [h.mem], h.pois⟩

end

/-! ### Older accesses of other paths -/

theorem Span.meets_eq_false {x y : Span} (h : x.1 ≠ y.1 ∨ x.2.1 + x.2.2 ≤ y.2.1 ∨ y.2.1 + y.2.2 ≤ x.2.1) : x.meets y = false := by
  rw [Span.meets]
  rcases h with h | h | h
  · simp [h]
  · simp [Nat.not_lt.2 h]
  · simp [Nat.not_lt.2 h]

theorem pathWait_clear {s : State} {wi : Nat} {w : Wave} {l : List Span} {writes : Bool} (h : PathsClear s wi w l writes) : s.pathWait wi w l writes = false := by
  have clear {m : List Span} (hm : ∀ x ∈ m, x ∈ s.takeSpans wi w ++ s.fabricSpans wi ++ s.copySpans wi writes ++ (if writes then s.fillSpans wi w else []) ++ w.askSpans) :
      m.any (fun x => l.any x.meets) = false :=
    List.any_eq_false.2 fun x hx => Bool.not_eq_true _ ▸ List.any_eq_false.2 fun y hy => by rw [Span.meets_eq_false (h x (hm x hx) y hy)]; decide
  have ht := clear (m := s.takeSpans wi w) fun x hx => by simp [hx]
  have hf := clear (m := s.fabricSpans wi) fun x hx => by simp [hx]
  have hc := clear (m := s.copySpans wi writes) fun x hx => by simp [hx]
  have ha := clear (m := w.askSpans) fun x hx => by simp [hx]
  have hs : (writes && w.streams.any Stream.fills && (s.fillSpans wi w).any (fun x => l.any x.meets)) = false := by
    cases writes with
    | false => rfl
    | true => rw [clear (m := s.fillSpans wi w) fun x hx => by simp [hx], Bool.and_false]
  simp only [State.pathWait, State.streamPathWait, State.farPathWait, State.fabricPathWait, State.copyPathWait, ht, hf, hc, ha, hs, Bool.and_false, Bool.or_false]

/-! ### The request -/

/-- The full bits of the scalar registers of a wave whose access has been sent. -/
def Wave.askFull (w : Wave) (kind : AskKind) : BitVec 32 :=
  match kind with
  | .load d _ _ _ | .atomic d _ _ => if d = 0 then w.sFull else setBit32 w.sFull d.toNat false
  | .store _ | .vector _ => w.sFull

/-- The destination of an access. -/
def AskKind.dest : AskKind → Option Reg
  | .load d _ _ _ | .atomic d _ _ => some d
  | .store _ | .vector _ => none

theorem askFull_dest (w : Wave) (d r : Reg) : (r == 0 || (if d = 0 then w.sFull else setBit32 w.sFull d.toNat false).getLsbD r.toNat)
    = (w.sIsFull r && (r == 0 || some d != some r)) := by
  rw [Wave.sIsFull]
  by_cases hr : r = 0
  · rw [beq_iff_eq.2 hr, Bool.true_or, Bool.true_or, Bool.true_or, Bool.and_self]
  rw [beq_eq_false_iff_ne.2 hr, Bool.false_or, Bool.false_or, Bool.false_or]
  by_cases hd : d = r
  · subst hd
    rw [if_neg hr, setBit32_get _ _ _ d.isLt, if_pos rfl, bne_self_eq_false, Bool.and_false]
  · have hn : d.toNat ≠ r.toNat := fun e => hd (BitVec.eq_of_toNat_eq e)
    have hb : (some d != some r) = true := bne_iff_ne.2 fun e => hd (Option.some_inj.1 e)
    rw [hb, Bool.and_true]
    split
    · rfl
    · rw [setBit32_get _ _ _ r.isLt, if_neg hn]

/-- A wave whose access, the request numbered `n`, has been sent by the split at place `si`. -/
def Wave.asking (w : Wave) (kind : AskKind) (n si : Nat) : Wave :=
  { w with
    ask := some ⟨n, none, si, w.splits, w.pend.length, [], kind, n⟩
    ahead := true
    sFull := w.askFull kind
    vFull := match kind with
      | .vector x => if x.op = .store then w.vFull else fullRegs w.vFull x.d.toNat w.grp false
      | _ => w.vFull }

theorem asking_full (w : Wave) (kind : AskKind) (n si : Nat) (r : Reg) :
    (w.asking kind n si).sIsFull r = (w.sIsFull r && (r == 0 || kind.dest != some r)) := by
  cases kind with
  | load d _ _ _ => exact askFull_dest w d r
  | atomic d _ _ => exact askFull_dest w d r
  | store _ => exact (Bool.and_eq_left_iff_imp.2 fun _ => Bool.or_eq_true_iff.2 (.inr rfl)).symm
  | vector _ => exact (Bool.and_eq_left_iff_imp.2 fun _ => Bool.or_eq_true_iff.2 (.inr rfl)).symm

theorem sendRemote_one (s : State) (part dev : Nat) (op : RemoteOp) (use : RemoteUse) : (s.sendRemote part [(dev, op)] use).fabric.out
    = s.fabric.out ++ [⟨part, [(dev, assocGet 0 s.fabric.seqs dev + 1, op)], use, s.time.toNat, none, s.useCore use⟩] := rfl

section
variable {s u : State} {wi si : Nat} {w : Wave} {dev : Nat} {op : RemoteOp} {kind : AskKind}

theorem startAsk_waits (ha : w.ahead = true) (ops : List (Nat × RemoteOp)) : u.startAsk wi si w kind ops = .stall := if_pos ha

/-- What the issue of a scalar access of another device leaves. -/
def Asked (s s' : State) (wi si : Nat) (w : Wave) (dev : Nat) (op : RemoteOp) (kind : AskKind) : Prop :=
  ∃ w', s'.fabric.out = s.fabric.out ++ [⟨(s.ctxOf w).part, [(dev, assocGet 0 s.fabric.seqs dev + 1, op)], .access wi, s.time.toNat, none, s.coreOf w⟩]
    ∧ SameMemory s s' ∧ SameWaves s s' wi
    ∧ s'.waves[wi]? = some w' ∧ w'.ahead = true ∧ w'.ask = some ⟨s.fabric.out.length, none, si, w.splits, w.pend.length, [], kind, s.fabric.out.length⟩
    ∧ (∀ r : Reg, w'.sIsFull r = (w.sIsFull r && (r == 0 || kind.dest != some r)))
    ∧ w'.s = w.s ∧ w'.pend = w.pend ∧ w'.splits = w.splits

theorem startAsk_sends (hu : Quiet s u) (hw : s.waves[wi]? = some w) (hr : s.reaches (s.ctxOf w).part dev = true) (ha : w.ahead = false) :
    ∃ s', u.startAsk wi si w kind [(dev, op)] = .done s' ∧ Asked s s' wi si w dev op kind := by
  have hb : u.firstUnreached (u.ctxOf w).part [(dev, op)] = none := by
    simp [State.firstUnreached, findIdx, hu.ctxOf, hu.reaches, hr]
  have hc : u.useCore (.access wi) = s.coreOf w := by
    simp only [State.useCore, State.useHome, hu.waves, hw, hu.coreOf]
  have e : u.startAsk wi si w kind [(dev, op)] = .done ((u.sendRemote (u.ctxOf w).part [(dev, op)] (.access wi)).updWave wi fun w =>
      w.asking kind u.fabric.out.length si) := by
    rw [State.startAsk, hb, ha]
    rfl
  have hs := State.sendRemote_only u (u.ctxOf w).part [(dev, op)] (.access wi)
  have ho := sendRemote_one u (u.ctxOf w).part dev op (.access wi)
  rw [hc, hu.ctxOf, hu.fabric, hu.time] at ho
  have hx : (u.sendRemote (u.ctxOf w).part [(dev, op)] (.access wi)).waves = s.waves := hu.waves
  refine ⟨_, e, w.asking kind u.fabric.out.length si, ?_, ⟨fun a => ?_, ?_⟩, fun j hj => ?_, ?_, rfl, ?_, asking_full w kind _ si, rfl, rfl, rfl⟩
  · rw [hu.ctxOf]
    exact ho
  · exact hu.sameMemory.1 a
  · exact hu.sameMemory.2
  · rw [State.updWave_waves, updAt_get_other _ _ hj, hx]
  · rw [State.updWave_waves, updAt_get_self, hx, hw]
    rfl
  · rw [← hu.fabric]
    rfl

theorem lds_away {d a : Reg} {off : BitVec 13} {n addr : Nat} {signed dc : Bool} {sp : Split} (h : Issues s wi si w sp) (ha : Reads w [a]) (hd : Writes w [d])
    (hr : s.resolve wi w (w.rd a + off.signExtend 64) n n .read = .ok (.away dev addr dc)) (hreach : s.reaches (s.ctxOf w).part dev = true)
    (hp : s.pathWait wi w [(dev + 1, addr, n)] false = false) : s.lds d a off n signed = .next (s.retire wi si sp
      (if w.scalarOut then .stall else (s.touched w (w.rd a + off.signExtend 64)).startAsk wi si w (.load d n signed (w.rd a + off.signExtend 64))
        [(dev, .read addr n)])) := by
  rw [State.lds, scalar_eq h (ss := [(a, 0)]) ha hd]
  simp only [ea, hr, Place.span, hp, hreach, Bool.or_false, Bool.not_true, Bool.false_eq_true, if_false]

theorem sts_away {d a : Reg} {off : BitVec 13} {n addr : Nat} {dc : Bool} {sp : Split} (h : Issues s wi si w sp) (ha : Reads w [a, d])
    (hr : s.resolve wi w (w.rd a + off.signExtend 64) n n .write = .ok (.away dev addr dc)) (hreach : s.reaches (s.ctxOf w).part dev = true)
    (hp : s.pathWait wi w [(dev + 1, addr, n)] true = false) : s.sts d a off n = .next (s.retire wi si sp
      (((s.touched w (w.rd a + off.signExtend 64)).stored w (w.rd a + off.signExtend 64) n).startAsk wi si w (.store (w.rd a + off.signExtend 64))
        [(dev, .write addr (leBytes n ((w.rd d).toNat % 2 ^ (8 * n))) false)])) := by
  rw [State.sts, scalar_eq h (ss := [(a, 0), (d, 2)]) ha (List.forall_mem_nil _)]
  simp only [ea, hr, Place.span, hp, hreach, Bool.not_true, Bool.false_eq_true, if_false]

theorem amo_away {d a b : Reg} {fn addr : Nat} {dc : Bool} {sp : Split} (h : Issues s wi si w sp) (ha : Reads w [a, b]) (hd : Writes w [d])
    (hr : s.resolve wi w (w.rd a) 8 8 .write = .ok (.away dev addr dc)) (hreach : s.reaches (s.ctxOf w).part dev = true)
    (hp : s.pathWait wi w [(dev + 1, addr, 8)] true = false) : s.amo fn d a b 0 = .next (s.retire wi si sp
      (((s.touched w (w.rd a)).latched w (w.rd a)).startAsk wi si w (.atomic d 8 (w.rd a)) [(dev, .amo fn false addr (w.rd b))])) := by
  have hv : word ((w.rd b).toNat % 2 ^ 64) = w.rd b := by
    rw [Nat.mod_eq_of_lt (w.rd b).isLt, word, BitVec.ofNat_toNat, BitVec.setWidth_eq]
  have h64 : iopWidth 0 = 64 := rfl
  have h8 : 64 / 8 = 8 := rfl
  have h32 : ((64 : Nat) == 32) = false := rfl
  rw [State.amo, State.atomic, scalar_eq h (ss := [(a, 0), (b, 1)]) ha hd]
  simp only [h64, h8, h32, hv, hr, Place.span, hp, hreach, Bool.not_true, Bool.false_eq_true, if_false]

end

/-! ### Undoing -/

/-- What the buffer holds of a field is its value before the oldest of the younger writes. -/
theorem undo_fold {α : Type} {g : Wave → α} {f : Hist → Option α} (hf : ∀ w h, g (w.undo h) = (f h).getD (g w)) (l : List Hist) (w : Wave) :
    g (l.foldl Wave.undo w) = (l.reverse.findSome? f).getD (g w) := by
  induction l generalizing w with
  | nil => rfl
  | cons h l ih =>
    rw [List.foldl_cons, ih, hf, List.reverse_cons, List.findSome?_append]
    cases l.reverse.findSome? f with
    | some _ => rfl
    | none => cases hx : f h <;> simp [hx]

theorem undo_reg (w : Wave) (h : Hist) {r : Reg} (hr : r ≠ 0) : ((w.undo h).rd r, (w.undo h).sIsPois r)
    = (match h with | .reg n v p => if n = r then some (v, p) else none | _ => none : Option (Word × Bool)).getD (w.rd r, w.sIsPois r) := by
  cases h with
  | reg n v p =>
    have hp : (w.undo (.reg n v p)).sIsPois r = if n = r then p else w.sIsPois r := by
      rw [Wave.sIsPois, Wave.undo, setBit32_get _ _ _ r.isLt, bne_iff_ne.2 hr, Bool.true_and, Wave.sIsPois, bne_iff_ne.2 hr, Bool.true_and]
      exact if_congr ⟨fun e => BitVec.eq_of_toNat_eq e, fun e => by rw [e]⟩ rfl rfl
    have hv : (w.undo (.reg n v p)).rd r = if n = r then v else w.rd r := by
      simp only [Wave.rd, if_neg hr, Wave.undo]
      split
      · next e => subst e; exact Vector.getElem_set_self _
      · next e => exact Vector.getElem_set_ne _ _ fun e' => e (BitVec.eq_of_toNat_eq e')
    rw [hp, hv]
    dsimp only
    split <;> rfl
  | vl v cap => rfl
  | mode m v => rfl
  | space v => rfl

theorem rewound_reg (w : Wave) {r : Reg} (hr : r ≠ 0) :
    ((w.hist.foldl Wave.undo w).rd r, (w.hist.foldl Wave.undo w).sIsPois r) = (heldReg w.hist r).getD (w.rd r, w.sIsPois r) :=
  undo_fold (g := fun w => (w.rd r, w.sIsPois r)) (fun w h => (undo_reg w h hr).trans (by cases h <;> rfl)) w.hist w

theorem rewound_vl (w : Wave) : (w.hist.foldl Wave.undo w).vl = (heldVl w.hist).getD w.vl :=
  undo_fold (g := Wave.vl) (fun _ h => by cases h <;> rfl) w.hist w

theorem rewound_mode (w : Wave) : (w.hist.foldl Wave.undo w).wmode = (heldMode w.hist).getD w.wmode :=
  undo_fold (g := Wave.wmode) (fun _ h => by cases h <;> rfl) w.hist w

theorem rewound_space (w : Wave) : (w.hist.foldl Wave.undo w).space = (heldSpace w.hist).getD w.space :=
  undo_fold (g := Wave.space) (fun _ h => by cases h <;> rfl) w.hist w

theorem rewound_pend (w : Wave) (l : List Hist) : (l.foldl Wave.undo w).pend = w.pend := by
  induction l generalizing w with
  | nil => rfl
  | cons h l ih => rw [List.foldl_cons, ih]; cases h <;> rfl

theorem unwound_full (w : Wave) (q : RemoteAsk) {d : Reg} (h : q.kind.dest = some d) : (w.unwind q).sIsFull d = true := by
  have set (x : BitVec 32) : (d == 0 || (setBit32 x d.toNat true).getLsbD d.toNat) = true := by
    rw [setBit32_get _ _ _ d.isLt, if_pos rfl, Bool.or_true]
  cases hk : q.kind with
  | load e n sg a =>
    rw [hk] at h
    obtain rfl := Option.some_inj.1 h
    simp only [Wave.unwind, Wave.sIsFull, hk]
    exact set _
  | atomic e n a =>
    rw [hk] at h
    obtain rfl := Option.some_inj.1 h
    simp only [Wave.unwind, Wave.sIsFull, hk]
    exact set _
  | store a => simp [hk, AskKind.dest] at h
  | vector x => simp [hk, AskKind.dest] at h

section
variable {s : State} {wi : Nat} {w : Wave} {q : RemoteAsk}

theorem undone_of_askFailed {tr : Trap} {write : Bool} {d : Option Reg} (hw : s.waves[wi]? = some w) (hl : w.leaseDst = none)
    (hd : ∀ r, d = some r → q.kind.dest = some r) : Undone (s.askFailed wi w q tr write false) wi w q tr write d := by
  intro sp hsp
  have e : s.askFailed wi w q tr write false = (s.updWave wi fun w => w.unwind q).takeTrap wi q.split sp.pc tr write false := by
    simp only [State.askFailed, hsp, hl, Option.isSome_none, Bool.or_self, Bool.false_eq_true, if_false]
  refine ⟨_, w.unwind q, e, ?_, rfl, rfl, rfl, rfl, congrArg (List.take q.older) (rewound_pend w w.hist),
    fun r hr => unwound_full w q (hd r hr), fun r hr => rewound_reg w hr, ?_, rewound_mode w, rewound_space w⟩
  · rw [State.updWave_waves, updAt_get_self, hw]
    rfl
  · rw [← rewound_vl]
    rfl

/-! ### The answer -/

theorem accessAnswer_failed {ans : RemoteAnswer} {stops : Bool} (hw : s.waves[wi]? = some w) (hq : w.ask = some q) (hf : ans.failed ≠ none) :
    (∀ d n sg a, q.kind = .load d n sg a → s.accessAnswer wi ans stops = s.askFailed wi w q ⟨17, 0, a⟩ false stops)
      ∧ (∀ a, q.kind = .store a → s.accessAnswer wi ans stops = s.askFailed wi w q ⟨17, 0, a⟩ true stops)
      ∧ (∀ d n a, q.kind = .atomic d n a → s.accessAnswer wi ans stops = s.askFailed wi w q ⟨17, 0, a⟩ true stops) := by
  obtain ⟨k, hk⟩ := Option.ne_none_iff_exists'.1 hf
  refine ⟨fun d n sg a h => ?_, fun a h => ?_, fun d n a h => ?_⟩ <;>
    simp only [State.accessAnswer, hw, hq, hk, h, Option.isSome_some, if_true]

theorem wordI_sextN (v : Nat) : wordI (sextN 64 v) = BitVec.ofNat 64 v := by
  have e : sextN 64 v = sextN 64 (BitVec.ofNat 64 v).toNat := by
    unfold sextN
    rw [BitVec.toNat_ofNat, Nat.mod_mod]
  rw [e, sextN_toInt, wordI, BitVec.ofInt_toInt, BitVec.setWidth_eq]

theorem accessAnswer_load {ans : RemoteAnswer} {stops : Bool} {d : Reg} {a : Word} (hw : s.waves[wi]? = some w) (hq : w.ask = some q) (hq0 : q.fail = none)
    (hf : ans.failed = none) (hp : ans.poisoned.any id = false) (hl : ans.bytes.length = 8) (hk : q.kind = .load d 8 true a) :
    s.accessAnswer wi ans stops = s.updWave wi fun w => w.arrives d (BitVec.ofNat 64 (leValue ans.bytes)) false := by
  have hb : (ans.poisoned.take 8).any id = false := List.any_eq_false.2 fun x hx => List.any_eq_false.1 hp x (List.mem_of_mem_take hx)
  have ht : ans.bytes.take 8 = ans.bytes := List.take_of_length_le hl.le
  have hx : ldsWord 8 true (leValue ans.bytes) = BitVec.ofNat 64 (leValue ans.bytes) := wordI_sextN _
  simp only [State.accessAnswer, hw, hq, hf, hq0, hk, Option.isSome_none, Bool.false_eq_true, if_false, answerAt, List.drop_zero, hb, ht, hx]

theorem accessAnswer_store {ans : RemoteAnswer} {stops : Bool} {a : Word} (hw : s.waves[wi]? = some w) (hq : w.ask = some q) (hq0 : q.fail = none)
    (hf : ans.failed = none) (hk : q.kind = .store a) : s.accessAnswer wi ans stops = s.updWave wi Wave.answered := by
  simp only [State.accessAnswer, hw, hq, hf, hq0, hk, Option.isSome_none, Bool.false_eq_true, if_false]

theorem accessAnswer_poisoned {ans : RemoteAnswer} {stops : Bool} {d : Reg} {n : Nat} {a : Word} (hw : s.waves[wi]? = some w) (hq : w.ask = some q)
    (hq0 : q.fail = none) (hf : ans.failed = none) (hk : q.kind = .atomic d n a) (hp : (ans.poisoned.take n).any id = true) :
    s.accessAnswer wi ans stops = s.askFailed wi w q ⟨9, 2, a⟩ true stops := by
  simp only [State.accessAnswer, hw, hq, hf, hq0, hk, Option.isSome_none, Bool.false_eq_true, if_false, answerAt, List.drop_zero, hp, if_true]

theorem updWave_wave (f : Wave → Wave) (hw : s.waves[wi]? = some w) : (s.updWave wi f).waves[wi]? = some (f w) := by
  rw [State.updWave_waves, updAt_get_self, hw]
  rfl

theorem arrives_pend (w : Wave) (d : Reg) (v : Word) (bad : Bool) : (w.arrives d v bad).pend = w.pend ++ (if d = 0 then [] else [.scalar d v bad]) := by
  unfold Wave.arrives
  split
  · exact (List.append_nil _).symm
  · rfl

theorem arrives_only (w : Wave) (d : Reg) (v : Word) (bad : Bool) : { w.arrives d v bad with pend := w.pend } = w.answered := by
  unfold Wave.arrives
  split <;> rfl

end

section
variable {s u : State} {wi si : Nat} {w : Wave} {sp : Split} {dev : Nat} {op : RemoteOp} {kind : AskKind} {i : Instr}

theorem asked_of_startAsk (hst : Straight sp) (hu : Quiet s u) (hw : s.waves[wi]? = some w) (hr : s.reaches (s.ctxOf w).part dev = true) (ha : w.ahead = false)
    (he : exec i s = .next (s.retire wi si sp (u.startAsk wi si w kind [(dev, op)]))) : ∃ s' w', Gives i s wi si sp s'
      ∧ s'.fabric.out = s.fabric.out ++ [⟨(s.ctxOf w).part, [(dev, assocGet 0 s.fabric.seqs dev + 1, op)], .access wi, s.time.toNat, none, s.coreOf w⟩]
      ∧ SameMemory s s' ∧ SameWaves s s' wi
      ∧ s'.waves[wi]? = some w' ∧ w'.ahead = true ∧ w'.ask = some ⟨s.fabric.out.length, none, si, w.splits, w.pend.length, [], kind, s.fabric.out.length⟩
      ∧ (∀ r : Reg, w'.sIsFull r = (w.sIsFull r && (r == 0 || kind.dest != some r)))
      ∧ w'.s = w.s ∧ w'.pend = w.pend ∧ w'.splits = w.splits := by
  obtain ⟨s', e, w', h⟩ := startAsk_sends (si := si) (op := op) (kind := kind) hu hw hr ha
  exact ⟨s', w', by rw [Gives, he, e, retire_done hst], h⟩

theorem stall_of_startAsk (ha : w.ahead = true) (he : exec i s = .next (s.retire wi si sp (u.startAsk wi si w kind [(dev, op)]))) :
    exec i s = .next (s.stall wi si) := by
  rw [he, startAsk_waits ha]
  rfl

end

theorem exec_ldsS64 (d a : Reg) (off : BitVec 13) (s : State) : exec (.ldsS64 d a off) s = s.lds d a off 8 true := rfl

theorem exec_sts64 (d a : Reg) (off : BitVec 13) (s : State) : exec (.sts64 d a off) s = s.sts d a off 8 := rfl

theorem exec_amoAdd (d a b : Reg) (x : BitVec 1) (c : Reg) (s : State) : exec (.amoAdd d a b x c) s = s.amo 0 d a b x := rfl

/-- Settles O8: an issue notes nothing but translations and the block's stores (`Quiet`), so the request it sends is that of the state before it (`startAsk_sends`); the answer
of a scalar access is one of four outcomes, and a failure undoes the buffer's entries, of which the oldest decides (`undo_fold`). -/
theorem remoteAccess : Obligations.RemoteAccess := by
  unfold Obligations.RemoteAccess
  refine ⟨fun s wi si w sp d a b c off dev addr dc hi hst hreach => ⟨fun ha hd hr hp => ?_, fun had hr hp => ?_, fun hab hd hr hp => ?_⟩,
    fun s wi w q ans stops hw hq hq0 => ⟨fun hf hp hl d a hk => ?_, fun hf a hk => ?_, ?_⟩⟩
  · have e := (exec_ldsS64 d a off s).trans (lds_away (signed := true) hi ha hd hr hreach (pathWait_clear hp))
    refine ⟨fun h => ?_, fun h hs => ?_⟩
    · cases hs : w.scalarOut with
      | true => rw [e, hs]; rfl
      | false => rw [hs, if_neg Bool.false_ne_true] at e; exact stall_of_startAsk h e
    · rw [hs, if_neg Bool.false_ne_true] at e
      exact asked_of_startAsk hst (.touched s w _) hi.wave hreach h e
  · have e := (exec_sts64 d a off s).trans (sts_away hi had hr hreach (pathWait_clear hp))
    rw [Nat.mod_eq_of_lt (w.rd d).isLt] at e
    exact ⟨fun h => stall_of_startAsk h e, fun h _ => asked_of_startAsk hst ((Quiet.touched s w _).trans (.stored _ w _ _)) hi.wave hreach h e⟩
  · have e := (exec_amoAdd d a b 0 c s).trans (amo_away hi hab hd hr hreach (pathWait_clear hp))
    exact ⟨fun h => stall_of_startAsk h e, fun h _ => asked_of_startAsk hst ((Quiet.touched s w _).trans (.latched _ w _)) hi.wave hreach h e⟩
  · have e := arrives_only w d (BitVec.ofNat 64 (leValue ans.bytes)) false
    rw [accessAnswer_load hw hq hq0 hf hp hl hk]
    exact ⟨_, updWave_wave _ hw, (congrArg Wave.ask e :), arrives_pend .., (congrArg Wave.s e :), (congrArg Wave.splits e :)⟩
  · rw [accessAnswer_store hw hq hq0 hf hk]
    exact ⟨_, updWave_wave _ hw, rfl, rfl, rfl, rfl⟩
  · rintro rfl hl a
    have hd {d : Reg} (h : q.kind.dest = some d) (r : Reg) (e : some d = some r) : q.kind.dest = some r := h.trans e
    refine ⟨fun hf d n sg hk => ?_, fun hf hk => ?_, fun hf d n hk => ?_, fun hf d n hk hp => ?_⟩
    · rw [(accessAnswer_failed hw hq hf).1 d n sg a hk]
      exact undone_of_askFailed hw hl (hd (by rw [hk]; rfl))
    · rw [(accessAnswer_failed hw hq hf).2.1 a hk]
      exact undone_of_askFailed hw hl (fun _ e => by cases e)
    · rw [(accessAnswer_failed hw hq hf).2.2 d n a hk]
      exact undone_of_askFailed hw hl (hd (by rw [hk]; rfl))
    · rw [accessAnswer_poisoned hw hq hq0 hf hk hp]
      exact undone_of_askFailed hw hl (hd (by rw [hk]; rfl))

end Sys2Proof.Machine
end

section
/-! SUPPORT. A vector instruction that is ready runs its body (spec/05 R126, spec/06 R170), and what its streams change (R168, R169). -/

namespace Sys2Proof.Machine
open Sys2Proof Sys2Proof.Claims Sys2Proof.Laws

set_option Elab.async false

/-- The streams an instruction used move on with its result. -/
def Res.streamsAfter (r : Res) (wi : Nat) (used : List Nat) : Res :=
  match r with
  | .done s => .done (s.streamsAfter wi used)
  | .after s t => .after (s.streamsAfter wi used) t
  | r => r

section
variable {s : State} {wi si : Nat} {w : Wave} {sp : Split}

theorem gateWith_ready {p : VPlan} (h : VecReady s wi w p) (k : Unit → Res) : w.gateWith p.uses p.early p.meets k = k () := by
  obtain ⟨-, -, -, -, -, -, -, hs, hd, hr, hw⟩ := h
  refine gateWith_open w p.uses _ _ k (fun r hm => hs r.1 (List.mem_map_of_mem hm)) (fun r hm => ?_) (fun r hm => ?_) hd fun n hm => ?_
  · obtain ⟨x, hx, hm⟩ := List.mem_flatMap.1 hm
    obtain ⟨n, hn, rfl⟩ := List.mem_map.1 hm
    exact (hr x hx).1 n hn
  · obtain ⟨x, hx, hm⟩ := List.mem_flatMap.1 hm
    obtain ⟨n, hn, rfl⟩ := List.mem_map.1 hm
    exact (hr x hx).2 n hn
  · obtain ⟨g, hg, hn⟩ := List.mem_flatMap.1 hm
    exact hw g hg n hn

/-- An instruction that passes its checks and gates does what its body says, its streams moving on. -/
theorem vec_ready {i : Instr} {plan : Wave → Split → VPlan} (h : Issues s wi si w sp) (hr : VecReady s wi w (plan w sp))
    (k : Nat → Nat → Wave → Split → Res) :
    s.vec i plan k = .next (s.retire wi si sp ((k wi si w sp).streamsAfter wi (w.streamsUsed (plan w sp)))) := by
  have hg := gateWith_ready hr
  obtain ⟨hheld, hclaim, hal, hbig, htype, hmask, hstr, -⟩ := hr
  have hclash : w.streams.any (fun t => t.clash (plan w sp)) = false := List.any_eq_false.2 fun t ht => by simp [(hstr t ht).1]
  have herr : w.streams.find? (fun t => t.used (plan w sp) && t.err.isSome) = none := List.find?_eq_none.2 fun t ht hu => by
    obtain ⟨hu, he⟩ := Bool.and_eq_true_iff.1 hu
    simp [(hstr t ht).2 hu] at he
  rw [State.vec, runWave_eq h]
  simp only [hclaim, hal, hbig, htype, hmask, hclash, herr, hg, hheld, Bool.not_true, Bool.false_eq_true, if_false]
  cases k wi si w sp <;> rfl

/-- One that completes leaves its split at the next word. -/
theorem vec_done {i : Instr} {plan : Wave → Split → VPlan} {s' : State} (h : Issues s wi si w sp) (hst : Straight sp)
    (hr : VecReady s wi w (plan w sp)) {k : Nat → Nat → Wave → Split → Res} (hk : k wi si w sp = .done s') :
    s.vec i plan k = .next (stepped (s'.streamsAfter wi (w.streamsUsed (plan w sp))) wi si sp) := by
  rw [vec_ready h hr, hk, Res.streamsAfter, retire_done hst]

/-- A stream that moves on changes the streams of its wave and which registers are full. -/
theorem Wave.streamsMoved_only (w : Wave) (used : List Nat) (now : Nat) :
    { w.streamsMoved used now with streams := w.streams, vFull := w.vFull } = w := by
  refine List.foldlRecOn w.streams _ (motive := fun x : Wave => { x with streams := w.streams, vFull := w.vFull } = w) rfl fun x hx t _ => ?_
  split
  · exact hx
  split
  · split <;> exact hx
  · exact hx

/-- After an instruction a wave differs in its streams, which of its registers are full, and its access of another device. -/
theorem streamsAfter_wave {s : State} {wi : Nat} {w : Wave} (used : List Nat) (h : s.waves[wi]? = some w) :
    ∃ w', (s.streamsAfter wi used).waves[wi]? = some w' ∧ { w' with streams := w.streams, vFull := w.vFull, ask := w.ask } = w := by
  by_cases hu : used.isEmpty = true
  · exact ⟨w, by rw [State.streamsAfter, if_pos hu, h], rfl⟩
  rw [State.streamsAfter, if_neg hu]
  refine ⟨_, updWave_wave _ h, ?_⟩
  split
  · rfl
  · exact congrArg (fun x : Wave => { x with ask := w.ask }) (w.streamsMoved_only used s.now)

theorem State.streamsAfter_only (s : State) (wi : Nat) (used : List Nat) : { s.streamsAfter wi used with waves := s.waves } = s := by
  unfold State.streamsAfter
  split <;> rfl

theorem streamsAfter_sameWaves (s : State) (wi : Nat) (used : List Nat) : SameWaves s (s.streamsAfter wi used) wi := fun j hj => by
  unfold State.streamsAfter
  split
  · rfl
  · exact updAt_get_other _ _ hj

end
end Sys2Proof.Machine
end

section
/-! SUPPORT. Vector comparisons (spec/05 R136): the bits a mask register takes, and the statement O23. -/

namespace Sys2Proof.Machine
open Sys2Proof Sys2Proof.Claims Sys2Proof.Laws

set_option Elab.async false

/-! ### The bits of a mask -/

theorem word_two_pow_getLsbD {j : Nat} (h : j < 64) (i : Nat) : (word (2 ^ j)).getLsbD i = decide (j = i) := by
  rw [word, BitVec.getLsbD_ofNat, Nat.testBit_two_pow]
  by_cases e : j = i
  · subst e; simp [h]
  · simp [e]

/-- Bits set and cleared at the places of a list: there they are as `r` says, and elsewhere as they were. -/
theorem foldl_setBits_getLsbD (r : Nat → Bool) (l : List Nat) (hl : ∀ j ∈ l, j < 64) (m : Word) {i : Nat} (hi : i < 64) :
    (l.foldl (fun m j => if r j then m ||| word (2 ^ j) else m &&& ~~~(word (2 ^ j))) m).getLsbD i = if i ∈ l then r i else m.getLsbD i := by
  induction l generalizing m with
  | nil => simp
  | cons j l ih =>
    have hj := word_two_pow_getLsbD (hl j List.mem_cons_self) i
    rw [List.foldl_cons, ih fun k hk => hl k (List.mem_cons_of_mem _ hk)]
    by_cases hm : i ∈ l
    · rw [if_pos hm, if_pos (List.mem_cons_of_mem _ hm)]
    rw [if_neg hm]
    by_cases e : j = i
    · subst e
      rw [if_pos List.mem_cons_self]
      cases r j <;> simp [hj, hi]
    · rw [if_neg fun h => (List.mem_cons.1 h).elim (fun h => e h.symm) hm]
      cases r j <;> simp only [if_true, Bool.false_eq_true, if_false, BitVec.getLsbD_or, BitVec.getLsbD_and, BitVec.getLsbD_not, hj, hi, e, decide_true, decide_false,
        Bool.or_false, Bool.not_false, Bool.and_true]

theorem Wave.rdK_congr {w w' : Wave} (hk : w.k = w'.k) (hm : w.wmode = w'.wmode) (n : BitVec 3) : w.rdK n = w'.rdK n := by
  unfold Wave.rdK Wave.legacy
  rw [hk, hm]

theorem Wave.lanes_le (w : Wave) : w.lanes ≤ 64 := by
  unfold Wave.lanes
  split <;> omega

/-- A bit of a written mask register, of the lanes a wave has. -/
theorem Wave.rdK_wrK_getLsbD (w : Wave) {n : BitVec 3} (hn : n ≠ 0) (v : Word) {j : Nat} (hj : j < w.lanes) : ((w.wrK n v).rdK n).getLsbD j = v.getLsbD j := by
  rw [w.rdK_wrK_same, if_neg hn]
  unfold Wave.lanes at hj
  dsimp only
  cases hl : w.legacy with
  | false => rfl
  | true =>
    rw [if_pos rfl, BitVec.getLsbD_and]
    rw [hl, if_pos rfl] at hj
    have : (0xFFFFFFFF#64).getLsbD j = true := by
      rw [BitVec.getLsbD_ofNat, show 0xFFFFFFFF = 2 ^ 32 - 1 from rfl, Nat.testBit_two_pow_sub_one]
      simp [hj]
      omega
    rw [this, Bool.and_true]

theorem Wave.mem_actives (w : Wave) (sp : Split) (j : Nat) : j ∈ w.actives sp ↔ w.active sp j = true := by
  simp only [Wave.actives, List.mem_filter, List.mem_range, Wave.active, Bool.and_eq_true, decide_eq_true_eq]
  exact ⟨fun h => h.2, fun h => ⟨h.1.1, h⟩⟩

section
variable {s : State} {wi si : Nat} {w : Wave} {sp : Split}

/-- What a change at one place leaves of each entry it leaves of the list. -/
theorem updAt_map_of {α β : Type} (g : α → β) (l : List α) (i : Nat) {f : α → α} (h : ∀ x, g (f x) = g x) : (updAt l i f).map g = l.map g := by
  refine List.ext_getElem? fun j => ?_
  rw [List.getElem?_map, List.getElem?_map, updAt_get]
  split
  · rw [Option.map_map]
    exact congrArg (l[j]?.map ·) (funext h)
  · rfl

theorem beats_files (s : State) (w : Wave) (sp : Split) (regs : Nat) (arith : Bool) : (s.beats w sp regs arith).vfiles.map (·.v) = s.vfiles.map (·.v) :=
  updAt_map_of _ _ _ fun _ => rfl

/-- The mask a comparison leaves in register d. -/
def vcmpMask (s : State) (w : Wave) (sp : Split) (fn : Nat) (d : BitVec 3) (a b : Reg) (x : BitVec 1) : Word :=
  (w.actives sp).foldl (fun m j => if (vcmpElem fn w.etype w.ftz (elem s w a j) (elemB s w b x j)).1 then m ||| word (2 ^ j)
    else m &&& ~~~(word (2 ^ j))) (w.rdK d)

/-- The flags a comparison raises. -/
def vcmpFlags (s : State) (w : Wave) (sp : Split) (fn : Nat) (a b : Reg) (x : BitVec 1) : BitVec 8 :=
  if (w.actives sp).any (fun j => (vcmpElem fn w.etype w.ftz (elem s w a j) (elemB s w b x j)).2) then NV else 0

/-- The state of a comparison: the mask written, the flags raised, the lanes counted. -/
def vcmpState (s : State) (wi : Nat) (w : Wave) (sp : Split) (fn : Nat) (d : BitVec 3) (a b : Reg) (x : BitVec 1) : State :=
  ((s.beats w sp w.grp true).updWave wi (fun w' => w'.wrK d (vcmpMask s w sp fn d a b x))).updWave wi (fun w' => w'.flag (vcmpFlags s w sp fn a b x))

theorem vopPlan_eq_planAB {fn : Nat} {a b : Reg} {x : BitVec 1} {ok mok : Bool} (hok : ok = vcmpAccept fn w.etype) :
    vopPlan w sp none a b x none ok mok = { planAB 0 a b x (vcmpAccept fn) w sp with writes := [], maskOk := mok } := by
  subst hok
  simp only [vopPlan, List.append_nil]
  rfl

theorem vcmp_gives {i : Instr} {fn : Nat} {d : BitVec 3} {a b : Reg} {x : BitVec 1} {ok : Bool} (h : Issues s wi si w sp) (hst : Straight sp)
    (hok : ok = vcmpAccept fn w.etype) (hr : VecReady s wi w (vopPlan w sp none a b x none ok (decide (w.vl ≤ w.lanes))))
    (hf : w.atrap = true → ∀ j ∈ w.actives sp, (vcmpElem fn w.etype w.ftz (elem s w a j) (elemB s w b x j)).2 = false) :
    ∃ used, s.vcmp i fn d a b x = .next (stepped ((vcmpState s wi w sp fn d a b x).streamsAfter wi used) wi si sp) := by
  rw [vopPlan_eq_planAB hok] at hr
  refine ⟨_, vec_done h hst hr ?_⟩
  have hflags : (w.atrap && (vcmpFlags s w sp fn a b x &&& (NV ||| DZ ||| OF)) != 0) = false := by
    cases ha : w.atrap with
    | false => rfl
    | true =>
      rw [vcmpFlags, if_neg (by rw [Bool.not_eq_true, List.any_eq_false]; exact fun j hj => by simp [hf ha j hj])]
      rfl
  simp only [State.raiseFlags, List.foldl_map, List.any_map]
  exact if_neg (Bool.not_eq_true _ ▸ hflags)

theorem vcmpMask_getLsbD {fn : Nat} {d : BitVec 3} {a b : Reg} {x : BitVec 1} (hv : w.vl ≤ w.lanes) {j : Nat} (hj : j < w.lanes) :
    (vcmpMask s w sp fn d a b x).getLsbD j
      = if w.active sp j then (vcmpElem fn w.etype w.ftz (elem s w a j) (elemB s w b x j)).1 else (w.rdK d).getLsbD j := by
  have hl : ∀ j ∈ w.actives sp, j < 64 := fun j hj =>
    lt_of_lt_of_le (List.mem_range.1 (List.mem_of_mem_filter hj)) (hv.trans w.lanes_le)
  rw [vcmpMask, foldl_setBits_getLsbD _ _ hl _ (lt_of_lt_of_le hj w.lanes_le)]
  exact if_congr (w.mem_actives sp j) rfl rfl

/-- What a comparison leaves behind. -/
theorem vcmp_leaves (h : s.waves[wi]? = some w) {fn : Nat} {d : BitVec 3} {a b : Reg} {x : BitVec 1} (hd : d ≠ 0) (hv : w.vl ≤ w.lanes) (used : List Nat) :
    let t := stepped ((vcmpState s wi w sp fn d a b x).streamsAfter wi used) wi si sp
    ∃ w', t.waves[wi]? = some w'
        ∧ (∀ j, j < w.lanes → (w'.rdK d).getLsbD j
            = if w.active sp j then (vcmpElem fn w.etype w.ftz (elem s w a j) (elemB s w b x j)).1 else (w.rdK d).getLsbD j)
        ∧ (∀ k, k ≠ d → w'.rdK k = w.rdK k) ∧ w'.s = w.s ∧ w'.wstat = w.wstat ||| vcmpFlags s w sp fn a b x
        ∧ SameMemory s t ∧ SameWaves s t wi ∧ t.vfiles.map (·.v) = s.vfiles.map (·.v) := by
  intro t
  have h1 : (vcmpState s wi w sp fn d a b x).waves[wi]? = some ((w.wrK d (vcmpMask s w sp fn d a b x)).flag (vcmpFlags s w sp fn a b x)) :=
    updWave_wave _ (updWave_wave (s := s.beats w sp w.grp true) _ h)
  obtain ⟨w2, h2, e2⟩ := streamsAfter_wave used h1
  have hk : w2.k = (w.wrK d (vcmpMask s w sp fn d a b x)).k := (congrArg Wave.k e2 :)
  have hm : w2.wmode = w.wmode := (congrArg Wave.wmode e2).trans (congrArg Wave.wmode (w.wrK_only d _) :)
  have hrd (k : BitVec 3) : w2.rdK k = (w.wrK d (vcmpMask s w sp fn d a b x)).rdK k :=
    Wave.rdK_congr hk (hm.trans (congrArg Wave.wmode (w.wrK_only d _) :).symm) k
  have hat := State.streamsAfter_only (vcmpState s wi w sp fn d a b x) wi used
  refine ⟨_, stepped_wave si sp h2, fun j hj => ?_, fun k hkd => ?_, ?_, ?_, ?_, ?_, ?_⟩
  · exact (congrArg (·.getLsbD j) (hrd d)).trans ((w.rdK_wrK_getLsbD hd _ hj).trans (vcmpMask_getLsbD hv hj))
  · exact (hrd k).trans (w.rdK_wrK_other _ hkd)
  · exact (congrArg Wave.s e2).trans (congrArg Wave.s (w.wrK_only d _) :)
  · exact (congrArg Wave.wstat e2).trans (congrArg (fun w' : Wave => w'.wstat ||| vcmpFlags s w sp fn a b x) (w.wrK_only d _) :)
  · exact ⟨fun m => congrArg (memRead · m) (congrArg State.mem hat :), (congrArg State.pois hat :)⟩
  · intro j hj
    rw [stepped_waves, updAt_get_other _ _ hj, streamsAfter_sameWaves _ _ _ j hj]
    exact (updAt_get_other _ _ hj).trans (updAt_get_other _ _ hj)
  · exact (congrArg (fun u : State => u.vfiles.map (·.v)) hat).trans (beats_files s w sp w.grp true)

/-- A comparison whose element type the function accepts does what O23 says. -/
theorem comparison_holds {i : Instr} {fn : Nat} {d : BitVec 3} {a b : Reg} {x : BitVec 1} {ok : Bool} (h : Issues s wi si w sp) (hst : Straight sp) (hd : d ≠ 0)
    (he : exec i s = s.vcmp i fn d a b x) (hok : ok = vcmpAccept fn w.etype)
    (hr : VecReady s wi w (vopPlan w sp none a b x none ok (decide (w.vl ≤ w.lanes))))
    (hf : w.atrap = true → ∀ j ∈ w.actives sp, (vcmpElem fn w.etype w.ftz (elem s w a j) (elemB s w b x j)).2 = false) :
    ∃ t w', exec i s = .next t ∧ t.waves[wi]? = some w'
        ∧ (∀ j, j < w.lanes → (w'.rdK d).getLsbD j
            = if w.active sp j then (vcmpElem fn w.etype w.ftz (elem s w a j) (elemB s w b x j)).1 else (w.rdK d).getLsbD j)
        ∧ (∀ k, k ≠ d → w'.rdK k = w.rdK k) ∧ w'.s = w.s ∧ w'.wstat = w.wstat ||| vcmpFlags s w sp fn a b x
        ∧ SameMemory s t ∧ SameWaves s t wi ∧ t.vfiles.map (·.v) = s.vfiles.map (·.v) := by
  obtain ⟨used, hx⟩ := vcmp_gives (i := i) h hst hok hr hf
  obtain ⟨_, _, _, _, _, hv, _⟩ := hr
  obtain ⟨w', hw'⟩ := vcmp_leaves (si := si) (sp := sp) h.wave hd (of_decide_eq_true hv) used
  exact ⟨_, w', he.trans hx, hw'⟩

end

/-- Settles O23: the bits of a mask are set and cleared one active element at a time. -/
theorem comparisonResults : Obligations.ComparisonResults := by
  unfold Obligations.ComparisonResults
  intro s wi si w sp d a b x hg h hst hd
  refine ⟨?_, ?_, ?_, ?_, ?_, ?_, ?_, ?_, ?_⟩ <;> intro hr _ hf <;> exact comparison_holds h hst hd rfl rfl hr hf

end Sys2Proof.Machine
end

section
/-! SUPPORT. Elements of a group of vector registers (spec/02 R43 to R45, R66): what a field reads after elements were written. -/

namespace Sys2Proof.Machine
open Sys2Proof Sys2Proof.Claims Sys2Proof.Laws

set_option Elab.async false

/-! ### Fields of a register -/

/-- Bit `q` lies in the field of `n` bits from bit `p`. -/
def InField (p n q : Nat) : Prop := p ≤ q ∧ q < p + n

/-- The mask of a field has its bits. -/
theorem fieldMask_in {p n q : Nat} (h : InField p n q) (hq : q < 2048) : (BitVec.ofNat 2048 ((2 ^ n - 1) * 2 ^ p)).getLsbD q = true := by
  have hn : q - p < n := by obtain ⟨h1, h2⟩ := h; omega
  rw [BitVec.getLsbD_ofNat, ← Nat.shiftLeft_eq, Nat.testBit_shiftLeft, Nat.testBit_two_pow_sub_one, decide_eq_true hq, decide_eq_true hn, decide_eq_true h.1]
  rfl

/-- And no others. -/
theorem fieldMask_out {p n q : Nat} (h : ¬ InField p n q) : (BitVec.ofNat 2048 ((2 ^ n - 1) * 2 ^ p)).getLsbD q = false := by
  rw [BitVec.getLsbD_ofNat, ← Nat.shiftLeft_eq, Nat.testBit_shiftLeft, Nat.testBit_two_pow_sub_one, ← Bool.decide_and,
    decide_eq_false (p := _ ∧ q - p < n) fun ⟨h1, h2⟩ => h ⟨h1, by omega⟩, Bool.and_false]

theorem putBits_getLsbD_in (x : VReg) {p n v q : Nat} (h : InField p n q) (hq : q < 2048) : (putBits x p n v).getLsbD q = v.testBit (q - p) := by
  have hn : q - p < n := by obtain ⟨h1, h2⟩ := h; omega
  rw [putBits, BitVec.getLsbD_or, BitVec.getLsbD_and, BitVec.getLsbD_not, fieldMask_in h hq, Bool.not_true, Bool.and_false, Bool.and_false,
    Bool.false_or, BitVec.getLsbD_ofNat, ← Nat.shiftLeft_eq, Nat.testBit_shiftLeft, Nat.testBit_mod_two_pow]
  simp only [hq, h.1, hn, decide_true, Bool.true_and]

theorem putBits_getLsbD_out (x : VReg) {p n v q : Nat} (h : ¬ InField p n q) (hq : q < 2048) : (putBits x p n v).getLsbD q = x.getLsbD q := by
  have hf : (decide (q ≥ p) && (decide (q - p < n) && v.testBit (q - p))) = false := by
    rw [← Bool.and_assoc, ← Bool.decide_and, decide_eq_false fun ⟨h1, h2⟩ => h ⟨h1, by omega⟩, Bool.false_and]
  rw [putBits, BitVec.getLsbD_or, BitVec.getLsbD_and, BitVec.getLsbD_not, fieldMask_out h, BitVec.getLsbD_ofNat, ← Nat.shiftLeft_eq,
    Nat.testBit_shiftLeft, Nat.testBit_mod_two_pow, hf, decide_eq_true hq, Bool.not_false, Bool.and_true, Bool.and_true, Bool.and_false, Bool.or_false]

theorem extractLsb'_toNat_of_bits {x : VReg} {p n v : Nat} (h : ∀ q, InField p n q → x.getLsbD q = v.testBit (q - p)) :
    (x.extractLsb' p n).toNat = v % 2 ^ n := by
  refine Nat.eq_of_testBit_eq fun k => ?_
  rw [BitVec.testBit_toNat, BitVec.getLsbD_extractLsb', Nat.testBit_mod_two_pow]
  by_cases hk : k < n
  · rw [h (p + k) ⟨by omega, by omega⟩, Nat.add_sub_cancel_left]
  · simp [hk]

theorem VFile.reg_setReg (f : VFile) {n : Nat} (hn : n < 32) (m : Nat) (x : VReg) : (f.setReg n x).reg m = if n = m then x else f.reg m := by
  unfold VFile.setReg VFile.reg
  rw [dif_pos hn]
  by_cases hm : m < 32
  · simp only [dif_pos hm, Vector.getElem_set]
  · rw [dif_neg hm, dif_neg hm, if_neg (by omega)]

/-! ### Elements written to a group -/

/-- Bit `q` of register `n` belongs to element `i` of the group from `base`. -/
def Wave.InElem (w : Wave) (base sew i n q : Nat) : Prop := n = base + (w.elemAt sew i).1 ∧ InField (w.elemAt sew i).2 sew q

/-- Element `i` of the group from `base` lies within the vector file. -/
def Wave.ElemFits (w : Wave) (base sew i : Nat) : Prop := base + (w.elemAt sew i).1 < 32 ∧ (w.elemAt sew i).2 + sew ≤ 2048

section
variable {w : Wave} {base sew : Nat}

/-- Two elements share no bit. -/
theorem inElem_unique {i j n q : Nat} (hi : w.InElem base sew i n q) (hj : w.InElem base sew j n q) : i = j := by
  obtain ⟨rfl, hi1, hi2⟩ := hi
  obtain ⟨hr, hj1, hj2⟩ := hj
  simp only [Wave.elemAt] at hr hi1 hi2 hj1 hj2
  have hq : i * sew / w.regBits = j * sew / w.regBits := by omega
  have h1 := Nat.div_add_mod (i * sew) w.regBits
  have h2 := Nat.div_add_mod (j * sew) w.regBits
  rw [hq] at h1
  have h3 : i * sew < j * sew + sew := by omega
  have h4 : j * sew < i * sew + sew := by omega
  rw [← Nat.succ_mul] at h3 h4
  have h5 := Nat.lt_of_mul_lt_mul_right h3
  have h6 := Nat.lt_of_mul_lt_mul_right h4
  omega

theorem putElems_cons (f : VFile) (x : Nat × Nat) (l : List (Nat × Nat)) : w.putElems base sew f (x :: l)
    = w.putElems base sew (f.setReg (base + (w.elemAt sew x.1).1) (putBits (f.reg (base + (w.elemAt sew x.1).1)) (w.elemAt sew x.1).2 sew x.2)) l := rfl

theorem putElem_getLsbD (f : VFile) {i v n q : Nat} (hi : w.ElemFits base sew i) (hq : q < 2048) :
    ((f.setReg (base + (w.elemAt sew i).1) (putBits (f.reg (base + (w.elemAt sew i).1)) (w.elemAt sew i).2 sew v)).reg n).getLsbD q
      = open Classical in if w.InElem base sew i n q then v.testBit (q - (w.elemAt sew i).2) else (f.reg n).getLsbD q := by
  rw [VFile.reg_setReg f hi.1]
  by_cases hn : base + (w.elemAt sew i).1 = n
  · subst hn
    rw [if_pos rfl]
    by_cases hf : InField (w.elemAt sew i).2 sew q
    · rw [if_pos ⟨rfl, hf⟩, putBits_getLsbD_in _ hf hq]
    · rw [if_neg fun h => hf h.2, putBits_getLsbD_out _ hf hq]
  · rw [if_neg hn, if_neg fun h => hn h.1.symm]

theorem putElems_getLsbD_out (f : VFile) {l : List (Nat × Nat)} (hl : ∀ x ∈ l, w.ElemFits base sew x.1) {n q : Nat} (hq : q < 2048)
    (h : ∀ x ∈ l, ¬ w.InElem base sew x.1 n q) : ((w.putElems base sew f l).reg n).getLsbD q = (f.reg n).getLsbD q := by
  induction l generalizing f with
  | nil => rfl
  | cons x l ih =>
    rw [putElems_cons, ih _ (fun y hy => hl y (List.mem_cons_of_mem _ hy)) fun y hy => h y (List.mem_cons_of_mem _ hy),
      putElem_getLsbD f (hl x List.mem_cons_self) hq, if_neg (h x List.mem_cons_self)]

theorem putElems_getLsbD_in (f : VFile) {l : List (Nat × Nat)} (hl : ∀ x ∈ l, w.ElemFits base sew x.1) (hk : (l.map (·.1)).Nodup) {x : Nat × Nat}
    (hx : x ∈ l) {n q : Nat} (hq : q < 2048) (h : w.InElem base sew x.1 n q) :
    ((w.putElems base sew f l).reg n).getLsbD q = x.2.testBit (q - (w.elemAt sew x.1).2) := by
  induction l generalizing f with
  | nil => cases hx
  | cons y l ih =>
    obtain ⟨hy, hk⟩ := List.nodup_cons.1 hk
    have hl' : ∀ z ∈ l, w.ElemFits base sew z.1 := fun z hz => hl z (List.mem_cons_of_mem _ hz)
    rcases List.mem_cons.1 hx with rfl | hx
    · rw [putElems_cons, putElems_getLsbD_out _ hl' hq, putElem_getLsbD f (hl x List.mem_cons_self) hq, if_pos h]
      exact fun z hz hz' => hy (List.mem_map.2 ⟨z, hz, (inElem_unique h hz').symm⟩)
    · exact ih _ hl' hk hx

/-- Elements at different places written to a group read as they were written, and no other bit changes. -/
theorem putElems_fileElements (f : VFile) {l : List (Nat × Nat)} (hl : ∀ x ∈ l, w.ElemFits base sew x.1) (hk : (l.map (·.1)).Nodup) :
    FileElements w f (w.putElems base sew f l) base sew l := by
  refine ⟨fun x hx => ?_, fun n q _ hq h => putElems_getLsbD_out f hl hq h⟩
  have hfit := (hl x hx).2
  exact extractLsb'_toNat_of_bits fun q hq => putElems_getLsbD_in f hl hk hx (lt_of_lt_of_le hq.2 hfit) ⟨rfl, hq⟩

end

/-! ### The elements below VL -/

theorem sewOf_cases (fmt : Nat) : sewOf fmt = 8 ∨ sewOf fmt = 16 ∨ sewOf fmt = 32 ∨ sewOf fmt = 64 := by
  unfold sewOf
  split <;> simp

theorem Wave.regBits_cases (w : Wave) : (w.legacy = true ∧ w.regBits = 1024) ∨ (w.legacy = false ∧ w.regBits = 2048) := by
  unfold Wave.regBits
  cases w.legacy <;> simp

theorem Wave.vlmax_eq (w : Wave) : w.vlmax = w.regBits * w.grp / w.sew := rfl

theorem Wave.grp_cases (w : Wave) : w.grp = 1 ∨ w.grp = 2 ∨ w.grp = 4 ∨ w.grp = 8 := by
  have h : (w.wmode.extractLsb' 12 2).toNat < 4 := (w.wmode.extractLsb' 12 2).isLt
  unfold Wave.grp
  generalize (w.wmode.extractLsb' 12 2).toNat = g at h
  interval_cases g <;> simp

/-- A group named by a multiple of its size ends within the file. -/
theorem Wave.grp_fits (w : Wave) {base : Nat} (hb : base < 32) (ha : base % w.grp = 0) : base + w.grp ≤ 32 := by
  rcases w.grp_cases with h | h | h | h <;> rw [h] at ha ⊢ <;> omega

/-- The register of an element below VLMAX is one of its group, and the element lies in the wave's own lanes of it. -/
theorem Wave.elemAt_below (w : Wave) {i : Nat} (hi : i < w.vlmax) :
    (w.elemAt w.sew i).1 < w.grp ∧ ∃ o, (w.elemAt w.sew i).2 = o + (if w.legacy then 1024 * w.half else 0) ∧ o + w.sew ≤ w.regBits := by
  have hsew : 0 < w.sew ∧ w.sew ∣ w.regBits := by
    unfold Wave.sew
    rcases sewOf_cases w.etype with h | h | h | h <;> rcases w.regBits_cases with ⟨-, hr⟩ | ⟨-, hr⟩ <;> rw [h, hr] <;> decide
  obtain ⟨hpos, c, hc⟩ := hsew
  refine ⟨Nat.div_lt_of_lt_mul ?_, i * w.sew % w.regBits, rfl, ?_⟩
  · have h := Nat.mul_le_of_le_div _ _ _ (w.vlmax_eq ▸ hi : i + 1 ≤ w.regBits * w.grp / w.sew)
    rw [Nat.add_mul] at h
    omega
  · have hc0 : 0 < c := Nat.pos_of_ne_zero fun h => by rcases w.regBits_cases with ⟨-, hr⟩ | ⟨-, hr⟩ <;> rw [h, Nat.mul_zero] at hc <;> omega
    rw [hc, Nat.mul_comm i, Nat.mul_mod_mul_left]
    exact Nat.mul_le_mul_left w.sew (Nat.mod_lt i hc0)

theorem Wave.elemFits_below (w : Wave) {base i : Nat} (hh : w.half < 2) (hb : base + w.grp ≤ 32) (hi : i < w.vlmax) : w.ElemFits base w.sew i := by
  obtain ⟨h1, o, h2, h3⟩ := w.elemAt_below hi
  refine ⟨by omega, ?_⟩
  rw [h2]
  rcases w.regBits_cases with ⟨hl, hr⟩ | ⟨hl, hr⟩ <;> simp only [hl, if_true, Bool.false_eq_true, if_false] <;> omega

end Sys2Proof.Machine
end

section
/-! SUPPORT. Vector loads (spec/06 R152 to R154, spec/02 R62): the elements this device serves, the group they arrive in, and the statement O29. -/

namespace Sys2Proof.Machine
open Sys2Proof Sys2Proof.Claims Sys2Proof.Laws

set_option Elab.async false

/-! ### What a load reads -/

theorem leValue_memReadBytes_succ (m : List Host.Cell) (a n : Nat) :
    leValue (memReadBytes m a (n + 1)) = leValue (memReadBytes m a n) + 256 ^ n * (memRead m (a + n)).toNat := by
  induction n generalizing a with
  | zero => simp [memReadBytes, leValue]
  | succ n ih =>
    rw [memReadBytes, leValue, ih (a + 1), memReadBytes, leValue, Nat.pow_succ, show a + 1 + n = a + (n + 1) by omega]
    ring

theorem leValue_memReadBytes (m : List Host.Cell) (a n : Nat) : leValue (memReadBytes m a n) = (bytesAt m a n).toNat := by
  induction n with
  | zero => rfl
  | succ n ih =>
    have hv := (bytesAt m a n).isLt
    rw [leValue_memReadBytes_succ, ih, bytesAt, BitVec.toNat_cast, BitVec.toNat_append, Nat.shiftLeft_eq, Nat.mul_comm (memRead m (a + n)).toNat]
    generalize (bytesAt m a n).toNat = v at hv
    rw [← Nat.two_pow_add_eq_or_of_lt hv, Nat.pow_mul, Nat.add_comm]

/-- A read here, outside the vector areas of frames without a claim. -/
theorem readAt_eq {s : State} {k : Nat} (n : Nat) (h : s.noClaim k = false) : s.readAt k n = ⟨readHere s k n, s.poisoned k n⟩ := by
  rw [State.readAt, readHere, State.valueAt, h, State.readN, leValue_memReadBytes]
  cases s.poisoned k n <;> rfl

/-! ### The group a load writes -/

/-- The bits of a register that belong to a wave's own lanes. -/
def Wave.Own (w : Wave) (q : Nat) : Prop := w.legacy = false ∨ (1024 * w.half ≤ q ∧ q < 1024 * w.half + 1024)

theorem ownLanes_getLsbD_in (w : Wave) (new old : VReg) {q : Nat} (hq : q < 2048) (h : w.Own q) : (w.ownLanes new old).getLsbD q = new.getLsbD q := by
  unfold Wave.ownLanes
  cases hl : w.legacy with
  | false => rfl
  | true =>
    have h := h.resolve_left (by rw [hl]; decide)
    rw [if_pos rfl]
    dsimp only
    rw [BitVec.getLsbD_or, BitVec.getLsbD_and, BitVec.getLsbD_and, BitVec.getLsbD_not, fieldMask_in h hq, Bool.and_true, Bool.not_true, Bool.and_false, Bool.and_false, Bool.or_false]

theorem ownLanes_getLsbD_out (w : Wave) (new old : VReg) {q : Nat} (hq : q < 2048) (h : ¬ w.Own q) : (w.ownLanes new old).getLsbD q = old.getLsbD q := by
  obtain ⟨hl, h⟩ := not_or.1 h
  rw [Wave.ownLanes, if_pos (Bool.not_eq_false _ ▸ hl)]
  dsimp only
  rw [BitVec.getLsbD_or, BitVec.getLsbD_and, BitVec.getLsbD_and, BitVec.getLsbD_not, fieldMask_out h, Bool.and_false, Bool.false_or, Bool.not_false, Bool.and_true, decide_eq_true hq, Bool.and_true]

theorem own_of_inElem {w : Wave} {base i n q : Nat} (hi : i < w.vlmax) (h : w.InElem base w.sew i n q) : w.Own q := by
  obtain ⟨-, o, ho, hr⟩ := w.elemAt_below hi
  obtain ⟨-, h1, h2⟩ := h
  rcases w.regBits_cases with ⟨hl, hb⟩ | ⟨hl, -⟩
  · rw [hl, if_pos rfl] at ho
    exact .inr (by omega)
  · exact .inl hl

theorem ownLanes_of_fileElements {w : Wave} {f g : VFile} {base : Nat} {l : List (Nat × Nat)} (hl : ∀ x ∈ l, x.1 < w.vlmax)
    (h : FileElements w f g base w.sew l) {n : Nat} (hn : n < 32) : w.ownLanes (g.reg n) (f.reg n) = g.reg n := by
  refine BitVec.eq_of_getLsbD_eq fun q hq => ?_
  by_cases ho : w.Own q
  · exact ownLanes_getLsbD_in w _ _ hq ho
  · rw [ownLanes_getLsbD_out w _ _ hq ho, h.2 n q hn hq fun x hx hi => ho (own_of_inElem (hl x hx) hi)]

/-- A register outside the group is as it was. -/
theorem reg_of_fileElements {w : Wave} {f g : VFile} {base : Nat} {l : List (Nat × Nat)} (hl : ∀ x ∈ l, x.1 < w.vlmax)
    (h : FileElements w f g base w.sew l) {n : Nat} (hn : n < 32) (ho : n < base ∨ base + w.grp ≤ n) : g.reg n = f.reg n := by
  refine BitVec.eq_of_getLsbD_eq fun q hq => h.2 n q hn hq fun x hx hi => ?_
  have := (w.elemAt_below (hl x hx)).1
  obtain ⟨rfl, -⟩ := hi
  omega

theorem fileElements_congr {w : Wave} {f f' g g' : VFile} {base sew : Nat} {l : List (Nat × Nat)} (hf : ∀ n, n < 32 → f'.reg n = f.reg n)
    (hg : ∀ n, n < 32 → g'.reg n = g.reg n) (h : FileElements w f g base sew l) : FileElements w f' g' base sew l := by
  have hr (n : Nat) : g'.reg n = g.reg n := by
    by_cases hn : n < 32
    · exact hg n hn
    · rw [VFile.reg, VFile.reg, dif_neg hn, dif_neg hn]
  refine ⟨fun x hx => (congrArg (fun y : VReg => (y.extractLsb' _ _).toNat) (hr _)).trans (h.1 x hx), fun n p hn hp hx => ?_⟩
  rw [hg n hn, hf n hn, h.2 n p hn hp hx]

theorem putRegs_reg {s : State} {w : Wave} (wi n : Nat) (regs : List VReg) (whole bad : List Bool) (hf : w.vfile < s.vfiles.length) {m : Nat} (hm : m < 32) :
    ((s.putRegs wi w n regs whole bad).vfile w.vfile).reg m
      = match (if n ≤ m then regs[m - n]? else none) with | some x => w.ownLanes x ((s.vfile w.vfile).reg m) | none => (s.vfile w.vfile).reg m := by
  simp only [State.putRegs, State.vfile, State.updWave_vfiles, State.updVFile, updAt_getD_self _ _ _ _ hf]
  rw [VFile.reg, dif_pos hm, writeRegs_get _ _ _ hm, List.getElem?_map, List.getElem?_zipIdx]
  by_cases hn : n ≤ m
  · rw [if_pos hn, if_pos hn]
    cases regs[m - n]? with
    | none => rw [VFile.reg, dif_pos hm]; rfl
    | some x => simp only [Option.map_some, Option.getD_some, Nat.zero_add, Nat.add_sub_cancel' hn]
  · rw [if_neg hn, if_neg hn, VFile.reg, dif_pos hm]
    rfl

/-- The registers of a group loaded replace those of the file. -/
theorem putRegs_fileElements {s : State} {w : Wave} {wi : Nat} {g : VFile} {base : Nat} {l : List (Nat × Nat)} (whole bad : List Bool) (hf : w.vfile < s.vfiles.length)
    (hl : ∀ x ∈ l, x.1 < w.vlmax) (h : FileElements w (s.vfile w.vfile) g base w.sew l) :
    FileElements w (s.vfile w.vfile) ((s.putRegs wi w base ((List.range w.grp).map (fun r => g.reg (base + r))) whole bad).vfile w.vfile) base w.sew l := by
  refine fileElements_congr (fun _ _ => rfl) (fun n hn => ?_) h
  rw [putRegs_reg wi base _ whole bad hf hn]
  by_cases hb : base ≤ n ∧ n < base + w.grp
  · obtain ⟨h1, h2⟩ := hb
    rw [if_pos h1, List.getElem?_map, List.getElem?_range (by omega)]
    simp only [Option.map_some, Nat.add_sub_cancel' h1]
    exact ownLanes_of_fileElements hl h hn
  · have hnone : (if base ≤ n then ((List.range w.grp).map (fun r => g.reg (base + r)))[n - base]? else none) = none := by
      split
      · rw [List.getElem?_eq_none]
        simp
        omega
      · rfl
    rw [hnone]
    exact (reg_of_fileElements hl h hn (by omega)).symm

end Sys2Proof.Machine
end

section
/-! SUPPORT. The elements of a vector access that this device serves (spec/06 R152, R153). -/

namespace Sys2Proof.Machine
open Sys2Proof Sys2Proof.Claims Sys2Proof.Laws

set_option Elab.async false

/-- The access of element `j` leads to a byte here, at its key. -/
def HereAcc (f : Nat → VAcc) (key : Nat → Nat) (j : Nat) : Prop := ∃ a dc v, f j = ⟨j, a, .ok (.here (key j) dc), v⟩

section
variable {f : Nat → VAcc} {key : Nat → Nat} {l : List Nat}

theorem uptoFault_here (hl : ∀ j ∈ l, HereAcc f key j) (r : List VAcc) : uptoFault (l.map f ++ r) = l.map f ++ uptoFault r := by
  induction l with
  | nil => rfl
  | cons j l ih =>
    obtain ⟨a, dc, v, hj⟩ := hl j List.mem_cons_self
    rw [List.map_cons, List.cons_append, uptoFault, if_pos (by rw [hj]; rfl), ih fun i hi => hl i (List.mem_cons_of_mem _ hi)]
    rfl

theorem uptoFault_all (hl : ∀ j ∈ l, HereAcc f key j) : uptoFault (l.map f) = l.map f := by
  have h := uptoFault_here hl []
  rwa [uptoFault, List.append_nil] at h

theorem accSpans_here (n : Nat) (hl : ∀ j ∈ l, HereAcc f key j) : accSpans n (l.map f) = elemSpans key n l := by
  induction l with
  | nil => rfl
  | cons j l ih =>
    obtain ⟨a, dc, v, hj⟩ := hl j List.mem_cons_self
    have ih := ih fun i hi => hl i (List.mem_cons_of_mem _ hi)
    rw [accSpans, elemSpans] at ih ⊢
    rw [List.map_cons, List.map_cons, List.filterMap_cons, hj, ih]
    rfl

theorem away_here (hl : ∀ j ∈ l, HereAcc f key j) : (l.map f).any VAcc.away = false := by
  rw [List.any_eq_false]
  intro y hy
  obtain ⟨j, hj, rfl⟩ := List.mem_map.1 hy
  obtain ⟨a, dc, v, hj⟩ := hl j hj
  rw [hj]
  exact Bool.false_ne_true

/-- The elements of a load that this device serves are read one after the other. -/
theorem perform_here (u : State) (w : Wave) (x : VecAccess) (ans : RemoteAnswer) (hx : x.op = .load) (hb : x.bad = none) (r : List VAcc) (k : Nat)
    (hl : ∀ j ∈ l, HereAcc f key j) :
    u.perform w x ans (l.map f ++ r) k = u.perform w { x with got := x.got ++ l.map (fun j => (j, u.readAt (key j) x.n)) } ans r k := by
  induction l generalizing x with
  | nil => rw [List.map_nil, List.nil_append, List.map_nil, List.append_nil]
  | cons j l ih =>
    obtain ⟨a, dc, v, hj⟩ := hl j List.mem_cons_self
    have hstep : u.elemHere w x (f j) (key j) = (u, { x with got := x.got ++ [(j, u.readAt (key j) x.n)] }) := by
      rw [State.elemHere, hx, hj]
    rw [List.map_cons, List.cons_append, State.perform]
    simp only [hj] at hstep ⊢
    rw [hstep]
    dsimp only
    rw [if_neg (by rw [hb]; exact Bool.false_ne_true), ih { x with got := x.got ++ [(j, u.readAt (key j) x.n)] } hx hb fun i hi => hl i (List.mem_cons_of_mem _ hi)]
    simp only [List.map_cons, List.append_assoc, List.singleton_append]

end

theorem quiet_touchAll (s : State) (w : Wave) (l : List VAcc) : Quiet s (s.touchAll w l) := by
  unfold State.touchAll
  refine List.foldlRecOn l _ (motive := Quiet s) (.refl s) fun u hu x _ => ?_
  split
  · exact hu.trans (.touched u w x.a)
  · exact hu

/-- The state in which a vector access is performed: its lanes counted and its translations held. -/
def State.accessState (s : State) (w : Wave) (sp : Split) (l : List VAcc) : State := (s.beats w sp w.grp false).touchAll w l

/-- A load's record when its elements begin. -/
def loadStart (w : Wave) (d : Reg) (l : List VAcc) (ldf : Option (Nat × Option Nat)) : VecAccess :=
  ⟨.load, d, w.sew / 8, l.any VAcc.device, l, [], [], none, ldf, w.wmode⟩

section
variable {s : State} {wi si : Nat} {w : Wave} {sp : Split} {f : Nat → VAcc} {key : Nat → Nat} {pre : List Nat}

theorem cutOff_nil (s : State) (w : Wave) {x : VecAccess} (h : x.todo = []) : s.cutOff w x.ops = false := by
  have : x.ops = [] := by
    rw [VecAccess.ops, h]
    dsimp only [uptoFault, awayOps]
    split <;> rfl
  rw [this]
  rfl

/-- How a load ends whose accesses, up to one that faults, are here and meet no older access. -/
theorem vecAccess_near {d : Reg} {ldf : Option (Nat × Option Nat)} {todo l : List VAcc} {u : State} {z : VecAccess} (hup : uptoFault todo = l)
    (ha : l.any VAcc.away = false) (hp : s.pathWait wi w (accSpans (w.sew / 8) l) false = false)
    (hz : ∀ k, (s.accessState w sp l).performOn w (loadStart w d l ldf) ⟨[], [], some 0⟩ k = (u, z)) (ht : z.todo = []) :
    s.vecAccess wi si w sp .load d todo ldf = match z.bad with
      | none => .done (u.vecDone wi w z)
      | some (y, t) => .trapIn (u.vecCut wi w z y.i) t false := by
  unfold State.vecAccess
  simp only [hup, ha, ElemOp.writes, hp, Bool.false_and, Bool.or_false, Bool.false_eq_true, if_false]
  unfold State.accessState loadStart at hz
  simp only [hz, ht, List.isEmpty_nil, if_true] <;> rfl

theorem performOn_here (u : State) (w : Wave) (d : Reg) {todo : List VAcc} (ldf : Option (Nat × Option Nat)) (ans : RemoteAnswer) (k : Nat) (hl : ∀ j ∈ pre, HereAcc f key j)
    (ht : todo = pre.map f) : u.performOn w (loadStart w d todo ldf) ans k
      = (u, { loadStart w d todo ldf with todo := [], got := pre.map (fun j => (j, u.readAt (key j) (w.sew / 8))) }) := by
  have h := perform_here u w (loadStart w d todo ldf) ans rfl rfl [] k hl
  rw [List.append_nil, ← ht] at h
  rw [State.performOn, show (loadStart w d todo ldf).todo = todo from rfl, h]
  dsimp only [State.perform]
  rw [cutOff_nil _ _ rfl]
  cases ldf <;> rfl

theorem performOn_fault (u : State) (w : Wave) (d : Reg) {todo : List VAcc} {y : VAcc} {c sub : Nat} (ans : RemoteAnswer) (k : Nat) (hl : ∀ j ∈ pre, HereAcc f key j)
    (ht : todo = pre.map f ++ [y]) (hy : y.acc = .trap c sub) : u.performOn w (loadStart w d todo none) ans k
      = (u, { loadStart w d todo none with todo := [], got := pre.map (fun j => (j, u.readAt (key j) (w.sew / 8))), bad := some (y, ⟨c, sub, y.a⟩) }) := by
  have h := perform_here u w (loadStart w d todo none) ans rfl rfl [y] k hl
  have hty : y.trap = ⟨c, sub, y.a⟩ := by rw [VAcc.trap, hy]
  rw [← ht] at h
  rw [State.performOn, show (loadStart w d todo none).todo = todo from rfl, h]
  simp only [State.perform, hy, hty]
  rw [cutOff_nil _ _ rfl]
  rfl

end
end Sys2Proof.Machine
end

section
/-! SUPPORT. Loads that fault and first-fault loads cut short (spec/06 R152, R154, spec/02 R62), and the statement O29. -/

namespace Sys2Proof.Machine
open Sys2Proof Sys2Proof.Claims Sys2Proof.Laws

set_option Elab.async false

section
variable {s : State} {wi si : Nat} {w : Wave} {sp : Split}

/-! ### The state a load is performed in -/

theorem accessState_quiet (s : State) (w : Wave) (sp : Split) (l : List VAcc) : Quiet (s.beats w sp w.grp false) (s.accessState w sp l) := quiet_touchAll _ w l

theorem accessState_waves (l : List VAcc) : (s.accessState w sp l).waves = s.waves := (accessState_quiet s w sp l).waves

theorem accessState_mem (l : List VAcc) : (s.accessState w sp l).mem = s.mem := (accessState_quiet s w sp l).mem

theorem accessState_pois (l : List VAcc) : (s.accessState w sp l).pois = s.pois := (accessState_quiet s w sp l).pois

theorem accessState_vfile (l : List VAcc) (i n : Nat) : ((s.accessState w sp l).vfile i).reg n = (s.vfile i).reg n := by
  rw [State.vfile, (accessState_quiet s w sp l).vfiles]
  exact updAt_getD_keeps (VFile.reg · n) s.vfiles w.vfile i _ .blank fun _ => rfl

theorem accessState_files (l : List VAcc) : (s.accessState w sp l).vfiles.length = s.vfiles.length := by
  rw [(accessState_quiet s w sp l).vfiles]
  exact updAt_length s.vfiles w.vfile _

theorem accessState_readAt (l : List VAcc) {k : Nat} (n : Nat) (h : s.noClaim k = false) :
    (s.accessState w sp l).readAt k n = ⟨readHere s k n, s.poisoned k n⟩ := by
  rw [readAt_eq n (by rw [State.noClaim, accessState_waves]; exact h), readHere, readHere, State.poisoned, State.poisoned, accessState_pois, accessState_mem]

theorem heal_nil (s : State) : s.heal [] = s := by
  have h : s.pois.filter (fun g => !((List.range 8).all (fun o => ([] : List (Nat × Nat)).any (fun x => decide (x.1 ≤ 8 * g + o) && decide (8 * g + o < x.1 + x.2))))) = s.pois :=
    List.filter_eq_self.2 fun _ _ => rfl
  rw [State.heal, h]

/-! ### The elements of a load -/

/-- The access of element `j` of a unit load. -/
def unitAcc (s : State) (wi : Nat) (w : Wave) (a : Reg) (j : Nat) : VAcc := s.elemAcc wi w w.space.toNat (w.sew / 8) .read j (unitSum a w j) 0

theorem elemAcc_resolved {space n : Nat} {kind : AccKind} {i : Nat} {sum a : Word} (v : Nat) (h : spaceAddr space sum = some a) :
    s.elemAcc wi w space n kind i sum v = ⟨i, a, s.resolve wi w a n n kind, v⟩ := by
  rw [State.elemAcc, h]

theorem hereAcc_of_here {a : Reg} {key : Nat → Nat} {l : List Nat} (h : Here s wi w w.space.toNat (w.sew / 8) .read (unitSum a w) l key) :
    ∀ j ∈ l, HereAcc (unitAcc s wi w a) key j := fun j hj => by
  obtain ⟨b, dc, hs, hr, -⟩ := h j hj
  exact ⟨b, dc, 0, by rw [unitAcc, elemAcc_resolved 0 hs, hr]⟩

theorem reads_of_here {a : Reg} {key : Nat → Nat} {l : List Nat} (L : List VAcc) (h : Here s wi w w.space.toNat (w.sew / 8) .read (unitSum a w) l key) :
    l.map (fun j => (j, (s.accessState w sp L).readAt (key j) (w.sew / 8))) = l.map (fun j => (j, ⟨readHere s (key j) (w.sew / 8), s.poisoned (key j) (w.sew / 8)⟩)) :=
  List.map_congr_left fun j hj => by
    obtain ⟨b, dc, -, -, hn⟩ := h j hj
    rw [accessState_readAt L _ (hn rfl)]

theorem todo_sub (w : Wave) (sp : Split) {j : Nat} (h : j ∈ w.todo sp) : j < w.vl :=
  List.mem_range.1 (List.mem_of_mem_filter (List.mem_of_mem_filter h))

theorem todo_nodup (w : Wave) (sp : Split) : (w.todo sp).Nodup := (List.nodup_range.filter _).filter _

theorem group_fits {p : VPlan} {d : Reg} (hr : VecReady s wi w p) (hd : (d.toNat, w.grp) ∈ p.writes) : d.toNat + w.grp ≤ 32 := by
  obtain ⟨-, -, ha, -⟩ := hr
  have := List.all_eq_true.1 (Bool.and_eq_true_iff.1 ha).2 _ hd
  exact w.grp_fits d.isLt (beq_iff_eq.1 this)

/-- The file of a wave with the elements a load has read put in the group. -/
def Wave.loadFile (w : Wave) (f : VFile) (d : Nat) (got : List (Nat × Read)) : VFile := w.putElems d w.sew f (got.map (fun x => (x.1, inFmt w.etype x.2.val)))

theorem loadFile_fileElements {f f' : VFile} {d n : Nat} {key : Nat → Nat} {l : List Nat} (hf : ∀ m, m < 32 → f'.reg m = f.reg m) (hh : w.half < 2) (hd : d + w.grp ≤ 32)
    (hl : ∀ j ∈ l, j < w.vlmax) (hn : l.Nodup) :
    FileElements w f' (w.loadFile f d (l.map (fun j => (j, ⟨readHere s (key j) n, s.poisoned (key j) n⟩)))) d w.sew
      (l.map (fun j => (j, inFmt w.etype (readHere s (key j) n)))) := by
  rw [Wave.loadFile, List.map_map]
  refine fileElements_congr hf (fun _ _ => rfl) (putElems_fileElements f (fun x hx => ?_) ?_)
  · obtain ⟨j, hj, rfl⟩ := List.mem_map.1 hx
    exact w.elemFits_below hh hd (hl j hj)
  · rw [List.map_map]
    exact hn.map fun _ _ h => h

theorem streamsAfter_none {p : VPlan} (u : State) (h : w.streams = []) : u.streamsAfter wi (w.streamsUsed p) = u := by
  rw [Wave.streamsUsed, h]
  rfl

/-! ### A load that faults -/

theorem exec_vld (d a : Reg) (s : State) : exec (.vld d a) s = s.vload (.vld d a) d [(a, 0)] none (unitSum a) := rfl

theorem vld_faults {d a : Reg} {key : Nat → Nat} {pre post : List Nat} {x : Nat} {addr : Word} {c sub : Nat}
    (h : Issues s wi si w sp) (hc : CutClosed w) (hr : VecReady s wi w { ss := [(a, 0)], writes := [(d.toNat, w.grp)] }) (ht : w.todo sp = pre ++ x :: post)
    (hh : Here s wi w w.space.toNat (w.sew / 8) .read (unitSum a w) pre key) (hp : PathsClear s wi w (elemSpans key (w.sew / 8) pre) false)
    (hs : spaceAddr w.space.toNat (unitSum a w x) = some addr) (hx : s.resolve wi w addr (w.sew / 8) (w.sew / 8) .read = .trap c sub) :
    ∃ (L : List VAcc) (z : VecAccess), z.d = d ∧ z.op = .load ∧ z.keys = []
      ∧ z.got = pre.map (fun j => (j, ⟨readHere s (key j) (w.sew / 8), s.poisoned (key j) (w.sew / 8)⟩))
      ∧ exec (.vld d a) s = .next (((s.accessState w sp L).vecCut wi w z x).takeTrap wi si sp.pc ⟨c, sub, addr⟩ false false).bump := by
  have hl := hereAcc_of_here hh
  have hy : unitAcc s wi w a x = ⟨x, addr, .trap c sub, 0⟩ := by rw [unitAcc, elemAcc_resolved 0 hs, hx]
  have hup : uptoFault ((w.todo sp).map (unitAcc s wi w a)) = pre.map (unitAcc s wi w a) ++ [⟨x, addr, .trap c sub, 0⟩] := by
    rw [ht, List.map_append, uptoFault_here hl, List.map_cons, hy, uptoFault]
    rfl
  generalize hL : pre.map (unitAcc s wi w a) ++ [⟨x, addr, .trap c sub, 0⟩] = L at hup
  have haway : L.any VAcc.away = false := by
    rw [← hL, List.any_append, away_here hl]
    rfl
  have hspan : accSpans (w.sew / 8) L = elemSpans key (w.sew / 8) pre := by
    rw [← hL, accSpans, List.filterMap_append, ← accSpans, accSpans_here _ hl]
    exact List.append_nil _
  refine ⟨L, { loadStart w d L none with
    todo := [], got := pre.map (fun j => (j, (s.accessState w sp L).readAt (key j) (w.sew / 8))), bad := some (⟨x, addr, .trap c sub, 0⟩, ⟨c, sub, addr⟩) },
    rfl, rfl, rfl, reads_of_here L hh, ?_⟩
  have hv := vecAccess_near (si := si) hup haway (by rw [hspan]; exact pathWait_clear hp)
    (fun k => performOn_fault (s.accessState w sp L) w d ⟨[], [], some 0⟩ k hl hL.symm rfl) rfl
  rw [exec_vld, State.vload, vec_ready h hr]
  refine congrArg _ ((congrArg (fun r : Res => s.retire wi si sp (r.streamsAfter wi _)) hv).trans ?_)
  exact trapOr_closed _ si sp.pc ⟨c, sub, addr⟩ false false h.wave hc

/-- A load cut at an element: its registers put in, and the wave cut there. -/
theorem vecCut_load {u : State} {z : VecAccess} {x : Nat} (ho : z.op = .load) (hk : z.keys = []) :
    ∃ whole bad, u.vecCut wi w z x = (u.putRegs wi w z.d.toNat
      ((List.range w.grp).map (fun r => (w.loadFile (u.vfile w.vfile) z.d.toNat z.got).reg (z.d.toNat + r))) whole bad).updWave wi (fun w => w.cutAt x) := by
  unfold State.vecCut
  rw [ho, hk, List.map_nil, heal_nil]
  exact ⟨_, _, rfl⟩

theorem vecCut_leaves {u : State} {z : VecAccess} {x : Nat} (hw : u.waves[wi]? = some w) (ho : z.op = .load) (hk : z.keys = []) :
    ∃ w', (u.vecCut wi w z x).waves[wi]? = some w' ∧ w'.esr = x ∧ w'.s = w.s ∧ w'.splits = w.splits
      ∧ (u.vecCut wi w z x).mem = u.mem ∧ (u.vecCut wi w z x).pois = u.pois := by
  obtain ⟨whole, bad, e⟩ := vecCut_load (wi := wi) (w := w) (u := u) (x := x) ho hk
  rw [e]
  exact ⟨_, updWave_wave _ (updWave_wave (s := u.updVFile w.vfile _) _ hw), rfl, rfl, rfl, rfl, rfl⟩

/-! ### A first-fault load cut short -/

theorem exec_vldf (d a : Reg) (s : State) : exec (.vldf d a) s = execVldf d a s := rfl

/-- The accesses of a first-fault load up to the element it ends at. -/
theorem vldfGood_cut {a : Reg} {n y x : Nat} {pre post : List Nat} (hn : (y :: pre ++ x :: post).Nodup) (hi : ∀ j, (unitAcc s wi w a j).i = j)
    (hp : ∀ j ∈ pre, s.foreignAcc n (unitAcc s wi w a j) = false) (hx : s.foreignAcc n (unitAcc s wi w a x) = true) :
    s.vldfGood n y ((y :: pre ++ x :: post).map (unitAcc s wi w a)) = (y :: pre).map (unitAcc s wi w a) := by
  have hxy : x ≠ y := by
    rintro rfl
    exact (List.nodup_cons.1 hn).1 (by simp)
  have hpre (l : List Nat) (hl : ∀ j ∈ l, s.foreignAcc n (unitAcc s wi w a j) = false) :
      s.vldfGood n y ((l ++ x :: post).map (unitAcc s wi w a)) = l.map (unitAcc s wi w a) := by
    induction l with
    | nil =>
      rw [List.nil_append, List.map_cons, State.vldfGood, if_pos (by rw [hi, hx, Bool.and_true, decide_eq_true_eq]; exact hxy)]
      rfl
    | cons j l ih =>
      rw [List.cons_append, List.map_cons, State.vldfGood, hl j List.mem_cons_self, Bool.and_false, if_neg Bool.false_ne_true, ih fun i h => hl i (List.mem_cons_of_mem _ h)]
      rfl
  rw [List.cons_append, List.map_cons, State.vldfGood, if_neg, hpre pre hp]
  · rfl
  · rw [hi]
    simp

theorem unitAcc_i (s : State) (wi : Nat) (w : Wave) (a : Reg) (j : Nat) : (unitAcc s wi w a j).i = j := by
  unfold unitAcc State.elemAcc
  split <;> rfl

/-- A first-fault load ends at the first element after its lowest active one that it cannot read. -/
theorem vldf_ends {d a : Reg} {key : Nat → Nat} {y : Nat} {pre post : List Nat} {x : Nat}
    (h : Issues s wi si w sp) (hst : Straight sp) (hstr : w.streams = []) (hr : VecReady s wi w { ss := [(a, 0)], writes := [(d.toNat, w.grp)] })
    (ht : w.todo sp = y :: pre ++ x :: post) (hy : (w.actives sp).head? = some y)
    (hh : Here s wi w w.space.toNat (w.sew / 8) .read (unitSum a w) (y :: pre) key) (hp : PathsClear s wi w (elemSpans key (w.sew / 8) (y :: pre)) false)
    (hpre : ∀ j ∈ pre, s.poisoned (key j) (w.sew / 8) = false
      ∧ ∃ a', spaceAddr w.space.toNat (unitSum a w j) = some a' ∧ s.resolve wi w a' (w.sew / 8) (w.sew / 8) .read = .ok (.here (key j) false))
    (hx : ∃ addr, spaceAddr w.space.toNat (unitSum a w x) = some addr ∧ ∃ c sub, s.resolve wi w addr (w.sew / 8) (w.sew / 8) .read = .trap c sub) :
    ∃ (L : List VAcc) (z : VecAccess), z.d = d ∧ z.op = .load ∧ z.keys = [] ∧ z.mode = w.wmode ∧ z.ldf = some (y, some x)
      ∧ z.got = (y :: pre).map (fun j => (j, ⟨readHere s (key j) (w.sew / 8), s.poisoned (key j) (w.sew / 8)⟩))
      ∧ exec (.vldf d a) s = .next (stepped ((s.accessState w sp L).vecDone wi w z) wi si sp) := by
  have hl := hereAcc_of_here hh
  have hfirst : (w.actives sp).headD 0 = y := by rw [List.headD_eq_head?_getD, hy]; rfl
  have hgood := vldfGood_cut (s := s) (n := w.sew / 8) (ht ▸ todo_nodup w sp) (unitAcc_i s wi w a)
    (fun j hj => by
      obtain ⟨hb, a', hs, hk⟩ := hpre j hj
      rw [unitAcc, elemAcc_resolved 0 hs, hk]
      exact hb)
    (by
      obtain ⟨addr, hs, c, sub, hk⟩ := hx
      rw [unitAcc, elemAcc_resolved 0 hs, hk]
      rfl)
  generalize hL : (y :: pre).map (unitAcc s wi w a) = L at hgood
  have hcut : (((w.todo sp).map (unitAcc s wi w a)).drop L.length).head?.map VAcc.i = some x := by
    rw [ht, List.map_append, hL, List.drop_left, List.map_cons]
    exact congrArg some (unitAcc_i s wi w a x)
  refine ⟨L, { loadStart w d L (some (y, some x)) with todo := [], got := (y :: pre).map (fun j => (j, (s.accessState w sp L).readAt (key j) (w.sew / 8))) },
    rfl, rfl, rfl, rfl, rfl, reads_of_here L hh, ?_⟩
  have hv := vecAccess_near (si := si) (l := L) (todo := L) (by rw [← hL]; exact uptoFault_all hl) (by rw [← hL]; exact away_here hl)
    (by rw [← hL, accSpans_here _ hl]; exact pathWait_clear hp)
    (fun k => performOn_here (s.accessState w sp L) w d (some (y, some x)) ⟨[], [], some 0⟩ k hl hL.symm) rfl
  rw [exec_vldf, execVldf, vec_ready h hr]
  refine congrArg _ ((congrArg (fun r : Res => s.retire wi si sp (r.streamsAfter wi _)) (Eq.trans ?_ hv)).trans ?_)
  · dsimp only
    have htodo : s.vecTodo wi w sp .read (unitSum a) (fun _ => 0) = (w.todo sp).map (unitAcc s wi w a) := rfl
    rw [hfirst, htodo, ht, hgood, ← ht, hcut]
  · exact (retire_done hst).trans (by rw [streamsAfter_none _ hstr])

/-- What a load that ended at element `x` leaves in its wave. -/
def Wave.loadEnd (w : Wave) (z : VecAccess) (x : Nat) (regs : List VReg) (whole bad : List Bool) : Wave :=
  { w.uncut with vl := min w.vl x, vFull := fullRegs w.vFull z.d.toNat regs.length false, pend := w.pend ++ [.vector z.d regs whole bad] }

theorem vecDone_cut {u : State} {z : VecAccess} {y x : Nat} (ho : z.op = .load) (hk : z.keys = []) (hm : z.mode = w.wmode) (hz : z.ldf = some (y, some x))
    (hgot : z.got.takeWhile (fun p => p.1 == y || !p.2.bad) = z.got) :
    ∃ whole, u.vecDone wi w z = u.updWave wi (fun w' => w'.loadEnd z x
      ((List.range w.grp).map (fun r => (w.loadFile (u.vfile w.vfile) z.d.toNat z.got).reg (z.d.toNat + r))) whole
      ((List.range w.grp).map (fun r => (z.got.filter (fun p => (w.elemAt w.sew p.1).1 == r)).any (fun p => p.2.bad)))) := by
  have hkept : z.kept = (z.got, some x) := by
    rw [VecAccess.kept, hz]
    dsimp only
    rw [hgot, List.drop_length]
    rfl
  unfold State.vecDone
  rw [hkept, hm, hk, List.map_nil, heal_nil]
  simp only [ho, reduceCtorEq, if_false]
  exact ⟨_, rfl⟩

theorem fullRegs_empty (f : BitVec 32) (n count : Nat) {m : Nat} (hm : m < 32) :
    (fullRegs f n count false).getLsbD m = (f.getLsbD m && !(decide (n ≤ m) && decide (m < n + count))) := by
  induction count generalizing f n with
  | zero =>
    have : (decide (n ≤ m) && decide (m < n + 0)) = false := by rw [← Bool.decide_and, decide_eq_false]; omega
    rw [fullRegs, this, Bool.not_false, Bool.and_true]
  | succ count ih =>
    rw [fullRegs, ih, setBit32_get _ _ _ hm]
    by_cases e : n = m
    · subst e; simp
    · rw [if_neg e, ← Bool.decide_and, ← Bool.decide_and, decide_eq_decide.2 (show (n + 1 ≤ m ∧ m < n + 1 + count) ↔ (n ≤ m ∧ m < n + (count + 1)) by omega)]

theorem good_wave (hg : Good s) (hw : s.waves[wi]? = some w) : w.vl ≤ w.vlmax ∧ w.vfile < s.vfiles.length ∧ w.half < 2 := by
  obtain ⟨-, -, h, -⟩ := hg
  exact h w (List.mem_of_getElem? hw)

end

/-- Settles O29: the elements before the fault are performed one after the other; a VLD is then cut, a VLDF ends. -/
theorem vectorLoadFaults : Obligations.VectorLoadFaults := by
  unfold Obligations.VectorLoadFaults
  refine ⟨fun s wi si w sp d a key pre post x addr c sub hg h hc hr ht => ?_, fun s wi si w sp d a key y pre post x hg h hst hstr hr ht hy => ?_⟩
  · intro n sum hh hp hs hx
    obtain ⟨hvl, hvf, hhalf⟩ := good_wave hg h.wave
    obtain ⟨L, z, rfl, ho, hk, hgot, he⟩ := vld_faults h hc hr ht hh hp hs hx
    have hw := (accessState_waves (w := w) (sp := sp) L).symm ▸ h.wave
    have hl : ∀ j ∈ pre, j < w.vlmax := fun j hj => lt_of_lt_of_le (todo_sub w sp (ht ▸ List.mem_append_left _ hj)) hvl
    have hnodup : pre.Nodup := (ht ▸ todo_nodup w sp).of_append_left
    obtain ⟨w', h1, h2, h3, h4, h5, h6⟩ := vecCut_leaves (x := x) hw ho hk
    refine ⟨_, w', he, h1, h2, h3, h4, ?_, ?_⟩
    · obtain ⟨whole, bad, e⟩ := vecCut_load (wi := wi) (w := w) (u := s.accessState w sp L) (x := x) ho hk
      have hg := loadFile_fileElements (s := s) (n := n) (key := key) (f := (s.accessState w sp L).vfile w.vfile) (fun _ _ => rfl) hhalf
        (group_fits hr List.mem_cons_self) hl hnodup
      rw [← hgot] at hg
      have hput := putRegs_fileElements (wi := wi) whole bad (by rw [accessState_files]; exact hvf) (fun x hx => by
        obtain ⟨j, hj, rfl⟩ := List.mem_map.1 hx
        exact hl j hj) hg
      rw [e]
      exact fileElements_congr (fun m _ => (accessState_vfile L w.vfile m).symm) (fun _ _ => rfl) hput
    · exact ⟨fun b => by rw [h5, accessState_mem], by rw [h6, accessState_pois]⟩
  · intro n sum hh hp hpre hx
    obtain ⟨hvl, hvf, hhalf⟩ := good_wave hg h.wave
    obtain ⟨L, z, rfl, ho, hk, hm, hz, hgot, he⟩ := vldf_ends h hst hstr hr ht hy hh hp hpre hx
    have hl : ∀ j ∈ y :: pre, j < w.vlmax := fun j hj => lt_of_lt_of_le (todo_sub w sp (ht ▸ List.mem_append_left _ hj)) hvl
    have hnodup : (y :: pre).Nodup := (ht ▸ todo_nodup w sp).of_append_left
    have hkeep : z.got.takeWhile (fun p => p.1 == y || !p.2.bad) = z.got := by
      rw [hgot, List.takeWhile_eq_self_iff]
      intro p hp
      obtain ⟨j, hj, rfl⟩ := List.mem_map.1 hp
      rcases List.mem_cons.1 hj with rfl | hj
      · simp
      · simp [(hpre j hj).1, n]
    obtain ⟨whole, e⟩ := vecDone_cut (wi := wi) (u := s.accessState w sp L) ho hk hm hz hkeep
    rw [e] at he
    have hw := (accessState_waves (w := w) (sp := sp) L).symm ▸ h.wave
    have hxvl : x < w.vl := todo_sub w sp (ht ▸ List.mem_append_right _ List.mem_cons_self)
    refine ⟨_, he, ?_, ?_, ?_⟩
    · refine ⟨_, w.loadFile ((s.accessState w sp L).vfile w.vfile) z.d.toNat z.got, _, _, _, stepped_wave si sp (updWave_wave _ hw), rfl, rfl, ?_, ?_, fun r hr => ?_, rfl, rfl,
        Nat.min_eq_right hxvl.le, rfl, rfl, rfl, rfl, rfl, fun lane hlane => (laneAt_advance (w := w.loadEnd z x _ whole _) h.split).2 (.inl ⟨hlane, rfl⟩)⟩
      · rw [hgot]
        exact loadFile_fileElements (fun m _ => (accessState_vfile L w.vfile m).symm) hhalf (group_fits hr List.mem_cons_self) hl hnodup
      · rw [hgot]
        refine List.map_congr_left fun r _ => ?_
        rw [List.any_filter, List.any_map]
        rfl
      · refine (fullRegs_empty w.vFull z.d.toNat _ hr).trans ?_
        rw [List.length_map, List.length_range]
        rfl
    · exact ⟨fun b => congrArg (memRead · b) (accessState_mem L), accessState_pois L⟩
    · intro j hj
      rw [stepped_waves, updAt_get_other _ _ hj]
      exact (updAt_get_other _ _ hj).trans (by rw [accessState_waves])

end Sys2Proof.Machine
end

section
/-! SUPPORT. A step (spec/08 R203, spec/10 R222): what an issue slot holds, the word it fetches, the accounts a step keeps, and the statement O56. -/

namespace Sys2Proof.Machine
open Sys2Proof Sys2Proof.Claims Sys2Proof.Laws

set_option Elab.async false

/-! ### The turn that comes next -/

theorem nextTurn_agenda {s : State} {t : Turn} {l : List Turn} (h : s.agenda = t :: l) : s.nextTurn exec = .turn { s with agenda := l } t := by
  rw [State.nextTurn, h]

/-! ### The accounts of a step -/

/-- Time, CYCLE and the accounts of clusters: what the end of a step changes. -/
theorem pass_only (u : State) (ns : Nat) (withheld : Nat → Bool) : { u.pass ns withheld with time := u.time, cores := u.cores, clusters := u.clusters } = u := rfl

theorem pass_cores (u : State) (ns : Nat) (withheld : Nat → Bool) :
    (u.pass ns withheld).cores.map (fun c => { c with cycle := 0 }) = u.cores.map (fun c => { c with cycle := 0 }) := by
  refine List.ext_getElem? fun j => ?_
  simp only [State.pass, List.getElem?_map, List.getElem?_zipIdx, Option.map_map]
  rfl

theorem debit_only (u t : State) (core wi : Nat) (mem : Bool) : { u.debit t core wi mem with clusters := t.clusters } = t := by
  unfold State.debit
  dsimp only
  split <;> rfl

/-- A state that differs in lane-cycle counters. -/
def LanesOf (t x : State) : Prop := { x with vfiles := t.vfiles } = t ∧ x.vfiles.map (·.v) = t.vfiles.map (·.v)

theorem LanesOf.ite {t a b : State} {c : Prop} [Decidable c] (ha : LanesOf t a) (hb : LanesOf t b) : LanesOf t (if c then a else b) := by
  split
  · exact ha
  · exact hb

theorem addLanes_files (u : State) (w : Wave) (a b c d e : Nat) : (u.addLanes w a b c d e).vfiles.map (·.v) = u.vfiles.map (·.v) :=
  updAt_map_of _ _ _ fun _ => rfl

theorem LanesOf.addLanes {t x : State} (h : LanesOf t x) (w : Wave) (a b c d e : Nat) : LanesOf t (x.addLanes w a b c d e) :=
  ⟨h.1, (addLanes_files x w a b c d e).trans h.2⟩

/-- The lane-cycle counters change nothing of the vector registers. -/
theorem countLanes_lanes (s t : State) (core : Nat) (ran : Option Nat) (clears : Bool) : LanesOf t (s.countLanes t exec core ran clears) := by
  unfold State.countLanes
  refine List.foldlRecOn (s.wavesOn core) _ (motive := LanesOf t) ⟨rfl, rfl⟩ fun x hx wi _ => ?_
  cases s.waves[wi]? with
  | none => exact hx
  | some w => exact .ite hx (.ite hx (.ite (hx.addLanes w ..) (hx.addLanes w ..)))

theorem timed_accounts (s u : State) : ∃ t, s.timed exec (.next u) = .next t ∧ { t with time := u.time, cores := u.cores, clusters := u.clusters } = u
    ∧ t.cores.map (fun c => { c with cycle := 0 }) = u.cores.map (fun c => { c with cycle := 0 }) := ⟨_, rfl, rfl, pass_cores ..⟩

theorem slotDone_accounts (s u : State) (core : Nat) (ran : Option Nat) (i : Option Instr) : ∃ t, s.slotDone exec core ran i (.next u) = .next t
    ∧ { t with time := u.time, cores := u.cores, clusters := u.clusters, vfiles := u.vfiles } = u ∧ t.vfiles.map (fun f => f.v) = u.vfiles.map (fun f => f.v) := by
  have hd : ∃ (v : State) (clears : Bool), { v with clusters := u.clusters } = u ∧ s.slotDone exec core ran i (.next u) = s.timed exec (.next (s.countLanes v exec core ran clears)) := by
    cases ran with
    | none => exact ⟨u, _, rfl, rfl⟩
    | some wi => cases i with
      | none => exact ⟨u, _, rfl, rfl⟩
      | some i => exact ⟨_, _, debit_only s u core wi (vecMem i), rfl⟩
  obtain ⟨v, clears, hv, e⟩ := hd
  obtain ⟨h1, h2⟩ := countLanes_lanes s v core ran clears
  refine ⟨_, e, ?_, ?_⟩
  · have h3 := congrArg (fun x : State => { x with time := u.time, cores := u.cores, clusters := u.clusters, vfiles := u.vfiles }) h1
    have h4 := congrArg (fun x : State => { x with time := u.time, cores := u.cores, vfiles := u.vfiles }) hv
    exact h3.trans h4
  · exact h2.trans (congrArg (fun x : State => x.vfiles.map (·.v)) hv)

/-! ### What an issue slot holds -/

/-- A slot given to wave `wi` of a core. -/
def SlotOf (s u : State) (core wi : Nat) : Prop :=
  s.begin.nextTurn exec = .turn u (.core core) ∧ u.pick exec core = some wi
    ∨ s.begin.nextTurn exec = .turn u (.wave wi) ∧ u.ready wi = true ∧ u.homeOf wi = core ∧ u.allowed exec core (u.levelOf wi) = true

/-- The outcome of a slot with its accounts. -/
def State.slotEnds (u : State) (core : Nat) : Slotful → Out State
  | .run s' wi i => s'.slotDone exec core (some wi) (some i) (exec i s')
  | .over ran o => u.slotDone exec core ran none o

theorem step_slot {s u : State} {core wi : Nat} {w : Wave} (h : SlotOf s u core wi) (hw : u.waves[wi]? = some w) : step s = u.slotEnds core (u.issueWave exec wi w) := by
  rcases h with ⟨ht, hp⟩ | ⟨ht, hr, hc, ha⟩
  · have hi : u.issueCore exec core = u.issueWave exec wi w := by rw [State.issueCore, hp]; dsimp only; rw [hw]
    rw [step, ht]
    dsimp only
    rw [hi]
    cases u.issueWave exec wi w <;> rfl
  · have hcore : u.coreOf w = core := by rw [← hc, State.homeOf, hw]
    have hi : u.issueOne exec wi = u.issueWave exec wi w := by
      rw [State.issueOne, hw]
      dsimp only
      rw [hcore, hr, ha]
      rfl
    rw [step, ht]
    dsimp only
    rw [hi, hc]
    cases u.issueWave exec wi w <;> rfl

section
variable {u : State} {wi si : Nat} {w : Wave} {sp : Split}

theorem issueWave_due (hi : u.issuing w = some si) (hs : w.splits[si]? = some sp) {t : Trap} (hd : sp.due = some t) :
    u.issueWave exec wi w = .over (some wi) (.next (u.trapOr u wi si sp.pc t false false)) := by
  simp only [State.issueWave, hi, Option.bind_some, hs, Option.map_some, hd]

theorem issueWave_on (hi : u.issuing w = some si) (hs : w.splits[si]? = some sp) (hd : sp.due = none) : u.issueWave exec wi w
    = if (u.hitting w sp).isEmpty || u.found wi si ((u.issueSplit wi si w sp).out exec) then u.issueSplit wi si w sp else .over (some wi) (execComparatorHit wi u) := by
  simp only [State.issueWave, hi, Option.bind_some, hs, Option.map_some, hd]

/-- A slot past the comparators. -/
theorem issueWave_past (hi : u.issuing w = some si) (hs : w.splits[si]? = some sp) (hd : sp.due = none)
    (hp : u.hitting w sp = [] ∨ u.found wi si ((u.issueSplit wi si w sp).out exec) = true) : u.issueWave exec wi w = u.issueSplit wi si w sp := by
  rw [issueWave_on hi hs hd]
  refine if_pos ?_
  rcases hp with h | h
  · rw [h]; rfl
  · rw [h, Bool.or_true]

/-- The state in which split `si` of wave `wi` issues. -/
def State.atSplit (u : State) (wi si : Nat) (w : Wave) : State := ({ u with cur := ⟨wi, si, u.cur.run, u.cur.fn⟩ } : State).serve w

theorem issueSplit_goes (ha : u.asyncDue w = false) (hg : w.asyncPends = false ∨ w.lookHeld = true) {y : State} {x : IWord} {i : Instr}
    (hf : (u.atSplit wi si w).fetch wi si w sp = .word y x) (hx : decodeWord x = .instr i) :
    u.issueSplit wi si w sp = if w.mayIssue i then .run y wi i else .over (some wi) (.next (y.stall wi si)) := by
  have hgo : (w.asyncPends && !w.lookHeld) = false := by
    rcases hg with h | h <;> rw [h]
    · rfl
    · rw [Bool.not_true, Bool.and_false]
  rw [State.issueSplit, ha, hgo]
  unfold State.atSplit at hf
  simp only [Bool.false_eq_true, if_false, hf, hx]

theorem fetch_buffered (v : State) {x : IWord} {l : List IWord} (h : sp.buffered = x :: l) : v.fetch wi si w sp = .word (v.buffer wi si sp.pc (x :: l)) x := by
  rw [State.fetch, h]

/-- A word that the cluster holds no copy of comes from memory. -/
theorem codeAt_memory {v : State} {cl key : Nat} (hc : (v.cluster cl).icache.find? (fun y => y.1 == key) = none) (hp : v.poisoned key 4 = false) :
    v.codeAt cl key = some (bytesAt v.mem key 4) := by
  rw [State.codeAt, hc]
  dsimp only
  rw [hp, State.readN, leValue_memReadBytes]
  exact congrArg some (BitVec.eq_of_toNat_eq (by rw [BitVec.toNat_ofNat, Nat.mod_eq_of_lt (bytesAt v.mem key 4).isLt]))

theorem fetch_memory {v : State} {key : Nat} {dc : Bool} (hb : sp.buffered = []) (hh : highBits sp.pc = false) (h56 : bit sp.pc.toNat 56 = false)
    (ht : v.translate (v.ctxOf w) (v.coreOf w) sp.pc.toNat .fetch = .ok (.here key dc))
    (hc : ((v.dropLine (clusterOf (v.coreOf w)) key).cluster (clusterOf (v.coreOf w))).icache.find? (fun y => y.1 == key) = none) (hp : v.poisoned key 4 = false) :
    ∃ l, v.fetch wi si w sp = .word ((((v.dropLine (clusterOf (v.coreOf w)) key).fillTlb (v.ctxOf w) (v.coreOf w) sp.pc.toNat).keepCode (clusterOf (v.coreOf w)) key
      (bytesAt v.mem key 4 :: l)).buffer wi si sp.pc (bytesAt v.mem key 4 :: l)) (bytesAt v.mem key 4) := by
  have hcode := codeAt_memory hc (show (v.dropLine (clusterOf (v.coreOf w)) key).poisoned key 4 = false from hp)
  obtain ⟨n, hn⟩ : ∃ n, 16 - sp.pc.toNat / 4 % 16 = n + 1 := ⟨15 - sp.pc.toNat / 4 % 16, by omega⟩
  rw [State.fetch, hb]
  simp only [hh, h56, ht, Bool.false_eq_true, if_false, hn, State.codeFrom, hcode]
  exact ⟨_, rfl⟩

theorem atSplit_coreOf : (u.atSplit wi si w).coreOf w = u.coreOf w := by
  unfold State.atSplit State.serve
  split <;> rfl

end

/-- Settles O56: each kind of turn by its branch of `step`, the slot of a wave by the three stages of `issueWave`. -/
theorem stepRunsDecoded : Obligations.StepRunsDecoded := by
  unfold Obligations.StepRunsDecoded
  refine ⟨fun s t l h => nextTurn_agenda (s := s.begin) (by rw [State.begin_agenda, h]), fun s u core wi si w sp h hw hi hs => ?_, fun s u n r i ht hr hf hd => ?_,
    fun s u i ht => by rw [step, ht], fun s u fn i ht => by rw [step, ht], fun s u cl ns ht => by rw [step, ht],
    fun s u core ran i => ⟨timed_accounts s u, slotDone_accounts s u core ran i⟩⟩
  · have hstep := step_slot h hw
    refine ⟨fun t hd => ?_, fun hd hh hf => ?_, fun hd hp ha => ?_⟩
    · rw [hstep, issueWave_due hi hs hd]
      rfl
    · rw [hstep, issueWave_on hi hs hd, hf, List.isEmpty_eq_false_iff.2 hh]
      rfl
    · rw [issueWave_past hi hs hd hp] at hstep
      intro v cl goesOn
      have hcl : clusterOf (v.coreOf w) = cl := congrArg clusterOf (atSplit_coreOf (u := u) (wi := wi) (si := si) (w := w))
      refine ⟨fun hg => ?_, fun x l i hg hb hx => ?_, fun key dc i hg hm hb hh h56 ht hc hp hx => ?_⟩
      · obtain ⟨hg1, hg2⟩ := not_or.1 hg
        have hstop : (w.asyncPends && !w.lookHeld) = true := by rw [Bool.eq_true_of_not_eq_false hg1, Bool.eq_false_of_not_eq_true hg2]; rfl
        rw [hstep, State.issueSplit, ha, hstop]
        rfl
      · have hgo := issueSplit_goes ha hg (fetch_buffered v hb) hx
        rw [hstep, hgo]
        refine ⟨fun hm => ?_, fun hm => ?_⟩ <;> rw [hm] <;> rfl
      · rw [← hcl] at hc ⊢
        obtain ⟨l, hf⟩ := fetch_memory (wi := wi) (si := si) hb hh h56 ht hc hp
        refine ⟨l, ?_⟩
        rw [hstep, issueSplit_goes ha hg hf hx, hm]
        rfl
  · have hw : u.plumbWord n = some i := by
      rw [State.plumbWord, hr]
      dsimp only
      rw [hf]
      exact hd
    rw [step, ht]
    dsimp only
    rw [hw]

end Sys2Proof.Machine
end

section
/-! SUPPORT. A block launched (spec/14 R283): its waves, its resources, and what a launch leaves unchanged. -/

namespace Sys2Proof.Machine
open Sys2Proof Sys2Proof.Claims Sys2Proof.Laws

set_option Elab.async false

theorem updAt_length_append {α : Type} (l : List α) (x : α) (f : α → α) : updAt (l ++ [x]) l.length f = l ++ [f x] := by
  induction l with
  | nil => rfl
  | cons y l ih => exact congrArg (y :: ·) ih

/-! ### Waves -/

/-- Waves `w` and vector files `f` added, the waves numbered `l` to block `bi`. -/
def State.addWaves (s : State) (bi : Nat) (w : List Wave) (f : List VFile) (l : List Nat) : State :=
  { s with waves := s.waves ++ w, vfiles := s.vfiles ++ f, blocks := updAt s.blocks bi (fun b => { b with waves := b.waves ++ l }) }

theorem updAt_id {α : Type} (l : List α) (i : Nat) (f : α → α) (h : ∀ x, f x = x) : updAt l i f = l := by
  refine List.ext_getElem? fun j => ?_
  rw [updAt_get]
  split
  · cases l[j]? with
    | none => rfl
    | some x => exact congrArg some (h x)
  · rfl

theorem State.addWaves_nil (s : State) (bi : Nat) : s.addWaves bi [] [] [] = s := by
  rw [State.addWaves, updAt_id _ _ _ fun b => by rw [List.append_nil], List.append_nil, List.append_nil]

theorem State.addWaves_addWaves (s : State) (bi : Nat) (w w' : List Wave) (f f' : List VFile) (l l' : List Nat) :
    (s.addWaves bi w f l).addWaves bi w' f' l' = s.addWaves bi (w ++ w') (f ++ f') (l ++ l') := by
  simp only [State.addWaves, updAt_updAt, List.append_assoc]

/-- The native waves of a launch. -/
def nativeLaunch (bi vi : Nat) (entry handler s1 : Word) (n : Nat) : List Wave :=
  (List.range n).map (fun i => Wave.launch bi i 0 none (vi + i) false entry handler s1)

theorem launchWaves_native (s : State) (bi : Nat) (entry handler s1 : Word) (n : Nat) : s.launchWaves bi false entry handler s1 n
    = s.addWaves bi (nativeLaunch bi s.vfiles.length entry handler s1 n) (List.replicate n VFile.blank) ((List.range n).map (s.waves.length + ·)) := by
  induction n with
  | zero => exact (s.addWaves_nil bi).symm
  | succ n ih =>
    have hw : (s.launchWaves bi false entry handler s1 n).waves.length = s.waves.length + n := by rw [ih]; simp [State.addWaves, nativeLaunch]
    have hv : (s.launchWaves bi false entry handler s1 n).vfiles.length = s.vfiles.length + n := by rw [ih]; simp [State.addWaves]
    have hstep : s.launchWaves bi false entry handler s1 (n + 1) = (s.launchWaves bi false entry handler s1 n).addWaves bi
        [Wave.launch bi n 0 none (s.launchWaves bi false entry handler s1 n).vfiles.length false entry handler s1] [VFile.blank]
        [(s.launchWaves bi false entry handler s1 n).waves.length] := rfl
    rw [hstep, hw, hv, ih, State.addWaves_addWaves, nativeLaunch, nativeLaunch, List.range_succ, List.map_append, List.map_append, ← List.replicate_succ']
    rfl

/-- Launching waves adds waves and vector files, and the waves to their block. -/
theorem launchWaves_only (s : State) (bi : Nat) (legacy : Bool) (entry handler s1 : Word) (n : Nat) :
    ∃ w f l, s.launchWaves bi legacy entry handler s1 n = s.addWaves bi w f l := by
  induction n with
  | zero => exact ⟨[], [], [], (s.addWaves_nil bi).symm⟩
  | succ n ih =>
    obtain ⟨w, f, l, ih⟩ := ih
    have hstep : ∃ w' f' l', s.launchWaves bi legacy entry handler s1 (n + 1) = (s.launchWaves bi legacy entry handler s1 n).addWaves bi w' f' l' :=
      ⟨_, _, _, rfl⟩
    obtain ⟨w', f', l', hstep⟩ := hstep
    exact ⟨w ++ w', f ++ f', l ++ l', by rw [hstep, ih, State.addWaves_addWaves]⟩

/-! ### A block with its resources -/

theorem holdPin_core (s : State) (core c : Nat) :
    { (s.holdPin core).core c with vlcap := (s.core c).vlcap, power := (s.core c).power } = s.core c := by
  unfold State.holdPin
  cases s.pinOn core with
  | none => rfl
  | some p =>
    exact updAt_getD_keeps (fun x : CoreSt => { x with vlcap := (s.core c).vlcap, power := (s.core c).power }) s.cores core c
      (fun x => { x with vlcap := p.vlcap, power := p.power }) (CoreSt.reset c) fun _ => rfl

theorem holdPin_only (s : State) (core : Nat) : { s.holdPin core with cores := s.cores } = s := by
  unfold State.holdPin
  cases s.pinOn core <;> rfl

/-- The block of a launch with its resources, before its waves. -/
def State.placedBlock (s : State) (b : Block) : Block :=
  { b with
    scratchBase := (s.scratchFor b.core ((s.obj b.obj).kernel b.kernel).scratch).getD 0
    scratch := ((s.obj b.obj).kernel b.kernel).scratch
    sets := (s.freeSets b.core).take ((s.obj b.obj).kernel b.kernel).accsets }

/-- The state in which the waves of a block are launched: the block placed, its scratchpad and sets zeroed, its cluster awake, its job told. -/
def State.place (s : State) (b : Block) : State :=
  let k := (s.obj b.obj).kernel b.kernel
  let u := (({ s with blocks := s.blocks ++ [s.placedBlock b] } : State).clearBytes (memKey .scratch b.core (s.placedBlock b).scratchBase) k.scratch)
  let u := (s.placedBlock b).sets.foldl (fun s n => s.zeroSet b.core n) u
  let u := u.updCluster (clusterOf b.core) (fun c => { c with gated := false })
  match b.job with
  | none => u
  | some j => u.updJob j (fun j => { j with launched := j.launched + 1 })

theorem launchBlock_eq (s : State) (b : Block) (entry : Word) (waves : Nat) (s1 : Word) : s.launchBlock b entry waves s1
    = ((s.place b).launchWaves s.blocks.length ((s.obj b.obj).kernel b.kernel).legacy entry ((s.place b).queue b.queue).handler s1 waves).holdPin b.core := rfl

/-- The jobs after a block of job `j` was launched. -/
def launchedJobs (jobs : List Job) : Option Nat → List Job
  | none => jobs
  | some j => updAt jobs j (fun j => { j with launched := j.launched + 1 })

theorem zeroSets_eq (s : State) (core : Nat) (l : List Nat) : ∃ accs, l.foldl (fun s n => s.zeroSet core n) s = { s with accs := accs } :=
  List.foldlRecOn l _ (motive := fun x : State => ∃ accs, x = { s with accs := accs }) ⟨s.accs, rfl⟩ fun x hx n _ => by
    obtain ⟨accs, rfl⟩ := hx
    exact ⟨_, rfl⟩

/-- What a placed block changes. -/
theorem place_eq (s : State) (b : Block) : ∃ accs clusters pois, s.place b = { s with
    blocks := s.blocks ++ [s.placedBlock b]
    jobs := launchedJobs s.jobs b.job
    mem := (s.clearBytes (memKey .scratch b.core (s.placedBlock b).scratchBase) (s.placedBlock b).scratch).mem
    accs := accs, clusters := clusters, pois := pois } := by
  unfold State.place
  obtain ⟨accs, h⟩ := zeroSets_eq (({ s with blocks := s.blocks ++ [s.placedBlock b] } : State).clearBytes
    (memKey .scratch b.core (s.placedBlock b).scratchBase) ((s.obj b.obj).kernel b.kernel).scratch) b.core (s.placedBlock b).sets
  dsimp only
  rw [h]
  cases hj : b.job <;> exact ⟨_, _, _, rfl⟩

/-- Cores that differ in their caps. -/
def CapsOnly (s t : State) : Prop := ∀ c, { t.core c with vlcap := (s.core c).vlcap, power := (s.core c).power } = s.core c

theorem holdPin_eq (s : State) (core : Nat) : ∃ cores, s.holdPin core = { s with cores := cores } ∧ CapsOnly s { s with cores := cores } := by
  have h : s.holdPin core = { s with cores := (s.holdPin core).cores } :=
    (congrArg (fun x : State => { x with cores := (s.holdPin core).cores }) (holdPin_only s core) :)
  exact ⟨_, h, holdPin_core s core⟩

/-- The state after a launch that put the waves `w`, the vector files `f` and the block `b` at the ends of their lists. -/
def State.withLaunch (s : State) (b : Block) (w : List Wave) (f : List VFile) (cores : List CoreSt) (accs : List (Nat × BitVec 32)) (clusters : List ClusterSt)
    (pois : List Nat) : State :=
  { s with
    waves := s.waves ++ w
    vfiles := s.vfiles ++ f
    blocks := s.blocks ++ [b]
    jobs := launchedJobs s.jobs b.job
    mem := (s.clearBytes (memKey .scratch b.core b.scratchBase) b.scratch).mem
    cores := cores, accs := accs, clusters := clusters, pois := pois }

theorem addWaves_place (s : State) (b : Block) (w : List Wave) (f : List VFile) (l : List Nat) : ∃ accs clusters pois, (s.place b).addWaves s.blocks.length w f l
    = s.withLaunch { s.placedBlock b with waves := b.waves ++ l } w f s.cores accs clusters pois := by
  obtain ⟨accs, clusters, pois, h⟩ := place_eq s b
  refine ⟨accs, clusters, pois, ?_⟩
  rw [h, State.addWaves]
  dsimp only
  rw [updAt_length_append]
  rfl

theorem launchBlock_native {s : State} {b : Block} (hk : ((s.obj b.obj).kernel b.kernel).legacy = false) (entry : Word) (n : Nat) (s1 : Word) :
    ∃ cores accs clusters pois, s.launchBlock b entry n s1
      = s.withLaunch { s.placedBlock b with waves := b.waves ++ (List.range n).map (s.waves.length + ·) }
          (nativeLaunch s.blocks.length s.vfiles.length entry (s.queue b.queue).handler s1 n) (List.replicate n VFile.blank) cores accs clusters pois
      ∧ CapsOnly s { s with cores := cores } := by
  obtain ⟨accs, clusters, pois, h⟩ := place_eq s b
  have hq : (s.place b).queue b.queue = s.queue b.queue := by rw [h]; rfl
  have hw : (s.place b).waves = s.waves := by rw [h]
  have hv : (s.place b).vfiles = s.vfiles := by rw [h]
  obtain ⟨accs, clusters, pois, h⟩ := addWaves_place s b (nativeLaunch s.blocks.length s.vfiles.length entry (s.queue b.queue).handler s1 n)
    (List.replicate n VFile.blank) ((List.range n).map (s.waves.length + ·))
  obtain ⟨cores, hc, hcaps⟩ := holdPin_eq (s.withLaunch { s.placedBlock b with waves := b.waves ++ (List.range n).map (s.waves.length + ·) }
    (nativeLaunch s.blocks.length s.vfiles.length entry (s.queue b.queue).handler s1 n) (List.replicate n VFile.blank) s.cores accs clusters pois) b.core
  exact ⟨cores, accs, clusters, pois, by rw [launchBlock_eq, hk, launchWaves_native, hq, hw, hv, h, hc]; rfl, hcaps⟩

theorem launchBlock_any (s : State) (b : Block) (entry : Word) (n : Nat) (s1 : Word) : ∃ l w f cores accs clusters pois, s.launchBlock b entry n s1
      = s.withLaunch { s.placedBlock b with waves := b.waves ++ l } w f cores accs clusters pois := by
  obtain ⟨w, f, l, hl⟩ := launchWaves_only (s.place b) s.blocks.length ((s.obj b.obj).kernel b.kernel).legacy entry ((s.place b).queue b.queue).handler s1 n
  obtain ⟨accs, clusters, pois, h⟩ := addWaves_place s b w f l
  obtain ⟨cores, hc, -⟩ := holdPin_eq (s.withLaunch { s.placedBlock b with waves := b.waves ++ l } w f s.cores accs clusters pois) b.core
  exact ⟨l, w, f, cores, accs, clusters, pois, by rw [launchBlock_eq, hl, h, hc]; rfl⟩

/-! ### The launch state of a wave -/

section
variable (block index vfile : Nat) (entry handler s1 : Word)

theorem launch_s : (Wave.launch block index 0 none vfile false entry handler s1).s = (Vector.replicate 32 0).set 1 s1 (by decide) := rfl

theorem launch_rd (r : Reg) : (Wave.launch block index 0 none vfile false entry handler s1).rd r = if r = 1 then s1 else 0 := by
  rw [Wave.rd]
  simp only [launch_s, Vector.getElem_set, Vector.getElem_replicate]
  by_cases h1 : r = 1
  · subst h1
    rfl
  · have hn : ¬ 1 = r.toNat := fun e => h1 (BitVec.eq_of_toNat_eq e.symm)
    rw [if_neg h1, if_neg hn, ite_self]

theorem launch_full (r : Reg) : (Wave.launch block index 0 none vfile false entry handler s1).sIsFull r = true
    ∧ (Wave.launch block index 0 none vfile false entry handler s1).sIsPois r = false := by
  have hf : (Wave.launch block index 0 none vfile false entry handler s1).sFull = BitVec.allOnes 32 := rfl
  have hp : (Wave.launch block index 0 none vfile false entry handler s1).sPois = 0#32 := BitVec.zero_and
  refine ⟨?_, ?_⟩
  · rw [Wave.sIsFull, hf, BitVec.getLsbD_allOnes, decide_eq_true r.isLt, Bool.or_true]
  · rw [Wave.sIsPois, hp, BitVec.getLsbD_zero, Bool.and_false]

theorem launch_rdK {k : BitVec 3} (hk : k ≠ 0) : (Wave.launch block index 0 none vfile false entry handler s1).rdK k = 0 := by
  have h : (Wave.launch block index 0 none vfile false entry handler s1).k = Vector.replicate 8 0 := rfl
  rw [Wave.rdK, if_neg hk]
  simp only [h, Vector.getElem_replicate]
  exact ite_self _

theorem launch_splits : (Wave.launch block index 0 none vfile false entry handler s1).splits = [Split.start (BitVec.allOnes 64) entry (some 0)] := by
  have h : ((8 : BitVec 32).getLsbD 19) = false := by decide
  refine congrArg (fun m => [Split.start m entry (some 0)]) (if_neg ?_)
  rw [Wave.legacy]
  exact Bool.not_eq_true _ ▸ h

theorem launch_wmode : (Wave.launch block index 0 none vfile false entry handler s1).wmode = 8 := rfl

theorem launch_vl : (Wave.launch block index 0 none vfile false entry handler s1).vl = 64 := rfl

end

end Sys2Proof.Machine
end

section
/-! SUPPORT. Spawn bins (spec/10 R225, R226): their timers, and the block a launched bin starts. -/

namespace Sys2Proof.Machine
open Sys2Proof Sys2Proof.Claims Sys2Proof.Laws

set_option Elab.async false

theorem core_updCore {s : State} {core : Nat} (f : CoreSt → CoreSt) (h : core < s.cores.length) : (s.updCore core f).core core = f (s.core core) :=
  updAt_getD_self s.cores core f (CoreSt.reset core) h

/-- Bin `n` of a core. -/
def State.bin (s : State) (core n : Nat) : Option Bin := ((s.core core).bins[n]?).getD none

section
variable {s : State} {core n : Nat} {b : Bin}

theorem runs_iff (s : State) (ci : Nat) : s.runs? ci = true ↔ (s.ctx ci).st = .running := beq_iff_eq

theorem binRipe_iff (s : State) (b : Bin) :
    s.binRipe b = true ↔ b.held = false ∧ b.start + (s.queue (s.block b.block).queue).bint ≤ s.time.toNat := by
  rw [State.binRipe, Bool.and_eq_true, Bool.not_eq_true', decide_eq_true_eq]

theorem exec_binTimerExpiry (core n : Nat) (s : State) : exec (.binTimerExpiry core n) s = execBinTimerExpiry core n s := rfl

theorem binTimer_ripe (hb : s.bin core n = some b) (hr : s.binRipe b = true) : Makes (.binTimerExpiry core n) s (s.launchBin core n b) := by
  rw [State.bin] at hb
  rw [Makes, exec_binTimerExpiry, execBinTimerExpiry, hb]
  exact if_pos hr

theorem binTimer_unripe (hb : s.bin core n = some b) (hr : ¬ s.binRipe b = true) : NotDue (.binTimerExpiry core n) s := by
  rw [State.bin] at hb
  rw [NotDue, exec_binTimerExpiry, execBinTimerExpiry, hb]
  exact if_neg hr

theorem launchBin_running (h : (s.ctx (s.block b.block).ctx).st = .running) : s.launchBin core n b
    = s.updCore core (fun c => { c with bins := updAt c.bins n (fun _ => none), launches := c.launches ++ [b] }) := if_pos ((runs_iff ..).2 h)

theorem launchBin_held (h : (s.ctx (s.block b.block).ctx).st ≠ .running) : s.launchBin core n b
    = s.updCore core (fun c => { c with bins := updAt c.bins n (fun _ => some { b with held := true }) }) := if_neg fun e => h ((runs_iff ..).1 e)

/-! ### The bins of a core whose timers have run out -/

/-- What a bin holds once its timer was looked at: nothing where it is launched. -/
def State.binAfter (s : State) (b : Bin) : Option Bin :=
  if s.binRipe b then if s.runs? (s.block b.block).ctx then none else some { b with held := true } else some b

/-- Bin `n` of a core looked at. -/
def State.ripenBin (core : Nat) (s : State) (n : Nat) : State :=
  match ((s.core core).bins[n]?).getD none with
  | some b => if s.binRipe b then s.launchBin core n b else s
  | none => s

/-- A state that differs in its cores, their number being the same. -/
def CoresOnly (s u : State) : Prop := ∃ c : List CoreSt, u = { s with cores := c } ∧ c.length = s.cores.length

theorem bin_updAt (l : List (Option Bin)) (m n : Nat) (v : Option Bin) (h : (l[m]?).getD none ≠ none) :
    ((updAt l m (fun _ => v))[n]?).getD none = if n = m then v else (l[n]?).getD none := by
  rw [updAt_get]
  by_cases e : n = m
  · subst e
    rw [if_pos rfl, if_pos rfl]
    cases hn : l[n]? with
    | none => rw [hn] at h; exact absurd rfl h
    | some x => rfl
  · rw [if_neg e, if_neg e]

theorem bin_updCore {u : State} (f : CoreSt → CoreSt) (h : core < u.cores.length) (n : Nat) : (u.updCore core f).bin core n = ((f (u.core core)).bins[n]?).getD none := by
  rw [State.bin, core_updCore f h]

theorem CoresOnly.updCore {u : State} (h : CoresOnly s u) (f : CoreSt → CoreSt) : CoresOnly s (u.updCore core f) := by
  obtain ⟨c, rfl, hl⟩ := h
  exact ⟨_, rfl, (updAt_length ..).trans hl⟩

/-- A ripe bin looked at. -/
theorem ripenBin_ripe {u : State} (hb : u.bin core n = some b) (hr : u.binRipe b = true) : u.ripenBin core n = u.launchBin core n b := by
  rw [State.bin] at hb
  rw [State.ripenBin, hb]
  exact if_pos hr

theorem ripenBin_unripe {u : State} (h : ∀ b, u.bin core n = some b → u.binRipe b = false) : u.ripenBin core n = u := by
  unfold State.ripenBin
  split
  · next b hb => rw [h b hb]; rfl
  · rfl

/-- What a look at one bin does to every bin and to the launches of its core. -/
structure Ripened (s : State) (core : Nat) (done : Nat → Prop) (u : State) : Prop where
  only : CoresOnly s u
  after : ∀ n b, done n → s.bin core n = some b → u.bin core n = s.binAfter b
  before : ∀ n, ¬ done n → u.bin core n = s.bin core n
  launched : ∀ n b, done n → s.bin core n = some b → s.binAfter b = none → b ∈ (u.core core).launches

theorem launchBin_ripened {done : Nat → Prop} {u : State} (hu : Ripened s core done u) (hc : core < s.cores.length) (hn : ¬ done n) (hb : s.bin core n = some b)
    (hr : s.binRipe b = true) : Ripened s core (fun m => m = n ∨ done m) (u.launchBin core n b) := by
  obtain ⟨⟨c, rfl, hl⟩, hafter, hbefore, hlaunched⟩ := hu
  have hcu : core < ({ s with cores := c } : State).cores.length := hl ▸ hc
  have hne : ((({ s with cores := c } : State).core core).bins[n]?).getD none ≠ none := by
    have := (hbefore n hn).trans hb
    rw [State.bin] at this
    rw [this]
    exact Option.some_ne_none b
  have key (v : Option Bin) (l : List Bin) (hv : s.binAfter b = v) (hl' : v = none → b ∈ l) :
      Ripened s core (fun m => m = n ∨ done m) (({ s with cores := c } : State).updCore core (fun c => { c with bins := updAt c.bins n (fun _ => v), launches := c.launches ++ l })) := by
    have hbins (m : Nat) : (({ s with cores := c } : State).updCore core (fun c => { c with bins := updAt c.bins n (fun _ => v), launches := c.launches ++ l })).bin core m
        = if m = n then v else ({ s with cores := c } : State).bin core m := (bin_updCore _ hcu m).trans (bin_updAt _ n m v hne)
    refine ⟨CoresOnly.updCore ⟨c, rfl, hl⟩ _, fun m x hm hx => ?_, fun m hm => ?_, fun m x hm hx hnone => ?_⟩
    · rw [hbins]
      by_cases e : m = n
      · subst e
        rw [if_pos rfl, ← hv, Option.some.inj (hb.symm.trans hx)]
      · rw [if_neg e]
        exact hafter m x (hm.resolve_left e) hx
    · rw [hbins, if_neg fun e => hm (.inl e)]
      exact hbefore m fun e => hm (.inr e)
    · rw [core_updCore _ hcu]
      by_cases e : m = n
      · subst e
        obtain rfl := Option.some.inj (hb.symm.trans hx)
        exact List.mem_append_right _ (hl' (hv.symm.trans hnone))
      · exact List.mem_append_left _ (hlaunched m x (hm.resolve_left e) hx hnone)
  by_cases hrun : (s.ctx (s.block b.block).ctx).st = .running
  · rw [launchBin_running (s := { s with cores := c }) hrun]
    exact key none [b] (by rw [State.binAfter, if_pos hr, if_pos ((runs_iff ..).2 hrun)]) fun _ => List.mem_singleton.2 rfl
  · rw [launchBin_held (s := { s with cores := c }) hrun]
    have h := key (some { b with held := true }) [] (by rw [State.binAfter, if_pos hr, if_neg fun e => hrun ((runs_iff ..).1 e)]) fun e => nomatch e
    simpa only [List.append_nil] using h

theorem ripenBin_ripened {done : Nat → Prop} {u : State} (hu : Ripened s core done u) (hc : core < s.cores.length) (hn : ¬ done n) :
    Ripened s core (fun m => m = n ∨ done m) (u.ripenBin core n) := by
  have hrip (b : Bin) : u.binRipe b = s.binRipe b := by
    obtain ⟨⟨c, rfl, hl⟩, -, -, -⟩ := hu
    rfl
  have hstay (h : ∀ b, s.bin core n = some b → s.binRipe b = false) : Ripened s core (fun m => m = n ∨ done m) (u.ripenBin core n) := by
    rw [ripenBin_unripe fun b hb => (hrip b).trans (h b ((hu.before n hn).symm.trans hb))]
    have hkeep (b : Bin) (hb : s.bin core n = some b) : s.binAfter b = some b := by rw [State.binAfter, h b hb]; rfl
    refine ⟨hu.only, fun m x hm hx => ?_, fun m hm => hu.before m fun e => hm (.inr e), fun m x hm hx hnone => ?_⟩
    · rcases hm with rfl | hm
      · rw [hu.before m hn, hkeep x hx, hx]
      · exact hu.after m x hm hx
    · rcases hm with rfl | hm
      · rw [hkeep x hx] at hnone
        exact nomatch hnone
      · exact hu.launched m x hm hx hnone
  cases hb : s.bin core n with
  | none => exact hstay fun b h => nomatch hb.symm.trans h
  | some b =>
    cases hr : s.binRipe b with
    | false => exact hstay fun x hx => Option.some.inj (hb.symm.trans hx) ▸ hr
    | true =>
      rw [ripenBin_ripe ((hu.before n hn).trans hb) ((hrip b).trans hr)]
      exact launchBin_ripened hu hc hn hb hr

theorem ripen_ripened (hc : core < s.cores.length) : Ripened s core (fun n => n < 8) (s.ripen core) := by
  have h (k : Nat) : Ripened s core (fun n => n < k) ((List.range k).foldl (State.ripenBin core) s) := by
    induction k with
    | zero => exact ⟨⟨s.cores, rfl, rfl⟩, fun n _ h => absurd h n.not_lt_zero, fun _ _ => rfl, fun n _ h => absurd h n.not_lt_zero⟩
    | succ k ih =>
      rw [List.range_succ, List.foldl_append]
      have := ripenBin_ripened ih hc (Nat.lt_irrefl k)
      exact (funext fun m => propext (by omega) : (fun n => n < k + 1) = fun m => m = k ∨ m < k) ▸ this
  exact h 8

theorem bin_after (hc : core < s.cores.length) (hn : n < 8) (hb : s.bin core n = some b) : (s.ripen core).bin core n = s.binAfter b :=
  (ripen_ripened hc).after n b hn hb

theorem bin_launched (hc : core < s.cores.length) (hn : n < 8) (hb : s.bin core n = some b) (h : s.binAfter b = none) : b ∈ ((s.ripen core).core core).launches :=
  (ripen_ripened hc).launched n b hn hb h

/-! ### The block of a launched bin -/

theorem findIdx_none {α : Type} {p : α → Bool} {l : List α} (h : ∀ x ∈ l, p x = false) (i : Nat) : findIdx p l i = none := by
  induction l generalizing i with
  | nil => rfl
  | cons x l ih =>
    rw [findIdx, h x List.mem_cons_self]
    exact ih (fun y hy => h y (List.mem_cons_of_mem _ hy)) (i + 1)

theorem findIdx_first {α : Type} {p : α → Bool} {pre : List α} {x : α} (rest : List α) (h : ∀ y ∈ pre, p y = false) (hx : p x = true) (i : Nat) :
    findIdx p (pre ++ x :: rest) i = some (i + pre.length) := by
  induction pre generalizing i with
  | nil => exact if_pos hx
  | cons y pre ih =>
    rw [List.cons_append, findIdx, h y List.mem_cons_self]
    refine (ih (fun z hz => h z (List.mem_cons_of_mem _ hz)) (i + 1)).trans ?_
    rw [List.length_cons, Nat.add_assoc, Nat.add_comm 1]

/-- A launched bin may start its block now (spec/10 R225, R226). -/
def BinStarts (s : State) (core : Nat) (l : List Bin) (y : Bin) : Prop :=
  (s.ctx (s.block y.block).ctx).st = .running
    ∧ s.fits core ((s.obj y.obj).kernel (((s.obj y.obj).kernelAt y.entry).getD 0)) 1 = true ∧ s.pinAllows (s.block y.block).queue core = true
    ∧ (y.held = true ∨ ∀ z ∈ l, z.held = true → (s.block z.block).ctx ≠ (s.block y.block).ctx)

theorem binStarts_iff {l : List Bin} (h : (s.core core).launches = l) (y : Bin) : s.binStarts core y = true ↔ BinStarts s core l y := by
  have hheld : (y.held || !(s.core core).launches.any (fun b => b.held && (s.block b.block).ctx == (s.block y.block).ctx)) = true
      ↔ (y.held = true ∨ ∀ z ∈ l, z.held = true → (s.block z.block).ctx ≠ (s.block y.block).ctx) := by
    rw [Bool.or_eq_true, Bool.not_eq_true', List.any_eq_false, h]
    simp only [Bool.and_eq_true, beq_iff_eq, not_and, ne_eq]
  rw [State.binStarts, Bool.and_eq_true, Bool.and_eq_true, Bool.and_eq_true, runs_iff, hheld, and_assoc, and_assoc]
  rfl

theorem exec_binBlockLaunch (core : Nat) (s : State) : exec (.binBlockLaunch core) s = execBinBlockLaunch core s := rfl

theorem binBlock_waits {l : List Bin} (h : (s.core core).launches = l) (hw : (∀ y ∈ l, ¬ BinStarts s core l y) ∨ s.contFirst core = true) :
    NotDue (.binBlockLaunch core) s := by
  rw [NotDue, exec_binBlockLaunch, execBinBlockLaunch]
  rcases hw with hw | hw
  · rw [findIdx_none fun y hy => Bool.eq_false_of_not_eq_true fun e => hw y (h ▸ hy) ((binStarts_iff h y).1 e)]
    rfl
  · split
    · rfl
    · split
      · rfl
      · exact if_pos hw

/-- The block of a launched bin, before its launch. -/
def State.binBlock (s : State) (core : Nat) (x : Bin) : Block :=
  { Block.blank with
    job := (s.block x.block).job
    queue := (s.block x.block).queue
    ctx := (s.block x.block).ctx
    obj := x.obj
    kernel := s.binKernel x
    core := core
    bin := true
    ident := (s.core core).binCount
    argp := (s.block x.block).argp
    gang := s.gangs.length
    phase := .running }

/-- The state in which it is launched. -/
def State.binTaken (s : State) (core n : Nat) : State :=
  let u := s.updCore core (fun c => { c with launches := c.launches.eraseIdx n, binCount := c.binCount + 1 })
  { u with gangs := u.gangs ++ [(⟨[s.blocks.length], 1, clusterOf core, [], false⟩ : Gang)] }

/-- The lanes of wave `wi` given the arguments of a bin's threads. -/
def State.giveLanes (x : Bin) (s : State) (wi : Nat) : State :=
  match s.waves[wi]? with
  | none => s
  | some w => (s.updVFile w.vfile (fun f => { f with v := f.v.set 0 (w.ownLanes (binLanes x.args) (f.reg 0)) })).updWave wi
      (fun w => { w with vl := min (x.args.length - w.laneBase) w.vlmax })

theorem binBlock_starts {pre rest : List Bin} {x : Bin} (h : (s.core core).launches = pre ++ x :: rest) (hpre : ∀ y ∈ pre, ¬ BinStarts s core (pre ++ x :: rest) y)
    (hx : BinStarts s core (pre ++ x :: rest) x) (hc : s.contFirst core = false) :
    let u := (s.binTaken core pre.length).launchBlock (s.binBlock core x) x.entry 1 0
    Makes (.binBlockLaunch core) s ((u.block s.blocks.length).waves.foldl (State.giveLanes x) u) := by
  have hi : findIdx (s.binStarts core) (s.core core).launches 0 = some pre.length := by
    rw [h, findIdx_first rest (fun y hy => Bool.eq_false_of_not_eq_true fun e => hpre y hy ((binStarts_iff h y).1 e)) ((binStarts_iff h x).2 hx), Nat.zero_add]
  have hg : (s.core core).launches[pre.length]? = some x := by rw [h, List.getElem?_append_right (Nat.le_refl _), Nat.sub_self]; rfl
  intro u
  rw [Makes, exec_binBlockLaunch, execBinBlockLaunch, hi]
  dsimp only
  rw [hg]
  dsimp only
  rw [hc]
  rfl

/-- The wave of a bin's block at its launch. -/
def State.binWave (s : State) (x : Bin) : Wave :=
  Wave.launch s.blocks.length 0 0 none s.vfiles.length false x.entry (s.queue (s.block x.block).queue).handler 0

theorem binWave_lanes (s : State) (x : Bin) : (s.binWave x).legacy = false := by
  have h : ((8 : BitVec 32).getLsbD 19) = false := by decide
  rw [Wave.legacy]
  exact h

theorem getElem?_length_append {α : Type} (l : List α) (x : α) : (l ++ [x])[l.length]? = some x := by
  rw [List.getElem?_append_right (Nat.le_refl _), Nat.sub_self]
  rfl

theorem eraseIdx_middle {α : Type} (pre : List α) (x : α) (rest : List α) : (pre ++ x :: rest).eraseIdx pre.length = pre ++ rest := by
  rw [List.eraseIdx_append_of_length_le (Nat.le_refl _), Nat.sub_self]
  rfl

theorem caps_core {u v : State} (h : CapsOnly u v) (c : Nat) : (v.core c).launches = (u.core c).launches ∧ (v.core c).binCount = (u.core c).binCount
    ∧ (v.core c).chunk = (u.core c).chunk :=
  ⟨(congrArg CoreSt.launches (h c) :), (congrArg CoreSt.binCount (h c) :), (congrArg CoreSt.chunk (h c) :)⟩

/-- What the block of a launched bin leaves. -/
theorem binBlock_leaves {pre rest : List Bin} {x : Bin} (h : (s.core core).launches = pre ++ x :: rest) (hc : core < s.cores.length)
    (hk : ((s.obj x.obj).kernel (s.binKernel x)).legacy = false) :
    let u := (s.binTaken core pre.length).launchBlock (s.binBlock core x) x.entry 1 0
    let t := (u.block s.blocks.length).waves.foldl (State.giveLanes x) u
    ∃ sb sc ss, t.blocks[s.blocks.length]? = some { s.binBlock core x with scratchBase := sb, scratch := sc, sets := ss, waves := [s.waves.length] }
      ∧ t.waves[s.waves.length]? = some { s.binWave x with vl := min x.args.length 64 }
      ∧ (t.vfile s.vfiles.length).reg 0 = binLanes x.args ∧ (t.core core).launches = pre ++ rest ∧ (t.core core).binCount = (s.core core).binCount + 1 := by
  intro u t
  obtain ⟨cores, accs, clusters, pois, hu, hcaps⟩ := launchBlock_native (s := s.binTaken core pre.length) (b := s.binBlock core x) hk x.entry 1 0
  obtain ⟨hl, hn, -⟩ := caps_core hcaps core
  have hub : u.blocks[s.blocks.length]? = some { (s.binTaken core pre.length).placedBlock (s.binBlock core x) with waves := [s.waves.length] } := by
    rw [show u = _ from hu]
    exact getElem?_length_append s.blocks _
  have huw : u.waves[s.waves.length]? = some (s.binWave x) := by
    rw [show u = _ from hu]
    exact getElem?_length_append s.waves _
  have huv : u.vfiles = s.vfiles ++ [VFile.blank] := by rw [show u = _ from hu]; rfl
  have ht : t = (u.updVFile s.vfiles.length (fun f => { f with v := f.v.set 0 ((s.binWave x).ownLanes (binLanes x.args) (f.reg 0)) })).updWave s.waves.length
      (fun w => { w with vl := min (x.args.length - w.laneBase) w.vlmax }) := by
    have hb : (u.block s.blocks.length).waves = [s.waves.length] := by rw [State.block, List.getD_eq_getElem?_getD, hub]; rfl
    change List.foldl _ u (u.block s.blocks.length).waves = _
    rw [hb, List.foldl_cons, List.foldl_nil, State.giveLanes, huw]
    rfl
  have hcore : t.core core = u.core core := by rw [ht]; rfl
  have huc : u.core core = (State.core { s.binTaken core pre.length with cores := cores } core) := by rw [show u = _ from hu]; rfl
  have htaken : (s.binTaken core pre.length).core core = { s.core core with launches := (s.core core).launches.eraseIdx pre.length, binCount := (s.core core).binCount + 1 } :=
    core_updCore _ hc
  refine ⟨((s.binTaken core pre.length).placedBlock (s.binBlock core x)).scratchBase, ((s.binTaken core pre.length).placedBlock (s.binBlock core x)).scratch,
    ((s.binTaken core pre.length).placedBlock (s.binBlock core x)).sets, ?_, ?_, ?_, ?_, ?_⟩
  · rw [ht]
    exact hub
  · have hbase : (s.binWave x).laneBase = 0 := by rw [Wave.laneBase, binWave_lanes]; rfl
    have hmax : (s.binWave x).vlmax = 64 := show vlmaxOf 8 = 64 by decide
    rw [ht, updWave_wave (s := u.updVFile s.vfiles.length _) _ huw, hbase, Nat.sub_zero, hmax]
  · have hf : t.vfiles = s.vfiles ++ [{ VFile.blank with v := VFile.blank.v.set 0 ((s.binWave x).ownLanes (binLanes x.args) (VFile.blank.reg 0)) }] := by
      rw [ht]
      change updAt u.vfiles _ _ = _
      rw [huv, updAt_length_append]
    rw [State.vfile, List.getD_eq_getElem?_getD, hf, getElem?_length_append, Option.getD_some, VFile.reg, dif_pos (by decide)]
    simp only [Vector.getElem_set_self]
    rw [Wave.ownLanes, binWave_lanes]
    rfl
  · rw [hcore, huc, hl, htaken]
    dsimp only
    rw [h, eraseIdx_middle]
  · rw [hcore, huc, hn, htaken]

end
end Sys2Proof.Machine
end

section
/-! SUPPORT. Dealing (spec/14 R282, R285, R287): chunks to the core that has asked longest, gangs into their queue's line. -/

namespace Sys2Proof.Machine
open Sys2Proof Sys2Proof.Claims Sys2Proof.Laws

set_option Elab.async false

section
variable {s : State} {ji core : Nat} {j : Job}

theorem exec_chunkDeal (ji core : Nat) (s : State) : exec (.chunkDeal ji core) s = execChunkDeal ji core s := rfl

theorem asks_of {ji core : Nat} {j : Job} (hcl : clusterOf core ∈ s.jobClusters j) (hc : core ∈ s.coresFor (s.jobKernel j) (clusterOf core))
    (hx : ∀ x ∈ (s.core core).chunk, x.1 ≠ ji) (hf : s.fits core (s.jobKernel j) (s.jobKernel j).waves = true) (hp : s.pinAllows j.queue core = true)
    (hr : s.reservedFrom j.queue 1 (clusterOf core) = false) : s.asks ji j core = true := by
  have hany : (s.core core).chunk.any (fun x => x.1 == ji) = false := List.any_eq_false.2 fun x h => by simpa using hx x h
  simp only [State.asks, List.contains_iff_mem.2 hcl, List.contains_iff_mem.2 hc, hany, hf, hp, hr, Bool.not_false, Bool.and_self]

/-! ### A chunk for a core -/

theorem chunkDeal_other (hj : s.jobs[ji]? = some j) (hg : j.gang = 1) (ha : j.asked.head? ≠ some core) : NotDue (.chunkDeal ji core) s := by
  rw [NotDue, exec_chunkDeal, execChunkDeal, State.job?, hj]
  dsimp only
  by_cases hs : (!s.serves j) = true
  · exact if_pos hs
  · rw [if_neg hs, if_neg (by omega), if_pos (by simp [ha])]
    rfl

section
variable (hj : s.jobs[ji]? = some j) (hs : s.serves j = true) (hg : j.gang = 1) (ha : j.asked.head? = some core) (hk : s.asks ji j core = true)
include hj hs hg ha hk

theorem chunkDeal_returned (hr : j.returned ≠ []) : Makes (.chunkDeal ji core) s ((s.updJob ji (fun j => { j with returned := [] })).updCore core (fun c => { c with
          chunk := c.chunk ++ j.returned.map (fun x => (ji, x.1, x.2)) })) := by
  rw [Makes, exec_chunkDeal, execChunkDeal, State.job?, hj]
  dsimp only
  rw [if_neg (by rw [hs]; decide), if_neg (by omega), if_neg (by simp [ha, hk]), if_pos (by simp [hr])]
  rfl

theorem chunkDeal_dealt (hr : j.returned = []) (hd : j.n[0] ≤ j.dealt) : NotDue (.chunkDeal ji core) s := by
  rw [NotDue, exec_chunkDeal, execChunkDeal, State.job?, hj]
  dsimp only
  rw [if_neg (by rw [hs]; decide), if_neg (by omega), if_neg (by simp [ha, hk]), if_neg (by simp [hr]), if_pos (by simp [hd])]
  rfl

theorem chunkDeal_deals (hr : j.returned = []) (hc : j.cov = []) (hd : j.dealt < j.n[0]) : ∃ u : State, { u with queues := s.queues } = s ∧
    Makes (.chunkDeal ji core) s ((u.updJob ji (fun _ => { j with dealt := j.dealt + s.dealSize j })).updCore core (fun c => { c with
      chunk := c.chunk ++ (List.range (s.dealSize j * j.unitPoints)).map (fun i => (ji, j.dealt * j.unitPoints + i, j.chunks.length)) })) := by
  refine ⟨if j.dealt = 0 then s.updQueue j.queue (fun q => q.startCov j.covRec j.cov) else s, by split <;> rfl, ?_⟩
  have hb : s.covBlocked ji j = false := by rw [State.covBlocked, hc]; rfl
  rw [Makes, exec_chunkDeal, execChunkDeal, State.job?, hj]
  dsimp only
  rw [if_neg (by rw [hs]; decide), if_neg (by omega), if_neg (by simp [ha, hk]), if_neg (by simp [hr]), if_neg (by simp [hb, hd])]
  have he : j.cov.isEmpty = true := List.isEmpty_iff.2 hc
  simp only [he, if_true, Bool.not_true, Bool.and_false, Bool.false_eq_true, if_false, List.map_map]
  rfl

end

/-! ### Gangs in line -/

theorem queue_updQueue {u : State} {qi : Nat} (f : Queue → Queue) (h : qi < u.queues.length) : (u.updQueue qi f).queue qi = f (u.queue qi) :=
  updAt_getD_self u.queues qi f .blank h

theorem joinLine_line {u : State} {qi ji p : Nat} (h : qi < u.queues.length) : ((u.joinLine qi ji p).queue qi).line = (u.queue qi).line ++ [(ji, p)] := by
  rw [State.joinLine, queue_updQueue _ h]
  split
  · next he => rw [List.isEmpty_iff.1 he]; rfl
  · rfl

/-- Gangs that join a line stand at its end, in order. -/
theorem joinLines {qi : Nat} (ji : Nat) (f : Nat → Nat) (l : List Nat) (u : State) (h : qi < u.queues.length) :
    { l.foldl (fun s i => s.joinLine qi ji (f i)) u with queues := u.queues } = u
      ∧ ((l.foldl (fun s i => s.joinLine qi ji (f i)) u).queue qi).line = (u.queue qi).line ++ l.map (fun i => (ji, f i)) := by
  induction l generalizing u with
  | nil => exact ⟨rfl, (List.append_nil _).symm⟩
  | cons i l ih =>
    obtain ⟨h1, h2⟩ := ih (u.joinLine qi ji (f i)) (by rw [State.joinLine, State.updQueue_queues, updAt_length]; exact h)
    refine ⟨?_, ?_⟩
    · exact congrArg (fun x : State => { x with queues := u.queues }) h1
    · rw [List.foldl_cons, h2, joinLine_line h, List.append_assoc]
      rfl

theorem gangDeal_waits (hj : s.jobs[ji]? = some j) (hg : 2 ≤ j.gang) (h : j.n[0] ≤ j.dealt ∨ ∃ x ∈ (s.queue j.queue).line, x.1 = ji) : NotDue (.chunkDeal ji core) s := by
  rw [NotDue, exec_chunkDeal, execChunkDeal, State.job?, hj]
  have hwait : (decide (j.n[0] ≤ j.dealt) || (s.queue j.queue).line.any (fun x => x.1 == ji)) = true := by
    rcases h with h | ⟨x, hx, e⟩
    · rw [decide_eq_true h, Bool.true_or]
    · rw [Bool.or_eq_true, List.any_eq_true]
      exact .inr ⟨x, hx, beq_iff_eq.2 e⟩
  dsimp only
  by_cases hs : (!s.serves j) = true
  · exact if_pos hs
  · rw [if_neg hs, if_pos hg, if_pos hwait]
    rfl

theorem gangDeal_deals (hj : s.jobs[ji]? = some j) (hs : s.serves j = true) (hg : 2 ≤ j.gang) (hd : j.dealt < j.n[0]) (hl : ∀ x ∈ (s.queue j.queue).line, x.1 ≠ ji) :
    Makes (.chunkDeal ji core) s ((List.range (s.dealSize j * j.unitPoints / j.gang)).foldl (fun s i => s.joinLine j.queue ji (j.dealt * j.unitPoints + i * j.gang))
      (s.updJob ji (fun j' => { j' with dealt := j'.dealt + s.dealSize j }))) := by
  have hany : (s.queue j.queue).line.any (fun x => x.1 == ji) = false := List.any_eq_false.2 fun x h => by simpa using hl x h
  have hguard : (decide (j.n[0] ≤ j.dealt) || (s.queue j.queue).line.any (fun x => x.1 == ji)) = false := by simp [hany, hd]
  rw [Makes, exec_chunkDeal, execChunkDeal, State.job?, hj]
  dsimp only
  rw [if_neg (by rw [hs]; decide), if_pos hg, if_neg (by rw [hguard]; decide), State.dealGang, State.job?, hj]
  dsimp only
  rw [if_neg (by simp [hany, hd, hs]; omega)]
  rfl

end
end Sys2Proof.Machine
end

section
/-! SUPPORT. Points and gangs launched (spec/14 R283, R285, R287). -/

namespace Sys2Proof.Machine
open Sys2Proof Sys2Proof.Claims Sys2Proof.Laws

set_option Elab.async false

section
variable {s : State} {core ji p ch : Nat} {j : Job}

/-! ### A point -/

theorem exec_pointLaunch (core : Nat) (s : State) : exec (.pointLaunch core) s = execPointLaunch core s := rfl

theorem pointLaunch_behind (h : s.contFirst core = true) : NotDue (.pointLaunch core) s := by
  rw [NotDue, exec_pointLaunch, execPointLaunch, if_pos h]
  rfl

/-- A point taken from its core, and a gang for its block. -/
def State.pointTaken (s : State) (core : Nat) (x : Nat × Nat × Nat) : State :=
  let u := s.updCore core (fun c => { c with chunk := c.chunk.erase x })
  { u with gangs := u.gangs ++ [(⟨[s.blocks.length], 1, clusterOf core, [], false⟩ : Gang)] }

/-- The block of a point, before its launch. -/
def State.blockOfPoint (s : State) (core ji p ch : Nat) (j : Job) : Block :=
  { (s.pointTaken core (ji, p, ch)).pointBlock ji j core p s.gangs.length 0 with cov := (j.covOf p ch).1, check := (j.covOf p ch).2, chunk := ch }

theorem pointLaunch_makes {rest : List (Nat × Nat × Nat)} (hc : (s.core core).chunk = (ji, p, ch) :: rest) (hj : s.jobs[ji]? = some j) (hs : s.serves j = true)
    (hf : s.fits core (s.jobKernel j) (s.jobKernel j).waves = true) (hp : s.pinAllows j.queue core = true) (hr : s.reservedFrom j.queue 1 (clusterOf core) = false)
    (hb : s.binsFirst core (s.queue j.queue).ctx = false) (hcf : s.contFirst core = false) :
    Makes (.pointLaunch core) s ((s.pointTaken core (ji, p, ch)).launchBlock (s.blockOfPoint core ji p ch j) j.entry (s.jobKernel j).waves 0) := by
  have hl : s.launchable core (s.core core).chunk [] = some (ji, p, ch) := by
    rw [hc, State.launchable, if_neg (by simp), State.job?, hj]
    dsimp only
    rw [if_pos (by simp [hs, hf, hp, hr, hb])]
  rw [Makes, exec_pointLaunch, execPointLaunch, if_neg (by rw [hcf]; decide), hl]
  dsimp only
  rw [State.job?, hj]
  rfl

theorem memRead_clearBytes (s : State) {a n x : Nat} (h : a ≤ x ∧ x < a + n) : memRead (s.clearBytes a n).mem x = 0 := by
  have hk : ∀ (l : List Host.Cell), (∀ c ∈ l, c.1 ≠ x) → assocGet 0#8 l x = 0#8 := by
    intro l hl
    induction l with
    | nil => rfl
    | cons c l ih =>
      rw [assocGet, if_neg (hl c List.mem_cons_self), ih fun d hd => hl d (List.mem_cons_of_mem _ hd), ite_self]
  refine hk _ fun c hc e => ?_
  have := (List.mem_filter.1 hc).2
  rw [e, decide_eq_true h.1, decide_eq_true h.2] at this
  exact absurd this (by decide)

theorem memKey_add (sp : Space) (id a b : Nat) : memKey sp id (a + b) = memKey sp id a + b := (Nat.add_assoc _ a b).symm

theorem pointTaken_core (x : Nat × Nat × Nat) (hc : core < s.cores.length) : (s.pointTaken core x).core core = { s.core core with chunk := (s.core core).chunk.erase x } :=
  core_updCore _ hc

theorem pointTaken_freeSets (x : Nat × Nat × Nat) (hc : core < s.cores.length) : (s.pointTaken core x).freeSets core = s.freeSets core := by
  rw [State.freeSets, pointTaken_core x hc]
  rfl

/-- What a point's launch leaves. -/
theorem pointLaunch_leaves {rest : List (Nat × Nat × Nat)} (hc : (s.core core).chunk = (ji, p, ch) :: rest) (hcore : core < s.cores.length)
    (hf : s.fits core (s.jobKernel j) (s.jobKernel j).waves = true) (hk : (s.jobKernel j).legacy = false) :
    let t := (s.pointTaken core (ji, p, ch)).launchBlock (s.blockOfPoint core ji p ch j) j.entry (s.jobKernel j).waves 0
    ∃ sb ss ws, ss.length = (s.jobKernel j).accsets ∧ ws.length = (s.jobKernel j).waves
      ∧ t.blocks[s.blocks.length]? = some { s.blockOfPoint core ji p ch j with scratchBase := sb, scratch := (s.jobKernel j).scratch, sets := ss, waves := ws }
      ∧ (t.core core).chunk = rest
      ∧ (∀ n, n < (s.jobKernel j).waves → t.waves[s.waves.length + n]?
            = some (Wave.launch s.blocks.length n 0 none (s.vfiles.length + n) false j.entry (s.queue j.queue).handler 0))
      ∧ ∀ o, o < (s.jobKernel j).scratch → memRead t.mem (memKey .scratch core (sb + o)) = 0 := by
  intro t
  obtain ⟨cores, accs, clusters, pois, ht, hcaps⟩ := launchBlock_native (s := s.pointTaken core (ji, p, ch)) (b := s.blockOfPoint core ji p ch j) hk j.entry
    (s.jobKernel j).waves 0
  obtain ⟨-, -, hchunk⟩ := caps_core hcaps core
  rw [show t = _ from ht]
  refine ⟨((s.pointTaken core (ji, p, ch)).placedBlock (s.blockOfPoint core ji p ch j)).scratchBase,
    ((s.pointTaken core (ji, p, ch)).placedBlock (s.blockOfPoint core ji p ch j)).sets, _, ?_, ?_, getElem?_length_append s.blocks _, ?_, fun n hn => ?_, fun o ho => ?_⟩
  · have hsets : (s.jobKernel j).accsets ≤ (s.freeSets core).length := of_decide_eq_true (Bool.and_eq_true_iff.1 hf).2
    change (List.take _ ((s.pointTaken core (ji, p, ch)).freeSets core)).length = _
    rw [pointTaken_freeSets _ hcore, List.length_take]
    exact Nat.min_eq_left hsets
  · change ([] ++ List.map _ (List.range (s.jobKernel j).waves)).length = _
    simp
  · refine hchunk.trans ?_
    rw [pointTaken_core _ hcore, hc]
    exact List.erase_cons_head (ji, p, ch) rest
  · change (s.waves ++ nativeLaunch _ _ _ _ _ _)[s.waves.length + n]? = _
    rw [List.getElem?_append_right (Nat.le_add_right _ _), Nat.add_sub_cancel_left, nativeLaunch, List.getElem?_map, List.getElem?_range hn]
    rfl
  · rw [memKey_add]
    exact memRead_clearBytes _ ⟨Nat.le_add_right _ _, Nat.add_lt_add_left ho _⟩

/-! ### A gang -/

/-- What the launch of a gang's blocks leaves: its own at the end of the list, each member on its core, and no other block, queue or deal touched. -/
structure GangLaunched (u t : State) (ji p gi m : Nat) (cs : List Nat) : Prop where
  count : t.blocks.length = u.blocks.length + cs.length
  older : ∀ i, i < u.blocks.length → t.blocks[i]? = u.blocks[i]?
  member : ∀ i c, cs[i]? = some c → ∃ b, t.blocks[u.blocks.length + i]? = some b ∧ b.member = m + i ∧ b.ident = p + (m + i) ∧ b.gang = gi ∧ b.core = c ∧ b.phase = .running
  queues : t.queues = u.queues
  deals : t.jobs[ji]?.map (fun j => (j.n, j.dealt)) = u.jobs[ji]?.map (fun j => (j.n, j.dealt))

theorem launchedJobs_deals (l : List Job) (o : Option Nat) (i : Nat) : (launchedJobs l o)[i]?.map (fun j => (j.n, j.dealt)) = l[i]?.map (fun j => (j.n, j.dealt)) := by
  cases o with
  | none => rfl
  | some k =>
    rw [launchedJobs, updAt_get]
    split
    · rw [Option.map_map]
      rfl
    · rfl

theorem launchGang_launched (ji : Nat) (j : Job) (p gi : Nat) (cs : List Nat) (m : Nat) (u : State) : GangLaunched u (u.launchGang ji j p gi cs m) ji p gi m cs := by
  induction cs generalizing m u with
  | nil => exact ⟨rfl, fun _ _ => rfl, fun _ _ h => (nomatch h), rfl, rfl⟩
  | cons c cs ih =>
    obtain ⟨l, w, f, cores, accs, clusters, pois, hv⟩ := launchBlock_any u (u.pointBlock ji j c (p + m) gi m) j.entry (u.jobKernel j).waves 0
    obtain ⟨hcount, holder, hmember, hqueues, hdeals⟩ := ih (m + 1) ((u.launchBlock (u.pointBlock ji j c (p + m) gi m) j.entry (u.jobKernel j).waves 0).updGang gi
      (fun g => { g with blocks := g.blocks ++ [u.blocks.length] }))
    have hstep : u.launchGang ji j p gi (c :: cs) m = ((u.launchBlock (u.pointBlock ji j c (p + m) gi m) j.entry (u.jobKernel j).waves 0).updGang gi
      (fun g => { g with blocks := g.blocks ++ [u.blocks.length] })).launchGang ji j p gi cs (m + 1) := rfl
    have hblocks : (u.launchBlock (u.pointBlock ji j c (p + m) gi m) j.entry (u.jobKernel j).waves 0).blocks
        = u.blocks ++ [{ u.placedBlock (u.pointBlock ji j c (p + m) gi m) with waves := (u.pointBlock ji j c (p + m) gi m).waves ++ l }] := by rw [hv]; rfl
    rw [State.updGang_blocks, hblocks, List.length_append, List.length_singleton] at hcount holder hmember
    rw [hstep]
    refine ⟨?_, fun i hi => ?_, fun i d hd => ?_, ?_, ?_⟩
    · rw [hcount, List.length_cons]
      omega
    · rw [holder i (by omega), List.getElem?_append_left hi]
    · cases i with
      | zero =>
        obtain rfl : c = d := Option.some.inj hd
        exact ⟨_, (holder u.blocks.length (by omega)).trans (getElem?_length_append u.blocks _), rfl, rfl, rfl, rfl, rfl⟩
      | succ i =>
        obtain ⟨b, hb, h1, h2, h3⟩ := hmember i d hd
        exact ⟨b, by rw [← hb]; congr 1; omega, by rw [h1]; omega, by rw [h2]; omega, h3⟩
    · rw [hqueues, State.updGang_queues, hv]
      rfl
    · rw [hdeals, State.updGang_jobs, hv]
      exact launchedJobs_deals u.jobs (some ji) ji

theorem dealGang_done {u : State} (h : ∀ j, u.jobs[ji]? = some j → j.n[0] ≤ j.dealt) : u.dealGang ji = u := by
  rw [State.dealGang, State.job?]
  cases hj : u.jobs[ji]? with
  | none => rfl
  | some j => exact if_pos (by simp [h j hj])

theorem exec_gangPlace (qi : Nat) (s : State) : exec (.gangPlace qi) s = execGangPlace qi s := rfl

section
variable {qi cl : Nat} {rest : List (Nat × Nat)} (hl : (s.queue qi).line = (ji, p) :: rest) (hj : s.jobs[ji]? = some j) (hs : s.serves j = true)
include hl hj hs

theorem gangPlace_waits (hc : s.gangCluster (s.queue qi) qi j = none) : NotDue (.gangPlace qi) s := by
  rw [NotDue, exec_gangPlace, execGangPlace, hl]
  dsimp only
  rw [State.job?, hj]
  dsimp only
  rw [if_neg (by rw [hs]; decide), hc]
  rfl

/-- The cores a gang is placed on. -/
def State.gangCores (s : State) (j : Job) (cl : Nat) : List Nat := (s.freeFor j.queue (s.jobKernel j) cl).take j.gang

/-- A gang's entry made, before its blocks are launched. -/
def State.gangMade (s : State) (cl : Nat) (j : Job) : State := { s with gangs := s.gangs ++ [(⟨[], j.gang, cl, [], false⟩ : Gang)] }

/-- The state after the blocks of a gang were launched. -/
def State.gangStarted (s : State) (ji p cl : Nat) (j : Job) : State := (s.gangMade cl j).launchGang ji j p s.gangs.length (s.gangCores j cl) 0

/-- The state after its queue's line moved on too. -/
def State.gangPlaced (s : State) (qi ji p cl : Nat) (j : Job) (rest : List (Nat × Nat)) : State :=
  (s.gangStarted ji p cl j).updQueue qi
    (fun q => { q with line := rest, headSince := (s.gangStarted ji p cl j).time.toNat, reserved := none, aged := false })

omit hl hs in
theorem gangPlaced_done (hd : j.n[0] ≤ j.dealt) : (s.gangPlaced qi ji p cl j rest).dealGang ji = s.gangPlaced qi ji p cl j rest := by
  refine dealGang_done fun d h => ?_
  have hdeals := (launchGang_launched ji j p s.gangs.length (s.gangCores j cl) 0 (s.gangMade cl j)).deals
  have hjobs : (s.gangPlaced qi ji p cl j rest).jobs = ((s.gangMade cl j).launchGang ji j p s.gangs.length (s.gangCores j cl) 0).jobs := rfl
  rw [← hjobs, h, State.gangMade, hj] at hdeals
  obtain ⟨hn, hd'⟩ := Prod.mk.inj (Option.some.inj hdeals)
  change d.n = j.n at hn
  change d.dealt = j.dealt at hd'
  rw [hn, hd']
  exact hd

theorem gangPlace_places (hc : s.gangCluster (s.queue qi) qi j = some cl) (hb : ∀ c, s.binsFirst c (s.queue qi).ctx = false) (hd : j.n[0] ≤ j.dealt) :
    Makes (.gangPlace qi) s (s.gangPlaced qi ji p cl j rest) := by
  have hfirst : (s.gangCores j cl).any (fun c => s.binsFirst c (s.queue qi).ctx) = false := List.any_eq_false.2 fun c _ => by rw [hb c]; decide
  rw [Makes, exec_gangPlace, execGangPlace, hl]
  dsimp only
  rw [State.job?, hj]
  dsimp only
  rw [if_neg (by rw [hs]; decide), hc]
  dsimp only
  rw [if_neg (by rw [← State.gangCores, hfirst]; decide)]
  exact congrArg ok (gangPlaced_done hj hd)

end

/-- The cluster chosen for a gang has cores enough for it. -/
theorem gangCluster_room {q : Queue} {qi cl : Nat} (h : s.gangCluster q qi j = some cl) : j.gang ≤ (s.freeFor j.queue (s.jobKernel j) cl).length := by
  have good {c : Nat} (h : (decide (j.gang ≤ (s.freeFor j.queue (s.jobKernel j) c).length) && !s.reservedFrom qi j.gang c) = true) :
      j.gang ≤ (s.freeFor j.queue (s.jobKernel j) c).length := of_decide_eq_true (Bool.and_eq_true_iff.1 h).1
  rw [State.gangCluster] at h
  dsimp only at h
  split at h
  case h_1 r _ =>
    split at h
    case isTrue hr =>
      obtain rfl := Option.some.inj h
      exact good hr
    case isFalse => exact good (by simpa only using List.find?_some h)
  case h_2 => exact good (by simpa only using List.find?_some h)

theorem freeFor_cluster {q : Nat} {k : Kernel} {cl c : Nat} (h : c ∈ s.freeFor q k cl) : c / 4 = cl := by
  obtain ⟨i, hi, rfl⟩ := List.mem_map.1 (List.mem_filter.1 (List.mem_filter.1 h).1).1
  have := List.mem_range.1 hi
  omega

theorem queue_lt_of_line {s : State} {qi : Nat} (h : (s.queue qi).line ≠ []) : qi < s.queues.length := by
  by_contra hn
  exact h (by rw [State.queue, List.getD_eq_default _ _ (Nat.le_of_not_lt hn)]; rfl)

theorem gangPlaced_leaves {qi cl : Nat} {rest : List (Nat × Nat)} (hl : (s.queue qi).line = (ji, p) :: rest) (hc : s.gangCluster (s.queue qi) qi j = some cl) :
    ((s.gangPlaced qi ji p cl j rest).queue qi).line = rest ∧ (s.gangPlaced qi ji p cl j rest).blocks.length = s.blocks.length + j.gang
      ∧ ∀ m, m < j.gang → ∃ b, (s.gangPlaced qi ji p cl j rest).blocks[s.blocks.length + m]? = some b ∧ b.member = m ∧ b.ident = p + m ∧ b.gang = s.gangs.length
          ∧ b.core / 4 = cl ∧ b.phase = .running := by
  obtain ⟨hcount, -, hmember, hqueues, -⟩ := launchGang_launched ji j p s.gangs.length (s.gangCores j cl) 0 (s.gangMade cl j)
  have hlen : (s.gangCores j cl).length = j.gang := by rw [State.gangCores, List.length_take, Nat.min_eq_left (gangCluster_room hc)]
  refine ⟨?_, by rw [← hlen]; exact hcount, fun m hm => ?_⟩
  · rw [State.gangPlaced, queue_updQueue _ (by rw [State.gangStarted, hqueues]; exact queue_lt_of_line (s := s) (by rw [hl]; exact List.cons_ne_nil _ _))]
  · have hcore : (s.gangCores j cl)[m]? = some ((s.gangCores j cl)[m]'(by omega)) := List.getElem?_eq_getElem _
    obtain ⟨b, hb, hmem, hid, hg, hbc, hph⟩ := hmember m _ hcore
    exact ⟨b, hb, by omega, by omega, hg, by rw [hbc]; exact freeFor_cluster (List.mem_of_mem_take (List.getElem_mem _)), hph⟩

/-! ### A head that ages -/

theorem exec_gangAgeingExpiry (qi : Nat) (s : State) : exec (.gangAgeingExpiry qi) s = execGangAgeingExpiry qi s := rfl

theorem ageing_waits {qi : Nat} (h : s.time.toNat ≤ (s.queue qi).headSince + 1000 * (s.queue qi).age) : NotDue (.gangAgeingExpiry qi) s := by
  rw [NotDue, exec_gangAgeingExpiry, execGangAgeingExpiry, if_pos (by rw [decide_eq_true h, Bool.or_true])]
  rfl

/-- Choosing a cluster for an aged head sets the reservation of that queue alone. -/
theorem reserve_queue (u : State) (qi : Nat) : ∃ r, (u.reserve qi).queue qi = { u.queue qi with reserved := r } := by
  have same : ∃ r, u.queue qi = { u.queue qi with reserved := r } := ⟨_, rfl⟩
  rw [State.reserve]
  dsimp only
  split
  case isFalse => exact same
  case isTrue =>
    split
    case h_1 => exact same
    case h_2 ji p l hl =>
      split
      case h_2 => exact same
      case h_1 j hj =>
        rw [queue_updQueue _ (queue_lt_of_line (by rw [hl]; exact List.cons_ne_nil _ _))]
        exact ⟨_, rfl⟩

theorem ageing_ages {qi : Nat} (hl : (s.queue qi).line ≠ []) (ha : (s.queue qi).aged = false) (ht : (s.queue qi).headSince + 1000 * (s.queue qi).age < s.time.toNat) :
    ∃ t, Makes (.gangAgeingExpiry qi) s t ∧ (t.queue qi).aged = true := by
  refine ⟨(s.updQueue qi (fun q => { q with aged := true })).reserve qi, ?_, ?_⟩
  · rw [Makes, exec_gangAgeingExpiry, execGangAgeingExpiry, if_neg (by rw [ha, decide_eq_false (Nat.not_le.2 ht), Bool.or_false, Bool.or_false, List.isEmpty_iff]; exact hl)]
    rfl
  · obtain ⟨r, hr⟩ := reserve_queue (s.updQueue qi (fun q => { q with aged := true })) qi
    rw [hr, queue_updQueue _ (queue_lt_of_line hl)]

end
end Sys2Proof.Machine
end

section
/-! SUPPORT. Ends of blocks and gangs, continuations, and the gating of a cluster (spec/12 R252, R274, R275; spec/14 R288, R300). -/

namespace Sys2Proof.Machine
open Sys2Proof Sys2Proof.Claims Sys2Proof.Laws

set_option Elab.async false

/-! ### The continuation of a block -/

/-- What the choice of a continuation reads of a wave. -/
def Wave.contMark (w : Wave) : Option (Word × Word) × Nat := (w.cont, w.id)

/-- The continuation of the first wave with one. -/
def firstCont (l : List (Option (Word × Word) × Nat)) : Option (Word × Word) :=
  (bestIdx (fun x => x.1.isSome) (fun x y => decide (x.2 < y.2)) l 0 none).bind (fun i => (l[i]?).bind (·.1))

theorem bestIdx_map {α β : Type} (g : α → β) (p : β → Bool) (lt : β → β → Bool) (l : List α) (i : Nat) (o : Option (Nat × α)) :
    bestIdx (fun x => p (g x)) (fun x y => lt (g x) (g y)) l i o = bestIdx p lt (l.map g) i (o.map (fun x => (x.1, g x.2))) := by
  induction l generalizing i o with
  | nil => cases o <;> rfl
  | cons x l ih =>
    rw [List.map_cons]
    unfold bestIdx
    rw [ih]
    congr 1
    cases p (g x) with
    | false => rfl
    | true =>
      rcases o with - | ⟨j, y⟩
      · rfl
      · dsimp only [Option.map_some]
        rw [if_pos rfl, if_pos rfl]
        cases lt (g x) (g y) <;> rfl

theorem contOf_eq (s : State) (b : Block) : s.contOf b = firstCont (b.waves.filterMap (fun i => (s.waves[i]?).map Wave.contMark)) := by
  have hmap : b.waves.filterMap (fun i => (s.waves[i]?).map Wave.contMark) = (b.waves.filterMap (fun i => s.waves[i]?)).map Wave.contMark :=
    List.map_filterMap.symm
  have hbest := bestIdx_map Wave.contMark (fun x => x.1.isSome) (fun x y => decide (x.2 < y.2)) (b.waves.filterMap (fun i => s.waves[i]?)) 0 none
  rw [hmap, firstCont, State.contOf, ← Option.map_none (f := fun x : Nat × Wave => (x.1, x.2.contMark)), ← hbest]
  change (match bestIdx (fun w : Wave => w.contMark.1.isSome) (fun x y => decide (x.contMark.2 < y.contMark.2)) (b.waves.filterMap (fun i => s.waves[i]?)) 0 none with
    | none => none | some i => _) = _
  cases bestIdx (fun w : Wave => w.contMark.1.isSome) (fun x y => decide (x.contMark.2 < y.contMark.2)) (b.waves.filterMap (fun i => s.waves[i]?)) 0 none with
  | none => rfl
  | some i =>
    dsimp only [Option.bind_some]
    rw [List.getElem?_map]
    cases (b.waves.filterMap (fun i => s.waves[i]?))[i]? <;> rfl

/-- What the end of a block's streams and of its lease keeps: blocks, objects, and which wave has a continuation. -/
structure StreamsOnly (s t : State) : Prop where
  blocks : t.blocks = s.blocks
  objs : t.objs = s.objs
  marks : ∀ i : Nat, (t.waves[i]?).map Wave.contMark = (s.waves[i]?).map Wave.contMark

theorem StreamsOnly.refl (s : State) : StreamsOnly s s := ⟨rfl, rfl, fun _ => rfl⟩

theorem StreamsOnly.trans {s t u : State} (h : StreamsOnly s t) (k : StreamsOnly t u) : StreamsOnly s u :=
  ⟨k.blocks.trans h.blocks, k.objs.trans h.objs, fun i => (k.marks i).trans (h.marks i)⟩

theorem StreamsOnly.contOf {s t : State} (h : StreamsOnly s t) (b : Block) : t.contOf b = s.contOf b := by
  rw [contOf_eq, contOf_eq]
  simp only [h.marks]

theorem StreamsOnly.foldl {α : Type} {f : State → α → State} (hf : ∀ s x, StreamsOnly s (f s x)) (l : List α) (s : State) : StreamsOnly s (l.foldl f s) :=
  List.foldlRecOn l f (motive := StreamsOnly s) (.refl s) fun u hu x _ => hu.trans (hf u x)

theorem unbindStream_only (s : State) (wi : Nat) (w : Wave) (t : Stream) : StreamsOnly s (s.unbindStream wi w t) := by
  have hw (i : Nat) : ((updAt s.waves wi (fun w => { w with
      streams := w.streams.filter (fun x => x.reg != t.reg), vFull := fullRegs w.vFull t.reg t.g true }))[i]?).map Wave.contMark
      = (s.waves[i]?).map Wave.contMark := by
    rw [updAt_get]
    split
    · rw [Option.map_map]
      rfl
    · rfl
  unfold State.unbindStream
  dsimp only
  split
  · exact ⟨rfl, rfl, hw⟩
  · exact ⟨rfl, rfl, hw⟩

theorem unbindAll_only (s : State) (wi : Nat) : StreamsOnly s (s.unbindAll wi) := by
  unfold State.unbindAll
  cases s.waves[wi]? with
  | none => exact .refl s
  | some w => exact .foldl (fun u t => unbindStream_only u wi w t) _ _

theorem endLease_only (s : State) (ci : Nat) : StreamsOnly s (s.endLease ci) := by
  unfold State.endLease
  dsimp only
  cases (s.ctx ci).lease <;> exact ⟨rfl, rfl, fun _ => rfl⟩

theorem endBlockLease_only (s : State) (bi : Nat) : StreamsOnly s (s.endBlockLease bi) := by
  unfold State.endBlockLease
  dsimp only
  split
  · split
    · exact endLease_only s _
    · exact .refl s
  · exact .refl s

/-! ### The end of a block -/

/-- A block's job learns of a fabric failure of one of its waves. -/
def State.fabTold (s : State) (b : Block) (fab : Bool) : State :=
  if fab then match b.job with
    | some ji => s.updJob ji (fun j => { j with fabError := true })
    | none => s
  else s

theorem fabTold_only (s : State) (b : Block) (fab : Bool) : StreamsOnly s (s.fabTold b fab) := by
  unfold State.fabTold
  split
  · cases b.job <;> exact ⟨rfl, rfl, fun _ => rfl⟩
  · exact .refl s

/-- The state in which a block whose waves have ended ends: its streams unbound, its job told, its lease over. -/
def State.wavesGone (s : State) (bi : Nat) : State :=
  let b := s.block bi
  let fab := b.waves.any (fun i => match s.waves[i]? with | some w => !w.fabFail.isEmpty | none => false)
  ((b.waves.foldl (fun s i => s.unbindAll i) s).fabTold b fab).endBlockLease bi

theorem wavesGone_only (s : State) (bi : Nat) : StreamsOnly s (s.wavesGone bi) :=
  ((StreamsOnly.foldl unbindAll_only _ s).trans (fabTold_only _ _ _)).trans (endBlockLease_only _ bi)

theorem exec_blockEnd (bi : Nat) (s : State) : exec (.blockEnd bi) s = execBlockEnd bi s := rfl

section
variable {s : State} {bi : Nat}

theorem blockEnd_runs (h : (s.block bi).phase = .running) : NotDue (.blockEnd bi) s := by
  rw [NotDue, exec_blockEnd, execBlockEnd, if_pos (by rw [h]; rfl)]
  rfl

theorem block_lt_of_phase (h : (s.block bi).phase ≠ .discarded) : bi < s.blocks.length := by
  by_contra hn
  exact h (by rw [State.block, List.getD_eq_default _ _ (Nat.le_of_not_lt hn)]; rfl)

theorem block_updBlock {u : State} (f : Block → Block) (h : bi < u.blocks.length) : (u.updBlock bi f).block bi = f (u.block bi) :=
  updAt_getD_self u.blocks bi f .blank h

section
variable (hs : (s.block bi).saved = none) (hp : (s.block bi).phase = .ending) (hq : s.blockQuiet bi = true)
include hs hp hq

theorem blockEnd_eq : execBlockEnd bi s = match (s.wavesGone bi).contOf (s.block bi) with
    | some (e, arg) => ok ((s.wavesGone bi).updBlock bi (fun b => { b with
        phase := .waiting, next := some (b.obj, (((s.wavesGone bi).obj (s.block bi).obj).kernelAt e).getD 0, e, arg) }))
    | none => ok (((((s.wavesGone bi).freeCore bi).updBlock bi (fun b => { b with phase := .done })).holdPin (s.block bi).core).blockGone bi) := by
  rw [execBlockEnd, if_neg (by rw [hs, hp, hq]; decide)]
  rfl

theorem blockEnd_continues {e a : Word} (hc : s.contOf (s.block bi) = some (e, a)) : ∃ t, Makes (.blockEnd bi) s t ∧ (t.block bi).phase = .waiting
    ∧ (t.block bi).next = some ((s.block bi).obj, ((s.obj (s.block bi).obj).kernelAt e).getD 0, e, a) ∧ (t.block bi).sets = (s.block bi).sets
    ∧ (t.block bi).grant = (s.block bi).grant := by
  have honly := wavesGone_only s bi
  have hobj : (s.wavesGone bi).obj (s.block bi).obj = s.obj (s.block bi).obj := by rw [State.obj, honly.objs]; rfl
  have hblock : (s.wavesGone bi).block bi = s.block bi := by rw [State.block, honly.blocks]; rfl
  have hlt : bi < (s.wavesGone bi).blocks.length := by rw [honly.blocks]; exact block_lt_of_phase (by rw [hp]; decide)
  refine ⟨_, by rw [Makes, exec_blockEnd, blockEnd_eq hs hp hq, honly.contOf, hc]; rfl, ?_⟩
  rw [block_updBlock _ hlt, hblock, hobj]
  exact ⟨rfl, rfl, rfl, rfl⟩

end

/-! ### A block that is over -/

/-- What the end of a block brings to others keeps the blocks and the tile slots. -/
structure BlocksAndSlots (s t : State) : Prop where
  blocks : t.blocks = s.blocks
  slots : ∀ c, (t.core c).slots = (s.core c).slots

theorem BlocksAndSlots.refl (s : State) : BlocksAndSlots s s := ⟨rfl, fun _ => rfl⟩

theorem BlocksAndSlots.trans {s t u : State} (h : BlocksAndSlots s t) (k : BlocksAndSlots t u) : BlocksAndSlots s u :=
  ⟨k.blocks.trans h.blocks, fun c => (k.slots c).trans (h.slots c)⟩

theorem holdPin_slots (s : State) (core : Nat) : BlocksAndSlots s (s.holdPin core) := by
  obtain ⟨cores, h, hcaps⟩ := holdPin_eq s core
  rw [h]
  exact ⟨rfl, fun c => by rw [← hcaps c]⟩

theorem closure_slots (s : State) (ji : Nat) : BlocksAndSlots s (s.closure ji) := by
  unfold State.closure
  cases s.job? ji with
  | none => exact .refl s
  | some j =>
    dsimp only
    split
    · exact .refl s
    · exact ⟨rfl, fun _ => rfl⟩

theorem chunkDone_slots (s : State) (ji ch : Nat) : BlocksAndSlots s (s.chunkDone ji ch) := by
  unfold State.chunkDone
  cases s.job? ji with
  | none => exact .refl s
  | some j =>
    dsimp only
    split
    case isTrue => exact .refl s
    case isFalse =>
      split
      · split
        · exact .trans (t := s.updJob ji _) ⟨rfl, fun _ => rfl⟩ (closure_slots _ ji)
        · exact ⟨rfl, fun _ => rfl⟩
      · exact ⟨rfl, fun _ => rfl⟩

theorem reserve_slots (s : State) (qi : Nat) : BlocksAndSlots s (s.reserve qi) := by
  unfold State.reserve
  dsimp only
  split
  · split
    · exact .refl s
    · split <;> exact ⟨rfl, fun _ => rfl⟩
  · exact .refl s

theorem saveFront_slots (s : State) (ci : Nat) : BlocksAndSlots s (s.saveFront ci) := by
  refine ⟨rfl, fun c => ?_⟩
  change ((s.cores.map _).getD c (CoreSt.reset c)).slots = (s.cores.getD c (CoreSt.reset c)).slots
  rw [List.getD_eq_getElem?_getD, List.getD_eq_getElem?_getD, List.getElem?_map]
  cases s.cores[c]? <;> rfl

theorem softDone_slots (s : State) (ci : Nat) : BlocksAndSlots s (s.softDone ci) := by
  unfold State.softDone
  split
  · exact saveFront_slots s ci
  · exact .refl s

theorem blockGone_slots (s : State) (bi : Nat) : BlocksAndSlots s (s.blockGone bi) := by
  have hreserve (core : Nat) (l : List Nat) (u : State) : BlocksAndSlots u (l.foldl (fun s q => if s.headSet q core then s.reserve q else s) u) :=
    List.foldlRecOn l _ (motive := BlocksAndSlots u) (.refl u) fun v hv q _ => by
      split
      · exact hv.trans (reserve_slots v q)
      · exact hv
  unfold State.blockGone
  dsimp only
  refine .trans (.trans ?_ (hreserve _ _ _)) (softDone_slots _ _)
  split
  · split
    · exact .refl s
    · exact chunkDone_slots s _ _
  · exact .refl s

/-- No slot of its core is a freed block's. -/
theorem freeCore_slots (s : State) (bi : Nat) {x : Slot} (hx : x ∈ ((s.freeCore bi).core (s.block bi).core).slots) (hst : x.st ≠ 0) : x.owner ≠ bi := by
  have hcore : (s.freeCore bi).core (s.block bi).core = (s.updCore (s.block bi).core (fun c => { c with
      slots := c.slots.map (fun x => if x.ownedBy bi then .free else x) })).core (s.block bi).core := rfl
  rw [hcore] at hx
  by_cases hc : (s.block bi).core < s.cores.length
  · rw [core_updCore _ hc] at hx
    obtain ⟨y, -, rfl⟩ := List.mem_map.1 hx
    intro ho
    cases hy : y.ownedBy bi with
    | true =>
      rw [hy] at hst
      exact hst rfl
    | false =>
      rw [hy, if_neg (by decide)] at hst ho
      rw [Slot.ownedBy, bne_iff_ne.2 hst, beq_iff_eq.2 ho] at hy
      exact absurd hy (by decide)
  · have hreset : (s.updCore (s.block bi).core (fun c => { c with slots := c.slots.map (fun x => if x.ownedBy bi then .free else x) })).core (s.block bi).core
        = CoreSt.reset (s.block bi).core :=
      List.getD_eq_default _ _ (by rw [State.updCore, updAt_length]; exact Nat.le_of_not_lt hc)
    rw [hreset] at hx
    rw [List.eq_of_mem_replicate hx] at hst
    exact absurd rfl hst

theorem blockEnd_ends (hs : (s.block bi).saved = none) (hp : (s.block bi).phase = .ending) (hq : s.blockQuiet bi = true) (hc : s.contOf (s.block bi) = none) :
    ∃ t, Makes (.blockEnd bi) s t ∧ (t.block bi).phase = .done ∧ ∀ x ∈ (t.core (s.block bi).core).slots, x.st ≠ 0 → x.owner ≠ bi := by
  have honly := wavesGone_only s bi
  have hblock : (s.wavesGone bi).block bi = s.block bi := by rw [State.block, honly.blocks]; rfl
  have hlt : bi < ((s.wavesGone bi).freeCore bi).blocks.length := by
    change bi < (updAt (s.wavesGone bi).blocks bi _).length
    rw [updAt_length, honly.blocks]
    exact block_lt_of_phase (by rw [hp]; decide)
  have hlast := (holdPin_slots (((s.wavesGone bi).freeCore bi).updBlock bi (fun b => { b with phase := .done })) (s.block bi).core).trans (blockGone_slots _ bi)
  refine ⟨_, by rw [Makes, exec_blockEnd, blockEnd_eq hs hp hq, honly.contOf, hc]; rfl, ?_, fun x hx => ?_⟩
  · rw [State.block, hlast.blocks]
    change (State.block (State.updBlock _ bi _) bi).phase = _
    rw [block_updBlock _ hlt]
  · rw [hlast.slots, ← hblock] at hx
    exact freeCore_slots (s.wavesGone bi) bi hx

/-! ### A continuation -/

theorem exec_continuationStart (bi : Nat) (s : State) : exec (.continuationStart bi) s = execContinuationStart bi s := rfl

/-- A block whose continuation starts, its job told of one more launch. -/
def State.continued (s : State) (bi ki : Nat) : State :=
  let u := s.updBlock bi (fun b => { b with phase := .running, kernel := ki, next := none, waves := [] })
  match (s.block bi).job with
  | none => u
  | some j => u.updJob j (fun j => { j with launched := j.launched + 1 })

theorem continued_eq (s : State) (bi ki : Nat) : ∃ jobs, s.continued bi ki
    = { s.updBlock bi (fun b => { b with phase := .running, kernel := ki, next := none, waves := [] }) with jobs := jobs } := by
  unfold State.continued
  cases (s.block bi).job <;> exact ⟨_, rfl⟩

theorem continuation_makes {obj ki : Nat} {e a : Word} (hs : (s.block bi).saved = none) (hp : (s.block bi).phase = .waiting)
    (hn : (s.block bi).next = some (obj, ki, e, a)) (hg : (s.ctx (s.block bi).ctx).st = .running ∨ (s.ctx (s.block bi).ctx).st = .soft)
    (hb : (s.block bi).bin = false) (hk : ((s.obj obj).kernel ki).legacy = false) :
    Makes (.continuationStart bi) s ((s.continued bi ki).launchWaves bi false e (s.queue (s.block bi).queue).handler a ((s.obj obj).kernel ki).waves) := by
  have hqueue : (s.continued bi ki).queue (s.block bi).queue = s.queue (s.block bi).queue := by
    obtain ⟨jobs, h⟩ := continued_eq s bi ki
    rw [h]
    rfl
  rw [Makes, exec_continuationStart, execContinuationStart, hn]
  dsimp only
  rw [if_neg (by rw [hp, hs]; rcases hg with h | h <;> rw [h] <;> decide), hb, hk, if_neg (by decide), ← hqueue]
  rfl

theorem continuation_leaves {e a h : Word} {ki n : Nat} (hlt : bi < s.blocks.length) :
    let t := (s.continued bi ki).launchWaves bi false e h a n
    t.blocks[bi]? = some { s.block bi with phase := .running, kernel := ki, next := none, waves := (List.range n).map (s.waves.length + ·) } ∧ t.mem = s.mem
      ∧ ∀ m, m < n → t.waves[s.waves.length + m]? = some (Wave.launch bi m 0 none (s.vfiles.length + m) false e h a) := by
  intro t
  obtain ⟨jobs, hu⟩ := continued_eq s bi ki
  have ht : t = (s.continued bi ki).addWaves bi (nativeLaunch bi (s.continued bi ki).vfiles.length e h a n) (List.replicate n VFile.blank)
      ((List.range n).map ((s.continued bi ki).waves.length + ·)) := launchWaves_native _ _ _ _ _ _
  rw [hu] at ht
  have hblock : s.blocks[bi]? = some (s.block bi) := by
    rw [State.block, List.getD_eq_getElem _ _ hlt, List.getElem?_eq_getElem hlt]
  refine ⟨?_, by rw [ht]; rfl, fun m hm => ?_⟩
  · rw [ht]
    change (updAt (updAt s.blocks bi _) bi _)[bi]? = _
    rw [updAt_get_self, updAt_get_self, hblock]
    rfl
  · rw [ht]
    change (s.waves ++ nativeLaunch _ _ _ _ _ _)[s.waves.length + m]? = _
    rw [List.getElem?_append_right (Nat.le_add_right _ _), Nat.add_sub_cancel_left, nativeLaunch, List.getElem?_map, List.getElem?_range hm]
    rfl

end

/-! ### A gang's scratchpads -/

theorem exec_gangScratchRelease (gi : Nat) (s : State) : exec (.gangScratchRelease gi) s = execGangScratchRelease gi s := rfl

/-- The allocations of a gang's ended blocks dropped. -/
def State.dropEnded (s : State) (bi : Nat) : State :=
  let b := s.block bi
  if b.phase == .done then s.dropAlloc b.core b.scratchBase b.scratch else s

theorem dropEnded_gangs (l : List Nat) (s : State) : (l.foldl State.dropEnded s).gangs = s.gangs :=
  List.foldlRecOn l _ (motive := fun u : State => u.gangs = s.gangs) rfl fun u hu bi _ => by
    unfold State.dropEnded
    dsimp only
    split
    · exact hu
    · exact hu

theorem gangScratch_released {s : State} {gi : Nat} (hr : (s.gang gi).released = false) (hne : (s.gang gi).blocks ≠ [])
    (hg : ∀ bi ∈ (s.gang gi).blocks, (s.block bi).alive = false ∧ ∀ c ∈ s.copies, c.block = some bi → c.finished = true) :
    ∃ t, Makes (.gangScratchRelease gi) s t ∧ (t.gang gi).released = true := by
  have hgone : (s.gang gi).blocks.all (fun bi => !(s.block bi).alive && s.copies.all (fun c => c.block != some bi || c.finished)) = true := by
    refine List.all_eq_true.2 fun bi hbi => ?_
    obtain ⟨halive, hcopies⟩ := hg bi hbi
    rw [halive, Bool.not_false, Bool.true_and]
    refine List.all_eq_true.2 fun c hc => ?_
    rw [Bool.or_eq_true, bne_iff_ne]
    exact Decidable.or_iff_not_imp_left.2 fun h => hcopies c hc (not_not.1 h)
  have hlt : gi < s.gangs.length := by
    by_contra hn
    exact hne (by rw [State.gang, List.getD_eq_default _ _ (Nat.le_of_not_lt hn)])
  refine ⟨((s.gang gi).blocks.foldl State.dropEnded s).updGang gi (fun g => { g with released := true }), ?_, ?_⟩
  · rw [Makes, exec_gangScratchRelease, execGangScratchRelease]
    dsimp only
    rw [hr, hgone, if_neg (by simpa using hne)]
    rfl
  · rw [State.gang, State.updGang, updAt_getD_self _ _ _ _ (by rw [dropEnded_gangs]; exact hlt)]

/-! ### A cluster without work -/

theorem exec_clusterGate (cl : Nat) (s : State) : exec (.clusterGate cl) s = execClusterGate cl s := rfl

section
variable {s : State} {cl : Nat}

theorem clusterGate_waits (h : s.time.toNat < (s.cluster cl).idle + (s.cluster cl).idleLimit) : NotDue (.clusterGate cl) s := by
  rw [NotDue, exec_clusterGate, execClusterGate, if_pos (by rw [decide_eq_true h, Bool.or_true])]
  rfl

theorem clusterGate_gates (hg : (s.cluster cl).gated = false)
    (hw : ∀ i, i < 4 → s.coreFree (4 * cl + i) = true ∧ ∀ x ∈ s.copies, x.core = 4 * cl + i → x.finished = true)
    (h : (s.cluster cl).idle + (s.cluster cl).idleLimit ≤ s.time.toNat) :
    exec (.clusterGate cl) s = .next (s.updCluster cl (fun c => { c with gated := true, icache := [] })).bump := by
  have hidle : ((List.range 4).map (fun i => 4 * cl + i)).any (fun n => !(s.blocksOn n).isEmpty || s.coreBusy n) = false := by
    refine List.any_eq_false.2 fun n hn => ?_
    obtain ⟨i, hi, rfl⟩ := List.mem_map.1 hn
    obtain ⟨hfree, hcopies⟩ := hw i (List.mem_range.1 hi)
    obtain ⟨hblocks, hchunk⟩ := Bool.and_eq_true_iff.1 hfree
    have hbusy : s.copies.any (fun x => x.core == 4 * cl + i && !x.finished) = false := by
      refine List.any_eq_false.2 fun x hx => ?_
      rw [Bool.and_eq_true, beq_iff_eq, Bool.not_eq_true']
      exact fun ⟨hc, hf⟩ => by rw [hcopies x hx hc] at hf; cases hf
    rw [hblocks, State.coreBusy, hchunk, hbusy]
    decide
  rw [exec_clusterGate, execClusterGate, hg, hidle, decide_eq_false (Nat.not_lt.2 h), if_neg (by decide)]
  rfl

theorem setIdle_limit (ns : Nat) (h : cl < s.clusters.length) :
    ((s.setIdle cl ns).cluster cl).idleLimit = if 1000 ≤ ns ∧ ns ≤ 10000000 then ns else (s.cluster cl).idleLimit := by
  rw [State.setIdle]
  split
  · rw [State.cluster, State.updCluster, updAt_getD_self _ _ _ _ h]
  · rfl

end

end Sys2Proof.Machine
end

section
/-! SUPPORT. Dealing, launching and ending of blocks, clause by clause. -/

namespace Sys2Proof.Machine
open Sys2Proof Sys2Proof.Claims Sys2Proof.Laws

set_option Elab.async false

section
variable {s : State} {core n : Nat} {b : Bin}

/-- A bin whose timer has not run out, or which is held already, stays in its place. -/
theorem binAfter_unripe (h : ¬ (b.held = false ∧ b.start + (s.queue (s.block b.block).queue).bint ≤ s.time.toNat)) : s.binAfter b = some b :=
  if_neg fun e => h ((binRipe_iff s b).1 e)

theorem binAfter_running (hr : b.held = false ∧ b.start + (s.queue (s.block b.block).queue).bint ≤ s.time.toNat) (h : (s.ctx (s.block b.block).ctx).st = .running) :
    s.binAfter b = none := by rw [State.binAfter, if_pos ((binRipe_iff s b).2 hr), if_pos ((runs_iff ..).2 h)]

theorem binAfter_held (hr : b.held = false ∧ b.start + (s.queue (s.block b.block).queue).bint ≤ s.time.toNat) (h : (s.ctx (s.block b.block).ctx).st ≠ .running) :
    s.binAfter b = some { b with held := true } := by rw [State.binAfter, if_pos ((binRipe_iff s b).2 hr), if_neg fun e => h ((runs_iff ..).1 e)]

end

theorem jobs_updJob {s : State} {ji : Nat} {j : Job} (f : Job → Job) (h : s.jobs[ji]? = some j) : (s.updJob ji f).jobs[ji]? = some (f j) := by
  rw [State.updJob, updAt_get_self, h]
  rfl

/-- The first bin of a core that may start its block starts it. -/
theorem binBlockLaunch_launches {s : State} {core : Nat} {x : Bin} {pre rest : List Bin} (h : (s.core core).launches = pre ++ x :: rest) (hc : core < s.cores.length)
    (hpre : ∀ y ∈ pre, ¬ BinStarts s core (pre ++ x :: rest) y) (hx : BinStarts s core (pre ++ x :: rest) x) (hcf : s.contFirst core = false)
    (hk : ((s.obj x.obj).kernel (s.binKernel x)).legacy = false) : ∃ t sb sc ss, Makes (.binBlockLaunch core) s t
      ∧ t.blocks[s.blocks.length]? = some { s.binBlock core x with scratchBase := sb, scratch := sc, sets := ss, waves := [s.waves.length] }
      ∧ t.waves[s.waves.length]? = some { s.binWave x with vl := min x.args.length 64 }
      ∧ (t.vfile s.vfiles.length).reg 0 = binLanes x.args ∧ (t.core core).launches = pre ++ rest ∧ (t.core core).binCount = (s.core core).binCount + 1 := by
  obtain ⟨sb, sc, ss, hleft⟩ := binBlock_leaves h hc hk
  exact ⟨_, sb, sc, ss, binBlock_starts h hpre hx hcf, hleft⟩

/-- Settles O46: an event's step is read off its definition, and what a launch, a deal or an end leaves from the lists it adds to: `launchBlock_native` for the block
and its waves, `Ripened` for the bins of a core, `GangLaunched` for a gang, `StreamsOnly` and `BlocksAndSlots` for what the end of a block keeps. -/
theorem dealingEvents : Obligations.DealingEvents := by
  unfold Obligations.DealingEvents
  refine ⟨fun s core n b hb hh => ?_, fun s core n b hc hn hb => ?_, fun s core x pre rest h hc => ?_, fun block index vfile entry handler s1 => ?_,
    fun s ji core j hj hs hg hcov hcl hk hx hf hp hr hc => ?_, fun s ji core j hj hs hg hq => ?_, fun s core ji p ch j rest _ hch hj hc hs hf hp hr hb hk hcf => ?_,
    fun s core h => pointLaunch_behind h, fun s qi ji p cl j rest hl hj hs => ?_, fun s qi => ⟨ageing_ages, ageing_waits⟩, fun s bi hs => ?_,
    fun s gi hr hne hg => gangScratch_released hr hne hg, fun s cl hg hw => ⟨clusterGate_gates hg hw, clusterGate_waits⟩,
    fun s cl ns h => setIdle_limit ns h, fun k r c => ⟨rfl, rfl, rfl, rfl, rfl, rfl, rfl, rfl⟩⟩
  case refine_1 =>
    exact ⟨fun ht => binTimer_unripe hb fun e => Nat.not_le.2 ht ((binRipe_iff s b).1 e).2,
      fun ht hr => launchBin_running (core := core) (n := n) hr ▸ binTimer_ripe hb ((binRipe_iff s b).2 ⟨hh, ht⟩),
      fun ht hr => launchBin_held (core := core) (n := n) hr ▸ binTimer_ripe hb ((binRipe_iff s b).2 ⟨hh, ht⟩)⟩
  case refine_2 =>
    have hafter := bin_after hc hn hb
    exact ⟨fun h => hafter.trans (binAfter_unripe h), fun h hr => ⟨hafter.trans (binAfter_running h hr), bin_launched hc hn hb (binAfter_running h hr)⟩,
      fun h hr => hafter.trans (binAfter_held h hr)⟩
  case refine_3 =>
    refine ⟨binBlock_waits h, fun hpre hx hcf hk => ?_⟩
    obtain ⟨t, sb, sc, ss, hmakes, hblock, hwave, hlanes, hlaunches, hcount⟩ := binBlockLaunch_launches h hc hpre hx hcf hk
    exact ⟨t, _, _, hmakes, hblock, rfl, rfl, rfl, rfl, rfl, rfl, rfl, rfl, rfl, rfl, rfl, hwave, rfl, launch_splits _ _ _ _ _ 0, hlanes, hlaunches, hcount⟩
  case refine_4 =>
    exact ⟨launch_rd _ _ _ _ _ _, launch_full _ _ _ _ _ _, fun _ hk => launch_rdK _ _ _ _ _ _ hk, launch_wmode .., rfl, launch_vl .., rfl, rfl, rfl, rfl, rfl, launch_splits ..⟩
  case refine_5 =>
    have hasks := asks_of hcl hk hx hf hp hr
    refine ⟨chunkDeal_other hj hg, fun ha => ⟨fun hret => ?_, fun hret hd => ?_, chunkDeal_dealt hj hs hg ha hasks⟩⟩
    · exact ⟨_, chunkDeal_returned hj hs hg ha hasks hret, by rw [core_updCore (s := s.updJob ji _) _ hc]; rfl, jobs_updJob _ hj⟩
    · obtain ⟨u, hu, hmakes⟩ := chunkDeal_deals hj hs hg ha hasks hret hcov hd
      have hcores : u.cores = s.cores := (congrArg State.cores hu :)
      have hjobs : u.jobs = s.jobs := (congrArg State.jobs hu :)
      refine ⟨_, hmakes, jobs_updJob _ (hjobs ▸ hj), ?_⟩
      rw [core_updCore (s := u.updJob ji _) _ (hcores ▸ hc)]
      exact congrArg (fun c : List CoreSt => (c.getD core (CoreSt.reset core)).chunk ++ _) hcores
  case refine_6 =>
    refine ⟨gangDeal_waits hj hg, fun hd hl => ⟨_, gangDeal_deals hj hs hg hd hl, ?_, ?_⟩⟩
    · obtain ⟨honly, -⟩ := joinLines ji (fun i => j.dealt * j.unitPoints + i * j.gang) (List.range (s.dealSize j * j.unitPoints / j.gang))
        (s.updJob ji (fun j' => { j' with dealt := j'.dealt + s.dealSize j })) hq
      exact (congrArg (fun u : State => u.jobs[ji]?) honly).trans (jobs_updJob _ hj)
    · exact (joinLines ji (fun i => j.dealt * j.unitPoints + i * j.gang) _ (s.updJob ji (fun j' => { j' with dealt := j'.dealt + s.dealSize j })) hq).2
  case refine_7 =>
    obtain ⟨sb, ss, ws, hss, hws, hblock, hchunk, hwaves, hmem⟩ := pointLaunch_leaves hch hc hf hk
    exact ⟨_, _, pointLaunch_makes hch hj hs hf hp hr hb hcf, hchunk, hblock, rfl, rfl, rfl, rfl, rfl, rfl, rfl, rfl, hss, rfl, rfl, hws, hwaves, hmem⟩
  case refine_8 =>
    exact ⟨gangPlace_waits hl hj hs, fun hcl hb hd => ⟨_, gangPlace_places hl hj hs hcl hb hd, gangPlaced_leaves hl hcl⟩⟩
  case refine_9 =>
    refine ⟨fun hp hq => ⟨blockEnd_ends hs hp hq, fun e a hc => blockEnd_continues hs hp hq hc⟩, blockEnd_runs, fun obj ki e a hp hn hg hb hk => ?_⟩
    obtain ⟨hblock, hmem, hwaves⟩ := continuation_leaves (s := s) (bi := bi) (e := e) (a := a) (h := (s.queue (s.block bi).queue).handler) (ki := ki)
      (n := ((s.obj obj).kernel ki).waves) (block_lt_of_phase (by rw [hp]; decide))
    exact ⟨_, _, continuation_makes hs hp hn hg hb hk, hblock, rfl, rfl, rfl, rfl, rfl, rfl, rfl, rfl, hmem, hwaves⟩

end Sys2Proof.Machine
end

section
/-! SUPPORT. The element functions of the integer formats (spec/03 R74, R83, spec/05 R132): the bit vector that an integer delivered stands for, and the statement O19. -/

namespace Sys2Proof.Machine
open Sys2Proof Sys2Proof.Claims Sys2Proof.Laws

set_option Elab.async false

/-! ### Integer formats -/

theorem sextN_toNat {n : Nat} (u : BitVec n) : sextN n u.toNat = u.toInt := by
  rcases Nat.eq_zero_or_pos n with rfl | hn
  · simp [sextN, BitVec.eq_nil u]
  · have hp : 2 ^ n = 2 * 2 ^ (n - 1) := by rw [← Nat.pow_succ']; congr; omega
    simp only [sextN, BitVec.toInt_eq_toNat_cond, Nat.mod_eq_of_lt u.isLt, ne_eq, hn.ne', not_false_eq_true, decide_true, Bool.true_and, decide_eq_true_eq]
    split <;> split <;> omega

section
variable {fmt : Nat} (h8 : 8 ≤ fmt) (h15 : fmt ≤ 15)
include h8

theorem isFloat_of_integer : isFloat fmt = false := decide_eq_false (by omega)

theorem isSigned_of_integer : isSigned fmt = decide (fmt < 12) := by
  rw [isSigned, decide_eq_true h8, Bool.true_and]
  exact decide_eq_decide.2 Nat.lt_succ_iff.symm

include h15

theorem sewOf_of_integer : sewOf fmt = 8 * 2 ^ (fmt % 4) := by interval_cases fmt <;> rfl

theorem widthOf_of_integer : widthOf fmt = sewOf fmt := by interval_cases fmt <;> rfl

theorem intRange_of_integer : intRange fmt = rangeOf fmt := by
  rw [intRange, rangeOf, isSigned_of_integer h8, show intRange.sewOf fmt = sewOf fmt from (sewOf_of_integer h8 h15).symm]
  exact if_congr (decide_eq_true_iff) rfl rfl

theorem wrapInt_of_integer (i : Int) : wrapInt fmt i = (BitVec.ofInt (sewOf fmt) i).toNat := by
  rw [wrapInt, widthOf_of_integer h8 h15, ofInt_natCast_mod]

theorem deliverInt_wraps (i : Int) : deliverInt fmt false i = ⟨(BitVec.ofInt (sewOf fmt) i).toNat, 0⟩ := by
  rw [← wrapInt_of_integer h8 h15]
  rfl

end

/-! ### The functions on bit vectors -/

/-- The integer that a bit vector holds, of an s type or of an n type. -/
def intOf {n : Nat} (signed : Bool) (u : BitVec n) : Int := if signed then u.toInt else u.toNat

/-- The order of those integers. -/
def intLess {n : Nat} (signed : Bool) (u v : BitVec n) : Bool := if signed then u.slt v else u.ult v

/-- VOP function `fn` on bit vectors (Table 5.4), without SAT. -/
def intElem {n : Nat} (signed : Bool) (fn : Nat) (u v : BitVec n) : BitVec n :=
  match fn with
  | 0 => u + v
  | 1 => u - v
  | 2 => u * v
  | 3 => if v = 0 then BitVec.allOnes n else if signed then u.sdiv v else u / v
  | 4 => if intLess signed u v then u else v
  | 5 => if intLess signed u v then v else u
  | 6 => u &&& v
  | 7 => u ||| v
  | 8 => u ^^^ v
  | 9 => u <<< (v.toNat % n)
  | 10 => u >>> (v.toNat % n)
  | 11 => u.sshiftRight (v.toNat % n)
  | 12 => if signed then (u.signExtend (2 * n) * v.signExtend (2 * n)).extractLsb' n _ else (u.setWidth (2 * n) * v.setWidth (2 * n)).extractLsb' n _
  | _ => if intLess signed u v then v - u else u - v

section
variable {n : Nat} (signed : Bool) (u v : BitVec n)

@[simp] theorem ofInt_intOf : BitVec.ofInt n (intOf signed u) = u := by
  cases signed
  · exact ofInt_toNat rfl
  · exact BitVec.ofInt_toInt

theorem intLess_iff : intLess signed u v = true ↔ intOf signed u < intOf signed v := by
  cases signed
  · exact BitVec.ult_iff_lt.trans (BitVec.lt_def.trans Int.ofNat_lt.symm)
  · exact BitVec.slt_iff_toInt_lt

theorem intOf_eq_zero_iff : intOf signed v = 0 ↔ v = 0 := by
  cases signed
  · exact Int.natCast_eq_zero.trans (BitVec.toNat_inj (y := 0))
  · exact ⟨fun h => BitVec.eq_of_toInt_eq (h.trans BitVec.toInt_zero.symm), fun h => by simp [h, intOf]⟩

theorem ofInt_intOf_sub : BitVec.ofInt n (intOf signed u - intOf signed v) = u - v := by
  rw [Int.sub_eq_add_neg, BitVec.ofInt_add, BitVec.ofInt_neg, ofInt_intOf, ofInt_intOf, BitVec.sub_eq_add_neg]

theorem ofInt_tdiv : BitVec.ofInt n ((intOf signed u).tdiv (intOf signed v)) = if signed then u.sdiv v else u / v := by
  cases signed
  · exact (congrArg (BitVec.ofInt n) (Int.ofNat_tdiv ..).symm).trans (ofInt_toNat BitVec.toNat_udiv.symm)
  · apply BitVec.eq_of_toInt_eq
    rw [if_pos rfl, BitVec.toInt_sdiv, BitVec.toInt_ofInt]
    rfl

theorem ofInt_high : BitVec.ofInt n ((intOf signed u * intOf signed v).fdiv (2 ^ n : Nat)) = intElem signed 12 u v := by
  cases signed
  · rw [Int.fdiv_eq_ediv_of_nonneg _ (by positivity)]
    exact ofInt_mulhn u v
  · exact ofInt_mulh u v

theorem ofInt_natAbs_sub : BitVec.ofInt n ((intOf signed u - intOf signed v).natAbs : Int) = if intLess signed u v then v - u else u - v := by
  simp only [intLess_iff]
  split
  · next h => rw [← ofInt_intOf_sub signed v u]; congr 1; omega
  · next h => rw [← ofInt_intOf_sub signed u v]; congr 1; omega

end

section
variable {fmt : Nat} (h8 : 8 ≤ fmt) (h15 : fmt ≤ 15)
include h8 h15

/-- The value of an element of an integer format (R74). -/
theorem intVal_toNat (u : BitVec (sewOf fmt)) : intVal fmt u.toNat = intOf (decide (fmt < 12)) u := by
  rw [intVal, widthOf_of_integer h8 h15, isSigned_of_integer h8, sextN_toNat, Nat.mod_eq_of_lt u.isLt]
  rfl

theorem elemOp_integer (ftz : Bool) (ff : FVal → FVal → FRes) (fi : Int → Int → FRes) (u v : BitVec (sewOf fmt)) :
    elemOp fmt ftz ff fi u.toNat v.toNat = fi (intOf (decide (fmt < 12)) u) (intOf (decide (fmt < 12)) v) := by
  rw [elemOp, isFloat_of_integer h8, intVal_toNat h8 h15, intVal_toNat h8 h15]
  rfl

section
variable (mode : Nat) (sat ftz : Bool) (u v : BitVec (sewOf fmt))

theorem vopElem_sum : vopElem 0 fmt mode sat ftz u.toNat v.toNat
    = deliverInt fmt sat (intOf (decide (fmt < 12)) u + intOf (decide (fmt < 12)) v) := by
  rw [vopElem, elemOp_integer h8 h15]

theorem vopElem_difference : vopElem 1 fmt mode sat ftz u.toNat v.toNat
    = deliverInt fmt sat (intOf (decide (fmt < 12)) u - intOf (decide (fmt < 12)) v) := by
  rw [vopElem, elemOp_integer h8 h15]

theorem vopElem_product : vopElem 2 fmt mode sat ftz u.toNat v.toNat
    = deliverInt fmt sat (intOf (decide (fmt < 12)) u * intOf (decide (fmt < 12)) v) := by
  rw [vopElem, elemOp_integer h8 h15]

theorem vopElem_quotient : vopElem 3 fmt mode sat ftz u.toNat v.toNat
    = if v = 0 then ⟨2 ^ sewOf fmt - 1, DZ⟩ else deliverInt fmt sat ((intOf (decide (fmt < 12)) u).tdiv (intOf (decide (fmt < 12)) v)) := by
  rw [vopElem, elemOp_integer h8 h15, divInt, widthOf_of_integer h8 h15]
  exact if_congr (intOf_eq_zero_iff ..) rfl rfl

theorem vopElem_least : vopElem 4 fmt mode sat ftz u.toNat v.toNat
    = deliverInt fmt false (min (intOf (decide (fmt < 12)) u) (intOf (decide (fmt < 12)) v)) := by
  rw [vopElem, elemOp_integer h8 h15]

theorem vopElem_greatest : vopElem 5 fmt mode sat ftz u.toNat v.toNat
    = deliverInt fmt false (max (intOf (decide (fmt < 12)) u) (intOf (decide (fmt < 12)) v)) := by
  rw [vopElem, elemOp_integer h8 h15]

theorem vopElem_distance : vopElem 13 fmt mode sat ftz u.toNat v.toNat
    = deliverInt fmt sat (intOf (decide (fmt < 12)) u - intOf (decide (fmt < 12)) v).natAbs := by
  simp only [vopElem, elemOp_integer h8 h15]

end

/-- Without SAT a VOP function delivers its bit vector, and only a division by zero raises a flag. -/
theorem vopElem_wraps {fn : Nat} (hfn : fn < 14) (mode : Nat) (ftz : Bool) (u v : BitVec (sewOf fmt)) :
    vopElem fn fmt mode false ftz u.toNat v.toNat = ⟨(intElem (decide (fmt < 12)) fn u v).toNat, if fn = 3 ∧ v = 0 then DZ else 0⟩ := by
  have deliver {i : Int} {z : BitVec (sewOf fmt)} (h : BitVec.ofInt (sewOf fmt) i = z) : deliverInt fmt false i = ⟨z.toNat, 0⟩ := by
    rw [deliverInt_wraps h8 h15, h]
  have wrap {i : Int} {z : BitVec (sewOf fmt)} (h : BitVec.ofInt (sewOf fmt) i = z) : (⟨wrapInt fmt i, 0⟩ : FRes) = ⟨z.toNat, 0⟩ := by
    rw [wrapInt_of_integer h8 h15, h]
  have hsh : v.toNat % 2 ^ sewOf fmt % sewOf fmt = v.toNat % sewOf fmt := by rw [Nat.mod_eq_of_lt v.isLt]
  have hu := Nat.mod_eq_of_lt u.isLt
  match fn with
  | 0 => exact (vopElem_sum h8 h15 ..).trans (deliver (by rw [BitVec.ofInt_add, ofInt_intOf, ofInt_intOf]; rfl))
  | 1 => exact (vopElem_difference h8 h15 ..).trans (deliver (ofInt_intOf_sub ..))
  | 2 => exact (vopElem_product h8 h15 ..).trans (deliver (by rw [BitVec.ofInt_mul, ofInt_intOf, ofInt_intOf]; rfl))
  | 3 =>
    rw [vopElem_quotient h8 h15]
    simp only [intElem, true_and]
    split
    · rw [BitVec.toNat_allOnes]
    · exact deliver (ofInt_tdiv ..)
  | 4 =>
    refine (vopElem_least h8 h15 ..).trans (deliver ?_)
    simp only [intElem, intLess_iff, min_def_lt]
    split <;> exact ofInt_intOf ..
  | 5 =>
    refine (vopElem_greatest h8 h15 ..).trans (deliver ?_)
    simp only [intElem, intLess_iff, max_def_lt]
    split <;> exact ofInt_intOf ..
  | 6 => rfl
  | 7 => rfl
  | 8 => rfl
  | 9 => simp [vopElem, intElem, hu, Nat.mod_eq_of_lt v.isLt, Nat.shiftLeft_eq]
  | 10 => simp [vopElem, intElem, hu, Nat.mod_eq_of_lt v.isLt, Nat.shiftRight_eq_div_pow]
  | 11 =>
    refine wrap ?_
    rw [hsh, sextN_toNat]
    exact ofInt_sha ..
  | 12 =>
    refine wrap ?_
    rw [intVal_toNat h8 h15, intVal_toNat h8 h15]
    exact ofInt_high ..
  | 13 => exact (vopElem_distance h8 h15 ..).trans (deliver (ofInt_natAbs_sub ..))

/-- An integer delivered under SAT is held in the range of its type (R83). -/
theorem deliverInt_holds (i : Int) : deliverInt fmt true i = if i < (rangeOf fmt).1 then ⟨intPattern fmt (rangeOf fmt).1, SATF⟩
    else if (rangeOf fmt).2 < i then ⟨intPattern fmt (rangeOf fmt).2, SATF⟩ else ⟨intPattern fmt i, 0⟩ := by
  have hp (j : Int) : wrapInt fmt j = intPattern fmt j := by rw [wrapInt, widthOf_of_integer h8 h15]; rfl
  simp only [deliverInt, intRange_of_integer h8 h15, hp, Bool.true_and, decide_eq_true_eq]

end

/-- Settles O19: without SAT each function is one of bit vectors (`vopElem_wraps`), under it the five that saturate hold their integer in the range (`deliverInt_holds`),
and the others do not read it. -/
theorem integerElementValues : Obligations.IntegerElementValues := by
  unfold Obligations.IntegerElementValues
  intro fmt mode ftz h8 h15 u v
  have wraps {fn : Nat} (hfn : fn < 14) := vopElem_wraps h8 h15 hfn mode ftz u v
  have value {fn : Nat} (hfn : fn < 14) : BitVec.ofNat (sewOf fmt) (vopElem fn fmt mode false ftz u.toNat v.toNat).val = intElem (decide (fmt < 12)) fn u v := by
    rw [wraps hfn, BitVec.ofNat_toNat, BitVec.setWidth_eq]
  have holds := deliverInt_holds h8 h15
  refine ⟨value (by decide), value (by decide), value (by decide), value (by decide), value (by decide), value (by decide), value (by decide), value (by decide),
    value (by decide), value (by decide), value (by decide), value (by decide), value (by decide), value (by decide), fun fn hfn => ?_,
    (vopElem_sum h8 h15 ..).trans (holds _), (vopElem_difference h8 h15 ..).trans (holds _), (vopElem_product h8 h15 ..).trans (holds _),
    (vopElem_distance h8 h15 ..).trans (holds _), ?_, ?_⟩
  · have hr := wraps hfn
    exact ⟨(congrArg FRes.val hr).trans_lt (BitVec.isLt _), congrArg FRes.flags hr⟩
  · exact (vopElem_quotient h8 h15 ..).trans (if_congr Iff.rfl rfl (holds _))
  · simp only [List.forall_mem_cons]
    exact ⟨rfl, rfl, rfl, rfl, rfl, rfl, rfl, rfl, rfl, fun _ h => nomatch h⟩

end Sys2Proof.Machine
end

section
/-! SUPPORT. Rounding a magnitude into f64 to e5m2 (spec/03 R76, R80, R84): the model rounds m × 2^e with a sticky excess by integers, the statements O20 and O21 a magnitude by the
multiples of a power of two next to it. Both speak of one real number. -/

namespace Sys2Proof.Machine
open Sys2Proof Sys2Proof.Claims

set_option Elab.async false

/-! ### Powers of two -/

theorem two_eq_zpow (z : Int) : two z = (2 : Rat) ^ z := by
  unfold two
  split
  · next h => lift z to Nat using h; simp
  · next h =>
    obtain ⟨n, rfl⟩ : ∃ n : Nat, z = -n := ⟨(-z).toNat, by omega⟩
    simp

theorem two_gt_zero (z : Int) : 0 < two z := two_eq_zpow z ▸ zpow_pos zero_lt_two z

theorem two_add (y z : Int) : two (y + z) = two y * two z := by simp only [two_eq_zpow, zpow_add₀ (two_ne_zero' Rat)]

theorem two_natCast (n : Nat) : two n = 2 ^ n := by rw [two_eq_zpow, zpow_natCast]

theorem two_le_two {y z : Int} : two y ≤ two z ↔ y ≤ z := by simp only [two_eq_zpow, zpow_le_zpow_iff_right₀ (one_lt_two : (1 : Rat) < 2)]

theorem two_lt_two {y z : Int} : two y < two z ↔ y < z := by simp only [two_eq_zpow, zpow_lt_zpow_iff_right₀ (one_lt_two : (1 : Rat) < 2)]

/-- A power of two split at a lower one. -/
theorem two_split {e q : Int} (h : e ≤ q) : two q = (2 ^ (q - e).toNat : Nat) * two e := by
  push_cast
  rw [← two_natCast, ← two_add]
  congr 1
  omega

theorem ltScaled_iff (a : Nat) (p : Int) (b : Nat) (q : Int) : ltScaled a p b q = true ↔ (a : Rat) * two p < b * two q := by
  unfold ltScaled
  split
  · next h =>
    rw [decide_eq_true_iff, two_split h, ← mul_assoc, mul_lt_mul_iff_left₀ (two_gt_zero p)]
    norm_cast
  · next h =>
    rw [decide_eq_true_iff, two_split (by omega : q ≤ p), ← mul_assoc, mul_lt_mul_iff_left₀ (two_gt_zero q)]
    norm_cast

/-! ### Magnitudes -/

/-- The real number a magnitude is. -/
def MagIs (x : Mag) (v : ℝ) : Prop := ∀ r : Rat, (x.beyond r = true ↔ (r : ℝ) < v) ∧ (x.is r = true ↔ (r : ℝ) = v)

/-- The model's form of a real number: m × 2^e, with a positive excess below one unit of m when `sticky`. -/
def Near (v : ℝ) (m : Nat) (e : Int) (sticky : Bool) : Prop :=
  ((m * two e : Rat) : ℝ) ≤ v ∧ v < (((m + 1 : Nat) * two e : Rat) : ℝ) ∧ (sticky = false ↔ ((m * two e : Rat) : ℝ) = v)

theorem magIs_of (x : Rat) : MagIs (.of x) x := fun r => by simp [Mag.of]

theorem near_exact (m : Nat) (e : Int) : Near ((m * two e : Rat) : ℝ) m e false := by
  refine ⟨le_rfl, ?_, by simp⟩
  exact_mod_cast mul_lt_mul_of_pos_right (by exact_mod_cast m.lt_succ_self) (two_gt_zero e)

theorem mul_two_mono {j k : Nat} (e : Int) (h : j ≤ k) : ((j * two e : Rat) : ℝ) ≤ ((k * two e : Rat) : ℝ) := by
  exact_mod_cast mul_le_mul_of_nonneg_right (by exact_mod_cast h) (two_gt_zero e).le

section
variable {x : Mag} {v : ℝ} {m : Nat} {e : Int} {st : Bool}

theorem Near.le_iff (h : Near v m e st) (j : Nat) : ((j * two e : Rat) : ℝ) ≤ v ↔ j ≤ m := by
  obtain ⟨hle, hlt, -⟩ := h
  refine ⟨fun hj => ?_, fun hj => (mul_two_mono e hj).trans hle⟩
  by_contra hm
  exact absurd (hj.trans_lt hlt) (not_lt.2 (mul_two_mono e (by omega)))

theorem Near.eq_iff (h : Near v m e st) (j : Nat) : ((j * two e : Rat) : ℝ) = v ↔ j = m ∧ st = false := by
  refine ⟨fun hj => ?_, fun ⟨hj, hst⟩ => hj ▸ h.2.2.1 hst⟩
  have hm : j = m := le_antisymm ((h.le_iff j).1 hj.le) ?_
  · exact ⟨hm, h.2.2.2 (hm ▸ hj)⟩
  · have hle := h.1
    rw [← hj] at hle
    have : (m : Rat) ≤ j := le_of_mul_le_mul_right (by exact_mod_cast hle) (two_gt_zero e)
    exact_mod_cast this

theorem Near.lt_iff (h : Near v m e st) (j : Nat) : ((j * two e : Rat) : ℝ) < v ↔ j < m ∨ j = m ∧ st = true := by
  rw [lt_iff_le_and_ne, ne_eq, h.le_iff, h.eq_iff]
  cases st <;> (simp; omega)

/-- The same number over a lower exponent, when nothing is lost. -/
theorem Near.lower (h : Near v m e false) {q : Int} (hq : q ≤ e) : Near v (m * 2 ^ (e - q).toNat) q false := by
  have e1 : ((m * 2 ^ (e - q).toNat : Nat) * two q : Rat) = m * two e := by rw [two_split hq]; push_cast; ring
  obtain rfl := h.2.2.1 rfl
  rw [← e1]
  exact near_exact _ _

end

section
variable {x : Mag} {v : ℝ} (hx : MagIs x v)
include hx

theorem MagIs.beyond (r : Rat) : x.beyond r = true ↔ (r : ℝ) < v := (hx r).1
theorem MagIs.is (r : Rat) : x.is r = true ↔ (r : ℝ) = v := (hx r).2

/-- The multiple at or next below a magnitude, as a real number. -/
theorem floor_iff (q : Int) (f : Nat) : Floor x q f ↔ ((f * two q : Rat) : ℝ) ≤ v ∧ v < (((f + 1 : Nat) * two q : Rat) : ℝ) := by
  have h (r : Rat) : (x.beyond r || x.is r) = true ↔ (r : ℝ) ≤ v := by
    rw [Bool.or_eq_true, hx.beyond, hx.is, le_iff_lt_or_eq]
  rw [Floor, h, ← Bool.not_eq_true, h, not_le]

/-- The multiple next below a magnitude is a form of its number. -/
theorem near_of_floor {q : Int} {f : Nat} (hf : Floor x q f) : Near v f q (!x.is (f * two q)) := by
  obtain ⟨h1, h2⟩ := (floor_iff hx q f).1 hf
  exact ⟨h1, h2, by rw [Bool.not_eq_false', hx.is]⟩

theorem floor_unique {q : Int} {f g : Nat} (hf : Floor x q f) (hg : Floor x q g) : f = g :=
  le_antisymm (((near_of_floor hx hg).le_iff f).1 (near_of_floor hx hf).1) (((near_of_floor hx hf).le_iff g).1 (near_of_floor hx hg).1)

end

/-- How a magnitude compares with the middle of f × 2^q and the multiple above. -/
def halfOf (x : Mag) (q : Int) (f : Nat) : Ordering :=
  if x.beyond ((f + 1 / 2) * two q) then .gt else if x.is ((f + 1 / 2) * two q) then .eq else .lt

theorem rounded_eq (mode : Nat) (neg : Bool) (x : Mag) (q : Int) (f : Nat) :
    rounded mode neg x q f = if roundUp mode neg f (halfOf x q f) (!x.is (f * two q)) then f + 1 else f := by
  unfold rounded roundUp halfOf
  dsimp only
  generalize x.beyond ((f + 1 / 2) * two q) = beyond
  generalize x.is ((f + 1 / 2) * two q) = half
  split <;> cases beyond <;> cases half <;> simp

theorem roundUp_exact (mode : Nat) (neg : Bool) (k : Nat) : roundUp mode neg k .lt false = false := by
  unfold roundUp
  split <;> simp

section
variable {x : Mag} {v : ℝ} (hx : MagIs x v)
include hx

theorem halfOf_gt_iff (q : Int) (f : Nat) : halfOf x q f = .gt ↔ (((f + 1 / 2) * two q : Rat) : ℝ) < v := by
  rw [← hx.beyond, halfOf]
  cases x.beyond ((f + 1 / 2) * two q) <;> cases x.is ((f + 1 / 2) * two q) <;> decide

theorem halfOf_eq_iff (q : Int) (f : Nat) : halfOf x q f = .eq ↔ (((f + 1 / 2) * two q : Rat) : ℝ) = v := by
  rw [← hx.is, halfOf]
  cases hb : x.beyond ((f + 1 / 2) * two q)
  · cases x.is ((f + 1 / 2) * two q) <;> decide
  · have hi : x.is ((f + 1 / 2) * two q) = false := by
      rw [← Bool.not_eq_true, hx.is]
      exact ((hx.beyond _).1 hb).ne
    rw [hi]
    decide

theorem halfOf_exact {q : Int} {f : Nat} (h : ((f * two q : Rat) : ℝ) = v) : halfOf x q f = .lt := by
  have hlt : v < (((f + 1 / 2) * two q : Rat) : ℝ) := h ▸ by exact_mod_cast mul_lt_mul_of_pos_right (lt_add_of_pos_right _ (by norm_num)) (two_gt_zero q)
  match ho : halfOf x q f with
  | .lt => rfl
  | .gt => exact absurd ((halfOf_gt_iff hx q f).1 ho) (not_lt.2 hlt.le)
  | .eq => exact absurd ((halfOf_eq_iff hx q f).1 ho) hlt.ne'

/-- A multiple that is the number is not rounded away. -/
theorem rounded_exact (mode : Nat) (neg : Bool) {q : Int} {f : Nat} (h : x.is (f * two q) = true) : rounded mode neg x q f = f := by
  rw [rounded_eq, halfOf_exact hx ((hx.is _).1 h), h, Bool.not_true, roundUp_exact]
  rfl

/-- Whether a rounded multiple is the number itself is whether the multiple below it is. -/
theorem is_rounded (mode : Nat) (neg : Bool) {q : Int} {f : Nat} (hf : Floor x q f) : x.is (rounded mode neg x q f * two q) = x.is (f * two q) := by
  cases h : x.is (f * two q) with
  | true => rw [rounded_exact hx mode neg h, h]
  | false =>
    have hn := near_of_floor hx hf
    rw [← Bool.not_eq_true, hx.is, hn.eq_iff, h]
    simp

/-- The model's rounding of a form of a number to a multiple of a higher power is that of the number. -/
theorem roundAt_eq (mode : Nat) (neg : Bool) {m : Nat} {e : Int} {st : Bool} (hn : Near v m e st) {q : Int} (hst : st = true → e < q) {f : Nat} (hf : Floor x q f) :
    roundAt mode neg m e st q = (rounded mode neg x q f, !x.is (f * two q)) := by
  have hb := near_of_floor hx hf
  unfold roundAt
  split
  · next hq =>
    obtain rfl : st = false := by cases st; rfl; exact absurd (hst rfl) (not_lt.2 hq)
    have hl := hn.lower hq
    obtain ⟨hm, hi⟩ := (hb.eq_iff _).1 (hl.2.2.1 rfl)
    rw [hm, hi, rounded_exact hx mode neg (by simpa using hi)]
  · next hq =>
    obtain ⟨n, hsh⟩ : ∃ n, (q - e).toNat = n + 1 := ⟨(q - e).toNat - 1, by omega⟩
    have hq2 : two q = ((2 * 2 ^ n : Nat) : Rat) * two e := by rw [two_split (by omega : e ≤ q), hsh, pow_succ']
    have hmul (j : Nat) : ((j * two q : Rat) : ℝ) = (((j * (2 * 2 ^ n) : Nat) * two e : Rat) : ℝ) := by rw [hq2]; push_cast; ring
    have hhalf : (((f + 1 / 2) * two q : Rat) : ℝ) = (((f * (2 * 2 ^ n) + 2 ^ n : Nat) * two e : Rat) : ℝ) := by rw [hq2]; push_cast; ring
    have hle : f * (2 * 2 ^ n) ≤ m := (hn.le_iff _).1 (hmul f ▸ hb.1)
    have hlt : m < (f + 1) * (2 * 2 ^ n) := by
      have h := hb.2.1.not_ge
      rwa [hmul, hn.le_iff, not_le] at h
    have hk : m / 2 ^ (n + 1) = f := by
      rw [pow_succ']
      exact Nat.div_eq_of_lt_le hle hlt
    have hr : m = f * (2 * 2 ^ n) + m % 2 ^ (n + 1) := by
      have h := Nat.div_add_mod' m (2 ^ (n + 1))
      rw [hk, pow_succ'] at h
      rw [pow_succ']
      exact h.symm
    rw [hsh, rounded_eq]
    dsimp only
    rw [hk]
    generalize m % 2 ^ (n + 1) = r at hr
    have hexact : (r != 0 || st) = !x.is (f * two q) := by
      rw [← Bool.not_eq_eq_eq_not, Bool.eq_iff_iff, hx.is, hmul, hn.eq_iff]
      cases st
      · simp; omega
      · simp
    have hmid : (if r > 2 ^ n then Ordering.gt else if r = 2 ^ n then (if st then .gt else .eq) else .lt) = halfOf x q f := by
      have hgt := halfOf_gt_iff hx q f
      have heq := halfOf_eq_iff hx q f
      rw [hhalf, hn.lt_iff] at hgt
      rw [hhalf, hn.eq_iff] at heq
      split
      · exact (hgt.2 (.inl (by omega))).symm
      split
      · cases st
        · exact (heq.2 ⟨by omega, rfl⟩).symm
        · exact (hgt.2 (.inr ⟨by omega, rfl⟩)).symm
      · match ho : halfOf x q f with
        | .lt => rfl
        | .gt => exact absurd (hgt.1 ho) (by omega)
        | .eq => exact absurd (heq.1 ho).1 (by omega)
    simp only [Nat.add_sub_cancel, hexact, hmid]

end

end Sys2Proof.Machine
end

section
/-! SUPPORT. The formats' own numbers: least exponent, greatest exponent, largest finite magnitude (spec/03 R68 to R71), and the model's `roundF` by them. -/

namespace Sys2Proof.Machine
open Sys2Proof Sys2Proof.Claims
set_option Elab.async false

/-! ### Formats -/

theorem shapeOf_eq (fmt : Nat) : shapeOf fmt = ⟨(layout fmt).1, fracBits fmt, (layout fmt).2.2⟩ := by
  unfold shapeOf fracBits layout
  split <;> rfl

/-- The largest exponent of a format whose infinities and NaNs take one exponent. -/
def greatestExp (fmt : Nat) : Int := (2 ^ (layout fmt).1 - 2 : Nat) - ((layout fmt).2.2 : Int)

theorem maxFinite_ieee {fmt : Nat} (h : fmt ≠ 4) : maxFinite fmt = (2 ^ (fracBits fmt + 1) - 1, greatestExp fmt - fracBits fmt) := by
  have he : ((2 ^ (layout fmt).1 - 2 : Nat) : Int) = 2 ^ (layout fmt).1 - 2 := by
    unfold layout
    split <;> rfl
  rw [maxFinite, if_neg h, shapeOf_eq, greatestExp, he]

theorem two_add_nat (n : Nat) (z : Int) : two (n + z) = (2 ^ n : Nat) * two z := by
  rw [two_add, two_natCast]
  push_cast
  rfl

theorem largest_eq (fmt : Nat) : largest fmt = (maxFinite fmt).1 * two (maxFinite fmt).2 := by
  by_cases h : fmt = 4
  · subst h
    rw [show (maxFinite 4).2 = (5 : Nat) from rfl, two_natCast]
    norm_num [largest, maxFinite, layout]
  · have h1 : two (-(fracBits fmt : Int)) * two (fracBits fmt) = 1 := by rw [← two_add, neg_add_cancel]; rfl
    rw [maxFinite_ieee h, largest]
    dsimp only
    rw [if_neg h]
    change (2 - two (-(fracBits fmt : Int))) * two (greatestExp fmt) = _
    obtain ⟨z, hz⟩ : ∃ z, greatestExp fmt = fracBits fmt + z := ⟨greatestExp fmt - fracBits fmt, by omega⟩
    rw [hz, add_sub_cancel_left, two_add, Nat.cast_sub Nat.one_le_two_pow, pow_succ]
    push_cast
    rw [← two_natCast]
    linear_combination (-two z) * h1

theorem two_greatestExp_le {fmt : Nat} (h : fmt ≠ 4) : two (greatestExp fmt) ≤ largest fmt := by
  rw [largest_eq, maxFinite_ieee h]
  obtain ⟨z, hz⟩ : ∃ z, greatestExp fmt = fracBits fmt + z := ⟨greatestExp fmt - fracBits fmt, by omega⟩
  rw [hz, add_sub_cancel_left, two_add_nat]
  refine mul_le_mul_of_nonneg_right ?_ (two_gt_zero z).le
  exact_mod_cast show 2 ^ fracBits fmt ≤ 2 ^ (fracBits fmt + 1) - 1 by
    have := Nat.one_le_two_pow (n := fracBits fmt)
    omega

theorem two_leastExp_le (fmt : Nat) : two (leastExp fmt) ≤ largest fmt := by
  by_cases h : fmt = 4
  · subst h
    exact (two_le_two.2 (by decide : leastExp 4 ≤ 0)).trans (by norm_num [two, largest, layout])
  · refine (two_le_two.2 ?_).trans (two_greatestExp_le h)
    unfold leastExp greatestExp layout
    split <;> decide

/-! ### The magnitude rounded by the model -/

section
variable {x : Mag} {v : ℝ} {m : Nat} {e : Int} {st : Bool}

/-- A number lies in the binade of its leading bit. -/
theorem Near.binade (h : Near v m e st) (hm : m ≠ 0) : ((two (m.log2 + e) : Rat) : ℝ) ≤ v ∧ v < ((two (m.log2 + e + 1) : Rat) : ℝ) := by
  rw [show (m.log2 : Int) + e + 1 = (m.log2 + 1 : Nat) + e by push_cast; ring, two_add_nat, two_add_nat, ← not_le, h.le_iff, h.le_iff]
  exact ⟨Nat.log2_self_le hm, Nat.not_le.2 Nat.lt_log2_self⟩

theorem binade_unique {a b : Int} (ha : ((two a : Rat) : ℝ) ≤ v ∧ v < ((two (a + 1) : Rat) : ℝ)) (hb : ((two b : Rat) : ℝ) ≤ v ∧ v < ((two (b + 1) : Rat) : ℝ)) :
    a = b := by
  have lt {a b : Int} (h : ((two a : Rat) : ℝ) < ((two b : Rat) : ℝ)) : a < b := two_lt_two.1 (by exact_mod_cast h)
  have h1 := lt (ha.1.trans_lt hb.2)
  have h2 := lt (hb.1.trans_lt ha.2)
  omega

variable {fmt : Nat} {q₀ q : Int} {f₀ f : Nat}

theorem le_rounded_le (mode : Nat) (neg : Bool) (x : Mag) (q : Int) (f : Nat) : f ≤ rounded mode neg x q f ∧ rounded mode neg x q f ≤ f + 1 := by
  rw [rounded_eq]
  split <;> omega

variable (hx : MagIs x v) (h1 : 2 ^ fracBits fmt ≤ f₀) (h2 : f₀ < 2 ^ (fracBits fmt + 1)) (hf₀ : Floor x q₀ f₀)
include hx h1 h2 hf₀

/-- The power of two under a number's leading bits. -/
theorem leading_eq (hn : Near v m e st) (hm : m ≠ 0) : (m.log2 : Int) + e - fracBits fmt = q₀ := by
  have hl : f₀.log2 = fracBits fmt := (Nat.log2_eq_iff (by have := Nat.two_pow_pos (fracBits fmt); omega)).2 ⟨h1, h2⟩
  have h := binade_unique (hn.binade hm) ((near_of_floor hx hf₀).binade (by have := Nat.two_pow_pos (fracBits fmt); omega))
  omega

omit h1 in
theorem lt_two_of_floor : v < ((two (fracBits fmt + 1 + q₀) : Rat) : ℝ) := by
  have h := (near_of_floor hx hf₀).le_iff (2 ^ (fracBits fmt + 1))
  rw [show (fracBits fmt : Int) + 1 = (fracBits fmt + 1 : Nat) by push_cast; rfl, two_add_nat, ← not_le, h]
  omega

omit h1 in
/-- At a higher place the multiple below has fewer bits. -/
theorem floor_lt_of_lt (hq : q₀ < q) (hf : Floor x q f) : f < 2 ^ fracBits fmt := by
  have h := (near_of_floor hx hf).le_iff (2 ^ fracBits fmt)
  rw [← not_le, ← h, ← two_add_nat, not_le]
  refine (lt_two_of_floor hx h2 hf₀).trans_le ?_
  exact_mod_cast two_le_two.2 (by omega)

variable (hq : q = max q₀ (leastExp fmt - fracBits fmt)) (hf : Floor x q f)
include hq hf

omit h1 in
/-- Rounded at the place that the format has, or with an unbounded exponent, a number overflows alike. -/
theorem largest_lt_iff (mode : Nat) (neg : Bool) :
    largest fmt < rounded mode neg x q f * two q ↔ largest fmt < rounded mode neg x q₀ f₀ * two q₀ := by
  rcases (show q₀ ≤ q from hq ▸ le_max_left ..).eq_or_lt with rfl | hlt
  · rw [floor_unique hx hf hf₀]
  · have hl := two_leastExp_le fmt
    have he : leastExp fmt = fracBits fmt + q := by omega
    have hk : rounded mode neg x q f ≤ 2 ^ fracBits fmt := (le_rounded_le ..).2.trans (floor_lt_of_lt hx h2 hf₀ hlt hf)
    have hk₀ : rounded mode neg x q₀ f₀ ≤ 2 ^ (fracBits fmt + 1) := (le_rounded_le ..).2.trans h2
    refine iff_of_false (not_lt.2 (le_trans ?_ hl)) (not_lt.2 (le_trans ?_ hl))
    · rw [he, two_add_nat]
      exact mul_le_mul_of_nonneg_right (by exact_mod_cast hk) (two_gt_zero q).le
    · refine le_trans ?_ (two_le_two.2 (show ((fracBits fmt + 1 : Nat) : Int) + q₀ ≤ leastExp fmt by omega))
      rw [two_add_nat]
      exact mul_le_mul_of_nonneg_right (by exact_mod_cast hk₀) (two_gt_zero q₀).le

/-- The model's result for a nonzero magnitude, in the terms of the statements. -/
theorem roundF_eq (hn : Near v m e st) (hm : m ≠ 0) (hst : st = true → fracBits fmt < m.log2) (mode : Nat) (sat ftz neg : Bool) :
    roundF fmt mode sat ftz neg m e st =
      let unbounded : Rat := rounded mode neg x q₀ f₀ * two q₀
      let y : Rat := rounded mode neg x q f * two q
      if largest fmt < unbounded then overflowF fmt mode sat neg
      else if ftz = true ∧ fmt ≤ 3 ∧ y ≠ 0 ∧ y < two (leastExp fmt) then ⟨signBit fmt neg, UF ||| NX⟩
      else ⟨packF fmt neg (rounded mode neg x q f) q, when (!x.is y) NX ||| when (!x.is y && decide (unbounded < two (leastExp fmt))) UF⟩ := by
  have hq₀ := leading_eq hx h1 h2 hf₀ hn hm
  have hqq : q₀ ≤ q := hq ▸ le_max_left ..
  have hlow : st = true → e < q₀ := fun h => by have := hst h; omega
  have hr := roundAt_eq hx mode neg hn (fun h => (hlow h).trans_le hqq) hf
  have hr₀ := roundAt_eq hx mode neg hn hlow hf₀
  have hflush : (rounded mode neg x q f != 0) = true ↔ (rounded mode neg x q f * two q : Rat) ≠ 0 := by
    simp [(two_gt_zero q).ne']
  have hov : ltScaled (maxFinite fmt).1 (maxFinite fmt).2 (rounded mode neg x q f) q = true ↔ largest fmt < rounded mode neg x q₀ f₀ * two q₀ := by
    rw [ltScaled_iff, ← largest_eq, largest_lt_iff hx h2 hf₀ hq hf]
  have hsmall (k : Nat) (p : Int) : ltScaled k p 1 (leastExp fmt) = decide (k * two p < two (leastExp fmt)) := by
    rw [Bool.eq_iff_iff, ltScaled_iff, decide_eq_true_iff, Nat.cast_one, one_mul]
  unfold roundF
  rw [shapeOf_eq]
  dsimp only
  rw [show (1 : Int) - ((layout fmt).2.2 : Int) = leastExp fmt from rfl, hq₀, ← hq, hr, hr₀, is_rounded hx mode neg hf]
  dsimp only
  refine if_congr hov rfl (if_congr ?_ rfl ?_)
  · rw [hsmall]
    simp only [Bool.and_eq_true, hflush, isArith, decide_eq_true_eq, and_assoc]
  · rw [hsmall]
    rfl

end

end Sys2Proof.Machine
end

section
/-! SUPPORT. The patterns of f64 to e5m2 by sign, exponent field and fraction field (spec/03 R68 to R70). -/

namespace Sys2Proof.Machine
open Sys2Proof Sys2Proof.Claims
set_option Elab.async false

/-! ### The pattern of a rounded magnitude -/

theorem signBit_eq {fmt : Nat} (h : fmt ≤ 7) (neg : Bool) : signBit fmt neg = signPattern fmt neg := by
  cases neg
  · rfl
  · interval_cases fmt <;> rfl

theorem signPattern_eq {fmt : Nat} (h : fmt ≤ 5) (neg : Bool) : signPattern fmt neg = neg.toNat * 2 ^ ((layout fmt).1 + fracBits fmt) := by
  cases neg
  · simp [signPattern]
  · interval_cases fmt <;> rfl

theorem sewOf_layout {fmt : Nat} (h : fmt ≤ 5) : sewOf fmt = (layout fmt).1 + fracBits fmt + 1 := by interval_cases fmt <;> rfl

section
variable {eb fb E M : Nat} (neg : Bool) (hE : E < 2 ^ eb) (hM : M < 2 ^ fb)
include hE hM

theorem fields_lt : E * 2 ^ fb + M < 2 ^ (eb + fb) := by
  rw [pow_add]
  calc E * 2 ^ fb + M < (E + 1) * 2 ^ fb := by rw [add_mul, one_mul]; omega
    _ ≤ 2 ^ eb * 2 ^ fb := Nat.mul_le_mul_right _ hE

theorem fields_sign : (neg.toNat * 2 ^ (eb + fb) + (E * 2 ^ fb + M)).testBit (eb + fb) = neg := by
  rw [Nat.mul_comm, Nat.testBit_two_pow_mul_add _ (fields_lt hE hM)]
  cases neg <;> simp

theorem fields_exponent : (neg.toNat * 2 ^ (eb + fb) + (E * 2 ^ fb + M)) / 2 ^ fb % 2 ^ eb = E := by
  rw [pow_add, ← mul_assoc, ← add_assoc, ← add_mul, Nat.add_comm _ M, Nat.add_mul_div_right _ _ (Nat.two_pow_pos fb), Nat.div_eq_of_lt hM, Nat.zero_add,
    Nat.add_comm, Nat.add_mul_mod_self_right, Nat.mod_eq_of_lt hE]

omit hE in
theorem fields_fraction : (neg.toNat * 2 ^ (eb + fb) + (E * 2 ^ fb + M)) % 2 ^ fb = M := by
  rw [pow_add, ← mul_assoc, ← add_assoc, ← add_mul, Nat.add_comm _ M, Nat.add_mul_mod_self_right, Nat.mod_eq_of_lt hM]

theorem fields_width : neg.toNat * 2 ^ (eb + fb) + (E * 2 ^ fb + M) < 2 ^ (eb + fb + 1) := by
  have h := fields_lt hE hM
  have hn : neg.toNat ≤ 1 := Bool.toNat_le neg
  calc _ < neg.toNat * 2 ^ (eb + fb) + 2 ^ (eb + fb) := by omega
    _ ≤ 2 ^ (eb + fb + 1) := by rw [pow_succ, mul_two]; exact Nat.add_le_add_right (Nat.mul_le_of_le_div _ _ _ (by rw [Nat.div_self (Nat.two_pow_pos _)]; exact hn)) _

end

/-- An exponent that no format keeps for its infinities and NaNs, with a fraction that is no NaN of e4m3. -/
def Finite (fmt E M : Nat) : Prop := if fmt = 4 then ¬ (E = 15 ∧ M = 7) else E ≠ 2 ^ (layout fmt).1 - 1

/-- The value of a pattern with exponent field E and fraction field M. -/
def finiteMag (fmt E M : Nat) : Rat :=
  if E = 0 then M * two (leastExp fmt - fracBits fmt) else (2 ^ fracBits fmt + M : Nat) * two (E - (layout fmt).2.2 - fracBits fmt)

theorem two_sub_fracBits (z : Int) (fmt : Nat) : two (z - fracBits fmt) = two z / (2 ^ fracBits fmt : Nat) := by
  rw [eq_div_iff (by positivity), mul_comm, ← two_add_nat]
  congr 1
  omega

theorem significand_eq (c : Rat) (M n : Nat) : c * (1 + M / (2 ^ n : Nat)) = (2 ^ n + M : Nat) * (c / (2 ^ n : Nat)) := by
  push_cast
  field_simp

theorem two_le_exponents (fmt : Nat) : 2 ≤ 2 ^ (layout fmt).1 := by
  unfold layout
  split <;> decide

/-- What a pattern of f64 to e5m2 stands for, by its fields. -/
theorem meaning_eq {fmt : Nat} (h : fmt ≤ 5) (p : Nat) : meaning fmt p =
    let neg := p.testBit ((layout fmt).1 + fracBits fmt)
    let E := p / 2 ^ fracBits fmt % 2 ^ (layout fmt).1
    let M := p % 2 ^ fracBits fmt
    if fmt = 4 ∧ E = 15 ∧ M = 7 then .nan false
    else if fmt ≠ 4 ∧ E = 2 ^ (layout fmt).1 - 1 then (if M = 0 then .inf neg else .nan (decide (fmt ≤ 3) && !M.testBit (fracBits fmt - 1)))
    else .fin neg (finiteMag fmt E M) := by
  have h67 : ¬ (fmt = 6 ∨ fmt = 7) := by omega
  rw [meaning, if_neg h67]
  refine if_congr Iff.rfl rfl (if_congr Iff.rfl rfl ?_)
  rw [finiteMag, two_sub_fracBits, two_sub_fracBits, apply_ite (FNum.fin _)]
  refine if_congr Iff.rfl (congrArg _ ?_) (congrArg _ ?_)
  · exact mul_div_left_comm (two (leastExp fmt)) ((p % 2 ^ fracBits fmt : Nat) : Rat) (2 ^ fracBits fmt : Nat)
  · exact significand_eq ..

/-- The value of a finite pattern by its fields. -/
theorem meaning_fields {fmt : Nat} (h : fmt ≤ 5) (neg : Bool) {E M : Nat} (hE : E < 2 ^ (layout fmt).1) (hM : M < 2 ^ fracBits fmt) (hfin : Finite fmt E M) :
    meaning fmt (signPattern fmt neg + (E * 2 ^ fracBits fmt + M)) = .fin neg (finiteMag fmt E M) := by
  rw [signPattern_eq h, meaning_eq h]
  dsimp only
  rw [fields_sign neg hE hM, fields_exponent neg hE hM, fields_fraction neg hM]
  rw [Finite] at hfin
  rw [if_neg, if_neg]
  · rintro ⟨h4, hE⟩
    exact (if_neg h4 ▸ hfin) hE
  · rintro ⟨h4, hEM⟩
    exact (if_pos h4 ▸ hfin) hEM

theorem pattern_lt {fmt : Nat} (h : fmt ≤ 5) (neg : Bool) {E M : Nat} (hE : E < 2 ^ (layout fmt).1) (hM : M < 2 ^ fracBits fmt) :
    signPattern fmt neg + (E * 2 ^ fracBits fmt + M) < 2 ^ sewOf fmt := by
  rw [signPattern_eq h, sewOf_layout h]
  exact fields_width neg hE hM

theorem largest_lt {fmt : Nat} (h4 : fmt ≠ 4) : largest fmt < two (greatestExp fmt + 1) := by
  rw [largest_eq, maxFinite_ieee h4, show greatestExp fmt + 1 = (fracBits fmt + 1 : Nat) + (greatestExp fmt - fracBits fmt) by push_cast; ring, two_add_nat]
  refine mul_lt_mul_of_pos_right ?_ (two_gt_zero _)
  exact_mod_cast Nat.sub_one_lt (Nat.two_pow_pos _).ne'

/-- The exponent of a value that is not beyond the largest is one of finite patterns. -/
theorem finite_of_le {fmt : Nat} (h : fmt ≤ 5) {E M : Nat} (hy : (2 ^ fracBits fmt + M : Nat) * two (E - (layout fmt).2.2 - fracBits fmt) ≤ largest fmt) :
    E < 2 ^ (layout fmt).1 ∧ Finite fmt E M := by
  have hle : two (E - (layout fmt).2.2) ≤ largest fmt := by
    refine le_trans ?_ hy
    rw [← add_sub_cancel (fracBits fmt : Int) (E - (layout fmt).2.2), two_add_nat, add_sub_cancel]
    exact mul_le_mul_of_nonneg_right (Nat.cast_le.2 (Nat.le_add_right ..)) (two_gt_zero _).le
  by_cases h4 : fmt = 4
  · subst h4
    have hE : (E : Int) - 7 < 9 := two_lt_two.1 (hle.trans_lt (by rw [show (9 : Int) = (9 : Nat) from rfl, two_natCast]; norm_num [largest, layout]))
    refine ⟨show E < 16 by omega, ?_⟩
    rw [Finite, if_pos rfl]
    rintro ⟨rfl, rfl⟩
    change ((15 : Nat) : Rat) * two (5 : Nat) ≤ 448 at hy
    rw [two_natCast] at hy
    norm_num at hy
  · have hE := two_lt_two.1 (hle.trans_lt (largest_lt h4))
    have hp := two_le_exponents fmt
    rw [greatestExp] at hE
    rw [Finite, if_neg h4]
    omega

/-- The pattern that the model packs stands for its value. -/
theorem packF_meaning {fmt : Nat} (h : fmt ≤ 5) (neg : Bool) {k : Nat} {q : Int} (hk : k ≤ 2 ^ (fracBits fmt + 1)) (hq : leastExp fmt - fracBits fmt ≤ q)
    (hsub : k < 2 ^ fracBits fmt → q = leastExp fmt - fracBits fmt) (hy : k * two q ≤ largest fmt) :
    meaning fmt (packF fmt neg k q) = .fin neg (k * two q) ∧ packF fmt neg k q < 2 ^ sewOf fmt := by
  have hp := Nat.two_pow_pos (fracBits fmt)
  suffices hs : ∃ E M, packF fmt neg k q = signPattern fmt neg + (E * 2 ^ fracBits fmt + M) ∧ E < 2 ^ (layout fmt).1 ∧ M < 2 ^ fracBits fmt ∧ Finite fmt E M
      ∧ finiteMag fmt E M = k * two q by
    obtain ⟨E, M, hpack, hE, hM, hfin, hmag⟩ := hs
    rw [hpack, ← hmag]
    exact ⟨meaning_fields h neg hE hM hfin, pattern_lt h neg hE hM⟩
  have hlow : leastExp fmt = 1 - (layout fmt).2.2 := rfl
  have packed {E M : Nat} (hE : E ≠ 0) (hM : M < 2 ^ fracBits fmt) (hval : (2 ^ fracBits fmt + M : Nat) * two (E - (layout fmt).2.2 - fracBits fmt) = k * two q) :
      E < 2 ^ (layout fmt).1 ∧ M < 2 ^ fracBits fmt ∧ Finite fmt E M ∧ finiteMag fmt E M = k * two q := by
    obtain ⟨hlt, hfin⟩ := finite_of_le h (hval.trans_le hy)
    exact ⟨hlt, hM, hfin, by rw [finiteMag, if_neg hE, hval]⟩
  rw [packF, shapeOf_eq, signBit_eq (by omega)]
  dsimp only
  split
  · next hlt =>
    refine ⟨0, k, by rw [Nat.zero_mul, Nat.zero_add], Nat.two_pow_pos _, hlt, ?_, ?_⟩
    · have h2 := two_le_exponents fmt
      rw [Finite]
      split <;> omega
    · rw [finiteMag, if_pos rfl, hsub hlt]
  split
  · next hge hlt =>
    refine ⟨(q + fracBits fmt + (layout fmt).2.2).toNat, k - 2 ^ fracBits fmt, rfl, packed (by omega) (by rw [pow_succ] at hlt; omega) ?_⟩
    congr 2 <;> omega
  · next hge hge' =>
    obtain rfl : k = 2 ^ (fracBits fmt + 1) := by omega
    refine ⟨(q + fracBits fmt + 1 + (layout fmt).2.2).toNat, 0, rfl, packed (by omega) hp ?_⟩
    rw [show ((q + fracBits fmt + 1 + (layout fmt).2.2).toNat : Int) - (layout fmt).2.2 - fracBits fmt = (1 : Nat) + q by omega, two_add_nat, Nat.add_zero, pow_succ]
    push_cast
    ring

end Sys2Proof.Machine
end

section
/-! SUPPORT. `roundF` is the statement's rounding (spec/03 R76, R80, R84), and the finite formats' decoded values are the pattern's meaning. -/

namespace Sys2Proof.Machine
open Sys2Proof Sys2Proof.Claims
set_option Elab.async false

/-! ### Special patterns -/

section
variable {fmt : Nat} (h : fmt ≤ 7)
include h

theorem canonNan_eq : canonNan fmt = nanPattern fmt := by interval_cases fmt <;> rfl

theorem maxBits_eq (neg : Bool) : maxBits fmt neg = maxPattern fmt neg := by
  cases neg <;> interval_cases fmt <;> rfl

theorem infBits_eq (neg : Bool) : infBits fmt neg = infPattern fmt neg := by
  rw [infBits, infPattern, signBit_eq h, shapeOf_eq]

theorem overflowF_eq (mode : Nat) (sat neg : Bool) : overflowF fmt mode sat neg = overflows fmt mode sat neg := by
  unfold overflowF overflows
  rw [maxBits_eq h, infBits_eq h, canonNan_eq (by decide)]
  refine if_congr Iff.rfl rfl (if_congr Iff.rfl rfl ?_)
  match mode with
  | 0 => simp
  | 1 => simp
  | 2 => cases neg <;> simp
  | 3 => cases neg <;> simp
  | n + 4 => simp

theorem overflowF_raises (mode : Nat) (sat neg : Bool) : (overflowF fmt mode sat neg).flags &&& OF ≠ 0 := by
  rw [overflowF_eq h, overflows]
  have h1 : (OF ||| NX ||| SATF) &&& OF ≠ 0 := by decide
  have h2 : (OF ||| NX ||| NF) &&& OF ≠ 0 := by decide
  have h3 : (OF ||| NX) &&& OF ≠ 0 := by decide
  split
  · exact h1
  split
  · exact h2
  split
  · exact h3
  · exact h2

end

/-! ### Rounding -/

/-- The flags of a result that does not overflow. -/
theorem when_noOF (a b : Bool) : (when a NX ||| when b UF) &&& OF = 0 := by
  cases a <;> cases b <;> decide

/-- Another delivery for an overflow. -/
theorem RoundsTo_overflow {fmt mode : Nat} {ftz neg : Bool} {x : Mag} {ovf ovf' r : FRes} (h : RoundsTo fmt mode ftz neg x ovf r) (ho : ovf.flags &&& OF ≠ 0) :
    RoundsTo fmt mode ftz neg x ovf' (if r.flags &&& OF != 0 then ovf' else r) := by
  intro q₀ q f₀ f h1 h2 hf₀ hq hf
  have hr := h q₀ q f₀ f h1 h2 hf₀ hq hf
  dsimp only at hr ⊢
  split
  · next hlt =>
    rw [if_pos hlt] at hr
    rw [hr, if_pos (bne_iff_ne.2 ho)]
  next hlt =>
  rw [if_neg hlt] at hr
  split
  · next hfl =>
    rw [if_pos hfl] at hr
    have hno : (UF ||| NX) &&& OF = 0 := by decide
    rw [hr, hno]
    rfl
  · next hfl =>
    rw [if_neg hfl] at hr
    rw [hr.2.2, when_noOF]
    exact hr

section
variable {x : Mag} {v : ℝ} {m : Nat} {e : Int} {st : Bool}

/-- The model's result for a nonzero magnitude is the magnitude rounded as the statements have it. -/
theorem roundF_rounds {fmt : Nat} (h : fmt ≤ 5) (hx : MagIs x v) (hn : Near v m e st) (hm : m ≠ 0) (hst : st = true → fracBits fmt < m.log2)
    (mode : Nat) (sat ftz neg : Bool) :
    RoundsTo fmt mode ftz neg x (overflowF fmt mode sat neg) (roundF fmt mode sat ftz neg m e st) := by
  intro q₀ q f₀ f h1 h2 hf₀ hq hf
  dsimp only
  rw [roundF_eq hx h1 h2 hf₀ hq hf hn hm hst]
  dsimp only
  split
  · rfl
  next hov =>
  split
  · rw [signBit_eq (by omega)]
  rw [← largest_lt_iff hx h2 hf₀ hq hf, not_lt] at hov
  have hle := le_rounded_le mode neg x q f
  have hqq : q₀ ≤ q := hq ▸ le_max_left ..
  have hk : rounded mode neg x q f ≤ 2 ^ (fracBits fmt + 1) := by
    refine hle.2.trans ?_
    rcases hqq.eq_or_lt with rfl | hlt
    · exact floor_unique hx hf hf₀ ▸ h2
    · exact (floor_lt_of_lt hx h2 hf₀ hlt hf).trans_le (Nat.pow_le_pow_right Nat.two_pos (Nat.le_succ _))
  have hsub : rounded mode neg x q f < 2 ^ fracBits fmt → q = leastExp fmt - fracBits fmt := by
    intro hk
    rcases hqq.eq_or_lt with rfl | hlt
    · rw [floor_unique hx hf hf₀] at hle hk
      omega
    · omega
  obtain ⟨hval, hlt⟩ := packF_meaning h neg hk (hq ▸ le_max_right ..) hsub hov
  exact ⟨hval, hlt, rfl⟩

end

/-! ### Exact values -/

/-- What an exact value of the model stands for. -/
def numOf : FVal → FNum
  | .nan s => .nan s
  | .inf neg => .inf neg
  | .fin neg m e => .fin neg (m * two e)

theorem bit_eq_testBit (v i : Nat) : bit v i = v.testBit i := by
  rw [bit, Nat.testBit_eq_decide_div_mod_eq]
  rfl

theorem decodeF_eq {fmt : Nat} (h : fmt ≤ 5) (p : Nat) : decodeF fmt p =
    let neg := p.testBit ((layout fmt).1 + fracBits fmt)
    let E := p / 2 ^ fracBits fmt % 2 ^ (layout fmt).1
    let M := p % 2 ^ fracBits fmt
    if fmt = 4 ∧ E = 15 ∧ M = 7 then .nan false
    else if fmt ≠ 4 ∧ E = 2 ^ (layout fmt).1 - 1 then (if M = 0 then .inf neg else .nan (decide (fmt ≤ 3) && !M.testBit (fracBits fmt - 1)))
    else if E = 0 then .fin neg M (leastExp fmt - fracBits fmt) else .fin neg (2 ^ fracBits fmt + M) (E - (layout fmt).2.2 - fracBits fmt) := by
  have hd : decodeF fmt p = (let neg := bit p ((layout fmt).1 + fracBits fmt)
      let E := p / 2 ^ fracBits fmt % 2 ^ (layout fmt).1
      let M := p % 2 ^ fracBits fmt
      if fmt = 4 then
        if E = 15 && M = 7 then .nan false
        else if E = 0 then .fin neg M (-9) else .fin neg (8 + M) ((E : Int) - 10)
      else if E = 2 ^ (layout fmt).1 - 1 then
        if M = 0 then .inf neg else .nan (fmt ≠ 5 && M / 2 ^ (fracBits fmt - 1) % 2 = 0)
      else if E = 0 then .fin neg M (1 - (layout fmt).2.2 - fracBits fmt)
      else .fin neg (2 ^ fracBits fmt + M) ((E : Int) - (layout fmt).2.2 - fracBits fmt)) := by
    interval_cases fmt <;> rfl
  rw [hd, bit_eq_testBit]
  dsimp only
  by_cases h4 : fmt = 4
  · subst h4
    rw [if_pos rfl, if_neg (c := (4 : Nat) ≠ 4 ∧ _) (fun h => h.1 rfl)]
    refine if_congr (by simp) rfl (if_congr Iff.rfl rfl (congrArg _ ?_))
    change _ = _ - (7 : Int) - (3 : Int)
    omega
  · have hs : (decide (fmt ≠ 5) && decide (p % 2 ^ fracBits fmt / 2 ^ (fracBits fmt - 1) % 2 = 0))
        = (decide (fmt ≤ 3) && !(p % 2 ^ fracBits fmt).testBit (fracBits fmt - 1)) := by
      rw [Nat.testBit_eq_decide_div_mod_eq, ← decide_not, decide_eq_decide.2 (by omega : fmt ≠ 5 ↔ fmt ≤ 3), decide_eq_decide.2 Nat.mod_two_ne_one.symm]
    rw [if_neg h4, if_neg (fun h : _ ∧ _ => h4 h.1), hs]
    exact if_congr (and_iff_right h4).symm rfl rfl

theorem decodeF_num_le {fmt : Nat} (h : fmt ≤ 5) (p : Nat) : numOf (decodeF fmt p) = meaning fmt p := by
  rw [decodeF_eq h, meaning_eq h]
  dsimp only
  split
  · rfl
  split
  · split <;> rfl
  · rw [finiteMag]
    split <;> rfl

end Sys2Proof.Machine
end

section
/-! SUPPORT. The tapered formats l8 and l6: the value a pattern decodes to (spec/03 R72). -/

namespace Sys2Proof.Machine
open Sys2Proof Sys2Proof.Claims
set_option Elab.async false

/-! ### Tapered patterns -/

theorem toNat_testBit_iff (m i : Nat) (b : Bool) : m / 2 ^ i % 2 = b.toNat ↔ m.testBit i = b := by
  rw [← Nat.toNat_testBit]
  cases m.testBit i <;> cases b <;> decide

theorem runLen_eq (n m : Nat) (b : Bool) : runLen n m b.toNat = ((List.range n).takeWhile (fun i => m.testBit (n - 1 - i) == b)).length := by
  induction n with
  | zero => rfl
  | succ n ih =>
    rw [runLen, List.range_succ_eq_map, List.takeWhile_cons, List.takeWhile_map, ih]
    simp only [Function.comp_def, Nat.succ_eq_add_one, toNat_testBit_iff, Nat.add_sub_cancel, Nat.sub_zero, beq_iff_eq, Nat.sub_sub, Nat.add_comm 1]
    split
    · rw [List.length_cons, List.length_map, Nat.add_comm]
    · rfl

/-- Bits after the run of a tapered magnitude and its terminator. -/
def taperRest (n m : Nat) : Nat := n - runLen n m (m.testBit (n - 1)).toNat - 1

/-- The power of four that the run of a tapered magnitude names. -/
def taperPower (n m : Nat) : Int :=
  let r := runLen n m (m.testBit (n - 1)).toNat
  if m.testBit (n - 1) then (r : Int) - 1 else -(r : Int)

/-- The bit after the terminator. -/
def taperBit (n m : Nat) : Nat := if 1 ≤ taperRest n m ∧ m.testBit (taperRest n m - 1) = true then 1 else 0

theorem taperedMag_eq (n m : Nat) : taperedMag n m
    = two (2 * taperPower n m + taperBit n m) * (1 + (m % 2 ^ (taperRest n m - 1) : Nat) / (2 ^ (taperRest n m - 1) : Nat)) := by
  unfold taperedMag taperPower taperBit taperRest
  simp only [runLen_eq]
  congr 3
  split <;> rfl

theorem taperVal_eq (n p : Nat) : taperVal n p
    = let m := p % 2 ^ n
      if m = 0 then (if p.testBit n then .nan false else .fin false 0 0)
      else .fin (p.testBit n) (2 ^ (taperRest n m - 1) + m % 2 ^ (taperRest n m - 1)) (2 * taperPower n m + taperBit n m - (taperRest n m - 1 : Nat)) := by
  have hb (m i : Nat) : m / 2 ^ i % 2 = (m.testBit i).toNat := (toNat_testBit_iff m i _).2 rfl
  unfold taperVal taperPower taperBit taperRest
  simp only [hb, bit_eq_testBit]
  have hbit (c : Prop) [Decidable c] (b : Bool) : (if c ∧ b = true then 1 else 0) = if c then b.toNat else 0 := by
    rw [ite_and]
    cases b <;> rfl
  simp only [hbit, Bool.toNat_eq_one, ge_iff_le]

theorem taperVal_num (n p : Nat) : numOf (taperVal n p)
    = if p % 2 ^ n = 0 then (if p.testBit n then .nan false else .fin false 0) else .fin (p.testBit n) (taperedMag n (p % 2 ^ n)) := by
  rw [taperVal_eq]
  dsimp only
  split
  · split
    · rfl
    · rw [numOf, Nat.cast_zero, zero_mul]
  · rw [numOf, taperedMag_eq, significand_eq]
    congr 2
    rw [eq_div_iff (by positivity), mul_comm, ← two_add_nat]
    congr 1
    omega

/-- What a pattern of a floating format stands for is what the model decodes. -/
theorem decodeF_num {fmt : Nat} (h : fmt ≤ 7) (p : Nat) : numOf (decodeF fmt p) = meaning fmt p := by
  rcases (by omega : fmt ≤ 5 ∨ fmt = 6 ∨ fmt = 7) with h | rfl | rfl
  · exact decodeF_num_le h p
  · exact (taperVal_num 7 p).trans (if_pos (.inl rfl)).symm
  · exact (taperVal_num 5 p).trans (if_pos (.inr rfl)).symm

/-! ### Positions of tapered magnitudes -/

end Sys2Proof.Machine
end

section
/-! SUPPORT. Operands by their meaning, the delivery of an exact value, sums and products (spec/03 R68, R75 to R78). -/

namespace Sys2Proof.Machine
open Sys2Proof Sys2Proof.Claims
set_option Elab.async false

/-! ### Operands -/

theorem isSubnormal_eq (fmt p : Nat) : isSubnormal fmt p = subnormal fmt p := by
  rw [isSubnormal, shapeOf_eq]
  rfl

theorem subnormal_le {fmt p : Nat} (h : subnormal fmt p = true) : fmt ≤ 3 := by
  simp only [subnormal, Bool.and_eq_true, decide_eq_true_eq] at h
  exact h.1.1

theorem meaning_signPattern {fmt : Nat} (h : fmt ≤ 5) (neg : Bool) : meaning fmt (signPattern fmt neg) = .fin neg 0 := by
  have h2 := two_le_exponents fmt
  have hf := meaning_fields h neg (E := 0) (M := 0) (by omega) (Nat.two_pow_pos _) (by rw [Finite]; split <;> omega)
  rw [finiteMag, if_pos rfl, Nat.zero_mul, Nat.cast_zero, zero_mul] at hf
  exact hf

/-- The operand that the model fetches is the one that the statements read. -/
theorem fetchF_num {fmt : Nat} (h : fmt ≤ 7) (ftz : Bool) (p : Nat) : numOf (fetchF ftz fmt p) = reads ftz fmt p := by
  rw [fetchF, reads, flushed, isSubnormal_eq]
  split
  · next hs =>
    have h3 := subnormal_le (Bool.and_eq_true_iff.1 hs).2
    rw [meaning_signPattern (by omega), shapeOf_eq, bit_eq_testBit, numOf, Nat.cast_zero, zero_mul]
    rfl
  · exact decodeF_num h p

/-! ### Deliveries -/

/-- An exact value of the model as an exact result. -/
def exactOf : FVal → Exact
  | .nan s => .nan s
  | .inf neg => .inf neg false
  | .fin neg m e => if m = 0 then .zero neg else .mag neg (.of (m * two e))

section
variable {fmt : Nat} (mode : Nat) (sat ftz neg : Bool)

theorem deliverF_zero (h : fmt ≤ 5) (e : Int) : deliverF fmt mode sat ftz (.fin neg 0 e) false = ⟨signPattern fmt neg, 0⟩ := by
  rw [deliverF, if_pos (by simp), if_neg (by simp; omega), signBit_eq (by omega)]

theorem deliverF_fin (h : fmt ≤ 5) {m : Nat} (hm : m ≠ 0) (e : Int) (st : Bool) :
    deliverF fmt mode sat ftz (.fin neg m e) st = roundF fmt mode sat ftz neg m e st := by
  rw [deliverF, if_neg (by simp [hm]), if_neg (by simp; omega)]

/-- A form of a nonzero magnitude delivered into f64 to e5m2. -/
theorem deliverF_rounds (h : fmt ≤ 5) {x : Mag} {v : ℝ} {m : Nat} {e : Int} {st : Bool} (hx : MagIs x v) (hn : Near v m e st) (hm : m ≠ 0)
    (hst : st = true → fracBits fmt < m.log2) :
    RoundsTo fmt mode ftz neg x (overflows fmt mode sat neg) (deliverF fmt mode sat ftz (.fin neg m e) st) := by
  rw [deliverF_fin mode sat ftz neg h hm, ← overflowF_eq (by omega)]
  exact roundF_rounds h hx hn hm hst mode sat ftz neg

theorem deliverF_rounds_of (h : fmt ≤ 5) {m : Nat} (hm : m ≠ 0) (e : Int) :
    RoundsTo fmt mode ftz neg (.of (m * two e)) (overflows fmt mode sat neg) (deliverF fmt mode sat ftz (.fin neg m e) false) :=
  deliverF_rounds mode sat ftz neg h (magIs_of _) (near_exact m e) hm (fun h => nomatch h)

/-- An exact value delivered into a format of vector arithmetic. -/
theorem deliverF_gets (h : fmt ≤ 3) (v : FVal) : Gets fmt mode ftz (exactOf v) (deliverF fmt mode false ftz v false) := by
  match v with
  | .nan s => exact congrArg (FRes.mk · _) (canonNan_eq (by omega))
  | .inf neg =>
    change _ = FRes.mk (infPattern fmt neg) _
    rw [← infBits_eq (by omega)]
    interval_cases fmt <;> rfl
  | .fin neg m e =>
    rw [exactOf]
    split
    · next hm => rw [hm]; exact deliverF_zero mode false ftz neg (by omega) e
    · next hm => exact deliverF_rounds_of mode false ftz neg (by omega) hm e

end

/-- A value and its flags answer an exact result: a NaN with NV where it is invalid, else the value itself. -/
def Answers (x : Exact) (v : FVal) (fl : BitVec 8) : Prop :=
  (∃ s, v = .nan false ∧ fl = flagIf s NV ∧ x = .nan s) ∨ fl = 0 ∧ x = exactOf v

theorem Answers.gets {fmt : Nat} (h : fmt ≤ 3) {x : Exact} {v : FVal} {fl : BitVec 8} (ha : Answers x v fl) (mode : Nat) (ftz : Bool) :
    Gets fmt mode ftz x ⟨(deliverF fmt mode false ftz v false).val, (deliverF fmt mode false ftz v false).flags ||| fl⟩ := by
  obtain ⟨s, rfl, rfl, rfl⟩ | ⟨rfl, rfl⟩ := ha
  · change FRes.mk (canonNan fmt) ((0 ||| NF) ||| when s NV) = ⟨nanPattern fmt, when s NV ||| NF⟩
    rw [canonNan_eq (by omega)]
    cases s <;> rfl
  · simp only [BitVec.ofNat_eq_ofNat, BitVec.or_zero]
    exact deliverF_gets mode ftz h v

theorem Answers.abs {x : Exact} {v : FVal} {fl : BitVec 8} (ha : Answers x v fl) : Answers x.abs v.abs fl := by
  obtain ⟨s, rfl, rfl, rfl⟩ | ⟨rfl, rfl⟩ := ha
  · exact .inl ⟨s, rfl, rfl, rfl⟩
  · refine .inr ⟨rfl, ?_⟩
    match v with
    | .nan s => rfl
    | .inf neg => rfl
    | .fin neg m e =>
      rw [FVal.abs, exactOf, exactOf]
      split <;> rfl

/-! ### Sums and products -/

theorem finInt_mul_two (neg : Bool) (m : Nat) {e q : Int} (h : q ≤ e) : (finInt neg m e q : Rat) * two q = signed neg (m * two e) := by
  rw [finInt, signed, two_split h]
  cases neg
  · push_cast; ring
  · simp only [if_true]
    push_cast
    ring

theorem exactOf_ofScaled (i : Int) (q : Int) (z : Bool) :
    exactOf (ofScaled i q z) = if (i * two q : Rat) = 0 then .zero z else .mag (decide ((i * two q : Rat) < 0)) (.of (if (i * two q : Rat) < 0 then -(i * two q) else i * two q)) := by
  have h0 : (i * two q : Rat) = 0 ↔ i = 0 := by simp [(two_gt_zero q).ne']
  have hn : (i * two q : Rat) < 0 ↔ i < 0 := by
    rw [← Int.cast_lt_zero (R := Rat)]
    exact ⟨fun h => by by_contra hc; exact absurd h (not_lt.2 (mul_nonneg (not_lt.1 hc) (two_gt_zero q).le)), fun h => mul_neg_of_neg_of_pos h (two_gt_zero q)⟩
  rw [ofScaled]
  simp only [h0, hn]
  split
  · rfl
  · next hi =>
    rw [exactOf, if_neg (Int.natAbs_ne_zero.2 hi)]
    congr 2
    split
    · next hlt => rw [← Int.cast_natCast, Int.ofNat_natAbs_of_nonpos hlt.le]; push_cast; ring
    · next hge => rw [← Int.cast_natCast, Int.natAbs_of_nonneg (not_lt.1 hge)]

theorem addV_fin (mode : Nat) (a : Bool) (m : Nat) (e : Int) (b : Bool) (n : Nat) (f : Int) :
    (addV mode (.fin a m e) (.fin b n f)).2 = 0 ∧ exactOf (addV mode (.fin a m e) (.fin b n f)).1 = sumFin mode a (m * two e) b (n * two f) := by
  refine ⟨rfl, ?_⟩
  have h0 (k : Nat) (z : Int) : (k * two z : Rat) = 0 ↔ k = 0 := by simp [(two_gt_zero z).ne']
  rw [addV, exactOf_ofScaled]
  push_cast
  rw [add_mul, finInt_mul_two a m (min_le_left e f), finInt_mul_two b n (min_le_right e f), sumFin]
  simp only [h0]
  congr 2
  simp only [Bool.and_eq_true, decide_eq_true_eq, beq_iff_eq, and_assoc]
  rfl

/-- The model's sum is the exact one. -/
theorem addV_answers (mode : Nat) (a b : FVal) : Answers (sumOf mode (numOf a) (numOf b)) (addV mode a b).1 (addV mode a b).2 := by
  match a, b with
  | .nan s, .nan t => exact .inl ⟨s || t, rfl, rfl, rfl⟩
  | .nan s, .inf _ => exact .inl ⟨s, rfl, rfl, by simp [sumOf, numOf, FNum.signals]⟩
  | .nan s, .fin _ _ _ => exact .inl ⟨s, rfl, rfl, by simp [sumOf, numOf, FNum.signals]⟩
  | .inf _, .nan s => exact .inl ⟨s, rfl, rfl, by simp [sumOf, numOf, FNum.signals]⟩
  | .fin _ _ _, .nan s => exact .inl ⟨s, rfl, rfl, by simp [sumOf, numOf, FNum.signals]⟩
  | .inf a, .inf b =>
    by_cases h : a = b
    · exact .inr ⟨by simp [addV, h], by simp [addV, sumOf, numOf, h, exactOf]⟩
    · exact .inl ⟨true, by simp [addV, h], by simp [addV, h, flagIf], by simp [sumOf, numOf, h]⟩
  | .inf a, .fin _ _ _ => exact .inr ⟨rfl, rfl⟩
  | .fin _ _ _, .inf b => exact .inr ⟨rfl, rfl⟩
  | .fin a m e, .fin b n f => exact .inr ((addV_fin mode a m e b n f).imp_right Eq.symm)

/-- The model's product is the exact one. -/
theorem mulV_answers (a b : FVal) : Answers (productOf (numOf a) (numOf b)) (mulV a b).1 (mulV a b).2 := by
  have h0 (k : Nat) (z : Int) : (k * two z : Rat) = 0 ↔ k = 0 := by simp [(two_gt_zero z).ne']
  match a, b with
  | .nan s, .nan t => exact .inl ⟨s || t, rfl, rfl, rfl⟩
  | .nan s, .inf _ => exact .inl ⟨s, rfl, rfl, by simp [productOf, numOf, FNum.signals]⟩
  | .nan s, .fin _ _ _ => exact .inl ⟨s, rfl, rfl, by simp [productOf, numOf, FNum.signals]⟩
  | .inf _, .nan s => exact .inl ⟨s, rfl, rfl, by simp [productOf, numOf, FNum.signals]⟩
  | .fin _ _ _, .nan s => exact .inl ⟨s, rfl, rfl, by simp [productOf, numOf, FNum.signals]⟩
  | .inf a, .inf b => exact .inr ⟨rfl, rfl⟩
  | .inf a, .fin b n f =>
    by_cases h : n = 0
    · exact .inl ⟨true, by simp [mulV, h], by simp [mulV, h, flagIf], by simp [productOf, numOf, h]⟩
    · exact .inr ⟨by simp [mulV, h], by simp [mulV, productOf, numOf, h0, h, exactOf]⟩
  | .fin a m e, .inf b =>
    by_cases h : m = 0
    · exact .inl ⟨true, by simp [mulV, h], by simp [mulV, h, flagIf], by simp [productOf, numOf, h]⟩
    · exact .inr ⟨by simp [mulV, h], by simp [mulV, productOf, numOf, h0, h, exactOf]⟩
  | .fin a m e, .fin b n f =>
    refine .inr ⟨rfl, ?_⟩
    have he : (m * two e * (n * two f) : Rat) = (m * n : Nat) * two (e + f) := by rw [two_add]; push_cast; ring
    rw [mulV, numOf, numOf, productOf, he, exactOf]
    exact if_congr (h0 _ _) rfl rfl

theorem numOf_negV (a : FVal) : numOf (negV a) = (numOf a).opposite := by cases a <;> rfl

section
variable {fmt : Nat} (h : fmt ≤ 3) (mode : Nat) (ftz : Bool) (a b : FVal)
include h

theorem faddP_gets : Gets fmt mode ftz (sumOf mode (numOf a) (numOf b)) (faddP fmt mode ftz a b) := (addV_answers mode a b).gets h mode ftz

theorem fmulP_gets : Gets fmt mode ftz (productOf (numOf a) (numOf b)) (fmulP fmt mode ftz a b) := (mulV_answers a b).gets h mode ftz

theorem absdF_gets : Gets fmt mode ftz (sumOf mode (numOf a) (numOf b).opposite).abs (absdF fmt mode ftz a b) := by
  rw [← numOf_negV]
  exact (addV_answers mode a (negV b)).abs.gets h mode ftz

end

end Sys2Proof.Machine
end

section
/-! SUPPORT. The fused forms and the quotient (spec/03 R77; spec/05 R132, R133). -/

namespace Sys2Proof.Machine
open Sys2Proof Sys2Proof.Claims
set_option Elab.async false

theorem fracBits_le (fmt : Nat) : fracBits fmt ≤ 52 := by
  unfold fracBits layout
  split <;> decide

/-! ### Fused forms -/

theorem flagIf_or (a b : Bool) : flagIf a NV ||| flagIf b NV = flagIf (a || b) NV := by
  cases a <;> cases b <;> rfl

/-- The flag of a signalling addend. -/
def addendFlag : FVal → BitVec 8
  | .nan s => flagIf s NV
  | _ => 0

/-- A fused form whose operands are not all finite, by its product. -/
def fusedTail (mode : Nat) (p : Exact) (z : FNum) : Exact :=
  match p with
  | .nan v => .nan (v || z.signals)
  | .inf a _ => sumOf mode (.inf a) z
  | _ => sumOf mode (.fin false 0) z

theorem fusedOf_tail (mode : Nat) {x y z : FNum} (h : ∀ a m b n c o, x = .fin a m → y = .fin b n → z ≠ .fin c o) :
    fusedOf mode x y z = fusedTail mode (productOf x y) z := by
  unfold fusedOf
  split
  · exact absurd rfl (h _ _ _ _ _ _ rfl rfl)
  · rfl

theorem flags_first (f : BitVec 8) : f ||| 0 ||| 0 = f := by simp
theorem flags_second (f : BitVec 8) : 0 ||| f ||| 0 = f := by simp
theorem flags_twice (f : BitVec 8) : 0 ||| f ||| f = f := by simp
theorem flags_three (s t : Bool) : flagIf s NV ||| flagIf t NV ||| flagIf t NV = flagIf (s || t) NV := by
  cases s <;> cases t <;> rfl

theorem Answers.fusedTail {x : Exact} {p : FVal} {f1 : BitVec 8} (h : Answers x p f1) (mode : Nat) (c : FVal)
    (hfin : ∀ a m e b n f, p = .fin a m e → c ≠ .fin b n f) :
    Answers (fusedTail mode x (numOf c)) (addV mode p c).1 (f1 ||| (addV mode p c).2 ||| addendFlag c) := by
  obtain ⟨s, rfl, rfl, rfl⟩ | ⟨rfl, rfl⟩ := h
  · match c with
    | .nan t => exact .inl ⟨s || t, rfl, flags_three s t, rfl⟩
    | .inf b => exact .inl ⟨s, rfl, flags_first _, congrArg _ (Bool.or_false s)⟩
    | .fin b n f => exact .inl ⟨s, rfl, flags_first _, congrArg _ (Bool.or_false s)⟩
  · match p, c with
    | .nan s, .nan t => exact .inl ⟨s || t, rfl, (congrArg (· ||| _) (flagIf_or false (s || t))).trans (by cases s <;> cases t <;> rfl), rfl⟩
    | .nan s, .inf b => exact .inl ⟨s, rfl, flags_second _, congrArg _ (Bool.or_false s)⟩
    | .nan s, .fin b n f => exact .inl ⟨s, rfl, flags_second _, congrArg _ (Bool.or_false s)⟩
    | .inf a, .nan t => exact .inl ⟨t, rfl, flags_twice _, congrArg _ (Bool.or_false t)⟩
    | .inf a, .inf b =>
      have ha := addV_answers mode (.inf a) (.inf b)
      rwa [← flags_second (addV mode (.inf a) (.inf b)).2] at ha
    | .inf a, .fin b n f => exact .inr ⟨flags_first 0, rfl⟩
    | .fin a m e, .nan t =>
      refine .inl ⟨t, rfl, flags_twice _, ?_⟩
      rw [exactOf]
      split <;> exact congrArg _ (Bool.or_false t)
    | .fin a m e, .inf b =>
      refine .inr ⟨flags_first 0, ?_⟩
      rw [exactOf]
      split <;> rfl
    | .fin a m e, .fin b n f => exact absurd rfl (hfin _ _ _ _ _ _ rfl)

theorem numOf_fin_iff {v : FVal} {a : Bool} {x : Rat} (h : numOf v = .fin a x) : ∃ m e, v = .fin a m e := by
  match v with
  | .fin b m e =>
    obtain ⟨rfl, -⟩ := FNum.fin.inj h
    exact ⟨m, e, rfl⟩

theorem mulV_fin_iff {a b : FVal} {s : Bool} {m : Nat} {e : Int} (h : (mulV a b).1 = .fin s m e) :
    ∃ s' m' e' t' n' f', a = .fin s' m' e' ∧ b = .fin t' n' f' := by
  match a, b with
  | .fin s m e, .fin t n f => exact ⟨s, m, e, t, n, f, rfl, rfl⟩
  | .nan _, .nan _ => exact nomatch h
  | .nan _, .inf _ => exact nomatch h
  | .nan _, .fin _ _ _ => exact nomatch h
  | .inf _, .nan _ => exact nomatch h
  | .fin _ _ _, .nan _ => exact nomatch h
  | .inf _, .inf _ => exact nomatch h
  | .inf _, .fin _ n _ =>
    rw [mulV] at h
    split at h <;> exact nomatch h
  | .fin _ m _, .inf _ =>
    rw [mulV] at h
    split at h <;> exact nomatch h

/-- The model's fused product and sum is the exact one. -/
theorem fused_answers (mode : Nat) (a b c : FVal) : Answers (fusedOf mode (numOf a) (numOf b) (numOf c)) (addV mode (mulV a b).1 c).1
    ((mulV a b).2 ||| (addV mode (mulV a b).1 c).2 ||| addendFlag c) := by
  by_cases hf : ∃ s m e t n f u o g, a = .fin s m e ∧ b = .fin t n f ∧ c = .fin u o g
  · obtain ⟨s, m, e, t, n, f, u, o, g, rfl, rfl, rfl⟩ := hf
    have he : (m * two e * (n * two f) : Rat) = (m * n : Nat) * two (e + f) := by rw [two_add]; push_cast; ring
    obtain ⟨-, hv⟩ := addV_fin mode (s != t) (m * n) (e + f) u o g
    exact .inr ⟨flags_first 0, (congrArg (sumFin mode (s != t) · u (o * two g)) he).trans hv.symm⟩
  · rw [fusedOf_tail]
    · refine (mulV_answers a b).fusedTail mode c fun s m e t n f hp hc => hf ?_
      obtain ⟨s', m', e', t', n', f', rfl, rfl⟩ := mulV_fin_iff hp
      exact ⟨_, _, _, _, _, _, _, _, _, rfl, rfl, hc⟩
    · intro s x t y u z ha hb hc
      obtain ⟨m, e, rfl⟩ := numOf_fin_iff ha
      obtain ⟨n, f, rfl⟩ := numOf_fin_iff hb
      obtain ⟨o, g, rfl⟩ := numOf_fin_iff hc
      exact hf ⟨_, _, _, _, _, _, _, _, _, rfl, rfl, rfl⟩

/-! ### Quotients -/

/-- A fraction of integers over a power of two, as its integer part and remainder. -/
theorem near_div (a : Nat) {n : Nat} (hn : n ≠ 0) (e : Int) : Near (((a / n : Rat) * two e : Rat) : ℝ) (a / n) e (a % n != 0) := by
  have hn0 : (0 : Rat) < n := by exact_mod_cast Nat.pos_of_ne_zero hn
  have he := two_gt_zero e
  have hdm : (a : Rat) = n * (a / n : Nat) + (a % n : Nat) := by exact_mod_cast (Nat.div_add_mod a n).symm
  have hlt : ((a % n : Nat) : Rat) < n := by exact_mod_cast Nat.mod_lt a (Nat.pos_of_ne_zero hn)
  have hle : (0 : Rat) ≤ (a % n : Nat) := Nat.cast_nonneg _
  refine ⟨?_, ?_, ?_⟩
  · rw [Rat.cast_le]
    refine mul_le_mul_of_nonneg_right ?_ he.le
    rw [le_div_iff₀ hn0]
    linarith
  · rw [Rat.cast_lt]
    refine mul_lt_mul_of_pos_right ?_ he
    rw [div_lt_iff₀ hn0]
    push_cast
    linarith
  · rw [Rat.cast_inj, mul_left_inj' he.ne', eq_div_iff hn0.ne', bne_eq_false_iff_eq, ← Nat.cast_eq_zero (R := Rat)]
    constructor <;> intro h <;> linarith

theorem log2_quotient {m n : Nat} (hm : m ≠ 0) (hn : n ≠ 0) (k : Nat) : k ≤ (m * 2 ^ (k + 1 + n.log2) / n).log2 := by
  have h2 : n ≤ 2 ^ (n.log2 + 1) := Nat.lt_log2_self.le
  have hq : 2 ^ k ≤ m * 2 ^ (k + 1 + n.log2) / n := by
    rw [Nat.le_div_iff_mul_le (Nat.pos_of_ne_zero hn)]
    calc 2 ^ k * n ≤ 2 ^ k * 2 ^ (n.log2 + 1) := Nat.mul_le_mul_left _ h2
      _ = 2 ^ (k + 1 + n.log2) := by rw [← pow_add]; congr 1; omega
      _ ≤ _ := Nat.le_mul_of_pos_left _ (Nat.pos_of_ne_zero hm)
  exact (Nat.le_log2 (by have := Nat.two_pow_pos k; omega)).2 hq

/-- The model's quotient of two nonzero values, rounded. -/
theorem divV_near {m n : Nat} (hm : m ≠ 0) (hn : n ≠ 0) (e f : Int) :
    Near ((m * two e / (n * two f) : Rat) : ℝ) (m * 2 ^ (70 + n.log2) / n) (e - f - (70 + n.log2 : Nat)) (m * 2 ^ (70 + n.log2) % n != 0)
      ∧ 69 ≤ (m * 2 ^ (70 + n.log2) / n).log2 ∧ m * 2 ^ (70 + n.log2) / n ≠ 0 := by
  have hl := log2_quotient hm hn 69
  have hv : (m * two e / (n * two f) : Rat) = ((m * 2 ^ (70 + n.log2) : Nat) : Rat) / n * two (e - f - (70 + n.log2 : Nat)) := by
    have he : two e = (2 ^ (70 + n.log2) : Nat) * (two f * two (e - f - (70 + n.log2 : Nat))) := by
      rw [← two_add, ← two_add_nat]
      congr 1
      omega
    have hf := (two_gt_zero f).ne'
    rw [he]
    push_cast
    field_simp
  rw [hv]
  refine ⟨near_div _ hn _, hl, fun h0 => ?_⟩
  rw [h0] at hl
  exact absurd hl (by decide)

theorem divV_rounds {fmt : Nat} (h : fmt ≤ 5) {m n : Nat} (hm : m ≠ 0) (hn : n ≠ 0) (e f : Int) (mode : Nat) (sat ftz neg : Bool) :
    RoundsTo fmt mode ftz neg (.of (m * two e / (n * two f))) (overflows fmt mode sat neg)
      (deliverF fmt mode sat ftz (.fin neg (m * 2 ^ (70 + n.log2) / n) (e - f - (70 + n.log2 : Nat))) (m * 2 ^ (70 + n.log2) % n != 0)) := by
  obtain ⟨hnear, hl, h0⟩ := divV_near hm hn e f
  exact deliverF_rounds mode sat ftz neg h (magIs_of _) hnear h0 fun _ => (fracBits_le fmt).trans_lt ((by omega : 52 < 69).trans_le hl)

theorem ffmaP_gets {fmt : Nat} (h : fmt ≤ 3) (mode : Nat) (ftz : Bool) (a b c : FVal) :
    Gets fmt mode ftz (fusedOf mode (numOf a) (numOf b) (numOf c)) (ffmaP fmt mode ftz a b c) := by
  have he : ffmaP fmt mode ftz a b c = ⟨(deliverF fmt mode false ftz (addV mode (mulV a b).1 c).1 false).val,
      (deliverF fmt mode false ftz (addV mode (mulV a b).1 c).1 false).flags ||| (mulV a b).2 ||| (addV mode (mulV a b).1 c).2 ||| addendFlag c⟩ := by
    cases c <;> rfl
  rw [he, BitVec.or_assoc, BitVec.or_assoc, ← BitVec.or_assoc (mulV a b).2]
  exact (fused_answers mode a b c).gets h mode ftz

theorem fdivP_gets {fmt : Nat} (h : fmt ≤ 3) (mode : Nat) (ftz : Bool) (a b : FVal) :
    Gets fmt mode ftz (quotientOf (numOf a) (numOf b)) (fdivP fmt mode ftz a b) := by
  have h0 (k : Nat) (z : Int) : (k * two z : Rat) = 0 ↔ k = 0 := by simp [(two_gt_zero z).ne']
  have answer {x : Exact} {v : FVal} {fl : BitVec 8} (ha : Answers x v fl) := ha.gets h mode ftz
  match a, b with
  | .nan s, .nan t => exact answer (.inl ⟨s || t, rfl, rfl, rfl⟩)
  | .nan s, .inf _ => exact answer (.inl ⟨s, rfl, rfl, congrArg _ (Bool.or_false s)⟩)
  | .nan s, .fin _ _ _ => exact answer (.inl ⟨s, rfl, rfl, congrArg _ (Bool.or_false s)⟩)
  | .inf _, .nan s => exact answer (.inl ⟨s, rfl, rfl, congrArg _ (Bool.or_false s)⟩)
  | .fin _ _ _, .nan s => exact answer (.inl ⟨s, rfl, rfl, congrArg _ (Bool.or_false s)⟩)
  | .inf _, .inf _ => exact answer (.inl ⟨true, rfl, rfl, rfl⟩)
  | .inf _, .fin _ _ _ => exact answer (.inr ⟨rfl, rfl⟩)
  | .fin _ _ _, .inf _ => exact answer (.inr ⟨rfl, rfl⟩)
  | .fin a m e, .fin b n f =>
    rw [numOf, numOf, quotientOf, fdivP, divV]
    simp only [h0]
    split
    · split
      · exact answer (.inl ⟨true, rfl, rfl, rfl⟩)
      · have hr : deliverF fmt mode false ftz (.inf (a != b)) false = ⟨infPattern fmt (a != b), when false DZ ||| NF⟩ := deliverF_gets mode ftz h (.inf _)
        change FRes.mk _ _ = FRes.mk _ _
        have hfl : when false DZ ||| NF ||| DZ = when true DZ ||| NF := by decide
        rw [hr]
        exact congrArg (FRes.mk _) hfl
    split
    · exact answer (.inr ⟨rfl, rfl⟩)
    · next hn hm =>
      simp only [BitVec.ofNat_eq_ofNat, BitVec.or_zero]
      exact divV_rounds (by omega) hm hn e f mode false ftz (a != b)

end Sys2Proof.Machine
end

section
/-! SUPPORT. Roots: the integer root of a scaled magnitude is a form of the real root (spec/03 R76, R77). -/

namespace Sys2Proof.Machine
open Sys2Proof Sys2Proof.Claims
set_option Elab.async false

/-! ### Roots -/

theorem isqrt_bounds {n : Nat} : ∀ (b : Nat) {r : Nat}, r * r ≤ n → n < (r + 2 ^ b) * (r + 2 ^ b) → isqrt n b r * isqrt n b r ≤ n ∧ n < (isqrt n b r + 1) * (isqrt n b r + 1)
  | 0, r, h1, h2 => ⟨h1, h2⟩
  | b + 1, r, h1, h2 => by
    rw [isqrt]
    split
    · next h => exact isqrt_bounds b h (by rwa [Nat.add_assoc, ← Nat.mul_two, ← pow_succ])
    · next h => exact isqrt_bounds b h1 (not_le.1 h)

/-- The root of n by its bits is the integer next below it. -/
theorem isqrt_eq (n : Nat) : isqrt n (Nat.log2 n / 2 + 1) 0 = n.sqrt := by
  have hn : n < (0 + 2 ^ (n.log2 / 2 + 1)) * (0 + 2 ^ (n.log2 / 2 + 1)) := by
    rw [Nat.zero_add, ← pow_add]
    exact Nat.lt_log2_self.trans_le (Nat.pow_le_pow_right Nat.two_pos (by omega))
  obtain ⟨h1, h2⟩ := isqrt_bounds (n.log2 / 2 + 1) (by simp) hn
  exact (Nat.eq_sqrt.2 ⟨h1, h2⟩)

theorem log2_sqrt {n k : Nat} (h : 2 ^ (2 * k) ≤ n) : k ≤ n.sqrt.log2 := by
  have hs : 2 ^ k ≤ n.sqrt := Nat.le_sqrt.2 (by rwa [← pow_add, ← two_mul])
  exact (Nat.le_log2 (by have := Nat.two_pow_pos k; omega)).2 hs

section
variable {v : ℝ} {s : Rat}

/-- Comparing with a nonnegative number by squares. -/
theorem lt_iff_of_square (hv : 0 ≤ v) (hs : (s : ℝ) = v ^ 2) {r : Rat} (hr : 0 ≤ r) : (r : ℝ) < v ↔ r ^ 2 < s := by
  rw [← pow_lt_pow_iff_left₀ (Rat.cast_nonneg.2 hr) hv two_ne_zero, ← hs]
  exact_mod_cast Iff.rfl

theorem eq_iff_of_square (hv : 0 ≤ v) (hs : (s : ℝ) = v ^ 2) {r : Rat} (hr : 0 ≤ r) : (r : ℝ) = v ↔ r ^ 2 = s := by
  rw [← pow_left_inj₀ (Rat.cast_nonneg.2 hr) hv two_ne_zero, ← hs]
  exact_mod_cast Iff.rfl

theorem magIs_root (hv : 0 ≤ v) (hs : (s : ℝ) = v ^ 2) : MagIs (.root s) v := by
  intro r
  rw [Mag.root, decide_eq_true_iff, decide_eq_true_iff, ← pow_two]
  rcases lt_or_ge r 0 with hr | hr
  · have hr' : (r : ℝ) < v := (Rat.cast_lt_zero.2 hr).trans_le hv
    exact ⟨iff_of_true (.inl hr) hr', iff_of_false (fun h => absurd h.1 (not_le.2 hr)) hr'.ne⟩
  · rw [lt_iff_of_square hv hs hr, eq_iff_of_square hv hs hr]
    exact ⟨or_iff_right (not_lt.2 hr), and_iff_right hr⟩

theorem magIs_overRoot (hv : 0 < v) (hs : ((s⁻¹ : Rat) : ℝ) = v ^ 2) (h0 : 0 < s) : MagIs (.overRoot s) v := by
  intro r
  rw [Mag.overRoot, decide_eq_true_iff, decide_eq_true_iff, ← pow_two, ← lt_div_iff₀ h0, ← eq_div_iff h0.ne', one_div]
  rcases le_or_gt r 0 with hr | hr
  · have hr' : (r : ℝ) < v := (Rat.cast_nonpos.2 hr).trans_lt hv
    exact ⟨iff_of_true (.inl hr) hr', iff_of_false (fun h => absurd h.1 (not_lt.2 hr)) hr'.ne⟩
  · rw [lt_iff_of_square hv.le hs hr.le, eq_iff_of_square hv.le hs hr.le]
    exact ⟨or_iff_right (not_le.2 hr), and_iff_right hr⟩

/-- A form of a nonnegative number by squares. -/
theorem near_of_squares (hv : 0 ≤ v) (hs : (s : ℝ) = v ^ 2) {m : Nat} {e : Int} {st : Bool} (h1 : (m * two e : Rat) ^ 2 ≤ s)
    (h2 : s < ((m + 1 : Nat) * two e : Rat) ^ 2) (h3 : st = false ↔ (m * two e : Rat) ^ 2 = s) : Near v m e st := by
  have hp (k : Nat) : (0 : Rat) ≤ k * two e := mul_nonneg k.cast_nonneg (two_gt_zero e).le
  refine ⟨?_, ?_, h3.trans (eq_iff_of_square hv hs (hp m)).symm⟩
  · rw [le_iff_lt_or_eq, lt_iff_of_square hv hs (hp m), eq_iff_of_square hv hs (hp m), ← le_iff_lt_or_eq]
    exact h1
  · rw [← not_le, le_iff_lt_or_eq, lt_iff_of_square hv hs (hp _), eq_iff_of_square hv hs (hp _), ← le_iff_lt_or_eq, not_le]
    exact h2

end

theorem two_double (z : Int) : two (2 * z) = two z ^ 2 := by rw [two_mul, two_add, pow_two]

/-- The root of an integer part as a form of the root of a rational over an even power of two. -/
theorem near_sqrt {v : ℝ} (hv : 0 ≤ v) {x : Rat} {n : Nat} {e : Int} {st : Bool} (hs : ((x * two (2 * e) : Rat) : ℝ) = v ^ 2) (h1 : (n : Rat) ≤ x) (h2 : x < (n + 1 : Nat))
    (h3 : st = false ↔ ((n.sqrt * n.sqrt : Nat) : Rat) = x) : Near v n.sqrt e st := by
  have he : (0 : Rat) < two e ^ 2 := pow_pos (two_gt_zero e) 2
  have hle : ((n.sqrt : Nat) : Rat) ^ 2 ≤ n := by exact_mod_cast Nat.sqrt_le' n
  have hlt : ((n + 1 : Nat) : Rat) ≤ (n.sqrt + 1 : Nat) ^ 2 := by exact_mod_cast Nat.lt_succ_sqrt' n
  rw [two_double] at hs
  refine near_of_squares hv hs ?_ ?_ ?_
  · rw [mul_pow, mul_le_mul_iff_left₀ he]
    exact hle.trans h1
  · rw [mul_pow, mul_lt_mul_iff_left₀ he]
    exact h2.trans_le hlt
  · rw [h3, mul_pow, mul_left_inj' he.ne', pow_two]
    push_cast
    rfl

/-- The model's square root, rounded. -/
theorem sqrtV_rounds {fmt : Nat} (h : fmt ≤ 5) {m : Nat} (hm : m ≠ 0) (e : Int) (mode : Nat) (sat ftz : Bool) :
    RoundsTo fmt mode ftz false (.root (m * two e)) (overflows fmt mode sat false) (deliverF fmt mode sat ftz (sqrtV m e).1 (sqrtV m e).2) := by
  have hx : (0 : Rat) ≤ m * two e := mul_nonneg m.cast_nonneg (two_gt_zero e).le
  have hs : ((m * two e : Rat) : ℝ) = √((m * two e : Rat) : ℝ) ^ 2 := (Real.sq_sqrt (by exact_mod_cast hx)).symm
  obtain ⟨k, hk⟩ : ∃ k, k = 140 + (e % 2).toNat := ⟨_, rfl⟩
  have hr : sqrtV m e = (.fin false (m * 2 ^ k).sqrt ((e - k).fdiv 2), (m * 2 ^ k).sqrt * (m * 2 ^ k).sqrt != m * 2 ^ k) := by
    rw [sqrtV, ← hk, isqrt_eq]
  have he : (m * two e : Rat) = ((m * 2 ^ k : Nat) : Rat) * two (2 * (e - k).fdiv 2) := by
    rw [Nat.cast_mul, mul_assoc, ← two_add_nat]
    congr 2
    rw [Int.fdiv_eq_ediv_of_nonneg _ (by decide)]
    omega
  have hl : 70 ≤ (m * 2 ^ k).sqrt.log2 := by
    refine log2_sqrt ((Nat.pow_le_pow_right Nat.two_pos (show 2 * 70 ≤ k by omega)).trans (Nat.le_mul_of_pos_left _ (Nat.pos_of_ne_zero hm)))
  have hn : Near (√((m * two e : Rat) : ℝ)) (m * 2 ^ k).sqrt ((e - k).fdiv 2) ((m * 2 ^ k).sqrt * (m * 2 ^ k).sqrt != m * 2 ^ k) := by
    refine near_sqrt (Real.sqrt_nonneg _) (he ▸ hs) le_rfl (by exact_mod_cast Nat.lt_succ_self _) ?_
    rw [bne_eq_false_iff_eq, Nat.cast_inj]
  rw [hr]
  refine deliverF_rounds mode sat ftz false h (magIs_root (Real.sqrt_nonneg _) hs) hn (fun h0 => ?_) fun _ => lt_of_lt_of_le (by have := fracBits_le fmt; omega) hl
  rw [h0] at hl
  exact absurd hl (by decide)

/-- A number over an even power of two. -/
theorem even_form (m : Nat) (e : Int) : ∃ g : Int, (if e % 2 = 0 then e else e - 1) = 2 * g ∧ (m * two e : Rat) = (if e % 2 = 0 then m else 2 * m : Nat) * two (2 * g) := by
  split
  · exact ⟨e / 2, by omega, by congr 2; omega⟩
  · refine ⟨(e - 1) / 2, by omega, ?_⟩
    rw [show e = (1 : Nat) + 2 * ((e - 1) / 2) by omega, two_add_nat, ← show e = (1 : Nat) + 2 * ((e - 1) / 2) by omega]
    push_cast
    ring

/-- The model's reciprocal square root, rounded. -/
theorem rsqrtV_rounds {fmt : Nat} (h : fmt ≤ 5) {m : Nat} (hm : m ≠ 0) (e : Int) (mode : Nat) (sat ftz : Bool) :
    RoundsTo fmt mode ftz false (.overRoot (m * two e)) (overflows fmt mode sat false) (deliverF fmt mode sat ftz (rsqrtV m e).1 (rsqrtV m e).2) := by
  obtain ⟨g, hg, hval⟩ := even_form m e
  rw [hval, rsqrtV, hg]
  have hm' : (if e % 2 = 0 then m else 2 * m) ≠ 0 := by split <;> omega
  dsimp only
  generalize (if e % 2 = 0 then m else 2 * m) = n at hm'
  obtain ⟨k, hk⟩ : ∃ k, k = 200 + n.log2 := ⟨_, rfl⟩
  rw [← hk, isqrt_eq, show (2 * g) / 2 = g by omega]
  have hn0 : (0 : Rat) < n := by exact_mod_cast Nat.pos_of_ne_zero hm'
  have hx : (0 : Rat) < n * two (2 * g) := mul_pos hn0 (two_gt_zero _)
  have hv : 0 < √(((n * two (2 * g))⁻¹ : Rat) : ℝ) := Real.sqrt_pos.2 (by exact_mod_cast inv_pos.2 hx)
  have hs : (((n * two (2 * g))⁻¹ : Rat) : ℝ) = √(((n * two (2 * g))⁻¹ : Rat) : ℝ) ^ 2 := (Real.sq_sqrt (by exact_mod_cast (inv_pos.2 hx).le)).symm
  have he : ((n * two (2 * g))⁻¹ : Rat) = ((2 ^ (2 * k) : Nat) : Rat) / n * two (2 * (-g - k)) := by
    have h1 : two (2 * g) * ((2 ^ (2 * k) : Nat) * two (2 * (-g - k))) = 1 := by
      rw [← two_add_nat, ← two_add]
      exact congrArg two (by push_cast; ring : (2 : Int) * g + ((2 * k : Nat) + 2 * (-g - k)) = 0)
    rw [mul_inv, inv_eq_of_mul_eq_one_right h1]
    ring
  have hl : 70 ≤ (2 ^ (2 * k) / n).sqrt.log2 := by
    refine log2_sqrt ((Nat.le_div_iff_mul_le (Nat.pos_of_ne_zero hm')).2 ?_)
    calc 2 ^ (2 * 70) * n ≤ 2 ^ (2 * 70) * 2 ^ (n.log2 + 1) := Nat.mul_le_mul_left _ Nat.lt_log2_self.le
      _ = 2 ^ (2 * 70 + (n.log2 + 1)) := (pow_add ..).symm
      _ ≤ 2 ^ (2 * k) := Nat.pow_le_pow_right Nat.two_pos (by omega)
  have hn : Near (√(((n * two (2 * g))⁻¹ : Rat) : ℝ)) (2 ^ (2 * k) / n).sqrt (-g - k) ((2 ^ (2 * k) / n).sqrt * (2 ^ (2 * k) / n).sqrt * n != 2 ^ (2 * k)) := by
    refine near_sqrt hv.le (he ▸ hs) Nat.cast_div_le ?_ ?_
    · rw [div_lt_iff₀ hn0]
      exact_mod_cast (Nat.div_lt_iff_lt_mul (Nat.pos_of_ne_zero hm')).1 (Nat.lt_succ_self _)
    · rw [bne_eq_false_iff_eq, eq_div_iff hn0.ne']
      exact_mod_cast Iff.rfl
  refine deliverF_rounds mode sat ftz false h (magIs_overRoot hv hs hx) hn (fun h0 => ?_) fun _ => lt_of_lt_of_le (by have := fracBits_le fmt; omega) hl
  rw [h0] at hl
  exact absurd hl (by decide)

theorem fsqrtP_gets {fmt : Nat} (h : fmt ≤ 3) (mode : Nat) (ftz : Bool) (a : FVal) : Gets fmt mode ftz (rootOf (numOf a)) (fsqrtP fmt mode ftz a) := by
  have hn := canonNan_eq (fmt := fmt) (by omega)
  match a with
  | .nan s => exact congrArg (FRes.mk · _) hn
  | .inf true => exact congrArg (FRes.mk · _) hn
  | .inf false => exact congrArg (FRes.mk · _) (infBits_eq (by omega) false)
  | .fin neg m e =>
    have h0 : (m * two e : Rat) = 0 ↔ m = 0 := by simp [(two_gt_zero e).ne']
    rw [numOf, rootOf, fsqrtP]
    simp only [h0]
    split
    · exact congrArg (FRes.mk · _) (signBit_eq (by omega) neg)
    split
    · exact congrArg (FRes.mk · _) hn
    · next hm _ => exact sqrtV_rounds (by omega) hm e mode false ftz

end Sys2Proof.Machine
end

section
/-! SUPPORT. Comparison of values and the selection of an extreme (spec/03 R91; spec/05 R136). -/

namespace Sys2Proof.Machine
open Sys2Proof Sys2Proof.Claims
set_option Elab.async false

/-! ### Patterns delivered again -/

section
variable {fmt : Nat}

/-- A value that a format has is delivered as it is. -/
theorem roundF_exact (mode : Nat) (sat neg : Bool) {m : Nat} {e : Int} (hq : max (m.log2 + e - fracBits fmt) (leastExp fmt - fracBits fmt) = e)
    (hle : m * two e ≤ largest fmt) : roundF fmt mode sat false neg m e false = ⟨packF fmt neg m e, 0⟩ := by
  have hr : roundAt mode neg m e false e = (m, false) := by
    rw [roundAt, if_pos le_rfl, sub_self]
    simp
  have hov : ltScaled (maxFinite fmt).1 (maxFinite fmt).2 m e = false := by
    rw [← Bool.not_eq_true, ltScaled_iff, ← largest_eq, not_lt]
    exact hle
  unfold roundF
  rw [shapeOf_eq]
  dsimp only
  rw [show (1 : Int) - ((layout fmt).2.2 : Int) = leastExp fmt from rfl, hq, hr]
  dsimp only
  rw [hov]
  simp [flagIf]

/-- A pattern by its fields. -/
theorem pattern_eq (h : fmt ≤ 5) {p : Nat} (hp : p < 2 ^ sewOf fmt) :
    p = signPattern fmt (p.testBit ((layout fmt).1 + fracBits fmt)) + (p / 2 ^ fracBits fmt % 2 ^ (layout fmt).1 * 2 ^ fracBits fmt + p % 2 ^ fracBits fmt) := by
  generalize hb : (layout fmt).1 + fracBits fmt = n
  have hn : p / 2 ^ n = (p.testBit n).toNat := by
    rw [sewOf_layout h, hb, pow_succ'] at hp
    rw [← (toNat_testBit_iff p n _).2 rfl, Nat.mod_eq_of_lt (Nat.div_lt_of_lt_mul (by rwa [mul_comm]))]
  have hm : p % 2 ^ n = p / 2 ^ fracBits fmt % 2 ^ (layout fmt).1 * 2 ^ fracBits fmt + p % 2 ^ fracBits fmt := by
    rw [← hb, Nat.add_comm, pow_add, Nat.mod_mul, Nat.add_comm, Nat.mul_comm]
  rw [signPattern_eq h, hb, ← hn, ← hm, Nat.div_add_mod']

theorem packF_eq (h : fmt ≤ 7) (neg : Bool) (k : Nat) (q : Int) : packF fmt neg k q = signPattern fmt neg + (if k < 2 ^ fracBits fmt then k
    else if k < 2 ^ (fracBits fmt + 1) then (q + fracBits fmt + (layout fmt).2.2).toNat * 2 ^ fracBits fmt + (k - 2 ^ fracBits fmt)
    else (q + fracBits fmt + 1 + (layout fmt).2.2).toNat * 2 ^ fracBits fmt) := by
  rw [packF, shapeOf_eq, signBit_eq h]

theorem finiteMag_le (h4 : fmt ≠ 4) {E M : Nat} (hE : E < 2 ^ (layout fmt).1 - 1) (hM : M < 2 ^ fracBits fmt) : finiteMag fmt E M ≤ largest fmt := by
  rw [finiteMag]
  split
  · have he : two (leastExp fmt) = (2 ^ fracBits fmt : Nat) * two (leastExp fmt - fracBits fmt) := by
      rw [← two_add_nat, add_sub_cancel]
    refine le_trans ?_ (two_leastExp_le fmt)
    rw [he]
    exact mul_le_mul_of_nonneg_right (Nat.cast_le.2 hM.le) (two_gt_zero _).le
  · rw [largest_eq, maxFinite_ieee h4]
    refine mul_le_mul (Nat.cast_le.2 (by rw [pow_succ]; omega)) (two_le_two.2 ?_) (two_gt_zero _).le (Nat.cast_nonneg _)
    rw [greatestExp]
    omega

/-- A pattern of vector arithmetic that is no NaN, decoded and delivered. -/
theorem deliverF_decodeF (h : fmt ≤ 3) {p : Nat} (hp : p < 2 ^ sewOf fmt) (hn : (meaning fmt p).isNan = false) :
    deliverF fmt 0 false false (decodeF fmt p) false = ⟨p, when (meaning fmt p).isInf NF⟩ := by
  have hpat := pattern_eq (by omega : fmt ≤ 5) hp
  have h4 : fmt ≠ 4 := by omega
  have hE : p / 2 ^ fracBits fmt % 2 ^ (layout fmt).1 < 2 ^ (layout fmt).1 := Nat.mod_lt _ (Nat.two_pow_pos _)
  have hM : p % 2 ^ fracBits fmt < 2 ^ fracBits fmt := Nat.mod_lt _ (Nat.two_pow_pos _)
  rw [decodeF_eq (by omega)]
  rw [meaning_eq (by omega)] at hn ⊢
  generalize p.testBit ((layout fmt).1 + fracBits fmt) = neg at *
  generalize p / 2 ^ fracBits fmt % 2 ^ (layout fmt).1 = E at *
  generalize p % 2 ^ fracBits fmt = M at *
  simp only [h4, false_and, if_false, ne_eq, not_false_eq_true, true_and] at hn ⊢
  by_cases hinf : E = 2 ^ (layout fmt).1 - 1
  · simp only [if_pos hinf] at hn ⊢
    by_cases hM0 : M = 0
    · simp only [if_pos hM0] at hn ⊢
      rw [hM0, hinf] at hpat
      change _ = FRes.mk p NF
      rw [hpat]
      exact (deliverF_gets 0 false h (.inf neg)).trans rfl
    · simp only [if_neg hM0] at hn
      exact nomatch hn
  · simp only [if_neg hinf] at hn ⊢
    have hle : finiteMag fmt E M ≤ largest fmt := finiteMag_le h4 (by omega) hM
    rw [finiteMag] at hle
    have hl : leastExp fmt = 1 - (layout fmt).2.2 := rfl
    change _ = FRes.mk p 0
    rw [hpat]
    split
    · next hE0 =>
      rw [if_pos hE0] at hle
      by_cases hM0 : M = 0
      · rw [hM0, hE0, deliverF_zero _ _ _ _ (by omega), Nat.zero_mul]
        rfl
      · have hlog : M.log2 < fracBits fmt := (Nat.log2_lt hM0).2 hM
        rw [deliverF_fin _ _ _ _ (by omega) hM0, roundF_exact 0 false neg (by omega) hle, packF_eq (by omega), if_pos hM, hE0, Nat.zero_mul, Nat.zero_add]
    · next hE0 =>
      rw [if_neg hE0] at hle
      have hlog : (2 ^ fracBits fmt + M).log2 = fracBits fmt := (Nat.log2_eq_iff (by omega)).2 ⟨by omega, by rw [pow_succ]; omega⟩
      rw [deliverF_fin _ _ _ _ (by omega) (by omega), roundF_exact 0 false neg (by rw [hlog]; omega) hle, packF_eq (by omega), if_neg (by omega),
        if_pos (by rw [pow_succ]; omega), Nat.add_sub_cancel_left, show ((E : Int) - (layout fmt).2.2 - fracBits fmt + fracBits fmt + (layout fmt).2.2).toNat = E by omega]

/-- An operand of vector arithmetic that is no NaN, fetched and delivered. -/
theorem deliverF_fetchF (h : fmt ≤ 3) (ftz : Bool) {p : Nat} (hp : p < 2 ^ sewOf fmt) (hn : (reads ftz fmt p).isNan = false) :
    deliverF fmt 0 false false (fetchF ftz fmt p) false = ⟨flushed ftz fmt p, when (reads ftz fmt p).isInf NF⟩ := by
  rw [reads] at hn ⊢
  rw [fetchF, flushed, isSubnormal_eq] at *
  split at hn
  · next hs =>
    rw [if_pos hs, if_pos hs, deliverF_zero _ _ _ _ (by omega), meaning_signPattern (by omega), shapeOf_eq, bit_eq_testBit]
    rfl
  · next hs =>
    rw [if_neg hs, if_neg hs]
    exact deliverF_decodeF h hp hn

end

/-! ### Comparisons -/

theorem signed_finInt (neg : Bool) (m : Nat) {e q : Int} (h : q ≤ e) : signed neg (m * two e) = finInt neg m e q * two q := (finInt_mul_two neg m h).symm

/-- The model's comparison of two values that are no NaN. -/
theorem cmpV_lt_iff (a b : FVal) (ha : (numOf a).isNan = false) (hb : (numOf b).isNan = false) :
    ((cmpV a b == .lt) = (numOf a).less (numOf b)) ∧ ((cmpV a b == .gt) = (numOf b).less (numOf a)) := by
  match a, b with
  | .nan _, _ => exact nomatch ha
  | .inf _, .nan _ => exact nomatch hb
  | .fin _ _ _, .nan _ => exact nomatch hb
  | .inf x, .inf y => cases x <;> cases y <;> exact ⟨rfl, rfl⟩
  | .inf x, .fin _ _ _ => cases x <;> exact ⟨rfl, rfl⟩
  | .fin _ _ _, .inf y => cases y <;> exact ⟨rfl, rfl⟩
  | .fin x m e, .fin y n f =>
    have hlt (i j : Int) : decide ((i : Rat) * two (min e f) < j * two (min e f)) = decide (i < j) := by
      rw [decide_eq_decide, mul_lt_mul_iff_left₀ (two_gt_zero _)]
      exact_mod_cast Iff.rfl
    rw [numOf, numOf, FNum.less, FNum.less, signed_finInt x m (min_le_left e f), signed_finInt y n (min_le_right e f), hlt, hlt, cmpV]
    split
    · next h => exact ⟨by simp [h], by simp [h.le]⟩
    split
    · next h => exact ⟨by simp [h], by simp [h]⟩
    · next h h' => exact ⟨by simpa using h, by simp; omega⟩

theorem isNan_numOf (a : FVal) : (numOf a).isNan = a.isNan := by cases a <;> rfl
theorem signals_numOf (a : FVal) : (numOf a).signals = a.isSnan := by cases a <;> rfl
theorem neg_numOf (a : FVal) : (numOf a).neg = a.neg := by cases a <;> rfl

theorem less_asymm {x y : FNum} (h : x.less y = true) : y.less x = false := by
  match x, y with
  | .inf a, .inf b =>
    revert h
    cases a <;> cases b <;> decide
  | .inf a, .fin _ _ => exact congrArg (!·) (h : a = true)
  | .fin _ _, .inf b => exact (Bool.not_eq_true' b).mp h
  | .fin a m, .fin b n =>
    exact decide_eq_false (not_lt.2 (of_decide_eq_true h : signed a m < signed b n).le)
  | .nan _, _ => exact nomatch h
  | .inf _, .nan _ => exact nomatch h
  | .fin _ _, .nan _ => exact nomatch h

theorem lessZ_eq (a b : FVal) (ha : (numOf a).isNan = false) (hb : (numOf b).isNan = false) : lessZ a b = (numOf a).below (numOf b) := by
  obtain ⟨h1, h2⟩ := cmpV_lt_iff a b ha hb
  rw [FNum.below, ← h1, ← h2, neg_numOf, neg_numOf, lessZ]
  cases cmpV a b <;> simp

theorem below_self (x : FNum) : x.below x = false := by
  have h : x.less x = false := by
    rw [← Bool.not_eq_true]
    exact fun h => absurd h (by rw [less_asymm h]; decide)
  rw [FNum.below, h]
  cases x.neg <;> rfl

theorem below_asymm {x y : FNum} (h : x.below y = true) : y.below x = false := by
  rw [FNum.below] at h ⊢
  cases hxy : x.less y
  · rw [hxy] at h
    generalize y.less x = l at h ⊢
    revert h
    cases l <;> cases x.neg <;> cases y.neg <;> decide
  · rw [less_asymm hxy]
    rfl

/-- The smaller or the larger of two operands. -/
theorem pickF_extreme {fmt : Nat} (h : fmt ≤ 3) (ftz big : Bool) {a b : Nat} (ha : a < 2 ^ sewOf fmt) (hb : b < 2 ^ sewOf fmt) :
    Claims.IsExtreme fmt ftz big [a, b] (pickF fmt big (fetchF ftz fmt a) (fetchF ftz fmt b)) := by
  have hx := fetchF_num (by omega : fmt ≤ 7) ftz a
  have hy := fetchF_num (by omega : fmt ≤ 7) ftz b
  rw [Claims.IsExtreme, pickF]
  simp only [List.any_cons, List.any_nil, Bool.or_false, ← isNan_numOf, ← signals_numOf, hx, hy]
  split
  · rw [canonNan_eq (by omega)]
    rfl
  · next hnan =>
    rw [Bool.or_eq_true, not_or, Bool.not_eq_true, Bool.not_eq_true] at hnan
    obtain ⟨hna, hnb⟩ := hnan
    rw [lessZ_eq _ _ (by rwa [hx]) (by rwa [hy]), hx, hy]
    have hda := deliverF_fetchF h ftz ha hna
    have hdb := deliverF_fetchF h ftz hb hnb
    have hab (p : Nat) (h1 : (if big then (reads ftz fmt p).below (reads ftz fmt a) else (reads ftz fmt a).below (reads ftz fmt p)) = false)
        (h2 : (if big then (reads ftz fmt p).below (reads ftz fmt b) else (reads ftz fmt b).below (reads ftz fmt p)) = false) :
        ∀ y ∈ [a, b], (if big then (reads ftz fmt p).below (reads ftz fmt y) else (reads ftz fmt y).below (reads ftz fmt p)) = false :=
      List.forall_mem_cons.2 ⟨h1, List.forall_mem_singleton.2 h2⟩
    split
    · next hsel =>
      refine ⟨b, by simp, hdb, hab b ?_ (by simp [below_self])⟩
      cases big
      · simpa using hsel
      · exact below_asymm (by simpa using hsel)
    · next hsel =>
      refine ⟨a, by simp, hda, hab a (by simp [below_self]) ?_⟩
      cases big
      · exact below_asymm (by simpa using hsel)
      · simpa using hsel

end Sys2Proof.Machine
end

section
/-! SUPPORT. Comparisons, classes and the rounding of an estimate (spec/05 R134 to R136). -/

namespace Sys2Proof.Machine
open Sys2Proof Sys2Proof.Claims
set_option Elab.async false

/-- The conditions of Table 5.9 on floats. -/
theorem vcmpElem_float {fmt : Nat} (h : fmt ≤ 3) (ftz : Bool) (a b : Nat) :
    let x := reads ftz fmt a
    let y := reads ftz fmt b
    let un := x.isNan || y.isNan
    let lt := x.less y
    let gt := y.less x
    ∀ q ∈ [(0, !un && !lt && !gt), (1, un || lt || gt), (2, !un && lt), (3, !un && !gt), (4, !un && gt), (5, !un && !lt), (8, un)],
      vcmpElem q.1 fmt ftz a b = (q.2, x.signals || y.signals) := by
  dsimp only
  have hf : isFloat fmt = true := decide_eq_true (by omega)
  have hx := fetchF_num (by omega : fmt ≤ 7) ftz a
  have hy := fetchF_num (by omega : fmt ≤ 7) ftz b
  simp only [vcmpElem, hf, if_true, ← hx, ← hy, signals_numOf, isNan_numOf]
  generalize fetchF ftz fmt a = x
  generalize fetchF ftz fmt b = y
  cases hun : x.isNan || y.isNan
  · obtain ⟨hxn, hyn⟩ := Bool.or_eq_false_iff.1 hun
    obtain ⟨h1, h2⟩ := cmpV_lt_iff x y (isNan_numOf x ▸ hxn) (isNan_numOf y ▸ hyn)
    simp only [← h1, ← h2]
    cases cmpV x y <;> simp
  · simp

theorem classBit_eq {fmt : Nat} (h : fmt ≤ 3) (p : Nat) : classBit fmt p = (match meaning fmt p with
    | .inf neg => if neg then 0 else 7
    | .nan v => if v then 8 else 9
    | .fin neg m => if m = 0 then (if neg then 3 else 4) else if subnormal fmt p then (if neg then 2 else 5) else if neg then 1 else 6) := by
  rw [classBit, ← decodeF_num (by omega), isSubnormal_eq]
  cases decodeF fmt p with
  | nan s => rfl
  | inf neg => rfl
  | fin neg m e =>
    have h0 : (m * two e : Rat) = 0 ↔ m = 0 := by simp [(two_gt_zero e).ne']
    simp only [numOf, h0]

/-! ### Estimates -/

/-- An estimate of a magnitude: rounded down or up, an infinity where that overflows. -/
def Estimates (fmt : Nat) (ftz neg : Bool) (x : Mag) (r : FRes) : Prop :=
  ∃ m ∈ [1, if neg then 2 else 3], RoundsTo fmt m ftz neg x ⟨infPattern fmt neg, OF ||| NX ||| NF⟩ r

theorem estimate_estimates {fmt : Nat} (h : fmt ≤ 3) (fn : Nat) (ftz neg : Bool) (p : Nat) {x : Mag} {m : Nat} {e : Int} {st : Bool}
    (hr : ∀ mode, RoundsTo fmt mode ftz neg x (overflows fmt mode false neg) (deliverF fmt mode false ftz (.fin neg m e) st)) :
    Estimates fmt ftz neg x (estimate fn fmt ftz p (.fin neg m e) st) := by
  have hover (mode : Nat) : (overflows fmt mode false neg).flags &&& OF ≠ 0 := by
    rw [← overflowF_eq (by omega : fmt ≤ 7)]
    exact overflowF_raises (by omega : fmt ≤ 7) mode false neg
  refine ⟨if Config.estimateUp fn fmt ftz p then (if neg then 2 else 3) else 1, ?_, ?_⟩
  · split <;> simp
  · rw [estimate, nearV, infBits_eq (by omega)]
    exact RoundsTo_overflow (hr _) (hover _)

/-- A power of two beyond a format overflows, whatever excess it has. -/
theorem roundF_beyond {fmt : Nat} (h4 : fmt ≠ 4) {e : Int} (he : greatestExp fmt < e) (mode : Nat) (sat ftz neg st : Bool) :
    roundF fmt mode sat ftz neg 1 e st = overflowF fmt mode sat neg := by
  have hle : leastExp fmt ≤ greatestExp fmt := by
    unfold leastExp greatestExp layout
    split <;> decide
  have hq : max (((1 : Nat).log2 : Int) + e - fracBits fmt) (leastExp fmt - fracBits fmt) = e - fracBits fmt := by
    rw [show Nat.log2 1 = 0 from rfl, Nat.cast_zero, zero_add]
    exact max_eq_left (by omega)
  have hov : ltScaled (maxFinite fmt).1 (maxFinite fmt).2 (1 * 2 ^ (e - (e - fracBits fmt)).toNat) (e - fracBits fmt) = true := by
    rw [ltScaled_iff, ← largest_eq, one_mul, ← two_split (by omega)]
    exact (largest_lt h4).trans_le (two_le_two.2 he)
  have hr : roundAt mode neg 1 e st (e - fracBits fmt) = (1 * 2 ^ (e - (e - fracBits fmt)).toNat, st) := by
    rw [roundAt, if_pos (by omega)]
  unfold roundF
  rw [shapeOf_eq]
  dsimp only
  rw [show (1 : Int) - ((layout fmt).2.2 : Int) = leastExp fmt from rfl, hq, hr]
  exact if_pos hov

theorem roundAt_below (mode : Nat) (neg : Bool) {e q : Int} (h : e + 1 < q) (st : Bool) :
    roundAt mode neg 1 e st q = (if roundUp mode neg 0 .lt true then 1 else 0, true) := by
  obtain ⟨n, hn⟩ : ∃ n, (q - e).toNat = n + 2 := ⟨(q - e).toNat - 2, by omega⟩
  have h1 : 1 < 2 ^ (n + 1) := Nat.one_lt_two_pow (by omega)
  have h2 : 1 < 2 ^ (n + 2) := Nat.one_lt_two_pow (by omega)
  rw [roundAt, if_neg (by omega), hn]
  simp only [Nat.div_eq_of_lt h2, Nat.mod_eq_of_lt h2, show n + 2 - 1 = n + 1 from rfl, if_neg h1.not_gt, if_neg h1.ne]
  rfl

/-- A power of two below half the last place of a format's subnormals is rounded like any other, whatever excess it has. -/
theorem roundF_below {fmt : Nat} {e : Int} (he : e + 1 < leastExp fmt - fracBits fmt) (mode : Nat) (sat ftz neg st : Bool) :
    roundF fmt mode sat ftz neg 1 e st = roundF fmt mode sat ftz neg 1 (leastExp fmt - fracBits fmt - 2) false := by
  have below {e : Int} (he : e + 1 < leastExp fmt - fracBits fmt) (st : Bool) : roundF fmt mode sat ftz neg 1 e st =
      let k := if roundUp mode neg 0 .lt true then 1 else 0
      let q := leastExp fmt - fracBits fmt
      if ltScaled (maxFinite fmt).1 (maxFinite fmt).2 k q then overflowF fmt mode sat neg
      else if ftz && isArith fmt && k != 0 && ltScaled k q 1 (leastExp fmt) then ⟨signBit fmt neg, UF ||| NX⟩
      else ⟨packF fmt neg k q, flagIf true NX ||| flagIf (true && true) UF⟩ := by
    have hq : max ((Nat.log2 1 : Int) + e - fracBits fmt) (leastExp fmt - fracBits fmt) = leastExp fmt - fracBits fmt := by
      rw [show Nat.log2 1 = 0 from rfl, Nat.cast_zero, zero_add]
      exact max_eq_right (by omega)
    have htiny : ltScaled (1 * 2 ^ (e - ((Nat.log2 1 : Int) + e - fracBits fmt)).toNat) ((Nat.log2 1 : Int) + e - fracBits fmt) 1 (leastExp fmt) = true := by
      rw [show Nat.log2 1 = 0 from rfl, Nat.cast_zero, zero_add, ltScaled_iff, one_mul, ← two_split (by omega), Nat.cast_one, one_mul, two_lt_two]
      omega
    have hfree : roundAt mode neg 1 e st ((Nat.log2 1 : Int) + e - fracBits fmt) = (1 * 2 ^ (e - ((Nat.log2 1 : Int) + e - fracBits fmt)).toNat, st) := by
      rw [roundAt, if_pos]
      rw [show Nat.log2 1 = 0 from rfl, Nat.cast_zero]
      omega
    unfold roundF
    rw [shapeOf_eq]
    dsimp only
    rw [show (1 : Int) - ((layout fmt).2.2 : Int) = leastExp fmt from rfl, hq, roundAt_below mode neg he]
    dsimp only
    rw [hfree]
    dsimp only
    rw [htiny]
  rw [below he, below (by omega)]

theorem exp2V_far {fmt : Nat} (h : fmt ≤ 3) {i : Int} (hi : 2 ^ 13 < i.natAbs) (mode : Nat) (sat ftz neg : Bool) :
    RoundsTo fmt mode ftz neg (.of (two i)) (overflows fmt mode sat neg)
      (deliverF fmt mode sat ftz (.fin neg 1 (if i < 0 then -(2 ^ 13) else 2 ^ 13)) true) := by
  have hr := deliverF_rounds_of mode sat ftz neg (by omega : fmt ≤ 5) one_ne_zero i
  rw [Nat.cast_one, one_mul] at hr
  have hg : greatestExp fmt ≤ 1023 := by interval_cases fmt <;> decide
  have hl : -1074 ≤ leastExp fmt - fracBits fmt := by interval_cases fmt <;> decide
  rw [deliverF_fin _ _ _ _ (by omega) one_ne_zero] at hr ⊢
  split
  · next hneg => rwa [roundF_below (by omega), ← roundF_below (e := i) (by omega) mode sat ftz neg false]
  · next hneg => rwa [roundF_beyond (by omega) (by omega), ← roundF_beyond (e := i) (by omega) (by omega) mode sat ftz neg false]

end Sys2Proof.Machine
end

section
/-! SUPPORT. Estimates of powers and logarithms where the exact value is rational (spec/05 R135, Table 5.8). -/

namespace Sys2Proof.Machine
open Sys2Proof Sys2Proof.Claims
set_option Elab.async false

/-- A natural number m × 2^e with k fraction bits. -/
theorem scaled_natCast {m a : Nat} {e : Int} (h : (m * two e : Rat) = a) (k : Nat) :
    (if 0 ≤ e + k then m * 2 ^ (e + k).toNat else m / 2 ^ (-(e + k)).toNat) = a * 2 ^ k := by
  split
  · next hk =>
    have hc : (m * two (e + k) : Rat) = (a * 2 ^ k : Nat) := by
      rw [two_add, ← mul_assoc, h, two_natCast]
      push_cast
      rfl
    rw [two_eq_zpow, ← Int.toNat_of_nonneg hk, zpow_natCast] at hc
    exact_mod_cast hc
  · next hk =>
    have hm : m = a * 2 ^ k * 2 ^ (-(e + k)).toNat := by
      have hc : (m : Rat) = (a * 2 ^ k * 2 ^ (-(e + k)).toNat : Nat) := by
        push_cast
        rw [← h, ← two_natCast, ← two_natCast, mul_assoc, mul_assoc, ← two_add, ← two_add, show e + ((k : Int) + ((-(e + k)).toNat : Nat)) = 0 by omega]
        simp [two]
      exact_mod_cast hc
    rw [hm, Nat.mul_div_cancel _ (Nat.two_pow_pos _)]

/-- 2^i for an integer operand: the value itself, or one beyond every format on its side. -/
theorem exp2V_int {neg : Bool} {m : Nat} {e i : Int} (hi : i ≠ 0) (h : (i : Rat) = signed neg (m * two e)) :
    exp2V neg m e = if 2 ^ 13 < i.natAbs then (.fin false 1 (if i < 0 then -(2 ^ 13) else 2 ^ 13), true) else (.fin false 1 i, false) := by
  have hp : (0 : Rat) ≤ m * two e := mul_nonneg m.cast_nonneg (two_gt_zero e).le
  have hin : i = if neg then -(i.natAbs : Int) else i.natAbs := by
    cases neg
    · have : 0 ≤ i := by exact_mod_cast (h ▸ hp : (0 : Rat) ≤ i)
      simp only [Bool.false_eq_true, if_false]
      omega
    · have : i ≤ 0 := by
        have h0 : (i : Rat) ≤ 0 := by rw [h]; exact neg_nonpos.2 hp
        exact_mod_cast h0
      simp only [if_true]
      omega
  obtain ⟨a, ha⟩ : ∃ a, a = i.natAbs := ⟨_, rfl⟩
  rw [← ha] at hin ⊢
  have hma : (m * two e : Rat) = a := by
    cases neg
    · simp only [Bool.false_eq_true, if_false] at hin
      rw [show (i : Rat) = a by rw [hin]; exact Int.cast_natCast a] at h
      exact h.symm
    · simp only [if_true] at hin
      rw [show (i : Rat) = -(a : Rat) by rw [hin]; push_cast; rfl] at h
      exact (neg_injective h).symm
  have hneg : i < 0 ↔ neg = true := by cases neg <;> simp only [Bool.false_eq_true, if_false, if_true] at hin <;> simp <;> omega
  have hnear : ltScaled m e 1 (-200) = false := by
    rw [← Bool.not_eq_true, ltScaled_iff, hma, not_lt]
    have h1 : (1 : Rat) ≤ a := by exact_mod_cast (by omega : 1 ≤ a)
    rw [Nat.cast_one, one_mul]
    exact (two_le_two.2 (by decide : (-200 : Int) ≤ 0)).trans h1
  have hfar : ltScaled 1 13 m e = decide (2 ^ 13 < a) := by
    rw [Bool.eq_iff_iff, ltScaled_iff, hma, decide_eq_true_iff, Nat.cast_one, one_mul, show two 13 = (2 ^ 13 : Nat) from rfl, Nat.cast_lt]
  have hsc := scaled_natCast hma 320
  rw [exp2V, hnear, hfar]
  simp only [Bool.false_eq_true, if_false, decide_eq_true_iff, ← hneg]
  split
  · rfl
  · have hx (k : Nat) : (if i < 0 then -((a * k : Nat) : Int) else ((a * k : Nat) : Int)) = i * k := by
      rw [hin]
      cases neg
      · rw [if_neg (by simp only [Bool.false_eq_true, if_false]; omega)]
        simp
      · rw [if_pos (by simp only [if_true]; omega)]
        simp
    have hs : (if 0 ≤ e + 320 then ((m * 2 ^ (e + 320).toNat : Nat) : Int) else ((m / 2 ^ (-(e + 320)).toNat : Nat) : Int)) = (a * 2 ^ 320 : Nat) := by
      rw [← hsc]
      push_cast
      rfl
    rw [hs, hx, Int.mul_fdiv_cancel _ (by positivity), sub_self]
    rfl

theorem exp2V_rounds {fmt : Nat} (h : fmt ≤ 3) {neg : Bool} {m : Nat} {e i : Int} (hi : i ≠ 0) (hv : (i : Rat) = signed neg (m * two e)) (ftz : Bool) (p : Nat) :
    Estimates fmt ftz false (.of (two i)) (estimate 2 fmt ftz p (exp2V neg m e).1 (exp2V neg m e).2) := by
  rw [exp2V_int hi hv]
  split
  · next hf => exact estimate_estimates h 2 ftz false p fun mode => exp2V_far h hf mode false ftz false
  · refine estimate_estimates h 2 ftz false p fun mode => ?_
    have hr := deliverF_rounds_of mode false ftz false (by omega : fmt ≤ 5) one_ne_zero i
    rwa [Nat.cast_one, one_mul] at hr

/-- The logarithm of a power of two. -/
theorem log2V_two {m : Nat} {e i : Int} (h : (m * two e : Rat) = two i) : log2V m e = (.fin (decide (i < 0)) i.natAbs 0, false) := by
  have hm : (m : Rat) = two (i - e) := by
    have h1 : (m * two e : Rat) = two (i - e) * two e := by rw [h, ← two_add, sub_add_cancel]
    exact mul_right_cancel₀ (two_gt_zero e).ne' h1
  have hpos : 0 ≤ i - e := by
    rw [← two_le_two, ← hm]
    have h0 : m ≠ 0 := by
      rintro rfl
      exact (two_gt_zero (i - e)).ne hm
    exact Nat.one_le_cast.2 (Nat.pos_of_ne_zero h0)
  obtain ⟨n, hn⟩ := Int.eq_ofNat_of_zero_le hpos
  obtain rfl : m = 2 ^ n := by
    rw [hn, two_natCast] at hm
    exact_mod_cast hm
  have hi : (n : Int) + e = i := by omega
  rw [log2V, Nat.log2_two_pow]
  simp [hi]

theorem log2V_rounds {fmt : Nat} (h : fmt ≤ 3) {m : Nat} {e i : Int} (hi : i ≠ 0) (hv : (m * two e : Rat) = two i) (ftz : Bool) (p : Nat) :
    Estimates fmt ftz (decide (i < 0)) (.of (i.natAbs : Rat)) (estimate 3 fmt ftz p (log2V m e).1 (log2V m e).2) := by
  rw [log2V_two hv]
  refine estimate_estimates h 3 ftz _ p fun mode => ?_
  have hr := deliverF_rounds_of mode false ftz (decide (i < 0)) (by omega : fmt ≤ 5) (Int.natAbs_ne_zero.2 hi) 0
  rwa [show two 0 = 1 from rfl, mul_one] at hr

/-- The logarithm of one is an exact zero. -/
theorem log2V_one {fmt : Nat} (h : fmt ≤ 3) {m : Nat} {e : Int} (hv : (m * two e : Rat) = two 0) (ftz : Bool) (p : Nat) :
    estimate 3 fmt ftz p (log2V m e).1 (log2V m e).2 = ⟨0, 0⟩ := by
  have hz (mode : Nat) : deliverF fmt mode false ftz (.fin false 0 0) false = ⟨0, 0⟩ := deliverF_zero mode false ftz false (by omega) 0
  rw [log2V_two hv, estimate, nearV]
  simp only [lt_irrefl, decide_false, Int.natAbs_zero, hz]
  exact if_neg (by decide)

/-- One delivered is one. -/
theorem deliverF_one {fmt : Nat} (h : fmt ≤ 3) (ftz : Bool) :
    meaning fmt (deliverF fmt 0 false ftz (.fin false 1 0) false).val = .fin false 1 ∧ (deliverF fmt 0 false ftz (.fin false 1 0) false).flags = 0 := by
  have hd : decodeF fmt (deliverF fmt 0 false ftz (.fin false 1 0) false).val = .fin false (2 ^ fracBits fmt) (-fracBits fmt) := by
    cases ftz <;> interval_cases fmt <;> decide +kernel
  refine ⟨?_, ?_⟩
  · rw [← decodeF_num (by omega), hd, numOf]
    congr 1
    push_cast
    rw [← two_natCast, ← two_add, add_neg_cancel]
    rfl
  · cases ftz <;> interval_cases fmt <;> decide +kernel

end Sys2Proof.Machine
end

section
/-! SUPPORT. The floating element functions settled (O20). -/

namespace Sys2Proof.Machine
open Sys2Proof Sys2Proof.Claims
set_option Elab.async false

/-- What an estimate instruction delivers for an operand: the last part of the statement O20. -/
def EstimatesOf (fmt : Nat) (ftz : Bool) (x : FNum) (est : Nat → FRes) : Prop :=
  match x with
  | .nan v => ∀ fn, fn < 4 → est fn = ⟨nanPattern fmt, when v NV ||| NF⟩
  | .inf neg => est 0 = ⟨signPattern fmt neg, 0⟩ ∧ est 1 = (if neg then ⟨nanPattern fmt, NV ||| NF⟩ else ⟨0, 0⟩)
      ∧ est 2 = (if neg then ⟨0, 0⟩ else ⟨infPattern fmt false, NF⟩) ∧ est 3 = (if neg then ⟨nanPattern fmt, NV ||| NF⟩ else ⟨infPattern fmt false, NF⟩)
  | .fin neg m =>
    (m = 0 → est 0 = ⟨infPattern fmt neg, DZ ||| NF⟩ ∧ est 1 = ⟨infPattern fmt neg, DZ ||| NF⟩ ∧ meaning fmt (est 2).val = .fin false 1 ∧ (est 2).flags = 0
      ∧ est 3 = ⟨infPattern fmt true, DZ ||| NF⟩)
    ∧ (m ≠ 0 → Estimates fmt ftz neg (.of (1 / m)) (est 0))
    ∧ (m ≠ 0 → if neg then est 1 = ⟨nanPattern fmt, NV ||| NF⟩ ∧ est 3 = ⟨nanPattern fmt, NV ||| NF⟩ else Estimates fmt ftz false (.overRoot m) (est 1))
    ∧ (∀ i : Int, i ≠ 0 → (i : Rat) = signed neg m → Estimates fmt ftz false (.of (two i)) (est 2))
    ∧ (∀ i : Int, neg = false → m = two i → if i = 0 then est 3 = ⟨0, 0⟩ else Estimates fmt ftz (decide (i < 0)) (.of (i.natAbs : Rat)) (est 3))

section
variable {fmt : Nat} (h : fmt ≤ 3) (ftz : Bool) {p : Nat}
include h

theorem estElem_nan {s : Bool} (hv : fetchF ftz fmt p = .nan s) (fn : Nat) : estElem fn fmt ftz p = ⟨nanPattern fmt, when s NV ||| NF⟩ := by
  rw [estElem, hv, ← canonNan_eq (by omega)]
  rfl

/-- The estimates of an infinity (Table 5.8). -/
theorem estElem_inf {neg : Bool} (hv : fetchF ftz fmt p = .inf neg) : EstimatesOf fmt ftz (.inf neg) (estElem · fmt ftz p) := by
  refine ⟨?_, ?_, ?_, ?_⟩ <;> dsimp only <;> rw [estElem, hv]
  · exact congrArg (FRes.mk · 0) (signBit_eq (by omega) neg)
  · rw [← canonNan_eq (by omega)]
    rfl
  · rw [← infBits_eq (by omega)]
    rfl
  · rw [← canonNan_eq (by omega), ← infBits_eq (by omega)]
    rfl

/-- The estimates of a zero (Table 5.8). -/
theorem estElem_zero {neg : Bool} {e : Int} (hv : fetchF ftz fmt p = .fin neg 0 e) :
    estElem 0 fmt ftz p = ⟨infPattern fmt neg, DZ ||| NF⟩ ∧ estElem 1 fmt ftz p = ⟨infPattern fmt neg, DZ ||| NF⟩
      ∧ meaning fmt (estElem 2 fmt ftz p).val = .fin false 1 ∧ (estElem 2 fmt ftz p).flags = 0 ∧ estElem 3 fmt ftz p = ⟨infPattern fmt true, DZ ||| NF⟩ := by
  have h2 : estElem 2 fmt ftz p = deliverF fmt 0 false ftz (.fin false 1 0) false := by
    rw [estElem, hv]
    rfl
  obtain ⟨hv2, hf2⟩ := deliverF_one h ftz
  rw [h2]
  refine ⟨?_, ?_, hv2, hf2, ?_⟩ <;> rw [estElem, hv, ← infBits_eq (by omega)] <;> rfl

section
variable {neg : Bool} {m : Nat} {e : Int} (hv : fetchF ftz fmt p = .fin neg m e) (hm : m ≠ 0)
include hv hm

theorem estElem_reciprocal : Estimates fmt ftz neg (.of (1 / (m * two e))) (estElem 0 fmt ftz p) := by
  have he : estElem 0 fmt ftz p = estimate 0 fmt ftz p (.fin neg (1 * 2 ^ (70 + m.log2) / m) (0 - e - (70 + m.log2 : Nat))) (1 * 2 ^ (70 + m.log2) % m != 0) := by
    rw [estElem, hv]
    simp only [hm, if_false, divV, one_ne_zero, Bool.false_bne]
  rw [he]
  refine estimate_estimates h 0 ftz neg p fun mode => ?_
  have hr := divV_rounds (by omega : fmt ≤ 5) one_ne_zero hm 0 e mode false ftz neg
  rwa [Nat.cast_one, one_mul, show two 0 = 1 from rfl] at hr

theorem estElem_invalid (hn : neg = true) : estElem 1 fmt ftz p = ⟨nanPattern fmt, NV ||| NF⟩ ∧ estElem 3 fmt ftz p = ⟨nanPattern fmt, NV ||| NF⟩ := by
  subst hn
  constructor <;> rw [estElem, hv, ← canonNan_eq (by omega)] <;> exact if_neg hm

theorem estElem_overRoot (hn : neg = false) : Estimates fmt ftz false (.overRoot (m * two e)) (estElem 1 fmt ftz p) := by
  subst hn
  have he : estElem 1 fmt ftz p = estimate 1 fmt ftz p (rsqrtV m e).1 (rsqrtV m e).2 := by
    rw [estElem, hv]
    exact if_neg hm
  rw [he]
  exact estimate_estimates h 1 ftz false p fun mode => rsqrtV_rounds (by omega) hm e mode false ftz

theorem estElem_power {i : Int} (hi : i ≠ 0) (hx : (i : Rat) = signed neg (m * two e)) : Estimates fmt ftz false (.of (two i)) (estElem 2 fmt ftz p) := by
  have he : estElem 2 fmt ftz p = estimate 2 fmt ftz p (exp2V neg m e).1 (exp2V neg m e).2 := by
    rw [estElem, hv]
    exact if_neg hm
  rw [he]
  exact exp2V_rounds h hi hx ftz p

theorem estElem_logarithm (hn : neg = false) {i : Int} (hx : (m * two e : Rat) = two i) :
    if i = 0 then estElem 3 fmt ftz p = ⟨0, 0⟩ else Estimates fmt ftz (decide (i < 0)) (.of (i.natAbs : Rat)) (estElem 3 fmt ftz p) := by
  subst hn
  have he : estElem 3 fmt ftz p = estimate 3 fmt ftz p (log2V m e).1 (log2V m e).2 := by
    rw [estElem, hv]
    exact if_neg hm
  rw [he]
  split
  · next h0 => exact log2V_one h (h0 ▸ hx) ftz p
  · next h0 => exact log2V_rounds h h0 hx ftz p

end

theorem estElem_estimates (p : Nat) : EstimatesOf fmt ftz (reads ftz fmt p) (estElem · fmt ftz p) := by
  rw [← fetchF_num (by omega)]
  match hv : fetchF ftz fmt p with
  | .nan s => exact fun fn _ => estElem_nan h ftz hv fn
  | .inf neg => exact estElem_inf h ftz hv
  | .fin neg m e =>
    by_cases hm : m = 0
    · subst hm
      have h0 : ((0 : Nat) : Rat) * two e = 0 := by simp
      refine ⟨fun _ => estElem_zero h ftz hv, fun hne => absurd h0 hne, fun hne => absurd h0 hne, fun i hi hx => ?_, fun i _ hx => ?_⟩
      · rw [h0] at hx
        have hs : signed neg 0 = 0 := by cases neg <;> simp [signed]
        exact absurd (Int.cast_eq_zero.1 (hx.trans hs)) hi
      · exact absurd (h0.symm.trans hx) (two_gt_zero i).ne
    · have hpos : (0 : Rat) < m * two e := mul_pos (Nat.cast_pos.2 (Nat.pos_of_ne_zero hm)) (two_gt_zero e)
      refine ⟨fun hz => absurd hz hpos.ne', fun _ => estElem_reciprocal h ftz hv hm, fun _ => ?_, fun i hi hx => estElem_power h ftz hv hm hi hx,
        fun i hn hx => estElem_logarithm h ftz hv hm hn hx⟩
      cases hn : neg
      · exact estElem_overRoot h ftz hv hm hn
      · exact estElem_invalid h ftz hv hm hn

end

/-- The VOP functions on floats (Table 5.4). -/
theorem vopElem_float {fmt : Nat} (h : fmt ≤ 3) (mode : Nat) (sat ftz : Bool) (a b : Nat) :
    let x := fetchF ftz fmt a
    let y := fetchF ftz fmt b
    vopElem 0 fmt mode sat ftz a b = faddP fmt mode ftz x y ∧ vopElem 1 fmt mode sat ftz a b = faddP fmt mode ftz x (negV y)
      ∧ vopElem 2 fmt mode sat ftz a b = fmulP fmt mode ftz x y ∧ vopElem 3 fmt mode sat ftz a b = fdivP fmt mode ftz x y
      ∧ vopElem 4 fmt mode sat ftz a b = pickF fmt false x y ∧ vopElem 5 fmt mode sat ftz a b = pickF fmt true x y
      ∧ vopElem 13 fmt mode sat ftz a b = absdF fmt mode ftz x y := by
  have hf : isFloat fmt = true := decide_eq_true (by omega)
  simp only [vopElem, elemOp, hf, if_true, and_self]

/-- The sign of a product or an addend changed. -/
theorem numOf_signed (s : Bool) (a : FVal) : numOf (if s then negV a else a) = if s then (numOf a).opposite else numOf a := by
  cases s
  · rfl
  · exact numOf_negV a

/-- Settles O20: the model's operations on a pattern's decoded value answer with the exact value the statement names, and the model's rounding of such an answer is the statement's. -/
theorem floatElementValues : Obligations.FloatElementValues := by
  unfold Obligations.FloatElementValues
  intro fmt mode sat ftz a b c h _ ha hb _
  have hx := fetchF_num (by omega : fmt ≤ 7) ftz a
  have hy := fetchF_num (by omega : fmt ≤ 7) ftz b
  have hz := fetchF_num (by omega : fmt ≤ 7) ftz c
  obtain ⟨h0, h1, h2, h3, h4, h5, h13⟩ := vopElem_float h mode sat ftz a b
  refine ⟨?_, ?_, ?_, ?_, ?_, ?_, ?_, ?_, ?_, ?_, vcmpElem_float h ftz a b, classBit_eq h a, estElem_estimates h ftz a⟩
  · beta_reduce
    rw [h0, ← hx, ← hy]
    exact faddP_gets h mode ftz _ _
  · beta_reduce
    rw [h1, ← hx, ← hy, ← numOf_negV]
    exact faddP_gets h mode ftz _ _
  · beta_reduce
    rw [h2, ← hx, ← hy]
    exact fmulP_gets h mode ftz _ _
  · beta_reduce
    rw [h3, ← hx, ← hy]
    exact fdivP_gets h mode ftz _ _
  · beta_reduce
    rw [h4]
    exact pickF_extreme h ftz false ha hb
  · beta_reduce
    rw [h5]
    exact pickF_extreme h ftz true ha hb
  · beta_reduce
    rw [h13, ← hx, ← hy]
    exact absdF_gets h mode ftz _ _
  · rw [← hx]
    exact fsqrtP_gets h mode ftz _
  · intro np nc
    rw [← hx, ← hy, ← hz, ← numOf_signed, ← numOf_signed]
    exact ffmaP_gets h mode ftz _ _ _
  · rw [← decodeF_num (by omega), ← decodeF_num (by omega)]
    exact ⟨_, faddP_gets h 0 false _ _, rfl⟩

end Sys2Proof.Machine
end

section
/-! SUPPORT. The strings of the tapered formats (spec/03 R71, R81): a magnitude stands at a place between 0 and 1, its string read as a binary fraction, and magnitudes are in the order of their places. -/

namespace Sys2Proof.Machine
open Sys2Proof Sys2Proof.Claims
set_option Elab.async false

/-! ### Positions -/

/-- The power of two and the fraction after the run of a tapered magnitude, by the bits after the run as a number from 0 to 2. -/
def octave (h : Rat) : Rat := if h < 1 then 1 + h else 2 * h

/-- Where the strings of run k begin, as binary fractions. -/
def runStart (k : Int) : Rat := if 0 ≤ k then 1 - two (-k - 1) else two (k - 1)

/-- The width of the strings of run k. -/
def runWidth (k : Int) : Rat := if 0 ≤ k then two (-k - 2) else two (k - 1)

/-- `y` is the magnitude string of `x` (R71, R81), read as a binary fraction. -/
def Stands (x y : Rat) : Prop := ∃ (k : Int) (h : Rat), 0 ≤ h ∧ h < 2 ∧ x = two (2 * k) * octave h ∧ y = runStart k + runWidth k * (h / 2)

theorem octave_lt {g h : Rat} (hlt : g < h) : octave g < octave h := by
  unfold octave
  split <;> split <;> linarith

theorem octave_ge {h : Rat} (h0 : 0 ≤ h) : 1 ≤ octave h := by
  unfold octave
  split <;> linarith

theorem octave_lt_four {h : Rat} (h2 : h < 2) : octave h < 4 := by
  unfold octave
  split <;> linarith

theorem two_succ (z : Int) : two (z + 1) = 2 * two z := by rw [add_comm, two_add, show two 1 = 2 from rfl]

theorem runWidth_pos (k : Int) : 0 < runWidth k := by
  unfold runWidth
  split <;> exact two_gt_zero _

theorem runStart_add (k : Int) : runStart k + runWidth k = runStart (k + 1) := by
  unfold runStart runWidth
  rcases lt_trichotomy k (-1) with hk | rfl | hk
  · rw [if_neg (by omega), if_neg (by omega), if_neg (by omega), show k + 1 - 1 = (k - 1) + 1 by omega, two_succ]
    ring
  · norm_num [two_eq_zpow]
  · rw [if_pos (by omega), if_pos (by omega), if_pos (by omega), show -k - 1 = (-k - 2) + 1 by omega, two_succ, show -(k + 1) - 1 = -k - 2 by omega]
    ring

theorem runStart_le {j k : Int} (h : j < k) : runStart j + runWidth j ≤ runStart k := by
  obtain ⟨n, rfl⟩ : ∃ n : Nat, k = j + 1 + n := ⟨(k - j - 1).toNat, by omega⟩
  induction n with
  | zero => simp [runStart_add]
  | succ n ih =>
    have hs := runStart_add (j + 1 + n)
    have hp := runWidth_pos (j + 1 + n)
    push_cast
    rw [← add_assoc, ← hs]
    exact (ih (by omega)).trans (by linarith)

theorem runStart_lt_one (k : Int) : runStart k < 1 := by
  unfold runStart
  split
  · linarith [two_gt_zero (-k - 1)]
  · exact two_lt_two.2 (by omega : k - 1 < 0)

theorem runStart_pos (k : Int) : 0 < runStart k := by
  unfold runStart
  split
  · have : two (-k - 1) < two 0 := two_lt_two.2 (by omega)
    rw [show two 0 = 1 from rfl] at this
    linarith
  · exact two_gt_zero _

section
variable {x y x' y' : Rat}

theorem Stands.pos (h : Stands x y) : 0 < y := by
  obtain ⟨k, h, h0, -, -, rfl⟩ := h
  have := runStart_pos k
  have := mul_nonneg (runWidth_pos k).le (div_nonneg h0 zero_le_two)
  linarith

theorem Stands.lt_one (h : Stands x y) : y < 1 := by
  obtain ⟨k, h, -, h2, -, rfl⟩ := h
  have hlt : runWidth k * (h / 2) < runWidth k := mul_lt_of_lt_one_right (runWidth_pos k) (by linarith)
  have := runStart_add k
  have := runStart_lt_one (k + 1)
  linarith

theorem Stands.lt_of_run {j k : Int} {g h : Rat} (hg : g < 2) (h0 : 0 ≤ h) (hjk : j < k) :
    two (2 * j) * octave g < two (2 * k) * octave h ∧ runStart j + runWidth j * (g / 2) < runStart k + runWidth k * (h / 2) := by
  constructor
  · calc two (2 * j) * octave g < two (2 * j) * 4 := mul_lt_mul_of_pos_left (octave_lt_four hg) (two_gt_zero _)
      _ = two (2 * j + 2) := by rw [two_add, show two 2 = 4 from rfl]
      _ ≤ two (2 * k) * 1 := by rw [mul_one]; exact two_le_two.2 (by omega)
      _ ≤ two (2 * k) * octave h := mul_le_mul_of_nonneg_left (octave_ge h0) (two_gt_zero _).le
  · have h1 : runWidth j * (g / 2) < runWidth j := mul_lt_of_lt_one_right (runWidth_pos j) (by linarith)
    have h2 := mul_nonneg (runWidth_pos k).le (div_nonneg h0 zero_le_two)
    have h3 := runStart_le hjk
    linarith

theorem Stands.lt_of_octave (k : Int) {g h : Rat} (hgh : g < h) :
    two (2 * k) * octave g < two (2 * k) * octave h ∧ runStart k + runWidth k * (g / 2) < runStart k + runWidth k * (h / 2) :=
  ⟨mul_lt_mul_of_pos_left (octave_lt hgh) (two_gt_zero _), by
    have := mul_lt_mul_of_pos_left (by linarith : g / 2 < h / 2) (runWidth_pos k)
    linarith⟩

/-- Magnitudes are in the order of their strings. -/
theorem Stands.lt_iff (h : Stands x y) (h' : Stands x' y') : x < x' ↔ y < y' := by
  obtain ⟨j, g, g0, g2, rfl, rfl⟩ := h
  obtain ⟨k, h, h0, h2, rfl, rfl⟩ := h'
  rcases lt_trichotomy j k with hjk | rfl | hjk
  · obtain ⟨h1, h2⟩ := Stands.lt_of_run g2 h0 hjk
    exact iff_of_true h1 h2
  · rcases lt_trichotomy g h with hgh | rfl | hgh
    · obtain ⟨h1, h2⟩ := Stands.lt_of_octave j hgh
      exact iff_of_true h1 h2
    · exact iff_of_false (lt_irrefl _) (lt_irrefl _)
    · obtain ⟨h1, h2⟩ := Stands.lt_of_octave j hgh
      exact iff_of_false h1.not_gt h2.not_gt
  · obtain ⟨h1, h2⟩ := Stands.lt_of_run h2 g0 hjk
    exact iff_of_false h1.not_gt h2.not_gt

theorem Stands.le_iff (h : Stands x y) (h' : Stands x' y') : x ≤ x' ↔ y ≤ y' := by rw [← not_lt, h'.lt_iff h, not_lt]

theorem Stands.eq_iff (h : Stands x y) (h' : Stands x' y') : x = x' ↔ y = y' := by
  simp only [le_antisymm_iff, h.le_iff h', h'.le_iff h]

end

/-! ### The string of a pattern -/

theorem mod_two_pow_succ (m n : Nat) : m % 2 ^ (n + 1) = 2 ^ n * (m / 2 ^ n % 2) + m % 2 ^ n := by
  rw [pow_succ, Nat.mod_mul, Nat.add_comm]

/-- The bits after a run of ones and its terminator. -/
theorem runLen_ones (N m : Nat) : runLen N m 1 ≤ N ∧ m % 2 ^ N + 2 ^ (N - runLen N m 1) = 2 ^ N + m % 2 ^ (N - runLen N m 1 - 1) := by
  induction N with
  | zero => simp [runLen, Nat.mod_one]
  | succ N ih =>
    have hm := mod_two_pow_succ m N
    rw [runLen]
    split
    · next h1 =>
      obtain ⟨hle, heq⟩ := ih
      rw [show N + 1 - (1 + runLen N m 1) = N - runLen N m 1 by omega, hm, h1, pow_succ]
      omega
    · next h1 =>
      have h0 : m / 2 ^ N % 2 = 0 := by omega
      rw [hm, h0, Nat.sub_zero, Nat.add_sub_cancel]
      omega

/-- The bits after a run of zeros and its terminator. -/
theorem runLen_zeros (N m : Nat) (hm : m % 2 ^ N ≠ 0) :
    runLen N m 0 < N ∧ m % 2 ^ N = 2 ^ (N - runLen N m 0 - 1) + m % 2 ^ (N - runLen N m 0 - 1) := by
  induction N with
  | zero => simp [Nat.mod_one] at hm
  | succ N ih =>
    have hs := mod_two_pow_succ m N
    rw [runLen]
    split
    · next h0 =>
      rw [h0, Nat.mul_zero, Nat.zero_add] at hs
      obtain ⟨hlt, heq⟩ := ih (hs ▸ hm)
      rw [show N + 1 - (1 + runLen N m 0) = N - runLen N m 0 by omega, hs]
      exact ⟨by omega, heq⟩
    · next h0 =>
      have h1 : m / 2 ^ N % 2 = 1 := by omega
      rw [hs, h1, Nat.sub_zero, Nat.add_sub_cancel]
      omega

theorem runLen_pos {n : Nat} (hn : n ≠ 0) (m : Nat) : runLen n m (m.testBit (n - 1)).toNat ≠ 0 := by
  match n with
  | n + 1 =>
    rw [runLen, Nat.add_sub_cancel, if_pos ((toNat_testBit_iff m n _).2 rfl)]
    omega

/-- The bit and the fraction after the run, together. -/
theorem bit_add_fraction (rest m : Nat) :
    (((if 1 ≤ rest ∧ m.testBit (rest - 1) = true then 1 else 0 : Nat) : Rat) + (m % 2 ^ (rest - 1) : Nat) / (2 ^ (rest - 1) : Nat)) / 2
      = (m % 2 ^ rest : Nat) * two (-(rest : Nat)) := by
  match rest with
  | 0 => simp [Nat.mod_one]
  | j + 1 =>
    have hbit : (if 1 ≤ j + 1 ∧ m.testBit (j + 1 - 1) = true then 1 else 0) = m / 2 ^ j % 2 := by
      rw [← Nat.toNat_testBit, Nat.add_sub_cancel]
      cases m.testBit j <;> simp
    have hp : (0 : Rat) < 2 ^ j := by positivity
    rw [hbit, mod_two_pow_succ, Nat.add_sub_cancel, two_eq_zpow, zpow_neg, zpow_natCast]
    push_cast
    rw [pow_succ]
    field_simp

theorem taperBit_le (n m : Nat) : taperBit n m ≤ 1 := by
  unfold taperBit
  split <;> omega

/-- The magnitude of a pattern, by the number that its bits after the run make. -/
theorem taperedMag_octave (n m : Nat) : ∃ h : Rat, 0 ≤ h ∧ h < 2 ∧ taperedMag n m = two (2 * taperPower n m) * octave h
    ∧ h = (taperBit n m : Nat) + (m % 2 ^ (taperRest n m - 1) : Nat) / (2 ^ (taperRest n m - 1) : Nat) := by
  have hp : (0 : Rat) < (2 ^ (taperRest n m - 1) : Nat) := by positivity
  have hf0 : (0 : Rat) ≤ (m % 2 ^ (taperRest n m - 1) : Nat) / (2 ^ (taperRest n m - 1) : Nat) := by positivity
  have hf1 : ((m % 2 ^ (taperRest n m - 1) : Nat) : Rat) / (2 ^ (taperRest n m - 1) : Nat) < 1 :=
    (div_lt_one hp).2 (Nat.cast_lt.2 (Nat.mod_lt _ (Nat.two_pow_pos _)))
  have hb := taperBit_le n m
  refine ⟨_, ?_, ?_, ?_, rfl⟩
  · positivity
  · have : ((taperBit n m : Nat) : Rat) ≤ 1 := by exact_mod_cast hb
    linarith
  · rw [taperedMag_eq, two_add, mul_assoc, octave]
    rcases (by omega : taperBit n m = 0 ∨ taperBit n m = 1) with h0 | h1
    · rw [h0, Nat.cast_zero, Nat.cast_zero, zero_add, if_pos hf1, show two 0 = 1 from rfl, one_mul]
    · rw [h1, Nat.cast_one, Nat.cast_one, if_neg (by linarith), show two 1 = 2 from rfl]

/-- A pattern's bits are the string of its magnitude. -/
theorem taperedMag_stands {n m : Nat} (h0 : 0 < m) (hm : m < 2 ^ n) : Stands (taperedMag n m) (m * two (-n)) := by
  obtain ⟨h, hh0, hh2, hmag, hh⟩ := taperedMag_octave n m
  refine ⟨taperPower n m, h, hh0, hh2, hmag, ?_⟩
  have hmod : m % 2 ^ n = m := Nat.mod_eq_of_lt hm
  have hn : n ≠ 0 := by
    rintro rfl
    omega
  have hhalf : h / 2 = (m % 2 ^ taperRest n m : Nat) * two (-(taperRest n m : Nat)) := hh ▸ bit_add_fraction (taperRest n m) m
  have hrun := runLen_pos hn m
  have cast {a b : Nat} (he : a = b) : (a : Rat) * two (-n) = b * two (-n) := by rw [he]
  have pow (a : Nat) : ((2 ^ a : Nat) : Rat) * two (-n) = two (a - n) := by rw [← two_add_nat, sub_eq_add_neg]
  rw [hhalf, taperPower]
  cases hbit : m.testBit (n - 1) with
  | true =>
    obtain ⟨hle, heq⟩ := runLen_ones n m
    have hrest : taperRest n m = n - runLen n m 1 - 1 := by rw [taperRest, hbit]; rfl
    rw [hbit] at hrun
    rw [hmod, ← hrest] at heq
    have hsum := cast heq
    rw [Nat.cast_add, Nat.cast_add, add_mul, add_mul, pow, pow, sub_self, show two 0 = 1 from rfl] at hsum
    dsimp only [Bool.toNat_true] at hrun ⊢
    generalize runLen n m 1 = r at *
    rw [if_pos rfl, runStart, runWidth, if_pos (by omega), if_pos (by omega), show -((r : Int) - 1) - 1 = ((n - r : Nat) : Int) - n by omega]
    have hlow : two (-((r : Int) - 1) - 2) * ((m % 2 ^ taperRest n m : Nat) * two (-(taperRest n m : Nat))) = (m % 2 ^ taperRest n m : Nat) * two (-n) := by
      rcases hle.eq_or_lt with rfl | hlt
      · rw [show taperRest r m = 0 by omega, pow_zero, Nat.mod_one, Nat.cast_zero, zero_mul, zero_mul, mul_zero]
      · rw [mul_left_comm, ← two_add]
        congr 2
        omega
    rw [hlow]
    linarith
  | false =>
    obtain ⟨hlt, heq⟩ := runLen_zeros n m (by omega)
    have hrest : taperRest n m = n - runLen n m 0 - 1 := by rw [taperRest, hbit]; rfl
    rw [hbit] at hrun
    rw [hmod, ← hrest] at heq
    have hsum := cast heq
    rw [Nat.cast_add, add_mul, pow] at hsum
    dsimp only [Bool.toNat_false] at hrun ⊢
    generalize runLen n m 0 = r at *
    rw [if_neg (by decide), runStart, runWidth, if_neg (by omega), if_neg (by omega), hsum, mul_left_comm, ← two_add]
    congr 2
    · omega
    · congr 1
      omega

/-! ### The string of a form -/

/-- A form of a rational number, by its excess. -/
theorem near_iff_excess {x : Rat} {m : Nat} {e : Int} {st : Bool} :
    Near (x : ℝ) m e st ↔ ∃ d : Rat, 0 ≤ d ∧ d < 1 ∧ (st = false ↔ d = 0) ∧ x = (m + d) * two e := by
  have he := two_gt_zero e
  have hcast : Near (x : ℝ) m e st ↔ m * two e ≤ x ∧ x < (m + 1 : Nat) * two e ∧ (st = false ↔ m * two e = x) := by
    unfold Near
    norm_cast
  rw [hcast]
  constructor
  · rintro ⟨h1, h2, h3⟩
    have hx : x / two e * two e = x := div_mul_cancel₀ x he.ne'
    rw [← hx, mul_le_mul_iff_left₀ he] at h1
    rw [← hx, mul_lt_mul_iff_left₀ he, Nat.cast_add, Nat.cast_one] at h2
    rw [← hx, mul_left_inj' he.ne'] at h3
    refine ⟨x / two e - m, by linarith, by linarith, h3.trans ?_, ?_⟩
    · rw [sub_eq_zero, eq_comm]
    · rw [add_sub_cancel, hx]
  · rintro ⟨d, h1, h2, h3, rfl⟩
    rw [mul_le_mul_iff_left₀ he, mul_lt_mul_iff_left₀ he, mul_left_inj' he.ne', Nat.cast_add, Nat.cast_one]
    exact ⟨by linarith, by linarith, h3.trans (by rw [left_eq_add])⟩

/-- The run of a tapered string and its terminator, with their number. -/
def taperRun (k : Int) : Nat × Nat := if 0 ≤ k then ((2 ^ (k.toNat + 1) - 1) * 2, k.toNat + 2) else (1, (-k).toNat + 1)

theorem taperRun_width (k : Int) : two (-(taperRun k).2) = runWidth k := by
  unfold taperRun runWidth
  split <;> dsimp only <;> congr 1 <;> omega

theorem taperRun_start (k : Int) : (taperRun k).1 * two (-(taperRun k).2) = runStart k := by
  rw [taperRun_width, taperRun, runWidth, runStart]
  split
  · next hk =>
    have hs : ((2 ^ (k.toNat + 1) - 1 : Nat) : Rat) = two (k + 1) - 1 := by
      rw [Nat.cast_sub Nat.one_le_two_pow, Nat.cast_pow, Nat.cast_two, Nat.cast_one, ← two_natCast]
      congr 2
      omega
    have h1 : two (-k - 1) = 2 * two (-k - 2) := by rw [← two_succ]; congr 1; omega
    have h2 : two (k + 1) * two (-k - 1) = 1 := by rw [← two_add]; norm_num [two_eq_zpow]
    dsimp only
    rw [Nat.cast_mul, hs, Nat.cast_two]
    linear_combination h2 + (1 - two (k + 1)) * h1
  · simp

/-- The string that the model makes of a form is that of its number, with the same excess. -/
theorem taperString_stands {x : Rat} {m : Nat} {e : Int} {st : Bool} (hm : m ≠ 0) (hn : Near (x : ℝ) m e st) :
    ∃ y : Rat, Stands x y ∧ Near (y : ℝ) (taperString m e).1 (-(taperString m e).2) st := by
  obtain ⟨d, hd0, hd1, hst, rfl⟩ := near_iff_excess.1 hn
  obtain ⟨k, hk⟩ : ∃ k, k = ((m.log2 : Int) + e).fdiv 2 := ⟨_, rfl⟩
  obtain ⟨b, hb⟩ : ∃ b, b = ((m.log2 : Int) + e - 2 * k).toNat := ⟨_, rfl⟩
  have hkb : (m.log2 : Int) + e = 2 * k + b ∧ b ≤ 1 := by
    rw [Int.fdiv_eq_ediv_of_nonneg _ (by omega)] at hk
    omega
  have hS : taperString m e = (((taperRun k).1 * 2 + b) * 2 ^ m.log2 + (m - 2 ^ m.log2), (taperRun k).2 + 1 + m.log2) := by
    rw [hb, hk]
    rfl
  rw [hS]
  dsimp only
  have hlo : 2 ^ m.log2 ≤ m := Nat.log2_self_le hm
  have hhi : m + 1 ≤ 2 ^ (m.log2 + 1) := Nat.lt_log2_self
  generalize m.log2 = l at *
  -- the fraction of the magnitude
  have hl : (0 : Rat) < 2 ^ l := by positivity
  obtain ⟨f, hf⟩ : ∃ f : Rat, (m : Rat) + d = 2 ^ l * (1 + f) := ⟨(m + d) / 2 ^ l - 1, by field_simp; ring⟩
  have hf0 : 0 ≤ f := by
    have h1 : (2 : Rat) ^ l ≤ m := by exact_mod_cast hlo
    by_contra hneg
    have := mul_lt_mul_of_pos_left (by linarith : 1 + f < 1) hl
    linarith
  have hf1 : f < 1 := by
    have h1 : (m : Rat) + 1 ≤ 2 ^ l * 2 := by exact_mod_cast hhi
    by_contra hge
    have := mul_le_mul_of_nonneg_left (by linarith : (2 : Rat) ≤ 1 + f) hl.le
    linarith
  refine ⟨(((((taperRun k).1 * 2 + b) * 2 ^ l + (m - 2 ^ l) : Nat) : Rat) + d) * two (-((taperRun k).2 + 1 + l : Nat)), ⟨k, b + f, by positivity, ?_, ?_, ?_⟩,
    near_iff_excess.2 ⟨d, hd0, hd1, hst, rfl⟩⟩
  · have : (b : Rat) ≤ 1 := by exact_mod_cast hkb.2
    linarith
  · have ho : octave (b + f) = two b * (1 + f) := by
      rw [octave]
      rcases (by omega : b = 0 ∨ b = 1) with rfl | rfl
      · rw [Nat.cast_zero, zero_add, if_pos hf1, Nat.cast_zero, show two 0 = 1 from rfl, one_mul]
      · rw [Nat.cast_one, if_neg (by linarith), Nat.cast_one, show two 1 = 2 from rfl]
    rw [ho, ← mul_assoc, ← two_add, ← hkb.1, hf, two_add, two_natCast]
    ring
  · have hw : two (-((taperRun k).2 + 1 + l : Nat)) * 2 ^ l = runWidth k / 2 := by
      rw [← taperRun_width, ← two_natCast, ← two_add, show -(((taperRun k).2 + 1 + l : Nat) : Int) + l = -(taperRun k).2 + -1 by push_cast; ring, two_add, show two (-1) = 1 / 2 from rfl]
      ring
    have hs := taperRun_start k
    rw [taperRun_width] at hs
    rw [← hs, Nat.cast_add, Nat.cast_sub hlo]
    generalize two (-((taperRun k).2 + 1 + l : Nat)) = z at hw ⊢
    push_cast
    linear_combination (((taperRun k).1 * 2 + b : Rat) + f) * hw + z * hf

end Sys2Proof.Machine
end

section
/-! SUPPORT. Rounding into l8 and l6 (spec/03 R81): the model rounds the string of a value to the bits of a pattern, which by the order of places is the statement's choice between two patterns. -/

namespace Sys2Proof.Machine
open Sys2Proof Sys2Proof.Claims
set_option Elab.async false

/-- The string `S` of `len` bits rounded to `n` bits by the half and to even (R81). -/
def taperPick (n S len : Nat) (st : Bool) : Nat :=
  if n ≤ len then
    let sh := len - n
    let cand := S / 2 ^ sh
    let r := S % 2 ^ sh
    if sh = 0 then cand
    else if r > 2 ^ (sh - 1) || (r = 2 ^ (sh - 1) && st) then cand + 1
    else if r = 2 ^ (sh - 1) then (if cand % 2 = 1 then cand + 1 else cand)
    else cand
  else S * 2 ^ (n - len)

/-- The rounded string with the ends of the range. -/
def taperField (n S len : Nat) (st ovr : Bool) : Nat :=
  let c := taperPick n S len st
  if ovr || c ≥ 2 ^ n then 2 ^ n - 1 else if c = 0 then 1 else c

/-- A pattern's value is the number that the form is. -/
def taperSame (n c m : Nat) (e : Int) (st : Bool) : Bool :=
  match taperVal n c with
  | .fin _ m' e' => !ltScaled m' e' m e && !ltScaled m e m' e' && !st
  | _ => false

theorem roundTaper_eq {fmt : Nat} (h : fmt = 6 ∨ fmt = 7) (neg : Bool) (m : Nat) (e : Int) (st : Bool) :
    roundTaper fmt neg m e st =
      let n := taperedBits fmt
      let big : Int := 2 * ((n : Int) - 1)
      let ovr := ltScaled 1 big m e || (st && !ltScaled m e 1 big)
      let c := taperField n (taperString m e).1 (taperString m e).2 st ovr
      ⟨signPattern fmt neg + c, flagIf (!taperSame n c m e st) NX ||| flagIf ovr (OF ||| SATF) ||| flagIf (ltScaled m e 1 (-big)) (UF ||| SATF)⟩ := by
  rw [← signBit_eq (by omega)]
  rcases h with rfl | rfl <;> rfl

theorem taperPick_eq (n S len : Nat) {st : Bool} (hst : st = true → n < len) : taperPick n S len st = (roundAt 0 false S (-len) st (-n)).1 := by
  unfold taperPick roundAt
  rcases lt_trichotomy len n with hlt | rfl | hlt
  · rw [if_neg hlt.not_ge, if_pos (by omega : -(n : Int) ≤ -len), show (-(len : Int) - -n).toNat = n - len by omega]
  · simp
  · rw [if_pos hlt.le, if_neg (by omega : ¬ -(n : Int) ≤ -len), show (-(n : Int) - -len).toNat = len - n by omega]
    dsimp only
    rw [if_neg (by omega : ¬ len - n = 0), roundUp]
    generalize S % 2 ^ (len - n) = r
    generalize S / 2 ^ (len - n) = c
    generalize 2 ^ (len - n - 1) = q
    rcases lt_trichotomy r q with hr | rfl | hr
    · simp [hr.ne, hr.not_gt]
    · cases st <;> simp
    · simp [hr]

/-- Powers of two about a form are those about its number. -/
theorem two_le_near_iff {x : Rat} {m : Nat} {e : Int} {st : Bool} (hm : m ≠ 0) (hn : Near (x : ℝ) m e st) (b : Int) : two b ≤ x ↔ two b ≤ m * two e := by
  have he := two_gt_zero e
  rcases le_or_gt e b with hb | hb
  · rw [two_split hb, ← Rat.cast_le (K := ℝ), hn.le_iff, mul_le_mul_iff_left₀ he, Nat.cast_le]
  · have h1 : two b ≤ m * two e := by
      have hm1 : (1 : Rat) ≤ m := Nat.one_le_cast.2 (Nat.pos_of_ne_zero hm)
      have := mul_le_mul_of_nonneg_right hm1 he.le
      rw [one_mul] at this
      exact (two_le_two.2 hb.le).trans this
    have h2 : (m * two e : Rat) ≤ x := by exact_mod_cast hn.1
    exact iff_of_true (h1.trans h2) h1

theorem ltScaled_near_lt {x : Rat} {m : Nat} {e : Int} {st : Bool} (hm : m ≠ 0) (hn : Near (x : ℝ) m e st) (b : Int) :
    ltScaled m e 1 b = decide (x < two b) := by
  rw [Bool.eq_iff_iff, ltScaled_iff, decide_eq_true_iff, Nat.cast_one, one_mul, ← not_le, ← not_le, two_le_near_iff hm hn]

theorem ltScaled_near_gt {x : Rat} {m : Nat} {e : Int} {st : Bool} (hm : m ≠ 0) (hn : Near (x : ℝ) m e st) (b : Int) :
    (ltScaled 1 b m e || (st && !ltScaled m e 1 b)) = decide (two b < x) := by
  have h2 : (m * two e : Rat) ≤ x := by exact_mod_cast hn.1
  have h3 : st = false ↔ m * two e = x := by exact_mod_cast hn.2.2
  have h4 := two_le_near_iff hm hn b
  rw [ltScaled_near_lt hm hn, Bool.eq_iff_iff, Bool.or_eq_true, ltScaled_iff, Nat.cast_one, one_mul, decide_eq_true_iff]
  cases st
  · rw [h3.1 rfl]
    simp
  · have hne : (m * two e : Rat) ≠ x := fun he => nomatch h3.2 he
    have hlt := lt_of_le_of_ne h2 hne
    simp only [Bool.true_and, Bool.not_eq_true', decide_eq_false_iff_not, not_lt, h4]
    exact ⟨fun h => h.elim (fun h => h.trans hlt) fun h => h.trans_lt hlt, fun h => .inr (h4.1 h.le)⟩

/-- The end of a tapered range. -/
theorem taperedMag_ends {n : Nat} (hn : n = 7 ∨ n = 5) : taperedMag n (2 ^ n - 1) = two (2 * ((n : Int) - 1)) ∧ taperedMag n 1 = two (-(2 * ((n : Int) - 1))) := by
  rcases hn with rfl | rfl <;> decide +kernel

theorem two_neg (z : Int) : two (-z) = 1 / two z := by rw [two_eq_zpow, two_eq_zpow, zpow_neg, one_div]

theorem taperField_eq {n S len : Nat} {st : Bool} {k : Nat} (hk : taperPick n S len st = k) (h0 : 0 < k) (hlt : k < 2 ^ n) : taperField n S len st false = k := by
  rw [taperField, hk]
  simp [hlt.not_ge, h0.ne']

section
variable {n : Nat} {x y : Rat} {m : Nat} {e : Int} {st : Bool}

/-- A pattern's value is compared as the numbers are. -/
theorem taperSame_eq (hn : Near (x : ℝ) m e st) {c : Nat} (h0 : 0 < c) (hc : c < 2 ^ n) (hst : taperedMag n c = x → st = false) :
    taperSame n c m e st = decide (taperedMag n c = x) := by
  obtain ⟨m', e', hv, hmag⟩ : ∃ m' e', taperVal n c = .fin false m' e' ∧ m' * two e' = taperedMag n c := by
    have hnum := taperVal_num n c
    rw [Nat.mod_eq_of_lt hc, if_neg h0.ne', Nat.testBit_lt_two_pow hc] at hnum
    obtain ⟨m', e', hv⟩ := numOf_fin_iff hnum
    rw [hv] at hnum
    exact ⟨m', e', hv, (FNum.fin.inj hnum).2⟩
  rw [taperSame, hv]
  dsimp only
  have hlt := ltScaled_iff m' e' m e
  have hgt := ltScaled_iff m e m' e'
  have hex : st = false ↔ (m * two e : Rat) = x := by exact_mod_cast hn.2.2
  rw [hmag] at hlt hgt
  cases st
  · rw [hex.1 rfl] at hlt hgt
    rw [Bool.eq_iff_iff, decide_eq_true_iff, le_antisymm_iff (a := taperedMag n c), ← not_lt, ← not_lt, ← hlt, ← hgt]
    simp [and_comm]
  · rw [Bool.not_true, Bool.and_false, eq_comm, decide_eq_false_iff_not]
    exact fun he => nomatch hst he

variable {S len : Nat} (hy : Near (y : ℝ) S (-len) st)
include hy

/-- A form with an excess is no pattern's value. -/
theorem taper_exact (hxy : Stands x y) (hst : st = true → n < len) {c : Nat} (h0 : 0 < c) (hc : c < 2 ^ n) (he : taperedMag n c = x) : st = false := by
  rw [(taperedMag_stands h0 hc).eq_iff hxy] at he
  by_contra hs
  rw [Bool.not_eq_false] at hs
  rw [two_split (by have := hst hs; omega : -(len : Int) ≤ -n), ← mul_assoc, ← Nat.cast_mul] at he
  exact Bool.false_ne_true ((((hy.eq_iff _).1 (congrArg _ he)).2).symm.trans hs)

theorem taperPick_rounded (hst : st = true → n < len) {c : Nat} (h1 : c * two (-n) ≤ y) (h2 : y < (c + 1 : Nat) * two (-n)) :
    taperPick n S len st = if (2 * c + 1 : Nat) * two (-(n + 1 : Nat)) < y ∨ (2 * c + 1 : Nat) * two (-(n + 1 : Nat)) = y ∧ c % 2 = 1 then c + 1 else c := by
  have hf : Floor (.of y) (-n) c := (floor_iff (magIs_of y) _ _).2 ⟨by exact_mod_cast h1, by exact_mod_cast h2⟩
  have hhalf : ((c : Rat) + 1 / 2) * two (-n) = (2 * c + 1 : Nat) * two (-(n + 1 : Nat)) := by
    rw [show (-(n : Int)) = -(n + 1 : Nat) + 1 by push_cast; ring, two_succ]
    push_cast
    ring
  rw [taperPick_eq n S len hst, roundAt_eq (magIs_of y) 0 false hy (fun hs => by have := hst hs; omega) hf, rounded]
  simp only [hhalf, Mag.of, Bool.or_eq_true, Bool.and_eq_true, decide_eq_true_eq, beq_iff_eq]

end

section
variable {fmt : Nat} (h : fmt = 6 ∨ fmt = 7) {x : Rat} {m : Nat} {e : Int} {st : Bool} (hm : m ≠ 0) (hn : Near (x : ℝ) m e st)
include h hm hn

/-- The model's pattern rounding is the statement's (R81). -/
theorem roundTaper_rounds (hst : st = true → 7 ≤ m.log2) (neg : Bool) : RoundsPattern fmt neg x (roundTaper fmt neg m e st) := by
  obtain ⟨n, hnn⟩ : ∃ n, n = taperedBits fmt := ⟨_, rfl⟩
  have hn75 : n = 7 ∨ n = 5 := by rcases h with rfl | rfl <;> simp [hnn, taperedBits]
  obtain ⟨y, hxy, hy⟩ := taperString_stands hm hn
  obtain ⟨htop, hbottom⟩ := taperedMag_ends hn75
  have hlen : st = true → n < (taperString m e).2 := by
    intro hs
    have := hst hs
    have hl : (taperString m e).2 = (taperRun (((m.log2 : Int) + e).fdiv 2)).2 + 1 + m.log2 := rfl
    omega
  have hp : 4 ≤ 2 ^ n := by rcases hn75 with rfl | rfl <;> decide
  have hsame {c : Nat} (h0 : 0 < c) (hc : c < 2 ^ n) := taperSame_eq hn h0 hc (taper_exact hy hxy hlen h0 hc)
  rw [roundTaper_eq h]
  unfold RoundsPattern
  dsimp only
  rw [← hnn, ltScaled_near_gt hm hn, ltScaled_near_lt hm hn, two_neg]
  rw [two_neg] at hbottom
  have hbig1 : 1 ≤ two (2 * ((n : Int) - 1)) := two_le_two.2 (by omega : 0 ≤ 2 * ((n : Int) - 1))
  generalize two (2 * ((n : Int) - 1)) = big at *
  have hends : 1 / big ≤ big := ((div_le_one (by linarith)).2 hbig1).trans hbig1
  have hs1 := taperedMag_stands Nat.one_pos (by omega : 1 < 2 ^ n)
  refine ⟨fun hbig => ?_, fun hsmall => ?_, fun c hc1 hc2 hle hlo hhi => ?_⟩
  · have hc : taperField n (taperString m e).1 (taperString m e).2 st true = 2 ^ n - 1 := by simp [taperField]
    rw [decide_eq_true hbig, hc, hsame (by omega) (by omega), htop, decide_eq_false hbig.ne, decide_eq_false (by linarith : ¬ x < 1 / big)]
    rfl
  · have hy1 : y < (0 + 1 : Nat) * two (-n) := (hxy.lt_iff hs1).1 (hbottom ▸ hsmall)
    have hc : taperField n (taperString m e).1 (taperString m e).2 st false = 1 := by
      rw [taperField, taperPick_rounded hy hlen (by rw [Nat.cast_zero, zero_mul]; exact hxy.pos.le) hy1]
      split
      · simp; omega
      · simp
    rw [decide_eq_false (by linarith : ¬ big < x), hc, hsame Nat.one_pos (by omega), hbottom, decide_eq_false hsmall.ne', decide_eq_true hsmall]
    rfl
  · have hsc := taperedMag_stands hc1 hc2
    have hmid := taperedMag_stands (by omega : 0 < 2 * c + 1) (by rw [pow_succ]; omega : 2 * c + 1 < 2 ^ (n + 1))
    have hupper : y < (c + 1 : Nat) * two (-n) := by
      rcases (by omega : c + 1 < 2 ^ n ∨ c + 1 = 2 ^ n) with hlt | heq
      · exact (hxy.lt_iff (taperedMag_stands (Nat.succ_pos c) hlt)).1 (hhi hlt)
      · rw [heq, ← two_add_nat, add_neg_cancel]
        exact hxy.lt_one
    have hpick := taperPick_rounded hy hlen ((hsc.le_iff hxy).1 hlo) hupper
    simp only [← hmid.lt_iff hxy, ← hmid.eq_iff hxy] at hpick
    generalize hk : (if taperedMag (n + 1) (2 * c + 1) < x ∨ taperedMag (n + 1) (2 * c + 1) = x ∧ c % 2 = 1 then c + 1 else c) = k at hpick ⊢
    have hk1 : 0 < k := by
      split at hk <;> omega
    have hk2 : k < 2 ^ n := by
      split at hk
      · next hup =>
        by_contra hge
        obtain rfl : c = 2 ^ n - 1 := by omega
        have h1 := (hmid.le_iff hxy).1 (hup.elim le_of_lt fun h => h.1.le)
        have h2 := (hxy.le_iff hsc).1 (htop ▸ hle)
        have hz := two_gt_zero (-(n + 1 : Nat))
        rw [show (-(n : Int)) = -(n + 1 : Nat) + 1 by push_cast; ring, two_succ] at h2
        push_cast at h1 h2 hz
        linarith
      · omega
    have hsmall : 1 / big ≤ x := by
      rw [← hbottom]
      refine ((hs1.le_iff hsc).2 ?_).trans hlo
      exact mul_le_mul_of_nonneg_right (Nat.cast_le.2 hc1) (two_gt_zero _).le
    rw [decide_eq_false hle.not_gt, taperField_eq hpick hk1 hk2, hsame hk1 hk2, decide_eq_false hsmall.not_gt, decide_not]
    simp [flagIf, when]

end

end Sys2Proof.Machine
end

section
/-! SUPPORT. Conversions between formats, quantizing and dequantizing (spec/03 R80 to R82, R87, R89). -/

namespace Sys2Proof.Machine
open Sys2Proof Sys2Proof.Claims
set_option Elab.async false

/-! ### A value delivered into any floating format -/

section
variable {fmt : Nat} (h : fmt ≤ 7) (mode : Nat) (sat ftz neg : Bool)
include h

/-- A form of a nonzero rational magnitude delivered. -/
theorem deliverF_converts_near {x : Rat} {m : Nat} {e : Int} {st : Bool} (hm : m ≠ 0) (hn : Near (x : ℝ) m e st) (hst : st = true → 69 ≤ m.log2) :
    Converts fmt mode sat ftz (.fin neg x) (deliverF fmt mode sat ftz (.fin neg m e) st) := by
  have hx : x ≠ 0 := by
    have h1 : (0 : Rat) < m * two e := mul_pos (Nat.cast_pos.2 (Nat.pos_of_ne_zero hm)) (two_gt_zero e)
    have h2 : (m * two e : Rat) ≤ x := by exact_mod_cast hn.1
    linarith
  rw [Converts]
  split
  · next h0 => exact absurd h0 hx
  split
  · next h67 =>
    have hd : deliverF fmt mode sat ftz (.fin neg m e) st = roundTaper fmt neg m e st := by
      rcases h67 with rfl | rfl <;> simp [deliverF, hm]
    rw [hd]
    exact roundTaper_rounds h67 hm hn (fun hs => (by omega : 7 ≤ 69).trans (hst hs)) neg
  · next h67 =>
    exact deliverF_rounds mode sat ftz neg (by omega) (magIs_of x) hn hm fun hs => (fracBits_le fmt).trans_lt ((by omega : 52 < 69).trans_le (hst hs))

theorem deliverF_converts_zero (e : Int) : Converts fmt mode sat ftz (.fin neg 0) (deliverF fmt mode sat ftz (.fin neg 0 e) false) := by
  rw [Converts, if_pos rfl]
  split
  · next h67 => rcases h67 with rfl | rfl <;> rfl
  · exact deliverF_zero mode sat ftz neg (by omega) e

theorem deliverF_converts_fin (m : Nat) (e : Int) : Converts fmt mode sat ftz (.fin neg (m * two e)) (deliverF fmt mode sat ftz (.fin neg m e) false) := by
  rcases eq_or_ne m 0 with rfl | hm
  · rw [Nat.cast_zero, zero_mul]
    exact deliverF_converts_zero h mode sat ftz neg e
  · exact deliverF_converts_near h mode sat ftz neg hm (near_exact m e) (fun hs => nomatch hs)

/-- What the model delivers of an exact value is what the statement's value becomes. -/
theorem deliverF_converts (v : FVal) : Converts fmt mode sat ftz (numOf v) (deliverF fmt mode sat ftz v false) := by
  match v with
  | .nan s => exact congrArg (FRes.mk · _) (canonNan_eq h)
  | .inf neg =>
    change Converts fmt mode sat ftz (.inf neg) _
    rw [Converts, ← maxBits_eq h, ← infBits_eq (by omega)]
    interval_cases fmt <;> rfl
  | .fin neg m e => exact deliverF_converts_fin h mode sat ftz neg m e

end

/-! ### Conversions with an integer format -/

section
variable {fmt : Nat} (h8 : 8 ≤ fmt) (h15 : fmt ≤ 15)
include h8 h15

theorem wrapInt_pattern (i : Int) : wrapInt fmt i = intPattern fmt i := by rw [wrapInt, widthOf_of_integer h8 h15, intPattern]

theorem deliverInt_pattern (sat : Bool) (i : Int) : deliverInt fmt sat i =
    let (lo, hi) := rangeOf fmt
    if sat = true ∧ i < lo then ⟨intPattern fmt lo, SATF⟩ else if sat = true ∧ hi < i then ⟨intPattern fmt hi, SATF⟩ else ⟨intPattern fmt i, 0⟩ := by
  rw [deliverInt, intRange_of_integer h8 h15]
  simp only [wrapInt_pattern h8 h15, Bool.and_eq_true, decide_eq_true_eq]

theorem floatToInt_converts (mode : Nat) (sat : Bool) (v : FVal) : ConvertsInt fmt mode sat (numOf v) (floatToInt fmt mode sat v) := by
  rw [floatToInt, intRange_of_integer h8 h15]
  unfold ConvertsInt
  match v with
  | .nan s => rfl
  | .inf neg => simp only [numOf, wrapInt_pattern h8 h15]
  | .fin neg m e =>
    intro f hf
    have hx := magIs_of (m * two e)
    dsimp only [numOf]
    rw [roundAt_eq hx mode neg (near_exact m e) (fun hs => nomatch hs) hf]
    have hex : (!(Mag.of (m * two e)).is (f * two 0))
        = decide (((if neg then -(rounded mode neg (.of (m * two e)) 0 f : Int) else rounded mode neg (.of (m * two e)) 0 f : Int) : Rat) ≠ signed neg (m * two e)) := by
      rw [← is_rounded hx mode neg hf]
      generalize rounded mode neg (.of (m * two e)) 0 f = k
      rw [Mag.of, show two 0 = 1 from rfl, mul_one, decide_not]
      cases neg <;> simp [signed]
    simp only [wrapInt_pattern h8 h15, hex]
    rfl

end

theorem intVal_meaning {fmt : Nat} (h8 : 8 ≤ fmt) (h15 : fmt ≤ 15) (p : Nat) : intVal fmt p = intMeaning fmt p := by
  rw [intVal, isSigned_of_integer h8, widthOf_of_integer h8 h15, intMeaning, sextN]
  have hw : sewOf fmt ≠ 0 := by interval_cases fmt <;> decide
  by_cases h12 : fmt < 12 <;> simp [h12, hw]

/-- The conversions between any two formats (R82). -/
theorem convert_converts {src dst : Nat} (hs : src < 16) (hd : dst < 16) (mode : Nat) (sat ftz : Bool) (p : Nat) :
    let r := convert src dst mode sat ftz p
    let i := intMeaning src p
    let (lo, hi) := rangeOf dst
    (src ≤ 7 → dst ≤ 7 → Converts dst mode sat ftz (reads ftz src p) r)
    ∧ (src ≤ 7 → 8 ≤ dst → ConvertsInt dst mode sat (reads ftz src p) r)
    ∧ (8 ≤ src → dst ≤ 7 → Converts dst mode sat ftz (.fin (decide (i < 0)) (i.natAbs : Rat)) r)
    ∧ (8 ≤ src → 8 ≤ dst → r = if sat = true ∧ i < lo then ⟨intPattern dst lo, SATF⟩ else if sat = true ∧ hi < i then ⟨intPattern dst hi, SATF⟩
        else ⟨intPattern dst i, 0⟩) := by
  have hf {fmt : Nat} (h : fmt ≤ 7) : isFloat fmt = true := decide_eq_true (by omega)
  refine ⟨fun h1 h2 => ?_, fun h1 h2 => ?_, fun h1 h2 => ?_, fun h1 h2 => ?_⟩
  · rw [convert, hf h1, hf h2, ← fetchF_num h1]
    exact deliverF_converts h2 mode sat ftz _
  · rw [convert, hf h1, isFloat_of_integer h2, ← fetchF_num h1]
    exact floatToInt_converts h2 (by omega) mode sat _
  · have hc := deliverF_converts_fin h2 mode sat ftz (decide (intMeaning src p < 0)) (intMeaning src p).natAbs 0
    rw [show two 0 = 1 from rfl, mul_one] at hc
    rw [convert, isFloat_of_integer h1, hf h2, intVal_meaning h1 (by omega)]
    exact hc
  · rw [convert, isFloat_of_integer h1, isFloat_of_integer h2, intVal_meaning h1 (by omega)]
    exact deliverInt_pattern h2 (by omega) sat _

/-! ### Scales -/

theorem scaleVal_cases {b : Nat} (hb : b < 256) : (b / 8 = 0 → scaleVal b = some (0, 0)) ∧ (b / 8 = 31 → scaleVal b = none)
    ∧ (0 < b / 8 → b / 8 < 31 → ∃ sm se, scaleVal b = some (sm + 1, se) ∧ ((sm + 1 : Nat) * two se : Rat) = scaleOf b) := by
  have hm : b / 8 % 32 = b / 8 := Nat.mod_eq_of_lt (by omega)
  refine ⟨fun h => ?_, fun h => ?_, fun h1 h2 => ⟨7 + b % 8, (b / 8 : Nat) - 18, ?_, ?_⟩⟩
  · simp [scaleVal, h]
  · simp [scaleVal, h]
  · simp only [scaleVal, hm, h1.ne', h2.ne, if_false]
    rw [show 7 + b % 8 + 1 = 8 + b % 8 by omega]
  · rw [scaleOf, hm, show ((b / 8 : Nat) : Int) - 15 = (b / 8 : Nat) - 18 + 3 by omega, two_add, show two 3 = 8 from rfl]
    push_cast
    ring

/-- Quantizing rounds the exact quotient (R89). -/
theorem quantize_converts {nf src : Nat} (h7 : nf ≤ 7) (h3 : src ≤ 3) (mode : Nat) (sat ftz : Bool) (p : Nat) {b : Nat} (hb : b < 256) :
    let r := quantize nf mode sat ftz src p b
    (b / 8 = 0 → r = ⟨0, 0⟩) ∧ (b / 8 = 31 → r = ⟨nanPattern nf, NV ||| NF⟩)
    ∧ (0 < b / 8 → b / 8 < 31 → Converts nf mode sat ftz (match reads ftz src p with | .fin neg m => .fin neg (m / scaleOf b) | x => x) r) := by
  obtain ⟨hs0, hs31, hs⟩ := scaleVal_cases hb
  refine ⟨fun h => ?_, fun h => ?_, fun h1 h2 => ?_⟩
  · rw [quantize, hs0 h]
    rfl
  · rw [quantize, hs31 h, canonNan_eq h7]
  · obtain ⟨sm, se, hv, hval⟩ := hs h1 h2
    have hf : isFloat src = true := decide_eq_true (by omega)
    rw [quantize, hv, ← fetchF_num (by omega), ← hval]
    dsimp only
    rw [hf, if_pos rfl]
    match fetchF ftz src p with
    | .nan s => exact deliverF_converts h7 mode sat ftz (.nan s)
    | .inf neg => exact deliverF_converts h7 mode sat ftz (.inf neg)
    | .fin neg m e =>
      change Converts nf mode sat ftz (.fin neg (m * two e / ((sm + 1 : Nat) * two se)))
        (deliverF nf mode sat ftz (divV (.fin neg m e) (.fin false (sm + 1) se)).1 (divV (.fin neg m e) (.fin false (sm + 1) se)).2.1)
      rw [divV, if_neg (Nat.succ_ne_zero sm), Bool.bne_false]
      split
      · next h0 =>
        rw [h0, Nat.cast_zero, zero_mul, zero_div]
        exact deliverF_converts_zero h7 mode sat ftz neg 0
      · next h0 =>
        obtain ⟨hnear, hl, hq⟩ := divV_near h0 (Nat.succ_ne_zero sm) e se
        exact deliverF_converts_near h7 mode sat ftz neg hq hnear fun _ => hl

/-- The narrow formats have no signalling NaN. -/
theorem meaning_quiet {fmt : Nat} (h4 : 4 ≤ fmt) (p : Nat) : (meaning fmt p).signals = false := by
  have hd : decide (fmt ≤ 3) = false := decide_eq_false (by omega)
  unfold meaning
  rw [hd]
  dsimp only
  split_ifs <;> rfl

/-- Dequantizing delivers the exact product (R89). -/
theorem dequantize_converts {nf : Nat} (h4 : 4 ≤ nf) (h7 : nf ≤ 7) (ftz : Bool) (p : Nat) {b : Nat} (hb : b < 256) :
    let r := dequantize nf p b ftz
    (b / 8 = 0 → r = ⟨0, 0⟩) ∧ (b / 8 = 31 → r = ⟨nanPattern 1, NV ||| NF⟩)
    ∧ (0 < b / 8 → b / 8 < 31 → Converts 1 0 false ftz (match meaning nf p with | .fin neg m => .fin neg (m * scaleOf b) | x => x) r) := by
  obtain ⟨hs0, hs31, hs⟩ := scaleVal_cases hb
  refine ⟨fun h => ?_, fun h => ?_, fun h1 h2 => ?_⟩
  · rw [dequantize, hs0 h]
    rfl
  · rw [dequantize, hs31 h, canonNan_eq (by omega)]
  · obtain ⟨sm, se, hv, hval⟩ := hs h1 h2
    rw [dequantize, hv, ← decodeF_num h7, ← hval]
    dsimp only
    have hquiet := meaning_quiet h4 p
    rw [← decodeF_num h7] at hquiet
    match hx : decodeF nf p with
    | .nan s =>
      rw [hx] at hquiet
      obtain rfl : s = false := hquiet
      exact deliverF_converts (by omega) 0 false ftz (.nan false)
    | .inf neg =>
      change Converts 1 0 false ftz (.inf neg) (deliverF 1 0 false ftz (mulV (.inf neg) (.fin false (sm + 1) se)).1 false)
      rw [mulV, if_neg (Nat.succ_ne_zero sm), Bool.bne_false]
      exact deliverF_converts (by omega) 0 false ftz (.inf neg)
    | .fin neg m e =>
      change Converts 1 0 false ftz (.fin neg (m * two e * ((sm + 1 : Nat) * two se))) (deliverF 1 0 false ftz (.fin (neg != false) (m * (sm + 1)) (e + se)) false)
      rw [show (m * two e * ((sm + 1 : Nat) * two se) : Rat) = (m * (sm + 1) : Nat) * two (e + se) by rw [two_add]; push_cast; ring, Bool.bne_false]
      exact deliverF_converts_fin (by omega) 0 false ftz neg _ _

end Sys2Proof.Machine
end

section
/-! SUPPORT. The exact sum of a group of products (spec/03 R92, R93). -/

namespace Sys2Proof.Machine
open Sys2Proof Sys2Proof.Claims
set_option Elab.async false

/-! ### The sum of a group of products -/

/-- A product that is a NaN. -/
def productNan (x : FNum × FNum) : Bool := match productOf x.1 x.2 with | .nan _ => true | _ => false

/-- A product that is the infinity of a sign. -/
def productInf (neg : Bool) (x : FNum × FNum) : Bool := match productOf x.1 x.2 with | .inf a _ => a == neg | _ => false

/-- The rational that a product of finite values is. -/
def productFin (x : FNum × FNum) : Rat := match x.1, x.2 with | .fin a m, .fin b n => signed (a != b) (m * n) | _, _ => 0

theorem groupOf_eq (l : List (FNum × FNum)) : groupOf l =
    let fin := (l.map productFin).sum
    if l.any productNan || (l.any (productInf true) && l.any (productInf false)) then .nan false
    else if l.any (productInf true) then .inf true
    else if l.any (productInf false) then .inf false
    else .fin (decide (fin < 0)) (if fin < 0 then -fin else fin) := by
  unfold groupOf
  simp only [List.any_map]
  rfl

/-- The operands of a product as the statement has them. -/
def numPair (x : FVal × FVal) : FNum × FNum := (numOf x.1, numOf x.2)

/-- A value is the sum of products of which some are NaN, some are infinities, and the finite ones come to `fin`. -/
def SumIs (v : FVal) (nan pos neg : Bool) (fin : Rat) : Prop :=
  match v with
  | .nan s => s = false ∧ (nan || (pos && neg)) = true
  | .inf a => nan = false ∧ pos = !a ∧ neg = a
  | .fin a m e => nan = false ∧ pos = false ∧ neg = false ∧ signed a (m * two e) = fin

/-- A product is the sum of itself. -/
theorem mulV_sumIs (x : FVal × FVal) :
    SumIs (mulV x.1 x.2).1 (productNan (numPair x)) (productInf false (numPair x)) (productInf true (numPair x)) (productFin (numPair x)) := by
  have h0 (k : Nat) (z : Int) : (k * two z : Rat) = 0 ↔ k = 0 := by simp [(two_gt_zero z).ne']
  obtain ⟨a, b⟩ := x
  unfold SumIs productNan productInf productFin numPair mulV
  match a, b with
  | .nan s, .nan t => exact ⟨rfl, rfl⟩
  | .nan s, .inf b => exact ⟨rfl, rfl⟩
  | .nan s, .fin b n f => exact ⟨rfl, rfl⟩
  | .inf a, .nan t => exact ⟨rfl, rfl⟩
  | .fin a m e, .nan t => exact ⟨rfl, rfl⟩
  | .inf a, .inf b => cases a <;> cases b <;> exact ⟨rfl, rfl, rfl⟩
  | .inf a, .fin b n f =>
    simp only [numOf, productOf, h0]
    by_cases hz : n = 0
    · simp [hz]
    · cases a <;> cases b <;> simp [hz]
  | .fin a m e, .inf b =>
    simp only [numOf, productOf, h0]
    by_cases hz : m = 0
    · simp [hz]
    · cases a <;> cases b <;> simp [hz]
  | .fin a m e, .fin b n f =>
    have hv : ((m * n : Nat) * two (e + f) : Rat) = m * two e * (n * two f) := by rw [two_add]; push_cast; ring
    simp only [numOf, productOf, hv]
    by_cases hz : (m * two e * (n * two f) : Rat) = 0
    · simp only [hz, if_true, and_self]
    · simp only [hz, if_false, and_self]

/-- The signed value of a scaled integer. -/
theorem signed_ofScaled (i q : Int) (z : Bool) : ∃ a m e, ofScaled i q z = .fin a m e ∧ signed a (m * two e) = i * two q := by
  rw [ofScaled]
  split
  · next h0 => exact ⟨z, 0, 0, rfl, by cases z <;> simp [signed, h0]⟩
  · refine ⟨_, _, _, rfl, ?_⟩
    rw [show (i.natAbs : Rat) = |(i : Rat)| by rw [Nat.cast_natAbs, Int.cast_abs]]
    rcases lt_or_ge i 0 with hi | hi
    · rw [decide_eq_true hi, abs_of_neg (Int.cast_lt_zero.2 hi), signed, if_pos rfl]
      ring
    · rw [decide_eq_false hi.not_gt, abs_of_nonneg (Int.cast_nonneg hi)]
      rfl

/-- A sum of sums. -/
theorem addV_sumIs {v w : FVal} {n p g n' p' g' : Bool} {f f' : Rat} (hv : SumIs v n p g f) (hw : SumIs w n' p' g' f') :
    SumIs (addV 0 v w).1 (n || n') (p || p') (g || g') (f + f') := by
  have left : (n || (p && g)) = true → ((n || n') || ((p || p') && (g || g'))) = true := by
    cases n <;> cases p <;> cases g <;> simp
  have right : (n' || (p' && g')) = true → ((n || n') || ((p || p') && (g || g'))) = true := by
    cases n' <;> cases p' <;> cases g' <;> simp
  match v, w with
  | .nan s, .nan t => exact ⟨rfl, left hv.2⟩
  | .nan s, .inf b => exact ⟨rfl, left hv.2⟩
  | .nan s, .fin b n f => exact ⟨rfl, left hv.2⟩
  | .inf a, .nan t => exact ⟨rfl, right hw.2⟩
  | .fin a m e, .nan t => exact ⟨rfl, right hw.2⟩
  | .inf a, .inf b =>
    obtain ⟨rfl, rfl, rfl⟩ := hv
    obtain ⟨rfl, rfl, rfl⟩ := hw
    cases g <;> cases g' <;> simp [SumIs, addV]
  | .inf a, .fin b n f =>
    obtain ⟨rfl, rfl, rfl⟩ := hv
    obtain ⟨rfl, rfl, rfl, -⟩ := hw
    simp [SumIs, addV]
  | .fin a m e, .inf b =>
    obtain ⟨rfl, rfl, rfl, -⟩ := hv
    obtain ⟨rfl, rfl, rfl⟩ := hw
    simp [SumIs, addV]
  | .fin a m e, .fin b n f =>
    obtain ⟨rfl, rfl, rfl, rfl⟩ := hv
    obtain ⟨rfl, rfl, rfl, rfl⟩ := hw
    dsimp only [addV]
    obtain ⟨s, k, z, hs, hval⟩ := signed_ofScaled (finInt a m e (min e f) + finInt b n f (min e f)) (min e f) (if m = 0 && n = 0 && a == b then a else 0 == 2)
    rw [hs]
    refine ⟨rfl, rfl, rfl, hval.trans ?_⟩
    rw [Int.cast_add, add_mul, finInt_mul_two _ _ (min_le_left e f), finInt_mul_two _ _ (min_le_right e f)]

theorem groupSum_sumIs (l : List (FVal × FVal)) : SumIs (groupSum l) ((l.map numPair).any productNan) ((l.map numPair).any (productInf false))
    ((l.map numPair).any (productInf true)) ((l.map numPair).map productFin).sum := by
  induction l using List.reverseRecOn with
  | nil => exact ⟨rfl, rfl, rfl, by simp [signed]⟩
  | append_singleton l x ih =>
    have hs := addV_sumIs ih (mulV_sumIs x)
    have hg : groupSum (l ++ [x]) = (addV 0 (groupSum l) (mulV x.1 x.2).1).1 := by simp [groupSum]
    rw [hg]
    simpa using hs

/-- The model's sum of a group is a zero where the statement's is, and else the statement's. -/
theorem groupSum_num (l : List (FVal × FVal)) : ((∃ neg, groupOf (l.map numPair) = .fin neg 0) ∧ ∃ neg e, groupSum l = .fin neg 0 e)
    ∨ (∀ neg, groupOf (l.map numPair) ≠ .fin neg 0) ∧ (∀ neg e, groupSum l ≠ .fin neg 0 e) ∧ numOf (groupSum l) = groupOf (l.map numPair) := by
  have hs := groupSum_sumIs l
  rw [groupOf_eq]
  dsimp only
  match hv : groupSum l with
  | .nan s =>
    rw [hv] at hs
    obtain ⟨rfl, hn⟩ := hs
    rw [Bool.and_comm] at hn
    rw [if_pos hn]
    exact .inr ⟨fun _ h => (nomatch h), fun _ _ h => (nomatch h), rfl⟩
  | .inf a =>
    rw [hv] at hs
    obtain ⟨hn, hp, hg⟩ := hs
    rw [hn, hp, hg]
    cases a <;> simp [numOf]
  | .fin a m e =>
    rw [hv] at hs
    obtain ⟨hn, hp, hg, hf⟩ := hs
    rw [hn, hp, hg, ← hf]
    have he := two_gt_zero e
    rcases Nat.eq_zero_or_pos m with rfl | hm
    · exact .inl ⟨⟨false, by cases a <;> simp [signed]⟩, a, e, rfl⟩
    · have hpos : (0 : Rat) < m * two e := mul_pos (Nat.cast_pos.2 hm) he
      have hg : numOf (.fin a m e) = .fin (decide (signed a (m * two e) < 0)) (if signed a (m * two e) < 0 then -signed a (m * two e) else signed a (m * two e)) := by
        cases a
        · simp [numOf, signed, hpos.le]
        · simp [numOf, signed, hpos]
      refine .inr ⟨fun neg => ?_, fun neg f => ?_, hg⟩
      · change FNum.fin _ _ ≠ _
        rw [← hg]
        exact fun h => hpos.ne' (FNum.fin.inj h).2
      · exact fun h => hm.ne' (FVal.fin.inj h).2.1

end Sys2Proof.Machine
end

section
/-! SUPPORT. The update of an accumulator (spec/03 R92 to R94) and the statement O21. -/

namespace Sys2Proof.Machine
open Sys2Proof Sys2Proof.Claims
set_option Elab.async false

/-! ### Integer groups -/

/-- The form of an integer that the model multiplies. -/
def intForm (i : Int) : FVal := .fin (decide (i < 0)) i.natAbs 0

/-- The integer of a form without an exponent. -/
def formInt (neg : Bool) (m : Nat) : Int := if neg then -(m : Int) else m

theorem ofScaled_int (i : Int) (z : Bool) : ∃ a m, ofScaled i 0 z = .fin a m 0 ∧ formInt a m = i := by
  rw [ofScaled]
  split
  · next h0 => exact ⟨z, 0, rfl, by cases z <;> simp [formInt, h0]⟩
  · refine ⟨_, _, rfl, ?_⟩
    unfold formInt
    split <;> simp only [decide_eq_true_eq] at * <;> omega

theorem mulV_intForm (i j : Int) : ∃ a m, (mulV (intForm i) (intForm j)).1 = .fin a m 0 ∧ formInt a m = i * j := by
  refine ⟨_, _, rfl, ?_⟩
  have hi : formInt (decide (i < 0)) i.natAbs = i := by unfold formInt; split <;> simp only [decide_eq_true_eq] at * <;> omega
  have hj : formInt (decide (j < 0)) j.natAbs = j := by unfold formInt; split <;> simp only [decide_eq_true_eq] at * <;> omega
  conv_rhs => rw [← hi, ← hj]
  cases decide (i < 0) <;> cases decide (j < 0) <;> simp [formInt]

theorem addV_int (a : Bool) (m : Nat) (b : Bool) (n : Nat) : ∃ c k, (addV 0 (.fin a m 0) (.fin b n 0)).1 = .fin c k 0 ∧ formInt c k = formInt a m + formInt b n := by
  have hf (a : Bool) (m : Nat) : finInt a m 0 (min 0 0) = formInt a m := by simp [finInt, formInt]
  obtain ⟨c, k, h, hk⟩ := ofScaled_int (formInt a m + formInt b n) (if m = 0 && n = 0 && a == b then a else 0 == 2)
  refine ⟨c, k, ?_, hk⟩
  rw [addV, ← h]
  dsimp only
  rw [hf, hf]
  rfl

theorem groupSum_int (l : List (Int × Int)) : ∃ a m, groupSum (l.map fun x => (intForm x.1, intForm x.2)) = .fin a m 0
    ∧ formInt a m = (l.map fun x => x.1 * x.2).sum := by
  induction l using List.reverseRecOn with
  | nil => exact ⟨false, 0, rfl, rfl⟩
  | append_singleton l x ih =>
    obtain ⟨a, m, hl, ha⟩ := ih
    obtain ⟨b, n, hx, hb⟩ := mulV_intForm x.1 x.2
    obtain ⟨c, k, hs, hc⟩ := addV_int a m b n
    refine ⟨c, k, ?_, ?_⟩
    · rw [← hs, ← hl, ← hx]
      simp [groupSum]
    · rw [hc, ha, hb, List.map_append, List.sum_append]
      simp

/-! ### Updates -/

theorem matVal_num {fmt : Nat} (h : fmt ≤ 8) (p : Nat) : numOf (matVal fmt p) = operandOf fmt p := by
  unfold matVal operandOf
  split
  · dsimp only [numOf]
    rw [show two 0 = 1 from rfl, mul_one, intVal_meaning (by omega) (by omega)]
  · exact decodeF_num (by omega) p

theorem matVal_int (p : Nat) : matVal 8 p = intForm (intMeaning 8 p) := by
  rw [matVal, if_pos rfl, intVal_meaning (by omega) (by omega)]
  rfl

/-- An exact integer in s32, wrapped or clamped. -/
theorem deliverInt_clamp (sat : Bool) (v : Int) : (deliverInt 10 sat v).val = intPattern 10 (if sat then max (-2147483648) (min 2147483647 v) else v) := by
  rw [deliverInt_pattern (by omega) (by omega), show rangeOf 10 = (-2147483648, 2147483647) from rfl]
  dsimp only
  cases sat
  · simp
  · simp only [true_and, if_true]
    rcases (by omega : v < -2147483648 ∨ 2147483647 < v ∨ -2147483648 ≤ v ∧ v ≤ 2147483647) with h | h | ⟨h1, h2⟩
    · rw [if_pos h, min_eq_right (by omega), max_eq_left h.le]
    · rw [if_neg (by omega), if_pos h, min_eq_left h.le]
      rfl
    · rw [if_neg h1.not_gt, if_neg h2.not_gt, min_eq_right h2, max_eq_right h1]

section
variable (sat : Bool) (acc : Nat) (l : List (Nat × Nat))

/-- A floating update: nothing for an exact zero, else the sum rounded once to nearest. -/
theorem accUpdate_float {fmt : Nat} (h : fmt ≤ 7) :
    let t := accUpdate fmt sat acc (groupSum (l.map (fun x => (matVal fmt x.1, matVal fmt x.2))))
    let g := groupOf (l.map (fun x => (operandOf fmt x.1, operandOf fmt x.2)))
    (∀ neg, g = .fin neg 0 → t = acc) ∧ ((∀ neg, g ≠ .fin neg 0) → ∃ r, Gets 1 0 false (sumOf 0 (meaning 1 acc) g) r ∧ t = r.val) := by
  have h8 : fmt ≠ 8 := by omega
  have hg : l.map (fun x => (operandOf fmt x.1, operandOf fmt x.2)) = (l.map fun x => (matVal fmt x.1, matVal fmt x.2)).map numPair := by
    simp [numPair, matVal_num (by omega : fmt ≤ 8)]
  rw [hg]
  rcases groupSum_num (l.map fun x => (matVal fmt x.1, matVal fmt x.2)) with ⟨⟨neg, hz⟩, a, e, hv⟩ | ⟨hz, hv, hnum⟩
  · refine ⟨fun _ _ => ?_, fun hne => absurd hz (hne neg)⟩
    rw [hv, accUpdate, if_neg h8, if_pos rfl]
  · generalize groupSum (l.map fun x => (matVal fmt x.1, matVal fmt x.2)) = v at hv hnum ⊢
    refine ⟨fun neg h0 => absurd h0 (hz neg), fun _ => ⟨faddP 1 0 false (decodeF 1 acc) v, ?_, ?_⟩⟩
    · rw [← decodeF_num (by omega), ← hnum]
      exact faddP_gets (by omega) 0 false _ _
    · match v with
      | .nan s => rfl
      | .inf a => rfl
      | .fin a m e =>
        have hm : m ≠ 0 := by
          rintro rfl
          exact hv a e rfl
        rw [accUpdate, if_neg h8, if_neg hm]
        rfl

/-- An s8 update is the integer sum. -/
theorem accUpdate_int : accUpdate 8 sat acc (groupSum (l.map (fun x => (matVal 8 x.1, matVal 8 x.2))))
    = let v := intMeaning 10 acc + (l.map (fun x => intMeaning 8 x.1 * intMeaning 8 x.2)).sum
      intPattern 10 (if sat then max (-2147483648) (min 2147483647 v) else v) := by
  obtain ⟨a, m, hs, ha⟩ := groupSum_int (l.map fun x => (intMeaning 8 x.1, intMeaning 8 x.2))
  have hl : (l.map fun x => (matVal 8 x.1, matVal 8 x.2)) = (l.map fun x => (intMeaning 8 x.1, intMeaning 8 x.2)).map fun x => (intForm x.1, intForm x.2) := by
    simp [matVal_int]
  have ht : accUpdate 8 sat acc (.fin a m 0) = (deliverInt 10 sat (intVal 10 acc + formInt a m)).val := by
    rw [accUpdate, if_pos rfl]
    cases a <;> simp [formInt, intVal, isSigned, widthOf]
  rw [hl, hs, ht, ha, intVal_meaning (by omega) (by omega), deliverInt_clamp, List.map_map]
  rfl

end

/-- Settles O21: the model's rounding of an exact value is the statement's in every format, l8 and l6 by the order of their strings, and a group's sum is exact. -/
theorem conversionElementValues : Obligations.ConversionElementValues := by
  unfold Obligations.ConversionElementValues
  refine ⟨fun src dst mode sat ftz p hs hd _ _ => convert_converts hs hd mode sat ftz p,
    fun nf src mode sat ftz p b _ h7 h3 _ _ hb => quantize_converts h7 h3 mode sat ftz p hb,
    fun nf ftz p b h4 h7 _ hb => dequantize_converts h4 h7 ftz p hb, fun fmt sat acc l _ h8 _ => ⟨fun h7 => (accUpdate_float sat acc l h7).1,
      fun h7 => (accUpdate_float sat acc l h7).2, fun h => ?_⟩⟩
  subst h
  exact accUpdate_int sat acc l

end Sys2Proof.Machine
end

section
/-! SUPPORT. Reductions (spec/05 R142): the scalar result in flight, and the statement O26. Its hypotheses allow a WMODE that no instruction sets (spec/03 R67), whose ETYPE
names no format: there the model takes a value of VRED.MAX to be 8 bits wide and the statement 32. -/

namespace Sys2Proof.Machine
open Sys2Proof Sys2Proof.Claims Sys2Proof.Laws

set_option Elab.async false

/-- The result that a reduction of element `fn` puts in flight to a register. -/
theorem vred_pend {s : State} {wi si : Nat} {w : Wave} {sp : Split} {i : Instr} {fn : Nat} {d a b : Reg} (h : Issues s wi si w sp) (hst : Straight sp)
    (hr : VecReady s wi w { reads := [w.src sp a 0], ss := [(b, 1)], sd := [d], typeOk := redAccept fn w.etype }) (ht : w.atrap = false) (hd : d ≠ 0) :
    ∃ t w', s.vred i fn d a b = .next t ∧ t.waves[wi]? = some w'
      ∧ w'.pend = w.pend ++ [.scalar d (extElem w.etype (redElem fn w sp (s.vfile w.vfile) a (inFmt w.etype (w.rd b).toNat)).val) false] := by
  have hk := vec_done (i := i) (plan := fun w sp => { reads := [w.src sp a 0], ss := [(b, 1)], sd := [d], typeOk := redAccept fn w.etype }) (k := fun wi _ w sp =>
    let r := redElem fn w sp (s.vfile w.vfile) a (inFmt w.etype (w.rd b).toNat)
    ((s.beats w sp w.grp true).updWave wi (fun w => w.later d (extElem w.etype r.val) false)).raiseFlags wi w sp r.flags) h hst hr
    (by rw [State.raiseFlags, ht]; rfl)
  obtain ⟨w2, h2, e2⟩ := streamsAfter_wave (w.streamsUsed { reads := [w.src sp a 0], ss := [(b, 1)], sd := [d], typeOk := redAccept fn w.etype })
    (updWave_wave (fun w' => w'.flag (redElem fn w sp (s.vfile w.vfile) a (inFmt w.etype (w.rd b).toNat)).flags)
      (updWave_wave (s := s.beats w sp w.grp true)
        (fun w' => w'.later d (extElem w'.etype (redElem fn w sp (s.vfile w.vfile) a (inFmt w.etype (w.rd b).toNat)).val) false) h.wave))
  refine ⟨_, _, hk, stepped_wave si sp h2, ?_⟩
  have hp := congrArg Wave.pend e2
  rw [Wave.later, if_neg hd] at hp
  exact hp

/-- A split of all lanes. -/
def unassignedSplit : Split := Split.start (BitVec.allOnes 64) 0 (some 0)

/-- A wave whose ETYPE is 16, with VL 1 under an empty guard k1, and 256 in s5. -/
def unassignedWave : Wave :=
  { Wave.launch 0 0 0 none 0 false 0 0 0 with
    wmode := 0x81
    vl := 1
    s := (Vector.replicate 32 0).set 5 256
    splits := [unassignedSplit] }

/-- The machine with that wave. -/
def unassignedState : State := { State.reset with waves := [unassignedWave], vfiles := [.blank] }

theorem unassignedState_good : Good unassignedState := by
  have hcores : ∀ c ∈ unassignedState.cores, c.vlcap ≤ 64 := by
    intro c hc
    simp only [unassignedState, State.reset, List.mem_map] at hc
    obtain ⟨n, -, rfl⟩ := hc
    exact (CoreSt.reset_vlcap n).le
  refine ⟨rfl, rfl, fun w hw => ?_, hcores, fun q hq => nomatch hq⟩
  obtain rfl := List.mem_singleton.1 hw
  exact ⟨by decide, Nat.zero_lt_one, Nat.zero_lt_two⟩

theorem unassignedWave_ready (ok : Bool) (h : ok = true) : VecReady unassignedState 0 unassignedWave
    { reads := [groupRead unassignedWave 16 0 unassignedWave.grp unassignedWave.sew (unassignedWave.actives unassignedSplit)], ss := [(5, 1)], sd := [9], typeOk := ok } := by
  subst h
  refine ⟨rfl, rfl, rfl, rfl, rfl, rfl, fun t ht => (nomatch ht), fun r hr => ?_, fun r hr => ?_, fun r hr => ?_, fun g hg => nomatch hg⟩
  · obtain rfl := List.mem_singleton.1 hr
    exact ⟨rfl, rfl⟩
  · obtain rfl := List.mem_singleton.1 hr
    rfl
  · obtain rfl := List.mem_singleton.1 hr
    exact ⟨by decide, fun n hn => nomatch hn⟩

/-- Refutes O26: of VL 1 with no active element VRED.MAX is init, here 256 in 32 bits by the statement, of which the model leaves the low 8. -/
theorem not_reductionResults : ¬ Obligations.ReductionResults := by
  unfold Obligations.ReductionResults
  intro h
  have hi : Issues unassignedState 0 0 unassignedWave unassignedSplit := ⟨rfl, rfl, rfl, rfl⟩
  have hst : Straight unassignedSplit := fun h => absurd h (by decide)
  obtain ⟨-, -, -, ⟨-, integers, -⟩, -⟩ := h unassignedState 0 0 unassignedWave unassignedSplit 9 16 5 unassignedState_good hi hst
  obtain ⟨t, ht, w, hw, -, hp, -⟩ := (integers (by decide) (by decide) (unassignedWave_ready _ rfl)).1 (.inl rfl)
  obtain ⟨t', w', ht', hw', hp'⟩ := vred_pend (i := .vredMax 9 16 5) (fn := 1) hi hst (unassignedWave_ready _ rfl) rfl (by decide)
  obtain rfl := Host.Outcome.next.inj (ht.symm.trans ht')
  obtain rfl := Option.some.inj (hw.symm.trans hw')
  have e := (hp (by decide)).symm.trans hp'
  exact absurd e (by decide)

end Sys2Proof.Machine
end
